-- ==== Sys2Proof/Word.lean ====
section
/-! DEFINITION. Words, bytes and fixed banks: the plainest data types of the model. -/
namespace Sys2Proof

/-- One byte. -/
abbrev Byte := BitVec 8
/-- A 32-bit register word. -/
abbrev Word := BitVec 32
/-- The bit pattern of a binary32 value (02 R82). -/
abbrev F32 := BitVec 32
/-- A digest of SHA-256, byte 0 in the most significant place (14 R536). -/
abbrev Digest := BitVec 256

/-- A sparse map from natural numbers, in one canonical form: keys strictly rising, no entry equal to what an unlisted
key reads as. A memory is a list of `Host.Cell`. -/
abbrev SMap (β : Type) := List (Nat × β)

/-- A fixed number of like things. -/
abbrev Bank (α : Type) (n : Nat) := Vector α n

namespace Bank

variable {α : Type} {n : Nat}

/-- The entry of index `i`. -/
def at' (b : Bank α n) (i : Fin n) : α := b[i]

/-- The bank with entry `i` replaced. -/
def put (b : Bank α n) (i : Fin n) (x : α) : Bank α n := b.set i.val x i.isLt

/-- The bank with entry `i` passed through `f`. -/
def upd (b : Bank α n) (i : Fin n) (f : α → α) : Bank α n := b.put i (f (b.at' i))

@[simp] theorem at'_put_self (b : Bank α n) (i : Fin n) (x : α) : (b.put i x).at' i = x := by
  simp [at', put]

theorem at'_put_ne (b : Bank α n) {i j : Fin n} (h : i ≠ j) (x : α) : (b.put i x).at' j = b.at' j := by
  have h' : i.val ≠ j.val := fun e => h (Fin.ext e)
  simp [at', put, h']

@[simp] theorem at'_upd_self (b : Bank α n) (i : Fin n) (f : α → α) : (b.upd i f).at' i = f (b.at' i) := by
  simp [upd]

theorem at'_upd_ne (b : Bank α n) {i j : Fin n} (h : i ≠ j) (f : α → α) : (b.upd i f).at' j = b.at' j :=
  at'_put_ne b h _

end Bank

end Sys2Proof
end

