-- ==== Sys2Proof/Syntax.lean ====
section
/-! DEFINITION. The commands the block takes: one constructor of `Instr` per row of the opcode table, and the types of
their operands. -/
namespace Sys2Proof

/-- The two PCI Express endpoints (11 R411). -/
inductive Port where
  | a | b
deriving DecidableEq, Repr

/-- Who writes a register: a port, or Owl firmware with full reach (13 R492, 16 R627). -/
inductive Writer where
  | port (p : Port) | owl
deriving DecidableEq, Repr

/-- The four mailbox channels of Owl, in the order of 18 R717. -/
inductive Channel where
  | portA | portB | smbus | uart
deriving DecidableEq, Repr

/-- The kinds of engine unit, coded as in UNIT_RST (17 R661). -/
inductive UnitKind where
  | core | badger | bear | jay | front
deriving DecidableEq, Repr

/-- The clock sources that start (16 R610). -/
inductive ClockSource where
  | clkin | xta | xtb | fio
deriving DecidableEq, Repr

/-- The three PLLs (16 R609). -/
inductive Pll where
  | root | dram | link
deriving DecidableEq, Repr

/-- The five root-derived domains, in DOMAIN order (16 R628). -/
inductive Domain where
  | core | checker | fabric | owl | frameTimer
deriving DecidableEq, Repr

/-- Where an SRAM error lies (19 R724). -/
inductive Storage where
  | coreStore (c : Fin 48)
  | badgerCheck (e : Fin 16)
  | badgerBitmap (e : Fin 16) (word : Nat)
  | bear (u : Fin 2)
  | jay (u : Fin 4)
  | front (f : Fin 4)
  | burrowTile (t : Fin 16) (slice : Option (Fin 64)) (tile : Fin 1024)
  | burrowDirectory
  | beaver
  | fabric
  | lynx
  | spoor
  | owlSram
deriving DecidableEq, Repr

/-- What resets a port (17 R644). -/
inductive PortResetCause where
  | perst | flr | hotReset | linkDown
deriving DecidableEq, Repr

/-- Which DMA of a queue failed (11 R422). -/
inductive DmaFailure where
  | fetch | buffer | completion | publication
deriving DecidableEq, Repr

/-- How a boot stage ends (17 R650, R651): complete; no firmware authenticates; anything else that cannot complete. -/
inductive StageOutcome where
  | ok | authFailed | failed
deriving DecidableEq, Repr

/-- A frame-program image, as structured data: the spec gives the layout of each record but none of the container that
holds them (10 R377, 08 R305, 09 R338). PRESUMED: the container holds just these; log entry 5. -/
structure ProgramImage where
  /-- the image as loaded with every weight section removed (14 R537) -/
  body : List Byte
  /-- the weight sections in header order (14 R537) -/
  weights : List (List Byte)
  /-- task records of 32 bytes (10 R377) -/
  tasks : List (BitVec 256)
  /-- the successor array of 16-bit task indices (10 R377) -/
  succ : List (BitVec 16)
  /-- detector table entries of 8 bytes (10 R392) -/
  detectors : List (BitVec 64)
  /-- RETAIN_TIMERS, RETAIN_EDGES and SUBSCRIBE of the scheduling header (10 R395) -/
  retainTimers : BitVec 64
  retainEdges : BitVec 32
  subscribe : BitVec 32
  /-- GEMM descriptors of 64 bytes (08 R305) -/
  gemms : List (BitVec 512)
  /-- fusion records of 128 bytes (09 R338) -/
  fusions : List (BitVec 1024)
  /-- number of dynamic dimensions declared (08, "Shape buckets") -/
  dims : Nat
  /-- per bucket, the maximum of each declared dimension -/
  buckets : List (List Nat)
  /-- device address of the image's DRAM (10 R377 WORK; log 127) -/
  dram : Nat
  /-- engine requests in the image's DRAM, by their offset (10 R377 WORK) -/
  requests : List (Nat × List Byte)
  /-- DRAM regions declared retained: address and length (01 R41) -/
  retained : List (Nat × Nat)
  /-- declared minimum of mixed tiles and declared DRAM bytes (09 R365) -/
  minTiles : Nat
  dramBytes : Nat
  /-- declared worst-case time of P0 to P7 in µs, per virtual core count (09 R365) -/
  phaseUs : List (Nat × List Nat)
deriving DecidableEq, Repr

/-- A Dellane frame as it arrives (15 R559): header fields and payload. -/
structure LinkFrame where
  kind : Byte
  ttl : Byte
  dest : BitVec 16
  src : BitVec 16
  len : BitVec 16
  tag : Word
  stat : BitVec 16
  attnSeq : Byte
  reserved : Byte
  addr : BitVec 64
  aux : Word
  crc : Word
  payload : List Byte
deriving DecidableEq, Repr

/-- The commands: one per row of spec/opcode_table.json, in its order. -/
inductive Instr where
  -- frame (01)
  | frameTimerTick
  | ftickIn
  | substituteTick
  | ftickOutFall
  | run (w : Writer) (on : Bool)
  | resync (w : Writer)
  | phaseDeadline (k : Fin 8)
  | cutForced (c : Fin 48)
  | worldSeal (t : Fin 16)
  | publish (t : Fin 16)
  | safeCtrlRelease (w : Writer)
  -- queues (11)
  | sqDoorbell (p : Port) (t : Fin 16) (q : Fin 8) (value : Word)
  | cqDoorbell (p : Port) (t : Fin 16) (q : Fin 8) (value : Word)
  | commandFetch (t : Fin 16) (q : Fin 8) (word : BitVec 512)
  | completionWrite (t : Fin 16) (q : Fin 8)
  | frameCompletionWrite (t : Fin 16)
  | qStatusDmaErrClear (p : Port) (t : Fin 16) (q : Fin 8)
  -- world store (03)
  | ingest (t : Fin 16) (tag : Nat) (buf : List Byte)
  | mixedTile (t : Fin 16)
  | uniformTiles (t : Fin 16)
  | scroll (t : Fin 16)
  | region (t : Fin 16)
  | agentList (t : Fin 16)
  | agentRasterise (t : Fin 16)
  -- host commands (11 R428)
  | loadLattice (t : Fin 16) (tag : Nat) (buf : List Byte)
  | loadModel (t : Fin 16) (tag : Nat) (buf : List Byte)
  | measure (t : Fin 16) (tag : Nat)
  | shape (t : Fin 16) (tag : Nat)
  | hostCand (t : Fin 16) (tag : Nat) (buf : List Byte)
  | hostCandJudge (t : Fin 16) (tag : Nat)
  | loadProgram (t : Fin 16) (tag : Nat) (image : ProgramImage)
  | activate (t : Fin 16) (tag : Nat)
  | signal (t : Fin 16) (tag : Nat)
  | nop (t : Fin 16) (tag : Nat)
  -- BAR2 and configuration (11)
  | bar2Read (p : Port) (addr : Nat) (len : Nat)
  | bar2Write (p : Port) (addr : Nat) (data : List Byte)
  | configurationRequest (p : Port)
  -- search (04)
  | frontField (t : Fin 16)
  | expandNode (t : Fin 16)
  | proposalConvert (t : Fin 16)
  -- checker (05)
  | checkStart (e : Fin 16)
  | checkVerdict (e : Fin 16)
  -- solver (06)
  | smooth (t : Fin 16)
  | solveStart (u : Fin 2)
  | solveIteration (u : Fin 2)
  | solveEnd (u : Fin 2)
  -- selection (07)
  | select (t : Fin 16)
  | selectStart (u : Fin 4)
  | selectPass (u : Fin 4)
  | selectResult (u : Fin 4)
  -- cores (08, 09)
  | gemmTileStep (c : Fin 48)
  | peerSend (c : Fin 48)
  -- scheduler (10)
  | taskFetch (t : Fin 16)
  | computePartStart (c : Fin 48)
  | engineTaskIssue (t : Fin 16) (task : Nat)
  | waitStart (t : Fin 16) (task : Nat)
  | timerTask (t : Fin 16) (task : Nat)
  | signalTask (t : Fin 16) (task : Nat)
  | taskRetire (t : Fin 16) (task : Nat)
  | waitTimeout (t : Fin 16) (task : Nat)
  | timerFire (t : Fin 16) (timer : Fin 64)
  | edgeDeliver (t : Fin 16) (detector : Fin 32)
  | deadlock (t : Fin 16)
  -- register pages (12)
  | commitSingle (p : Port) (page : BitVec 12)
  | commitJoin (p : Port) (page : BitVec 12) (set : BitVec 4)
  | commitSubmit (p : Port) (page : BitVec 12) (set : BitVec 4)
  | discard (p : Port) (page : BitVec 12)
  | setApply (p : Port)
  | attnLatchClear (p : Port) (page : BitVec 12) (bits : Word)
  | wmarkCrossedClear (p : Port) (page : BitVec 12) (bits : Word)
  | attnMaskWrite (w : Writer) (page : BitVec 12) (mask : Word)
  | registerWrite (w : Writer) (page : BitVec 12) (offset : BitVec 12) (value : Word)
  | lowWordRead (p : Port) (page : BitVec 12) (offset : BitVec 12)
  | nowDateRead (p : Port)
  | errCountRead (p : Port) (page : BitVec 12)
  | cFaultRead (p : Port) (c : Fin 48)
  | cStorePeakRead (p : Port) (c : Fin 48)
  | eQueuePeakRead (p : Port) (e : Fin 16)
  | slotsPeakRead (p : Port)
  | qPeakRead (p : Port) (c : Fin 48)
  | bar2DropsRead (p : Port)
  | traceDropsRead (p : Port)
  | tailWrite (w : Writer) (value : Word)
  | divCountRead (p : Port)
  | cascadeDropsRead (p : Port)
  | foreignRead (p : Port)
  | lErrRead (p : Port) (l : Fin 8)
  | resetCauseRead (p : Port)
  | muxStuckRead (p : Port)
  | dEccRead (p : Port) (d : Fin 4)
  -- tenants and units (13)
  | tCtrlReset (p : Port) (t : Fin 16)
  | tCtrlHold (p : Port) (t : Fin 16)
  | tCtrlRelease (p : Port) (t : Fin 16)
  | dispatchAckTimeout (kind : UnitKind) (index : Nat)
  | unitRst (w : Writer) (kind : BitVec 3) (index : BitVec 6)
  | unitRstDone
  -- resets and boot (17)
  | pkgRst (w : Writer)
  | pwrGoodFall
  | sysRstNLow (us : Nat)
  | sysRstNRise
  | bootStageComplete (outcome : StageOutcome)
  | coldReset
  | portReset (p : Port) (cause : PortResetCause)
  | portReady (p : Port)
  | tempSample (junction : Bank (BitVec 16) 12)
  | throttleStep
  | throttleEnd
  | throttleRestoreStep
  | dramRefresh
  -- clocks (16)
  | levelChangeRequest (w : Writer) (target : BitVec 2)
  | pllLockDetect
  | pllStable (pll : Pll)
  | sourceStable (source : ClockSource)
  | sourceStartTimeout (bit : Fin 7)
  | srcEnWrite (w : Writer) (value : Word)
  | muxSwitch (d : Domain)
  | muxWatchdog (d : Domain) (toggled : Bool)
  | refLost
  | meterStart (w : Writer) (value : Word)
  | meterDone (count : Nat)
  | trimStart (w : Writer) (value : Word)
  | trimIteration (count : Nat)
  | trimRefTimeout
  | rtcSecond
  | rtcSourceLost
  | calSet (p : Port)
  -- Dellane (15)
  | linkEnable (w : Writer) (l : Fin 8)
  | linkTrained (l : Fin 8) (peer : BitVec 16)
  | retrain (w : Writer) (l : Fin 8)
  | linkReplay (l : Fin 8)
  | replayRetrain (l : Fin 8)
  | linkDownTimeout (l : Fin 8)
  | routeDataWrite (w : Writer) (value : Word)
  | write (l : Fin 8) (f : LinkFrame)
  | read (l : Fin 8) (f : LinkFrame)
  | doorbell (l : Fin 8) (f : LinkFrame)
  | collPart (l : Fin 8) (f : LinkFrame)
  | ack (l : Fin 8) (f : LinkFrame)
  | readData (l : Fin 8) (f : LinkFrame)
  | collResult (l : Fin 8) (f : LinkFrame)
  | witness (l : Fin 8) (f : LinkFrame)
  | tick (l : Fin 8) (f : LinkFrame)
  | tickForward
  | mark (l : Fin 8) (f : LinkFrame)
  | markSend
  | markForward
  | masterLost
  | cal (l : Fin 8) (f : LinkFrame)
  | calEchoSend (l : Fin 8)
  | calEcho (l : Fin 8) (f : LinkFrame) (roundTrip : Nat)
  -- Lynx (14)
  | lynxWindowEnd
  | lynxSig (f : LinkFrame)
  | lynxNotice (f : LinkFrame)
  | lynxMissing (window : Nat)
  | divClear (w : Writer)
  -- mailbox requests (18)
  | getInfo (ch : Channel) (req : List Byte)
  | readSensors (ch : Channel) (req : List Byte)
  | readCounters (ch : Channel) (req : List Byte)
  | readLog (ch : Channel) (req : List Byte)
  | getIdentity (ch : Channel) (req : List Byte)
  | challenge (ch : Channel) (req : List Byte)
  | verify (ch : Channel) (req : List Byte)
  | pair (ch : Channel) (req : List Byte)
  | identAck (ch : Channel) (req : List Byte)
  | fence (ch : Channel) (req : List Byte)
  | unfence (ch : Channel) (req : List Byte)
  | fwBegin (ch : Channel) (req : List Byte)
  | fwChunk (ch : Channel) (req : List Byte)
  | fwFinish (ch : Channel) (req : List Byte)
  | fwConfirm (ch : Channel) (req : List Byte)
  | setBoardCfg (ch : Channel) (req : List Byte)
  | getBoardCfg (ch : Channel) (req : List Byte)
  -- SMBus, flash, sensors (18)
  | smbResponseRead (cmd : Byte)
  | smbTimeRead
  | logFlush
  | counterCheckpoint
  | railSample (rails : Bank (BitVec 16) 15) (current : BitVec 16) (stackTemps : Bank (BitVec 16) 4) (power : BitVec 16)
  -- storage errors (19)
  | sramCorrected (where' : Storage)
  | sramUe (where' : Storage)
  | dramCorrected (addr : Nat)
  | dramUe (addr : Nat)
  -- JTAG (20)
  | extest
  | idcode
  | samplePreload
  | clamp
  | highz
  | extestPulse
  | extestTrain
  | bypass
  -- boundaries, losses and discards
  | lastFrameEnd
  | alignedFrameBoundary
  | guardActionsComplete
  | queueDmaError (t : Fin 16) (q : Fin 8) (what : DmaFailure)
  | rtcSourceReturn
  | pwrGoodRise
  | v3p3Loss
  | v3p3Return
  | owlWatchdog
  | linkDown (l : Fin 8)
  | invalidFrame (l : Fin 8) (f : LinkFrame)
  | creditReturn (l : Fin 8) (vc : Fin 3)
  | mbGoWhileBusy (p : Port)
  | unassignedMailboxOpcode (ch : Channel) (req : List Byte)
  | mailboxFrameDiscarded (ch : Channel)
  | flashEraseDone
deriving DecidableEq, Repr

end Sys2Proof
end

