-- ==== Sys2Proof/Decode.lean ====
section
/-! DEFINITION. Commands as words: the rows of the opcode table give no bits, so no word spells a command. -/
namespace Sys2Proof

/-- The command that the low `nbits` bits of a word spell by the table's bits. The table gives no row any bits. -/
def decodeTableWord (_nbits _w : Nat) : Option Instr := none

end Sys2Proof
end

