-- ==== Sys2Proof/Machine/Maps.lean ====
section
/-! DEFINITION. Sparse maps in their canonical form, strictly rising lists of indices, and byte strings. -/
namespace Sys2Proof.Machine
open Sys2Proof

variable {β : Type}

/-! ### Maps with a default -/

/-- What a map reads at a key; an unlisted key reads the default `d`. -/
def mget (d : β) : List (Nat × β) → Nat → β
  | [], _ => d
  | (a, v) :: r, k => if k = a then v else if k < a then d else mget d r k

/-- The map with one key written, in canonical form: writing the default removes the entry. -/
def mset [DecidableEq β] (d : β) : List (Nat × β) → Nat → β → List (Nat × β)
  | [], k, v => if v = d then [] else [(k, v)]
  | (a, w) :: r, k, v =>
    if k < a then (if v = d then (a, w) :: r else (k, v) :: (a, w) :: r)
    else if k = a then (if v = d then r else (k, v) :: r)
    else (a, w) :: mset d r k v

/-- Every key of the map lies above `lo`, keys rise strictly, and no entry is the default. -/
def mwfFrom [DecidableEq β] (d : β) : Option Nat → List (Nat × β) → Bool
  | _, [] => true
  | lo, (a, v) :: r => (match lo with | none => true | some l => decide (l < a)) && decide (v ≠ d) && mwfFrom d (some a) r

/-- The canonical form of a map with default `d`. -/
def mwf [DecidableEq β] (d : β) (m : List (Nat × β)) : Bool := mwfFrom d none m

/-! ### Maps without a default -/

/-- The entry of a key, if the map lists one. -/
def mfind : List (Nat × β) → Nat → Option β
  | [], _ => none
  | (a, v) :: r, k => if k = a then some v else if k < a then none else mfind r k

/-- The map with an entry put in. -/
def mput : List (Nat × β) → Nat → β → List (Nat × β)
  | [], k, v => [(k, v)]
  | (a, w) :: r, k, v =>
    if k < a then (k, v) :: (a, w) :: r
    else if k = a then (k, v) :: r
    else (a, w) :: mput r k v

/-- The map with a key taken out. -/
def mdel (m : List (Nat × β)) (k : Nat) : List (Nat × β) := m.filter (fun p => p.1 != k)

/-- The entry of a key passed through a function, where one is listed. -/
def mupd (m : List (Nat × β)) (k : Nat) (f : β → β) : List (Nat × β) :=
  m.map (fun p => if p.1 = k then (p.1, f p.2) else p)

/-! ### Strictly rising lists of indices -/

/-- The rising list with an index put in. -/
def sinsert : List Nat → Nat → List Nat
  | [], k => [k]
  | a :: r, k => if k < a then k :: a :: r else if k = a then a :: r else a :: sinsert r k

/-- The rising list of the indices of either list. -/
def sunion (l m : List Nat) : List Nat := m.foldl sinsert l

/-! ### Lists -/

/-- Write of position `i` of a list, growing it with `d` where it is too short. -/
def lput (d : β) : List β → Nat → β → List β
  | [], 0, x => [x]
  | [], i + 1, x => d :: lput d [] i x
  | _ :: r, 0, x => x :: r
  | a :: r, i + 1, x => a :: lput d r i x

/-- Position `i` of a list, `d` beyond its end. -/
def lget (d : β) (l : List β) (i : Nat) : β := l.getD i d

/-- The index of the first element that meets `p`. -/
def lfind (p : β → Bool) (l : List β) : Option Nat := l.findIdx? p

/-- The sum of a list of natural numbers. -/
def nsum (l : List Nat) : Nat := l.foldl (· + ·) 0

/-! ### Bits of naturals and byte strings (00 R7: little-endian) -/

/-- Bits `hi` down to `lo` of a natural number. -/
def bits (x hi lo : Nat) : Nat := (x >>> lo) % 2 ^ (hi + 1 - lo)

/-- Bit `i` of a natural number. -/
def bit (x i : Nat) : Bool := (x >>> i) % 2 == 1

/-- A Boolean as a bit. -/
def b2n (b : Bool) : Nat := if b then 1 else 0

/-- The value of a `w`-bit two's complement field. -/
def sext (w x : Nat) : Int := if x % 2 ^ w < 2 ^ (w - 1) then ((x % 2 ^ w : Nat) : Int) else ((x % 2 ^ w : Nat) : Int) - (2 ^ w : Nat)

/-- An integer as a `w`-bit two's complement field. -/
def toField (w : Nat) (x : Int) : Nat := (x % ((2 ^ w : Nat) : Int)).toNat

/-- The value of a byte string, its first byte the least significant. -/
def leNat : List Byte → Nat
  | [] => 0
  | b :: r => b.toNat + 256 * leNat r

/-- The first `n` bytes of a value, least significant first. -/
def leBytes : Nat → Nat → List Byte
  | 0, _ => []
  | n + 1, v => BitVec.ofNat 8 v :: leBytes n (v / 256)

/-- The value of a byte string, its first byte the most significant (18 R696). -/
def beNat (l : List Byte) : Nat := l.foldl (fun a b => a * 256 + b.toNat) 0

/-- The `n` bytes of a value, most significant first. -/
def beBytes (n v : Nat) : List Byte := (leBytes n v).reverse

/-- Byte `i` of a string; 0 beyond its end. -/
def byteAt (l : List Byte) (i : Nat) : Nat := ((l.drop i).headD 0).toNat

/-- The 16-bit field at byte `i`. -/
def u16At (l : List Byte) (i : Nat) : Nat := leNat ((l.drop i).take 2)

/-- The 32-bit field at byte `i`. -/
def u32At (l : List Byte) (i : Nat) : Nat := leNat ((l.drop i).take 4)

/-- The 64-bit field at byte `i`. -/
def u64At (l : List Byte) (i : Nat) : Nat := leNat ((l.drop i).take 8)

/-- Every byte of the string is zero. -/
def allZero (l : List Byte) : Bool := l.all (· == 0)

/-- A string brought to `n` bytes by cutting or zero padding. -/
def padTo (n : Nat) (l : List Byte) : List Byte := (l ++ List.replicate (n - l.length) 0).take n

/-- A string of bytes cut into pieces of `n`; `fuel` pieces at most. -/
def chunks (n : Nat) : Nat → List β → List (List β)
  | 0, _ => []
  | _, [] => []
  | f + 1, l => l.take n :: chunks n f (l.drop n)

/-- Saturating addition at `max`. -/
def satAdd (max a b : Nat) : Nat := min max (a + b)

/-- Saturating increment of a word-sized counter. -/
def sat32 (a : Nat) : Nat := min 0xFFFFFFFF (a + 1)
/-- Saturating increment of a 16-bit counter. -/
def sat16 (a : Nat) : Nat := min 0xFFFF (a + 1)

/-- Division rounded towards plus infinity. -/
def cdiv (a b : Nat) : Nat := (a + (b - 1)) / b

/-- Floor and ceiling of a rational with positive denominator. -/
def ifloor (n : Int) (d : Nat) : Int := n / (d : Int)
/-- Ceiling of a rational with positive denominator. -/
def iceil (n : Int) (d : Nat) : Int := - ((-n) / (d : Int))

/-- Integer square root by binary digits: the greatest `r` with `r * r ≤ n`, from `fuel` binary digits. -/
def isqrtGo (n : Nat) : Nat → Nat → Nat
  | 0, r => r
  | f + 1, r => let r' := r + 2 ^ f; if r' * r' ≤ n then isqrtGo n f r' else isqrtGo n f r

/-- Integer square root. -/
def isqrt (n : Nat) : Nat := isqrtGo n (Nat.log2 n / 2 + 1) 0

end Sys2Proof.Machine
end

