-- ==== Sys2Proof/Machine/Hash.lean ====
section
/-! DEFINITION. The hash and check functions the spec names: SHA-256 (14 R536, 18 R695), CRC-32 with the IEEE 802.3
polynomial (15 R559, 18 R681) and the CRC-64 of Lynx (14 R541). -/
namespace Sys2Proof.Machine
open Sys2Proof

/-- The greatest number of `n` bits above `r` whose power `k` does not exceed `x`: the root of `x`, bit by bit. -/
def rootBits (k x : Nat) : Nat → Nat → Nat
  | 0, r => r
  | n + 1, r => rootBits k x n (if (r + 2 ^ n) ^ k ≤ x then r + 2 ^ n else r)

/-- The first 32 bits of the fraction of the root `k` of a number, which is how SHA-256 has its constants (14 R536 names FIPS 180-4). -/
def rootFraction (k p : Nat) : Word := BitVec.ofNat 32 (rootBits k (p * 2 ^ (32 * k)) 35 0)

/-- The first 64 primes. -/
def shaPrimes : List Nat :=
  [2, 3, 5, 7, 11, 13, 17, 19, 23, 29, 31, 37, 41, 43, 47, 53] ++ [59, 61, 67, 71, 73, 79, 83, 89, 97, 101, 103, 107, 109, 113, 127, 131]
  ++ [137, 139, 149, 151, 157, 163, 167, 173, 179, 181, 191, 193, 197, 199, 211, 223]
  ++ [227, 229, 233, 239, 241, 251, 257, 263, 269, 271, 277, 281, 283, 293, 307, 311]

/-- The round constants of SHA-256: of the cube roots of the first 64 primes. -/
def shaK : List Word := shaPrimes.map (rootFraction 3)

/-- The initial hash value of SHA-256: of the square roots of the first eight primes. -/
def shaH0 : List Word := (shaPrimes.take 8).map (rootFraction 2)

/-- A word rotated right by two amounts, and a third word, exclusive-ored. -/
def turned (x : Word) (i j : Nat) (third : Word) : Word := third ^^^ x.rotateRight i ^^^ x.rotateRight j

/-- One word of the message schedule from the sixteen before it, newest first. -/
def shaNextW (w : List Word) : Word :=
  let late := lget 0 w 1
  let early := lget 0 w 14
  lget 0 w 15 + lget 0 w 6 + turned early 7 18 (early >>> 3) + turned late 17 19 (late >>> 10)

/-- The message schedule, newest word first. -/
def shaSchedule : Nat → List Word → List Word
  | 0, w => w
  | n + 1, w => shaSchedule n (shaNextW w :: w)

/-- One round of the compression function, of one word with its constant added. -/
def shaRound (h : List Word) (kw : Word × Word) : List Word :=
  match h with
  | [a, b, c, d, e, f, g, last] =>
    let choose := g ^^^ (e &&& (f ^^^ g))
    let major := (a &&& b) ||| (c &&& (a ||| b))
    let t := kw.1 + kw.2 + last + choose + turned e 6 11 (e.rotateRight 25)
    (t + major + turned a 2 13 (a.rotateRight 22)) :: a :: b :: c :: (t + d) :: e :: f :: [g]
  | short => short

/-- The compression of one block of 64 bytes. -/
def shaBlock (h : List Word) (block : List Byte) : List Word :=
  let w0 : List Word := (chunks 4 16 block).map (fun c => BitVec.ofNat 32 (beNat c))
  let ws := (shaSchedule 48 w0.reverse).reverse
  let r := (shaK.zip ws).foldl shaRound h
  (h.zip r).map (fun p => p.1 + p.2)

/-- SHA-256 of a byte string, byte 0 of the digest most significant. -/
def sha256 (msg : List Byte) : Digest :=
  let l := msg.length
  let padded := msg ++ [0x80] ++ List.replicate ((119 - l % 64) % 64) 0 ++ beBytes 8 (8 * l)
  let h := (chunks 64 (padded.length / 64) padded).foldl shaBlock shaH0
  BitVec.ofNat 256 (h.foldl (fun a w => a * 2 ^ 32 + w.toNat) 0)

/-- The 32 bytes of a digest in order. -/
def digestBytes (d : Digest) : List Byte := beBytes 32 d.toNat

/-- One bit of the reflected CRC-32. -/
def crc32Bit (c : Word) : Word := if c.getLsbD 0 then (c >>> 1) ^^^ 0xEDB88320 else c >>> 1

/-- CRC-32 with the IEEE 802.3 polynomial. PRESUMED: reflected, all ones before and after, as IEEE 802.3; log 6. -/
def crc32 (msg : List Byte) : Word :=
  ~~~ (msg.foldl (fun c b =>
    let c := c ^^^ b.zeroExtend 32
    crc32Bit (crc32Bit (crc32Bit (crc32Bit (crc32Bit (crc32Bit (crc32Bit (crc32Bit c)))))))) 0xFFFFFFFF)

/-- One bit of the CRC-64 of 14 R541. -/
def crc64Bit (c : BitVec 64) : BitVec 64 := if c.getLsbD 63 then (c <<< 1) ^^^ 0x42F0E1EBA9EA3693 else c <<< 1

/-- The CRC-64 of 14 R541 over a byte string, from a running signature: no reflection, no final XOR. -/
def crc64 (init : BitVec 64) (msg : List Byte) : BitVec 64 :=
  msg.foldl (fun c b =>
    let c := c ^^^ ((b.zeroExtend 64 : BitVec 64) <<< (56 : Nat))
    crc64Bit (crc64Bit (crc64Bit (crc64Bit (crc64Bit (crc64Bit (crc64Bit (crc64Bit c)))))))) init

end Sys2Proof.Machine
end

