-- ==== Sys2Proof/Config.lean ====
section
/-! DEFINITION. What one part fixes and the spec leaves open: free values without a body, so that no proof sees them. -/
namespace Sys2Proof.Config
open Sys2Proof

/-- A fresh free byte: a value the spec leaves open, by the draw number of the state (log 7). -/
opaque freeByte : Nat → Byte
/-- A fresh free word, by the draw number (log 7). -/
opaque freeWord : Nat → Word
/-- A value that a result or a report leaves open, by what the result may depend on and the value's place in it: the same inputs give the
same value (06 R234; 14 R534; log 41). -/
opaque openWord : List Nat → Nat → Word
/-- What a load result of COMPUTE work that is no GEMM, or any output the spec gives no function for, holds (log 8). -/
opaque workResult : Nat → Word
/-- The core cycle within a frame-timer µs at which a time-stamped event falls, by the draw number (log 9). -/
opaque cycleInUs : Nat → Nat
/-- The serial number of the part (18 R694; log 10). -/
opaque serial : BitVec 64
/-- The public key of the part: X then Y, 64 bytes (18 R694; log 10). -/
opaque publicKey : BitVec 512
/-- The endorsement of the part: r then s, 64 bytes (18 R694, R696; log 10). -/
opaque endorsement : BitVec 512
/-- An ECDSA signature by the part's key over a digest, with a nonce drawn by number (18 R697; log 10). -/
opaque sign : Nat → Digest → BitVec 512
/-- A firmware image authenticates against the keys in ROM and fuses (18 R689; log 10). -/
opaque authentic : List Byte → Bool
/-- The answer of the configuration space to a configuration request (11 R411; log 11). -/
opaque configSpace : Nat → Word
/-- The time one refresh occupies a site's stack, in ns (17 R663; log 25). -/
opaque refreshNs : Nat → BitVec 16
/-- Host software has enabled 10-bit tags on a port, 0 for Port A and 1 for Port B, in its configuration space (11 R412; log 129). -/
opaque tenBitTags : Nat → Bool

end Sys2Proof.Config
end

