-- ==== Sys2Proof/Machine/State.lean ====
section
/-! DEFINITION. The state of the block as plain data: everything the spec gives the device, the queue of waiting
commands, and the outcomes' reason types. -/
namespace Sys2Proof.Machine
open Sys2Proof

/-! ### The part fitted (00 R1 to R5, 02 R70) -/

/-- Grade: the number of enabled tensor cores (00 R2). -/
inductive Grade where
  | g48 | g40 | g32
deriving DecidableEq, Repr

/-- Assembly: I/O dies and stacks (00 R3). -/
inductive Assembly where
  | l1m2 | l2m4 | l2m2
deriving DecidableEq, Repr

/-- Identity of the part fitted: fixed for a device, read through DEVICE.ID and CORE_FUSE (12 R479). -/
structure Chip where
  grade : Grade
  assembly : Assembly
  /-- physical core enable mask (02 R70) -/
  fuse : BitVec 48
  stepLetter : BitVec 4
  stepDigit : BitVec 4
deriving DecidableEq, Repr

/-! ### Host side: doorbells, commands, queues (11) -/

/-- What a doorbell fixes about an entry it publishes: its time, its place in doorbell order, and the frames it belongs
to, counted as frames begun since package reset: the next frame begun has `frames + 1` (01 R33, 11 R425, R431). -/
structure Stamp where
  time : Nat
  order : Nat
  /-- frame an ingest record, MEASURE or SHAPE belongs to (01 R33) -/
  frame : Nat
  /-- frame a HOST_CAND belongs to (11 R431) -/
  hostFrame : Nat
  /-- the doorbell fell at or after D_0 (14 R531 bit 0) -/
  afterD0 : Bool
deriving DecidableEq, Repr

/-- A fetched command holding a tag (11 R423). -/
structure Cmd where
  tag : Nat
  q : Fin 8
  word : BitVec 512
  stamp : Stamp
  /-- fetched after the seal (MEASURE, SHAPE) or at or after D_3 (HOST_CAND) of the frame it belongs to (11 R433) -/
  late : Bool
  /-- accepted, its effect still to come (an INGEST applying, a HOST_CAND waiting for its tick, a SIGNAL for D_0) -/
  waiting : Bool
  /-- the bytes of its buffer, kept while it waits -/
  data : List Byte
  /-- first ID and number of the records a HOST_CAND has written, while it waits for room in the checker queues (05 R214) -/
  delivering : Option (Nat × Nat)
deriving DecidableEq, Repr

/-- A completed command whose completion entry is not yet written (11 R426, R440). -/
structure Comp where
  cmdId : BitVec 16
  result : Byte
  /-- bytes 12 to 31 of the entry, byte 12 lowest -/
  detail : BitVec 160
deriving DecidableEq, Repr

/-- One submission and completion queue pair (11 R417 to R423). -/
structure Queue where
  sqTail : Nat
  sqHead : Nat
  /-- stamps of published, unfetched entries, in ring order -/
  published : List Stamp
  cqHead : Nat
  cqTail : Nat
  toggle : Bool
  /-- completion slots written and unconsumed -/
  written : Nat
  /-- completion slots reserved by tags (11 R423) -/
  reserved : Nat
  /-- the slot kept for the tenant's frame completion, queue 0 only (11 R443) -/
  frameSlot : Bool
  /-- completed commands in completion order -/
  comps : List Comp
  /-- completion entries as last written, by ring slot -/
  ring : SMap (BitVec 256)
  sqActive : Bool
  cqActive : Bool
  dbErr : Bool
  dmaErr : Bool
  /-- the owning port has been reset: completions are discarded, and the page returns to its reset values when its tags are
  free (17 R644) -/
  dying : Bool
deriving DecidableEq, Repr

/-- A fixed frame completion, waiting for its slot (11 R441 to R445). -/
structure FrameDone where
  frame : BitVec 64
  result : Byte
  cutMap : Byte
  outcome : Byte
  planId : Word
  /-- PUB_SLOT, fixed with the completion (01 R61) -/
  slot : BitVec 16
  /-- the completion entry as it stood when the completion was fixed, for bytes 160 to 191 of the record (11 R442) -/
  entry : BitVec 256
  /-- bytes 0 to 159 of the publication record: candidate record and digest; empty when PLAN_VALID is 0 -/
  record : List Byte
deriving DecidableEq, Repr

/-! ### World store (03) -/

/-- A voxel (03 R104). -/
inductive Voxel where
  | free | occupied | unknown
deriving DecidableEq, Repr

/-- What a tile holds: one state throughout, or 4,096 words of 16 voxels, the word of cell (x, y) at index 64 y + x,
a word of zero being unlisted (03 R105, R106). -/
inductive TileBody where
  | uniform (v : Voxel)
  | mixed (words : SMap Word)
deriving DecidableEq, Repr

/-- A static tile (03 R106, R107). -/
structure Tile where
  body : TileBody
  cls : BitVec 3
deriving DecidableEq, Repr

/-- An agent record with its mode blocks (03 R120, R121). -/
structure Agent where
  id : Word
  bandLo : Nat
  bandHi : Nat
  wpDtMs : Nat
  radius : Nat
  growth : Nat
  t0Us : Int
  modes : List (List (Int × Int))
deriving DecidableEq, Repr

/-- An ingest record as checked (03 R117). -/
inductive Record where
  | mixedTile (tx ty : Nat) (data : List Byte)
  | uniformTiles (tx0 ty0 tx1 ty1 : Nat) (v : Voxel)
  | scroll (dx dy : Int)
  | region (tx0 ty0 tx1 ty1 : Nat) (cls : BitVec 3)
  | agentList (agents : List Agent)
deriving DecidableEq, Repr

/-- An accepted INGEST command with its records still to apply (03 R115). -/
structure Job where
  tag : Nat
  stamp : Stamp
  records : List Record
deriving DecidableEq, Repr

/-- The world a frame's checks use, as sealed (01 R34, 03 R108, R130 to R132). -/
structure Sealed where
  stat : SMap Tile
  /-- dynamic tiles by 1,024 × slice + tile -/
  dyn : SMap TileBody
  /-- dynamic tiles collapsed before the seal -/
  collapsed : List Nat
  /-- tiles named by records unapplied at the seal, 03 R130 -/
  lateTiles : List Nat
  /-- every dynamic slice counts as OCCUPIED, 03 R132 and 11 R434 -/
  allOccupied : Bool
  agents : List Agent
  /-- indices of agents marked by their envelope, 03 R125 and R131 -/
  envelopes : List Nat
deriving DecidableEq, Repr

/-- One tenant's world (03 R99). -/
structure World where
  stat : SMap Tile
  dyn : SMap TileBody
  /-- collapsed dynamic tiles (03 R127) -/
  dynCollapsed : List Nat
  /-- agents applied in the frame, in index order (03 R124) -/
  agents : List Agent
  /-- indices of the agents a rasteriser has marked (03 R123) -/
  marked : List Nat
  jobs : List Job
  scrollX : Int
  scrollY : Int
  cntDyn : Nat
  cntStat : Nat
  /-- the frame's sealed view; none before the seal -/
  view : Option Sealed
deriving DecidableEq, Repr

/-! ### Search and candidates (04) -/

/-- The vehicle limit block (04 R145). -/
structure Limits where
  vMax : BitVec 16
  accelLong : BitVec 16
  decelComfort : BitVec 16
  decelDyn : BitVec 16
  accelLat : BitVec 16
  jerk : BitVec 16
  kappaFront : BitVec 16
  kappaRear : BitVec 16
  kappa4ws : BitVec 16
  crabMax : Byte
  modes : Byte
deriving DecidableEq, Repr

/-- A motion primitive (04 R151). -/
structure Prim where
  start : BitVec 16
  stop : BitVec 16
  dx : BitVec 16
  dy : BitVec 16
  durationMs : BitVec 16
  kappa0 : BitVec 16
  kappa1 : BitVec 16
  acc0 : BitVec 16
  acc1 : BitVec 16
  cost : BitVec 16
  crab : Byte
deriving DecidableEq, Repr

/-- A primitive table image (04 R150), with the SHA-256 of its bytes (14 R537). -/
structure Lattice where
  cellCm : Byte
  limits : Limits
  prims : List Prim
  hash : Digest
deriving DecidableEq, Repr

/-- A candidate record (04 R174). -/
structure Cand where
  id : Nat
  origin : BitVec 2
  smoothed : Bool
  clipped : Bool
  /-- 0 PENDING, 1 CLEAR, 2 HIT, 3 UNSURE -/
  verdict : BitVec 2
  firstHit : Byte
  fpClass : Byte
  parent : Word
  cost : F32
  x : BitVec 16
  y : BitVec 16
  heading : BitVec 16
  speed : BitVec 16
  mode : BitVec 2
  /-- 0 CHAIN, 1 CONTROL, 2 STOP -/
  kind : BitVec 2
  count : Byte
  status : Byte
  param : BitVec 16
  /-- GEOMETRY: 24 words of 16 bits -/
  geom : List (BitVec 16)
  hitAgent : Word
  companion : F32
  frame : BitVec 64
  durationMs : Word
  planKind : Bool
  continued : Bool
  planParam : BitVec 16
  planDurationMs : Word
  planDecel : BitVec 16
  arc0Lo : Word
  arc0Hi : Word
  v0Lo : Word
  v0Hi : Word
  /-- the start pose left the 16-bit range under a scroll: the check ends UNSURE (03 R119) -/
  outside : Bool
deriving DecidableEq, Repr

/-- A tenant's last published plan: the record, the tick from which it takes effect, and what its geometry names at
publication (01 R47, 04 R176, 05 R210). The exact speed and path of a published stop's epoch are in mm/s and mm, as
numerator and denominator. -/
structure Plan where
  rec' : Cand
  epochUs : Nat
  /-- published since the last tick: the next tick is its epoch -/
  fresh : Bool
  prims : List Prim
  decel : Nat
  /-- its start pose left the 16-bit range under a scroll (03 R119) -/
  outside : Bool
  speedQ : Int × Nat
  arcQ : Int × Nat
deriving DecidableEq, Repr

/-- A node of the lattice expander (04 R162, R163). -/
structure Node where
  cx : Int
  cy : Int
  head : Nat
  speed : Nat
  mode : Nat
  g : Nat
  elapsed : Nat
  depth : Nat
  chain : List Nat
  gen : Nat
  expanded : Bool
deriving DecidableEq, Repr

/-- Stage of a tenant's Front request in the frame (04 R161). -/
inductive FrontStage where
  | notRun | requested | done
deriving DecidableEq, Repr

/-- One tenant's search (04). -/
structure Search where
  limits : Limits
  image : Option Lattice
  /-- the image accepted for the next tick, with its doorbell's order (04 R155, R183) -/
  imageNext : Option (Nat × Lattice)
  front : FrontStage
  /-- unblocked cells: bit cx of entry cy (04 R157); none until Front has built the field -/
  unblocked : List Nat
  /-- per row cy, the cells cx a goal is reached from with their stored costs (04 R158) -/
  cost : List (List (Nat × Nat))
  /-- stored cost of the other unblocked cells (04 R158, R160) -/
  costDefault : Nat
  /-- task that asked for Front and the expansion -/
  frontTask : Nat
  nodes : List Node
  generated : Nat
  expanded : Nat
  emitted : Nat
  /-- END_REASON once expansion has ended (04 R166) -/
  ended : Option Nat
  /-- node on which the expander stalled, with the indices of the primitives it has left (05 R214) -/
  resume : Option (Node × List Nat)
  /-- Fox rows delivered and not yet converted, by proposal index (04 R168, R169) -/
  fox : List (Nat × List F32)
  converted : Nat
  foxClipped : Nat
  foxDiscarded : Nat
  foxOver : Nat
  /-- next HOST candidate ID (04 R175) -/
  hostNext : Nat
  exhausted : Bool
deriving DecidableEq, Repr

/-- The measurement block (06 R237). -/
structure Measure where
  x : BitVec 16
  y : BitVec 16
  heading : BitVec 16
  speed : BitVec 16
  accel : BitVec 16
  kappa : BitVec 16
deriving DecidableEq, Repr

/-- Candidate table entries, CLEAR bits and stops of a tenant (04 R175, 05 R216). -/
structure Table where
  /-- entries written in the current frame, by ID -/
  cands : SMap Cand
  /-- IDs whose CLEAR bit is set, strictly rising -/
  clear : List Nat
  /-- words of the bitmap of which engine read as clear until the next tick (19 R724): (engine, word) -/
  lost : List (Nat × Nat)
  lastPlan : Option Plan
  /-- primitives the copied plan names, for the frame's stops (05 R210) -/
  stopPrims : List Prim
  /-- time from the plan's epoch to this frame's epoch, µs (05 R210) -/
  stopAgeUs : Nat
  /-- exact speed, path and acceleration of the copied plan at this frame's epoch, in mm/s, mm and mm/s² -/
  stopSpeed : Int × Nat
  stopArc : Int × Nat
  stopAcc : Int × Nat
  /-- checks judged and their verdicts in the frame (05 R222) -/
  checked : Nat
  nClear : Nat
  nHit : Nat
  nUnsure : Nat
  engineList : List (Fin 16)
  /-- IDs written whose producer waits for room in their engine's queue, oldest first (05 R214) -/
  stalled : List Nat
deriving DecidableEq, Repr

/-! ### Solver (06) -/

/-- The vehicle-model parameter block: 13 binary32 fields in the order of 06 R235, with its 64 bytes. -/
structure Model where
  fields : Vector F32 13
  loaded : Bool
deriving DecidableEq, Repr

/-- State of a Bear slot. -/
inductive SlotSt where
  | queued | running | finished
deriving DecidableEq, Repr

/-- A slot of a SMOOTH request (06 R229 to R232). -/
structure BearSlot where
  slot : Nat
  source : Nat
  report : Nat
  task : Nat
  unit : Fin 2
  st : SlotSt
deriving DecidableEq, Repr

/-- One tenant's solver state. -/
structure Solver where
  model : Model
  /-- the block accepted for the next tick, with its doorbell's order (06 R236) -/
  modelNext : Option (Nat × Model)
  /-- the measurement block of the frame, and of the next frame, with their doorbells' order (06 R238) -/
  meas : Option (Nat × Measure)
  measNext : Option (Nat × Measure)
  /-- SMOOTH requests issued and not yet received by Bear: (task, request bytes) -/
  issued : List (Nat × List Byte)
  slots : List BearSlot
  solved : Nat
  notConverged : Nat
  illPosed : Nat
  other : Nat
  cycles : Nat
deriving DecidableEq, Repr

/-- A running solve (06 R239 to R252). Values are patterns of the working precision, binary32 in the low half. -/
structure Solve where
  tenant : Fin 16
  slot : Nat
  source : Nat
  report : Nat
  fp64 : Bool
  sub : Nat
  iters : Nat
  refineMax : Nat
  h : BitVec 64
  vref : List (BitVec 64)
  kref : List (BitVec 64)
  init : List (BitVec 64)
  startX : BitVec 16
  startY : BitVec 16
  startHeading : BitVec 16
  startSpeed : BitVec 16
  lo : List (Option (BitVec 64))
  hi : List (Option (BitVec 64))
  hdiag : List (BitVec 64)
  g : List (BitVec 64)
  z : List (BitVec 64)
  y : List (BitVec 64)
  lamL : List (BitVec 64)
  lamU : List (BitVec 64)
  done : Nat
  refines : Nat
  alphas : List (BitVec 64)
  illPosed : Bool
  measUsed : Bool
  measMissing : Bool
  stop : Bool
deriving DecidableEq, Repr

/-! ### Units (13 R514) -/

/-- Owl's view of a unit. -/
inductive OwlView where
  | up | down | fenced
deriving DecidableEq, Repr

/-- The two views of a unit, its uncorrectable SRAM errors since package reset (19 R725), a finished unit reset waiting for
the next tick (17 R648), and whether the unit was usable at the last tick and has stayed so (13 R514). -/
structure View where
  owl : OwlView
  beaverUp : Bool
  ueCount : Nat
  rejoin : Bool
  joined : Bool
deriving DecidableEq, Repr

/-- A Bear unit. -/
structure BearUnit where
  view : View
  solve : Option Solve
deriving DecidableEq, Repr

/-- A queued check (05 R212). -/
structure Entry where
  tenant : Fin 16
  id : Nat
deriving DecidableEq, Repr

/-- A Badger engine (05 R212 to R222). -/
structure Engine where
  view : View
  queue : List Entry
  /-- the check in progress -/
  current : Option Entry
  /-- the check in progress ends UNSURE because of an SRAM error (19 R724) -/
  spoiled : Bool
  checked : Nat
  busy : Nat
deriving DecidableEq, Repr

/-- An entry of a row (07 R268, R269). -/
structure SelEntry where
  pos : Nat
  ident : Word
  key : F32
  comp : F32
deriving DecidableEq, Repr

/-- A SELECT request as accepted (07 R266). -/
structure SelReq where
  tenant : Fin 16
  task : Nat
  phase : Nat
  word : BitVec 512
  /-- instance number of a collective (15 R586) -/
  inst : Nat
  /-- positions snapshotted and their entries, where the request restarts from its snapshot (07 R290) -/
  snap : Option (Nat × List SelEntry)
deriving DecidableEq, Repr

/-- A running selection (07 R268, R279, R284). -/
structure SelRun where
  req : SelReq
  v : Nat
  /-- positions snapshotted so far -/
  snapped : Nat
  entries : List SelEntry
  /-- tiles completed after the snapshot -/
  tiles : Nat
  stop : Bool
  /-- collective passes whose partial has been sent (15 R586) -/
  sent : List Nat
  /-- combined state received: pass, part, part count and bytes -/
  incoming : List (Nat × Nat × Nat × List Byte)
  /-- the status with which a collective has failed -/
  failed : Option Byte
deriving DecidableEq, Repr

/-- A Jay unit (07 R271). -/
structure JayUnit where
  view : View
  queue : List SelReq
  run : Option SelRun
deriving DecidableEq, Repr

/-- One tenant's selections (07 R285 to R288). -/
structure Selection where
  /-- SELECT requests issued and not yet received by Jay: (task, phase, request) -/
  issued : List (Nat × Nat × List Byte)
  dealt : Nat
  finalIssued : Bool
  /-- entry 0 of the completed FINAL; some none: COUNT 0 -/
  finalResult : Option (Option Nat)
  ok : Nat
  approx : Nat
  cut : Nat
  other : Nat
  collectives : List (Nat × Nat)
deriving DecidableEq, Repr

/-- A Front engine. -/
structure FrontUnit where
  view : View
deriving DecidableEq, Repr

/-! ### Cores (08, 09) and Beaver (10) -/

/-- A finished output tile awaiting its peer send (09 R356). -/
structure Outgoing where
  q : Nat
  row0 : Nat
  col0 : Nat
  rows : Nat
  cols : Nat
  /-- it comes from the second GEMM of a chain -/
  second : Bool
  /-- stored elements, row-major, each in the low bytes of its pattern -/
  elems : List Word
  /-- write requests of a LINK tile already sent (09 R357, R361) -/
  sent : Nat
deriving DecidableEq, Repr

/-- Where a part goes on whose core left UP (08 R329). -/
structure Resume where
  /-- complete output tiles of the GEMM that stores -/
  col : Nat
  /-- one of them is still to be sent -/
  outgoing : Option Outgoing
deriving DecidableEq, Repr

/-- A part of a COMPUTE task: one unit of 08 R312. -/
structure PartRef where
  tenant : Fin 16
  task : Nat
  unit : Nat
  vcore : Nat
  prio : Nat
  readyAt : Nat
  /-- the command at which it became ready: parts that became ready together are ordered by index (10 R383) -/
  moment : Nat
  /-- output tiles already complete, and one of them still to be sent, where its core left UP (08 R329) -/
  resume : Option Resume
deriving DecidableEq, Repr

/-- The part a core runs. -/
structure Run where
  part : PartRef
  startAt : Nat
  /-- addresses of A, B and C as read when the part started (08 R317) -/
  addrs : Nat × Nat × Nat
  col : Nat
  kStep : Nat
  /-- the second GEMM of a chain runs -/
  second : Bool
  acc : List Word
  /-- the tile's accumulators are complete: its epilogue or its score-tile step is next (09 R368) -/
  closing : Bool
  /-- the accumulator half the tile takes (08 R303) -/
  half : Bool
  /-- output tiles that an earlier core completed (08 R329) -/
  from' : Nat
  /-- since when its time is not yet in LOAD (10 R400) -/
  since : Nat
  /-- KEEP: the first GEMM's stored band, row-major (09 R350) -/
  band : List Word
  /-- SOFTMAX row state m and l, and the output accumulator (09 R351) -/
  rowM : List F32
  rowL : List F32
  oAcc : List F32
  rowBad : List Bool
  outgoing : Option Outgoing
  /-- the deadline has passed: it stops at the next tile boundary (01 R36) -/
  stop : Bool
  /-- every tile is done and sent: it waits for the answers to its link sends (09 R361) -/
  finished : Bool
deriving DecidableEq, Repr

/-- A pointer-list entry as a core read it (08 R317). -/
structure ListEntry where
  tenant : Fin 16
  task : Nat
  entry : Nat
  addrs : Nat × Nat × Nat
deriving DecidableEq, Repr

/-- A tensor core (08 R294, R301, R327). -/
structure Core where
  view : View
  ready : List PartRef
  run : Option Run
  /-- tenant whose task it last ran; its store is zeroed before another tenant's (08 R304) -/
  owner : Option (Fin 16)
  steps : Nat
  busy : Nat
  load : Nat
  parts : Nat
  steals : Nat
  hist : Vector Nat 8
  /-- the core store by local offset; an unlisted byte is 0 (08 R301 to R304) -/
  store : List Host.Cell
  /-- pointer-list entries read in the frame (08 R317) -/
  entries : List ListEntry
deriving DecidableEq, Repr

/-- A loaded program with its two hashes (14 R537). -/
structure Program where
  image : ProgramImage
  programHash : Digest
  weightsHash : Digest
deriving DecidableEq, Repr

/-- State of a fetched task (10 R379 to R385). -/
inductive TaskSt where
  | blocked | ready | started | waiting | complete
deriving DecidableEq, Repr

/-- A task in a slot. -/
structure Task where
  index : Nat
  slot : Nat
  st : TaskSt
  readyAt : Nat
  startAt : Nat
  deadlineUs : Nat
  partsLeft : Nat
  status : Byte
  /-- a started WAIT with a time-out of its own: it holds a delay-list entry (10 R388) -/
  timed : Bool
  /-- candidate IDs a CHECK_DRAIN still waits for, or link tags outstanding -/
  waitsOn : List Nat
  /-- flags that satisfied a WAIT with CONSUME: they clear as it retires (10 R387) -/
  took : List Nat
  /-- ranges a listed GEMM has written outside FREE mode: unit, address and length (08 R318) -/
  outs : List (Nat × Nat × Nat)
deriving DecidableEq, Repr

/-- An armed program timer (10 R390, R391). -/
structure Timer where
  id : Nat
  due : Nat
  flag : Nat
  period : Nat
  seq : Nat
  /-- the frame, counted as frames begun, in which a TIMER task armed it (14 R531 bit 2) -/
  frame : Nat
deriving DecidableEq, Repr

/-- An edge detector (10 R392, R393). -/
structure Detector where
  cfg : BitVec 64
  latched : Bool
deriving DecidableEq, Repr

/-- The tiles a peer-sending GEMM has sent, and for a CORE target those its ring still holds, by q (09 R356, R358). -/
structure Ring where
  gemm : Nat
  /-- by task and q -/
  sent : List (Nat × Nat)
  held : List (Nat × List Word)
deriving DecidableEq, Repr

/-- One tenant's scheduling (10). -/
structure Sched where
  slotA : Option Program
  slotB : Option Program
  activeB : Bool
  /-- pending ACTIVATE: its doorbell's order and the slot it names (true B) -/
  activate : Option (Nat × Bool)
  /-- the frame's program starts tasks in this frame (10 R381, 08 R322) -/
  running : Bool
  /-- the active slot held a program at the tick: the frame has a program (01 R43) -/
  inForce : Bool
  nextFetch : Nat
  tasks : List Task
  /-- tasks whose successors have been released -/
  released : List Nat
  retired : List Nat
  cancelled : List Nat
  flags : List Nat
  timers : List Timer
  timerSeq : Nat
  detectors : Bank Detector 32
  rings : List Ring
  signal : Word
  abortCode : Byte
  deadEdges : Nat
  waitTimeouts : Nat
  nCancelled : Nat
  delayPeak : Nat
  /-- ranges of DRAM the frame's tasks have written: address and length (01 R41) -/
  results : List (Nat × Nat)
  /-- commands settled (the model's own count): work that became ready at one command became ready together (10 R383) -/
  moment : Nat
  /-- doorbell's order, dimensions and bucket accepted for the frame, and for the next (08 R319) -/
  shape : Option (Nat × List Nat × Nat)
  shapeNext : Option (Nat × List Nat × Nat)
deriving DecidableEq, Repr

/-! ### Outcome and digest (01 R44, 14 R531 to R538) -/

/-- A tenant's outcome of the frame in progress. -/
structure Outcome where
  cutMap : Byte
  cutForced : Bool
  timing : BitVec 16
  /-- the frame completion is fixed -/
  fixed : Bool
  /-- the program's tasks were aborted: DEADLOCK, reset, fenced unit or program fault (01 R46 row 2) -/
  aborted : Bool
  /-- verdict that made SAFE_STATE assert -/
  imminent : Bool
  result : Byte
  planId : Option Nat
deriving DecidableEq, Repr

/-- A tenant's Spoor chain (14 R536 to R538). -/
structure Spoor where
  prev : Digest
  /-- a T_SEED change applied: PREV of the first frame it governs -/
  seeded : Bool
  /-- inputs belonging to the frame, in doorbell order: order, opcode, bytes -/
  inputs : List (Nat × Byte × List Byte)
  inputsNext : List (Nat × Byte × List Byte)
  configHash : Digest
  last : Digest
deriving DecidableEq, Repr

/-- STATE of a tenant (13 R495). -/
inductive TState where
  | none | active | resetting | held
deriving DecidableEq, Repr

/-- One tenant. -/
structure Tenant where
  state : TState
  holdPending : Bool
  releasePending : Bool
  /-- ENABLE applied as 1: ACTIVE from the next tick (13 R496) -/
  enabling : Bool
  cause : BitVec 4
  resets : Nat
  faults : Nat
  world : World
  search : Search
  table : Table
  solver : Solver
  sel : Selection
  sched : Sched
  out : Outcome
  spoor : Spoor
  queues : Bank Queue 8
  /-- queue that the tenant's round of fetching comes to next (11 R424) -/
  queueTurn : Nat
  cmds : List Cmd
  /-- a fixed frame completion that has a slot of queue 0 reserved (11 R443) -/
  delivering : Option FrameDone
  /-- the backlog: fixed frame completions without a slot, oldest first (11 R443) -/
  backlog : List FrameDone
  /-- publication records as written, by ring slot -/
  pubRing : SMap (List Byte)
  /-- witness records as written, by ring slot (13 R511) -/
  witnessRing : SMap (List Byte)
  /-- the tenant witnessed a remote source at the last D_7 (13 R513) -/
  witnessing : Bool
  /-- a remote witness record arrived since the last D_7 (13 R513) -/
  witnessed : Bool
  /-- FRAME_NUMBER of the next remote record, as the last one had it -/
  witnessNext : Nat
  /-- FRAME_NUMBERs counted missed since the last record written: their records, come late, are not written (13 R513) -/
  witnessMissed : List Nat
  /-- usable leased units at the last tick (13 R520 T_UNITS) -/
  unitsWord : Word
deriving DecidableEq, Repr

/-! ### Frame (01) -/

/-- The frame machine. -/
structure Frame where
  run : Bool
  inFrame : Bool
  /-- RUN has changed to 1 and no tick has come yet -/
  fresh : Bool
  number : BitVec 64
  /-- frames begun since package reset (the model's own count) -/
  seq : Nat
  /-- deadlines passed in the frame, 0 to 8 -/
  passed : Nat
  tickAt : Nat
  prevTickAt : Nat
  runAt : Nat
  /-- expected time of the next external tick (01 R21) -/
  expected : Nat
  resync : Bool
  /-- guard actions are certainly complete from this time (01 R63) -/
  guardUntil : Nat
  /-- the frame has begun but waits for guard actions (01 R63, 13 R505) -/
  opening : Bool
  substituted : Bool
  /-- the tick did not follow the previous one by exactly PERIOD (14 R531 bit 2) -/
  irregular : Bool
  masterLost : Bool
  ftickOut : Bool
  /-- a cascade boundary is due: its time and, on a member, the master's frame number (15 R578, R579) -/
  aligned : Option (Nat × Option (BitVec 64))
  /-- the boundary that is due follows a substitute tick (01 R23) -/
  alignedSubst : Bool
  safePin : Bool
  /-- V3P3 in range: the pin is driven (20 R773) -/
  safeDriven : Bool
  /-- a condition of 01 R55 in the frame in progress, and in the most recent frame -/
  safeNow : Bool
  safeLast : Bool
  /-- a frame has run since package reset (17 R643) -/
  ranSinceReset : Bool
  /-- when the level last changed or a throttle last acted (14 R531 bit 3) -/
  levelAt : Option Nat
  /-- refreshes issued since the tick (17 R659) -/
  refreshes : Nat
  /-- RUN has changed from 0 to 1 since package reset: SCHED.TIME counts (10 R390, R403) -/
  timed : Bool
  /-- the tenant whose record Beaver fetches next (10 R381) -/
  fetchTurn : Nat
  /-- flags of one moment are being set: waits are evaluated after all of them (10 R387) (the model's own) -/
  together : Bool
deriving DecidableEq, Repr

/-! ### Configuration, attention, ports (12, 11) -/

/-- A submitted set (12 R468 to R473). -/
structure CfgSet where
  id : BitVec 4
  seq : Byte
  pages : List Nat
  /-- captured changes: register key and value -/
  changes : List (Nat × Word)
  at' : Nat
  /-- order of submission over both ports -/
  order : Nat
deriving DecidableEq, Repr

/-- Configuration of one port: open sets, submitted sets, sequence, results, holding copies (12 R459, R466 to R479). -/
structure PortCfg where
  openSets : List (Nat × List Nat)
  submitted : List CfgSet
  seq : Byte
  result : Word
  place : Word
  /-- holding copies of high words: key and value (12 R459) -/
  holds : List (Nat × Word)
  /-- data the last read returned (the model's own output) -/
  readData : Word
  /-- bytes the last BAR2 read returned; none: completed poisoned (19 R729) -/
  bar2Data : Option (List Byte)
  /-- the last configuration request was answered with Configuration Request Retry Status (11 R413) -/
  crs : Bool
  ready : Bool
  perst : Bool
  linkUp : Bool
  /-- negotiated width in lanes and rate in units of 100 MT/s; 0 while the link is not trained (11 R411) -/
  lanes : Nat
  rate : Nat
  /-- tenant that the port's round of fetching comes to next (11 R424) -/
  fetchTurn : Nat
  /-- MSI-X messages sent, by vector, oldest first (11 R445) -/
  msix : List Nat
deriving DecidableEq, Repr

/-- Attention and watermark state of the pages, and the sequences (12 R457 to R476, 11 R438). -/
structure Attn where
  latch : SMap Word
  mask : SMap Word
  errCount : SMap Nat
  level : SMap Word
  crossed : SMap Word
  count : SMap Nat
  /-- PAGE_STATUS.LAST_RESULT per page -/
  lastResult : SMap Byte
  pageCtrl : SMap Word
  seqTenant : Bank Byte 16
  seqDevice : Byte
  ident : Bool
  cfgPend : Bool
  degraded : Bool
  /-- SAFE_STATE level as last evaluated, for the edge detectors -/
  safe : Bool
deriving DecidableEq, Repr

/-! ### Memory (02 R74, 19 R727, R728) -/

/-- Device DRAM: bytes, poisoned 32-byte blocks, and each site's write-back queue. -/
structure Dram where
  bytes : List Host.Cell
  poison : List Nat
  writeBack : Bank (List Nat) 4
  selfRefresh : Bool
deriving DecidableEq, Repr

/-! ### Dellane (15) -/

/-- STATE of a link (15 R593). -/
inductive LinkSt where
  | down | training | up
deriving DecidableEq, Repr

/-- A Dellane link (15 R556 to R563, R577, R593). -/
structure Link where
  enabled : Bool
  st : LinkSt
  calibrated : Bool
  peer : BitVec 16
  delay : BitVec 16
  /-- a delay measured, taking effect from the next tick (15 R577) -/
  delayNext : Option (BitVec 16)
  roundTrip : BitVec 16
  /-- both ends hold the reserve of credits that training gives them (15 R563) -/
  granted : Bool
  /-- credits held per virtual channel -/
  credits : Bank Nat 3
  /-- frames waiting for a credit, by virtual channel, oldest first -/
  waiting : Bank (List LinkFrame) 3
  /-- frames transmitted, oldest first -/
  sent : List LinkFrame
  failed : Nat
  replays : Nat
  retrains : Nat
  peerStat : BitVec 16
  peerSeq : Byte
  /-- not UP for 100 µs: frames for it are unroutable (15 R558) -/
  dead : Bool
  /-- CAL frames to echo -/
  echoDue : Nat
deriving DecidableEq, Repr

/-- An outstanding Dellane request (15 R573, R574). -/
structure OutTag where
  tag : Nat
  tenant : Fin 16
  task : Nat
  kind : Byte
  localAddr : Nat
  /-- the core whose peer send it is; none for the DMA engine -/
  core : Option (Fin 48)
  /-- the unit of its task that sends; 0 for the DMA engine -/
  unit : Nat
deriving DecidableEq, Repr

/-- A collective at the master (15 R586). -/
structure Coll where
  group : Nat
  addr : BitVec 64
  pass : Nat
  /-- payload received: source, part, part count, bytes -/
  parts : List (Nat × Nat × Nat × List Byte)
  /-- link each source's frames came in on and its tag, for the answer -/
  from' : List (Nat × Word)
deriving DecidableEq, Repr

/-- Cascade state. -/
structure Cascade where
  routes : SMap (BitVec 4)
  routeDrops : Nat
  stale : Nat
  foreign : Nat
  masterLost : Bool
  /-- PERIOD.US of the master as its last TICK carried it; none before the first (15 R583) -/
  masterPeriod : Option Nat
  hops : Byte
  lastA : Nat
  nextTag : Nat
  tags : List OutTag
  colls : List Coll
  /-- accepted TICK to forward, with its new DELAY_ACC (15 R579) -/
  tickForward : List LinkFrame
  markForward : List LinkFrame
  /-- consecutive µs edges without an accepted MARK (15 R589) -/
  noMark : Nat
  strap : Bool
deriving DecidableEq, Repr

/-! ### Lynx (14) -/

/-- Lynx lock-step comparator. -/
structure Lynx where
  window : Nat
  sigs : Bank (BitVec 64) 76
  /-- bytes each stream had written since the tick, now and before the window -/
  bytesNow : Bank Nat 76
  bytesBefore : Bank Nat 76
  /-- windows ended and not yet compared whole: window, signatures, OFFSETs, parts compared -/
  kept : List (Nat × List (BitVec 64) × List Nat × List Nat)
  comparing : Bool
  partnerLost : Bool
  frozen : Bool
  divCount : Nat
  held : Bool
  divFrame : BitVec 64
  divWindow : Nat
  divStream : Nat
  divKind : Nat
  divOffset : Nat
  divLocal : BitVec 64
  divRemote : BitVec 64
  pinned : Bool
  pinLevel : BitVec 2
deriving DecidableEq, Repr

/-! ### Clocks (16), power and reset (17) -/

/-- Where a relock of the root PLL stands (16 R616). -/
inductive RelockStep where
  | toHolding | locking | locked | returning
deriving DecidableEq, Repr

/-- A relock in progress. -/
structure Relock where
  target : BitVec 2
  step : RelockStep
  startUs : Nat
deriving DecidableEq, Repr

/-- Clock state. -/
structure Clock where
  current : BitVec 2
  target : BitVec 2
  relock : Option Relock
  heldTarget : Option (BitVec 2)
  deferred : Option (BitVec 2)
  /-- SRC_STATUS: stable bits and FAIL bits in register order (16 R628) -/
  stable : BitVec 7
  fail : BitVec 7
  refLost : Bool
  /-- PLLs that have reported lock detect -/
  lockSeen : Bool
  /-- clock selected per domain: 0 stopped, 1 FIO, 2 holding, 3 root -/
  sel : Bank (BitVec 2) 5
  /-- when the core domain went onto the holding clock it runs on, and its intervals there since the tick (16 R619) -/
  holdSince : Option Nat
  holdSpans : List (Nat × Nat)
  /-- switches in progress: domain and new selection -/
  switches : List (Domain × BitVec 2)
  stuck : BitVec 5
  stuckCount : Nat
  trimCode : Nat
  trimRef : BitVec 2
  trimBusy : Bool
  trimConverged : Bool
  trimFail : Bool
  trimIters : Nat
  trimPeriodic : Bool
  meterN : Nat
  meterTarget : Nat
  meterRef : Nat
  meterBusy : Bool
  meterDone : Bool
  meterCount : Nat
  relocks : Nat
  lastUs : Nat
deriving DecidableEq, Repr

/-- Causes of a package fault (19 R722). -/
structure PkgFault where
  domainReset : Bool
  refLost : Bool
  trip : Bool
  frozen : Bool
  sram : Bool
  /-- a fault in the fabric: no further completion of any kind is written -/
  fabric : Bool
deriving DecidableEq, Repr

/-- Power, reset, boot and thermal state. -/
structure Power where
  vaon : Bool
  pwrGood : Bool
  sysRst : Bool
  jtagHold : Bool
  v3p3 : Bool
  bootSelBalls : BitVec 2
  cascBall : Bool
  bootSel : BitVec 2
  /-- 0 ROM to 7 HALTED (17 R661) -/
  stage : Nat
  bootStarted : Bool
  bank : Bool
  fallback : Bool
  result : Byte
  cause : Word
  unitBusy : Option (UnitKind × Nat)
  /-- units Owl firmware resets next (19 R725) -/
  unitQueue : List (UnitKind × Nat)
  unitResult : Byte
  throttle : Bool
  /-- a throttle has ended and RESTORE_LEVEL is not reached (17 R656) -/
  restoring : Bool
  restoreLevel : BitVec 2
  /-- the level the throttle last requested (17 R655, R657) -/
  throttleLevel : BitVec 2
  throttleCount : Nat
  /-- when the throttle, or the restoring, last took a step (17 R655, R656, R665) -/
  stepAt : Nat
  /-- since when the junction has stayed at or below THROTTLE_C - 5 °C under a throttle (17 R656) -/
  coolSince : Option Nat
  /-- the junction has reached THROTTLE_C while THROTTLE_EN is 0 (17 R657) -/
  overC : Bool
  /-- PWR_GOOD has risen and no boot has followed it (18 R687) -/
  powerRose : Bool
  junction : Int
  sensor : Nat
  /-- frames in a row with 100 P < 85 CAP (17 R653) -/
  underCap : Nat
  last : Nat
  peak : Nat
  /-- package power as sampled in the frame, 0.1 W, oldest first (18 R682) -/
  samples : List Nat
  tempAlert : Bool
  /-- every DRAM site trained and initialised -/
  trained : Bool
  initDone : Bool
  failedSites : BitVec 4
deriving DecidableEq, Repr

/-! ### Owl (18) -/

/-- A mailbox (18 R675). -/
structure Mailbox where
  busy : Bool
  done : Bool
  err : Bool
  /-- request waiting to be served, framed or from MB_REQ -/
  request : List Byte
  response : List Byte
deriving DecidableEq, Repr

/-- A firmware bank's header facts and bytes. -/
structure FwBank where
  bytes : List Byte
  valid : Bool
  version : Word
  rollback : Nat
deriving DecidableEq, Repr

/-- An update session (18 R691). -/
structure Session where
  total : Nat
  written : List Byte
  erasing : Bool
  /-- the image loads into Owl SRAM, under BOOT_SEL UART (17 R649; 18 R681) -/
  sram : Bool
  /-- FW_CHUNK requests waiting for the erase, oldest first: channel and request -/
  held : List (Channel × List Byte)
deriving DecidableEq, Repr

/-- The board configuration record (18 R699). -/
structure BoardCfg where
  map : BitVec 2
  ctrlB : Bool
  twin : Bool
  clockMode : BitVec 2
  refDiv : Byte
  smbAddr : BitVec 7
  baud : Word
deriving DecidableEq, Repr

/-- An event record (18 R685). -/
structure Event where
  seq : Nat
  seconds : BitVec 64
  page : BitVec 16
  event : Byte
  severity : Byte
  result : Byte
  unit : Byte
  data : List Byte
  cycles : Word
deriving DecidableEq, Repr

/-- Owl: mailboxes, flash, island and fuses. -/
structure Owl where
  boxes : Bank Mailbox 4
  /-- channels with a request waiting, in arrival order (18 R677) -/
  order : List Channel
  bankA : FwBank
  bankB : FwBank
  activeB : Bool
  trial : Bool
  /-- the trial firmware has booted once (18 R692) -/
  trialBooted : Bool
  session : Option Session
  fwResult : Byte
  rollback : Nat
  runningVersion : Word
  runningRollback : Nat
  boardStored : Option BoardCfg
  board : BoardCfg
  boardDefault : Bool
  fences : List (UnitKind × Nat)
  /-- SHA-256 of the pairing token (18 R695) -/
  pairing : Option Digest
  changed : Bool
  buffer : List Event
  flashLog : List Event
  nextSeq : Nat
  logDrops : Nat
  dropsPending : Nat
  counters : Vector Word 21
  journal : List (List Word)
  hourSeconds : Nat
  sinceCheckpoint : Nat
  junctions : Bank (BitVec 16) 12
  rails : Bank (BitVec 16) 15
  current : BitVec 16
  stackTemps : Bank (BitVec 16) 4
  powerNow : BitVec 16
  /-- a rail lay outside its window at the last sample (18 R683) -/
  railBad : Bool
  alert : Bool
  /-- an image loaded over the UART and authenticated (17 R649) -/
  sramImage : Option FwBank
  /-- data the last SMBus read returned; none: not acknowledged (the model's own output) -/
  smbData : Option (List Byte)
  /-- the last frame sent on the UART (18 R681) (the model's own output) -/
  uartSent : List Byte
deriving DecidableEq, Repr

/-- The calendar in the island (18 R701 to R705). -/
structure Calendar where
  year : Nat
  month : Nat
  day : Nat
  hour : Nat
  minute : Nat
  second : Nat
  seconds : BitVec 64
  valid : Bool
  ended : Bool
  result : Byte
  /-- the source shows no edge: stopped (18 R673) -/
  lost : Bool
deriving DecidableEq, Repr

/-- JTAG: the instruction register, and the data register it selects as captured, first bit first (20 R764, R765). -/
structure Jtag where
  ir : Byte
  captured : List Bool
deriving DecidableEq, Repr

/-! ### The whole -/

/-- The device. -/
structure State where
  /-- commands waiting, first in first out (the model's own) -/
  pending : List Instr
  chip : Chip
  /-- frame-timer µs (the model's own count) -/
  now : Nat
  /-- draws from the free values of Config (the model's own) -/
  draws : Nat
  /-- doorbells rung (the model's own count, 11 R425) -/
  doorbells : Nat
  /-- live values of stored registers by 4,096 × page + offset; unlisted: the reset value -/
  regs : SMap Word
  /-- shadow values of F and Q registers; unlisted: the reset value -/
  shadow : SMap Word
  /-- registers whose shadow was written since the last capture, strictly rising -/
  dirty : List Nat
  cfgA : PortCfg
  cfgB : PortCfg
  setOrder : Nat
  attn : Attn
  frame : Frame
  tenants : Bank Tenant 16
  engines : Bank Engine 16
  bears : Bank BearUnit 2
  jays : Bank JayUnit 4
  fronts : Bank FrontUnit 4
  cores : Bank Core 48
  slotsPeak : Nat
  dram : Dram
  links : Bank Link 8
  cascade : Cascade
  lynx : Lynx
  clock : Clock
  power : Power
  fault : PkgFault
  owl : Owl
  cal : Calendar
  jtag : Jtag
deriving DecidableEq, Repr

/-! ### Why a step may stop -/

/-- Faults. No command of the block ends in one: the spec gives every command its effect, and an access it does not allow
is ignored, counted or answered with a status code. -/
inductive Fault where
deriving DecidableEq, Repr

/-- Refusals. -/
inductive Refusal where
  /-- Raised by `exec` for a command that has no meaning yet, by its mnemonic. Safe: the model stops where the device
  goes on. No arm of `exec` raises it. -/
  | notModelled (mnemonic : String)
deriving DecidableEq, Repr

/-! ### Reset values -/

/-- A queue page's machine at reset (11 R417). -/
def Queue.reset : Queue :=
  { sqTail := 0, sqHead := 0, published := [], cqHead := 0, cqTail := 0, toggle := false, written := 0, reserved := 0,
    frameSlot := false, comps := [], ring := [], sqActive := false, cqActive := false, dbErr := false, dmaErr := false,
    dying := false }

/-- A world as created, reset or discarded: every static tile uniform UNKNOWN in class 0, every slice empty (03 R103). -/
def World.reset : World :=
  { stat := [], dyn := [], dynCollapsed := [], agents := [], marked := [], jobs := [], scrollX := 0, scrollY := 0,
    cntDyn := 0, cntStat := 0, view := none }

/-- The limit block a tenant takes at creation and reset (04 R145, R147). -/
def Limits.default : Limits :=
  { vMax := 8000, accelLong := 1500, decelComfort := 2000, decelDyn := 4000, accelLat := 2000, jerk := 1500,
    kappaFront := 205, kappaRear := 205, kappa4ws := 410, crabMax := 8, modes := 0x0F }

/-- A tenant's search at creation and reset (04 R147, R183). -/
def Search.reset : Search :=
  { limits := Limits.default, image := none, imageNext := none, front := .notRun, unblocked := [], cost := [],
    costDefault := 0xFFFF,
    frontTask := 0, nodes := [], generated := 0, expanded := 0, emitted := 0, ended := none, resume := none,
    fox := [], converted := 0, foxClipped := 0, foxDiscarded := 0, foxOver := 0, hostNext := 128, exhausted := false }

/-- The candidate side of a tenant at creation and reset (05 R216, 04 R178). -/
def Table.reset : Table :=
  { cands := [], clear := [], lost := [], lastPlan := none, stopPrims := [], stopAgeUs := 0, stopSpeed := (0, 1),
    stopArc := (0, 1), stopAcc := (0, 1),
    checked := 0, nClear := 0, nHit := 0, nUnsure := 0, engineList := [],
    stalled := [] }

/-- The vehicle-model parameter block a tenant takes at creation and reset (06 R235); T_MODEL's reset value 1 counts the
default block as loaded (06 R257). -/
def Model.default : Model :=
  { fields := ⟨#[0x3F800000, 0x40800000, 0x3E800000, 0x3F000000, 0x41200000, 0x3F800000, 0x3F800000, 0x3F800000,
      0x3F000000, 0x3E4CCCCD, 0x3A800000, 0x3A800000, 0x37800000], rfl⟩,
    loaded := true }

/-- A tenant's solver side at creation and reset (06 R235, R257). -/
def Solver.reset : Solver :=
  { model := Model.default, modelNext := none, meas := none, measNext := none, issued := [], slots := [], solved := 0,
    notConverged := 0, illPosed := 0, other := 0, cycles := 0 }

/-- A tenant's selections at creation and reset (07 R287). -/
def Selection.reset : Selection :=
  { issued := [], dealt := 0, finalIssued := false, finalResult := none, ok := 0, approx := 0, cut := 0, other := 0,
    collectives := [] }

/-- A tenant's scheduling at creation (10 R386, R392, R394). -/
def Sched.reset : Sched :=
  { slotA := none, slotB := none, activeB := false, activate := none, running := false, inForce := false, nextFetch := 0, tasks := [],
    released := [], retired := [], cancelled := [], flags := [], timers := [], timerSeq := 0,
    detectors := Vector.replicate 32 ⟨0, false⟩, rings := [], signal := 0, abortCode := 0, deadEdges := 0,
    waitTimeouts := 0, nCancelled := 0, delayPeak := 0, results := [], moment := 0, shape := none, shapeNext := none }

/-- A tenant's outcome before a frame has run. -/
def Outcome.reset : Outcome :=
  { cutMap := 0, cutForced := false, timing := 0, fixed := false, aborted := false, imminent := false, result := 0,
    planId := none }

/-- A tenant's Spoor chain at creation: PREV zero (14 R536, R538). -/
def Spoor.reset : Spoor :=
  { prev := 0, seeded := false, inputs := [], inputsNext := [], configHash := 0, last := 0 }

/-- A tenant that does not exist (13 R495). -/
def Tenant.reset : Tenant :=
  { state := .none, holdPending := false, releasePending := false, enabling := false, cause := 0, resets := 0, faults := 0,
    world := World.reset, search := Search.reset, table := Table.reset, solver := Solver.reset, sel := Selection.reset,
    sched := Sched.reset, out := Outcome.reset, spoor := Spoor.reset, queues := Vector.replicate 8 Queue.reset, queueTurn := 0, cmds := [],
    delivering := none, backlog := [], pubRing := [], witnessRing := [], witnessing := false, witnessed := false, witnessNext := 0
    witnessMissed := [], unitsWord := 0 }

/-- Both views of a unit at reset: DOWN, as STATE reads (05 R222; 06 R257; 07 R287; 08 R328). -/
def View.reset : View := { owl := .down, beaverUp := false, ueCount := 0, rejoin := false, joined := false }

/-- A Badger engine at reset. -/
def Engine.reset : Engine :=
  { view := View.reset, queue := [], current := none, spoiled := false, checked := 0, busy := 0 }

/-- A tensor core at reset. -/
def Core.reset : Core :=
  { view := View.reset, ready := [], run := none, owner := none, steps := 0, busy := 0, load := 0, parts := 0, steals := 0,
    hist := Vector.replicate 8 0, store := [], entries := [] }

/-- A Dellane link at reset: DOWN, without credits (15 R593). -/
def Link.reset : Link :=
  { enabled := false, st := .down, calibrated := false, peer := 0, delay := 0, delayNext := none, roundTrip := 0,
    granted := false, credits := Vector.replicate 3 0, waiting := Vector.replicate 3 [], sent := [], failed := 0, replays := 0, retrains := 0,
    peerStat := 0, peerSeq := 0, dead := true, echoDue := 0 }

/-- The cascade at reset: every route unroutable (15 R564, R565). -/
def Cascade.reset : Cascade :=
  { routes := [], routeDrops := 0, stale := 0, foreign := 0, masterLost := false, masterPeriod := none, hops := 0,
    lastA := 0, nextTag := 0, tags := [], colls := [], tickForward := [], markForward := [], noMark := 0, strap := false }

/-- Lynx at reset (14 R548). -/
def Lynx.reset : Lynx :=
  { window := 0, sigs := Vector.replicate 76 0, bytesNow := Vector.replicate 76 0, bytesBefore := Vector.replicate 76 0,
    kept := [], comparing := false, partnerLost := false, frozen := false, divCount := 0, held := false, divFrame := 0,
    divWindow := 0, divStream := 0, divKind := 0, divOffset := 0, divLocal := 0, divRemote := 0, pinned := false,
    pinLevel := 0 }

/-- The clocks at reset: FIO stable and clocking Owl, every other domain stopped (16 R611, R628). -/
def Clock.reset : Clock :=
  { current := 0, target := 0, relock := none, heldTarget := none, deferred := none, stable := 0x04, fail := 0,
    refLost := false, lockSeen := false, sel := ⟨#[0, 0, 0, 1, 0], rfl⟩, holdSince := none, holdSpans := [], switches := [],
    stuck := 0, stuckCount := 0,
    trimCode := 512, trimRef := 0, trimBusy := false, trimConverged := false, trimFail := false, trimIters := 0,
    trimPeriodic := false, meterN := 8, meterTarget := 0, meterRef := 0, meterBusy := false, meterDone := false,
    meterCount := 0, relocks := 0, lastUs := 0 }

/-- No package fault. -/
def PkgFault.reset : PkgFault :=
  { domainReset := false, refLost := false, trip := false, frozen := false, sram := false, fabric := false }

/-- Power, reset and boot at reset: STAGE ROM, cause COLD (17 R661). DESIGN CHOICE: the pins stand released and the straps
at 0, since the spec gives inputs no reset value; log 22. -/
def Power.reset : Power :=
  { vaon := true, pwrGood := true, sysRst := false, jtagHold := false, v3p3 := true, bootSelBalls := 0, cascBall := false,
    bootSel := 0, stage := 0, bootStarted := true, bank := false, fallback := false, result := 0, cause := 1,
    unitBusy := none, unitQueue := [], unitResult := 0, throttle := false, restoring := false, restoreLevel := 0,
    throttleLevel := 0, throttleCount := 0,
    stepAt := 0, coolSince := none, overC := false, powerRose := false, junction := 0, sensor := 0,
    underCap := 0, last := 0, peak := 0, samples := [], tempAlert := false, trained := false,
    initDone := false, failedSites := 0 }

/-- A mailbox at reset (18 R707). -/
def Mailbox.reset : Mailbox := { busy := false, done := false, err := false, request := [], response := [] }

/-- The board configuration when no valid record exists (18 R700). -/
def BoardCfg.default : BoardCfg :=
  { map := 0, ctrlB := false, twin := false, clockMode := 0, refDiv := 4, smbAddr := 0x5A, baud := 115200 }

/-- Owl at a cold reset. DESIGN CHOICE: bank A holds a valid image and is active, the device is unpaired and the flash
holds no board record, no log and no counters, since flash and fuses are the board's; log 23. -/
def Owl.reset : Owl :=
  { boxes := Vector.replicate 4 Mailbox.reset, order := [],
    bankA := { bytes := [], valid := true, version := 0, rollback := 0 },
    bankB := { bytes := [], valid := false, version := 0, rollback := 0 },
    activeB := false, trial := false, trialBooted := false, session := none, fwResult := 0, rollback := 0,
    runningVersion := 0, runningRollback := 0, boardStored := none, board := BoardCfg.default, boardDefault := false,
    fences := [], pairing := none, changed := false, buffer := [], flashLog := [], nextSeq := 0, logDrops := 0,
    dropsPending := 0, counters := Vector.replicate 21 0, journal := [], hourSeconds := 0, sinceCheckpoint := 0,
    junctions := Vector.replicate 12 0, rails := Vector.replicate 15 0, current := 0,
    stackTemps := Vector.replicate 4 0, powerNow := 0, railBad := false, alert := false, sramImage := none,
    smbData := none, uartSent := [] }

/-- The calendar at a cold reset: 2000-01-01T00:00:00, VALID 0 (18 R702). -/
def Calendar.reset : Calendar :=
  { year := 2000, month := 1, day := 1, hour := 0, minute := 0, second := 0, seconds := 0, valid := false, ended := false,
    result := 0, lost := false }

/-- The configuration side of a port at reset. -/
def PortCfg.reset : PortCfg :=
  { openSets := [], submitted := [], seq := 0, result := 0, place := 0, holds := [], readData := 0, bar2Data := none,
    crs := false, ready := false, perst := false, linkUp := true, lanes := 0, rate := 0, fetchTurn := 0, msix := [] }

/-- No attention. Every unit is DOWN, so the device counts as degraded until the units come up (13 R519). -/
def Attn.reset : Attn :=
  { latch := [], mask := [], errCount := [], level := [], crossed := [], count := [], lastResult := [], pageCtrl := [],
    seqTenant := Vector.replicate 16 0, seqDevice := 0, ident := true, cfgPend := false, degraded := true, safe := false }

/-- The frame machine at reset: stopped, FRAME.NUMBER 0 (01 R57). -/
def Frame.reset : Frame :=
  { run := false, inFrame := false, fresh := false, number := 0, seq := 0, passed := 0, tickAt := 0, prevTickAt := 0,
    runAt := 0, expected := 0, resync := false, guardUntil := 0, opening := false, substituted := false, irregular := false,
    masterLost := false, ftickOut := false, aligned := none, alignedSubst := false, safePin := false, safeDriven := true, safeNow := false,
    safeLast := false, ranSinceReset := false, levelAt := none, refreshes := 0,
    timed := false, fetchTurn := 0, together := false }

/-- Device DRAM at reset: nothing listed, so every byte reads 0, as the boot writes it (17 R650). -/
def Dram.reset : Dram :=
  { bytes := [], poison := [], writeBack := Vector.replicate 4 [], selfRefresh := false }

/-- JTAG at reset: IDCODE selected (20 R764). -/
def Jtag.reset : Jtag := { ir := 0x01, captured := [] }

/-- The part fitted. DESIGN CHOICE: UBN-48-L2M4-A1, whose 48 cores are all enabled; log 1. -/
def Chip.default : Chip :=
  { grade := .g48, assembly := .l2m4, fuse := 0xFFFFFFFFFFFF, stepLetter := 1, stepDigit := 1 }

/-- The device right after a cold reset: STAGE ROM, every register at its reset value, no tenant, no command waiting. -/
def State.reset : State :=
  { pending := [], chip := Chip.default, now := 0, draws := 0, doorbells := 0, regs := [], shadow := [], dirty := [],
    cfgA := PortCfg.reset, cfgB := PortCfg.reset, setOrder := 0, attn := Attn.reset, frame := Frame.reset,
    tenants := Vector.replicate 16 Tenant.reset, engines := Vector.replicate 16 Engine.reset,
    bears := Vector.replicate 2 ⟨View.reset, none⟩, jays := Vector.replicate 4 ⟨View.reset, [], none⟩,
    fronts := Vector.replicate 4 ⟨View.reset⟩, cores := Vector.replicate 48 Core.reset, slotsPeak := 0,
    dram := Dram.reset, links := Vector.replicate 8 Link.reset, cascade := Cascade.reset, lynx := Lynx.reset,
    clock := Clock.reset, power := Power.reset, fault := PkgFault.reset, owl := Owl.reset, cal := Calendar.reset,
    jtag := Jtag.reset }

end Sys2Proof.Machine
end

