-- ==== Sys2Proof/Machine/RegTable.lean ====
section
/-! DEFINITION. The register table of BAR0: every block register with its class, access masks, reset value and writer, the
pages present on a part, the stated ranges, and the live and shadow files. -/
namespace Sys2Proof.Machine
open Sys2Proof

/-- Change class of a register (12 R462). -/
inductive RegClass where
  | a | f | q
deriving DecidableEq, Repr

/-- Who may write a register: the control port, the owning port of the tenant, each port its own copy, or both ports
(13 R492, R493). -/
inductive RegWriter where
  | ctl | own | port | both
deriving DecidableEq, Repr

/-- A row of a register table: base page, offset, stride and count of an array, class, the bits of each access type
(00 R8), the reset value and the writer. Bits in none of the masks are read-only or reserved. -/
structure Reg where
  page : Nat
  off : Nat
  stride : Nat
  count : Nat
  cls : RegClass
  rw : Nat
  w1c : Nat
  rc : Nat
  wo : Nat
  reset : Nat
  writer : RegWriter
deriving DecidableEq, Repr

/-- Registers of the DEVICE page (12 R478, 12 R479). -/
def regsDevice : List Reg :=
  [⟨0, 0x100, 0, 1, .a, 0, 0, 0, 0, 0, .ctl⟩,
   ⟨0, 0x104, 0, 1, .a, 0, 0, 0, 0, 0, .ctl⟩,
   ⟨0, 0x108, 0, 1, .a, 0, 0, 0, 0, 0, .ctl⟩,
   ⟨0, 0x10C, 0, 1, .a, 0, 0, 0xFFFFFFFF, 0, 0, .ctl⟩,
   ⟨0, 0x110, 0, 1, .a, 0, 0, 0, 0, 0, .ctl⟩,
   ⟨0, 0x114, 0, 1, .a, 0, 0, 0, 0, 0, .ctl⟩,
   ⟨0, 0x118, 0, 1, .a, 0, 0, 0, 0, 0, .ctl⟩,
   ⟨0, 0x11C, 0, 1, .a, 0, 0, 0, 0, 0, .ctl⟩,
   ⟨0, 0x120, 0, 1, .a, 0, 0, 0, 0, 0, .ctl⟩]

/-- Registers of the CLOCK page (16 R627, 16 R628). -/
def regsClock : List Reg :=
  [⟨1, 0x100, 0, 1, .q, 0xF3, 0, 0, 0, 0x40, .ctl⟩,
   ⟨1, 0x104, 0, 1, .a, 3, 0, 0, 0, 0, .ctl⟩,
   ⟨1, 0x108, 0, 1, .a, 0x7F, 0, 0, 0, 4, .ctl⟩,
   ⟨1, 0x10C, 0, 1, .a, 0, 0, 0, 0, 4, .ctl⟩,
   ⟨1, 0x110, 0, 1, .a, 0, 0, 0, 0, 0x40, .ctl⟩,
   ⟨1, 0x114, 0, 1, .a, 0, 0, 0xFFFF001F, 0, 0, .ctl⟩,
   ⟨1, 0x118, 0, 1, .a, 0x3FF, 0, 0, 0, 0x200, .ctl⟩,
   ⟨1, 0x11C, 0, 1, .a, 0x23, 0, 0, 0x10, 0, .ctl⟩,
   ⟨1, 0x120, 0, 1, .a, 0x3F1F, 0, 0, 0x10000, 8, .ctl⟩,
   ⟨1, 0x124, 0, 1, .a, 0, 0, 0, 0, 0, .ctl⟩,
   ⟨1, 0x128, 0, 1, .a, 0, 0, 0, 0, 0, .ctl⟩]

/-- Registers of the RESET_POWER page (17 R660, 17 R661). -/
def regsResetPower : List Reg :=
  [⟨2, 0x100, 0, 1, .a, 0, 0, 0, 0, 0, .ctl⟩,
   ⟨2, 0x104, 0, 1, .a, 0, 0, 0xF3F, 0, 1, .ctl⟩,
   ⟨2, 0x108, 0, 1, .a, 0, 0, 0, 1, 0, .ctl⟩,
   ⟨2, 0x10C, 0, 1, .a, 0, 0, 0, 0x8000073F, 0, .ctl⟩,
   ⟨2, 0x110, 0, 1, .a, 0, 0, 0, 0, 0, .ctl⟩,
   ⟨2, 0x114, 0, 1, .f, 0x3031, 0, 0, 0, 0x3000, .ctl⟩,
   ⟨2, 0x118, 0, 1, .f, 0xFFFF, 0, 0, 0, 0, .ctl⟩,
   ⟨2, 0x11C, 0, 1, .f, 0xFF01, 0, 0, 0, 0x6901, .ctl⟩,
   ⟨2, 0x120, 0, 1, .a, 0, 0, 0, 0, 0, .ctl⟩,
   ⟨2, 0x124, 0, 1, .a, 0, 0, 0, 0, 0, .ctl⟩,
   ⟨2, 0x128, 0, 1, .a, 0, 0, 0, 0, 0, .ctl⟩]

/-- Registers of the FRAME page (12 R480, 12 R481). -/
def regsFrame : List Reg :=
  [⟨3, 0x100, 0, 1, .a, 1, 0, 0, 2, 0, .ctl⟩,
   ⟨3, 0x104, 0, 1, .q, 3, 0, 0, 0, 0, .ctl⟩,
   ⟨3, 0x108, 0, 1, .f, 0x7F, 0, 0, 0, 0x14, .ctl⟩,
   ⟨3, 0x10C, 0, 1, .f, 0x1FFFF, 0, 0, 0, 0x2710, .ctl⟩,
   ⟨3, 0x110, 0, 1, .f, 0x1FFFF, 0, 0, 0, 0x3E8, .ctl⟩,
   ⟨3, 0x114, 0, 1, .f, 0x1FFFF, 0, 0, 0, 0x4B0, .ctl⟩,
   ⟨3, 0x118, 0, 1, .f, 0x1FFFF, 0, 0, 0, 0x5DC, .ctl⟩,
   ⟨3, 0x11C, 0, 1, .f, 0x1FFFF, 0, 0, 0, 0x5DC, .ctl⟩,
   ⟨3, 0x120, 0, 1, .f, 0x1FFFF, 0, 0, 0, 0x960, .ctl⟩,
   ⟨3, 0x124, 0, 1, .f, 0x1FFFF, 0, 0, 0, 0x4B0, .ctl⟩,
   ⟨3, 0x128, 0, 1, .f, 0x1FFFF, 0, 0, 0, 0x190, .ctl⟩,
   ⟨3, 0x12C, 0, 1, .f, 0x1FFFF, 0, 0, 0, 0x2BC, .ctl⟩] ++
  [⟨3, 0x130, 0, 1, .a, 0, 0, 0, 0, 0, .ctl⟩,
   ⟨3, 0x134, 0, 1, .a, 0, 0, 0, 0, 0, .ctl⟩,
   ⟨3, 0x138, 0, 1, .a, 0, 0, 0, 0, 8, .ctl⟩,
   ⟨3, 0x13C, 0, 1, .a, 0, 0, 0, 0, 0, .ctl⟩,
   ⟨3, 0x140, 0, 1, .f, 0xFFFF, 0, 0, 0, 0xFFFF, .ctl⟩,
   ⟨3, 0x144, 0, 1, .a, 0, 0, 0, 1, 0, .ctl⟩,
   ⟨3, 0x148, 0, 1, .a, 0, 0, 0, 0, 0, .ctl⟩]

/-- Registers of the SCHED page (10 R403). -/
def regsSched : List Reg :=
  [⟨4, 0x100, 0, 1, .a, 0, 0, 0, 0, 0, .ctl⟩,
   ⟨4, 0x104, 0, 1, .a, 0, 0, 0x1FFF, 0, 0, .ctl⟩,
   ⟨4, 0x108, 0, 1, .a, 0, 0, 0, 0, 0, .ctl⟩,
   ⟨4, 0x10C, 0, 1, .a, 0, 0, 0, 0, 0, .ctl⟩,
   ⟨4, 0x200, 0x20, 16, .f, 1, 0, 0, 0, 1, .own⟩,
   ⟨4, 0x204, 0x20, 16, .a, 0, 0, 0, 0, 0, .own⟩,
   ⟨4, 0x208, 0x20, 16, .a, 0, 0, 0, 0, 0, .own⟩,
   ⟨4, 0x20C, 0x20, 16, .a, 0, 0, 0, 0, 0, .own⟩,
   ⟨4, 0x210, 0x20, 16, .a, 0, 0, 0, 0, 0, .own⟩,
   ⟨4, 0x214, 0x20, 16, .a, 0, 0, 0, 0, 0, .own⟩,
   ⟨4, 0x218, 0x20, 16, .a, 0, 0, 0, 0, 0, .own⟩,
   ⟨4, 0x21C, 0x20, 16, .a, 0, 0, 0, 0, 0, .own⟩] ++
  [⟨4, 0x800, 0x20, 48, .a, 0, 0, 0, 0, 0, .ctl⟩,
   ⟨4, 0x804, 0x20, 48, .a, 0, 0, 0x1FFF, 0, 0, .ctl⟩,
   ⟨4, 0x808, 0x20, 48, .a, 0, 0, 0, 0, 0, .ctl⟩,
   ⟨4, 0x80C, 0x20, 48, .a, 0, 0, 0, 0, 0, .ctl⟩,
   ⟨4, 0x810, 0x20, 48, .a, 0, 0, 0, 0, 0, .ctl⟩,
   ⟨4, 0x814, 0x20, 48, .a, 0, 0, 0, 0, 0, .ctl⟩,
   ⟨4, 0x818, 0x20, 48, .a, 0, 0, 0, 0, 0, .ctl⟩,
   ⟨4, 0x81C, 0x20, 48, .a, 0, 0, 0, 0, 0, .ctl⟩]

/-- Registers of the SELECT page (07 R287, 07 R288). -/
def regsSelect : List Reg :=
  [⟨5, 0x100, 0, 1, .a, 0, 0, 0, 0, 0, .ctl⟩,
   ⟨5, 0x104, 0, 1, .a, 0, 0, 0, 0, 0, .ctl⟩,
   ⟨5, 0x200, 0x20, 16, .f, 0x1F, 0, 0, 0, 0xC, .own⟩,
   ⟨5, 0x204, 0x20, 16, .a, 0, 0, 0, 0, 0, .own⟩,
   ⟨5, 0x208, 0x20, 16, .a, 0, 0, 0, 0, 0xFFFFFFFF, .own⟩,
   ⟨5, 0x20C, 0x20, 16, .a, 0, 0, 0, 0, 0, .own⟩]

/-- Registers of the WORLD page (03 R134, 03 R135). -/
def regsWorld : List Reg :=
  [⟨6, 0x100, 0, 1, .q, 0x3F, 0, 0, 0, 0xA, .ctl⟩,
   ⟨6, 0x104, 0, 1, .f, 0x7F00FF, 0, 0, 0, 0x40007D, .ctl⟩,
   ⟨6, 0x108, 0, 1, .a, 0, 0, 0, 0, 0x8000000, .ctl⟩,
   ⟨6, 0x120, 0, 1, .f, 0, 0, 0, 0, 0, .ctl⟩,
   ⟨6, 0x124, 4, 7, .f, 0xFFFF, 0, 0, 0, 0, .ctl⟩,
   ⟨6, 0x200, 0x20, 16, .a, 0, 0, 0, 0, 0, .own⟩,
   ⟨6, 0x204, 0x20, 16, .a, 0, 0, 0, 0, 0, .own⟩,
   ⟨6, 0x208, 0x20, 16, .a, 0, 0, 0, 0, 0, .own⟩,
   ⟨6, 0x20C, 0x20, 16, .a, 0, 0, 0, 0, 0, .own⟩,
   ⟨6, 0x210, 0x20, 16, .a, 0, 0, 0, 0, 0, .own⟩]

/-- Registers of the LATTICE page (04 R180). -/
def regsLattice : List Reg :=
  [⟨7, 0x100, 0, 1, .a, 0, 0, 0, 0, 0, .ctl⟩,
   ⟨7, 0x200, 0x20, 16, .a, 0, 0, 0, 0, 0, .own⟩,
   ⟨7, 0x204, 0x20, 16, .a, 0, 0, 0, 0, 0x5DC1F40, .own⟩,
   ⟨7, 0x208, 0x20, 16, .a, 0, 0, 0, 0, 0xFA007D0, .own⟩,
   ⟨7, 0x20C, 0x20, 16, .a, 0, 0, 0, 0, 0x5DC07D0, .own⟩,
   ⟨7, 0x210, 0x20, 16, .a, 0, 0, 0, 0, 0, .own⟩,
   ⟨7, 0x214, 0x20, 16, .f, 0x103FF, 0, 0, 0, 0x101F4, .own⟩,
   ⟨7, 0x218, 0x20, 16, .a, 0, 0, 0, 0, 0, .own⟩,
   ⟨7, 0x21C, 0x20, 16, .a, 0, 0, 0, 0, 0, .own⟩]

/-- Registers of the WAVEFRONT page (04 R181). -/
def regsWavefront : List Reg :=
  [⟨8, 0x200, 0x20, 16, .f, 0x7FF07FF, 0, 0, 0, 0x4000400, .own⟩,
   ⟨8, 0x204, 0x20, 16, .f, 0xBF3F00FF, 0, 0, 0, 0x20000008, .own⟩,
   ⟨8, 0x208, 0x20, 16, .f, 0xFF0F, 0, 0, 0, 0x7004, .own⟩,
   ⟨8, 0x20C, 0x20, 16, .f, 0x1FFFF1F, 0, 0, 0, 0x1081010, .own⟩,
   ⟨8, 0x210, 0x20, 16, .f, 0xFFFFF, 0, 0, 0, 0x4000, .own⟩,
   ⟨8, 0x214, 0x20, 16, .f, 0xFFFF1FFF, 0, 0, 0, 0xFA0, .own⟩,
   ⟨8, 0x218, 0x20, 16, .a, 0, 0, 0, 0, 0, .own⟩,
   ⟨8, 0x21C, 0x20, 16, .a, 0, 0, 0, 0, 0, .own⟩]

/-- Registers of the CHECK page (05 R220, 05 R221). -/
def regsCheck : List Reg :=
  [⟨9, 0x100, 0, 1, .a, 0, 0, 0, 0, 0, .ctl⟩,
   ⟨9, 0x200, 0x20, 16, .f, 0xFFFFFFFF, 0, 0, 0, 0x3E80DAC, .own⟩,
   ⟨9, 0x204, 0x20, 16, .f, 0x1FFFFFF, 0, 0, 0, 0x1B0041A, .own⟩,
   ⟨9, 0x208, 0x20, 16, .a, 0, 0, 0, 0, 1, .own⟩,
   ⟨9, 0x20C, 0x20, 16, .a, 0, 0, 0, 0, 0, .own⟩,
   ⟨9, 0x210, 0x20, 16, .a, 0, 0, 0, 0, 0, .own⟩,
   ⟨9, 0x214, 0x20, 16, .a, 0, 0, 0, 0, 0, .own⟩,
   ⟨9, 0x218, 0x20, 16, .a, 0, 0, 0, 0, 0, .own⟩,
   ⟨9, 0x21C, 0x20, 16, .a, 0, 0, 0, 0, 0, .own⟩]

/-- Registers of the SOLVER page (06 R257, 06 R258). -/
def regsSolver : List Reg :=
  [⟨0xA, 0x100, 0, 1, .a, 0, 0, 0, 0, 0, .ctl⟩,
   ⟨0xA, 0x200, 0x20, 16, .f, 0x3FFF, 0, 0, 0, 0x1284, .own⟩,
   ⟨0xA, 0x204, 0x20, 16, .a, 0, 0, 0, 0, 1, .own⟩,
   ⟨0xA, 0x208, 0x20, 16, .a, 0, 0, 0, 0, 0, .own⟩,
   ⟨0xA, 0x20C, 0x20, 16, .a, 0, 0, 0, 0, 0, .own⟩,
   ⟨0xA, 0x210, 0x20, 16, .a, 0, 0, 0, 0, 0, .own⟩]

/-- Registers of the LOCKSTEP page (14 R548). -/
def regsLockstep : List Reg :=
  [⟨0xB, 0x100, 0, 1, .q, 0x13, 0, 0, 0, 0, .ctl⟩,
   ⟨0xB, 0x104, 0, 1, .a, 0, 0, 0, 0, 0, .ctl⟩,
   ⟨0xB, 0x108, 0, 1, .a, 0, 0, 0xFFFF, 0, 0, .ctl⟩,
   ⟨0xB, 0x10C, 0, 1, .a, 0, 0, 0, 0, 0, .ctl⟩,
   ⟨0xB, 0x110, 0, 1, .a, 0, 0, 0, 0, 0, .ctl⟩,
   ⟨0xB, 0x114, 0, 1, .a, 0, 0, 0, 0, 0, .ctl⟩,
   ⟨0xB, 0x118, 0, 1, .a, 0, 0, 0, 0, 0, .ctl⟩,
   ⟨0xB, 0x11C, 0, 1, .a, 0, 0, 0, 0, 0, .ctl⟩,
   ⟨0xB, 0x120, 0, 1, .a, 0, 0, 0, 0, 0, .ctl⟩,
   ⟨0xB, 0x124, 0, 1, .a, 0, 0, 0, 0, 0, .ctl⟩,
   ⟨0xB, 0x128, 0, 1, .a, 0, 0, 0, 0, 0, .ctl⟩,
   ⟨0xB, 0x12C, 0, 1, .a, 0, 0, 0, 0, 0, .ctl⟩] ++
  [⟨0xB, 0x130, 0, 1, .a, 0, 0, 0, 1, 0, .ctl⟩]

/-- Registers of the DIGEST page (14 R549). -/
def regsDigest : List Reg :=
  [⟨0xC, 0x100, 0, 1, .q, 0xFFFFFFFF, 0, 0, 0, 0, .ctl⟩,
   ⟨0xC, 0x104, 0, 1, .q, 0xFFFFFFFF, 0, 0, 0, 0, .ctl⟩,
   ⟨0xC, 0x200, 0x80, 16, .a, 0, 0, 0, 0, 0, .own⟩,
   ⟨0xC, 0x204, 0x80, 16, .a, 0, 0, 0, 0, 0, .own⟩,
   ⟨0xC, 0x208, 0x80, 16, .a, 0, 0, 0, 0, 0, .own⟩,
   ⟨0xC, 0x20C, 0x80, 16, .a, 0, 0, 0, 0, 0, .own⟩,
   ⟨0xC, 0x210, 0x80, 16, .a, 0, 0, 0, 0, 0, .own⟩,
   ⟨0xC, 0x214, 0x80, 16, .a, 0, 0, 0, 0, 0, .own⟩,
   ⟨0xC, 0x218, 0x80, 16, .a, 0, 0, 0, 0, 0, .own⟩,
   ⟨0xC, 0x21C, 0x80, 16, .a, 0, 0, 0, 0, 0, .own⟩,
   ⟨0xC, 0x220, 0x80, 16, .f, 0xFFFFFFFF, 0, 0, 0, 0, .own⟩,
   ⟨0xC, 0x224, 0x80, 16, .f, 0xFFFFFFFF, 0, 0, 0, 0, .own⟩] ++
  [⟨0xC, 0x228, 0x80, 16, .f, 0xFFFFFFFF, 0, 0, 0, 0, .own⟩,
   ⟨0xC, 0x22C, 0x80, 16, .f, 0xFFFFFFFF, 0, 0, 0, 0, .own⟩,
   ⟨0xC, 0x230, 0x80, 16, .f, 0xFFFFFFFF, 0, 0, 0, 0, .own⟩,
   ⟨0xC, 0x234, 0x80, 16, .f, 0xFFFFFFFF, 0, 0, 0, 0, .own⟩,
   ⟨0xC, 0x238, 0x80, 16, .f, 0xFFFFFFFF, 0, 0, 0, 0, .own⟩,
   ⟨0xC, 0x23C, 0x80, 16, .f, 0xFFFFFFFF, 0, 0, 0, 0, .own⟩,
   ⟨0xC, 0x240, 0x80, 16, .a, 0, 0, 0, 0, 0, .own⟩]

/-- Registers of the CASCADE page (15 R592). -/
def regsCascade : List Reg :=
  [⟨0xD, 0x100, 0, 1, .q, 0xFFFF, 0, 0, 0, 0, .ctl⟩,
   ⟨0xD, 0x104, 0, 1, .q, 3, 0, 0, 0, 0, .ctl⟩,
   ⟨0xD, 0x108, 0, 1, .q, 0xFFFF, 0, 0, 0, 0, .ctl⟩,
   ⟨0xD, 0x10C, 0, 1, .f, 0xFF0F, 0, 0, 0, 0, .ctl⟩,
   ⟨0xD, 0x110, 0, 1, .q, 0xFFFF, 0, 0, 0, 0x2000, .ctl⟩,
   ⟨0xD, 0x114, 0, 1, .a, 0xFF, 0, 0, 0, 0x20, .ctl⟩,
   ⟨0xD, 0x118, 0, 1, .a, 0xFFFF, 0, 0, 0, 0, .ctl⟩,
   ⟨0xD, 0x11C, 0, 1, .a, 0xF, 0, 0, 0, 0xF, .ctl⟩,
   ⟨0xD, 0x120, 4, 8, .f, 0xC0FFFFFF, 0, 0, 0, 0, .ctl⟩,
   ⟨0xD, 0x140, 4, 16, .f, 0xFFFFFFFF, 0, 0, 0, 0, .ctl⟩,
   ⟨0xD, 0x180, 0, 1, .a, 0, 0, 0, 0, 0, .ctl⟩,
   ⟨0xD, 0x184, 0, 1, .a, 0, 0, 0xFFFFFFFF, 0, 0, .ctl⟩] ++
  [⟨0xD, 0x188, 0, 1, .a, 0, 0, 0xFFFF, 0, 0, .ctl⟩]

/-- Registers of the MEMORY page (17 R662). -/
def regsMemory : List Reg :=
  [⟨0xE, 0x100, 0, 1, .q, 0x31, 0, 0, 0, 0x30, .ctl⟩,
   ⟨0xE, 0x104, 0, 1, .a, 0, 0, 0, 0, 0, .ctl⟩,
   ⟨0xE, 0x108, 0, 1, .a, 0, 0, 0, 0, 0, .ctl⟩]

/-- Registers of the MGMT_MAILBOX page (18 R707). -/
def regsMgmtMailbox : List Reg :=
  [⟨0xF, 0x100, 0, 1, .a, 0, 0, 0, 1, 0, .port⟩,
   ⟨0xF, 0x104, 0, 1, .a, 0, 4, 0, 0, 0, .port⟩,
   ⟨0xF, 0x108, 0, 1, .a, 0xFF, 0, 0, 0, 0, .port⟩,
   ⟨0xF, 0x10C, 0, 1, .a, 0xFFFFFF, 0, 0, 0, 0x320564, .ctl⟩,
   ⟨0xF, 0x110, 0, 1, .a, 0, 0, 0, 0, 0, .ctl⟩,
   ⟨0xF, 0x114, 0, 1, .a, 0, 0, 0, 0, 0, .ctl⟩,
   ⟨0xF, 0x118, 0, 1, .a, 0, 0, 0, 0, 0, .ctl⟩,
   ⟨0xF, 0x200, 4, 64, .a, 0xFFFFFFFF, 0, 0, 0, 0, .port⟩,
   ⟨0xF, 0x300, 4, 64, .a, 0, 0, 0, 0, 0, .port⟩,
   ⟨0xF, 0x700, 4, 4, .a, 0, 0, 0, 0, 0, .port⟩,
   ⟨0xF, 0x800, 0x10, 128, .a, 0xFFFFFFFF, 0, 0, 0, 0, .port⟩,
   ⟨0xF, 0x804, 0x10, 128, .a, 0xFFFFFFFF, 0, 0, 0, 0, .port⟩] ++
  [⟨0xF, 0x808, 0x10, 128, .a, 0xFFFFFFFF, 0, 0, 0, 0, .port⟩,
   ⟨0xF, 0x80C, 0x10, 128, .a, 0xFFFFFFFF, 0, 0, 0, 1, .port⟩]

/-- Registers of the CALENDAR page (18 R708). -/
def regsCalendar : List Reg :=
  [⟨0x10, 0x100, 0, 1, .a, 0xFFFFFFFF, 0, 0, 0, 0x10107D0, .ctl⟩,
   ⟨0x10, 0x104, 0, 1, .a, 0xFFFFFF, 0, 0, 0, 0, .ctl⟩,
   ⟨0x10, 0x108, 0, 1, .a, 0, 0, 0, 1, 0, .ctl⟩,
   ⟨0x10, 0x10C, 0, 1, .a, 0, 0, 0, 0, 0x10107D0, .ctl⟩,
   ⟨0x10, 0x110, 0, 1, .a, 0, 0, 0, 0, 0, .ctl⟩,
   ⟨0x10, 0x114, 0, 1, .a, 0, 0, 0, 0, 0, .ctl⟩,
   ⟨0x10, 0x118, 0, 1, .a, 0, 0, 0, 0, 0, .ctl⟩,
   ⟨0x10, 0x11C, 0, 1, .a, 0, 0, 0, 0, 0, .ctl⟩]

/-- Registers of the TRACE page (10 R404, 10 R493). -/
def regsTrace : List Reg :=
  [⟨0x11, 0x100, 0, 1, .a, 0xFFFF00F3, 0, 0, 0, 0, .both⟩,
   ⟨0x11, 0x104, 0, 1, .q, 0xFFFFFFFF, 0, 0, 0, 0, .ctl⟩,
   ⟨0x11, 0x108, 0, 1, .q, 0xFFFFFFFF, 0, 0, 0, 0, .ctl⟩,
   ⟨0x11, 0x10C, 0, 1, .q, 0x1F, 0, 0, 0, 6, .ctl⟩,
   ⟨0x11, 0x110, 0, 1, .a, 0, 0, 0, 0, 0, .ctl⟩,
   ⟨0x11, 0x114, 0, 1, .a, 0xFFFFFFFF, 0, 0, 0, 0, .ctl⟩,
   ⟨0x11, 0x118, 0, 1, .a, 0, 0, 0xFFFF, 0, 0, .ctl⟩,
   ⟨0x11, 0x11C, 0, 1, .a, 0xFFFFFFFF, 0, 0, 0, 0xFFFFFFFE, .ctl⟩]

/-- Registers of the TENANT page (13 R520). -/
def regsTenant : List Reg :=
  [⟨0x20, 0x100, 0, 1, .a, 0, 0, 0, 7, 0, .own⟩,
   ⟨0x20, 0x104, 0, 1, .a, 0, 0, 0, 0, 0, .own⟩,
   ⟨0x20, 0x108, 0, 1, .a, 0, 0, 0, 0, 0, .own⟩,
   ⟨0x20, 0x10C, 0, 1, .a, 0, 0, 0, 0, 0, .own⟩,
   ⟨0x20, 0x110, 0, 1, .q, 0x800000FF, 0, 0, 0, 0, .ctl⟩,
   ⟨0x20, 0x114, 0, 1, .q, 0xFFFFFFFF, 0, 0, 0, 0, .ctl⟩,
   ⟨0x20, 0x118, 0, 1, .q, 0xFFFF, 0, 0, 0, 0, .ctl⟩,
   ⟨0x20, 0x11C, 0, 1, .q, 0xFF3FFFF, 0, 0, 0, 0, .ctl⟩,
   ⟨0x20, 0x120, 0, 1, .q, 0x1FFF0FFF, 0, 0, 0, 0, .ctl⟩,
   ⟨0x20, 0x124, 0, 1, .q, 0xFFF, 0, 0, 0, 0, .ctl⟩,
   ⟨0x20, 0x128, 0, 1, .q, 0x1FFFFF, 0, 0, 0, 0, .ctl⟩,
   ⟨0x20, 0x12C, 0, 1, .q, 0x1FFFFF, 0, 0, 0, 0, .ctl⟩] ++
  [⟨0x20, 0x130, 0, 1, .q, 0x3FF03FF, 0, 0, 0, 0, .ctl⟩,
   ⟨0x20, 0x134, 0, 1, .f, 0x9F, 0, 0, 0, 0, .ctl⟩,
   ⟨0x20, 0x138, 0, 1, .q, 0xFFFFFFFF, 0, 0, 0, 0, .own⟩,
   ⟨0x20, 0x13C, 0, 1, .q, 0xFFFFFFFF, 0, 0, 0, 0, .own⟩,
   ⟨0x20, 0x140, 0, 1, .q, 7, 0, 0, 0, 0, .own⟩,
   ⟨0x20, 0x144, 0, 1, .a, 0, 0, 0, 0, 0, .own⟩]

/-- Registers of the QUEUE page (11 R417, 11 R418, 11 R419, 11 R421, 11 R422). -/
def regsQueue : List Reg :=
  [⟨0x40, 0x100, 0, 1, .a, 7, 0, 0, 0, 0, .own⟩,
   ⟨0x40, 0x104, 0, 1, .q, 0x77FFF, 0, 0, 0, 0x11, .own⟩,
   ⟨0x40, 0x108, 0, 1, .q, 0xFFFFFFFF, 0, 0, 0, 0, .own⟩,
   ⟨0x40, 0x10C, 0, 1, .q, 0xFFFFFFFF, 0, 0, 0, 0, .own⟩,
   ⟨0x40, 0x110, 0, 1, .q, 0xFFFFFFFF, 0, 0, 0, 0, .own⟩,
   ⟨0x40, 0x114, 0, 1, .q, 0xFFFFFFFF, 0, 0, 0, 0, .own⟩,
   ⟨0x40, 0x118, 0, 1, .q, 0xFFFFFFFF, 0, 0, 0, 0, .own⟩,
   ⟨0x40, 0x11C, 0, 1, .q, 0xFFFFFFFF, 0, 0, 0, 0, .own⟩,
   ⟨0x40, 0x120, 0, 1, .a, 0xFFF, 0, 0, 0, 0, .own⟩,
   ⟨0x40, 0x124, 0, 1, .a, 0, 0, 0, 0, 0, .own⟩,
   ⟨0x40, 0x128, 0, 1, .a, 0xFFF, 0, 0, 0, 0, .own⟩,
   ⟨0x40, 0x12C, 0, 1, .a, 0, 0, 0, 0, 0, .own⟩] ++
  [⟨0x40, 0x130, 0, 1, .a, 0, 0xC, 0, 0, 0, .own⟩,
   ⟨0x40, 0x134, 0, 1, .a, 0, 0, 0, 0, 0, .own⟩]

/-- Registers of the CORE page (08 R327, 08 R328). -/
def regsCore : List Reg :=
  [⟨0x100, 0x100, 0, 1, .a, 0, 0, 0, 0, 0, .ctl⟩,
   ⟨0x100, 0x104, 0, 1, .a, 0, 0, 0xFFF0FFF, 0, 0, .ctl⟩,
   ⟨0x100, 0x108, 0, 1, .a, 0, 0, 0, 0, 0, .ctl⟩,
   ⟨0x100, 0x10C, 0, 1, .a, 0, 0, 0, 0, 0, .ctl⟩,
   ⟨0x100, 0x110, 0, 1, .a, 0, 0, 0, 0, 0, .ctl⟩,
   ⟨0x100, 0x114, 0, 1, .a, 0, 0, 0, 0, 0, .ctl⟩,
   ⟨0x100, 0x118, 0, 1, .a, 0, 0, 0xFFFFF, 0, 0, .ctl⟩]

/-- Registers of the ENGINE page (05 R222). -/
def regsEngine : List Reg :=
  [⟨0x140, 0x100, 0, 1, .a, 0, 0, 0, 0, 0, .ctl⟩,
   ⟨0x140, 0x104, 0, 1, .a, 0, 0, 0, 0, 0, .ctl⟩,
   ⟨0x140, 0x108, 0, 1, .a, 0, 0, 0x1FF, 0, 0, .ctl⟩,
   ⟨0x140, 0x10C, 0, 1, .a, 0, 0, 0, 0, 0, .ctl⟩,
   ⟨0x140, 0x110, 0, 1, .a, 0, 0, 0, 0, 0, .ctl⟩]

/-- Registers of the LINK page (15 R593). -/
def regsLink : List Reg :=
  [⟨0x160, 0x100, 0, 1, .a, 1, 0, 0, 2, 0, .ctl⟩,
   ⟨0x160, 0x104, 0, 1, .a, 0, 0, 0, 0, 0, .ctl⟩,
   ⟨0x160, 0x108, 0, 1, .a, 0, 0, 0, 0, 0, .ctl⟩,
   ⟨0x160, 0x10C, 0, 1, .a, 0, 0, 0, 0, 0, .ctl⟩,
   ⟨0x160, 0x110, 0, 1, .a, 0, 0, 0xFFFFFFFF, 0, 0, .ctl⟩,
   ⟨0x160, 0x114, 0, 1, .a, 0, 0, 0, 0, 0, .ctl⟩]

/-- Registers of the DRAM page (17 R663). -/
def regsDram : List Reg :=
  [⟨0x170, 0x100, 0, 1, .a, 0, 0, 0, 0, 0, .ctl⟩,
   ⟨0x170, 0x104, 0, 1, .a, 0, 0, 0xFFFFFFFF, 0, 0, .ctl⟩,
   ⟨0x170, 0x108, 0, 1, .a, 0, 0, 0, 0, 0, .ctl⟩]

/-- Every block register of the device, page by page. -/
def regsOf : Nat → List Reg
  | 0 => regsDevice
  | 1 => regsClock
  | 2 => regsResetPower
  | 3 => regsFrame
  | 4 => regsSched
  | 5 => regsSelect
  | 6 => regsWorld
  | 7 => regsLattice
  | 8 => regsWavefront
  | 9 => regsCheck
  | 0xA => regsSolver
  | 0xB => regsLockstep
  | 0xC => regsDigest
  | 0xD => regsCascade
  | 0xE => regsMemory
  | 0xF => regsMgmtMailbox
  | 0x10 => regsCalendar
  | 0x11 => regsTrace
  | 0x20 => regsTenant
  | 0x40 => regsQueue
  | 0x100 => regsCore
  | 0x140 => regsEngine
  | 0x160 => regsLink
  | 0x170 => regsDram
  | _ => []

/-! ### Registers by page and offset -/

/-- The page of the table a BAR0 page belongs to: the first page of its array (12 R477). -/
def pageBase (p : Nat) : Option Nat :=
  if p ≤ 0x11 then some p
  else if 0x20 ≤ p ∧ p < 0x30 then some 0x20
  else if 0x40 ≤ p ∧ p < 0xC0 then some 0x40
  else if 0x100 ≤ p ∧ p < 0x130 then some 0x100
  else if 0x140 ≤ p ∧ p < 0x150 then some 0x140
  else if 0x160 ≤ p ∧ p < 0x168 then some 0x160
  else if 0x170 ≤ p ∧ p < 0x174 then some 0x170
  else none

/-- PAGE_ID.TYPE of a page (12 R477). -/
def pageType (base : Nat) : Nat :=
  if base ≤ 0x11 then base + 1
  else if base = 0x20 then 0x20 else if base = 0x40 then 0x21 else if base = 0x100 then 0x22
  else if base = 0x140 then 0x23 else if base = 0x160 then 0x24 else 0x25

/-- The row a register offset falls in, with its index in the row's array. -/
def regFindIn (off : Nat) : List Reg → Option (Reg × Nat)
  | [] => none
  | r :: rest =>
    if r.off ≤ off ∧ (if r.stride = 0 then off = r.off else (off - r.off) % r.stride = 0 ∧ (off - r.off) / r.stride < r.count)
    then some (r, if r.stride = 0 then 0 else (off - r.off) / r.stride)
    else regFindIn off rest

/-- A row as it stands on a page of its array: the publication ring is queue 0's alone (11 R417). -/
def Reg.onPage (r : Reg) (page : Nat) : Option Reg :=
  if r.page = 0x40 ∧ page % 8 ≠ 0 then
    if r.off = 0x118 ∨ r.off = 0x11C then none else if r.off = 0x104 then some { r with rw := 0x7FFF } else some r
  else some r

/-- The row of a block register. -/
def regFind (page off : Nat) : Option (Reg × Nat) :=
  match pageBase page with
  | none => none
  | some b => (regFindIn off (regsOf b)).bind fun x => (x.1.onPage page).map fun r => (r, x.2)

/-! ### The part fitted -/

/-- Enabled tensor cores (00 R2). -/
def Chip.nCores (c : Chip) : Nat := match c.grade with | .g48 => 48 | .g40 => 40 | .g32 => 32
/-- Populated DRAM sites (00 R3). -/
def Chip.nSites (c : Chip) : Nat := match c.assembly with | .l2m4 => 4 | _ => 2
/-- Dellane links (00 R3). -/
def Chip.nLinks (c : Chip) : Nat := match c.assembly with | .l1m2 => 4 | _ => 8
/-- DRAM capacity in units of 64 MiB (17 R662). -/
def Chip.capUnits (c : Chip) : Nat := 192 * c.nSites
/-- DRAM capacity in bytes (02 R74). -/
def Chip.capacity (c : Chip) : Nat := c.capUnits * 0x4000000
/-- First byte of the candidate table, the top 128 MiB of device DRAM (04 R174, 13). -/
def Chip.tableBase (c : Chip) : Nat := c.capacity - 0x8000000
/-- DEVICE.ID (12 R479). -/
def Chip.idWord (c : Chip) : Nat :=
  c.nCores + (match c.assembly with | .l1m2 => 1 | .l2m4 => 2 | .l2m2 => 3) * 0x100
    + c.stepDigit.toNat * 0x10000 + c.stepLetter.toNat * 0x100000
/-- Maximum power at PL0 in 0.1 W, the reset value of POWER_CAP (17 R654, 20 R769). -/
def Chip.maxPower (c : Chip) : Nat :=
  10 * ((match c.assembly with | .l1m2 => 18 | .l2m2 => 26 | .l2m4 => 33)
    + (match c.grade with | .g48 => 52 | .g40 => 46 | .g32 => 40))

/-! ### The live and shadow files -/

/-- The key of a register in the files: Port B's own copy of a per-port register lies one page space above (13 R492). -/
def regKey (page off : Nat) : Nat := 4096 * page + off

/-- Reset value of a register. -/
def regReset (c : Chip) (page off : Nat) : Nat :=
  if page = 2 ∧ off = 0x118 then c.maxPower
  else match regFind (page % 0x1000) off with
    | some (r, _) => r.reset
    | none => 0

/-- The live value of a stored register. -/
def State.live (s : State) (page off : Nat) : Nat :=
  match mfind s.regs (regKey page off) with
  | some v => v.toNat
  | none => regReset s.chip page off

/-- A file with one register written, in canonical form. -/
def filePut (c : Chip) (m : SMap Word) (page off v : Nat) : SMap Word :=
  if v % 2 ^ 32 = regReset c page off then mdel m (regKey page off) else mput m (regKey page off) (BitVec.ofNat 32 v)

/-- A stored register's live value written. -/
def State.setLive (s : State) (page off v : Nat) : State := { s with regs := filePut s.chip s.regs page off v }

/-- The shadow value of an F or Q register (12 R462). -/
def State.shadowOf (s : State) (page off : Nat) : Nat :=
  match mfind s.shadow (regKey page off) with
  | some v => v.toNat
  | none => regReset s.chip page off

/-- An F or Q register's shadow value written. -/
def State.setShadow (s : State) (page off v : Nat) : State := { s with shadow := filePut s.chip s.shadow page off v }

/-! ### Stated ranges -/

/-- A link bit mask or number names a link the assembly has (02 R93). PARENT names a link while PARENT_EN is 1. DESIGN CHOICE; log 132. -/
def linkOk (c : Chip) (l : Nat) : Bool := l < c.nLinks

/-- The value lies in every range stated for the register's own fields. Rules over several registers are judged apart
(12 R471). Row `r`, value `v`. -/
def rangeOk (c : Chip) (r : Reg) (v : Nat) : Bool :=
  match r.page, r.off with
  | 0x01, 0x100 => bits v 1 0 ≠ 3
  | 0x01, 0x11C => bits v 1 0 ≠ 3
  | 0x01, 0x120 => 8 ≤ bits v 4 0 ∧ bits v 4 0 ≤ 24 ∧ bits v 11 8 ≤ 10 ∧ bits v 13 12 ≠ 3
  | 0x02, 0x114 => bits v 5 4 ≤ bits v 13 12
  | 0x02, 0x118 => 200 ≤ bits v 15 0 ∧ bits v 15 0 ≤ c.maxPower
  | 0x02, 0x11C => 85 ≤ bits v 15 8 ∧ bits v 15 8 ≤ 105
  | 0x03, 0x104 => bits v 1 0 ≤ 2
  | 0x03, 0x108 => 1 ≤ bits v 6 0 ∧ bits v 6 0 ≤ 100
  | 0x03, 0x10C => 1000 ≤ bits v 16 0 ∧ bits v 16 0 ≤ 100000
  | 0x03, 0x110 | 0x03, 0x114 | 0x03, 0x118 | 0x03, 0x11C | 0x03, 0x120 | 0x03, 0x124 | 0x03, 0x128 | 0x03, 0x12C =>
    bits v 16 0 ≤ 99600
  | 0x05, 0x200 => 10 ≤ bits v 4 0 ∧ bits v 4 0 ≤ 20
  | 0x06, 0x100 => 5 ≤ bits v 5 0 ∧ bits v 5 0 ≤ 40
  | 0x06, 0x104 => 10 ≤ bits v 7 0 ∧ bits v 7 0 ≤ 250 ∧ 1 ≤ bits v 22 16 ∧ bits v 22 16 ≤ 64
  | 0x07, 0x214 => 100 ≤ bits v 9 0 ∧ bits v 9 0 ≤ 1000
  | 0x08, 0x204 => bits v 29 24 ≤ 32
  | 0x08, 0x208 => bits v 11 8 ≤ bits v 15 12
  | 0x08, 0x20C => 1 ≤ bits v 4 0 ∧ bits v 4 0 ≤ 24
  | 0x08, 0x210 => 1 ≤ bits v 19 0
  | 0x08, 0x214 => 250 ≤ bits v 12 0 ∧ bits v 12 0 ≤ 8000
  | 0x09, 0x200 => bits v 15 0 ≤ 8000 ∧ bits v 31 16 ≤ 8000
  | 0x09, 0x204 => 1 ≤ bits v 15 0 ∧ bits v 15 0 ≤ 8000 ∧ bits v 19 16 ≤ bits v 23 20
  | 0x0A, 0x200 => 1 ≤ bits v 3 1 ∧ bits v 3 1 ≤ 5 ∧ 1 ≤ bits v 9 4 ∧ bits v 9 4 ≤ 40 ∧ bits v 12 10 ≤ 4 ∧ (bit v 0 = false ∨ bits v 3 1 ≤ 2)
  | 0x0B, 0x100 => bits v 1 0 ≠ 3
  | 0x0D, 0x104 => bits v 1 0 ≤ 2
  | 0x0D, 0x10C => (! bit v 3 || linkOk c (bits v 2 0)) && (bits v 15 8) >>> c.nLinks = 0
      && ! (bit v 3 && bit v (8 + bits v 2 0))
  | 0x0D, 0x110 => 256 ≤ bits v 15 0
  | 0x0D, 0x114 => 1 ≤ bits v 7 0
  | 0x0D, 0x11C => bits v 3 0 = 15 || linkOk c (bits v 3 0)
  | 0x0E, 0x100 => 1 ≤ bits v 5 4
  | 0x0F, 0x10C => 70 ≤ bits v 7 0 ∧ bits v 7 0 ≤ 110 ∧ 1 ≤ bits v 15 8 ∧ bits v 15 8 ≤ 10 ∧ 10 ≤ bits v 23 16 ∧ bits v 23 16 ≤ 100
  | 0x11, 0x104 => v % 64 = 0
  | 0x11, 0x10C => 6 ≤ bits v 4 0 ∧ bits v 4 0 ≤ 20
  | 0x20, 0x138 => v % 4096 = 0
  | 0x20, 0x140 => bits v 2 0 ≤ 6
  | 0x40, 0x104 => 1 ≤ bits v 3 0 ∧ bits v 3 0 ≤ 12 ∧ 1 ≤ bits v 7 4 ∧ bits v 7 4 ≤ 12 ∧ bits v 18 16 ≤ 6
  | 0x40, 0x108 | 0x40, 0x110 | 0x40, 0x118 => v % 4096 = 0
  | _, _ => true

end Sys2Proof.Machine
end

