-- ==== Sys2Proof/Machine/Ops.lean ====
section
/-! DEFINITION. The named operations over the parts of the state: field updates, leases and units, modes, attention and
watermark latches, the event log, and device DRAM. -/
namespace Sys2Proof.Machine
open Sys2Proof

/-! ### Indexed banks by natural number -/

/-- Entry `i` of a bank; `d` where the bank has none. -/
def bget {α : Type} {n : Nat} (d : α) (b : Bank α n) (i : Nat) : α := if h : i < n then b.at' ⟨i, h⟩ else d

/-- The bank with entry `i` passed through `f`; unchanged where it has no entry `i`. -/
def bupd {α : Type} {n : Nat} (b : Bank α n) (i : Nat) (f : α → α) : Bank α n := if h : i < n then b.upd ⟨i, h⟩ f else b

/-- Every index below `n`, rising. -/
def allFin (n : Nat) : List (Fin n) := List.finRange n
/-- Every number below `n`, ascending from `first` and round. -/
def turnFrom (n first : Nat) : List (Fin n) := (allFin n).filter (first ≤ ·.val) ++ (allFin n).filter (·.val < first)

/-! ### Updates of one part of the state -/

namespace State

/-- One tenant. -/
def tenant (s : State) (t : Fin 16) : Tenant := s.tenants.at' t
/-- One tenant passed through `f`. -/
def updTenant (s : State) (t : Fin 16) (f : Tenant → Tenant) : State := { s with tenants := s.tenants.upd t f }
/-- One queue pair. -/
def queue (s : State) (t : Fin 16) (q : Fin 8) : Queue := (s.tenant t).queues.at' q
/-- One queue pair passed through `f`. -/
def updQueue (s : State) (t : Fin 16) (q : Fin 8) (f : Queue → Queue) : State :=
  s.updTenant t fun n => { n with queues := n.queues.upd q f }
/-- A tenant's world passed through `f`. -/
def updWorld (s : State) (t : Fin 16) (f : World → World) : State := s.updTenant t fun n => { n with world := f n.world }
/-- A tenant's search passed through `f`. -/
def updSearch (s : State) (t : Fin 16) (f : Search → Search) : State := s.updTenant t fun n => { n with search := f n.search }
/-- A tenant's candidate side passed through `f`. -/
def updTable (s : State) (t : Fin 16) (f : Table → Table) : State := s.updTenant t fun n => { n with table := f n.table }
/-- A tenant's solver side passed through `f`. -/
def updSolver (s : State) (t : Fin 16) (f : Solver → Solver) : State := s.updTenant t fun n => { n with solver := f n.solver }
/-- A tenant's selections passed through `f`. -/
def updSel (s : State) (t : Fin 16) (f : Selection → Selection) : State := s.updTenant t fun n => { n with sel := f n.sel }
/-- A tenant's scheduling passed through `f`. -/
def updSched (s : State) (t : Fin 16) (f : Sched → Sched) : State := s.updTenant t fun n => { n with sched := f n.sched }
/-- A tenant's outcome passed through `f`. -/
def updOut (s : State) (t : Fin 16) (f : Outcome → Outcome) : State := s.updTenant t fun n => { n with out := f n.out }
/-- A tenant's Spoor chain passed through `f`. -/
def updSpoor (s : State) (t : Fin 16) (f : Spoor → Spoor) : State := s.updTenant t fun n => { n with spoor := f n.spoor }
/-- A core passed through `f`. -/
def updCore (s : State) (c : Nat) (f : Core → Core) : State := { s with cores := bupd s.cores c f }
/-- A checker engine passed through `f`. -/
def updEngine (s : State) (e : Nat) (f : Engine → Engine) : State := { s with engines := bupd s.engines e f }
/-- A Bear unit passed through `f`. -/
def updBear (s : State) (u : Nat) (f : BearUnit → BearUnit) : State := { s with bears := bupd s.bears u f }
/-- A Jay unit passed through `f`. -/
def updJay (s : State) (u : Nat) (f : JayUnit → JayUnit) : State := { s with jays := bupd s.jays u f }
/-- A Front engine passed through `f`. -/
def updFront (s : State) (u : Nat) (f : FrontUnit → FrontUnit) : State := { s with fronts := bupd s.fronts u f }
/-- A link passed through `f`. -/
def updLink (s : State) (l : Nat) (f : Link → Link) : State := { s with links := bupd s.links l f }
/-- The frame machine passed through `f`. -/
def updFrame (s : State) (f : Frame → Frame) : State := { s with frame := f s.frame }
/-- The clocks passed through `f`. -/
def updClock (s : State) (f : Clock → Clock) : State := { s with clock := f s.clock }
/-- Power and reset passed through `f`. -/
def updPower (s : State) (f : Power → Power) : State := { s with power := f s.power }
/-- Owl passed through `f`. -/
def updOwl (s : State) (f : Owl → Owl) : State := { s with owl := f s.owl }
/-- Lynx passed through `f`. -/
def updLynx (s : State) (f : Lynx → Lynx) : State := { s with lynx := f s.lynx }
/-- The cascade passed through `f`. -/
def updCascade (s : State) (f : Cascade → Cascade) : State := { s with cascade := f s.cascade }
/-- The calendar passed through `f`. -/
def updCal (s : State) (f : Calendar → Calendar) : State := { s with cal := f s.cal }
/-- The package faults passed through `f`. -/
def updFault (s : State) (f : PkgFault → PkgFault) : State := { s with fault := f s.fault }
/-- DRAM passed through `f`. -/
def updDram (s : State) (f : Dram → Dram) : State := { s with dram := f s.dram }
/-- Attention passed through `f`. -/
def updAttn (s : State) (f : Attn → Attn) : State := { s with attn := f s.attn }

/-- The configuration side of a port. -/
def cfg (s : State) : Port → PortCfg
  | .a => s.cfgA
  | .b => s.cfgB

/-- The configuration side of a port passed through `f`. -/
def updCfg (s : State) (p : Port) (f : PortCfg → PortCfg) : State :=
  match p with
  | .a => { s with cfgA := f s.cfgA }
  | .b => { s with cfgB := f s.cfgB }

/-- The state after every index of a list has passed through a step. -/
def forEach {α : Type} (s : State) (l : List α) (f : State → α → State) : State := l.foldl f s

/-- The state after every tenant has passed through a step, in ascending order. -/
def forTenants (s : State) (f : State → Fin 16 → State) : State := s.forEach (allFin 16) f

/-- A draw from a free value: the state with its draw counter advanced (log 7). -/
def draw (s : State) : State := { s with draws := s.draws + 1 }

end State

/-- A bit of a tenant's TIMING record set (14 R531). -/
def State.noteTiming (s : State) (t : Fin 16) (k : Nat) : State :=
  s.updOut t fun o => { o with timing := o.timing ||| BitVec.ofNat 16 (2 ^ k) }

/-! ### Pages -/

/-- Page of a tenant. -/
def tenantPage (t : Fin 16) : Nat := 0x20 + t.val
/-- Page of a queue. -/
def queuePage (t : Fin 16) (q : Fin 8) : Nat := 0x40 + 8 * t.val + q.val
/-- Page of a core. -/
def corePage (c : Nat) : Nat := 0x100 + c
/-- Page of a checker engine. -/
def enginePage (e : Nat) : Nat := 0x140 + e
/-- Page of a link. -/
def linkPage (l : Nat) : Nat := 0x160 + l
/-- Page of a DRAM site. -/
def sitePage (d : Nat) : Nat := 0x170 + d

/-! ### Modes and the arrangement -/

/-- Determinism mode: 0 FREE, 1 STATIC, 2 LOCKSTEP (14 R528). -/
def State.det (s : State) : Nat := bits (s.live 0x0B 0x100) 1 0
/-- The clock mode is reference-only (16 R602). -/
def State.refOnly (s : State) : Bool := bits (s.live 0x01 0x100) 1 0 = 2
/-- CASCADE.ROLE: 0 standalone, 1 master, 2 member (15 R575). -/
def State.role (s : State) : Nat := bits (s.live 0x0D 0x104) 1 0
/-- FRAME.TICK_SRC (01 R19). -/
def State.tickSrc (s : State) : Nat := bits (s.live 0x03 0x104) 1 0
/-- FRAME.PERIOD (01 R18). -/
def State.period (s : State) : Nat := bits (s.live 0x03 0x10C) 16 0
/-- FRAME.BUDGET_Pk (01 R28). -/
def State.budget (s : State) (k : Nat) : Nat := bits (s.live 0x03 (0x110 + 4 * k)) 16 0
/-- Offset of deadline D_k from the tick (01 R29). -/
def State.deadlineOf (s : State) (k : Nat) : Nat :=
  if k ≥ 7 then s.period - 100 else nsum ((List.range (k + 1)).map s.budget)
/-- Time of deadline D_k of the frame in progress. -/
def State.deadlineAt (s : State) (k : Nat) : Nat := s.frame.tickAt + s.deadlineOf k
/-- The control port (13 R491). -/
def State.ctrlPort (s : State) : Port := if s.owl.board.ctrlB then .b else .a
/-- The port that owns a tenant (13 R491). -/
def State.ownerOf (s : State) (t : Fin 16) : Port :=
  match s.owl.board.map.toNat with
  | 1 => .a
  | 2 => .b
  | _ => if t.val < 8 then .a else .b
/-- RUN is 0 and no frame is in progress (12 R464). -/
def State.stopped (s : State) : Bool := ! s.frame.run && ! s.frame.inFrame
/-- The device is in a package fault (19 R722). -/
def State.inFault (s : State) : Bool :=
  s.fault.domainReset || s.fault.refLost || s.fault.trip || s.fault.frozen || s.fault.sram || s.fault.fabric
/-- Every engine and task is halted: by a trip, or frozen by Lynx (17 R658; 14 R544). In any other package fault the frame in
progress goes on to its D_7 (16 R622). -/
def State.halted (s : State) : Bool := s.fault.trip || s.fault.frozen
/-- The device is held in package reset (17 R638, R639; 20 R766), or has no standby power. -/
def State.held (s : State) : Bool := ! s.power.pwrGood || s.power.sysRst || s.power.jtagHold || ! s.power.vaon
/-- The boot has reached READY (17 R650). -/
def State.isReady (s : State) : Bool := s.power.stage = 5
/-- The boot has stopped in RECOVERY (17 R651). -/
def State.inRecovery (s : State) : Bool := s.power.stage = 6

/-! ### Leases (13 R499, R520) -/

/-- A field of a tenant page. -/
def State.lease (s : State) (t : Fin 16) (off : Nat) : Nat := s.live (tenantPage t) off
/-- L_MAIN.ENABLE. -/
def State.enabled (s : State) (t : Fin 16) : Bool := bit (s.lease t 0x110) 31
/-- L_MAIN.VCORES. -/
def State.vcores (s : State) (t : Fin 16) : Nat := bits (s.lease t 0x110) 7 0
/-- The mask of leased logical cores. -/
def State.coreMask (s : State) (t : Fin 16) : Nat := s.lease t 0x114 + bits (s.lease t 0x118) 15 0 * 2 ^ 32
/-- Leased logical cores, ascending. -/
def State.coresOf (s : State) (t : Fin 16) : List Nat := (List.range 48).filter (fun n => bit (s.coreMask t) n)
/-- Leased units of a kind, ascending. -/
def State.unitsOf (s : State) (t : Fin 16) : UnitKind → List Nat
  | .core => s.coresOf t
  | .badger => (List.range 16).filter (fun n => bit (s.lease t 0x11C) n)
  | .bear => (List.range 2).filter (fun n => bit (s.lease t 0x11C) (16 + n))
  | .jay => (List.range 4).filter (fun n => bit (s.lease t 0x11C) (20 + n))
  | .front => (List.range 4).filter (fun n => bit (s.lease t 0x11C) (24 + n))
/-- L_QUOTA.TAGS. -/
def State.tagQuota (s : State) (t : Fin 16) : Nat := bits (s.lease t 0x120) 11 0
/-- L_QUOTA.SLOTS. -/
def State.slotQuota (s : State) (t : Fin 16) : Nat := bits (s.lease t 0x120) 28 16
/-- L_BURROW.TILES. -/
def State.tileShare (s : State) (t : Fin 16) : Nat := bits (s.lease t 0x124) 11 0
/-- First entry of the candidate region. -/
def State.candBase (s : State) (t : Fin 16) : Nat := bits (s.lease t 0x128) 20 0
/-- Entries of the candidate region. -/
def State.candQuota (s : State) (t : Fin 16) : Nat := bits (s.lease t 0x12C) 20 0
/-- First byte of the DRAM lease. -/
def State.dramBase (s : State) (t : Fin 16) : Nat := bits (s.lease t 0x130) 9 0 * 0x4000000
/-- Bytes of the DRAM lease. -/
def State.dramSize (s : State) (t : Fin 16) : Nat := bits (s.lease t 0x130) 25 16 * 0x4000000
/-- A range of bytes lies wholly inside the tenant's DRAM lease. -/
def State.inLease (s : State) (t : Fin 16) (addr len : Nat) : Bool :=
  s.dramBase t ≤ addr && addr + len ≤ s.dramBase t + s.dramSize t
/-- The tenant exists (13 R495). -/
def Tenant.exists' (n : Tenant) : Bool := n.state ≠ .none
/-- The tenant runs frames: it exists and is not HELD. -/
def Tenant.live (n : Tenant) : Bool := n.state = .active ∨ n.state = .resetting
/-- The program of the active slot (10 R394). -/
def Sched.program (d : Sched) : Option Program := if d.activeB then d.slotB else d.slotA
/-- The tenant has a frame program in this frame (01 R43). -/
def Tenant.hasProgram (n : Tenant) : Bool := n.sched.inForce

/-! ### Units (13 R514, R517) -/

/-- The views of a unit. -/
def State.view (s : State) : UnitKind → Nat → Option View
  | .core, n => if n < s.chip.nCores then some (bget View.reset (s.cores.map (·.view)) n) else none
  | .badger, n => if h : n < 16 then some (s.engines.at' ⟨n, h⟩).view else none
  | .bear, n => if h : n < 2 then some (s.bears.at' ⟨n, h⟩).view else none
  | .jay, n => if h : n < 4 then some (s.jays.at' ⟨n, h⟩).view else none
  | .front, n => if h : n < 4 then some (s.fronts.at' ⟨n, h⟩).view else none

/-- The views of a unit passed through `f`. -/
def State.updView (s : State) (k : UnitKind) (n : Nat) (f : View → View) : State :=
  match k with
  | .core => s.updCore n fun c => { c with view := f c.view }
  | .badger => s.updEngine n fun c => { c with view := f c.view }
  | .bear => s.updBear n fun c => { c with view := f c.view }
  | .jay => s.updJay n fun c => { c with view := f c.view }
  | .front => s.updFront n fun c => { c with view := f c.view }

/-- Both views are UP (13 R514). -/
def View.usable (v : View) : Bool := v.owl == .up && v.beaverUp
/-- The unit serves its tenants: it is usable, and joined them at a tick (13 R514). -/
def View.serves (v : View) : Bool := v.usable && v.joined
/-- STATE of a unit: 2 FENCED, 1 UP, 0 DOWN (13 R517). -/
def View.code (v : View) : Nat := if v.owl = .fenced then 2 else if v.usable then 1 else 0
/-- The two views disagree (13 R518, R522). -/
def View.mismatch (v : View) : Bool :=
  match v.owl with
  | .fenced => false
  | .up => ! v.beaverUp
  | .down => v.beaverUp

/-- The unit is usable for the tenants that lease it (13 R514). -/
def State.usable (s : State) (k : UnitKind) (n : Nat) : Bool :=
  match s.view k n with
  | some v => v.serves
  | none => false

/-- Usable leased units of a kind, ascending. -/
def State.usableOf (s : State) (t : Fin 16) (k : UnitKind) : List Nat := (s.unitsOf t k).filter (s.usable k)

/-- The kinds of unit with their codes in UNIT_RST (17 R661). -/
def unitKinds : List UnitKind := [.core, .badger, .bear, .jay, .front]
/-- The code of a unit kind (17 R661). -/
def UnitKind.code : UnitKind → Nat
  | .core => 0
  | .badger => 1
  | .bear => 2
  | .jay => 3
  | .front => 4
/-- The unit kind of a code; none above 4. -/
def kindOf (n : Nat) : Option UnitKind := unitKinds[n]?
/-- Units of a kind the grade contains. -/
def State.unitCount (s : State) : UnitKind → Nat
  | .core => s.chip.nCores
  | .badger => 16
  | .bear => 2
  | .jay => 4
  | .front => 4

/-- Every unit of the grade. -/
def State.allUnits (s : State) : List (UnitKind × Nat) :=
  unitKinds.flatMap fun k => (List.range (s.unitCount k)).map fun n => (k, n)

/-- A mismatch holds for a unit the tenant leases (13 R518). -/
def State.mismatchOf (s : State) (t : Fin 16) : Bool :=
  unitKinds.any fun k => (s.unitsOf t k).any fun n => match s.view k n with | some v => v.mismatch | none => false

/-- The device runs degraded (13 R519). -/
def State.degraded (s : State) : Bool :=
  s.allUnits.any fun u => match s.view u.1 u.2 with | some v => ! v.usable | none => false

/-- The word of T_UNITS: usable leased units counted by kind (13 R520). -/
def State.unitsWord (s : State) (t : Fin 16) : Nat :=
  (s.usableOf t .core).length + (s.usableOf t .badger).length * 2 ^ 8 + (s.usableOf t .bear).length * 2 ^ 16
    + (s.usableOf t .jay).length * 2 ^ 20 + (s.usableOf t .front).length * 2 ^ 24

/-! ### Attention (12 R460, R461, R475; 11 R436, R438) -/

/-- Which sequences a page's latches reach: those of every tenant, or of one (11 R436). -/
inductive Reach where
  | everyone
  | tenant (t : Fin 16)
deriving DecidableEq, Repr

/-- The replies a page is covered by (11 R436). -/
def reachOf (page : Nat) : Reach :=
  if h : 0x20 ≤ page ∧ page < 0x30 then .tenant ⟨page - 0x20, by omega⟩
  else if h : 0x40 ≤ page ∧ page < 0xC0 then .tenant ⟨(page - 0x40) / 8, by omega⟩
  else .everyone

/-- The sequences of a page's replies advanced by `n` (11 R438). -/
def Attn.advance (a : Attn) (page n : Nat) : Attn :=
  if n = 0 then a
  else
    match reachOf page with
    | .everyone =>
      { a with seqTenant := a.seqTenant.map (· + BitVec.ofNat 8 n), seqDevice := a.seqDevice + BitVec.ofNat 8 n }
    | .tenant t =>
      { a with seqTenant := a.seqTenant.upd t (· + BitVec.ofNat 8 n), seqDevice := a.seqDevice + BitVec.ofNat 8 n }

/-- Every sequence advanced by `n`, for a source that is not a page (11 R438). -/
def Attn.advanceAll (a : Attn) (n : Nat) : Attn :=
  { a with seqTenant := a.seqTenant.map (· + BitVec.ofNat 8 n), seqDevice := a.seqDevice + BitVec.ofNat 8 n }

/-- Number of ones in a word. -/
def popcount (w : Word) : Nat := (List.range 32).countP (fun i => w.getLsbD i)

/-- Latch bits of a page set where raw bits are 1, whatever the mask; each unmasked bit that changes from 0 to 1 advances
the sequences (12 R460, 11 R438). -/
def Attn.setLatch (a : Attn) (page : Nat) (raw : Word) : Attn :=
  let old := mget 0 a.latch page
  let rise := raw &&& ~~~ old
  if rise = 0 then a
  else ({ a with latch := mset 0 a.latch page (old ||| raw) }).advance page (popcount (rise &&& ~~~ mget 0 a.mask page))

/-- A W1C write of the latch: bits whose raw bit is 0 clear (12 R460). -/
def Attn.clearLatch (a : Attn) (page : Nat) (raw bits : Word) : Attn :=
  { a with latch := mset 0 a.latch page (mget 0 a.latch page &&& ~~~ (bits &&& ~~~ raw)) }

/-- The ATTN bits a page names; the others are reserved (00 R10; 12 R458 and the pages' own rules). -/
def attnBits (page : Nat) : Word :=
  if page = 0x00 ∨ page = 0x0B then 0xF
  else if page = 0x01 ∨ page = 0x02 then 0x1F
  else if page = 0x03 then 7
  else if page = 0x0D ∨ page = 0x0F then 0x3F
  else if page = 0x0E then 1
  else if page = 0x10 then 3
  else if 0x20 ≤ page ∧ page < 0x30 then 0xFF
  else if 0x40 ≤ page ∧ page < 0xC0 then 1
  else if 0x160 ≤ page ∧ page < 0x168 ∨ 0x170 ≤ page ∧ page < 0x174 then 3
  else 0

/-- A write of the mask: each latched bit unmasked counts as a change from 0 to 1 (12 R461). Reserved bits stay 0 (00 R10). -/
def Attn.setMask (a : Attn) (page : Nat) (new : Word) : Attn :=
  let mask := new &&& attnBits page
  ({ a with mask := mset 0 a.mask page mask }).advance page
    (popcount (mget 0 a.mask page &&& ~~~ mask &&& mget 0 a.latch page))

/-- The watermark level of a page as evaluated now: each rise is a crossing (12 R475, R476, R484). -/
def Attn.setLevel (a : Attn) (page : Nat) (lvl : Word) : Attn :=
  let old := mget 0 a.level page
  if old = lvl then a
  else
    let rise := lvl &&& ~~~ old
    let cr := mget 0 a.crossed page
    ({ a with
      level := mset 0 a.level page lvl
      crossed := mset 0 a.crossed page (cr ||| rise)
      count := mset 0 a.count page (satAdd 0xFFFF (mget 0 a.count page) (popcount rise)) }).advance page
        (popcount (rise &&& ~~~ cr))

/-- A W1C write of the crossed bits (12 R475, R483). -/
def Attn.clearCrossed (a : Attn) (page : Nat) (bits : Word) : Attn :=
  { a with crossed := mset 0 a.crossed page (mget 0 a.crossed page &&& ~~~ bits) }

/-- ERR_COUNT of a page advanced (19 R733). -/
def Attn.bumpErr (a : Attn) (page : Nat) : Attn := { a with errCount := mset 0 a.errCount page (sat16 (mget 0 a.errCount page)) }

/-- LAST_RESULT of a page (12 R463, R473). -/
def Attn.setResult (a : Attn) (page : Nat) (code : Byte) : Attn := { a with lastResult := mset 0 a.lastResult page code }

/-- An attention event of a page (12 R460). -/
def State.raise (s : State) (page bit : Nat) : State := s.updAttn fun a => a.setLatch page (BitVec.ofNat 32 (2 ^ bit))
/-- ERR_COUNT of a page advanced (19 R733). -/
def State.bumpErr (s : State) (page : Nat) : State := s.updAttn fun a => a.bumpErr page

/-! ### Registers returned to their reset values -/

/-- The entries of a register file outside a range of offsets of a page. -/
def fileDrop {β : Type} (m : List (Nat × β)) (page lo hi : Nat) : List (Nat × β) :=
  m.filter fun x => ! (regKey page lo ≤ x.1 && x.1 < regKey page hi)

/-- Registers of a page with offsets from `lo` up to `hi` at their reset values, live and shadow alike. -/
def State.resetRegs (s : State) (page lo hi : Nat) : State :=
  { s with
    regs := fileDrop s.regs page lo hi
    shadow := fileDrop s.shadow page lo hi
    dirty := s.dirty.filter fun k => ! (regKey page lo ≤ k && k < regKey page hi) }

/-- The header of a page at its reset values. -/
def Attn.resetPage (a : Attn) (page : Nat) : Attn :=
  { a with
    latch := mdel a.latch page, mask := mdel a.mask page, errCount := mdel a.errCount page, level := mdel a.level page
    crossed := mdel a.crossed page, count := mdel a.count page, lastResult := mdel a.lastResult page
    pageCtrl := mdel a.pageCtrl page }

/-- A whole page at its reset values: header and registers. -/
def State.resetPage (s : State) (page : Nat) : State := (s.resetRegs page 0 4096).updAttn fun a => a.resetPage page

/-- A queue page at its reset values (13 R498; 17 R644). What its rings hold is the host's memory and stays. -/
def State.resetQueue (s : State) (t : Fin 16) (q : Fin 8) : State :=
  (s.resetPage (queuePage t q)).updQueue t q fun k => { Queue.reset with ring := k.ring }

/-! ### Status codes (19 R718) -/

/-- OK -/
def codeOk : Byte := 0x00
/-- OK_APPROX -/
def codeApprox : Byte := 0x01
/-- OK_CLIPPED -/
def codeClipped : Byte := 0x02
/-- NO_PATH_PROVEN -/
def codeNoPathProven : Byte := 0x10
/-- NO_PATH_IN_TIME -/
def codeNoPathInTime : Byte := 0x11
/-- FALLBACK_ISSUED -/
def codeFallback : Byte := 0x12
/-- IMMINENT -/
def codeImminent : Byte := 0x13
/-- LENGTH_EXCEEDS_BUFFER -/
def codeLength : Byte := 0x20
/-- SHAPE_NO_BUCKET -/
def codeNoBucket : Byte := 0x21
/-- MODEL_TOO_LARGE -/
def codeTooLarge : Byte := 0x22
/-- BAD_DESCRIPTOR -/
def codeBad : Byte := 0x23
/-- LIMIT_VIOLATION -/
def codeLimit : Byte := 0x24
/-- ACCESS_VIOLATION -/
def codeAccess : Byte := 0x25
/-- BUSY_QUIESCE_REQUIRED -/
def codeBusy : Byte := 0x30
/-- CONFIG_DEFERRED -/
def codeDeferred : Byte := 0x31
/-- CONFIG_INVALID -/
def codeInvalid : Byte := 0x32
/-- DEADLOCK -/
def codeDeadlock : Byte := 0x40
/-- WAIT_TIMEOUT -/
def codeWaitTimeout : Byte := 0x41
/-- PHASE_CUT -/
def codePhaseCut : Byte := 0x42
/-- FRAME_PASSED -/
def codePassed : Byte := 0x43
/-- SOLVER_ILLPOSED -/
def codeIllPosed : Byte := 0x50
/-- SOLVER_NOT_CONVERGED -/
def codeNotConverged : Byte := 0x51
/-- TENANT_RESET -/
def codeTenantReset : Byte := 0x60
/-- UNIT_FENCED -/
def codeFenced : Byte := 0x61
/-- LOCKSTEP_DIVERGED -/
def codeDiverged : Byte := 0x62
/-- MASTER_LOST -/
def codeMasterLost : Byte := 0x63
/-- INVALID_DATE -/
def codeDate : Byte := 0x70
/-- UPDATE_REJECTED -/
def codeUpdate : Byte := 0x71
/-- UNPAIRED -/
def codeUnpaired : Byte := 0x72
/-- TOKEN_MISMATCH -/
def codeToken : Byte := 0x73
/-- NOT_PERMITTED -/
def codeNotPermitted : Byte := 0x74
/-- INTERNAL_ERROR -/
def codeInternal : Byte := 0xF0
/-- MEMORY_UE -/
def codeMemoryUe : Byte := 0xF1

/-! ### Owl's event log and lifetime counters (18 R685 to R688) -/

/-- A lifetime counter advanced, saturating (18 R687). -/
def State.bumpCounter (s : State) (i : Nat) : State :=
  s.updOwl fun o => { o with
    counters := bupd o.counters i fun w => if w = 0xFFFFFFFF then w else w + 1
    sinceCheckpoint := o.sinceCheckpoint }

/-- A record put into the event buffer; with 256 buffered it is discarded and counted (18 R686). -/
def Owl.record (o : Owl) (secs : BitVec 64) (page : Nat) (event severity : Nat) (result : Byte) (unit : Nat)
    (data : List Byte) : Owl :=
  if 256 ≤ o.buffer.length then { o with logDrops := sat16 o.logDrops, dropsPending := o.dropsPending + 1 }
  else
    let r : Event :=
      { seq := o.nextSeq, seconds := secs, page := BitVec.ofNat 16 page, event := BitVec.ofNat 8 event,
        severity := BitVec.ofNat 8 severity, result := result, unit := BitVec.ofNat 8 unit, data := padTo 32 data,
        cycles := bget 0 o.counters 11 }
    { o with nextSeq := o.nextSeq + 1, buffer := o.buffer ++ [r] }

/-- The SECONDS field of an event record: bit 63 set when VALID is 0 (18 R685). -/
def State.logSeconds (s : State) : BitVec 64 :=
  if s.cal.valid then s.cal.seconds else s.cal.seconds ||| 0x8000000000000000

/-- An event logged by Owl (18 R685, R686); a discarded record raises LOG_DROP (18 R707). Severities are a DESIGN CHOICE,
and so is the packing of DATA, one byte a small field and four or eight bytes a wide one; log 12. -/
def State.logEvent (s : State) (page event severity : Nat) (result : Byte) (unit : Nat) (data : List Byte) : State :=
  let s' := s.updOwl fun o => o.record s.logSeconds page event severity result unit data
  if 256 ≤ s.owl.buffer.length then s'.raise 0x0F 1 else s'

/-! ### Device DRAM (02 R74, 19 R728) -/

/-- One byte of DRAM; an unlisted byte reads 0, as the boot writes it (17 R650). -/
def Dram.byte (d : Dram) (a : Nat) : Byte := mget 0 d.bytes a
/-- A range of bytes of DRAM. -/
def Dram.read (d : Dram) (a n : Nat) : List Byte := (List.range n).map fun i => d.byte (a + i)
/-- Bytes written to a memory, lowest address first. -/
def bytesPut (m : List Host.Cell) : Nat → List Byte → List Host.Cell
  | _, [] => m
  | a, b :: r => bytesPut (mset 0 m a b) (a + 1) r
/-- A write of DRAM; a poisoned block stays poisoned unless the write covers all 32 bytes of it (19 R728). -/
def Dram.write (d : Dram) (a : Nat) (bs : List Byte) : Dram :=
  { d with
    bytes := bytesPut d.bytes a bs
    poison := d.poison.filter fun b => ! (a ≤ 32 * b && 32 * b + 32 ≤ a + bs.length) }
/-- A range touches a poisoned block. -/
def Dram.poisoned (d : Dram) (a n : Nat) : Bool := d.poison.any fun b => a < 32 * b + 32 && 32 * b < a + n
/-- The site of a device address (02 R74). -/
def siteOf (c : Chip) (a : Nat) : Nat := (a / 256) % c.nSites

/-- A write of device DRAM. -/
def State.dramWrite (s : State) (a : Nat) (bs : List Byte) : State := s.updDram fun d => d.write a bs
/-- A read of device DRAM. -/
def State.dramRead (s : State) (a n : Nat) : List Byte := s.dram.read a n

end Sys2Proof.Machine
end

