-- ==== Sys2Proof/Machine/Streams.lean ====
section
/-! DEFINITION. The 76 streams Lynx signs (14 R540, R541): every write a unit issues onto the fabric advances its stream's
signature. -/
namespace Sys2Proof.Machine
open Sys2Proof

/-- TARGET codes of a beat (14 R541). -/
def toDram : Nat := 0
/-- A core ring. -/
def toCore : Nat := 1
/-- The proposal converter. -/
def toConverter : Nat := 2
/-- A Dellane link. -/
def toLink : Nat := 3
/-- The host. -/
def toHost : Nat := 4

/-- The 64-byte beats of a write: address of the block, byte enables and data. That a beat is an aligned block is DEDUCED;
log 50. -/
def beatsOf (a : Nat) (d : List Byte) : List (Nat × Nat × List Byte) :=
  if d.isEmpty then []
  else (List.range ((a + d.length - 1) / 64 + 1 - a / 64)).map fun k =>
    let base := 64 * (a / 64 + k)
    let on (i : Nat) : Bool := a ≤ base + i && base + i < a + d.length
    (base, nsum ((List.range 64).map fun i => if on i then 2 ^ i else 0),
      (List.range 64).map fun i => if on i then lget 0 d (base + i - a) else 0)

/-- The 83 bytes of a beat (14 R541). -/
def beatBytes (target dest : Nat) (b : Nat × Nat × List Byte) : List Byte :=
  leBytes 1 target ++ leBytes 2 dest ++ leBytes 8 b.1 ++ leBytes 8 b.2.1 ++ b.2.2

/-- Beats noted by Lynx in LOCKSTEP mode for stream `k` (14 R541). -/
def State.streamBeats (s : State) (k target dest : Nat) (l : List (Nat × Nat × List Byte)) (n : Nat) : State :=
  if bits (s.live 0x0B 0x100) 1 0 ≠ 2 || s.lynx.frozen then s
  else s.updLynx fun x =>
    { x with
      sigs := bupd x.sigs k fun c => l.foldl (fun c b => crc64 c (beatBytes target dest b)) c
      bytesNow := bupd x.bytesNow k (· + n) }

/-- A unit's write of bytes at an address. -/
def State.streamWrite (s : State) (k target dest a : Nat) (d : List Byte) : State :=
  s.streamBeats k target dest (beatsOf a d) d.length

/-- A unit's writes of `n` bytes whose order, addresses and format the spec leaves open: the signature of its stream is free. DESIGN
CHOICE; log 136. -/
def State.streamFree (s : State) (k n : Nat) : State :=
  if bits (s.live 0x0B 0x100) 1 0 ≠ 2 || s.lynx.frozen then s
  else
    let v : BitVec 64 := (Config.freeWord s.draws).append (Config.freeWord (s.draws + 1))
    s.draw.draw.updLynx fun x => { x with sigs := bupd x.sigs k fun _ => v, bytesNow := bupd x.bytesNow k (· + n) }

/-- A 256-byte record of PUBLISH, its slot index as the address of every beat (14 R540). -/
def State.streamRecord (s : State) (slot : Nat) (d : List Byte) : State :=
  s.streamBeats 75 toHost 0 ((chunks 64 (d.length / 64 + 1) d).map fun c => (slot, 2 ^ 64 - 1, padTo 64 c)) d.length

end Sys2Proof.Machine
end

