-- ==== Sys2Proof/Machine/Flags.lean ====
section
/-! DEFINITION. The status bits computed from the state: attention conditions, watermark levels, the STAT field, and the
settling of latches after a command. -/
namespace Sys2Proof.Machine
open Sys2Proof

/-- A word from its set bits, given as bit number and condition. -/
def bitsOf (l : List (Nat × Bool)) : Word := BitVec.ofNat 32 (nsum (l.map fun p => if p.2 then 2 ^ p.1 else 0))

/-! ### Fields of a command (11 R427, R428) -/

/-- Field of a command word, byte `i`, `n` bytes. -/
def cmdField (w : BitVec 512) (i n : Nat) : Nat := bits w.toNat (8 * (i + n) - 1) (8 * i)
/-- OPCODE. -/
def Cmd.opcode (c : Cmd) : Nat := cmdField c.word 0 1
/-- CMD_ID. -/
def Cmd.id (c : Cmd) : BitVec 16 := BitVec.ofNat 16 (cmdField c.word 2 2)
/-- SRC: the buffer is in device DRAM. -/
def Cmd.src (c : Cmd) : Bool := bit (cmdField c.word 1 1) 0
/-- BUF_ADDR. -/
def Cmd.addr (c : Cmd) : Nat := cmdField c.word 8 8
/-- DATA_LEN. -/
def Cmd.len (c : Cmd) : Nat := cmdField c.word 20 4
/-- Bytes of ARGS from byte `i` of the command. -/
def Cmd.args (c : Cmd) (i n : Nat) : List Byte := leBytes n (cmdField c.word i n)
/-- The opcode takes a buffer (11 R428). -/
def takesBuffer (op : Nat) : Bool := op = 1 || op = 2 || op = 3 || op = 6 || op = 7
/-- The command's buffer is in host memory and not yet read. -/
def Cmd.readsHost (c : Cmd) : Bool := takesBuffer c.opcode && ! c.src && ! c.waiting

/-! ### Bounds in flight -/

/-- Tags held by commands of one queue: those fetched and those whose completion is still to be written (11 R417
Q_INFLIGHT, R423). -/
def Tenant.tagsOf (n : Tenant) (q : Fin 8) : Nat := (n.cmds.countP fun c => c.q = q) + (n.queues.at' q).comps.length
/-- Tags a tenant's commands hold (11 R423). -/
def Tenant.tagsUsed (n : Tenant) : Nat := n.cmds.length + nsum (n.queues.toList.map fun k => k.comps.length)
/-- Tags held device-wide (11 R423). -/
def State.tagsUsed (s : State) : Nat := nsum (s.tenants.toList.map Tenant.tagsUsed)
/-- Non-posted reads a port has outstanding: one for each fetched command whose buffer in host memory has not been read. DESIGN CHOICE; log
129 (11 R446). -/
def State.readsOf (s : State) (p : Port) : Nat :=
  nsum ((allFin 16).map fun t => if s.ownerOf t = p then (s.tenant t).cmds.countP Cmd.readsHost else 0)
/-- The bound of a port's non-posted reads (11 R412, R446). -/
def readBound (p : Port) : Nat := if Config.tenBitTags (match p with | .a => 0 | .b => 1) then 512 else 256
/-- A port takes no new read (11 R446). -/
def State.readsFull (s : State) (p : Port) : Bool := readBound p ≤ s.readsOf p

/-- Depth of a completion queue (11 R418). -/
def State.cqDepth (s : State) (t : Fin 16) (q : Fin 8) : Nat := 2 ^ bits (s.live (queuePage t q) 0x104) 7 4
/-- Depth of a submission queue (11 R418). -/
def State.sqDepth (s : State) (t : Fin 16) (q : Fin 8) : Nat := 2 ^ bits (s.live (queuePage t q) 0x104) 3 0
/-- Slots of a completion queue that are neither written and unconsumed nor reserved (11 R446). -/
def State.cqFree (s : State) (t : Fin 16) (q : Fin 8) : Nat :=
  let c := s.queue t q
  s.cqDepth t q - (c.written + c.reserved + b2n c.frameSlot)
/-- Task slots a tenant uses (10 R382). -/
def Sched.slotsUsed (d : Sched) : Nat := d.tasks.length
/-- Task slots in use device-wide (10 R403). -/
def State.slotsUsed (s : State) : Nat := nsum (s.tenants.toList.map fun n => n.sched.slotsUsed)
/-- Delay-list entries a tenant uses: armed timers and started WAITs with a time-out of their own (10 R388, R390). -/
def Sched.delayUsed (d : Sched) : Nat := d.timers.length + d.tasks.countP fun k => k.st = .waiting ∧ k.timed

/-- Mixed tiles of a world in use: static and dynamic (03 R126). -/
def World.mixedTiles (w : World) : Nat :=
  w.stat.countP (fun p => match p.2.body with | .mixed _ => true | _ => false)
    + w.dyn.countP (fun p => match p.2 with | .mixed _ => true | _ => false)

/-- The lattice range of a tenant's region is full (04 R175, R178). -/
def State.latticeFull (s : State) (t : Fin 16) : Bool :=
  (s.tenant t).exists' && s.candQuota t ≤ 5248 + (s.tenant t).search.emitted

/-- Descriptors a core's DMA engine has outstanding: its link writes that wait for an answer (08 R326). Operand transfers are part of the
step they serve. DEDUCED; log 34. -/
def State.coreDma (s : State) (c : Nat) : Nat := s.cascade.tags.countP fun g => g.core.map (·.val) = some c

/-- Depth of a checker engine's queue (05 R222). -/
def Engine.depth (e : Engine) : Nat := e.queue.length

/-! ### Attention conditions (11 R436 and the pages' own rules) -/

/-- The junction's throttle condition (17 R657, R660). -/
def Power.throttleCond (p : Power) : Bool := p.throttle || p.overC

/-- A member's PERIOD differs from its master's (15 R583). -/
def State.periodMismatch (s : State) : Bool :=
  s.role = 2 && (match s.cascade.masterPeriod with | some p => p ≠ s.period | none => false)

/-- ATTN_RAW conditions of a page: the bits that are conditions, now. -/
def State.attnRaw (s : State) (page : Nat) : Word :=
  if page = 0x01 then bitsOf [(1, s.clock.fail ≠ 0), (2, s.clock.refLost)]
  else if page = 0x02 then bitsOf [(0, s.power.throttleCond), (1, s.fault.trip), (3, s.inRecovery)]
  else if page = 0x03 then bitsOf [(1, s.frame.safePin)]
  else if page = 0x0B then
    bitsOf [(1, s.det = 2 && ! s.refOnly), (2, s.lynx.frozen), (3, s.lynx.partnerLost)]
  else if page = 0x0D then bitsOf [(0, s.cascade.masterLost), (4, s.periodMismatch)]
  else if page = 0x0E then bitsOf [(0, s.power.failedSites ≠ 0)]
  else if page = 0x0F then bitsOf [(0, s.owl.alert), (3, s.owl.boardDefault), (5, s.cal.lost)]
  else if page = 0x10 then bitsOf [(0, s.cal.ended), (1, ! s.cal.valid)]
  else if h : 0x20 ≤ page ∧ page < 0x30 then
    let t : Fin 16 := ⟨page - 0x20, by omega⟩
    bitsOf [(3, s.mismatchOf t), (5, (s.tenant t).state = .held)]
  else if h : 0x40 ≤ page ∧ page < 0xC0 then
    bitsOf [(0, (s.queue ⟨(page - 0x40) / 8, by omega⟩ ⟨(page - 0x40) % 8, by omega⟩).dmaErr)]
  else if h : 0x160 ≤ page ∧ page < 0x168 then
    let l := s.links.at' ⟨page - 0x160, by omega⟩
    bitsOf [(0, l.enabled && l.st ≠ .up)]
  else if 0x170 ≤ page ∧ page < 0x174 then bitsOf [(0, s.power.failedSites.getLsbD (page - 0x170))]
  else 0

/-- WMARK_LEVEL of a page, now. A link that holds no reserve has no channel that could run out; log 134. On WAVEFRONT a bit stands after its
frame has ended, until the next tick (04 R181): DESIGN CHOICE; log 115. -/
def State.wmarkLevel (s : State) (page : Nat) : Word :=
  let perTenant (f : Fin 16 → Bool) : List (Nat × Bool) := (allFin 16).map fun t => (t.val, f t)
  if page = 0x00 then bitsOf [(0, s.readsFull .a), (1, s.readsFull .b), (2, 2048 ≤ s.tagsUsed)]
  else if page = 0x04 then
    bitsOf (perTenant (fun t => (s.tenant t).exists' && s.slotQuota t ≤ (s.tenant t).sched.slotsUsed)
      ++ (allFin 16).map fun t => (16 + t.val, decide (512 ≤ (s.tenant t).sched.delayUsed)))
  else if page = 0x05 then bitsOf ((allFin 4).map fun u => (u.val, decide (16 ≤ (s.jays.at' u).queue.length)))
  else if page = 0x06 then
    bitsOf (perTenant fun t => (s.tenant t).exists' && s.tileShare t ≠ 0 && s.tileShare t = (s.tenant t).world.mixedTiles)
  else if page = 0x07 then bitsOf (perTenant fun t => s.latticeFull t)
  else if page = 0x08 then bitsOf (perTenant fun t => (s.tenant t).search.ended = some 1)
  else if page = 0x0A then bitsOf (perTenant fun t => (s.tenant t).solver.slots.any fun k => k.st = .queued)
  else if page = 0x0F then bitsOf [(0, 192 ≤ s.owl.buffer.length)]
  else if h : 0x40 ≤ page ∧ page < 0xC0 then
    let t : Fin 16 := ⟨(page - 0x40) / 8, by omega⟩
    let q : Fin 8 := ⟨(page - 0x40) % 8, by omega⟩
    let n := s.tenant t
    bitsOf [(0, (s.queue t q).published ≠ [] && (s.tagQuota t ≤ n.tagsUsed || 2048 ≤ s.tagsUsed)),
      (1, s.cqFree t q = 0), (2, q = 0 && n.backlog ≠ [])]
  else if 0x100 ≤ page ∧ page < 0x130 then bitsOf [(0, 32 ≤ s.coreDma (page - 0x100))]
  else if 0x140 ≤ page ∧ page < 0x150 then bitsOf [(0, 256 ≤ (bget Engine.reset s.engines (page - 0x140)).depth)]
  else if h : 0x160 ≤ page ∧ page < 0x168 then
    let l := s.links.at' ⟨page - 0x160, by omega⟩
    bitsOf ((allFin 3).map fun v => (v.val, l.granted && decide (l.credits.at' v = 0)))
  else 0

/-- The pages that have attention conditions or watermarks, ascending. -/
def watchedPages : List Nat :=
  [0x00, 0x01, 0x02, 0x03, 0x04, 0x05, 0x06, 0x07, 0x08, 0x0A, 0x0B, 0x0D, 0x0E, 0x0F, 0x10]
    ++ (List.range 16).map (0x20 + ·) ++ (List.range 128).map (0x40 + ·) ++ (List.range 48).map (0x100 + ·)
    ++ (List.range 16).map (0x140 + ·) ++ (List.range 8).map (0x160 + ·) ++ (List.range 4).map (0x170 + ·)

/-- A committed set is neither applied nor refused (12 R473). -/
def State.cfgPending (s : State) : Bool := s.cfgA.submitted ≠ [] || s.cfgB.submitted ≠ []
/-- The device is unpaired, or its identity has changed (18 R698). -/
def State.identSource (s : State) : Bool := s.owl.pairing.isNone || s.owl.changed

/-- Attention after the conditions and watermarks of the state have acted on it (12 R460, R475; 11 R438). -/
def State.settledAttn (s : State) : Attn :=
  let a := watchedPages.foldl (fun a p => (a.setLatch p (s.attnRaw p)).setLevel p (s.wmarkLevel p)) s.attn
  let id := s.identSource
  let cp := s.cfgPending
  let dg := s.degraded
  { a.advanceAll (b2n (id && ! a.ident) + b2n (cp && ! a.cfgPend) + b2n (dg && ! a.degraded)) with
    ident := id
    cfgPend := cp
    degraded := dg
    safe := s.frame.safePin }

/-! ### Edge detectors (10 R392, R393) -/

/-- SOURCE of a detector entry. -/
def detSource (c : BitVec 64) : Nat := bits c.toNat 7 0
/-- POLARITY of a detector entry. -/
def detPolarity (c : BitVec 64) : Nat := bits c.toNat 9 8
/-- SELECT of a detector entry. -/
def detSelect (c : BitVec 64) : Nat := bits c.toNat 31 16
/-- The flag of a detector entry. -/
def detFlag (c : BitVec 64) : Nat := bits c.toNat 41 32
/-- Page and bit a WMARK detector selects. DESIGN CHOICE: bit in SELECT [4:0], page in [15:5]; log 13. -/
def detWmark (c : BitVec 64) : Nat × Nat := (detSelect c / 32, detSelect c % 32)

/-- A transition from `old` to `new` matches the polarity (10 R392). -/
def polarityMatches (c : BitVec 64) (old new : Bool) : Bool :=
  (! old && new && bit (detPolarity c) 0) || (old && ! new && bit (detPolarity c) 1)

/-- A detector latched where `hit` says its source made a matching transition (10 R393). -/
def Detector.latchIf (d : Detector) (hit : Bool) : Detector := if hit then { d with latched := true } else d

/-- Detectors of a tenant after the watermark levels and SAFE_STATE went from `old` to `new` (10 R392, R393). -/
def Sched.watch (d : Sched) (old new : Attn) : Sched :=
  { d with
    moment := d.moment + 1
    detectors := d.detectors.map fun x =>
      x.latchIf (match detSource x.cfg with
        | 2 =>
          let w := detWmark x.cfg
          polarityMatches x.cfg ((mget 0 old.level w.1).getLsbD w.2) ((mget 0 new.level w.1).getLsbD w.2)
        | 4 => polarityMatches x.cfg old.safe new.safe
        | _ => false) }

/-- The state after a command's effect, with attention and the detectors that watch it brought up to date. Nothing else
changes. -/
def settle (s : State) : State :=
  let a := s.settledAttn
  { s with attn := a, tenants := s.tenants.map fun n => { n with sched := n.sched.watch s.attn a } }

/-- A command's answer: the settled state. Every meaning ends here. -/
def done (s : State) : Host.Outcome State Fault Refusal := .next (settle s)

/-! ### The STAT field (11 R436) -/

/-- An unmasked latch bit is 1 on a page. -/
def Attn.unmasked (a : Attn) (page : Nat) : Bool := mget 0 a.latch page &&& ~~~ mget 0 a.mask page ≠ 0
/-- A crossed bit is 1 on a page. -/
def Attn.hasCrossed (a : Attn) (page : Nat) : Bool := mget 0 a.crossed page ≠ 0

/-- Pages of DEV_ATTN (11 R436 [15]). -/
def devPages : List Nat :=
  List.range 0x0D ++ [0x0E, 0x11] ++ (List.range 48).map (0x100 + ·) ++ (List.range 16).map (0x140 + ·)
    ++ (List.range 4).map (0x170 + ·)
/-- Pages of LINK_ATTN (11 R436 [13]). -/
def linkPages : List Nat := 0x0D :: (List.range 8).map (0x160 + ·)
/-- Pages of MGMT_ATTN (11 R436 [12]). -/
def mgmtPages : List Nat := [0x0F, 0x10]
/-- Pages of TEN_ATTN: of one tenant, or of every tenant (11 R436 [14]). -/
def tenPages : Option (Fin 16) → List Nat
  | some t => tenantPage t :: (List.range 8).map (fun q => 0x40 + 8 * t.val + q)
  | none => (List.range 16).map (0x20 + ·) ++ (List.range 128).map (0x40 + ·)

/-- STAT of a reply to a tenant, or to none, with its RESULT (11 R436). -/
def State.stat (s : State) (t : Option (Fin 16)) (result : Byte) : BitVec 16 :=
  let a := s.attn
  let any (l : List Nat) := l.any a.unmasked
  let cr := (devPages ++ tenPages t ++ linkPages ++ mgmtPages).any a.hasCrossed
  BitVec.ofNat 16 (result.toNat + b2n s.degraded * 2 ^ 8 + b2n cr * 2 ^ 9 + b2n s.cfgPending * 2 ^ 10
    + b2n s.identSource * 2 ^ 11 + b2n (any mgmtPages) * 2 ^ 12 + b2n (any linkPages) * 2 ^ 13
    + b2n (any (tenPages t)) * 2 ^ 14 + b2n (any devPages) * 2 ^ 15)

/-- ATTN_SEQ of a reply (11 R438). -/
def State.attnSeq (s : State) : Option (Fin 16) → Byte
  | some t => s.attn.seqTenant.at' t
  | none => s.attn.seqDevice

end Sys2Proof.Machine
end

