-- ==== Sys2Proof/Machine/Queues.lean ====
section
/-! DEFINITION. Queues (11): doorbells, fetch and its checks, completions of commands and frames, MSI-X. -/
namespace Sys2Proof.Machine
open Sys2Proof

/-! ### Time of arrival (01 R33, R782; 11 R416, R431) -/

/-- The frame whose deadline `k` an arrival now still precedes, counted as frames begun (01 R33, 11 R431). -/
def State.frameBefore (s : State) (k : Nat) : Nat :=
  if s.frame.inFrame && s.now < s.deadlineAt k then s.frame.seq else s.frame.seq + 1

/-- The stamp of an entry published now (11 R416, R425). -/
def State.stampNow (s : State) : Stamp :=
  { time := s.now, order := s.doorbells, frame := s.frameBefore 0, hostFrame := s.frameBefore 3
    afterD0 := s.frame.inFrame && s.deadlineAt 0 ≤ s.now }

/-! ### MSI-X (11 R445, R453; 18 R675) -/

/-- Page of a port's own copy of its registers on page 0x00F (13 R492). -/
def ownPage : Port → Nat
  | .a => 0x0F
  | .b => 0x100F

/-- A vector's message: sent, or its pending bit set while the vector is masked (11 R445, R453). -/
def State.sendMsix (s : State) (p : Port) (v : Nat) : State :=
  if bit (s.live (ownPage p) (0x80C + 16 * v)) 0 then
    let o := 0x700 + 4 * (v / 32)
    s.setLive (ownPage p) o (s.live (ownPage p) o ||| 2 ^ (v % 32))
  else s.updCfg p fun c => { c with msix := c.msix ++ [v] }

/-! ### Slots of a completion queue (11 R421, R443) -/

/-- Q_CTRL.SQ_EN. -/
def State.sqEn (s : State) (t : Fin 16) (q : Fin 8) : Bool := bit (s.live (queuePage t q) 0x100) 0
/-- Q_CTRL.CQ_EN. -/
def State.cqEn (s : State) (t : Fin 16) (q : Fin 8) : Bool := bit (s.live (queuePage t q) 0x100) 1

/-- Queue 0's slot for the tenant's frame completion reserved where one is free and none waits (11 R443). -/
def State.reserveFrame (s : State) (t : Fin 16) : State :=
  if s.cqEn t 0 && ! (s.queue t 0).dying && ! (s.queue t 0).frameSlot && (s.tenant t).backlog = [] && 0 < s.cqFree t 0 then
    s.updQueue t 0 fun k => { k with frameSlot := true }
  else s

/-- CQ_ACTIVE and SQ_ACTIVE brought up to date: a disabled completion queue stays active until its tags and, for queue 0,
the backlog are written (11 R418, R451). -/
def State.refreshActive (s : State) (t : Fin 16) (q : Fin 8) : State :=
  let busy := 0 < (s.tenant t).tagsOf q || (q = 0 && ((s.tenant t).backlog ≠ [] || (s.tenant t).delivering.isSome))
  s.updQueue t q fun k =>
    { k with sqActive := s.sqEn t q, cqActive := s.cqEn t q || (k.cqActive && busy) }

/-! ### Commands in flight (11 R423, R426) -/

/-- DETAIL from its bytes, byte 12 of the entry first. -/
def detailOf (l : List Byte) : BitVec 160 := BitVec.ofNat 160 (leNat l)
/-- DETAIL of a refusal: ERR_OFFSET and ERR_WHERE (11 R440). -/
def errDetail (off : Nat) (inBuffer : Bool) : BitVec 160 := BitVec.ofNat 160 (off % 2 ^ 32 + b2n inBuffer * 2 ^ 32)

/-- A command with its tag, not waiting, of an opcode. -/
def State.cmdFor (s : State) (t : Fin 16) (tag opcode : Nat) : Option Cmd :=
  (s.tenant t).cmds.find? fun c => c.tag = tag && c.opcode = opcode && ! c.waiting

/-- A queue page whose port was reset returns to its reset values once its tags are free (17 R644). -/
def State.reapQueue (s : State) (t : Fin 16) (q : Fin 8) : State :=
  if (s.queue t q).dying && (s.tenant t).tagsOf q = 0 then s.resetQueue t q else s

/-- A command completes: its completion takes its place in the queue's completion order (11 R426), or is discarded where the
queue's port has been reset (17 R644). -/
def State.completeCmd (s : State) (t : Fin 16) (c : Cmd) (result : Byte) (detail : BitVec 160) : State :=
  let s := s.updTenant t fun n => { n with cmds := n.cmds.filter fun d => d.tag ≠ c.tag }
  if (s.queue t c.q).dying then (s.updQueue t c.q fun k => { k with reserved := k.reserved - 1 }).reapQueue t c.q
  else s.updQueue t c.q fun k => { k with comps := k.comps ++ [{ cmdId := c.id, result := result, detail := detail }] }

/-- A command waits with its tag, its bytes kept. -/
def State.holdCmd (s : State) (t : Fin 16) (c : Cmd) (data : List Byte) : State :=
  s.updTenant t fun n =>
    { n with cmds := n.cmds.map fun d => if d.tag = c.tag then { d with waiting := true, data := data } else d }

/-- A command refused with nothing changed (11 R429, R440). -/
def State.refuseCmd (s : State) (t : Fin 16) (c : Cmd) (code : Byte) (off : Nat) (inBuffer : Bool) : State :=
  s.completeCmd t c code (errDetail off inBuffer)

/-- The data of a command's buffer: device DRAM with SRC 1, else the host's bytes; none when a poisoned block is read
(11 R430, 19 R728). -/
def State.cmdData (s : State) (c : Cmd) (buf : List Byte) : Option (List Byte) :=
  if c.src then (if s.dram.poisoned c.addr c.len then none else some (s.dramRead c.addr c.len))
  else some (padTo c.len buf)

/-- Every command of a list completed with one result. -/
def State.completeAll (s : State) (t : Fin 16) (l : List Cmd) (result : Byte) : State :=
  s.forEach l fun s c => s.completeCmd t c result 0

/-! ### The checks of a fetched command (11 R429, R430) -/

/-- Bytes of ARGS the opcode uses (11 R428). -/
def argBytes (op : Nat) : Nat :=
  match op with
  | 4 => 32
  | 5 => 16
  | 7 => 1
  | 8 => 1
  | 9 => 8
  | _ => 0

/-- Flaws of a command word: true for LENGTH_EXCEEDS_BUFFER, and the offset of the field. DATA_LEN is judged whatever the opcode; where a
buffer lies, for an opcode that takes one. DEDUCED; log 20. -/
def cmdFlaws (w : BitVec 512) (inLease : Nat → Nat → Bool) : List (Bool × Nat) :=
  let f := cmdField w
  let op := f 0 1
  let len := f 20 4
  let rows : List (Bool × Bool × Nat) :=
    [(op = 0 || 0x0A < op, false, 0), (2 ≤ f 1 1, false, 1), (f 4 4 ≠ 0, false, 4),
     (takesBuffer op && f 8 8 % 64 ≠ 0, false, 8),
     (takesBuffer op && bit (f 1 1) 0 && ! inLease (f 8 8) (f 16 4), false, 8),
     (f 16 4 < len, true, 20),
     (op = 3 && len ≠ 64, false, 20), (op = 6 && (len = 0 || len % 128 ≠ 0), false, 20),
     ((op = 7 || op = 8) && 1 < f 24 1, false, 24),
     (f (24 + argBytes op) (36 - argBytes op) ≠ 0, false, 24 + argBytes op), (f 60 4 ≠ 0, false, 60)]
  (rows.filter (·.1)).map (·.2)

/-- Code and offset of a list of flaws: LENGTH_EXCEEDS_BUFFER is reported when both kinds apply (11 R429). -/
def flawCode (l : List (Bool × Nat)) : Byte × Nat :=
  let long := l.filter (·.1)
  if long = [] then (codeBad, (l.map (·.2)).foldl min 0xFFFFFFFF) else (codeLength, (long.map (·.2)).foldl min 0xFFFFFFFF)

/-- The lowest tag no command of the tenant holds. -/
def Tenant.freeTag (n : Tenant) : Nat := ((List.range 2048).find? fun i => n.cmds.all fun c => c.tag ≠ i).getD 0

/-- A command may be fetched from the queue now (11 R423, R446, R451; 13 R504; 19 R722). -/
def State.canFetch (s : State) (t : Fin 16) (q : Fin 8) : Bool :=
  let n := s.tenant t
  s.isReady && n.state = .active && ! s.inFault && s.sqEn t q && s.cqEn t q && ! (s.queue t q).dmaErr && ! (s.queue t q).dying
    && (s.queue t q).published ≠ [] && n.tagsUsed < s.tagQuota t && s.tagsUsed < 2048 && 0 < s.cqFree t q
    && ! s.readsFull (s.ownerOf t)

/-- The queue of a tenant whose turn it is: queues without a fetchable command are passed over (11 R424). -/
def State.queueNext (s : State) (t : Fin 16) : Option (Fin 8) := (turnFrom 8 (s.tenant t).queueTurn).find? (s.canFetch t)

/-- The tenant and the queue whose turn it is on a port, among the tenants it owns (11 R424). -/
def State.portNext (s : State) (p : Port) : Option (Fin 16 × Fin 8) :=
  (turnFrom 16 (s.cfg p).fetchTurn).findSome? fun t => if s.ownerOf t = p then (s.queueNext t).map fun q => (t, q) else none

/-- The rounds of the port and of the tenant go on past a queue that has had its turn (11 R424). -/
def State.passTurn (s : State) (t : Fin 16) (q : Fin 8) : State :=
  (s.updCfg (s.ownerOf t) fun c => { c with fetchTurn := (t.val + 1) % 16 }).updTenant t fun n => { n with queueTurn := (q.val + 1) % 8 }

/-- A MEASURE or SHAPE is late after the seal of its frame, a HOST_CAND at or after D_3 of its frame (11 R433). -/
def State.fetchedLate (s : State) (t : Fin 16) (st : Stamp) (op : Nat) : Bool :=
  let gone (frame : Nat) (passed : Bool) : Bool := frame < s.frame.seq || (frame = s.frame.seq && (! s.frame.inFrame || passed))
  ((op = 4 || op = 5) && gone st.frame (s.tenant t).world.view.isSome) || (op = 6 && gone st.hostFrame (4 ≤ s.frame.passed))
/-- A command belonging to the frame is fetched after D_0, or is a HOST_CAND whose doorbell fell at or after D_0 (14 R531 bit
0). -/
def State.lateFor (s : State) (st : Stamp) (op : Nat) : Bool :=
  s.frame.inFrame && 1 ≤ s.frame.passed
    && ((op = 6 && st.hostFrame = s.frame.seq) || ((op = 1 || op = 4 || op = 5 || op = 9) && st.frame = s.frame.seq))

/-- COMMAND_FETCH (11 R423, R424, R429): in the queue's turn, a tag and a slot are taken, and a command that fails its checks completes at
once. -/
def State.fetchCommand (s : State) (t : Fin 16) (q : Fin 8) (w : BitVec 512) : State :=
  if ! s.held && s.portNext (s.ownerOf t) = some (t, q) then
    match (s.queue t q).published with
    | [] => s
    | st :: rest =>
      let c : Cmd :=
        { tag := (s.tenant t).freeTag, q := q, word := w, stamp := st, late := s.fetchedLate t st (cmdField w 0 1), waiting := false
          data := [], delivering := none }
      let depth := s.sqDepth t q
      let s := s.passTurn t q
      let s := s.updQueue t q fun k =>
        { k with published := rest, sqHead := (k.sqHead + 1) % depth, reserved := k.reserved + 1 }
      let s := s.updTenant t fun n => { n with cmds := n.cmds ++ [c] }
      let s := if s.lateFor st (cmdField w 0 1) then s.noteTiming t 0 else s
      match cmdFlaws w (s.inLease t) with
      | [] => s
      | l => let f := flawCode l; s.refuseCmd t c f.1 f.2 false
  else s

/-- COMMAND_FETCH -/
def execCommandFetch (t : Fin 16) (q : Fin 8) (w : BitVec 512) (s : State) : Host.Outcome State Fault Refusal :=
  done (s.fetchCommand t q w)

/-! ### Doorbells (11 R419, R421) -/

/-- A port that is ready and reaches a tenant's queue pages (13 R492). -/
def State.reachesQueue (s : State) (p : Port) (t : Fin 16) : Bool := ! s.held && (s.cfg p).ready && s.ownerOf t = p

/-- SQ_DOORBELL (11 R419, R425): the published entries are those from the head up to the written tail; each that was not published before
takes a stamp of its own. -/
def State.ringSq (s : State) (p : Port) (t : Fin 16) (q : Fin 8) (v : Word) : State :=
  if ! s.reachesQueue p t then s
  else
    let i := v.toNat % 4096
    let d := s.sqDepth t q
    if d ≤ i then s.updQueue t q fun k => { k with dbErr := true }
    else
      let old := (s.queue t q).published
      let n := (i + d - (s.queue t q).sqHead % d) % d
      let st := s.stampNow
      let new := (List.range (n - old.length)).map fun j => { st with order := s.doorbells + j }
      { s.updQueue t q fun k => { k with sqTail := i, published := old.take n ++ new } with
        doorbells := s.doorbells + new.length }

/-- SQ_DOORBELL -/
def execSqDoorbell (p : Port) (t : Fin 16) (q : Fin 8) (v : Word) (s : State) : Host.Outcome State Fault Refusal :=
  done (s.ringSq p t q v)

/-- CQ_DOORBELL (11 R421): slots from the head up to the index return; at the head, the whole ring where it is full of
written slots. -/
def State.ringCq (s : State) (p : Port) (t : Fin 16) (q : Fin 8) (v : Word) : State :=
  if ! s.reachesQueue p t then s
  else
    let i := v.toNat % 4096
    let d := s.cqDepth t q
    let k := s.queue t q
    if d ≤ i then s.updQueue t q fun k => { k with dbErr := true }
    else
      let n := if i = k.cqHead then (if k.written = d then d else 0) else min k.written ((i + d - k.cqHead) % d)
      (s.updQueue t q fun k => { k with cqHead := i, written := k.written - n }).reserveFrame t

/-- CQ_DOORBELL -/
def execCqDoorbell (p : Port) (t : Fin 16) (q : Fin 8) (v : Word) (s : State) : Host.Outcome State Fault Refusal :=
  done (s.ringCq p t q v)

/-! ### Writing completions (11 R435 to R445) -/

/-- A completion entry's 32 bytes (11 R435). -/
def entryOf (stat : BitVec 16) (seq : Byte) (toggle frame : Bool) (sqHead q : Nat) (cmdId : BitVec 16)
    (detail : BitVec 160) : BitVec 256 :=
  BitVec.ofNat 256 (stat.toNat + seq.toNat * 2 ^ 16 + b2n toggle * 2 ^ 24 + b2n frame * 2 ^ 25 + sqHead * 2 ^ 32
    + q * 2 ^ 48 + cmdId.toNat * 2 ^ 64 + detail.toNat * 2 ^ 96)

/-- An entry placed at CQ_TAIL, which advances, TOGGLE inverting at the wrap (11 R421). -/
def Queue.push (k : Queue) (depth : Nat) (e : BitVec 256) : Queue :=
  { k with
    ring := mput k.ring k.cqTail e
    cqTail := (k.cqTail + 1) % depth
    toggle := if k.cqTail + 1 = depth then ! k.toggle else k.toggle
    written := k.written + 1 }

/-- The queue's message after an entry, with IRQ_EN (11 R445). -/
def State.irq (s : State) (t : Fin 16) (q : Fin 8) : State :=
  if bit (s.live (queuePage t q) 0x100) 2 then s.sendMsix (s.ownerOf t) (bits (s.live (queuePage t q) 0x104) 14 8) else s

/-- No completion can be written: the device is held, the fabric has failed (19 R722), or a package is frozen. -/
def State.writesStopped (s : State) : Bool := s.held || s.fault.fabric || s.fault.frozen

/-- The frame completion of queue 0 can be written now: it has its slot, or the backlog's head has a free one (11 R443). -/
def State.frameReady (s : State) (t : Fin 16) : Bool :=
  s.cqEn t 0 && ! (s.queue t 0).dying && ((s.tenant t).delivering.isSome || ((s.tenant t).backlog ≠ [] && 0 < s.cqFree t 0))

/-- COMPLETION_WRITE (11 R426, R435, R437): the first completion of the queue takes its reserved slot. Frame completions
of the backlog go first (11 R443). -/
def State.writeCompletion (s : State) (t : Fin 16) (q : Fin 8) : State :=
  if s.writesStopped || (q = 0 && (s.tenant t).backlog ≠ [] && s.frameReady t) then s
  else
    match (s.queue t q).comps with
    | [] => s
    | x :: rest =>
      let k := s.queue t q
      let e := entryOf (s.stat (some t) x.result) (s.attnSeq (some t)) k.toggle false k.sqHead q.val x.cmdId x.detail
      let s := s.updQueue t q fun k => { k.push (s.cqDepth t q) e with comps := rest, reserved := k.reserved - 1 }
      ((s.irq t q).reserveFrame t).refreshActive t q

/-- COMPLETION_WRITE -/
def execCompletionWrite (t : Fin 16) (q : Fin 8) (s : State) : Host.Outcome State Fault Refusal :=
  done (s.writeCompletion t q)

/-- DETAIL of a frame completion (11 R441). -/
def FrameDone.detail (d : FrameDone) (backlog : Nat) : BitVec 160 :=
  BitVec.ofNat 160 (d.cutMap.toNat + d.outcome.toNat * 2 ^ 8 + d.slot.toNat * 2 ^ 16 + d.frame.toNat * 2 ^ 32
    + d.planId.toNat * 2 ^ 96 + backlog * 2 ^ 128)

/-- PLAN_VALID of a frame completion. -/
def FrameDone.valid (d : FrameDone) : Bool := bit d.outcome.toNat 2

/-- Slot of the publication record of a frame, as D_7 fixes it; 0xFFFF without a plan (11 R441, R442; 01 R61). -/
def State.pubSlot (s : State) (t : Fin 16) (number : BitVec 64) (valid : Bool) : Nat :=
  if valid then number.toNat % 2 ^ bits (s.live (queuePage t 0) 0x104) 18 16 else 0xFFFF

/-- The entry of a frame completion as it stands at the D_7 that fixes it, with no completion waiting behind it (11 R442). DEDUCED; log 19.
-/
def State.fixedEntry (s : State) (t : Fin 16) (d : FrameDone) : BitVec 256 :=
  let k := s.queue t 0
  entryOf (s.stat (some t) d.result) (s.attnSeq (some t)) k.toggle true k.sqHead 0 0xFFFF (d.detail 0)

/-- The 256 bytes of a publication or witness record: candidate record and digest, the completion as fixed, zeros (11 R442; 13 R511). -/
def recordBytes (d : FrameDone) : List Byte := padTo 160 d.record ++ leBytes 32 d.entry.toNat ++ List.replicate 64 0

/-- A frame completion written with its publication record first (11 R442, R443). -/
def State.writeFrame (s : State) (t : Fin 16) (d : FrameDone) (backlog : Nat) : State :=
  let k := s.queue t 0
  let slot := d.slot.toNat
  let e := entryOf (s.stat (some t) d.result) (s.attnSeq (some t)) k.toggle true k.sqHead 0 0xFFFF (d.detail backlog)
  let s := if d.valid then
      (s.updTenant t fun n => { n with pubRing := mput n.pubRing slot (recordBytes d) }).streamRecord slot (recordBytes d)
    else s
  let s := s.updQueue t 0 fun k => k.push (s.cqDepth t 0) e
  s.irq t 0

/-- FRAME_COMPLETION_WRITE (11 R443). -/
def State.writeFrameCompletion (s : State) (t : Fin 16) : State :=
  if s.writesStopped || ! s.frameReady t then s
  else
    match (s.tenant t).delivering with
    | some d =>
      let s := s.writeFrame t d (s.tenant t).backlog.length
      let s := s.updTenant t fun n => { n with delivering := none }
      ((s.updQueue t 0 fun k => { k with frameSlot := false }).reserveFrame t).refreshActive t 0
    | none =>
      match (s.tenant t).backlog with
      | [] => s
      | d :: rest =>
        let s := s.writeFrame t d rest.length
        let s := s.updTenant t fun n => { n with backlog := rest }
        (s.reserveFrame t).refreshActive t 0

/-- FRAME_COMPLETION_WRITE -/
def execFrameCompletionWrite (t : Fin 16) (s : State) : Host.Outcome State Fault Refusal := done (s.writeFrameCompletion t)

/-- A frame completion fixed: it takes the reserved slot of queue 0, or waits in the backlog (11 R443). -/
def State.fixDone (s : State) (t : Fin 16) (d : FrameDone) : State :=
  s.updTenant t fun n =>
    if (n.queues.at' 0).frameSlot && s.cqEn t 0 && n.delivering.isNone && n.backlog = [] then { n with delivering := some d }
    else { n with backlog := n.backlog ++ [d] }

/-! ### DMA errors (11 R422) -/

/-- Q_STATUS_DMA_ERR_CLEAR (11 R422): DMA_ERR clears and fetching resumes. -/
def State.clearDmaErr (s : State) (p : Port) (t : Fin 16) (q : Fin 8) : State :=
  if s.reachesQueue p t then s.updQueue t q fun k => { k with dmaErr := false } else s

/-- Q_STATUS_DMA_ERR_CLEAR -/
def execQStatusDmaErrClear (p : Port) (t : Fin 16) (q : Fin 8) (s : State) : Host.Outcome State Fault Refusal :=
  done (s.clearDmaErr p t q)

/-- QUEUE_DMA_ERROR (11 R422): DMA_ERR is set and fetching stops. The entries written before stand; the spec gives a
failed buffer read no result of its own, so the command stays with its tag until its row completes it. -/
def State.setDmaErr (s : State) (t : Fin 16) (q : Fin 8) (_what : DmaFailure) : State :=
  if s.held then s
  else ((s.updQueue t q fun k => { k with dmaErr := true }).bumpErr (queuePage t q)).noteTiming t 7

/-- QUEUE_DMA_ERROR -/
def execQueueDmaError (t : Fin 16) (q : Fin 8) (what : DmaFailure) (s : State) : Host.Outcome State Fault Refusal :=
  done (s.setDmaErr t q what)

/-! ### NOP -/

/-- NOP: completes with OK at once (11 R428). -/
def State.nopCmd (s : State) (t : Fin 16) (tag : Nat) : State :=
  match s.cmdFor t tag 0x0A with
  | some c => if s.held then s else s.completeCmd t c codeOk 0
  | none => s

/-- NOP -/
def execNop (t : Fin 16) (tag : Nat) (s : State) : Host.Outcome State Fault Refusal := done (s.nopCmd t tag)

end Sys2Proof.Machine
end

