-- ==== Sys2Proof/Machine/Tasks.lean ====
section
/-! DEFINITION. Task records of a frame program and the parts of a task (10 R377, R382; 08 R305, R312, R316; 13 R501), and
Beaver's trace (10 R401, R402). -/
namespace Sys2Proof.Machine
open Sys2Proof

/-! ### Task records (10 R377) -/

/-- The `n` bytes at byte `i` of a task record. -/
def trField (w : BitVec 256) (i n : Nat) : Nat := bits w.toNat (8 * (i + n) - 1) (8 * i)
/-- KIND: 0 COMPUTE, 1 ENGINE, 2 WAIT, 3 TIMER, 4 SIGNAL. -/
def trKind (w : BitVec 256) : Nat := bits (trField w 0 1) 3 0
/-- PHASE. -/
def trPhase (w : BitVec 256) : Nat := bits (trField w 0 1) 6 4
/-- PRIO. -/
def trPrio (w : BitVec 256) : Nat := bits (trField w 1 1) 3 0
/-- GROUP. -/
def trGroup (w : BitVec 256) : Nat := trField w 2 1
/-- ON_TIMEOUT is CANCEL. -/
def trCancel (w : BitVec 256) : Bool := bit (trField w 3 1) 0
/-- WAIT_ALL. -/
def trAll (w : BitVec 256) : Bool := bit (trField w 3 1) 1
/-- CONSUME. -/
def trConsume (w : BitVec 256) : Bool := bit (trField w 3 1) 2
/-- RELEASE_RING. -/
def trRelease (w : BitVec 256) : Bool := bit (trField w 3 1) 3
/-- PRED_COUNT. -/
def trPreds (w : BitVec 256) : Nat := trField w 4 2
/-- SUCC_COUNT. -/
def trSuccCount (w : BitVec 256) : Nat := trField w 6 2
/-- SUCC_OFFSET. -/
def trSuccOff (w : BitVec 256) : Nat := trField w 8 4
/-- DONE_FLAG, where enabled. -/
def trDone (w : BitVec 256) : Option Nat := if bit (trField w 12 2) 15 then some (bits (trField w 12 2) 9 0) else none
/-- TIMEOUT_US. -/
def trTimeout (w : BitVec 256) : Nat := trField w 14 2
/-- The valid flags of a WAIT. -/
def trFlags (w : BitVec 256) : List Nat :=
  (List.range 4).filterMap fun k => let e := trField w (16 + 2 * k) 2; if bit e 15 then some (bits e 9 0) else none
/-- TIMER: the flag to set on firing. -/
def trTimerFlag (w : BitVec 256) : Nat := bits (trField w 16 2) 9 0
/-- TIMER: PERIOD_US. -/
def trPeriod (w : BitVec 256) : Nat := trField w 18 4
/-- WORK. -/
def trWork (w : BitVec 256) : Nat := trField w 24 4
/-- HOME: the virtual core, or the engine. -/
def trHome (w : BitVec 256) : Nat := trField w 28 2
/-- RING: the sender's descriptor, where valid. -/
def trRing (w : BitVec 256) : Option Nat := if bit (trField w 30 2) 15 then some (bits (trField w 30 2) 11 0) else none

/-- The image of the running program. -/
def Sched.image (d : Sched) : Option ProgramImage := d.program.map (·.image)
/-- A task's record in the running program; zero beyond the table. -/
def Sched.rec' (d : Sched) (i : Nat) : BitVec 256 :=
  match d.image with
  | some p => lget 0 p.tasks i
  | none => 0
/-- Number of tasks of the running program. -/
def Sched.taskCount (d : Sched) : Nat := match d.image with | some p => p.tasks.length | none => 0
/-- A byte of the successor array. -/
def succByte (p : ProgramImage) (i : Nat) : Nat := bits (lget 0 p.succ (i / 2)).toNat (8 * (i % 2) + 7) (8 * (i % 2))
/-- Successors of a task: SUCC_COUNT indices from byte SUCC_OFFSET of the array on. -/
def succOf (p : ProgramImage) (w : BitVec 256) : List Nat :=
  (List.range (trSuccCount w)).map fun k => let o := trSuccOff w + 2 * k; succByte p o + 2 ^ 8 * succByte p (o + 1)
/-- Successors of task `i` of the running program. -/
def Sched.succs (d : Sched) (i : Nat) : List Nat :=
  match d.image with
  | some p => succOf p (d.rec' i)
  | none => []
/-- Pending predecessor count of a task (10 R380, R382). -/
def Sched.pendingPreds (d : Sched) (j : Nat) : Nat :=
  trPreds (d.rec' j) - nsum (d.released.map fun i => (d.succs i).countP fun k => k = j)
/-- The task in a slot by its index. -/
def Sched.task (d : Sched) (i : Nat) : Option Task := d.tasks.find? fun k => k.index = i
/-- A task in a slot passed through `f`. -/
def Sched.updTask (d : Sched) (i : Nat) (f : Task → Task) : Sched :=
  { d with tasks := d.tasks.map fun k => if k.index = i then f k else k }
/-- A task has been cut: its status is PHASE_CUT, whether or not its parts have reached their tile boundaries (10 R384). -/
def Sched.wasCut (d : Sched) (i : Nat) : Bool := match d.task i with | some k => k.status = codePhaseCut | none => false
/-- Every earlier member of a task's group has retired, been cancelled or been cut (10 R385). -/
def Sched.groupFree (d : Sched) (i : Nat) : Bool :=
  let g := trGroup (d.rec' i)
  g = 0 || (List.range i).all fun j => trGroup (d.rec' j) ≠ g || d.retired.contains j || d.cancelled.contains j || d.wasCut j

/-! ### GEMM descriptors and units (08 R305, R312, R316, R319; 13 R501) -/

/-- The `n` bytes at byte `i` of a GEMM descriptor. -/
def gdField (w : BitVec 512) (i n : Nat) : Nat := bits w.toNat (8 * (i + n) - 1) (8 * i)
/-- The `n` bytes at byte `i` of a fusion record. -/
def fuField (f : BitVec 1024) (i n : Nat) : Nat := bits f.toNat (8 * (i + n) - 1) (8 * i)
/-- A bit of PRO. -/
def fuPro (f : BitVec 1024) (k : Nat) : Bool := bit (fuField f 0 2) k
/-- A bit of EPI. -/
def fuEpi (f : BitVec 1024) (k : Nat) : Bool := bit (fuField f 2 2) k
/-- ACT. -/
def fuAct (f : BitVec 1024) : Nat := bits (fuField f 2 2) 4 3
/-- OUT_FMT. -/
def fuOut (f : BitVec 1024) : Nat := bits (fuField f 2 2) 10 8
/-- RES_FMT. -/
def fuRes (f : BitVec 1024) : Nat := bits (fuField f 2 2) 13 12
/-- CHAIN. -/
def fuChain (f : BitVec 1024) : Nat := bits (fuField f 4 2) 1 0
/-- PEER. -/
def fuPeer (f : BitVec 1024) : Nat := bits (fuField f 72 1) 1 0
/-- PEER_ONLY. -/
def fuPeerOnly (f : BitVec 1024) : Bool := bit (fuField f 72 1) 2
/-- The record with nothing enabled, which a GEMM without EPI_EN has (09 R337). -/
def fuNone : BitVec 1024 := 0

/-- The fusion record that governs a descriptor (09 R337). -/
def fusionOf (p : ProgramImage) (g : BitVec 512) : BitVec 1024 :=
  if bit (gdField g 60 4) 31 then lget fuNone p.fusions (bits (gdField g 60 4) 15 0) else fuNone

/-- The descriptor indices named by NEXT of some chain, with the chain's kind. -/
def chained (p : ProgramImage) (i : Nat) : Nat :=
  match (p.gemms.map (fusionOf p)).find? fun f => fuChain f ≠ 0 && fuField f 6 2 = i with
  | some f => fuChain f
  | none => 0

/-- An extent: constant, or the frame's dynamic dimension (08 R305, R319). -/
def extentOf (dims : List Nat) (e : Nat) : Nat := if bit e 31 then lget 0 dims (bits e 1 0) else bits e 30 0
/-- LIST. -/
def gdList (w : BitVec 512) : Bool := bit (gdField w 1 1) 1
/-- Bands of a GEMM at an extent M (08 R312). -/
def gdBands (w : BitVec 512) (m : Nat) : Nat := cdiv m (gdField w 52 2)
/-- Entries of a GEMM: its pointer list's, or itself (08 R315, R316). -/
def gdEntries (w : BitVec 512) : Nat := if gdList w then gdField w 58 2 else 1
/-- The virtual core of unit `u` among `U` over `V` virtual cores (08 R312). -/
def vcoreOfUnit (u U V : Nat) : Nat :=
  ((List.range V).find? fun i => i * U / V ≤ u && u < (i + 1) * U / V).getD 0

/-- The frame's dynamic dimensions. -/
def Sched.dims (d : Sched) : List Nat := match d.shape with | some (_, l, _) => l | none => []
/-- The maxima of the frame's bucket (08 R320, R323). -/
def Sched.bucketDims (d : Sched) : List Nat :=
  match d.shape, d.image with
  | some (_, _, b), some p => lget [] p.buckets b
  | _, _ => []
/-- The bands per entry that the bucket compiles, by which units are numbered (08 R316, R323). -/
def Sched.bucketBands (d : Sched) (g : BitVec 512) : Nat := gdBands g (extentOf d.bucketDims (gdField g 4 4))

/-- Units of a COMPUTE task with their virtual cores: the bands its bucket compiles less those wholly beyond the actual
extent, or one part on its HOME core (08 R312, R316, R323; 10 R379). A GEMM that a chain names by NEXT runs only as part of that chain
(09 R349): a task that names it has no unit. DESIGN CHOICE; log 123. -/
def State.unitsOfTask (s : State) (t : Fin 16) (i : Nat) : List (Nat × Nat) :=
  let d := (s.tenant t).sched
  let w := d.rec' i
  match d.image with
  | none => []
  | some p =>
    match p.gemms[trWork w]? with
    | none => [(0, bits (trHome w) 5 0)]
    | some g =>
      if chained p (trWork w) ≠ 0 then [] else
      let nb := d.bucketBands g
      let act := gdBands g (extentOf d.dims (gdField g 4 4))
      let u := gdEntries g * nb
      (List.range u).filterMap fun k => if k % nb < act then some (k, vcoreOfUnit k u (s.vcores t)) else none

/-- The logical core that hosts a virtual core (13 R501). -/
def State.hostOf (s : State) (t : Fin 16) (v : Nat) : Nat :=
  let l := s.coresOf t
  lget 0 l (v % max 1 l.length)

/-- The core a virtual core's part goes to: its host, or the host of the next virtual index, ascending and wrapping, that
is usable; none when the tenant has no usable core (08 R329, 10 R409). -/
def State.coreFor (s : State) (t : Fin 16) (v : Nat) : Option Nat :=
  let n := max 1 (s.vcores t)
  ((List.range n).map fun k => s.hostOf t ((v + k) % n)).find? fun c => s.usable .core c && (s.coresOf t).contains c

/-! ### Results (01 R41) -/

/-- A result of a task written to DRAM, and noted as one of the frame's (01 R41). -/
def State.writeResult (s : State) (t : Fin 16) (a : Nat) (d : List Byte) : State :=
  (s.dramWrite a d).updSched t fun x => { x with results := x.results ++ [(a, d.length)] }

/-! ### Trace (10 R401, R402) -/

/-- SCHED.TIME: µs since RUN last changed from 0 to 1; 0 before it first does (10 R390, R403). -/
def State.schedTime (s : State) : Nat := if s.frame.timed then s.now - s.frame.runAt else 0

/-- What a trace record tells beside its time and kind. -/
structure TraceInfo where
  phase : Nat
  task : Nat
  slot : Nat
  vcore : Nat
  prio : Nat
  ident : Nat
  arg : Nat
deriving DecidableEq, Repr

/-- The 32 bytes of a trace record (10 R402). -/
def traceBytes (time cycle kind : Nat) (t : Fin 16) (i : TraceInfo) (frame : Nat) : List Byte :=
  leBytes 4 time ++ leBytes 2 cycle ++ [BitVec.ofNat 8 kind, BitVec.ofNat 8 (t.val + 16 * i.phase)]
    ++ leBytes 2 i.task ++ leBytes 2 (i.slot % 4096) ++ [BitVec.ofNat 8 i.vcore, BitVec.ofNat 8 i.prio]
    ++ leBytes 2 i.ident ++ leBytes 4 i.arg ++ leBytes 4 frame ++ leBytes 8 0

/-- A trace record written, where its kind and tenant are selected (10 R401, R404). A ring that does not lie in the
owner's lease takes no record, and the record counts as discarded. DEDUCED; log 28. -/
def State.trace (s : State) (kind : Nat) (t : Fin 16) (i : TraceInfo) : State :=
  let ctrl := s.live 0x11 0x100
  if ! (bit ctrl 0 && bit (s.live 0x11 0x11C) kind && bit ctrl (16 + t.val)) then s
  else
    let size := 2 ^ bits (s.live 0x11 0x10C) 4 0
    let head := s.live 0x11 0x110
    let tail := s.live 0x11 0x114
    let full := (head + 2 ^ 32 - tail) % 2 ^ 32 = size
    let addr := s.live 0x11 0x104 + s.live 0x11 0x108 * 2 ^ 32 + 32 * (head % size)
    let owner : Fin 16 := ⟨bits ctrl 7 4, by have := Nat.mod_lt (ctrl >>> 4) (show 0 < 2 ^ 4 by decide); simpa [bits] using this⟩
    if (full && ! bit ctrl 1) || ! s.inLease owner addr 32 then s.setLive 0x11 0x118 (sat16 (s.live 0x11 0x118))
    else
      let s := s.dramWrite addr (traceBytes s.schedTime (Config.cycleInUs s.draws) kind t i s.frame.number.toNat)
      let s := (s.setLive 0x11 0x110 ((head + 1) % 2 ^ 32)).draw
      if full then s.setLive 0x11 0x114 ((tail + 1) % 2 ^ 32) else s

/-- A trace record about a task. -/
def State.traceTask (s : State) (kind : Nat) (t : Fin 16) (i vcore ident arg : Nat) : State :=
  let d := (s.tenant t).sched
  let w := d.rec' i
  let slot := match d.task i with | some k => k.slot | none => 0
  s.trace kind t ⟨trPhase w, i, slot, vcore, trPrio w, ident, arg⟩

end Sys2Proof.Machine
end

