-- ==== Sys2Proof/Machine/Beaver.lean ====
section
/-! DEFINITION. Beaver (10): readiness, flags and waits, retirement, ordering groups, cancellation, timers, edge detectors,
cuts, aborts and the deadlock test. -/
namespace Sys2Proof.Machine
open Sys2Proof

/-! ### Ready lists (10 R383) -/

/-- A part stands before another in a ready list: by priority, then by when it became ready, then by task index and
unit (10 R383). -/
def PartRef.before (a b : PartRef) : Bool :=
  a.prio < b.prio || (a.prio = b.prio && (a.moment < b.moment || (a.moment = b.moment
    && (a.task < b.task || (a.task = b.task && a.unit < b.unit)))))

/-- A part put in its place. -/
def insertPart (p : PartRef) : List PartRef → List PartRef
  | [] => [p]
  | a :: r => if p.before a then p :: a :: r else a :: insertPart p r

/-- Q_PEAK of a core kept up with its ready list (10 R400). -/
def State.notePeak (s : State) (c : Nat) : State :=
  let n := (bget Core.reset s.cores c).ready.length
  if s.live 0x04 (0x804 + 0x20 * c) < n then s.setLive 0x04 (0x804 + 0x20 * c) n else s

/-- A part enters the ready list of the core it goes to (10 R382, 08 R329). -/
def State.putPart (s : State) (p : PartRef) : State :=
  match s.coreFor p.tenant p.vcore with
  | some c => (s.updCore c fun k => { k with ready := insertPart p k.ready }).notePeak c
  | none => s

/-- Parts of a task leave every ready list. -/
def State.dropParts (s : State) (t : Fin 16) (keep : PartRef → Bool) : State :=
  { s with cores := s.cores.map fun k => { k with ready := k.ready.filter fun p => p.tenant ≠ t || keep p } }

/-! ### Work that ends (10 R384) -/

/-- The bit of a phase set in the tenant's CUT_MAP (01 R36). -/
def State.cut (s : State) (t : Fin 16) (k : Nat) : State :=
  s.updOut t fun o => { o with cutMap := o.cutMap ||| BitVec.ofNat 8 (2 ^ k) }

/-- Deadline D_k of the frame has passed. -/
def State.phasePassed (s : State) (k : Nat) : Bool := k < s.frame.passed

/-- A task of phase `k` is cut, with its record in the trace (10 R384, R401). -/
def State.noteCut (s : State) (t : Fin 16) (k i : Nat) : State := (s.cut t k).traceTask 0x10 t i 0x3F 0 codePhaseCut.toNat

/-- A task's work ends with a status; it is complete and retires when its group allows (10 R385). -/
def State.endTask (s : State) (t : Fin 16) (i : Nat) (status : Byte) : State :=
  s.updSched t fun d => d.updTask i fun k => { k with st := .complete, status := status, partsLeft := 0 }

/-! ### Aborts (01 R40, R60; 10 R399; 13 R507; 06 R262; 07 R289) -/

/-- A request of an engine taken out of it with the tenant's aborted tasks. -/
def BearUnit.dropTenant (u : BearUnit) (t : Fin 16) : BearUnit :=
  match u.solve with
  | some v => if v.tenant = t then { u with solve := none } else u
  | none => u
/-- A Jay unit without a tenant's requests. -/
def JayUnit.dropTenant (u : JayUnit) (t : Fin 16) : JayUnit :=
  { u with
    queue := u.queue.filter fun r => r.tenant ≠ t
    run := match u.run with
      | some r => if r.req.tenant = t then none else some r
      | none => none }

/-- Core clock at a level, in MHz (16, level table). -/
def levelMhz (v : BitVec 2) : Nat :=
  match v.toNat with
  | 0 => 1500
  | 1 => 1200
  | 2 => 900
  | _ => 600

/-- Core clock at the current level, in MHz. -/
def State.coreMhz (s : State) : Nat := levelMhz s.clock.current

/-- The clock the core domain runs on now, in MHz: the root at its level, the holding clock, or FIO (16 R612, R616, R619, R622). -/
def State.coreRate (s : State) : Nat :=
  match (s.clock.sel.at' 0).toNat with
  | 3 => levelMhz (match s.clock.relock with
      | some r => if r.step = .returning then r.target else s.clock.current
      | none => s.clock.current)
  | 2 => if s.refOnly && ! s.clock.refLost then 25 else 50
  | 1 => 200
  | _ => 0

/-- The cycles a core's part has run since they were last counted, in LOAD (10 R400; 16 R619). -/
def State.accrueCore (s : State) (k : Core) : Core :=
  match k.run with
  | some r => { k with run := some { r with since := s.now }, load := k.load + (s.now - r.since) * s.coreRate }
  | none => k

/-- LOAD of every core brought up to now: the core clock is about to change. -/
def State.accrue (s : State) : State := { s with cores := s.cores.map s.accrueCore }

/-- A core whose part stops running; LOAD counts the cycles it ran (10 R400). -/
def State.haltCore (s : State) (k : Core) : Core := { s.accrueCore k with run := none }

/-- The work of a tenant's tasks leaves cores and engines: parts, bands, Front, Bear and Jay requests. -/
def State.dropWork (s : State) (t : Fin 16) : State :=
  let s := s.dropParts t fun _ => false
  let cores := s.cores.map fun k =>
    match k.run with
    | some r => if r.part.tenant = t then s.haltCore k else k
    | none => k
  let s : State := { s with
    cores := cores
    bears := s.bears.map fun (u : BearUnit) => u.dropTenant t
    jays := s.jays.map fun (u : JayUnit) => u.dropTenant t }
  let s := s.updSearch t fun f => { f with front := if f.front = .requested then .notRun else f.front, fox := [] }
  let s := s.updSolver t fun v => { v with issued := [], slots := v.slots.filter fun k => k.st = .finished }
  s.updSel t fun v => { v with issued := [], collectives := [] }

/-- Every task of a tenant aborted for the rest of the frame, its slots freed; timers and detectors stay (10 R399). -/
def State.abortTasks (s : State) (t : Fin 16) (code : Byte) : State :=
  let l := (s.tenant t).sched.tasks.map (·.index)
  let s := s.forEach l fun s i => s.traceTask 0x0A t i 0x3F 0 code.toNat
  let s := s.dropWork t
  let s := s.updCascade fun c => { c with tags := c.tags.filter fun g => g.tenant ≠ t }
  s.updSched t fun d => { d with tasks := [], running := false, abortCode := code, deadEdges := 0, rings := [] }

/-! ### Verdicts of the stops and SAFE_STATE (01 R53 to R56) -/

/-- The candidate in a table entry; an entry no producer has written reads as zero (04 R178). -/
def Table.cand (b : Table) (i : Nat) : Option Cand := mfind b.cands i
/-- VERDICT of an entry, 0 where none is written. -/
def Table.verdict (b : Table) (i : Nat) : Nat := match b.cand i with | some c => c.verdict.toNat | none => 0
/-- The tenant's CLEAR bit of an ID, as an engine without the lost words reads it (05 R216, 19 R724). -/
def Table.isClear (b : Table) (base i : Nat) : Bool :=
  b.clear.contains i && ! b.lost.contains ((base + i) % 16, (base + i) / 16 / 64)

/-- The final selection's plan: its entry 0, when its CLEAR bit is set (01 R53, 05 R217). -/
def State.selected (s : State) (t : Fin 16) : Option Nat :=
  match (s.tenant t).sel.finalResult with
  | some (some i) => if (s.tenant t).table.isClear (s.candBase t) i then some i else none
  | _ => none

/-- SAFE_STATE asserts (01 R55). -/
def State.assertSafe (s : State) : State := s.updFrame fun f => { f with safePin := true, safeNow := true }

/-- The Hedgehog may be published: its verdict is CLEAR and its CLEAR bit is set (01 R53; 05 R217). -/
def State.hedgehogClear (s : State) (t : Fin 16) : Bool := (s.tenant t).table.isClear (s.candBase t) 0

/-- A tenant selected by SAFE_MASK whose result the verdicts have made IMMINENT: no CLEAR plan can be selected any more and
neither stop is CLEAR (01 R46, R53, R55). -/
def State.judgeImminent (s : State) (t : Fin 16) : State :=
  let n := s.tenant t
  let b := n.table
  let settled := 7 ≤ s.frame.passed || n.out.aborted
  if n.live && n.hasProgram && s.frame.inFrame && ! n.out.fixed && ! n.out.imminent && settled && (s.selected t).isNone
      && ! s.hedgehogClear t && b.verdict 1 ≠ 1 && (7 ≤ s.frame.passed || 2 ≤ b.verdict 1) then
    let s := s.updOut t fun o => { o with imminent := true }
    if bit (s.live 0x03 0x140) t.val then s.assertSafe else s
  else s

/-- The tenant's frame will not reach its final selection: its tasks are aborted, and what PUBLISH has decided before D_7 is decided
again (01 R46 row 2, R60). -/
def State.failFrame (s : State) (t : Fin 16) (code : Byte) : State :=
  let s := s.abortTasks t code
  (s.updOut t fun o => { o with aborted := true, fixed := o.fixed && 8 ≤ s.frame.passed }).judgeImminent t

/-- A program fault (13 R507): every task aborted for the frame, FAULTS advanced, PROGRAM_FAULT raised. -/
def State.programFault (s : State) (t : Fin 16) (code : Byte) : State :=
  let s := s.failFrame t code
  let s := s.updTenant t fun n => { n with faults := min 255 (n.faults + 1) }
  (s.raise (tenantPage t) 1).bumpErr (tenantPage t)

/-! ### Readiness (10 R382) -/

/-- A task has become ready. COMPUTE parts enter their ready lists, each with its READY record and the depth of its list (10 R402; DEDUCED;
log 39). A task whose phase has passed can never start and ends with PHASE_CUT (01 R32, 10 R382). DEDUCED; log 26. A task without a usable
core ends with UNIT_FENCED, and the frame has lost a fenced unit (01 R46; 08 R329). -/
def State.makeReady (s : State) (t : Fin 16) (i : Nat) : State :=
  let d := (s.tenant t).sched
  let w := d.rec' i
  if (d.task i).isNone then s
  else
    let s := s.updSched t fun d => d.updTask i fun k => { k with st := .ready, readyAt := s.now }
    if s.phasePassed (trPhase w) then
      ((s.traceTask 2 t i 0x3F 0 0).noteCut t (trPhase w) i).endTask t i codePhaseCut
    else if trKind w ≠ 0 then s.traceTask 2 t i 0x3F 0 0
    else
      let us := s.unitsOfTask t i
      if us = [] then (s.traceTask 2 t i 0x3F 0 0).endTask t i codeOk
      else if (s.coreFor t 0).isNone then ((s.traceTask 2 t i 0x3F 0 0).endTask t i codeFenced).failFrame t codeFenced
      else
        let s := s.updSched t fun d => d.updTask i fun k => { k with partsLeft := us.length }
        s.forEach us fun s u =>
          let s := s.putPart
            { tenant := t, task := i, unit := u.1, vcore := u.2, prio := trPrio w, readyAt := s.now, moment := d.moment, resume := none }
          let depth := match s.coreFor t u.2 with | some c => (bget Core.reset s.cores c).ready.length | none => 0
          s.traceTask 2 t i u.2 0 depth

/-- Tasks of the tenant in slots that are blocked and have no predecessor pending become ready (10 R382). -/
def State.wakeBlocked (s : State) (t : Fin 16) : State :=
  let d := (s.tenant t).sched
  s.forEach ((d.tasks.filter fun k => k.st = .blocked && d.pendingPreds k.index = 0).map (·.index)) fun s i => s.makeReady t i

/-! ### Flags and waits (10 R386, R387) -/

/-- A WAIT's flags satisfy it (10 R387). -/
def satisfied (flags : List Nat) (w : BitVec 256) : Bool :=
  let l := trFlags w
  if trAll w then l.all flags.contains else l.any flags.contains

/-- The flags that satisfy a WAIT with CONSUME: they clear as it retires (10 R387). -/
def consumed (flags : List Nat) (w : BitVec 256) : List Nat :=
  if trConsume w then (trFlags w).filter flags.contains else []

/-- The order in which waiting tasks are evaluated: priority, then task index (10 R387). -/
def waitBefore (d : Sched) (i j : Nat) : Bool :=
  trPrio (d.rec' i) < trPrio (d.rec' j) || (trPrio (d.rec' i) = trPrio (d.rec' j) && i < j)

/-- The first waiting task, in that order, whose flags satisfy it. -/
def Sched.firstSatisfied (d : Sched) : Option Nat :=
  ((d.tasks.filter fun k => k.st = .waiting && satisfied d.flags (d.rec' k.index)).map (·.index)).foldl
    (fun b i => match b with | none => some i | some j => if waitBefore d i j then some i else some j) none

/-- A ring of a CORE peer sender with its lowest-numbered tile released (10 R380). -/
def Ring.release (r : Ring) : Ring :=
  match r.held.map (·.1) with
  | [] => r
  | q :: l => let m := l.foldl min q; { r with held := r.held.filter fun h => h.1 ≠ m }

/-- The acts of a retirement: a WAIT's consumption, DONE_FLAG where `flag` lets it be set, the ring slot, the successors, the slot
(10 R380, R387). -/
def Sched.retire (d : Sched) (i : Nat) (flag : Bool) : Sched :=
  let w := d.rec' i
  let d := match d.task i with
    | some k => { d with flags := d.flags.filter fun f => ! k.took.contains f }
    | none => d
  let d := match trDone w with
    | some f => if flag then { d with flags := sinsert d.flags f } else d
    | none => d
  let d := if trRelease w then
      match trRing w with
      | some g => { d with rings := d.rings.map fun r => if r.gemm = g then r.release else r }
      | none => d
    else d
  { d with
    released := sinsert d.released i
    retired := sinsert d.retired i
    tasks := d.tasks.filter fun k => k.index ≠ i }

/-- The flag a trace record names: the first of a WAIT's, or the one a retirement sets. DEDUCED; log 122 (10 R402). -/
def waitFlag (w : BitVec 256) : Nat := lget 0 (trFlags w) 0

/-- A task retires with its record in the trace, and its successors without a pending predecessor become ready. -/
def State.retireTask (s : State) (t : Fin 16) (i : Nat) (status : Byte) (flag : Bool) : State :=
  let s := s.traceTask 8 t i 0x3F (if flag then (trDone ((s.tenant t).sched.rec' i)).getD 0 else 0) status.toNat
  let s := s.updCascade fun c => { c with tags := c.tags.filter fun g => g.tenant ≠ t || g.task ≠ i }
  (s.updSched t fun d => d.retire i flag).wakeBlocked t

/-- Waiting tasks evaluated in order, each consumption before the next; a satisfied WAIT retires when its group allows
(10 R385, R387). `fuel` bounds the number of WAITs. -/
def State.wakeWaits (s : State) (t : Fin 16) : Nat → State
  | 0 => s
  | f + 1 =>
    let d := (s.tenant t).sched
    match d.firstSatisfied with
    | none => s
    | some i =>
      let w := d.rec' i
      let s := s.traceTask 6 t i 0x3F (((trFlags w).find? d.flags.contains).getD 0) 0
      let s := s.updSched t fun d => d.updTask i fun k => { k with st := .complete, status := codeOk, took := consumed d.flags w }
      let s := if (s.tenant t).sched.groupFree i then s.retireTask t i codeOk true else s
      s.wakeWaits t f

/-- Waits evaluated after flags have been set; while flags of one moment are being set, not yet (10 R387). -/
def State.evalWaits (s : State) (t : Fin 16) : State :=
  if s.frame.together then s else s.wakeWaits t ((s.tenant t).sched.tasks.length + 1)

/-- Flags set from here on belong to one moment. -/
def State.hold (s : State) : State := s.updFrame fun f => { f with together := true }

/-- The flags of the moment are all set: every tenant's waits are evaluated (10 R387). -/
def State.unhold (s : State) : State := (s.updFrame fun f => { f with together := false }).forTenants State.evalWaits

/-- An event flag set, and the waits evaluated (10 R386, R387). -/
def State.setFlag (s : State) (t : Fin 16) (f : Nat) : State :=
  (s.updSched t fun d => { d with flags := sinsert d.flags f }).evalWaits t

/-- A complete task retires where its group allows (10 R380, R385). -/
def State.retireFree (s : State) (t : Fin 16) (i : Nat) : State :=
  let d := (s.tenant t).sched
  match d.task i with
  | some k => if k.st = .complete && d.groupFree i then s.retireTask t i k.status (k.status ≠ codeWaitTimeout) else s
  | none => s

/-- A complete task retires where its group allows, and then waits are evaluated (10 R380, R385, R387). -/
def State.tryRetire (s : State) (t : Fin 16) (i : Nat) : State := (s.retireFree t i).evalWaits t

/-- A task's work ends and it retires at once where its group allows. -/
def State.finishTask (s : State) (t : Fin 16) (i : Nat) (status : Byte) : State := (s.endTask t i status).tryRetire t i

/-! ### Cancellation (10 R389) -/

/-- Successors of a list of tasks and all that depend on them; every dependant has a higher index than its predecessor
(10 R378). -/
def Sched.dependants (d : Sched) (roots : List Nat) : List Nat :=
  (List.range d.taskCount).foldl (fun l i => if l.contains i then (d.succs i).foldl sinsert l else l)
    (roots.foldl sinsert [])

/-- Tasks cancelled: they never run, set no flag and free their slots; T_WAITS counts them (10 R389). -/
def State.cancelTasks (s : State) (t : Fin 16) (l : List Nat) : State :=
  let d := (s.tenant t).sched
  let new := l.filter fun i => ! d.cancelled.contains i && ! d.retired.contains i
  let s := s.forEach new fun s i => s.traceTask 9 t i 0x3F 0 0
  let s := s.updSched t fun d => { d with
    cancelled := sunion d.cancelled new
    nCancelled := min 0xFFFF (d.nCancelled + new.length)
    tasks := d.tasks.filter fun k => ! new.contains k.index }
  s.dropParts t fun p => ! new.contains p.task

/-! ### Fetch (10 R381) -/

/-- The lowest slot no task holds. -/
def State.freeSlot (s : State) : Nat :=
  let used := s.tenants.toList.flatMap fun n => n.sched.tasks.map (·.slot)
  ((List.range 4096).find? fun i => ! used.contains i).getD 0

/-- The tenant's program starts tasks now: a frame runs, its opening is done, and a program with dynamic dimensions has its
SHAPE (10 R381, 08 R322). -/
def State.mayFetch (s : State) (t : Fin 16) : Bool :=
  let n := s.tenant t
  let d := n.sched
  n.live && d.running && s.frame.inFrame && ! s.frame.opening && ! s.halted && ! s.held && s.frame.passed < 8
    && (match d.image with | some p => p.dims = 0 || d.shape.isSome | none => false)

/-- Beaver can fetch the tenant's next record: a cancelled task needs no slot (10 R381, R389). -/
def State.canFetchTask (s : State) (t : Fin 16) : Bool :=
  let d := (s.tenant t).sched
  s.mayFetch t && d.nextFetch < d.taskCount && (d.cancelled.contains d.nextFetch || d.slotsUsed < s.slotQuota t)

/-- The tenant whose turn it is to have a record fetched: tenants that cannot have one are passed over (10 R381). -/
def State.fetchNext (s : State) : Option (Fin 16) :=
  (turnFrom 16 s.frame.fetchTurn).find? s.canFetchTask

/-- The tenant's next record, of task `i`, takes the lowest free slot, and the task is ready where no predecessor is pending (10 R380 to R382).
-/
def State.takeSlot (s : State) (t : Fin 16) (i : Nat) : State :=
  let k : Task :=
    { index := i, slot := s.freeSlot, st := .blocked, readyAt := 0, startAt := 0, deadlineUs := 0, partsLeft := 0,
      status := 0, timed := false, waitsOn := [], took := [], outs := [] }
  let s := s.updSched t fun d => { d with nextFetch := i + 1, tasks := d.tasks ++ [k] }
  let s := { s with slotsPeak := max s.slotsPeak s.slotsUsed }
  let s := s.traceTask 1 t i 0x3F 0 0
  if (s.tenant t).sched.pendingPreds i = 0 then s.makeReady t i else s

/-- TASK_FETCH (10 R381): in the tenant's turn, its next record takes a free slot of the quota; a cancelled task takes none. -/
def State.fetchTask (s : State) (t : Fin 16) : State :=
  let d := (s.tenant t).sched
  let i := d.nextFetch
  if s.fetchNext ≠ some t then s
  else
    let s := s.updFrame fun f => { f with fetchTurn := (t.val + 1) % 16 }
    if d.cancelled.contains i then s.updSched t fun d => { d with nextFetch := i + 1 }
    else s.takeSlot t i

/-- TASK_FETCH -/
def execTaskFetch (t : Fin 16) (s : State) : Host.Outcome State Fault Refusal := done (s.fetchTask t)

/-! ### WAIT, TIMER and SIGNAL (10 R379, R388 to R391) -/

/-- A ready task of a kind. -/
def State.readyTask (s : State) (t : Fin 16) (i kind : Nat) : Bool :=
  let d := (s.tenant t).sched
  match d.task i with
  | some k => k.st = .ready && trKind (d.rec' i) = kind && ! s.held
  | none => false

/-- Peak of the delay list in the frame (10 R403 T_DELAY). -/
def Sched.notePeak (d : Sched) : Sched := { d with delayPeak := max d.delayPeak d.delayUsed }

/-- WAIT_START (10 R388): a WAIT with a time-out of its own takes a delay-list entry, and stays ready while the list is
full. A WAIT already satisfied ends at once. -/
def State.startWait (s : State) (t : Fin 16) (i : Nat) : State :=
  let d := (s.tenant t).sched
  let w := d.rec' i
  let own := trTimeout w ≠ 0
  if ! s.readyTask t i 2 || (own && 512 ≤ d.delayUsed) then s
  else
    let phaseEnd := s.deadlineAt (trPhase w)
    let due := if own then min (s.now + trTimeout w) phaseEnd else phaseEnd
    let s := s.traceTask 5 t i 0x3F (waitFlag w) 0
    (s.updSched t fun d => (d.updTask i fun k =>
      { k with st := .waiting, startAt := s.now, deadlineUs := due, timed := own }).notePeak).evalWaits t

/-- WAIT_START -/
def execWaitStart (t : Fin 16) (i : Nat) (s : State) : Host.Outcome State Fault Refusal := done (s.startWait t i)

/-- A timer armed, replacing one of the same ID (10 R390). -/
def Sched.arm (d : Sched) (x : Timer) : Sched :=
  { d with timers := (d.timers.filter fun y => y.id ≠ x.id) ++ [x], timerSeq := d.timerSeq + 1 }

/-- TIMER_TASK (10 R390): arms, re-arms or cancels a timer and retires. -/
def State.runTimerTask (s : State) (t : Fin 16) (i : Nat) : State :=
  let d := (s.tenant t).sched
  let w := d.rec' i
  let id := bits (trWork w) 5 0
  let armed := d.timers.any fun y => y.id = id
  if ! s.readyTask t i 3 || (trTimeout w ≠ 0 && ! armed && 512 ≤ d.delayUsed) then s
  else
    let s := s.updSched t fun d =>
      if trTimeout w = 0 then { d with timers := d.timers.filter fun y => y.id ≠ id }
      else (d.arm ⟨id, s.schedTime + trTimeout w, trTimerFlag w, trPeriod w, d.timerSeq, s.frame.seq⟩).notePeak
    (s.traceTask 3 t i 0x3F id 0).finishTask t i codeOk

/-- TIMER_TASK -/
def execTimerTask (t : Fin 16) (i : Nat) (s : State) : Host.Outcome State Fault Refusal := done (s.runTimerTask t i)

/-- SIGNAL_TASK (10 R379): does nothing and retires at once. -/
def State.runSignalTask (s : State) (t : Fin 16) (i : Nat) : State :=
  if s.readyTask t i 4 then (s.traceTask 3 t i 0x3F 0 0).finishTask t i codeOk else s

/-- SIGNAL_TASK -/
def execSignalTask (t : Fin 16) (i : Nat) (s : State) : Host.Outcome State Fault Refusal := done (s.runSignalTask t i)

/-- TASK_RETIRE (10 R380, R385). -/
def execTaskRetire (t : Fin 16) (i : Nat) (s : State) : Host.Outcome State Fault Refusal :=
  done (if s.held then s else s.tryRetire t i)

/-! ### Timers and the deadlock test (10 R390, R391, R398) -/

/-- The deadlock test of a tenant (10 R398). Commands holding tags are the host operations; a started task stands for its
DMA, engine request or Dellane operation; a stalled peer send is a core's outgoing tile. -/
def State.deadTest (s : State) (t : Fin 16) : Bool :=
  let n := s.tenant t
  let d := n.sched
  s.frame.inFrame && s.frame.passed < 8 && d.running && 0 < d.nextFetch
    && d.tasks.any (fun k => k.st = .waiting) && ! d.tasks.any (fun k => k.st = .ready || k.st = .started)
    && d.timers = [] && n.cmds = []
    && s.cores.toList.all (fun k => match k.run with | some r => r.part.tenant ≠ t | none => true)
    && ! s.cascade.tags.any fun g => g.tenant = t

/-- A timer fires: its flag is set, and a periodic one re-arms from its due time (10 R391). -/
def State.fireTimer (s : State) (t : Fin 16) (x : Timer) : State :=
  let s := s.trace 0x0C t ⟨0, 0, 0, 0x3F, 0, x.id, 0⟩
  let s := if x.frame < s.frame.seq && s.frame.irregular then s.noteTiming t 2 else s
  let s := s.updSched t fun d =>
    let rest := d.timers.filter fun y => y.id ≠ x.id
    if x.period = 0 then { d with timers := rest }
    else { d with timers := rest ++ [{ x with due := x.due + x.period, seq := d.timerSeq }], timerSeq := d.timerSeq + 1 }
  s.setFlag t x.flag

/-! ### Edge detectors (10 R392, R393) -/

/-- The detector's source is one whose moment is set outside the frame program: LINK_DOORBELL, SAFE_STATE, or a WMARK bit of
page 0x000 or of a queue page (14 R531 bit 5). -/
def outsideEdge (c : BitVec 64) : Bool :=
  let p := (detWmark c).1
  detSource c = 3 || detSource c = 4 || (detSource c = 2 && (p = 0 || (0x40 ≤ p && p < 0xC0)))

/-- EDGE_DELIVER (10 R393): a latch is delivered while the tenant's program runs, from the tick to D_7. -/
def State.deliverEdge (s : State) (t : Fin 16) (k : Fin 32) : State :=
  let d := (s.tenant t).sched
  let x := d.detectors.at' k
  if s.held || s.halted || ! d.running || ! s.frame.inFrame || s.frame.opening || 8 ≤ s.frame.passed || ! x.latched then s
  else
    let s := s.trace 0x0D t ⟨0, 0, 0, 0x3F, 0, k.val, 0⟩
    let s := if outsideEdge x.cfg then s.noteTiming t 5 else s
    let s := s.updSched t fun d => { d with detectors := d.detectors.put k { x with latched := false } }
    s.setFlag t (detFlag x.cfg)

/-- EDGE_DELIVER -/
def execEdgeDeliver (t : Fin 16) (k : Fin 32) (s : State) : Host.Outcome State Fault Refusal := done (s.deliverEdge t k)

/-- The signal word written, with a transition of each bit that changes (11 R432). -/
def State.setSignal (s : State) (t : Fin 16) (w : Word) : State :=
  s.updSched t fun d =>
    { d with
      signal := w
      detectors := d.detectors.map fun x =>
        let i := detSelect x.cfg % 32
        x.latchIf (detSource x.cfg = 1 && detSelect x.cfg < 32 && polarityMatches x.cfg (d.signal.getLsbD i) (w.getLsbD i)) }

/-- A rise and a fall of a tenant's LINK_DOORBELL source (15 R572). -/
def State.linkDoorbell (s : State) (t : Fin 16) (l : Nat) : State :=
  s.updSched t fun d =>
    { d with detectors := d.detectors.map fun x =>
        x.latchIf (detSource x.cfg = 3 && detSelect x.cfg = l && detPolarity x.cfg ≠ 0) }

/-! ### DEADLOCK (10 R398, R399) -/

/-- The declaration of DEADLOCK at the 64th consecutive edge, before D_7 (10 R398, R399, R407). -/
def State.declareDeadlock (s : State) (t : Fin 16) : State :=
  if s.held || s.halted || (s.tenant t).sched.deadEdges < 64 || 8 ≤ s.frame.passed || s.deadlineAt 7 ≤ s.now then s
  else
    let s := s.trace 0x0B t ⟨0, 0, 0, 0x3F, 0, 0, 0⟩
    let off := 0x208 + 0x20 * t.val
    let v := s.live 0x04 off
    let n := min 255 (bits v 23 16 + 1)
    let s := s.setLive 0x04 off (v % 2 ^ 16 + n * 2 ^ 16)
    (s.failFrame t codeDeadlock).raise (tenantPage t) 2

/-- Timers due at or before a time fire, in order of due time and then of insertion, each until its due time lies after it (10 R391, R408).
-/
def State.fireDue (s : State) (t : Fin 16) (T : Nat) : Nat → State
  | 0 => s
  | f + 1 =>
    let due := (s.tenant t).sched.timers.filter fun x => x.due ≤ T
    match due with
    | [] => s
    | x :: r =>
      let y := r.foldl (fun b z => if z.due < b.due || (z.due = b.due && z.seq < b.seq) then z else b) x
      (s.fireTimer t y).fireDue t T f

/-! ### WAITs at their deadlines (10 R388, R389) -/

/-- A waiting WAIT whose deadline can pass with time alone: one that is D_k of its phase passes with D_k, after the flags of that moment
(10 R389). -/
def State.mayExpire (s : State) (t : Fin 16) (k : Task) : Bool :=
  let ph := trPhase ((s.tenant t).sched.rec' k.index)
  k.st = .waiting && (k.deadlineUs < s.deadlineAt ph || s.phasePassed ph)

/-- The WAIT that expires first at or before `T`: by deadline, then by the time it started, then by index (10 R391). -/
def State.firstExpired (s : State) (t : Fin 16) (T : Nat) : Option Task :=
  let before (a b : Task) : Bool :=
    a.deadlineUs < b.deadlineUs || (a.deadlineUs = b.deadlineUs && (a.startAt < b.startAt || (a.startAt = b.startAt && a.index < b.index)))
  ((s.tenant t).sched.tasks.filter fun k => s.mayExpire t k && k.deadlineUs ≤ T).foldl
    (fun b k => match b with | none => some k | some x => if before k x then some k else some x) none

/-- An unsatisfied WAIT at its deadline retires with WAIT_TIMEOUT and without its flag, releasing its successors or cancelling all that
depend on it (10 R389). -/
def State.expireWait (s : State) (t : Fin 16) (i : Nat) : State :=
  let d := (s.tenant t).sched
  let w := d.rec' i
  let s := s.traceTask 7 t i 0x3F (waitFlag w) 0
  let s := s.updSched t fun d => { d with waitTimeouts := min 0xFFFF (d.waitTimeouts + 1) }
  let s := if trCancel w then s.cancelTasks t (d.dependants (d.succs i)) else s
  s.finishTask t i codeWaitTimeout

/-- Every WAIT that expires at or before `T`, in order. `fuel` bounds their number. -/
def State.expireWaits (s : State) (t : Fin 16) (T : Nat) : Nat → State
  | 0 => s
  | f + 1 =>
    match s.firstExpired t T with
    | none => s
    | some k => (s.expireWait t k.index).expireWaits t T f

/-! ### Time (10 R390, R391, R398) -/

/-- Frame-timer µs passing with nothing falling due: `k` edges; those before D_7 have the deadlock test of every tenant (10 R398, R407), and
all count missed marks (15 R589). -/
def State.elapse (s : State) (k : Nat) : State :=
  if k = 0 then s
  else
    let edges := min k (s.deadlineAt 7 - 1 - s.now)
    let s := s.forTenants fun s t =>
      let dead := s.deadTest t
      s.updSched t fun d => { d with deadEdges := if dead then d.deadEdges + edges else 0 }
    { s.updCascade fun c => { c with noMark := if s.frame.run then c.noMark + k else 0 } with now := s.now + k }

/-- Timers and WAITs of a tenant fall due: its frame runs, before D_7 (10 R391). -/
def State.delayRuns (s : State) (t : Fin 16) : Bool :=
  s.frame.inFrame && ! s.frame.opening && s.frame.passed < 8 && ! s.held && ! s.halted && (s.tenant t).live

/-- The times before D_7 at which something falls due for a tenant: a timer, a WAIT, or the 64th edge of the deadlock test (10 R388, R391,
R398). -/
def State.dueTimes (s : State) (t : Fin 16) : List Nat :=
  let d := (s.tenant t).sched
  if ! s.delayRuns t then []
  else
    (d.timers.map (fun x => s.now + (x.due - s.schedTime)) ++ (d.tasks.filter (s.mayExpire t)).map (·.deadlineUs)
      ++ (if s.deadTest t || 64 ≤ d.deadEdges then [s.now + (64 - d.deadEdges)] else [])).filter (· < s.deadlineAt 7)

/-- What falls due for a tenant now: timers first, so that a flag set and a deadline of the same moment resolve in favour of the flag; then
WAITs; then DEADLOCK (10 R389, R391, R398). -/
def State.fallDue (s : State) (t : Fin 16) : State :=
  if ! s.delayRuns t then s
  else
    let s := (s.hold.fireDue t s.schedTime 200000).unhold
    (s.expireWaits t s.now (s.tenant t).sched.tasks.length).declareDeadlock t

/-- Time passing to `T`, whatever falls due on the way taking place in its order. `fuel` bounds the moments. -/
def State.passTime (s : State) (T : Nat) : Nat → State
  | 0 => s.elapse (T - s.now)
  | f + 1 =>
    match ((allFin 16).flatMap s.dueTimes).filter (· ≤ max s.now T) with
    | [] => s.elapse (T - s.now)
    | e :: l => ((s.elapse (l.foldl min e - s.now)).forTenants State.fallDue).passTime T f

/-- The frame timer at time `T`, not before now (log 2). -/
def State.advanceTo (s : State) (T : Nat) : State := s.passTime T (T - s.now + 2)

/-- What an empty queue does: one frame-timer µs passes. DESIGN CHOICE; log 2. -/
def State.idle (s : State) : State := s.advanceTo (s.now + 1)

/-- TIMER_FIRE (10 R391): time comes to the timer's due time before D_7, and it fires in its order; in the guard it waits for the tick. -/
def State.timerFire (s : State) (t : Fin 16) (id : Fin 64) : State :=
  match (s.tenant t).sched.timers.find? fun x => x.id = id.val with
  | some x =>
    let due := s.now + (x.due - s.schedTime)
    if ! s.delayRuns t || s.deadlineAt 7 ≤ due then s else s.advanceTo due
  | none => s

/-- TIMER_FIRE -/
def execTimerFire (t : Fin 16) (id : Fin 64) (s : State) : Host.Outcome State Fault Refusal := done (s.timerFire t id)

/-- DEADLOCK (10 R398, R399): where the test holds, time comes to its 64th consecutive edge. -/
def State.reachDeadlock (s : State) (t : Fin 16) : State :=
  let n := (s.tenant t).sched.deadEdges
  if 64 ≤ n then s.declareDeadlock t else if s.delayRuns t && s.deadTest t then s.advanceTo (s.now + (64 - n)) else s

/-- DEADLOCK -/
def execDeadlock (t : Fin 16) (s : State) : Host.Outcome State Fault Refusal := done (s.reachDeadlock t)

/-! ### The exchange at the tick (10 R394, R395) -/

/-- The bits of T_COUNTS advanced (10 R403). -/
def State.countDrops (s : State) (t : Fin 16) (edges timers : Nat) : State :=
  let off := 0x210 + 0x20 * t.val
  let v := s.live 0x04 off
  s.setLive 0x04 off (min 0xFFFF (bits v 15 0 + edges) + min 0xFFFF (bits v 31 16 + timers) * 2 ^ 16)

/-- A pending exchange applied. The first frame of a program that was not the running one has no published plan behind it (01 R50). DEDUCED;
log 119. -/
def State.applyActivate (s : State) (t : Fin 16) : State :=
  match (s.tenant t).sched.activate with
  | some (_, b) =>
    let s := if b = (s.tenant t).sched.activeB then s else s.updTable t fun x => { x with lastPlan := none }
    (s.updSched t fun d => { d with activeB := b, activate := none }).trace 0x0F t ⟨0, 0, 0, 0x3F, 0, 0, 0⟩
  | none => s

/-- The steps of 10 R395 for a tenant at the tick, with a pending exchange applied before them. -/
def State.exchange (s : State) (t : Fin 16) : State :=
  let s := s.applyActivate t
  let d := (s.tenant t).sched
  let im := d.image
  let keepT := match im with | some p => p.retainTimers.toNat | none => 0
  let keepE := match im with | some p => p.retainEdges.toNat | none => 0
  let sub := match im with | some p => p.subscribe.toNat | none => 0
  let table := match im with | some p => p.detectors | none => []
  let lost := d.timers.countP fun x => ! bit keepT x.id
  let latched := (allFin 32).filter fun k => (d.detectors.at' k).latched
  let conf (k : Fin 32) : BitVec 64 := if bit keepE k.val then (d.detectors.at' k).cfg else lget 0 table k.val
  let taken := latched.filter fun k => bit sub k.val
  let dropped := latched.filter fun k => ! taken.contains k
  let s := s.forEach dropped fun s k => s.trace 0x0E t ⟨0, 0, 0, 0x3F, 0, k.val, 0⟩
  let s := s.forEach taken fun s k => s.trace 0x0D t ⟨0, 0, 0, 0x3F, 0, k.val, 0⟩
  let s := s.countDrops t dropped.length lost
  let keep := d.timers.filter fun x => bit keepT x.id
  let s := s.updSched t fun d =>
    { d with
      timers := keep
      detectors := Vector.ofFn fun k => ⟨conf k, false⟩
      flags := taken.foldl (fun l k => sinsert l (detFlag (conf k))) []
      nextFetch := 0, tasks := [], released := [], retired := [], cancelled := [], rings := [], deadEdges := 0
      waitTimeouts := 0, nCancelled := 0, delayPeak := keep.length, results := []
      running := im.isSome, inForce := im.isSome }
  s.fireDue t s.schedTime 200000

end Sys2Proof.Machine
end

