-- ==== Sys2Proof/Machine/World.lean ====
section
/-! DEFINITION. Burrow (03): the checks of an INGEST stream, static tiles, scrolling, the exact rasteriser, pool capacity
and collapse, the seal, and what a check reads of a voxel. -/
namespace Sys2Proof.Machine
open Sys2Proof

/-! ### Geometry (03 R134, R135) -/

/-- WORLD.GEOM.CELL_CM. -/
def State.cellCm (s : State) : Nat := bits (s.live 0x06 0x100) 5 0
/-- WORLD.TIME.SLICE_MS. -/
def State.sliceMs (s : State) : Nat := bits (s.live 0x06 0x104) 7 0
/-- WORLD.TIME.SLICE_COUNT. -/
def State.sliceCount (s : State) : Nat := bits (s.live 0x06 0x104) 22 16
/-- The horizon in ms (03 R109). -/
def State.horizonMs (s : State) : Nat := s.sliceMs * s.sliceCount
/-- WORLD.CLASS_FREE[c].BANDS; class 0 reads 0 (03 R107). -/
def State.classFree (s : State) (c : Nat) : Nat := if c = 0 then 0 else bits (s.live 0x06 (0x120 + 4 * c)) 15 0
/-- The tenant has a world (03 R99). -/
def State.hasWorld (s : State) (t : Fin 16) : Bool := (s.tenant t).exists' && s.tileShare t ≠ 0

/-! ### The checks of an INGEST command (03 R111 to R117) -/

/-- A fault found in a stream: true for a condition of R111, and the offset of the field. -/
abbrev Flaw := Bool × Nat

/-- The first non-zero byte of a reserved field at offset `o` makes the field faulty. -/
def reservedFlaw (data : List Byte) (o n field : Nat) : List Flaw :=
  if allZero ((data.drop o).take n) then [] else [(false, field)]

/-- Flaws of the inclusive rectangle at byte 8 of a record (03 R112). -/
def rectFlaws (r : List Byte) (o : Nat) : List Flaw :=
  (List.range 4).flatMap (fun i => if 31 < byteAt r (8 + i) then [(false, o + 8 + i)] else [])
    ++ (if byteAt r 10 < byteAt r 8 then [(false, o + 8)] else [])
    ++ (if byteAt r 11 < byteAt r 9 then [(false, o + 9)] else [])

/-- A voxel of the word is coded 11 (03 R104). -/
def hasCode3 (w : Nat) : Bool := (w &&& (w >>> 1) &&& 0x55555555) ≠ 0

/-- The 4,096 words of a mixed tile's data (03 R105). -/
def tileWords (data : List Byte) : List Nat := (chunks 4 4096 data).map leNat

/-- Flaws of agent record `i` of a list (03 R111, R112, R120). MODES outside 1 to 4 gives no mode block that could run past
LENGTH. DEDUCED; log 79. -/
def agentFlaws (r : List Byte) (o len i : Nat) : List Flaw :=
  let a := 16 + 64 * i
  let g := (r.drop a).take 64
  let modes := bits (byteAt g 4) 2 0
  let off := u32At g 12
  let bad : List (Bool × Nat) :=
    [(modes = 0 || 4 < modes || 8 ≤ byteAt g 4, 4), (bits (byteAt g 5) 7 4 < bits (byteAt g 5) 3 0, 5),
     (u16At g 6 = 0 || 1000 < u16At g 6, 6), (off % 16 ≠ 0, 12), (! allZero (g.drop 20), 20)]
  (bad.filter (·.1)).map (fun p => (false, o + a + p.2))
    ++ (if 1 ≤ modes ∧ modes ≤ 4 ∧ len < off + 64 * modes then [(true, o + a + 12)] else [])

/-- Flaws of one record at offset `o` whose LENGTH lies within the stream (03 R111, R112, R117). -/
def recordFlaws (r : List Byte) (o len : Nat) : List Flaw :=
  let typ := byteAt r 0
  reservedFlaw r 1 3 (o + 1)
    ++ (if len % 16 ≠ 0 then [(false, o + 4)] else [])
    ++ (match typ with
      | 1 =>
        (if len ≠ 16400 then [(false, o + 4)] else [])
          ++ (if 31 < byteAt r 8 then [(false, o + 8)] else []) ++ (if 31 < byteAt r 9 then [(false, o + 9)] else [])
          ++ reservedFlaw r 10 6 (o + 10)
          ++ (match (tileWords (r.drop 16)).findIdx? hasCode3 with | some i => [(false, o + 16 + 4 * i)] | none => [])
      | 2 =>
        (if len ≠ 16 then [(false, o + 4)] else []) ++ rectFlaws r o
          ++ (if 3 ≤ byteAt r 12 then [(false, o + 12)] else []) ++ reservedFlaw r 13 3 (o + 13)
      | 3 =>
        (if len ≠ 16 then [(false, o + 4)] else [])
          ++ (if 32 < (sext 8 (byteAt r 8)).natAbs then [(false, o + 8)] else [])
          ++ (if 32 < (sext 8 (byteAt r 9)).natAbs then [(false, o + 9)] else []) ++ reservedFlaw r 10 6 (o + 10)
      | 4 =>
        (if len ≠ 16 then [(false, o + 4)] else []) ++ rectFlaws r o
          ++ (if 8 ≤ byteAt r 12 then [(false, o + 12)] else []) ++ reservedFlaw r 13 3 (o + 13)
      | 5 =>
        reservedFlaw r 10 6 (o + 10)
          ++ (if len < 16 + 64 * u16At r 8 then [(true, o + 8)]
              else (List.range (u16At r 8)).flatMap (agentFlaws r o len))
      | _ => [(false, o)])

/-- The signed grid coordinates of a waypoint (03 R121). -/
def waypointAt (b : List Byte) (i : Nat) : Int × Int := (sext 16 (u16At b (4 * i)), sext 16 (u16At b (4 * i + 2)))

/-- Agent record `i` of an AGENT_LIST record with its mode blocks (03 R120, R121). -/
def parseAgent (r : List Byte) (i : Nat) : Agent :=
  let g := (r.drop (16 + 64 * i)).take 64
  { id := BitVec.ofNat 32 (u32At g 0)
    bandLo := bits (byteAt g 5) 3 0
    bandHi := bits (byteAt g 5) 7 4
    wpDtMs := u16At g 6
    radius := u16At g 8
    growth := u16At g 10
    t0Us := sext 32 (u32At g 16)
    modes := (List.range (bits (byteAt g 4) 2 0)).map fun m =>
      let b := (r.drop (u32At g 12 + 64 * m)).take 64
      (List.range 16).map (waypointAt b) }

/-- A record of a stream that has passed its checks (03 R117). -/
def parseRecord (r : List Byte) : Record :=
  match byteAt r 0 with
  | 1 => .mixedTile (byteAt r 8) (byteAt r 9) ((r.drop 16).take 16384)
  | 2 => .uniformTiles (byteAt r 8) (byteAt r 9) (byteAt r 10) (byteAt r 11)
      (match byteAt r 12 with | 0 => .free | 1 => .occupied | _ => .unknown)
  | 3 => .scroll (sext 8 (byteAt r 8)) (sext 8 (byteAt r 9))
  | 4 => .region (byteAt r 8) (byteAt r 9) (byteAt r 10) (byteAt r 11) (BitVec.ofNat 3 (byteAt r 12))
  | _ => .agentList ((List.range (u16At r 8)).map (parseAgent r))

/-- The walk of a stream from offset `o`: its records, and the flaws found (03 R113). -/
def walkStream : Nat → List Byte → Nat → List Record × List Flaw
  | 0, _, _ => ([], [])
  | _, [], _ => ([], [])
  | f + 1, rest, o =>
    if rest.length < 16 then ([], [(true, o)])
    else
      let len := u32At rest 4
      if len < 16 then ([], [(false, o + 4)])
      else if rest.length < len then ([], [(true, o + 4)])
      else
        let r := rest.take len
        let k := walkStream f (rest.drop len) (o + len)
        (parseRecord r :: k.1, recordFlaws r o len ++ k.2)

/-- The least offset of a list of flaws. -/
def firstFlaw (l : List Flaw) : Nat := (l.map (·.2)).foldl min 0xFFFFFFFF

/-- The check of a whole stream: its records, or the code and the offset of the first faulty field; with conditions of
R111 and R112 both, LENGTH_EXCEEDS_BUFFER is reported (03 R111 to R113). -/
def checkStream (data : List Byte) : Except (Byte × Nat) (List Record) :=
  let k := walkStream (data.length / 16 + 1) data 0
  match k.2 with
  | [] => .ok k.1
  | _ =>
    let long := k.2.filter (·.1)
    if long = [] then .error (codeBad, firstFlaw k.2) else .error (codeLength, firstFlaw long)

/-! ### Tiles (03 R103 to R107) -/

/-- A static tile as a world is created: uniform UNKNOWN in class 0 (03 R103). -/
def Tile.default : Tile := { body := .uniform .unknown, cls := 0 }
/-- The index of a tile. -/
def tileIx (tx ty : Nat) : Nat := 32 * ty + tx
/-- A static tile. -/
def World.tile (w : World) (i : Nat) : Tile := mget Tile.default w.stat i
/-- A static tile written. -/
def World.setTile (w : World) (i : Nat) (x : Tile) : World := { w with stat := mset Tile.default w.stat i x }
/-- The word of a cell that holds one voxel state in every band (03 R104, R105). -/
def Voxel.word : Voxel → Nat
  | .free => 0
  | .occupied => 0x55555555
  | .unknown => 0xAAAAAAAA
/-- The body of a tile from its words: one that holds a single state throughout is uniform (03 R106). -/
def bodyOf (ws : List Nat) : TileBody :=
  let one (v : Voxel) : Bool := ws.all (· = v.word)
  if one .free then .uniform .free else if one .occupied then .uniform .occupied else if one .unknown then .uniform .unknown
  else .mixed (((List.range 4096).zip ws).filterMap fun p => if p.2 = 0 then none else some (p.1, BitVec.ofNat 32 p.2))
/-- The word of a cell of a tile. -/
def TileBody.cell (b : TileBody) (i : Nat) : Nat :=
  match b with
  | .uniform v => v.word
  | .mixed ws => (mget 0 ws i).toNat
/-- The body takes pool storage. -/
def TileBody.isMixed : TileBody → Bool
  | .mixed _ => true
  | .uniform _ => false
/-- Tiles of an inclusive rectangle (03 R117). -/
def rectTiles (x0 y0 x1 y1 : Nat) : List Nat :=
  (List.range (y1 + 1 - y0)).flatMap fun dy => (List.range (x1 + 1 - x0)).map fun dx => tileIx (x0 + dx) (y0 + dy)

/-- A world discarded (03 R103, R137): its tiles and slices go, and the commands that wait for their frame stay accepted. -/
def World.discard (w : World) : World :=
  { w with stat := [], dyn := [], dynCollapsed := [], agents := [], marked := [], view := none }

/-! ### Pool capacity and collapse (03 R126, R127) -/

/-- Rank of a mixed tile for collapse, greatest first: dynamic before static, then distance, slice and index (03 R126). -/
def collapseRank (slice : Option Nat) (i : Nat) : Nat :=
  let d := max (2 * ((i % 32 : Nat) : Int) - 31).natAbs (2 * ((i / 32 : Nat) : Int) - 31).natAbs
  match slice with
  | some j => ((64 + d) * 64 + j) * 1024 + i
  | none => d * 64 * 1024 + i

/-- Every stored mixed tile: its slice, none for a static one, and its index. -/
def World.mixedList (w : World) : List (Option Nat × Nat) :=
  (w.stat.filter fun p => p.2.body.isMixed).map (fun p => (none, p.1))
    ++ (w.dyn.filter fun p => p.2.isMixed).map (fun p => (some (p.1 / 1024), p.1 % 1024))

/-- The member of greatest rank of a non-empty list. -/
def topRank (x : Option Nat × Nat) (l : List (Option Nat × Nat)) : Option Nat × Nat :=
  l.foldl (fun b y => if collapseRank b.1 b.2 < collapseRank y.1 y.2 then y else b) x

/-- A tile collapsed to uniform OCCUPIED (03 R126, R127). -/
def World.collapse (w : World) (x : Option Nat × Nat) : World :=
  match x.1 with
  | none => { w.setTile x.2 { w.tile x.2 with body := .uniform .occupied } with cntStat := w.cntStat + 1 }
  | some j =>
    { w with
      dyn := mput w.dyn (1024 * j + x.2) (.uniform .occupied)
      dynCollapsed := sinsert w.dynCollapsed (1024 * j + x.2)
      cntDyn := w.cntDyn + 1 }

/-- A static tile's body written, seeking storage in the share when it is mixed (03 R126, R138, R144). -/
def World.storeStatic (w : World) (share i : Nat) (b : TileBody) : World :=
  let w1 := w.setTile i { w.tile i with body := if b.isMixed then .uniform .free else b }
  if ! b.isMixed then w1
  else if w1.mixedList.length < share then w1.setTile i { w1.tile i with body := b }
  else
    let v := topRank (none, i) w1.mixedList
    if v = (none, i) then w1.collapse (none, i) else (w1.collapse v).setTile i { w1.tile i with body := b }

/-- A dynamic tile's body written, seeking storage likewise; a collapsed tile stays OCCUPIED (03 R126, R127). -/
def World.storeDyn (w : World) (share key : Nat) (b : TileBody) : World :=
  if w.dynCollapsed.contains key then w
  else if ! b.isMixed || (match mfind w.dyn key with | some x => x.isMixed | none => false) then { w with dyn := mput w.dyn key b }
  else if w.mixedList.length < share then { w with dyn := mput w.dyn key b }
  else
    let me := (some (key / 1024), key % 1024)
    let v := topRank me w.mixedList
    if v = me then w.collapse me else { w.collapse v with dyn := mput (w.collapse v).dyn key b }

/-! ### Records (03 R117, R118, R124) -/

/-- MIXED_TILE (03 R117). -/
def World.applyMixed (w : World) (share tx ty : Nat) (data : List Byte) : World :=
  w.storeStatic share (tileIx tx ty) (bodyOf (tileWords data))

/-- UNIFORM_TILES (03 R117). -/
def World.applyUniform (w : World) (l : List Nat) (v : Voxel) : World :=
  l.foldl (fun w i => w.setTile i { w.tile i with body := .uniform v }) w

/-- REGION (03 R117). -/
def World.applyRegion (w : World) (l : List Nat) (c : BitVec 3) : World :=
  l.foldl (fun w i => w.setTile i { w.tile i with cls := c }) w

/-- Where a tile goes under a scroll; none when it leaves the grid (03 R118). -/
def scrollTile (dx dy : Int) (i : Nat) : Option Nat :=
  let x : Int := ((i % 32 : Nat) : Int) - dx
  let y : Int := ((i / 32 : Nat) : Int) - dy
  if 0 ≤ x ∧ x < 32 ∧ 0 ≤ y ∧ y < 32 then some (tileIx x.toNat y.toNat) else none

/-- An agent whose marks have moved with a scroll, for the lookup of R207 (03 R118; 05 R207). -/
def Agent.moved (a : Agent) (dx dy : Int) : Agent :=
  { a with modes := a.modes.map fun m => m.map fun p => (p.1 - 1024 * dx, p.2 - 1024 * dy) }

/-- SCROLL: static tiles with their classes, dynamic tiles and collapsed tiles move, the marks of the agents applied with them;
what enters is UNKNOWN in class 0 or empty (03 R118, R119). -/
def World.applyScroll (w : World) (dx dy : Int) : World :=
  let mv (p : Nat) : Option Nat := (scrollTile dx dy (p % 1024)).map fun i => 1024 * (p / 1024) + i
  { w with
    stat := w.stat.foldl (fun m p => match scrollTile dx dy p.1 with | some i => mset Tile.default m i p.2 | none => m) []
    dyn := w.dyn.foldl (fun m p => match mv p.1 with | some i => mput m i p.2 | none => m) []
    dynCollapsed := w.dynCollapsed.foldl (fun m p => match mv p with | some i => sinsert m i | none => m) []
    agents := w.agents.map fun a => a.moved dx dy
    scrollX := w.scrollX + dx
    scrollY := w.scrollY + dy }

/-! ### The exact rasteriser (03 R121 to R125) -/

/-- A piece of a path: a segment between two grid points; a point when they are equal. -/
structure Piece where
  x0 : Int
  y0 : Int
  x1 : Int
  y1 : Int
deriving DecidableEq, Repr

/-- The least square distance of a point and a closed box. -/
def boxDist2 (x y xlo xhi ylo yhi : Int) : Int :=
  let dx := max 0 (max (xlo - x) (x - xhi))
  let dy := max 0 (max (ylo - y) (y - yhi))
  dx * dx + dy * dy

/-- The closed square of a cell meets a piece inflated by `r` units, in exact integers (03 R101, R123). -/
def Piece.meetsCell (p : Piece) (r : Nat) (cx cy : Nat) : Bool :=
  let xlo : Int := 16 * ((cx : Int) - 1024)
  let xhi := xlo + 16
  let ylo : Int := 16 * ((cy : Int) - 1024)
  let yhi := ylo + 16
  let dx := p.x1 - p.x0
  let dy := p.y1 - p.y0
  let len2 := dx * dx + dy * dy
  let r2 : Int := (r : Int) * (r : Int)
  let corners : List (Int × Int) := [(xlo, ylo), (xlo, yhi), (xhi, ylo), (xhi, yhi)]
  let cross (c : Int × Int) : Int := dx * (c.2 - p.y0) - dy * (c.1 - p.x0)
  let dot (c : Int × Int) : Int := dx * (c.1 - p.x0) + dy * (c.2 - p.y0)
  boxDist2 p.x0 p.y0 xlo xhi ylo yhi ≤ r2 || boxDist2 p.x1 p.y1 xlo xhi ylo yhi ≤ r2
    || (min p.x0 p.x1 ≤ xhi && xlo ≤ max p.x0 p.x1 && min p.y0 p.y1 ≤ yhi && ylo ≤ max p.y0 p.y1
        && corners.any (fun c => 0 ≤ cross c) && corners.any (fun c => cross c ≤ 0))
    || corners.any (fun c => 0 < dot c && dot c < len2 && cross c * cross c ≤ r2 * len2)

/-- Pieces of one mode with the closed spans of time they hold; none for no bound (03 R122). -/
def Agent.pieces (a : Agent) (wps : List (Int × Int)) : List (Option Int × Option Int × Piece) :=
  let at' (i : Nat) : Int × Int := lget (0, 0) wps i
  let tm (i : Nat) : Int := a.t0Us + (i * a.wpDtMs * 1000 : Nat)
  let pt (i : Nat) : Piece := ⟨(at' i).1, (at' i).2, (at' i).1, (at' i).2⟩
  (none, some (tm 0), pt 0) :: (some (tm 15), none, pt 15)
    :: (List.range 15).map fun k => (some (tm k), some (tm (k + 1)), ⟨(at' k).1, (at' k).2, (at' (k + 1)).1, (at' (k + 1)).2⟩)

/-- Pieces of an agent whose closed span meets the half-open interval of a slice (03 R109, R123). -/
def Agent.piecesIn (a : Agent) (j sliceMs : Nat) : List Piece :=
  let lo : Int := (j * sliceMs * 1000 : Nat)
  let hi : Int := ((j + 1) * sliceMs * 1000 : Nat)
  a.modes.flatMap fun m => ((a.pieces m).filter fun p =>
    (match p.1 with | none => true | some b => b < hi) && (match p.2.1 with | none => true | some e => lo ≤ e)).map (·.2.2)

/-- Pieces of an agent's envelope: those whose span begins before the horizon (03 R125). -/
def Agent.envelopePieces (a : Agent) (horizonMs : Nat) : List Piece :=
  a.modes.flatMap fun m => ((a.pieces m).filter fun p =>
    match p.1 with | none => true | some b => b < (horizonMs * 1000 : Nat)).map (·.2.2)

/-- Inflation of an agent over `ms`: RADIUS + ⌈GROWTH × ms / 1,000⌉ (03 R123, R125). -/
def Agent.inflation (a : Agent) (ms : Nat) : Nat := a.radius + cdiv (a.growth * ms) 1000

/-- The mask of voxels marked present in an agent's bands (03 R104, R105). -/
def Agent.bandMask (a : Agent) : Nat := nsum ((List.range (a.bandHi + 1 - a.bandLo)).map fun k => 4 ^ (a.bandLo + k))

/-- Cells of the grid along one axis that a span of units, inflated, may meet. -/
def cellSpan (lo hi : Int) : Nat × Nat :=
  ((max 0 ((lo - 1) / 16 + 1024)).toNat, (min 2048 (max 0 (hi / 16 + 1025))).toNat)

/-- Tiles an inflated piece may meet. -/
def Piece.tiles (p : Piece) (r : Nat) : List Nat :=
  let x := cellSpan (min p.x0 p.x1 - r) (max p.x0 p.x1 + r)
  let y := cellSpan (min p.y0 p.y1 - r) (max p.y0 p.y1 + r)
  if x.1 < x.2 ∧ y.1 < y.2 then
    rectTiles (x.1 / 64) (y.1 / 64) ((x.2 - 1) / 64) ((y.2 - 1) / 64)
  else []

/-- The words of a dynamic tile with the cells that meet a list of pieces marked. -/
def markWords (old : Nat → Nat) (pieces : List Piece) (r mask tile : Nat) : List Nat :=
  (List.range 4096).map fun i =>
    let cx := 64 * (tile % 32) + i % 64
    let cy := 64 * (tile / 32) + i / 64
    if pieces.any fun p => p.meetsCell r cx cy then old i ||| mask else old i

/-- Marks of a list of pieces in one slice (03 R123, R141). -/
def World.markSlice (w : World) (share j : Nat) (pieces : List Piece) (r mask : Nat) : World :=
  let tiles := pieces.foldl (fun l p => (p.tiles r).foldl sinsert l) []
  tiles.foldl (fun w i =>
    let key := 1024 * j + i
    let old (c : Nat) : Nat := match mfind w.dyn key with | some b => b.cell c | none => 0
    let ws := markWords old pieces r mask i
    if ws.all (· = 0) then w else w.storeDyn share key (bodyOf ws)) w

/-- Agent `ix` of the frame marked in every slice: whole pieces for an agent of index below 1,024, else its envelope in
every slice (03 R123 to R125). -/
def World.rasterise (w : World) (share sliceMs sliceCount ix : Nat) (a : Agent) : World :=
  let w' := (List.range sliceCount).foldl (fun w j =>
    if ix < 1024 then w.markSlice share j (a.piecesIn j sliceMs) (a.inflation ((j + 1) * sliceMs)) a.bandMask
    else w.markSlice share j (a.envelopePieces (sliceMs * sliceCount)) (a.inflation (sliceMs * sliceCount)) a.bandMask) w
  { w' with marked := sinsert w'.marked ix }

/-! ### The seal (01 R34; 03 R119, R128 to R133; 11 R434) -/

/-- Tiles an unapplied occupancy record names (03 R130). -/
def Record.names : Record → List Nat
  | .mixedTile tx ty _ => [tileIx tx ty]
  | .uniformTiles x0 y0 x1 y1 _ => rectTiles x0 y0 x1 y1
  | .region x0 y0 x1 y1 _ => rectTiles x0 y0 x1 y1
  | .scroll .. => List.range 1024
  | .agentList _ => []

/-- The record is an agent list with an agent. -/
def Record.isAgents : Record → Bool
  | .agentList l => l ≠ []
  | _ => false

/-- What a check reads of the world at the seal. `due` are the accepted records of the frame still unapplied, `unfetched`
tells of a command with an earlier doorbell still unfetched (11 R434). -/
def World.sealed (w : World) (due : List Record) (unfetched : Bool) : Sealed :=
  { stat := w.stat
    dyn := w.dyn
    collapsed := w.dynCollapsed
    lateTiles := due.foldl (fun l r => sunion l r.names) []
    allOccupied := unfetched || due.any Record.isAgents
    agents := w.agents
    envelopes := (List.range w.agents.length).filter fun i => ! w.marked.contains i }

/-- Work was late at the seal (03 R133). -/
def Sealed.late (v : Sealed) : Bool := v.lateTiles ≠ [] || v.allOccupied || v.envelopes ≠ []

/-! ### What a check reads (03 R107, R108, R130 to R132) -/

/-- The cells of one tile that a box covers: the tile, and the first and last cell of each axis within it. -/
structure TilePart where
  tile : Nat
  x0 : Nat
  x1 : Nat
  y0 : Nat
  y1 : Nat
deriving DecidableEq, Repr

/-- The tiles an axis meets from cell `lo` to cell `hi`, each with its first and last cell there. -/
def axisParts (lo hi : Nat) : List (Nat × Nat × Nat) :=
  (List.range (hi / 64 + 1 - lo / 64)).map fun k =>
    let a := lo / 64 + k
    (a, max lo (64 * a) - 64 * a, min hi (64 * a + 63) - 64 * a)

/-- A rectangle of cells by tile. -/
def tileParts (x0 x1 y0 y1 : Nat) : List TilePart :=
  (axisParts y0 y1).flatMap fun y => (axisParts x0 x1).map fun x => ⟨tileIx x.1 y.1, x.2.1, x.2.2, y.2.1, y.2.2⟩

/-- A part covers the cell of index `c` of its tile. -/
def TilePart.covers (p : TilePart) (c : Nat) : Bool :=
  p.x0 ≤ c % 64 && c % 64 ≤ p.x1 && p.y0 ≤ c / 64 && c / 64 ≤ p.y1

/-- The cells of a part, by their coordinates in the grid. -/
def TilePart.cells (p : TilePart) : List (Nat × Nat) :=
  (List.range (p.y1 + 1 - p.y0)).flatMap fun i => (List.range (p.x1 + 1 - p.x0)).map fun k =>
    (64 * (p.tile % 32) + p.x0 + k, 64 * (p.tile / 32) + p.y0 + i)

/-- Some word of the part meets `f`, which no FREE word meets. -/
def TileBody.anyIn (b : TileBody) (p : TilePart) (f : Nat → Bool) : Bool :=
  match b with
  | .uniform v => f v.word
  | .mixed ws => ws.any fun w => p.covers w.1 && f w.2.toNat

/-- A word is OCCUPIED in one of the bands (03 R104). -/
def wordOccupied (bands : List Nat) (w : Nat) : Bool := bands.any fun b => bits w (2 * b + 1) (2 * b) = 1

/-- A word is UNKNOWN in one of the bands that its region class does not free (03 R107). -/
def wordUnknown (bands : List Nat) (free w : Nat) : Bool :=
  bands.any fun b => 2 ≤ bits w (2 * b + 1) (2 * b) && ! bit free b

/-- An agent's envelope meets a cell of the part in one of the bands (03 R125, R131). Such a mark stands in the sealed view alone and takes
no pool storage. DESIGN CHOICE; log 111. -/
def Sealed.inEnvelope (v : Sealed) (horizonMs : Nat) (bands : List Nat) (p : TilePart) : Bool :=
  v.envelopes.any fun k =>
    match v.agents[k]? with
    | some a => bands.any (fun b => a.bandLo ≤ b && b ≤ a.bandHi)
        && p.cells.any fun c => (a.envelopePieces horizonMs).any fun q => q.meetsCell (a.inflation horizonMs) c.1 c.2
    | none => false

/-- The tile's dynamic body in slice `j` is OCCUPIED in the part and bands. -/
def Sealed.dynOccupied (v : Sealed) (j : Nat) (bands : List Nat) (p : TilePart) : Bool :=
  match mfind v.dyn (1024 * j + p.tile) with
  | some b => b.anyIn p (wordOccupied bands)
  | none => false

/-- Some voxel of the part is OCCUPIED in slice `j` (03 R108, R130 to R132). -/
def Sealed.occupied (v : Sealed) (horizonMs j : Nat) (bands : List Nat) (p : TilePart) : Bool :=
  bands ≠ [] && (v.allOccupied || v.lateTiles.contains p.tile || v.dynOccupied j bands p || v.inEnvelope horizonMs bands p
    || (mget Tile.default v.stat p.tile).body.anyIn p (wordOccupied bands))

/-- Some voxel of the part is statically UNKNOWN and not freed by its class (03 R107, R108). -/
def Sealed.unknown (v : Sealed) (classFree : Nat → Nat) (bands : List Nat) (p : TilePart) : Bool :=
  let t := mget Tile.default v.stat p.tile
  t.body.anyIn p (wordUnknown bands (classFree t.cls.toNat))

/-- An agent's mark covers some voxel of the part in slice `j`, apart from tiles made uniform OCCUPIED (05 R204, R207). -/
def Sealed.agentMark (v : Sealed) (horizonMs j : Nat) (bands : List Nat) (p : TilePart) : Bool :=
  (! v.collapsed.contains (1024 * j + p.tile) && v.dynOccupied j bands p) || v.inEnvelope horizonMs bands p

end Sys2Proof.Machine
end

