-- ==== Sys2Proof/Machine/Geometry.lean ====
section
/-! DEFINITION. The exact motion of a candidate (04 R176, 05 R198) in integers, and its pose at a time or along its path:
times in µs, curvatures in 1/1,024 m⁻¹, accelerations in mm/s². -/
namespace Sys2Proof.Machine
open Sys2Proof

/-! ### Pieces of a declared geometry -/

/-- A piece: its span in µs, linear curvature and acceleration, crab angle in bins, and the speed at its start in units of
1/2,000,000 mm/s. -/
structure Seg where
  t0 : Int
  t1 : Int
  k0 : Int
  k1 : Int
  a0 : Int
  a1 : Int
  crab : Int
  n0 : Int
deriving DecidableEq, Repr

/-- A motion: its pieces, the piece in which it comes to rest if one does, and its terminal extension. The speed at the
end of the declared geometry is `endN / endD` in mm/s. -/
structure Motion where
  segs : List Seg
  stopSeg : Option Nat
  tEnd : Int
  endN : Int
  endD : Nat
  kEnd : Int
  crabEnd : Int
  decel : Nat
deriving DecidableEq, Repr

/-- Length of a piece. -/
def Seg.len (g : Seg) : Int := g.t1 - g.t0

/-- Speed of a piece at `u` µs after its start, rest left aside, times 2,000,000 × its length, in mm/s (04 R176). -/
def Seg.speed (g : Seg) (u : Int) : Int := g.n0 * g.len + 2 * g.a0 * u * g.len + (g.a1 - g.a0) * u * u

/-- The speed has reached 0 at or before `u` µs after the piece's start. At rest at the start, the vehicle stays there
when its acceleration would turn the speed negative at once. DEDUCED; log 15. -/
def Seg.restBy (g : Seg) (u : Int) : Bool :=
  if g.n0 = 0 then
    decide (g.a0 < 0) || (decide (g.a0 = 0) && decide (g.a1 < 0))
      || (decide (0 < g.a0) && decide (0 < u) && decide (g.speed u ≤ 0))
  else
    decide (g.speed u ≤ 0)
      || (decide (g.a0 < 0) && decide (g.a0 < g.a1) && decide (- g.a0 * g.len ≤ (g.a1 - g.a0) * u)
          && decide (g.n0 * (g.a1 - g.a0) ≤ g.a0 * g.a0 * g.len))

/-- Pieces laid end to end from a time and a speed, with the rest found: duration in µs, κ at both ends, a at both ends,
crab angle. -/
def layPieces : List (Nat × Int × Int × Int × Int × Int) → Int → Int → List Seg
  | [], _, _ => []
  | (d, k0, k1, a0, a1, c) :: r, t, n =>
    let g : Seg := ⟨t, t + d, k0, k1, a0, a1, c, n⟩
    g :: layPieces r (t + d) (if g.restBy g.len then 0 else n + (a0 + a1) * d)

/-- The motion of declared pieces from a start speed in mm/s, with a terminal extension at `decel` (04 R176). -/
def motionOf (ps : List (Nat × Int × Int × Int × Int × Int)) (speed decel : Nat) : Motion :=
  let segs := layPieces ps 0 (2000000 * (speed : Int))
  let stopSeg := segs.findIdx? fun g => g.restBy g.len
  match segs.getLast? with
  | none => ⟨[], none, 0, 2000000 * (speed : Int), 2000000, 0, 0, decel⟩
  | some g =>
    ⟨segs, stopSeg, g.t1, if stopSeg.isSome then 0 else g.n0 + (g.a0 + g.a1) * g.len, 2000000, g.k1, g.crab, decel⟩

/-- The motion of a stop that brakes at `decel` from an exact speed in mm/s, curvature aside (05 R209, R210). -/
def stopMotion (speed : Int × Nat) (decel : Nat) : Motion :=
  ⟨[], none, 0, speed.1, speed.2, 0, 0, decel⟩

/-- Signed values of a primitive's fields, as a piece (04 R151, R152). -/
def Prim.piece (p : Prim) : Nat × Int × Int × Int × Int × Int :=
  (1000 * p.durationMs.toNat, p.kappa0.toInt, p.kappa1.toInt, p.acc0.toInt, p.acc1.toInt, p.crab.toInt)

/-- Pieces of a chain of primitive indices. -/
def chainPieces (prims : List Prim) (geom : List (BitVec 16)) (count : Nat) : List (Nat × Int × Int × Int × Int × Int) :=
  (geom.take count).filterMap fun i => (prims[i.toNat]?).map Prim.piece

/-- Pieces of a CONTROL geometry: eleven intervals between its twelve control points, at a crab angle of 0 (04 R174). -/
def controlPieces (geom : List (BitVec 16)) (dtMs : Nat) : List (Nat × Int × Int × Int × Int × Int) :=
  (List.range 11).map fun i =>
    let f (k : Nat) : Int := (lget 0 geom k).toInt
    (1000 * dtMs, f (2 * i), f (2 * i + 2), f (2 * i + 1), f (2 * i + 3), 0)

/-- The declared pieces of a record's own geometry. -/
def Cand.pieces (c : Cand) (prims : List Prim) : List (Nat × Int × Int × Int × Int × Int) :=
  if c.kind = 0 then chainPieces prims c.geom c.count.toNat else controlPieces c.geom c.param.toNat

/-- The motion of a record that is no stop (04 R176). -/
def Cand.motion (c : Cand) (prims : List Prim) (decel : Nat) : Motion := motionOf (c.pieces prims) c.speed.toNat decel

/-- The motion of the plan that a stop copies, from the plan's start (04 R174, 05 R210). -/
def Cand.planMotion (c : Cand) (prims : List Prim) : Motion :=
  motionOf (if c.planKind then controlPieces c.geom c.planParam.toNat else chainPieces prims c.geom c.count.toNat)
    c.speed.toNat c.planDecel.toNat

/-! ### Rest, curvature and acceleration over a span (05 R198, R199) -/

/-- The vehicle is at rest for good at time `t` (04 R176). -/
def Motion.restAt (m : Motion) (t : Int) : Bool :=
  match m.stopSeg with
  | some i =>
    match m.segs[i]? with
    | some g => g.t1 ≤ t || (g.t0 ≤ t && g.restBy (t - g.t0))
    | none => false
  | none => m.tEnd ≤ t && decide (m.endN * 1000000 ≤ (m.decel : Int) * (t - m.tEnd) * (m.endD : Int))

/-- Floor of the least and ceiling of the greatest of a list of bounds; zero for none. -/
def hullOf (l : List (Int × Int)) : Int × Int :=
  match l with
  | [] => (0, 0)
  | x :: r => r.foldl (fun b y => (min b.1 y.1, max b.2 y.2)) x

/-- Floor and ceiling of a fraction with a positive denominator. -/
def floorCeil (n d : Int) : Int × Int := (n / d, - ((-n) / d))

/-- Pieces a closed span meets, with the part of each. -/
def Motion.meets (m : Motion) (lo hi : Int) : List (Nat × Seg × Int × Int) :=
  ((List.range m.segs.length).zip m.segs).filterMap fun p =>
    if p.2.t0 ≤ hi ∧ lo ≤ p.2.t1 then some (p.1, p.2, max lo p.2.t0 - p.2.t0, min hi p.2.t1 - p.2.t0) else none

/-- Bounds of κ over a closed span; at a jump both one-sided values count. DEDUCED; log 16. -/
def Motion.kappaHull (m : Motion) (lo hi : Int) : Int × Int :=
  hullOf ((m.meets lo hi).flatMap (fun p =>
      let g := p.2.1
      let at' (u : Int) := floorCeil (g.k0 * g.len + (g.k1 - g.k0) * u) g.len
      [at' p.2.2.1, at' p.2.2.2])
    ++ if m.tEnd ≤ hi then [(m.kEnd, m.kEnd)] else [])

/-- Bounds of the acceleration just before a piece comes to rest: −√(a0² − 2·slope·v0), rounded outward. -/
def Seg.accAtRest (g : Seg) : Int × Int :=
  let x := (g.a0 * g.a0 * g.len - (g.a1 - g.a0) * g.n0).toNat
  let l := g.len.toNat
  let r := isqrt (x / l)
  let up := if r * r * l = x then r else r + 1
  (- (up : Int), - (r : Int))

/-- Bounds of a over a closed span, with a taken as 0 at rest; at a jump both one-sided values count. DEDUCED; log 16. -/
def Motion.accHull (m : Motion) (lo hi : Int) : Int × Int :=
  hullOf ((m.meets lo hi).flatMap (fun p =>
      let g := p.2.1
      let at' (u : Int) := floorCeil (g.a0 * g.len + (g.a1 - g.a0) * u) g.len
      match m.stopSeg with
      | some i =>
        if i < p.1 then [(0, 0)]
        else if p.1 = i then
          if g.restBy p.2.2.1 then [(0, 0)]
          else if g.restBy p.2.2.2 then [at' p.2.2.1, g.accAtRest, (0, 0)]
          else [at' p.2.2.1, at' p.2.2.2]
        else [at' p.2.2.1, at' p.2.2.2]
      | none => [at' p.2.2.1, at' p.2.2.2])
    ++ if m.tEnd ≤ hi then
        (if m.restAt (max lo m.tEnd) then [] else [(- (m.decel : Int), - (m.decel : Int))])
          ++ (if m.restAt hi then [(0, 0)] else [])
      else [])

/-- Crab angles of the pieces a closed span meets, in bins, the final one in the terminal extension (05 R199). -/
def Motion.crabHull (m : Motion) (lo hi : Int) : Int × Int :=
  hullOf ((m.meets lo hi).map (fun p => (p.2.1.crab, p.2.1.crab)) ++ if m.tEnd ≤ hi then [(m.crabEnd, m.crabEnd)] else [])

/-- End of the terminal extension: the least time in whole µs at which the declared geometry has ended and the vehicle is
at rest. -/
def Motion.endUs (m : Motion) : Int :=
  if m.stopSeg.isSome then m.tEnd else m.tEnd + iceil (m.endN * 1000000) (m.endD * m.decel)

/-! ### Exact speed, path and acceleration at a time -/

/-- A fraction as an integer over a natural denominator, in lowest terms. -/
def frac (n : Int) (d : Nat) : Int × Nat := let g := Nat.gcd n.natAbs d; if g = 0 then (0, 1) else (n / (g : Int), d / g)

/-- Sum of two fractions. -/
def fracAdd (x y : Int × Nat) : Int × Nat := frac (x.1 * (y.2 : Int) + y.1 * (x.2 : Int)) (x.2 * y.2)

/-- The piece that a time falls in; at a boundary the later one. -/
def Motion.segAt (m : Motion) (t : Int) : Option Seg := m.segs.find? fun g => g.t0 ≤ t && t < g.t1

/-- Exact speed at time `t`, mm/s (04 R176). -/
def Motion.speedAt (m : Motion) (t : Int) : Int × Nat :=
  if m.restAt t then (0, 1)
  else
    match m.segAt t with
    | some g => frac (g.speed (t - g.t0)) (2000000 * g.len.toNat)
    | none => fracAdd (frac m.endN m.endD) (frac (- ((m.decel : Int) * (t - m.tEnd))) 1000000)

/-- Exact acceleration at time `t`, mm/s²; at a boundary that of the later piece, 0 at rest. DEDUCED; log 16. -/
def Motion.accAt (m : Motion) (t : Int) : Int × Nat :=
  if m.restAt t then (0, 1)
  else
    match m.segAt t with
    | some g => frac (g.a0 * g.len + (g.a1 - g.a0) * (t - g.t0)) g.len.toNat
    | none => (- (m.decel : Int), 1)

/-- Path within a piece up to `u` µs, mm: the integral of the speed. -/
def Seg.arc (g : Seg) (u : Int) : Int × Nat :=
  frac (6 * g.n0 * g.len * u + 6 * g.a0 * g.len * u * u + 2 * (g.a1 - g.a0) * u * u * u) (12000000000000 * g.len.toNat)

/-- The last whole µs at or before `hi` at which the vehicle is not yet at rest, by bisection from `lo`, where it moves. -/
def Motion.lastMoving (m : Motion) : Nat → Int → Int → Int
  | 0, lo, _ => lo
  | f + 1, lo, hi =>
    if hi ≤ lo + 1 then lo
    else let mid := (lo + hi) / 2; if m.restAt mid then m.lastMoving f lo mid else m.lastMoving f mid hi

/-- The last whole µs of motion at or before `t`; 0 where the vehicle never moves. -/
def Motion.movingTo (m : Motion) (t : Int) : Int :=
  if m.restAt t then (if m.restAt 0 then 0 else m.lastMoving 64 0 t) else t

/-- Path covered from the start to time `t`, mm; the part of a µs before rest is left out (log 14). -/
def Motion.arcAt (m : Motion) (t : Int) : Int × Nat :=
  let t' := m.movingTo t
  let inSegs := (m.segs.filter fun g => g.t0 < t').foldl (fun s g => fracAdd s (g.arc (min t' g.t1 - g.t0))) (0, 1)
  if t' ≤ m.tEnd then inSegs
  else
    let u := t' - m.tEnd
    fracAdd inSegs (fracAdd (frac (m.endN * u) (m.endD * 1000000)) (frac (- ((m.decel : Int) * u * u)) 2000000000000))

/-- Path of a stop that brakes at `decel` from an exact speed, over `us` µs, mm; and the speed after it (05 R783). -/
def brake (speed : Int × Nat) (decel us : Nat) : (Int × Nat) × (Int × Nat) :=
  let d : Int := decel
  if d * (us : Int) * (speed.2 : Int) ≤ 1000000 * speed.1 then
    (fracAdd (frac (speed.1 * us) (speed.2 * 1000000)) (frac (- (d * us * us)) 2000000000000),
      fracAdd speed (frac (- (d * us)) 1000000))
  else (frac (speed.1 * speed.1) (2 * decel * speed.2 * speed.2), (0, 1))

/-! ### The start pose (04 R149), numerically -/

/-- 2^64, the fixed point of the numeric pose. -/
def fx : Int := 18446744073709551616
/-- ⌊2π × 2^64⌋. -/
def twoPi : Int := 115904311329233965478

/-- Terms of a power series in `x²`, from term `t` of index `k`, alternating. -/
def cosGo (x2 : Int) : Nat → Int → Int → Int
  | 0, _, _ => 0
  | f + 1, t, k => t + cosGo x2 f (- (t * x2 / fx / (k * (k + 1)))) (k + 2)

/-- cos of an angle in 2^(−64) turn, in 2^(−64) (log 14). -/
def cosTurn (a : Int) : Int :=
  let b := a % fx
  let c := if 2 * b > fx then fx - b else b
  let d := if 4 * c > fx then fx / 2 - c else c
  let x := d * twoPi / fx
  let v := cosGo (x * x / fx) 16 fx 1
  if 4 * c > fx then -v else v

/-- sin of an angle in 2^(−64) turn. -/
def sinTurn (a : Int) : Int := cosTurn (a - fx / 4)

/-- A numeric pose: x and y in mm × 2^64, heading in 2^(−64) turn. -/
structure Pose where
  x : Int
  y : Int
  h : Int
deriving DecidableEq, Repr

/-- Speed in mm/s × 2^64 at time `t`, from the numerators alone. -/
def Motion.fxSpeed (m : Motion) (t : Int) : Int := let s := m.speedAt t; s.1 * fx / (s.2 : Int)

/-- Rate of heading in turn/s × 2^64 at time `t` in piece `g`, or in the extension. -/
def Motion.fxRate (m : Motion) (g : Option Seg) (t : Int) : Int :=
  let v := m.fxSpeed t
  match g with
  | some g => v * (g.k0 * g.len + (g.k1 - g.k0) * (t - g.t0)) / (g.len * 1024000) * fx / twoPi
  | none => v * m.kEnd / 1024000 * fx / twoPi

/-- A stretch from `a` to `b` µs within one piece by `n` Simpson steps (log 14). -/
def Motion.walk (m : Motion) (g : Option Seg) (crab : Int) (a b : Int) (n : Nat) (p : Pose) : Pose :=
  (List.range n).foldl (fun p (i : Nat) =>
    let ta := a + (b - a) * i / n
    let tb := a + (b - a) * ((i + 1 : Nat) : Int) / n
    let tm := (ta + tb) / 2
    let dt := tb - ta
    let r0 := m.fxRate g ta
    let rm := m.fxRate g tm
    let r1 := m.fxRate g tb
    let hm := p.h + (5 * r0 + 8 * rm - r1) * dt / 24000000
    let h1 := p.h + (r0 + 4 * rm + r1) * dt / 6000000
    let c := crab * fx / 64
    let part (f : Int → Int) : Int :=
      (m.fxSpeed ta * f (p.h + c) + 4 * m.fxSpeed tm * f (hm + c) + m.fxSpeed tb * f (h1 + c)) / fx * dt / 6000000
    ⟨p.x + part cosTurn, p.y + part sinTurn, h1⟩) p

/-- The pose at time `t` of a motion from a start pose (log 14). -/
def Motion.poseAt (m : Motion) (p : Pose) (t : Int) : Pose :=
  let t' := m.movingTo t
  let p1 := (m.segs.filter fun g => g.t0 < t').foldl (fun p g => m.walk (some g) g.crab g.t0 (min t' g.t1) 128 p) p
  if t' ≤ m.tEnd then p1 else m.walk none m.crabEnd m.tEnd t' 128 p1

/-- The pose at a path length of `arc` mm from a pose, straight or on a circle of curvature `kappa` (01 R49). -/
def onward (p : Pose) (kappa crab : Int) (arc : Int × Nat) : Pose :=
  let s := arc.1 * fx / (arc.2 : Int)
  let turn := s * kappa / 1024000 * fx / twoPi
  let n : Nat := 128
  (List.range n).foldl (fun q _ =>
    let c := crab * fx / 64
    let dh := turn / n
    let part (f : Int → Int) : Int := (f (q.h + c) + 4 * f (q.h + dh / 2 + c) + f (q.h + dh + c)) * (s / n) / (6 * fx)
    ⟨q.x + part cosTurn, q.y + part sinTurn, q.h + dh⟩) p

/-- One fraction is at most another. -/
def fracLe (x y : Int × Nat) : Bool := decide (x.1 * (y.2 : Int) ≤ y.1 * (x.2 : Int))

/-- The last whole µs at which the path covered is at most `arc`, by bisection. -/
def Motion.timeOfArc (m : Motion) (arc : Int × Nat) : Nat → Int → Int → Int
  | 0, lo, _ => lo
  | f + 1, lo, hi =>
    if hi ≤ lo + 1 then lo
    else let mid := (lo + hi) / 2; if fracLe (m.arcAt mid) arc then m.timeOfArc arc f mid hi else m.timeOfArc arc f lo mid

/-- The pose at a path length along a motion's path, which goes on beyond its end (01 R47, R49). -/
def Motion.poseAtArc (m : Motion) (p : Pose) (arc : Int × Nat) : Pose :=
  let last := m.endUs
  let total := m.arcAt last
  if fracLe total arc then
    onward (m.poseAt p last) m.kEnd m.crabEnd (fracAdd arc (frac (- total.1) total.2))
  else m.poseAt p (m.timeOfArc arc 40 0 last)

/-- Rounding of `n / d` to the nearest integer, a tie going to the even one (02 R82). -/
def rne (n : Int) (d : Nat) : Int :=
  let q := n / (d : Int)
  let r2 := 2 * (n - q * (d : Int))
  if r2 < (d : Int) then q else if (d : Int) < r2 then q + 1 else if q % 2 = 0 then q else q + 1

/-- Saturation to a signed 16-bit field. -/
def satI16 (x : Int) : Int := max (-32768) (min 32767 x)

end Sys2Proof.Machine
end

