-- ==== Sys2Proof/Machine/Badger.lean ====
section
/-! DEFINITION. Badger (05): the footprint and its class, the enclosure of a candidate's motion in integer intervals, the
findings of a slice and the verdict of a check. -/
namespace Sys2Proof.Machine
open Sys2Proof

/-! ### Footprint (05 R194 to R196, R221) -/

/-- A committed footprint. -/
structure Foot where
  front : Nat
  rear : Nat
  half : Nat
  bandLo : Nat
  bandHi : Nat
  hitId : Bool
deriving DecidableEq, Repr

/-- Offset of a per-tenant register of the CHECK, LATTICE and WAVEFRONT pages. -/
def perTenant (t : Fin 16) (off : Nat) : Nat := 0x200 + 0x20 * t.val + off

/-- The footprint of two register words (05 R221). -/
def footOf (a b : Nat) : Foot :=
  { front := bits a 15 0, rear := bits a 31 16, half := bits b 15 0, bandLo := bits b 19 16, bandHi := bits b 23 20,
    hitId := bit b 24 }

/-- A tenant's committed footprint. -/
def State.foot (s : State) (t : Fin 16) : Foot :=
  footOf (s.live 0x09 (perTenant t 0x00)) (s.live 0x09 (perTenant t 0x04))

/-- Square of the reach (05 R195). -/
def Foot.reach2 (f : Foot) : Nat := max f.front f.rear ^ 2 + f.half ^ 2

/-- The class of a footprint, 0 S to 3 XL; none above 8,000 mm (05 R195). -/
def Foot.class? (f : Foot) : Option Nat :=
  if f.reach2 ≤ 1500 ^ 2 then some 0 else if f.reach2 ≤ 4000 ^ 2 then some 1 else if f.reach2 ≤ 6000 ^ 2 then some 2
  else if f.reach2 ≤ 8000 ^ 2 then some 3 else none

/-- The class code of a footprint in force. -/
def Foot.cls (f : Foot) : Nat := f.class?.getD 3

/-- Box limit of a class, mm (05 R195). -/
def boxLimitMm : Nat → Nat
  | 0 => 5000
  | 1 => 10000
  | 2 => 14000
  | _ => 18000

/-- Cost of a slice in checker cycles, by class (05 R195). -/
def sliceCost : Nat → Nat
  | 0 => 7
  | 1 => 11
  | 2 => 17
  | _ => 25

/-- A corner offset in position units (05 R196). -/
def cornerUnits (cellCm mm : Nat) : Int := cdiv (mm * 65536) (10 * cellCm)

/-- The corners of a footprint (05 R196). -/
def Foot.corners (f : Foot) (cellCm : Nat) : List (Int × Int) :=
  let uf := cornerUnits cellCm f.front
  let ub := cornerUnits cellCm f.rear
  let w := cornerUnits cellCm f.half
  [(uf, w), (uf, -w), (-ub, w), (-ub, -w)]

/-- The box limit in position units (05 R196). -/
def Foot.limit (f : Foot) (cellCm : Nat) : Int := (boxLimitMm f.cls * 65536 / (10 * cellCm) : Nat)

/-! ### Intervals (05 R199 to R201) -/

/-- A closed interval of integers. -/
structure Iv where
  lo : Int
  hi : Int
deriving DecidableEq, Repr

/-- A point. -/
def Iv.pt (x : Int) : Iv := ⟨x, x⟩
/-- Sum. -/
def Iv.add (a b : Iv) : Iv := ⟨a.lo + b.lo, a.hi + b.hi⟩
/-- Difference. -/
def Iv.sub (a b : Iv) : Iv := ⟨a.lo - b.hi, a.hi - b.lo⟩
/-- Hull. -/
def Iv.hull (a b : Iv) : Iv := ⟨min a.lo b.lo, max a.hi b.hi⟩
/-- The operation ⊗: least and greatest of the four endpoint products. -/
def Iv.mul (a b : Iv) : Iv :=
  let p := [a.lo * b.hi, a.hi * b.lo, a.hi * b.hi]
  ⟨p.foldl min (a.lo * b.lo), p.foldl max (a.lo * b.lo)⟩
/-- Product with a known integer, taken exactly. -/
def Iv.scale (u : Int) (a : Iv) : Iv := Iv.mul (Iv.pt u) a
/-- Bounds divided by a positive integer, the lower downwards and the upper upwards. -/
def Iv.divOut (a : Iv) (d : Int) : Iv := ⟨a.lo / d, - ((- a.hi) / d)⟩
/-- The width. -/
def Iv.width (a : Iv) : Int := a.hi - a.lo

/-- 2^(−80) fixed point of the cosine table. -/
def cx : Int := 2 ^ 80
/-- ⌊2π × 2^80⌋. -/
def cxTwoPi : Int := 7595904947272677161575987

/-- Terms of the cosine series from term `t` of index `k`. -/
def cxGo (x2 : Int) : Nat → Int → Int → Int
  | 0, _, _ => 0
  | f + 1, t, k => t + cxGo x2 f (- (t * x2 / cx / (k * (k + 1)))) (k + 2)

/-- ⌊2^15 cos(2πk/4,096)⌋ and ⌈2^15 cos(2πk/4,096)⌉ of table point `k` (05 R201). No value but those at multiples of
1,024 lies within 2^(−40) of an integer, so 80 fraction bits decide both. -/
def cosBin (k : Int) : Iv :=
  let m := k % 4096
  let c := if 2048 < m then 4096 - m else m
  if c = 0 then Iv.pt 32768 else if c = 2048 then Iv.pt (-32768) else if c = 1024 then Iv.pt 0
  else
    let d := if 1024 < c then 2048 - c else c
    let x := d * cxTwoPi / 4096
    let v := cxGo (x * x / cx) 20 cx 1 * 32768 / cx
    if 1024 < c then ⟨-v - 1, -v⟩ else ⟨v, v + 1⟩

/-- A multiple of `m` congruent to `r` lies in the span `k0` to `k1`. -/
def hasBin (k0 k1 r m : Int) : Bool := decide ((k0 - r + m - 1) / m * m + r ≤ k1)

/-- cosb: bounds of the cosine over a heading interval (05 R201). -/
def cosb (t : Iv) : Iv :=
  let k0 := t.lo / 1048576
  let k1 := - ((- t.hi) / 1048576)
  if 4096 ≤ k1 - k0 + 1 then ⟨-32768, 32768⟩
  else
    let a := cosBin k0
    let b := cosBin k1
    ⟨if hasBin k0 k1 2048 4096 then -32768 else min a.lo b.lo, if hasBin k0 k1 0 4096 then 32768 else max a.hi b.hi⟩

/-! ### The interval state and a sub-step (05 R197 to R200, R203) -/

/-- The interval state Badger carries (05 R197). -/
structure BState where
  x : Iv
  y : Iv
  th : Iv
  v : Iv
deriving DecidableEq, Repr

/-- What a sub-step passes to its box test, with its arclength and the speed in the step. -/
structure Sweep where
  xs : Iv
  ys : Iv
  ts : Iv
  s : Iv
  vs : Iv
deriving DecidableEq, Repr

/-- K_lo and K_hi, the floor and ceiling of 2^32 / 2π (05 R200). -/
def kLo : Int := 683565275
/-- K_hi. -/
def kHi : Int := 683565276
/-- D (05 R199). -/
def dDen : Int := 6710886400

/-- Speeds in and after a sub-step: vs and ve (05 R199). -/
def stepSpeeds (v aa : Iv) (tau : Int) : Iv × Iv :=
  (⟨max 0 (v.lo + min 0 aa.lo * tau / 1000), v.hi - (- (max 0 aa.hi * tau)) / 1000⟩,
   ⟨max 0 (v.lo + aa.lo * tau / 1000), v.hi - (- (aa.hi * tau)) / 1000⟩)

/-- Arclength of a sub-step, in position units (05 R199). -/
def stepArc (vs : Iv) (tau cellCm : Int) : Iv :=
  ⟨vs.lo * tau * 65536 / (cellCm * 10000000000), - ((- (vs.hi * tau * 65536)) / (cellCm * 10000000000))⟩

/-- Turn of a sub-step (05 R199, R200). -/
def stepTurn (ka s : Iv) (cellCm : Int) : Iv :=
  let p := ka.mul s
  ⟨p.lo * cellCm * (if 0 ≤ p.lo then kLo else kHi) / dDen,
    - ((- (p.hi * cellCm * (if 0 ≤ p.hi then kHi else kLo))) / dDen)⟩

/-- Position and heading over an arclength at a curvature and a crab angle (05 R199). -/
def moveOver (st : BState) (ka s cr : Iv) (cellCm : Int) : BState × Iv × Iv × Iv :=
  let te := st.th.add (stepTurn ka s cellCm)
  let ts := st.th.hull te
  let dir := ts.add cr
  let x' := st.x.add ((s.mul (cosb dir)).divOut 32768)
  let y' := st.y.add ((s.mul (cosb (dir.sub (Iv.pt (2 ^ 30))))).divOut 32768)
  ({ st with x := x', y := y', th := te }, st.x.hull x', st.y.hull y', ts)

/-- A bound has left its holding width, or the heading spans 2^30 or more (05 R203). -/
def BState.diverged (b : BState) : Bool :=
  let in' (i : Iv) (lo hi : Int) := lo ≤ i.lo && i.hi ≤ hi
  ! (in' b.x (-(2 ^ 31)) (2 ^ 31 - 1) && in' b.y (-(2 ^ 31)) (2 ^ 31 - 1) && in' b.th (-(2 ^ 63)) (2 ^ 63 - 1)
      && in' b.v 0 (2 ^ 32 - 1)) || 2 ^ 30 ≤ b.th.width

/-- Interval of the crab angle in heading units (05 R199). -/
def crabIv (c : Int × Int) : Iv := ⟨c.1 * 67108864, c.2 * 67108864⟩

/-- Sub-step from `q·τ` of a motion; none when it diverges (05 R199, R203). -/
def subStep (m : Motion) (cellCm tau : Int) (st : BState) (q : Nat) : Option (BState × Sweep) :=
  let lo := q * tau
  let hi := lo + tau
  let v := if m.restAt lo then Iv.pt 0 else st.v
  let ka := m.kappaHull lo hi
  let aa := m.accHull lo hi
  let sp := stepSpeeds v ⟨aa.1, aa.2⟩ tau
  let s := stepArc sp.1 tau cellCm
  let mv := moveOver st ⟨ka.1, ka.2⟩ s (crabIv (m.crabHull lo hi)) cellCm
  let st' := { mv.1 with v := sp.2 }
  if st'.diverged then none else some (st', ⟨mv.2.1, mv.2.2.1, mv.2.2.2, s, sp.1⟩)

/-- The state at t = 0 of a record's own geometry (05 R197). -/
def Cand.startState (c : Cand) : BState :=
  { x := Iv.pt (c.x.toInt * 4096), y := Iv.pt (c.y.toInt * 4096), th := Iv.pt (c.heading.toNat * 65536)
    v := Iv.pt (c.speed.toNat * 1000) }

/-! ### The box (05 R202) -/

/-- A box in position units. -/
structure Box where
  x : Iv
  y : Iv
deriving DecidableEq, Repr

/-- The box of a sub-step (05 R202). -/
def boxOf (corners : List (Int × Int)) (xs ys ts : Iv) : Box :=
  let c := cosb ts
  let sn := cosb (ts.sub (Iv.pt (2 ^ 30)))
  let off := corners.map fun p =>
    (((Iv.scale p.1 c).sub (Iv.scale p.2 sn)).divOut 32768, ((Iv.scale p.1 sn).add (Iv.scale p.2 c)).divOut 32768)
  match off with
  | [] => ⟨xs, ys⟩
  | o :: r =>
    let h := r.foldl (fun b p => (b.1.hull p.1, b.2.hull p.2)) o
    ⟨xs.add h.1, ys.add h.2⟩

/-- First and last cell of the box on an axis, as signed cell numbers (05 R202). -/
def cellsOf (i : Iv) : Int × Int := (i.lo / 65536 + 1024, i.hi / 65536 + 1024)

/-! ### What a check needs of the world -/

/-- The facts a verdict depends on beside the record (05 R208). -/
structure CheckCtx where
  foot : Foot
  sealed : Sealed
  classFree : Nat → Nat
  cellCm : Nat
  sliceMs : Nat
  slices : Nat

/-- A sub-step's finding: 0 CLEAR, 1 UNSURE, 2 HIT; whether an agent's mark made it; and the cells met. -/
structure Finding where
  code : Nat
  agent : Bool
  cells : List (Nat × Nat)
deriving DecidableEq, Repr

/-- The finding of a box in slice `j` (05 R204 items 2 to 4). -/
def CheckCtx.finding (k : CheckCtx) (j : Nat) (b : Box) : Finding :=
  let cx := cellsOf b.x
  let cy := cellsOf b.y
  let horizon := k.sliceMs * k.slices
  let off := cx.1 < 0 || 2048 ≤ cx.2 || cy.1 < 0 || 2048 ≤ cy.2
  let met := cx.1 < 2048 && 0 ≤ cx.2 && cy.1 < 2048 && 0 ≤ cy.2
  let parts := if met then tileParts cx.1.toNat (min 2047 cx.2).toNat cy.1.toNat (min 2047 cy.2).toNat else []
  let bands := (List.range (k.foot.bandHi + 1 - k.foot.bandLo)).map (k.foot.bandLo + ·)
  if parts.any (k.sealed.occupied horizon j bands) then
    ⟨2, parts.any (k.sealed.agentMark horizon j bands), parts.flatMap TilePart.cells⟩
  else if off || parts.any (k.sealed.unknown k.classFree bands) then ⟨1, false, []⟩
  else ⟨0, false, []⟩

/-- The finding of a swept pose in slice `j`: UNSURE when the box exceeds its limit, and no voxel is read (05 R204). -/
def CheckCtx.judge (k : CheckCtx) (j : Nat) (xs ys ts : Iv) : Finding :=
  let b := boxOf (k.foot.corners k.cellCm) xs ys ts
  let lim := k.foot.limit k.cellCm
  if lim < b.x.width ∨ lim < b.y.width then ⟨1, false, []⟩ else k.finding j b

/-- A geometry as a check walks it: a state, and a step that gives the swept pose of sub-step `q`, none when it
diverges. -/
structure Walk (σ : Type) where
  init : σ
  step : σ → Nat → Option (σ × Iv × Iv × Iv)

/-- Eight sub-steps of a slice: the findings, and the state to go on from, none when the geometry diverged (05 R203). -/
def CheckCtx.slice {σ : Type} (k : CheckCtx) (w : Walk σ) (j : Nat) : Nat → σ → List Finding × Option σ
  | 0, st => ([], some st)
  | f + 1, st =>
    match w.step st (8 * j + (7 - f)) with
    | none => ([⟨1, false, []⟩], none)
    | some (st', xs, ys, ts) =>
      let r := k.slice w j f st'
      (k.judge j xs ys ts :: r.1, r.2)

/-- A slice's summary: worst finding, an agent's mark among its hits, and the cells met by its agent hits. -/
def worst (l : List Finding) : Finding :=
  l.foldl (fun b f => ⟨max b.code f.code, b.agent || (f.code = 2 && f.agent), b.cells ++ (if f.code = 2 then f.cells else [])⟩)
    ⟨0, false, []⟩

/-- Slices in ascending order, up to the first with a HIT or to divergence (05 R203, R205). -/
def CheckCtx.scan {σ : Type} (k : CheckCtx) (w : Walk σ) : Nat → Nat → σ → List Finding
  | 0, _, _ => []
  | f + 1, j, st =>
    let r := k.slice w j 8 st
    let x := worst r.1
    match r.2 with
    | none => [x]
    | some st' => if x.code = 2 then [x] else x :: k.scan w f (j + 1) st'

/-- What a check answers: verdict code, FIRST_HIT, HIT_AGENT, and its cost in checker cycles. -/
structure CheckResult where
  verdict : BitVec 2
  firstHit : Byte
  hitAgent : Word
  cost : Nat
deriving DecidableEq, Repr

/-- The lowest-indexed agent whose marking covers a met cell in slice `j` (05 R207). -/
def CheckCtx.lowestAgent (k : CheckCtx) (j : Nat) (cells : List (Nat × Nat)) : Word :=
  let horizon := k.sliceMs * k.slices
  let covers (i : Nat) (a : Agent) : Bool :=
    let env := 1024 ≤ i || k.sealed.envelopes.contains i
    let ps := if env then a.envelopePieces horizon else a.piecesIn j k.sliceMs
    let r := a.inflation (if env then horizon else (j + 1) * k.sliceMs)
    a.bandLo ≤ k.foot.bandHi && k.foot.bandLo ≤ a.bandHi && cells.any fun c => ps.any fun p => p.meetsCell r c.1 c.2
  match ((List.range k.sealed.agents.length).zip k.sealed.agents).find? fun p => covers p.1 p.2 with
  | some p => p.2.id
  | none => 0xFFFFFFFF

/-- m of 05 R219. -/
def cellFactor (cellCm : Nat) : Nat := cdiv 100 (cellCm * cellCm)

/-- Verdict, first hit, agent and cost from the slices' findings; `extra` is the cost of R211 (05 R205, R207, R219). -/
def CheckCtx.result (k : CheckCtx) (fs : List Finding) (extra : Nat) : CheckResult :=
  let first := fs.findIdx? fun f => f.code ≠ 0
  let hit := fs.any fun f => f.code = 2
  let look := match first with
    | some i => k.foot.hitId && (match fs[i]? with | some f => f.code = 2 && f.agent | none => false)
    | none => false
  { verdict := if hit then 2 else if first.isSome then 3 else 1
    firstHit := match first with | some i => BitVec.ofNat 8 i | none => 0xFF
    hitAgent := match first with
      | some i => if look then (match fs[i]? with | some f => k.lowestAgent i f.cells | none => 0xFFFFFFFF) else 0xFFFFFFFF
      | none => 0xFFFFFFFF
    cost := 23 + fs.length * sliceCost k.foot.cls * cellFactor k.cellCm + (if look then k.sealed.agents.length else 0) + extra }

/-- τ in µs (05, "Figures at a glance"). -/
def tauOf (sliceMs : Nat) : Int := (sliceMs * 125 : Nat)

/-- The walk of a motion from an interval state. -/
def motionWalk (m : Motion) (cellCm tau : Int) (init : BState) : Walk BState :=
  { init := init
    step := fun st q => (subStep m cellCm tau st q).map fun r => (r.1, r.2.xs, r.2.ys, r.2.ts) }

/-! ### Stops (05 R209 to R211) -/

/-- A plan sub-step: its arclength span, swept pose and speed. -/
structure PlanStep where
  l : Iv
  sw : Sweep
deriving DecidableEq, Repr

/-- A plan integrated to the end of its terminal extension: its sub-steps, final state and arclength, and whether it
diverged (05 R210). -/
structure PlanWalk where
  steps : List PlanStep
  final : BState
  l : Iv
  diverged : Bool
deriving DecidableEq, Repr

/-- Plan sub-steps from `q`, `fuel` of them (05 R210). -/
def planGo (m : Motion) (cellCm tau : Int) : Nat → Nat → BState → Iv → PlanWalk
  | 0, _, st, l => ⟨[], st, l, false⟩
  | f + 1, q, st, l =>
    match subStep m cellCm tau st q with
    | none => ⟨[], st, l, true⟩
    | some (st', sw) =>
      let l' := l.add sw.s
      let r := planGo m cellCm tau f (q + 1) st' l'
      { r with steps := ⟨⟨l.lo, l'.hi⟩, sw⟩ :: r.steps }

/-- The copied plan of a stop, integrated (05 R210). -/
def planWalk (c : Cand) (m : Motion) (cellCm tau : Int) : PlanWalk :=
  planGo m cellCm tau (iceil m.endUs tau.toNat).toNat 0 c.startState (Iv.pt 0)

/-- ARC0 and V0 of a stop built from a plan: hulls of L and V over the plan sub-steps that contain the epoch, both of them
when it falls between two; after the plan's end its final L at rest. DEDUCED; log 17. None where the plan diverges
before. -/
def PlanWalk.epoch (w : PlanWalk) (tau : Int) (pUs : Nat) : Option (Iv × Iv) :=
  let k := pUs / tau.toNat
  let ks := if pUs % tau.toNat = 0 ∧ 0 < k then [k - 1, k] else [k]
  let sel := ks.filterMap fun i => w.steps[i]?
  if w.diverged && ks.any (fun i => w.steps.length ≤ i) then none
  else match sel with
    | [] => some (w.l, Iv.pt 0)
    | p :: r => some (r.foldl (fun b x => (b.1.hull x.l, b.2.hull x.sw.vs)) (p.l, p.sw.vs))

/-- State of the check of a stop along a path: speed and arclength of the stop (05 R210). -/
structure PathState where
  v : Iv
  ls : Iv
deriving DecidableEq, Repr

/-- The walk of a stop along its copied plan (05 R210 parts 2 and 3). The further sub-step past the plan's end diverges like any other
(05 R203). -/
def pathWalk (w : PlanWalk) (plan stop : Motion) (cellCm tau : Int) (l0 v0 : Iv) : Walk PathState :=
  { init := ⟨v0, Iv.pt 0⟩
    step := fun st q =>
      let lo := q * tau
      let v := if stop.restAt lo then Iv.pt 0 else st.v
      let aa := stop.accHull lo (lo + tau)
      let sp := stepSpeeds v ⟨aa.1, aa.2⟩ tau
      let ls' := st.ls.add (stepArc sp.1 tau cellCm)
      let a := l0.lo + st.ls.lo
      let b := l0.hi + ls'.hi
      let met := (w.steps.filter fun p => p.l.lo ≤ b && a ≤ p.l.hi).map fun p => (p.sw.xs, p.sw.ys, p.sw.ts)
      if 2 ^ 32 ≤ sp.2.hi || (w.diverged && w.l.lo ≤ b) then none
      else
        let e := max 0 (b - w.l.hi)
        let mv := moveOver w.final (Iv.pt plan.kEnd) ⟨0, e⟩ (crabIv (plan.crabEnd, plan.crabEnd)) cellCm
        let beyond : Bool := w.l.hi < b || met.isEmpty
        let on := if beyond then [(mv.2.1, mv.2.2.1, mv.2.2.2)] else []
        match met ++ on with
        | [] => none
        | p :: r =>
          let h := r.foldl (fun x y => (x.1.hull y.1, x.2.1.hull y.2.1, x.2.2.hull y.2.2)) p
          if beyond && mv.1.diverged then none else some (⟨sp.2, ls'⟩, h.1, h.2.1, h.2.2) }

/-- The interval of the record's ARC0 and of its V0. -/
def Cand.arc0 (c : Cand) : Iv := ⟨c.arc0Lo.toNat, c.arc0Hi.toNat⟩
/-- V0. -/
def Cand.v0 (c : Cand) : Iv := ⟨c.v0Lo.toNat, c.v0Hi.toNat⟩

/-- The start state of a stop with GEOM_COUNT 0: advanced along its heading by ARC0 in one step (05 R209). -/
def Cand.lineStart (c : Cand) (cellCm : Int) : BState :=
  let b := c.startState
  { (moveOver b (Iv.pt 0) c.arc0 (Iv.pt 0) cellCm).1 with th := b.th, v := c.v0 }

/-- The check of a record (05 R191 to R211). `prims` and `decel` are what its geometry names, `speed` the exact speed of a
stop at the epoch. A start pose translated out of range ends UNSURE in slice 0 (03 R119). A part of a slice duration of copied plan
costs as much as a whole one (05 R211). DESIGN CHOICE; log 116. -/
def CheckCtx.check (k : CheckCtx) (c : Cand) (prims : List Prim) (decel : Nat) (speed : Int × Nat) : CheckResult :=
  let cell : Int := k.cellCm
  let tau := tauOf k.sliceMs
  if c.outside then k.result [⟨1, false, []⟩] 0
  else if c.kind ≠ 2 then
    let w := motionWalk (c.motion prims decel) cell tau c.startState
    k.result (k.scan w k.slices 0 w.init) 0
  else
    let stop := stopMotion speed c.param.toNat
    if c.count = 0 then
      let w := motionWalk stop cell tau (c.lineStart cell)
      k.result (k.scan w k.slices 0 w.init) 0
    else
      let plan := c.planMotion prims
      let pw := planWalk c plan cell tau
      let w := pathWalk pw plan stop cell tau c.arc0 c.v0
      k.result (k.scan w k.slices 0 w.init) (6 * cdiv pw.steps.length 8)

end Sys2Proof.Machine
end

