-- ==== Sys2Proof/Machine/Fp.lean ====
section
/-! DEFINITION. The number formats of 02 R82 to R89 on bit patterns: exact dyadic values, one rounding to nearest with
ties to even, one NaN. -/
namespace Sys2Proof.Machine
open Sys2Proof

/-- An IEEE 754 binary format: exponent and mantissa widths (02 R82). -/
structure Fmt where
  eb : Nat
  mb : Nat
deriving DecidableEq, Repr

/-- FP32 (02 R82). -/
def fp32 : Fmt := ⟨8, 23⟩
/-- FP64 (02 R82). -/
def fp64 : Fmt := ⟨11, 52⟩
/-- BF16 (02 R82). -/
def bf16 : Fmt := ⟨8, 7⟩

/-- The value of a pattern: a finite value is (−1)^neg × man × 2^exp. -/
inductive FpVal where
  | nan
  | inf (neg : Bool)
  | fin (neg : Bool) (man : Nat) (exp : Int)
deriving DecidableEq, Repr

/-- The exponent bias of a format. -/
def Fmt.bias (f : Fmt) : Nat := 2 ^ (f.eb - 1) - 1
/-- The pattern of plus infinity. -/
def Fmt.infPat (f : Fmt) : Nat := (2 ^ f.eb - 1) * 2 ^ f.mb
/-- The one NaN arithmetic produces (02 R88). -/
def Fmt.nanPat (f : Fmt) : Nat := f.infPat + 2 ^ (f.mb - 1)
/-- The weight of the sign bit. -/
def Fmt.signW (f : Fmt) : Nat := 2 ^ (f.eb + f.mb)

/-- The value a pattern has in a format (02 R82). -/
def fpDecode (f : Fmt) (x : Nat) : FpVal :=
  let neg := bit x (f.eb + f.mb)
  let e := (x >>> f.mb) % 2 ^ f.eb
  let m := x % 2 ^ f.mb
  if e = 2 ^ f.eb - 1 then (if m = 0 then .inf neg else .nan)
  else if e = 0 then .fin neg m (1 - (f.bias : Int) - f.mb)
  else .fin neg (m + 2 ^ f.mb) ((e : Int) - f.bias - f.mb)

/-- The magnitude pattern of (man + δ) × 2^exp, 0 ≤ δ < 1 with δ > 0 just when `sticky`, rounded to nearest with ties
to even (02 R82), with no bound at the format's largest value. With `sticky`, `man` has at least two bits beyond the
format's precision. -/
def fpRoundMag (f : Fmt) (man : Nat) (exp : Int) (sticky : Bool) : Nat :=
  if man = 0 ∧ ¬ sticky then 0
  else
    let qmin : Int := 1 - (f.bias : Int) - f.mb
    let q : Int := max (exp + (Nat.log2 man + 1 : Nat) - (f.mb + 1 : Nat)) qmin
    let m' : Nat :=
      if q ≤ exp then man * 2 ^ (exp - q).toNat
      else
        let sh := (q - exp).toNat
        let t := man >>> sh
        let r := man % 2 ^ sh
        let half := 2 ^ (sh - 1)
        if half < r ∨ (r = half ∧ (sticky ∨ t % 2 = 1)) then t + 1 else t
    if m' < 2 ^ f.mb then m' else ((q - qmin).toNat + 1) * 2 ^ f.mb + (m' - 2 ^ f.mb)

/-- The pattern of (−1)^neg × (man + δ) × 2^exp rounded once; a magnitude beyond the largest finite value is infinite. -/
def fpRound (f : Fmt) (neg : Bool) (man : Nat) (exp : Int) (sticky : Bool) : Nat :=
  (if neg then f.signW else 0) + min (fpRoundMag f man exp sticky) f.infPat

/-- The pattern of a value in a format. -/
def fpEncode (f : Fmt) : FpVal → Nat
  | .nan => f.nanPat
  | .inf neg => (if neg then f.signW else 0) + f.infPat
  | .fin neg m e => fpRound f neg m e false

/-- Exact sum of two values, before rounding; a sum of opposite infinities is NaN. -/
def fvAdd : FpVal → FpVal → FpVal
  | .nan, _ => .nan
  | _, .nan => .nan
  | .inf a, .inf b => if a = b then .inf a else .nan
  | .inf a, .fin .. => .inf a
  | .fin .., .inf b => .inf b
  | .fin a m e, .fin b n g =>
    let k := min e g
    let x : Int := (if a then -1 else 1) * ((m * 2 ^ (e - k).toNat : Nat) : Int)
    let y : Int := (if b then -1 else 1) * ((n * 2 ^ (g - k).toNat : Nat) : Int)
    let z := x + y
    if z = 0 then .fin (a && b) 0 k else .fin (decide (z < 0)) z.natAbs k

/-- Exact product of two values, before rounding; zero times infinity is NaN. -/
def fvMul : FpVal → FpVal → FpVal
  | .nan, _ => .nan
  | _, .nan => .nan
  | .inf a, .inf b => .inf (a != b)
  | .inf a, .fin b n _ => if n = 0 then .nan else .inf (a != b)
  | .fin a m _, .inf b => if m = 0 then .nan else .inf (a != b)
  | .fin a m e, .fin b n g => .fin (a != b) (m * n) (e + g)

/-- The value negated. -/
def fvNeg : FpVal → FpVal
  | .nan => .nan
  | .inf a => .inf (!a)
  | .fin a m e => .fin (!a) m e

/-- Rounded sum. -/
def fpAdd (f : Fmt) (x y : Nat) : Nat := fpEncode f (fvAdd (fpDecode f x) (fpDecode f y))
/-- Rounded difference. -/
def fpSub (f : Fmt) (x y : Nat) : Nat := fpEncode f (fvAdd (fpDecode f x) (fvNeg (fpDecode f y)))
/-- Rounded product. -/
def fpMul (f : Fmt) (x y : Nat) : Nat := fpEncode f (fvMul (fpDecode f x) (fpDecode f y))
/-- Fused multiply-add x × y + z with one rounding. -/
def fpFma (f : Fmt) (x y z : Nat) : Nat := fpEncode f (fvAdd (fvMul (fpDecode f x) (fpDecode f y)) (fpDecode f z))
/-- Negation; a NaN becomes the one NaN (02 R88). -/
def fpNeg (f : Fmt) (x : Nat) : Nat := fpEncode f (fvNeg (fpDecode f x))

/-- Correctly rounded division. -/
def fpDiv (f : Fmt) (x y : Nat) : Nat :=
  match fpDecode f x, fpDecode f y with
  | .nan, _ => f.nanPat
  | _, .nan => f.nanPat
  | .inf _, .inf _ => f.nanPat
  | .inf a, .fin b _ _ => fpEncode f (.inf (a != b))
  | .fin a _ _, .inf b => fpEncode f (.fin (a != b) 0 0)
  | .fin a m e, .fin b n g =>
    if n = 0 then (if m = 0 then f.nanPat else fpEncode f (.inf (a != b)))
    else
      let k := f.mb + 4 + Nat.log2 n
      let p := m * 2 ^ k
      fpRound f (a != b) (p / n) (e - g - k) (p % n ≠ 0)

/-- Correctly rounded square root. -/
def fpSqrt (f : Fmt) (x : Nat) : Nat :=
  match fpDecode f x with
  | .nan => f.nanPat
  | .inf false => f.infPat
  | .inf true => f.nanPat
  | .fin neg m e =>
    if m = 0 then fpEncode f (.fin neg 0 0)
    else if neg then f.nanPat
    else
      let k := 2 * (f.mb + 4) + (if (e - 0) % 2 = 0 then 0 else 1)
      let p := m * 2 ^ k
      let r := isqrt p
      fpRound f false r ((e - k) / 2) (r * r ≠ p)

/-- Exact comparison of finite and infinite values; none when either is NaN. -/
def fvCmp : FpVal → FpVal → Option Ordering
  | .nan, _ => none
  | _, .nan => none
  | .inf a, .inf b => some (if a = b then .eq else if a then .lt else .gt)
  | .inf a, .fin .. => some (if a then .lt else .gt)
  | .fin .., .inf b => some (if b then .gt else .lt)
  | .fin a m e, .fin b n g =>
    let k := min e g
    let x : Int := (if a then -1 else 1) * ((m * 2 ^ (e - k).toNat : Nat) : Int)
    let y : Int := (if b then -1 else 1) * ((n * 2 ^ (g - k).toNat : Nat) : Int)
    some (compare x y)

/-- Less than; false with a NaN. -/
def fpLt (f : Fmt) (x y : Nat) : Bool := fvCmp (fpDecode f x) (fpDecode f y) == some .lt
/-- Equal in value; false with a NaN. -/
def fpEq (f : Fmt) (x y : Nat) : Bool := fvCmp (fpDecode f x) (fpDecode f y) == some .eq
/-- Less than or equal; false with a NaN. -/
def fpLe (f : Fmt) (x y : Nat) : Bool := fpLt f x y || fpEq f x y
/-- The pattern is a NaN. -/
def fpIsNan (f : Fmt) (x : Nat) : Bool := fpDecode f x == .nan
/-- The pattern is neither NaN nor infinite. -/
def fpIsFinite (f : Fmt) (x : Nat) : Bool := match fpDecode f x with | .fin .. => true | _ => false
/-- The sign bit cleared. -/
def fpAbs (f : Fmt) (x : Nat) : Nat := x % f.signW

/-- Conversion between IEEE formats, rounded once (02 R85 for BF16 but for NaN). -/
def fpConv (f g : Fmt) (x : Nat) : Nat := fpEncode g (fpDecode f x)

/-- The exact integer, rounded once into a format. -/
def fpOfInt (f : Fmt) (n : Int) : Nat := fpRound f (decide (n < 0)) n.natAbs 0 false

/-- The quotient of exact integers, rounded once into a format; the denominator is positive. -/
def fpOfRatio (f : Fmt) (n : Int) (d : Nat) : Nat :=
  let k := f.mb + 4 + Nat.log2 d
  let p := n.natAbs * 2 ^ k
  fpRound f (decide (n < 0)) (p / d) (-(k : Int)) (p % d ≠ 0)

/-- The exact value of a finite pattern as a fraction with positive denominator. -/
def fpRatio (f : Fmt) (x : Nat) : Option (Int × Nat) :=
  match fpDecode f x with
  | .fin a m e =>
    let s : Int := if a then -1 else 1
    some (if 0 ≤ e then (s * ((m * 2 ^ e.toNat : Nat) : Int), 1) else (s * (m : Int), 2 ^ (-e).toNat))
  | _ => none

/-! ### F8, BF16 and INT8 (02 R83 to R89) -/

/-- F8 decoded exactly to FP32 (02 R83). -/
def f8ToF32 (x : Nat) : Nat :=
  let neg := bit x 7
  let e := bits x 6 3
  let m := bits x 2 0
  if x % 128 = 0x7F then fp32.nanPat
  else if e = 0 then fpRound fp32 neg m (-9) false
  else fpRound fp32 neg (8 + m) ((e : Int) - 10) false

/-- FP32 rounded into F8: nearest even on the grid, saturating at 448 (02 R84, R96). -/
def f32ToF8 (x : Nat) : Nat :=
  let s := if bit x 31 then 0x80 else 0
  match fpDecode fp32 x with
  | .nan => s + 0x7F
  | .inf _ => s + 0x7E
  | .fin _ m e => s + min 0x7E (fpRoundMag ⟨4, 3⟩ m e false)

/-- BF16 read exactly as FP32: its pattern with sixteen zero bits below. -/
def bf16ToF32 (x : Nat) : Nat := if fpIsNan bf16 x then fp32.nanPat else (x % 65536) * 65536

/-- FP32 rounded into BF16 (02 R85). -/
def f32ToBf16 (x : Nat) : Nat :=
  if fpIsNan fp32 x then 0x7FC0 + (if bit x 31 then 0x8000 else 0) else fpConv fp32 bf16 x

/-- FP32 rounded into INT8 (02 R86), as a two's complement byte. -/
def f32ToI8 (x : Nat) : Nat :=
  match fpDecode fp32 x with
  | .nan => 0
  | .inf neg => if neg then 0x80 else 0x7F
  | .fin neg m e =>
    let r : Nat :=
      if 0 ≤ e then m * 2 ^ e.toNat
      else
        let sh := (-e).toNat
        let t := m >>> sh
        let d := m % 2 ^ sh
        let half := 2 ^ (sh - 1)
        if half < d ∨ (d = half ∧ t % 2 = 1) then t + 1 else t
    if neg then toField 8 (-(min r 128 : Nat)) else min r 127

/-- A subnormal F8 pattern flushed to the zero of its sign (02 R89). -/
def f8Flush (x : Nat) : Nat := if bits x 6 3 = 0 then x &&& 0x80 else x
/-- A subnormal BF16 pattern flushed to the zero of its sign (02 R89). -/
def bf16Flush (x : Nat) : Nat := if bits x 14 7 = 0 then x &&& 0x8000 else x

/-! ### FP32 by name -/

/-- FP32 sum. -/
def fadd (x y : Nat) : Nat := fpAdd fp32 x y
/-- FP32 difference. -/
def fsub (x y : Nat) : Nat := fpSub fp32 x y
/-- FP32 product. -/
def fmul (x y : Nat) : Nat := fpMul fp32 x y
/-- FP32 fused multiply-add. -/
def ffma (x y z : Nat) : Nat := fpFma fp32 x y z
/-- FP32 quotient. -/
def fdiv (x y : Nat) : Nat := fpDiv fp32 x y
/-- FP32 less than. -/
def flt (x y : Nat) : Bool := fpLt fp32 x y

end Sys2Proof.Machine
end

