-- ==== Sys2Proof/Machine/Candidates.lean ====
section
/-! DEFINITION. Candidate records and their way into the table and the checker queues (04 R174 to R178, 05 R212 to R214), the
start pose (04 R149), the projection of controls (04 R171, R172), HOST_CAND and the stops (01 R47 to R50, 05 R210, R783). -/
namespace Sys2Proof.Machine
open Sys2Proof

/-! ### The 128 bytes of a record (04 R174) -/

/-- A candidate record's bytes (04 R174). -/
def Cand.bytes (c : Cand) : List Byte :=
  leBytes 4 c.id
    ++ [BitVec.ofNat 8 (c.origin.toNat + 4 * b2n c.smoothed + 8 * b2n c.clipped), BitVec.ofNat 8 c.verdict.toNat, c.firstHit,
      c.fpClass]
    ++ leBytes 4 c.parent.toNat ++ leBytes 4 c.cost.toNat ++ leBytes 2 c.x.toNat ++ leBytes 2 c.y.toNat
    ++ leBytes 2 c.heading.toNat ++ leBytes 2 c.speed.toNat
    ++ [BitVec.ofNat 8 c.mode.toNat, BitVec.ofNat 8 c.kind.toNat, c.count, c.status] ++ leBytes 2 c.param.toNat ++ leBytes 2 0
    ++ (List.range 24).flatMap (fun i => leBytes 2 (lget 0 c.geom i).toNat)
    ++ leBytes 4 c.hitAgent.toNat ++ leBytes 4 c.companion.toNat ++ leBytes 8 c.frame.toNat ++ leBytes 4 c.durationMs.toNat
    ++ [BitVec.ofNat 8 (b2n c.planKind + 128 * b2n c.continued), 0] ++ leBytes 2 c.planParam.toNat
    ++ leBytes 4 c.planDurationMs.toNat ++ leBytes 2 c.planDecel.toNat ++ leBytes 2 0
    ++ leBytes 4 c.arc0Lo.toNat ++ leBytes 4 c.arc0Hi.toNat ++ leBytes 4 c.v0Lo.toNat ++ leBytes 4 c.v0Hi.toNat

/-- A record with every field zero, PENDING and without a hit. -/
def Cand.blank : Cand :=
  { id := 0, origin := 0, smoothed := false, clipped := false, verdict := 0, firstHit := 0xFF, fpClass := 0, parent := 0,
    cost := 0, x := 0, y := 0, heading := 0, speed := 0, mode := 0, kind := 0, count := 0, status := 0, param := 0,
    geom := List.replicate 24 0, hitAgent := 0xFFFFFFFF, companion := 0, frame := 0, durationMs := 0, planKind := false,
    continued := false, planParam := 0, planDurationMs := 0, planDecel := 0, arc0Lo := 0, arc0Hi := 0, v0Lo := 0, v0Hi := 0,
    outside := false }

/-- The 128 bytes of a table entry: zeros where no producer has written it in the frame (04 R178). -/
def Table.entryBytes (b : Table) (i : Nat) : List Byte :=
  match b.cand i with
  | some c => c.bytes
  | none => List.replicate 128 0

/-- +1.0 in binary32. -/
def f32One : F32 := 0x3F800000

/-! ### Into a queue (05 R212 to R215, R224) -/

/-- The engine of an ID on the frame's list (05 R212). -/
def Table.engineOf (b : Table) (id : Nat) : Option (Fin 16) := b.engineList[id % max 1 b.engineList.length]?

/-- Phase whose deadline ends an ID's check: P5 for a smoothed candidate, else P4; a stop runs to D_6 (01 R39, 05 R215). -/
def checkPhase (id : Nat) : Nat := if id < 2 then 6 else if 64 ≤ id ∧ id < 128 then 5 else 4

/-- E_QUEUE_PEAK kept up with an engine's depth (05 R222). -/
def State.noteDepth (s : State) (e : Nat) : State :=
  let n := (bget Engine.reset s.engines e).depth
  if s.live (enginePage e) 0x108 < n then s.setLive (enginePage e) 0x108 n else s

/-- An ID enters the queue of its engine. It enters none where the tenant has no engine, the engine is not usable, its check can no
longer begin, or the tenant's reset has discarded all but the stops (05 R212, R215, R224, R226); where the queue is full its producer
stalls (05 R214). -/
def State.queueCand (s : State) (t : Fin 16) (id : Nat) : State :=
  match (s.tenant t).table.engineOf id with
  | none => s
  | some e =>
    if ! s.usable .badger e.val || s.phasePassed (checkPhase id) || ! s.frame.inFrame
        || (2 ≤ id && (s.tenant t).state = .resetting) then s
    else if 256 ≤ (s.engines.at' e).queue.length then s.updTable t fun b => { b with stalled := b.stalled ++ [id] }
    else (s.updEngine e.val fun k => { k with queue := k.queue ++ [⟨t, id⟩] }).noteDepth e.val

/-- Stalled producers of every tenant try again, the oldest entry first (05 R214). -/
def State.retryStalled (s : State) : State :=
  s.forTenants fun s t =>
    let l := (s.tenant t).table.stalled
    (s.updTable t fun b => { b with stalled := [] }).forEach l fun s id => s.queueCand t id

/-- A producer of IDs `lo` to `hi` is stalled (05 R214). -/
def Table.stalls (b : Table) (lo hi : Nat) : Bool := b.stalled.any fun i => lo ≤ i && i < hi

/-- Device address of a table entry (04 R174). -/
def State.candAddr (s : State) (t : Fin 16) (id : Nat) : Nat := s.chip.tableBase + 128 * (s.candBase t + id)
/-- A block of a table entry is poisoned (19 R728). -/
def State.candPoisoned (s : State) (t : Fin 16) (id : Nat) : Bool := s.dram.poisoned (s.candAddr t id) 128

/-- A record written into the table and delivered to its queue (04 R173, 05 R218); all its blocks are covered (19 R728). -/
def State.putCand (s : State) (t : Fin 16) (c : Cand) : State :=
  let a := s.candAddr t c.id
  let s := s.updDram fun d => { d with poison := d.poison.filter fun b => ! (a ≤ 32 * b && 32 * b + 32 ≤ a + 128) }
  (s.updTable t fun b => { b with cands := mput b.cands c.id c }).queueCand t c.id

/-- A record a unit of stream `k` writes (14 R540). -/
def State.putCandBy (s : State) (k : Nat) (t : Fin 16) (c : Cand) : State :=
  (s.streamWrite k toDram 0 (s.candAddr t c.id) c.bytes).putCand t c

/-- A written record passed through `f`. -/
def State.updCand (s : State) (t : Fin 16) (id : Nat) (f : Cand → Cand) : State :=
  s.updTable t fun b => { b with cands := mupd b.cands id f }

/-- The device's fields of a record it writes: class, frame and parent (04 R174). -/
def State.stampCand (s : State) (t : Fin 16) (c : Cand) : Cand :=
  { c with fpClass := BitVec.ofNat 8 (s.foot t).cls, frame := s.frame.number, parent := BitVec.ofNat 32 c.id }

/-! ### The start pose (04 R149) -/

/-- The start of a tenant's search: exact speed and acceleration, numeric pose, mode, and the record fields it rounds to. -/
structure Start where
  pose : Pose
  speed : Int × Nat
  acc : Int × Nat
  mode : BitVec 2
  outside : Bool
deriving DecidableEq, Repr

/-- The numeric pose of a record's X, Y and HEADING. -/
def Cand.pose (c : Cand) (cellCm : Nat) : Pose :=
  ⟨c.x.toInt * fx * (10 * cellCm : Nat) / 16, c.y.toInt * fx * (10 * cellCm : Nat) / 16, c.heading.toNat * fx / 65536⟩

/-- The pose and speed from which the tenant's Hedgehog starts, after translation (04 R149). -/
def State.start (s : State) (t : Fin 16) : Start :=
  let b := (s.tenant t).table
  match b.cand 0 with
  | none => ⟨⟨0, 0, 0⟩, (0, 1), (0, 1), 0, false⟩
  | some h =>
    let p := h.pose s.cellCm
    let q := if h.count = 0 then onward p 0 0 b.stopArc else (h.planMotion b.stopPrims).poseAtArc p b.stopArc
    ⟨q, b.stopSpeed, b.stopAcc, h.mode, h.outside⟩

/-- A coordinate in grid units, as a fraction over 2^64 × 10 × CELL_CM. -/
def gridUnits (mm : Int) (cellCm : Nat) : Int × Nat := (mm * 16, 18446744073709551616 * (10 * cellCm))

/-- The record fields of a start: rounded to nearest even and saturated (04 R82, R174). DEDUCED; log 29. -/
def Start.fill (k : Start) (cellCm : Nat) (c : Cand) : Cand :=
  let gx := gridUnits k.pose.x cellCm
  let gy := gridUnits k.pose.y cellCm
  let x := rne gx.1 gx.2
  let y := rne gy.1 gy.2
  let out := k.outside || satI16 x ≠ x || satI16 y ≠ y
  { c with
    x := BitVec.ofInt 16 (satI16 x)
    y := BitVec.ofInt 16 (satI16 y)
    heading := BitVec.ofInt 16 (rne (k.pose.h * 65536) 18446744073709551616)
    speed := BitVec.ofNat 16 (min 65535 (rne k.speed.1 k.speed.2).toNat)
    outside := out }

/-- The cell that contains a start. -/
def Start.cell (k : Start) (cellCm : Nat) : Int × Int :=
  let gx := gridUnits k.pose.x cellCm
  let gy := gridUnits k.pose.y cellCm
  (gx.1 / (16 * (gx.2 : Int)) + 1024, gy.1 / (16 * (gy.2 : Int)) + 1024)

/-- Nearest heading bin, a tie going to the lower. -/
def Start.headBin (k : Start) : Nat := ((- ((- (k.pose.h * 128 - fx)) / (2 * fx))) % 64).toNat
/-- Nearest speed bin, a tie going to the lower. -/
def Start.speedBin (k : Start) : Nat :=
  min 16 (- ((- (2 * k.speed.1 - 500 * (k.speed.2 : Int))) / (1000 * (k.speed.2 : Int)))).toNat

/-! ### The projection of controls (04 R171, R172) -/

/-- A clamp in binary32. -/
def fclamp (x lo hi : Nat) : Nat := if flt x lo then lo else if flt hi x then hi else x

/-- The limits in SI units, each by one division (04 R171). -/
structure SiLimits where
  vMax : Nat
  accelLong : Nat
  decel : Nat
  accelLat : Nat
  jerk : Nat
  kappa : Nat
deriving DecidableEq, Repr

/-- The mode's KAPPA field: 0 in CRAB mode (04 R171). -/
def Limits.kappaOf (l : Limits) (mode : Nat) : Nat :=
  match mode with
  | 0 => l.kappaFront.toNat
  | 1 => l.kappaRear.toNat
  | 2 => l.kappa4ws.toNat
  | _ => 0

/-- The limits in SI units for a mode. -/
def Limits.si (l : Limits) (mode : Nat) : SiLimits :=
  let f (x : Nat) (d : Nat) := fpOfRatio fp32 (x : Int) d
  { vMax := f l.vMax.toNat 1000, accelLong := f l.accelLong.toNat 1000, decel := f l.decelComfort.toNat 1000,
    accelLat := f l.accelLat.toNat 1000, jerk := f l.jerk.toNat 1000, kappa := f (l.kappaOf mode) 1024 }

/-- 0.5 and 2.0 in binary32. -/
def fHalf : Nat := 0x3F000000
/-- 2.0 -/
def fTwo : Nat := 0x40000000

/-- One control point: projected κ and a, and the speed there. `first` is point 0, `vPrev` its speed (04 R171). -/
def projectPoint (l : SiLimits) (dt : Nat) (first : Bool) (vPrev aPrev k a : Nat) : Nat × Nat × Nat :=
  let jd := fmul l.jerk dt
  let a := fclamp a (fpNeg fp32 l.decel) l.accelLong
  let a := fclamp a (fsub aPrev jd) (fadd aPrev jd)
  let va :=
    if first then (vPrev, a)
    else
      let v := fadd vPrev (fmul (fmul fHalf (fadd aPrev a)) dt)
      let va := if flt v 0 then (0, fsub (fdiv (fmul (fpNeg fp32 fTwo) vPrev) dt) aPrev) else (v, a)
      if flt l.vMax va.1 then (l.vMax, fsub (fdiv (fmul fTwo (fsub l.vMax vPrev)) dt) aPrev) else va
  let v := va.1
  let k := fclamp k (fpNeg fp32 l.kappa) l.kappa
  let v2 := fmul v v
  let k := if flt l.accelLat (fmul v2 (fpAbs fp32 k)) then
      fdiv (if flt k 0 then fpNeg fp32 l.accelLat else l.accelLat) v2 else k
  (k, va.2, v)

/-- The control points projected in order (04 R171). -/
def projectGo (l : SiLimits) (dt : Nat) : Bool → Nat → Nat → List (Nat × Nat) → List (Nat × Nat)
  | _, _, _, [] => []
  | first, v, ap, (k, a) :: r =>
    let p := projectPoint l dt first v ap k a
    (p.1, p.2.1) :: projectGo l dt false p.2.2 p.2.1 r

/-- A projected value as a record field: scaled, rounded to nearest even, saturated; and whether it saturated (04 R174). -/
def fieldOf (x scale : Nat) : BitVec 16 × Bool :=
  match fpRatio fp32 x with
  | some (n, d) => let r := rne (n * (scale : Int)) d; (BitVec.ofInt 16 (satI16 r), decide (satI16 r ≠ r))
  | none => (0, true)

/-- Projected controls as GEOMETRY, and CLIPPED (04 R172). -/
def controlFields (inp out : List (Nat × Nat)) : List (BitVec 16) × Bool :=
  let f := out.flatMap fun p => [fieldOf p.1 1024, fieldOf p.2 1000]
  (f.map (·.1), decide (inp ≠ out) || f.any (·.2))

/-- A CONTROL record from its controls: projected, stored, with CLIPPED and STATUS (04 R171, R172, R174). -/
def controlCand (l : Limits) (mode dtMs v a : Nat) (ctl : List (Nat × Nat)) (c : Cand) : Cand :=
  let out := projectGo (l.si mode) (fpOfRatio fp32 (dtMs : Int) 1000) true v a ctl
  let g := controlFields ctl out
  { c with
    kind := 1, count := 12, param := BitVec.ofNat 16 dtMs, geom := g.1, clipped := g.2
    status := if g.2 then codeClipped else codeOk
    mode := BitVec.ofNat 2 mode, durationMs := BitVec.ofNat 32 (11 * dtMs) }

/-- A fraction of mm converted once to binary32 in SI units (04 R171). -/
def siOf (x : Int × Nat) : Nat := fpOfRatio fp32 x.1 (x.2 * 1000)

/-! ### HOST_CAND (04 R177; 11 R431, R433) -/

/-- Flaws of a HOST_CAND record at offset `o` (04 R177). -/
def hostFlaws (image : Option Lattice) (l : Limits) (r : List Byte) (o : Nat) : List Nat :=
  let count := byteAt r 26
  let prims := match image with | some i => i.prims.length | none => 0
  let g (i : Nat) := u16At r (32 + 2 * i)
  let base : List (Bool × Nat) :=
    [(4 ≤ byteAt r 24, 24), (2 ≤ byteAt r 25, 25), (byteAt r 30 ≠ 0 || byteAt r 31 ≠ 0, 30),
     (! allZero ((r.drop 100).take 28), 100)]
  let chain : List (Bool × Nat) := [(count = 0 || 24 < count, 26)]
  let entries : List (Bool × Nat) :=
    (List.range 24).map fun i => (if i < count then decide (prims ≤ g i) else decide (g i ≠ 0), 32 + 2 * i)
  let control : List (Bool × Nat) :=
    [(count ≠ 12, 26), (u16At r 28 < 100 || 1000 < u16At r 28, 28), (! bit l.modes.toNat (byteAt r 24 % 4), 24)]
  let rows := base ++ (if byteAt r 25 = 0 then chain ++ entries else control)
  (rows.filter (·.1)).map fun p => o + p.2

/-- A HOST record as the device writes it (04 R177). -/
def State.hostCandOf (s : State) (t : Fin 16) (r : List Byte) (id : Nat) : Cand :=
  let n := s.tenant t
  let c := s.stampCand t { Cand.blank with
    id := id, origin := 3, cost := BitVec.ofNat 32 (u32At r 12), x := BitVec.ofNat 16 (u16At r 16),
    y := BitVec.ofNat 16 (u16At r 18), heading := BitVec.ofNat 16 (u16At r 20), speed := BitVec.ofNat 16 (u16At r 22),
    mode := BitVec.ofNat 2 (byteAt r 24), companion := BitVec.ofNat 32 (u32At r 84) }
  if byteAt r 25 = 0 then
    let geom := (List.range 24).map fun i => BitVec.ofNat 16 (u16At r (32 + 2 * i))
    let prims := match n.search.image with | some i => i.prims | none => []
    let ps := (geom.take (byteAt r 26)).filterMap fun i => prims[i.toNat]?
    { c with
      kind := 0, count := BitVec.ofNat 8 (byteAt r 26), geom := geom
      durationMs := BitVec.ofNat 32 (nsum (ps.map (·.durationMs.toNat))) }
  else
    let f (i : Nat) (d : Nat) := fpOfRatio fp32 (sext 16 (u16At r (32 + 2 * i))) d
    let ctl := (List.range 12).map fun i => (f (2 * i) 1024, f (2 * i + 1) 1000)
    controlCand n.search.limits (byteAt r 24 % 4) (u16At r 28) (fpOfRatio fp32 (u16At r 22 : Int) 1000)
      (siOf n.table.stopAcc) ctl c

/-- An input of a frame noted for its digest, in doorbell order (14 R531, R537). -/
def insertInput (x : Nat × Byte × List Byte) : List (Nat × Byte × List Byte) → List (Nat × Byte × List Byte)
  | [] => [x]
  | a :: r => if x.1 < a.1 then x :: a :: r else a :: insertInput x r

/-- An accepted input belonging to frame `frame`, counted as frames begun; one accepted when its frame is over is in no frame's hash
(14 R537). -/
def State.noteInput (s : State) (t : Fin 16) (frame order op : Nat) (data : List Byte) : State :=
  let x := (order, BitVec.ofNat 8 op, data)
  s.updSpoor t fun p =>
    if frame = s.frame.seq then { p with inputs := insertInput x p.inputs }
    else if s.frame.seq < frame then { p with inputsNext := insertInput x p.inputsNext }
    else p

/-- A HOST_CAND that its frame has passed: one fetched at or after D_3 (11 R433), or one fetched in time whose frame has ended before it is
carried out. DESIGN CHOICE for the second; log 130. -/
def State.hostPassed (s : State) (c : Cmd) : Bool :=
  c.late || c.stamp.hostFrame < s.frame.seq || (c.stamp.hostFrame = s.frame.seq && ! s.frame.inFrame)

/-- HOST_CAND (11 R431, R433): the command waits with its bytes for the judgement in its frame; fetched at or after D_3 of
its frame it has passed. -/
def State.hostCand (s : State) (t : Fin 16) (tag : Nat) (buf : List Byte) : State :=
  match s.cmdFor t tag 6 with
  | none => s
  | some c =>
    if s.held then s
    else if s.hostPassed c then s.completeCmd t c codePassed 0
    else
      match s.cmdData c buf with
      | none => s.completeCmd t c codeMemoryUe 0
      | some d => s.holdCmd t c d

/-- HOST_CAND -/
def execHostCand (t : Fin 16) (tag : Nat) (buf : List Byte) (s : State) : Host.Outcome State Fault Refusal :=
  done (s.hostCand t tag buf)

/-- A waiting command whose doorbell comes before that of any other HOST_CAND that can still write records in its frame, fetched or not
(04 R175; 11 R431, R433). -/
def State.hostTurn (s : State) (t : Fin 16) (c : Cmd) : Bool :=
  let n := s.tenant t
  n.cmds.all (fun d => d.opcode ≠ 6 || d.late || c.stamp.order ≤ d.stamp.order)
    && (4 ≤ s.frame.passed || n.queues.toList.all fun q => q.published.all fun st => c.stamp.order ≤ st.order)

/-- The records of a HOST_CAND, whose first takes ID `first`. -/
def State.hostRecords (s : State) (t : Fin 16) (c : Cmd) (first : Nat) : List Cand :=
  let rs := chunks 128 (c.data.length / 128 + 1) c.data
  ((List.range rs.length).zip rs).map fun p => s.hostCandOf t p.2 (first + p.1)

/-- The first `n` records of a HOST_CAND are written; it waits for the rest, or for room for the last (05 R214). -/
def State.deliverHost (s : State) (t : Fin 16) (c : Cmd) (first n : Nat) : State :=
  s.updTenant t fun m =>
    { m with cmds := m.cmds.map fun d => if d.tag = c.tag then { d with delivering := some (first, n) } else d }

/-- Records written in ascending ID order until one finds its queue full (05 R214); with them, how many are written. -/
def State.putHost (s : State) (t : Fin 16) (lo hi : Nat) : List Cand → State × Nat
  | [] => (s, 0)
  | k :: r =>
    if (s.tenant t).table.stalls lo hi then (s, 0)
    else
      let p := (s.putCand t k).putHost t lo hi r
      (p.1, p.2 + 1)

/-- A HOST_CAND goes on from its record `at'`: it completes once every record is written and none waits for room. In a later frame
nothing is left to write or to wait for. DEDUCED; log 118 (05 R214, R215; 11 R431). -/
def State.goOnHost (s : State) (t : Fin 16) (c : Cmd) (first at' : Nat) : State :=
  let rs := s.hostRecords t c first
  let hi := first + rs.length
  let full := BitVec.ofNat 160 (first + rs.length * 2 ^ 32)
  if ! s.frame.inFrame || s.frame.opening || c.stamp.hostFrame ≠ s.frame.seq then s.completeCmd t c codeOk full
  else
    let p := s.putHost t first hi (rs.drop at')
    let s := p.1
    if at' + p.2 = rs.length && ! (s.tenant t).table.stalls first hi then s.completeCmd t c codeOk full
    else s.deliverHost t c first (at' + p.2)

/-- HOST_CAND_JUDGE (04 R177, 11 R431): in its frame the command is judged whole, and either refused or its records are
written and queued. A faulty record is reported before a range too short for the records. DESIGN CHOICE; log 113. A full queue stalls the
command (05 R214). -/
def State.judgeHost (s : State) (t : Fin 16) (tag : Nat) : State :=
  match (s.tenant t).cmds.find? fun c => c.tag = tag && c.opcode = 6 && c.waiting with
  | none => s
  | some c =>
    if s.held then s
    else if c.delivering.isSome then
      s.goOnHost t c (c.delivering.getD (0, 0)).1 (c.delivering.getD (0, 0)).2
    else if s.frame.opening || s.frame.seq < c.stamp.hostFrame || ! s.hostTurn t c then s
    else if s.hostPassed c then s.completeCmd t c codePassed 0
    else
      let n := s.tenant t
      let rs := chunks 128 (c.data.length / 128 + 1) c.data
      let flaws := ((List.range rs.length).zip rs).flatMap fun p => hostFlaws n.search.image n.search.limits p.2 (128 * p.1)
      if flaws ≠ [] then s.refuseCmd t c codeBad (flaws.foldl min 0xFFFFFFFF) true
      else if 1152 < n.search.hostNext + rs.length then s.refuseCmd t c codeLength 20 false
      else
        let first := n.search.hostNext
        let s := s.updSearch t fun f => { f with hostNext := first + rs.length }
        (s.noteInput t s.frame.seq c.stamp.order 6 c.data).goOnHost t c first 0

/-- HOST_CAND_JUDGE -/
def execHostCandJudge (t : Fin 16) (tag : Nat) (s : State) : Host.Outcome State Fault Refusal := done (s.judgeHost t tag)

/-! ### The stops (01 R47 to R50; 05 R210, R783) -/

/-- ⌈V0_HI / PARAM⌉ ms (04 R174). -/
def stopDuration (v0Hi param : Nat) : Word := BitVec.ofNat 32 (cdiv v0Hi (max 1 param))

/-- The common fields of a stop (04 R174; 07 R778: COMPANION +0.0). -/
def State.stopBase (s : State) (t : Fin 16) (id decel : Nat) : Cand :=
  s.stampCand t { Cand.blank with id := id, origin := 2, kind := 2, param := BitVec.ofNat 16 decel }

/-- What the stops of a frame start from: the record without its deceleration, the exact speed, path and acceleration at
the epoch, and the primitives of its path. -/
structure StopBasis where
  base : Cand
  speed : Int × Nat
  arc : Int × Nat
  acc : Int × Nat
  prims : List Prim

/-- The stop without a plan: from the measurement block, or at rest at the origin (01 R50). -/
def State.freshStop (s : State) (t : Fin 16) : StopBasis :=
  let c := s.stopBase t 0 0
  match (s.tenant t).solver.meas with
  | some (_, m) =>
    let v := BitVec.ofNat 32 (m.speed.toNat * 1000)
    let b : Cand := { c with x := m.x, y := m.y, heading := m.heading, speed := m.speed, v0Lo := v, v0Hi := v }
    { base := b, speed := (m.speed.toNat, 1), arc := (0, 1), acc := (0, 1), prims := [] }
  | none => { base := c, speed := (0, 1), arc := (0, 1), acc := (0, 1), prims := [] }

/-- The stop built from a plan that is no stop: its path copied, and its state at the epoch (05 R210). Where the plan
diverges before the epoch the bounds are those of the whole field, so that no check can be CLEAR. DEDUCED; log 17. -/
def State.planStop (s : State) (t : Fin 16) (p : Plan) (pUs : Nat) : StopBasis :=
  let r := p.rec'
  let m := r.motion p.prims p.decel
  let w := planWalk r m s.cellCm (tauOf s.sliceMs)
  let e := (w.epoch (tauOf s.sliceMs) pUs).getD (⟨0, 2 ^ 32 - 1⟩, ⟨0, 2 ^ 32 - 1⟩)
  let sat (x : Int) : Word := BitVec.ofNat 32 (min (2 ^ 32 - 1) x.toNat)
  let b : Cand := { s.stopBase t 0 0 with
    x := r.x, y := r.y, heading := r.heading, speed := r.speed, mode := r.mode, count := r.count, geom := r.geom,
    planKind := decide (r.kind = 1), planParam := if r.kind = 1 then r.param else 0, planDurationMs := r.durationMs,
    planDecel := BitVec.ofNat 16 p.decel, arc0Lo := sat e.1.lo, arc0Hi := sat e.1.hi, v0Lo := sat e.2.lo,
    v0Hi := sat e.2.hi, outside := p.outside }
  { base := b, speed := m.speedAt pUs, arc := m.arcAt pUs, acc := m.accAt pUs, prims := p.prims }

/-- Distance s(v) of 05 R783 in µm, as a fraction, for a speed in µm/s. -/
def stopDist (v a pUs : Nat) : Int × Nat :=
  if a * pUs ≤ 1000 * v then ((2000 * v * pUs : Nat) - (a * pUs * pUs : Nat), 2000000000)
  else ((v * v : Nat), 2000 * a)

/-- A continued stop: the path of the stop T, and its state at the epoch from T's own bounds (05 R783). -/
def State.continuedStop (s : State) (t : Fin 16) (p : Plan) (pUs : Nat) : StopBasis :=
  let r := p.rec'
  let a := r.param.toNat
  let cell := s.cellCm
  let arcOf (v : Nat) (up : Bool) : Int :=
    let d := stopDist v a pUs
    let n := d.1 * 65536
    let q : Int := ((d.2 * cell * 10000 : Nat) : Int)
    if up then - ((-n) / q) else n / q
  let vOf (v : Nat) (up : Bool) : Nat :=
    let n : Int := (1000 * v : Nat) - (a * pUs : Nat)
    if n ≤ 0 then 0 else if up then cdiv n.toNat 1000 else n.toNat / 1000
  let sat (x : Int) : Word := BitVec.ofNat 32 (min (2 ^ 32 - 1) x.toNat)
  let b := brake p.speedQ a pUs
  let c : Cand := { s.stopBase t 0 0 with
    x := r.x, y := r.y, heading := r.heading, speed := r.speed, mode := r.mode, count := r.count, geom := r.geom,
    planKind := r.planKind, planParam := r.planParam, planDurationMs := r.planDurationMs, planDecel := r.planDecel,
    continued := true, arc0Lo := sat (r.arc0Lo.toNat + arcOf r.v0Lo.toNat false),
    arc0Hi := sat (r.arc0Hi.toNat + arcOf r.v0Hi.toNat true), v0Lo := BitVec.ofNat 32 (vOf r.v0Lo.toNat false),
    v0Hi := BitVec.ofNat 32 (vOf r.v0Hi.toNat true), outside := p.outside }
  let acc : Int × Nat := if b.2.1 = 0 then (0, 1) else (- (a : Int), 1)
  { base := c, speed := b.2, arc := fracAdd p.arcQ b.1, acc := acc, prims := p.prims }

/-- The basis of a tenant's stops in the frame that begins, with the time from its plan's epoch to the frame's (01 R47,
R50). -/
def State.stopBasis (s : State) (t : Fin 16) : StopBasis × Nat :=
  match (s.tenant t).table.lastPlan with
  | none => (s.freshStop t, 0)
  | some p =>
    let pUs := s.frame.tickAt + s.period - p.epochUs
    (if p.rec'.kind = 2 then s.continuedStop t p pUs else s.planStop t p pUs, pUs)

/-- A stop of a basis at a deceleration: its ID, PARAM, parent and duration (01 R47, R48; 04 R174). -/
def StopBasis.stop (k : StopBasis) (id decel : Nat) : Cand :=
  { k.base with
    id := id, parent := BitVec.ofNat 32 id, param := BitVec.ofNat 16 decel, durationMs := stopDuration k.base.v0Hi.toNat decel }

/-- What later stages read of the stops' basis (05 R210; 04 R149). -/
def Table.noteBasis (b : Table) (k : StopBasis × Nat) : Table :=
  { b with stopPrims := k.1.prims, stopAgeUs := k.2, stopSpeed := k.1.speed, stopArc := k.1.arc, stopAcc := k.1.acc }

/-- The Hedgehog and the emergency stop of the frame, built and queued, for a tenant with a frame program; a tenant without one has no
plan that a later frame could follow (01 R43, R47 to R50, R52). -/
def State.buildStops (s : State) (t : Fin 16) : State :=
  if ! (s.tenant t).live then s
  else if ! (s.tenant t).hasProgram then s.updTable t fun b => { b with lastPlan := none }
  else
    let k := s.stopBasis t
    let l := (s.tenant t).search.limits
    let s := s.updTable t fun b => b.noteBasis k
    (s.putCand t (k.1.stop 0 l.decelComfort.toNat)).putCand t (k.1.stop 1 l.decelDyn.toNat)

/-- A measurement block of the frame changes the stops of a tenant without a published plan before its seal; they keep their
places in the queues (01 R50; 06 R238). -/
def State.remeasureStops (s : State) (t : Fin 16) : State :=
  let n := s.tenant t
  if n.table.lastPlan.isSome || n.world.view.isSome || ! s.frame.inFrame || s.frame.opening then s
  else
    let k := s.stopBasis t
    let l := n.search.limits
    let s := s.updTable t fun b => b.noteBasis k
    (s.updCand t 0 fun _ => k.1.stop 0 l.decelComfort.toNat).updCand t 1 fun _ => k.1.stop 1 l.decelDyn.toNat

end Sys2Proof.Machine
end

