-- ==== Sys2Proof/Machine/Burrow.lean ====
section
/-! DEFINITION. The commands of Burrow (03): INGEST, the application of its records, rasterisation and the seal. -/
namespace Sys2Proof.Machine
open Sys2Proof

/-! ### INGEST (03 R111 to R115) -/

/-- A job put in its place in doorbell order (03 R115). -/
def insertJob (j : Job) : List Job → List Job
  | [] => [j]
  | a :: r => if j.stamp.order < a.stamp.order then j :: a :: r else a :: insertJob j r

/-- INGEST (03 R111 to R115): the command is checked whole, then refused with nothing changed, or its records wait to be
applied; a stream without records is applied at once. -/
def State.ingest (s : State) (t : Fin 16) (tag : Nat) (buf : List Byte) : State :=
  match s.cmdFor t tag 1 with
  | none => s
  | some c =>
    if s.held then s
    else if ! s.hasWorld t then s.refuseCmd t c codeBad 0 false
    else
      match s.cmdData c buf with
      | none => s.completeCmd t c codeMemoryUe 0
      | some d =>
        match checkStream d with
        | .error (code, off) => s.refuseCmd t c code off true
        | .ok rs =>
          let s := s.noteInput t c.stamp.frame c.stamp.order 1 d
          if rs = [] then s.completeCmd t c codeOk 0
          else (s.holdCmd t c []).updWorld t fun w => { w with jobs := insertJob ⟨tag, c.stamp, rs⟩ w.jobs }

/-- INGEST -/
def execIngest (t : Fin 16) (tag : Nat) (buf : List Byte) (s : State) : Host.Outcome State Fault Refusal :=
  done (s.ingest t tag buf)

/-! ### Records (03 R115 to R118, R124) -/

/-- A stamp's frame has begun and, in STATIC and LOCKSTEP modes, its D_0 has passed (01 R33, 14 R529). -/
def State.effective (s : State) (st : Stamp) : Bool :=
  ! s.frame.opening && (st.frame < s.frame.seq || (st.frame = s.frame.seq && (s.det = 0 || 1 ≤ s.frame.passed)))

/-- Every command of the tenant with an earlier doorbell has been fetched, and every INGEST among them accepted (03 R115). -/
def State.ingestTurn (s : State) (t : Fin 16) (j : Job) : Bool :=
  let n := s.tenant t
  (n.queues.toList.all fun q => q.published.all fun st => j.stamp.order < st.order)
    && n.cmds.all fun c => c.opcode ≠ 1 || c.waiting || j.stamp.order < c.stamp.order

/-- Agents applied and not yet marked, before the seal: records later in the stream wait for their marks (03 R115, R118, R139).
DEDUCED; log 80. -/
def World.marking (w : World) : Bool :=
  w.view.isNone && (List.range w.agents.length).any fun i => ! w.marked.contains i

/-- The record Burrow applies next, with the tenant's share; none while it may not begin (03 R115, 14 R529). -/
def State.nextRecord (s : State) (t : Fin 16) : Option Record :=
  match (s.tenant t).world.jobs with
  | [] => none
  | j :: _ =>
    if (s.tenant t).world.marking then none
    else if s.held || s.halted || (s.tenant t).state ≠ .active || ! s.effective j.stamp || ! s.ingestTurn t j then none
    else j.records.head?

/-- The head record leaves its job; a command whose records are all applied completes with OK (03 R115). -/
def State.popRecord (s : State) (t : Fin 16) : State :=
  match (s.tenant t).world.jobs with
  | [] => s
  | j :: r =>
    match j.records with
    | _ :: x :: l => s.updWorld t fun w => { w with jobs := { j with records := x :: l } :: r }
    | _ =>
      let s := s.updWorld t fun w => { w with jobs := r }
      match (s.tenant t).cmds.find? fun c => c.tag = j.tag with
      | some c => s.completeCmd t c codeOk 0
      | none => s

/-- MIXED_TILE (03 R117, R126, R138, R144): the head record, where it is one, is applied. -/
def State.applyMixedTile (s : State) (t : Fin 16) : State :=
  match s.nextRecord t with
  | some (.mixedTile tx ty d) => (s.updWorld t fun w => w.applyMixed (s.tileShare t) tx ty d).popRecord t
  | _ => s

/-- MIXED_TILE -/
def execMixedTile (t : Fin 16) (s : State) : Host.Outcome State Fault Refusal := done (s.applyMixedTile t)

/-- UNIFORM_TILES (03 R117). -/
def State.applyUniformTiles (s : State) (t : Fin 16) : State :=
  match s.nextRecord t with
  | some (.uniformTiles x0 y0 x1 y1 v) => (s.updWorld t fun w => w.applyUniform (rectTiles x0 y0 x1 y1) v).popRecord t
  | _ => s

/-- UNIFORM_TILES -/
def execUniformTiles (t : Fin 16) (s : State) : Host.Outcome State Fault Refusal := done (s.applyUniformTiles t)

/-- SCROLL (03 R118). -/
def State.applyScroll (s : State) (t : Fin 16) : State :=
  match s.nextRecord t with
  | some (.scroll dx dy) => (s.updWorld t fun w => w.applyScroll dx dy).popRecord t
  | _ => s

/-- SCROLL -/
def execScroll (t : Fin 16) (s : State) : Host.Outcome State Fault Refusal := done (s.applyScroll t)

/-- REGION (03 R117). -/
def State.applyRegion (s : State) (t : Fin 16) : State :=
  match s.nextRecord t with
  | some (.region x0 y0 x1 y1 c) => (s.updWorld t fun w => w.applyRegion (rectTiles x0 y0 x1 y1) c).popRecord t
  | _ => s

/-- REGION -/
def execRegion (t : Fin 16) (s : State) : Host.Outcome State Fault Refusal := done (s.applyRegion t)

/-- AGENT_LIST (03 R124): its agents take the next indices of the frame. -/
def State.applyAgentList (s : State) (t : Fin 16) : State :=
  match s.nextRecord t with
  | some (.agentList l) => (s.updWorld t fun w => { w with agents := w.agents ++ l }).popRecord t
  | _ => s

/-- AGENT_LIST -/
def execAgentList (t : Fin 16) (s : State) : Host.Outcome State Fault Refusal := done (s.applyAgentList t)

/-- AGENT_RASTERISE (03 R123 to R126): the lowest applied agent not yet marked is marked in every slice, before the seal. -/
def State.rasteriseAgent (s : State) (t : Fin 16) : State :=
  let w := (s.tenant t).world
  let next := (List.range w.agents.length).find? fun i => ! w.marked.contains i
  match next with
  | none => s
  | some i =>
    match w.agents[i]? with
    | none => s
    | some a =>
      if s.held || s.halted || w.view.isSome then s
      else s.updWorld t fun w => w.rasterise (s.tileShare t) s.sliceMs s.sliceCount i a

/-- AGENT_RASTERISE -/
def execAgentRasterise (t : Fin 16) (s : State) : Host.Outcome State Fault Refusal := done (s.rasteriseAgent t)

/-! ### The seal (01 R34; 03 R119, R128 to R133; 11 R434) -/

/-- A start pose translated by a scroll sum, saturated and marked where it leaves the fields' range (03 R119). -/
def Cand.translate (c : Cand) (dx dy : Int) : Cand :=
  let x := c.x.toInt - 1024 * dx
  let y := c.y.toInt - 1024 * dy
  { c with
    x := BitVec.ofInt 16 (satI16 x)
    y := BitVec.ofInt 16 (satI16 y)
    outside := c.outside || decide (satI16 x ≠ x) || decide (satI16 y ≠ y) }

/-- A plan translated likewise. -/
def Plan.translate (p : Plan) (dx dy : Int) : Plan :=
  let r := p.rec'.translate dx dy
  { p with rec' := r, outside := p.outside || r.outside }

/-- The last plan, the stops built from it, and candidates already written from the tenant's start pose (LATTICE and FOX) are
translated by the scroll sum (03 R119, 04 R149); without a plan the start pose refers to the grid after the scrolls (06 R237).
FOX candidates written before the seal: DEDUCED; log 32. -/
def Table.translate (b : Table) (dx dy : Int) : Table :=
  { b with
    lastPlan := b.lastPlan.map fun p => p.translate dx dy
    cands := b.cands.map fun p => if p.2.origin = 3 || b.lastPlan.isNone then p else (p.1, p.2.translate dx dy) }

/-- Every task of the tenant tagged P0 or P1 has retired (01 R34). -/
def Sched.earlyRetired (d : Sched) : Bool :=
  ! d.running || (List.range d.taskCount).all fun i =>
    2 ≤ trPhase (d.rec' i) || d.retired.contains i || d.cancelled.contains i

/-- A command with a doorbell before D_0 of the frame is unfetched, or an INGEST among them unjudged (11 R434). -/
def State.unfetched (s : State) (t : Fin 16) : Bool :=
  ((s.tenant t).queues.toList.any fun q => q.published.any fun st => st.frame ≤ s.frame.seq)
    || (s.tenant t).cmds.any fun c => c.opcode = 1 && ! c.waiting && c.stamp.frame ≤ s.frame.seq

/-- The tenant may be sealed now (01 R34): after D_0 with its early tasks retired and, in STATIC and LOCKSTEP modes, every record of the
frame applied, whether its command has been fetched or not (14 R529); or at D_1. -/
def State.sealDue (s : State) (t : Fin 16) : Bool :=
  let n := s.tenant t
  n.live && s.frame.inFrame && s.frame.passed < 8 && ! s.frame.opening && n.world.view.isNone
    && (2 ≤ s.frame.passed
      || (1 ≤ s.frame.passed && n.sched.earlyRetired
        && (s.det = 0 || (! s.unfetched t && n.world.jobs.all fun j => s.frame.seq < j.stamp.frame))))

/-- The seal's effect (01 R34; 03 R119, R128 to R133; 11 R434; 08 R322). A sum of scrolls beyond a signed byte is latched modulo 256.
DESIGN CHOICE; log 110. -/
def State.sealWorld (s : State) (t : Fin 16) : State :=
  let n := s.tenant t
  let w := n.world
  let due := (w.jobs.filter fun j => j.stamp.frame ≤ s.frame.seq).flatMap (·.records)
  let v := w.sealed due (s.unfetched t)
  let base := 0x200 + 0x20 * t.val
  let collapsed := w.agents.length - 1024
  let s := s.setLive 0x06 (base + 0x08) (toField 8 w.scrollX + toField 8 w.scrollY * 2 ^ 8)
  let s := s.setLive 0x06 (base + 0x0C) (min 0xFFFF w.cntDyn + min 0x7FFF w.cntStat * 2 ^ 16 + b2n v.late * 2 ^ 31)
  let s := s.setLive 0x06 (base + 0x10) (min 0xFFFF w.agents.length + min 0xFFFF collapsed * 2 ^ 16)
  let s := s.updWorld t fun w => { w with view := some v, scrollX := 0, scrollY := 0, cntDyn := 0, cntStat := 0 }
  let s := s.updTable t fun b => b.translate w.scrollX w.scrollY
  let noShape := match n.sched.image with | some p => p.dims ≠ 0 && n.sched.shape.isNone | none => false
  if n.sched.running && noShape then s.programFault t codeNoBucket else s

/-- WORLD_SEAL (01 R34). -/
def execWorldSeal (t : Fin 16) (s : State) : Host.Outcome State Fault Refusal :=
  done (if ! s.held && ! s.halted && s.sealDue t then s.sealWorld t else s)

end Sys2Proof.Machine
end

