-- ==== Sys2Proof/Machine/Parts.lean ====
section
/-! DEFINITION. Parts of COMPUTE tasks on the cores: start, steal, end, faults and the loss of a core (08 R304, R328, R329; 10
R382, R383, R396, R409; 13 R507). -/
namespace Sys2Proof.Machine
open Sys2Proof

/-- A core by its logical number. -/
def State.core (s : State) (c : Nat) : Core := bget Core.reset s.cores c

/-- The tenant that leases a core. -/
def State.coreTenant (s : State) (c : Nat) : Option (Fin 16) :=
  (allFin 16).find? fun t => (s.tenant t).exists' && bit (s.coreMask t) c

/-- The lowest virtual index a core hosts (13 R501). -/
def State.lowestVcore (s : State) (t : Fin 16) (c : Nat) : Nat := ((s.coresOf t).findIdx? (· = c)).getD 0

/-! ### Faults (08 R328, 13 R507) -/

/-- C_FAULT takes the first program fault since it was last read (08 R327, R328). -/
def State.coreFault (s : State) (c : Nat) (t : Fin 16) (slot : Nat) (code : Byte) : State :=
  if bits (s.live (corePage c) 0x104) 7 0 = 0 then
    s.setLive (corePage c) 0x104 (code.toNat + t.val * 2 ^ 8 + slot % 4096 * 2 ^ 16)
  else s

/-- The slot of a tenant's task. -/
def State.slotOf (s : State) (t : Fin 16) (i : Nat) : Nat :=
  match (s.tenant t).sched.task i with
  | some k => k.slot
  | none => 0

/-- A task of a core's part faults: C_FAULT, and the program fault (13 R507). -/
def State.faultPart (s : State) (c : Nat) (r : Run) (code : Byte) : State :=
  (s.coreFault c r.part.tenant (s.slotOf r.part.tenant r.part.task) code).programFault r.part.tenant code

/-! ### End of a part (10 R379, R384) -/

/-- The part a core runs has ended: its time counts in LOAD, and its task retires with its last part (10 R379, R400). -/
def State.endPart (s : State) (c : Nat) : State :=
  match (s.core c).run with
  | none => s
  | some r =>
    let t := r.part.tenant
    let s := s.updCore c (s.haltCore ·)
    let s := s.updSched t fun d => d.updTask r.part.task fun k => { k with partsLeft := k.partsLeft - 1 }
    match (s.tenant t).sched.task r.part.task with
    | some k => if k.partsLeft = 0 && k.st = .started then s.finishTask t r.part.task k.status else s
    | none => s

/-! ### Start and steal (10 R383, R396; 08 R304) -/

/-- Bin of the wait-time histogram (10 R400). -/
def waitBin (us : Nat) : Nat :=
  if us < 1 then 0 else if us < 2 then 1 else if us < 4 then 2 else if us < 8 then 3 else if us < 16 then 4
  else if us < 64 then 5 else if us < 256 then 6 else 7

/-- The address of a pointer-list entry (08 R315). -/
def listAddr (g : BitVec 512) (e : Nat) : Nat := gdField g 16 8 + 24 * e

/-- The pointer-list entry of a listed GEMM's unit: the descriptor and the entry's number (08 R316). -/
def State.listOf (s : State) (p : PartRef) : Option (BitVec 512 × Nat) :=
  let d := (s.tenant p.tenant).sched
  (d.image.bind fun im => im.gemms[trWork (d.rec' p.task)]?).bind fun g =>
    if gdList g then some (g, p.unit / max 1 (d.bucketBands g)) else none

/-- A pointer-list entry as a core has read it in the frame. -/
def Core.listed (k : Core) (p : PartRef) (e : Nat) : Option ListEntry :=
  k.entries.find? fun x => x.tenant = p.tenant && x.task = p.task && x.entry = e

/-- Addresses of A, B and C of a unit: the descriptor's, or those of its pointer-list entry, which a core reads as it starts the entry's
first band there (08 R315 to R317). -/
def State.unitAddrs (s : State) (c : Nat) (p : PartRef) : Nat × Nat × Nat :=
  match s.listOf p with
  | some (g, e) =>
    match (s.core c).listed p e with
    | some x => x.addrs
    | none => let b := s.dramRead (listAddr g e) 24; (u64At b 0, u64At b 8, u64At b 16)
  | none =>
    let d := (s.tenant p.tenant).sched
    match d.image.bind fun im => im.gemms[trWork (d.rec' p.task)]? with
    | some g => (gdField g 16 8, gdField g 24 8, gdField g 32 8)
    | none => (0, 0, 0)

/-- The fault of reading a pointer-list entry: outside the lease, or poisoned (08 R326; 19 R728). -/
def State.listFault (s : State) (c : Nat) (p : PartRef) : Option Byte :=
  match s.listOf p with
  | some (g, e) =>
    if ((s.core c).listed p e).isSome then none
    else if ! s.inLease p.tenant (listAddr g e) 24 then some codeAccess
    else if s.dram.poisoned (listAddr g e) 24 then some codeMemoryUe
    else none
  | none => none

/-- A core with a pointer-list entry noted as read. -/
def Core.noteEntry (k : Core) (p : PartRef) (e : Nat) (addrs : Nat × Nat × Nat) : Core :=
  if (k.listed p e).isSome then k else { k with entries := k.entries ++ [{ tenant := p.tenant, task := p.task, entry := e, addrs := addrs }] }

/-- A part that starts: from its first step, or after the output tiles that a core which left UP has completed (08 R329). -/
def startRun (p : PartRef) (now : Nat) (addrs : Nat × Nat × Nat) (chain : Bool) (tiles : Nat) : Run :=
  let n := match p.resume with | some x => x.col | none => 0
  { part := p, startAt := now, addrs := addrs, col := if chain then 0 else n, kStep := 0, second := false, acc := [], closing := false,
    half := false, from' := if chain then n else 0, since := now, band := [], rowM := [], rowL := [], oAcc := [], rowBad := [],
    outgoing := match p.resume with | some x => x.outgoing | none => none
    stop := false, finished := p.resume.isSome && decide (tiles ≤ n) }

/-- Whether a part's GEMM begins a chain, and the number of output tiles of its band: those of the GEMM that stores (09 R349, R351). -/
def State.bandShape (s : State) (p : PartRef) : Bool × Nat :=
  let d := (s.tenant p.tenant).sched
  match d.image with
  | none => (false, 0)
  | some im =>
    match im.gemms[trWork (d.rec' p.task)]? with
    | none => (false, 1)
    | some g =>
      let f := fusionOf im g
      let h := if fuChain f = 0 then g else lget 0 im.gemms (fuField f 6 2)
      (fuChain f ≠ 0, if fuChain f = 2 then 1 else cdiv (extentOf d.dims (gdField h 8 4)) (gdField h 54 2))

/-- A part starts on a core: its store is zeroed for another tenant's first task, its counters advance, and the highest
operand byte used becomes a free value of the operand area, since the spec places no buffer in it (08 R301, R304, R327; 10
R400; log 34). -/
def State.beginPart (s : State) (c : Nat) (p : PartRef) : State :=
  let t := p.tenant
  let addrs := s.unitAddrs c p
  let fault := s.listFault c p
  let shape := s.bandShape p
  let r := startRun p s.now addrs shape.1 shape.2
  let peak := 0x40000 + (Config.freeWord s.draws).toNat % 0xB0000
  let entry := s.listOf p
  let s := s.draw
  let s := s.setLive (corePage c) 0x118 (max (s.live (corePage c) 0x118) peak)
  let s := s.updCore c fun k =>
    let k := match entry with | some (_, e) => k.noteEntry p e addrs | none => k
    { k with
      run := some r, store := if k.owner = some t then k.store else [], owner := some t, parts := min 0xFFFF (k.parts + 1)
      hist := bupd k.hist (waitBin (s.now - p.readyAt)) fun n => min 0xFFFF (n + 1) }
  let s := s.updSched t fun d => d.updTask p.task fun k =>
    if k.st = .started then k else { k with st := .started, startAt := s.now }
  let s := s.traceTask 3 t p.task p.vcore 0 0
  match fault with
  | some code => s.faultPart c r code
  | none => s

/-- A tenant's core with the most ready units to give, the lowest virtual index on a tie (10 R396). -/
def State.victim (s : State) (t : Fin 16) (c : Nat) : Option Nat :=
  ((s.coresOf t).filter fun v => v ≠ c && (s.core v).ready ≠ []).foldl
    (fun b v => match b with
      | none => some v
      | some w => if (s.core w).ready.length < (s.core v).ready.length then some v else some w) none

/-- In FREE mode with STEAL, an idle core takes the last ready unit of the victim (10 R396, R397; 08 R314). -/
def State.stealPart (s : State) (c : Nat) : State :=
  match s.coreTenant c with
  | none => s
  | some t =>
    if s.det ≠ 0 || ! bit (s.live 0x04 (0x200 + 0x20 * t.val)) 0 then s
    else
      match s.victim t c with
      | none => s
      | some v =>
        match (s.core v).ready.getLast? with
        | none => s
        | some p =>
          let s := s.updCore v fun k => { k with ready := k.ready.dropLast }
          let s := s.updCore c fun k => { k with steals := min 0xFFFF (k.steals + 1) }
          let s := s.traceTask 4 t p.task (s.lowestVcore t c) 0 (s.lowestVcore t v)
          s.beginPart c p

/-- COMPUTE_PART_START (10 R383, R396): an idle usable core takes the first part of its list, or steals one. -/
def State.startPart (s : State) (c : Nat) : State :=
  let k := s.core c
  if s.held || s.halted || ! s.frame.inFrame || s.frame.opening || ! s.usable .core c || k.run.isSome then s
  else
    match k.ready with
    | p :: rest => (s.updCore c fun k => { k with ready := rest }).beginPart c p
    | [] => s.stealPart c

/-- COMPUTE_PART_START -/
def execComputePartStart (c : Fin 48) (s : State) : Host.Outcome State Fault Refusal := done (s.startPart c.val)

/-! ### A core leaves UP (08 R329, 10 R409) -/

/-- The tenant's next usable core after a core, in ascending virtual index and wrapping (08 R329). -/
def State.nextCore (s : State) (t : Fin 16) (c : Nat) : Option Nat :=
  let l := s.coresOf t
  ((l.filter fun v => c < v) ++ l.filter fun v => v < c).find? fun v => s.usable .core v

/-- A started part put back: the complete output tiles of its band stay, the others are discarded (08 R329; 09 R372). That the complete
ones are not computed again is DEDUCED; log 124. -/
def Run.putBack (r : Run) (chain : Bool) : PartRef :=
  let n := if ! chain then r.col else if r.second then (if r.finished then max r.col 1 else r.col) else r.from'
  { r.part with resume := some { col := n, outgoing := if chain && ! r.second then none else r.outgoing } }

/-- A core that has left UP: its started part restarts at its first incomplete output tile, and its ready parts move with their order, to
the tenant's next usable core; with none, their tasks end with UNIT_FENCED and the frame has lost a fenced unit. -/
def State.coreLost (s : State) (c : Nat) : State :=
  let k := s.core c
  let l := (match k.run with | some r => [r.putBack (s.bandShape r.part).1] | none => []) ++ k.ready
  let s := s.updCore c fun k => { s.haltCore k with ready := [] }
  s.forEach l fun s p =>
    match s.nextCore p.tenant c with
    | some v => (s.updCore v fun k => { k with ready := insertPart p k.ready }).notePeak v
    | none =>
      match (s.tenant p.tenant).sched.task p.task with
      | some _ => (s.finishTask p.tenant p.task codeFenced).failFrame p.tenant codeFenced
      | none => s

end Sys2Proof.Machine
end

