-- ==== Sys2Proof/Machine/Links.lean ====
section
/-! DEFINITION. Dellane frames (15 R559 to R574): the header and its CRC, credits and egress, routing, inbound windows,
requests of the DMA engine and their responses. -/
namespace Sys2Proof
open Sys2Proof.Machine

/-! ### The header (15 R559) -/

/-- The 32 bytes of a frame's header, with a TTL and a CRC. -/
def LinkFrame.header (f : LinkFrame) (ttl : Byte) (crc : Word) : List Byte :=
  [f.kind, ttl] ++ leBytes 2 f.dest.toNat ++ leBytes 2 f.src.toNat ++ leBytes 2 f.len.toNat ++ leBytes 4 f.tag.toNat
    ++ leBytes 2 f.stat.toNat ++ [f.attnSeq, f.reserved] ++ leBytes 8 f.addr.toNat ++ leBytes 4 f.aux.toNat
    ++ leBytes 4 crc.toNat

/-- CRC-32 over header and payload with TTL and CRC taken as 0 (15 R559). -/
def LinkFrame.crcOf (f : LinkFrame) : Word := crc32 (f.header 0 0 ++ f.payload)
/-- A frame with its CRC. -/
def LinkFrame.signed (f : LinkFrame) : LinkFrame := { f with crc := f.crcOf }
/-- Virtual channel of a frame: 0 request, 1 response, 2 control (15 R559). -/
def LinkFrame.vc (f : LinkFrame) : Nat := f.kind.toNat / 16
/-- The kinds assigned (15 R560). -/
def frameKinds : List Nat := [1, 2, 3, 4, 0x11, 0x12, 0x14, 0x15, 0x21, 0x22, 0x23, 0x24, 0x25, 0x26]

/-- The reserved bits of AUX and ADDR by kind (15 R560). -/
def LinkFrame.fieldsOk (f : LinkFrame) : Bool :=
  let a := f.aux.toNat
  match f.kind.toNat with
  | 0x01 => a = 0 && 1 ≤ f.len.toNat
  | 0x02 => 1 ≤ a && a ≤ 256 && f.len = 0
  | 0x03 => f.addr = 0 && a < 16 && f.len = 0
  | 0x04 => bits a 23 20 = 0
  | 0x11 => f.len = 0
  | 0x14 => bits a 23 20 = 0
  | 0x15 => a < 16 && f.len = 256
  | 0x21 => f.len = 4
  | 0x22 => a = 0 && f.len = 0
  | 0x23 => a = 0 && f.addr = 0 && f.len = 0
  | 0x24 => a = 0 && f.addr = 0 && f.len = 0
  | 0x25 => bits a 31 14 = 0
  | _ => true

/-- A well-formed frame: its kind is assigned, LEN counts the payload, no reserved field is set, requests and control frames
carry no STAT, link-local frames no DEST, and the CRC matches (15 R559, R560). -/
def LinkFrame.valid (f : LinkFrame) : Bool :=
  frameKinds.contains f.kind.toNat && f.len.toNat = f.payload.length && f.len.toNat ≤ 256 && f.reserved = 0
    && (f.vc = 1 || (f.stat = 0 && f.attnSeq = 0)) && (f.vc ≠ 2 || f.dest = 0) && f.fieldsOk && f.crc = f.crcOf

end Sys2Proof

namespace Sys2Proof.Machine
open Sys2Proof

/-! ### Registers of the cascade (15 R592) -/

/-- CASCADE.ID.PKG_ID. -/
def State.pkgId (s : State) : BitVec 16 := BitVec.ofNat 16 (s.live 0x0D 0x100)
/-- CASCADE.MASTER_ID. -/
def State.masterId (s : State) : BitVec 16 := BitVec.ofNat 16 (s.live 0x0D 0x108)
/-- ROUTE[d]; 15 means no route (15 R564). -/
def State.route (s : State) (d : BitVec 16) : Nat := (mget 15 s.cascade.routes d.toNat).toNat
/-- A link of the part. -/
def State.link (s : State) (l : Nat) : Link := bget Link.reset s.links l
/-- A link's frames are unroutable: it has not been UP for 100 µs, or the assembly lacks it (15 R558). -/
def State.linkDead (s : State) (l : Nat) : Bool := (s.link l).dead || s.chip.nLinks ≤ l
/-- No frame for a package can leave: it has no route, its link is not UP, or the link is link 0 of a twin, which joins no other cascade
traffic. DEDUCED; log 133 (13 R509; 15 R567). -/
def State.noRoute (s : State) (d : BitVec 16) : Bool :=
  s.route d = 15 || s.linkDead (s.route d) || (s.owl.board.twin && s.route d = 0)
/-- An event of the CASCADE page's DROPS (15 R567, R574). -/
def State.dropRoute (s : State) : State := (s.updCascade fun c => { c with routeDrops := sat16 c.routeDrops }).raise 0x0D 1
/-- A frame discarded at its receiver (15 R560). -/
def State.dropFrame (s : State) : State := s.updCascade fun c => { c with routeDrops := sat16 c.routeDrops }
/-- A stale response (15 R574). -/
def State.dropStale (s : State) : State := s.updCascade fun c => { c with stale := sat16 c.stale }

/-! ### Egress (15 R562, R563) -/

/-- Frames leave a waiting channel in order while it has credits (15 R563). -/
def Link.drain (k : Link) (v : Fin 3) : Link :=
  let n := min (k.credits.at' v) (k.waiting.at' v).length
  { k with
    sent := k.sent ++ (k.waiting.at' v).take n
    waiting := k.waiting.upd v fun l => l.drop n
    credits := k.credits.upd v fun c => c - n }

/-- Every channel drained: control first, then responses, then requests (15 R562). -/
def Link.flush (k : Link) : Link := if k.st = .up then ((k.drain 2).drain 1).drain 0 else k

/-- A frame put behind those of its channel, a WITNESS frame before other responses (15 R562). -/
def Link.queueFrame (k : Link) (f : LinkFrame) : Link :=
  if h : f.vc < 3 then
    { k with waiting := k.waiting.upd ⟨f.vc, h⟩ fun l =>
        if f.kind = 0x15 then l.takeWhile (fun g => g.kind = 0x15) ++ f :: l.dropWhile (fun g => g.kind = 0x15) else l ++ [f] }
  else k

/-- A frame sent on a link, or waiting there for a credit or for the link (15 R557, R563). -/
def State.transmit (s : State) (l : Nat) (f : LinkFrame) : State := s.updLink l fun k => (k.queueFrame f).flush

/-! ### Frames of this package -/

/-- A request of this package. -/
def State.requestFrame (s : State) (kind : Byte) (dest : BitVec 16) (tag : Nat) (addr aux : Nat) (data : List Byte) : LinkFrame :=
  LinkFrame.signed
    { kind := kind, ttl := BitVec.ofNat 8 (s.live 0x0D 0x114), dest := dest, src := s.pkgId, len := BitVec.ofNat 16 data.length,
      tag := BitVec.ofNat 32 tag, stat := 0, attnSeq := 0, reserved := 0, addr := BitVec.ofNat 64 addr, aux := BitVec.ofNat 32 aux,
      crc := 0, payload := data }

/-- The response kind of a request (15 R560). -/
def responseKind (k : Byte) : Byte := if k = 2 then 0x12 else if k = 4 then 0x14 else 0x11

/-- This package's response to a request, with its STAT and ATTN_SEQ (15 R559, R574). -/
def State.answer (s : State) (f : LinkFrame) (result : Byte) (data : List Byte) : LinkFrame :=
  LinkFrame.signed
    { kind := responseKind f.kind, ttl := BitVec.ofNat 8 (s.live 0x0D 0x114), dest := f.src, src := s.pkgId,
      len := BitVec.ofNat 16 data.length, tag := f.tag, stat := s.stat none result, attnSeq := s.attnSeq none, reserved := 0,
      addr := f.addr, aux := f.aux, crc := 0, payload := data }

/-! ### Inbound access (15 R570 to R572) -/

/-- One enabled window admits a whole range for an ACTIVE tenant (15 R570). DEDUCED; log 137. -/
def State.windowOpen (s : State) (addr len : Nat) (wr : Bool) : Bool :=
  (List.range 8).any fun k =>
    let w := s.live 0x0D (0x120 + 4 * k)
    let t : Fin 16 := ⟨bits w 23 20, by have := Nat.mod_lt (w >>> 20) (show 0 < 2 ^ 4 by decide); simpa [bits] using this⟩
    let base := bits w 9 0 * 0x4000000
    bit w 31 && (! wr || bit w 30) && base ≤ addr && addr + len ≤ base + bits w 19 10 * 0x4000000
      && s.inLease t addr len && (s.tenant t).state = .active

/-- A WRITE, READ or DOORBELL performed at its destination: the state and the response. `l` is the link on which the frame
entered, none for a request of this package to itself (15 R570 to R572; 19 R728). -/
def State.perform (s : State) (l : Option Nat) (f : LinkFrame) : State × LinkFrame :=
  let a := f.addr.toNat
  match f.kind.toNat with
  | 1 =>
    if s.windowOpen a f.payload.length true && ! s.inFault then
      let s := s.dramWrite a f.payload
      (s, s.answer f codeOk [])
    else (s, s.answer f codeFenced [])
  | 2 =>
    let n := f.aux.toNat
    if ! s.windowOpen a n false || s.inFault then (s, s.answer f codeFenced [])
    else if s.dram.poisoned a n then (s, s.answer f codeMemoryUe [])
    else (s, s.answer f codeOk (s.dramRead a n))
  | _ =>
    let t : Fin 16 := ⟨f.aux.toNat % 16, Nat.mod_lt _ (by decide)⟩
    if (s.tenant t).state = .active then
      let s := s.linkDoorbell t (l.getD 8)
      (s, s.answer f codeOk [])
    else (s, s.answer f codeFenced [])

/-! ### Responses (15 R573, R574) -/

/-- A Jay run of a tenant's task passed through `f`. -/
def State.updSelRun (s : State) (t : Fin 16) (task : Nat) (f : SelRun → SelRun) : State :=
  { s with jays := s.jays.map fun (u : JayUnit) =>
      { u with run := match u.run with
          | some r => some (if r.req.tenant = t && r.req.task = task then f r else r)
          | none => none } }

/-- A COLL_RESULT for an outstanding pass: its part is kept, or the collective fails (15 R586, R587). The tag stays
outstanding until the last part. -/
def State.collResponse (s : State) (g : OutTag) (f : LinkFrame) : State :=
  let code : Byte := f.stat.setWidth 8
  let a := f.aux.toNat
  let drop (s : State) := s.updCascade fun c => { c with tags := c.tags.filter fun x => x.tag ≠ g.tag }
  if code ≠ codeOk then (drop s).updSelRun g.tenant g.task fun r => { r with failed := some code }
  else
    let n := bits a 31 28
    let s := s.updSelRun g.tenant g.task fun r =>
      { r with incoming := r.incoming ++ [(bits a 19 16, bits a 27 24, if n = 0 then 16 else n, f.payload)] }
    let have' := s.jays.toList.any fun u => match u.run with
      | some r => r.req.tenant = g.tenant && r.req.task = g.task
          && decide ((if n = 0 then 16 else n) ≤ r.incoming.countP fun x => x.1 = bits a 19 16)
      | none => false
    if have' then drop s else s

/-- The core that runs a unit of a task. -/
def State.coreRunning (s : State) (t : Fin 16) (i u : Nat) : Option Nat :=
  (List.range 48).find? fun c =>
    match (s.core c).run with
    | some r => r.part.tenant = t && r.part.task = i && r.part.unit = u
    | none => false

/-- A task that waits for responses alone holds its successors with a cross-package operation (14 R531 bit 6). DEDUCED; log 38. -/
def State.noteHeld (s : State) (t : Fin 16) (task : Nat) : State :=
  if (s.tenant t).sched.succs task = [] then s else s.noteTiming t 6

/-- A DMA task or a finished part whose last response has arrived ends (15 R573; 09 R361). -/
def State.endLinkWork (s : State) (g : OutTag) : State :=
  let mine := s.cascade.tags.filter fun x => x.tenant = g.tenant && x.task = g.task
  match g.core with
  | none =>
    if mine.isEmpty then (s.noteHeld g.tenant g.task).finishTask g.tenant g.task codeOk else s
  | some _ =>
    if mine.any fun x => x.core.isSome && x.unit = g.unit then s
    else
      match s.coreRunning g.tenant g.task g.unit with
      | some c =>
        match (s.core c).run with
        | some r => if (r.finished || r.stop) && r.outgoing.isNone then (s.noteHeld g.tenant g.task).endPart c else s
        | none => s
      | none => s

/-- L_PEER_STAT of the link on which a response came latches (15 R574). -/
def State.notePeer (s : State) (l : Option Nat) (f : LinkFrame) : State :=
  match l with
  | some i => s.updLink i fun k => { k with peerStat := f.stat, peerSeq := f.attnSeq }
  | none => s

/-- A response delivered here: L_PEER_STAT latches, and its request's tag is freed, its data stored, or its task faulted; a
response without an outstanding tag is stale (15 R573, R574). C_FAULT of a request without a core of its own is the tenant's
first core's. DESIGN CHOICE; log 35. -/
def State.deliverResponse (s : State) (l : Option Nat) (f : LinkFrame) : State :=
  let s := s.notePeer l f
  match s.cascade.tags.find? fun g => g.tag = f.tag.toNat with
  | none => s.dropStale
  | some g =>
    if g.kind = 4 then s.collResponse g f
    else
    let s := s.updCascade fun c => { c with tags := c.tags.filter fun x => x.tag ≠ g.tag }
    let code : Byte := f.stat.setWidth 8
    if code = codeOk then
      (if f.kind = 0x12 then s.writeResult g.tenant g.localAddr f.payload else s).endLinkWork g
    else
      let c := match g.core with | some c => c.val | none => lget 0 (s.coresOf g.tenant) 0
      (s.coreFault c g.tenant (s.slotOf g.tenant g.task) code).programFault g.tenant code

/-- A response sent from here: delivered here, dropped, or transmitted (15 R564, R567). -/
def State.sendResponse (s : State) (f : LinkFrame) : State :=
  if f.dest = s.pkgId then s.deliverResponse none f
  else if s.noRoute f.dest then s.dropRoute
  else s.transmit (s.route f.dest) f

/-- A request sent from here: performed here, answered as unroutable, or transmitted (15 R564, R567). -/
def State.sendRequest (s : State) (f : LinkFrame) : State :=
  if f.dest = s.pkgId then
    let r := s.perform none f
    r.1.deliverResponse none r.2
  else if s.noRoute f.dest then s.deliverResponse none (s.answer f codeFenced [])
  else s.transmit (s.route f.dest) f

/-- A destination package can be reached (09 R362; 15 R567). -/
def State.reachable (s : State) (d : BitVec 16) : Bool :=
  d = s.pkgId || ! s.noRoute d

/-- A link accepts one more request for a destination: this package, or a link that is UP with a request credit and none waiting for one
(09 R357; 15 R563). -/
def State.accepts (s : State) (d : BitVec 16) : Bool :=
  d = s.pkgId || (let k := s.link (s.route d); k.st = .up && k.waiting.at' 0 = [] && 0 < k.credits.at' 0)

/-- A request of a task issued with a tag of its own (15 R573). -/
def State.issueRequest (s : State) (t : Fin 16) (task : Nat) (core : Option (Fin 48)) (unit : Nat) (kind : Byte) (dest : BitVec 16)
    (addr aux loc : Nat) (data : List Byte) : State :=
  let tag := s.cascade.nextTag % 2 ^ 32
  let g : OutTag := { tag := tag, tenant := t, task := task, kind := kind, localAddr := loc, core := core, unit := unit }
  let s := s.updCascade fun c => { c with nextTag := c.nextTag + 1, tags := c.tags ++ [g] }
  s.sendRequest (s.requestFrame kind dest tag addr aux data)

/-- The frames of a range: offset and length of each, at most 256 bytes, ascending (15 R573). -/
def framePieces (len : Nat) : List (Nat × Nat) :=
  (List.range (cdiv len 256)).map fun i => (256 * i, min 256 (len - 256 * i))

end Sys2Proof.Machine
end

