-- ==== Sys2Proof/Machine/Cores.lean ====
section
/-! DEFINITION. The tensor cores (08 R294 to R317, R323 to R326; 09 R337 to R358, R368): reduction steps, prologue, epilogue, the KEEP
and SOFTMAX chains, forced cuts, and peer sends. -/
namespace Sys2Proof.Machine
open Sys2Proof

/-! ### Formats -/

/-- Bytes of an operand element: 0 INT8, 1 F8, 2 BF16. -/
def fmtSize (f : Nat) : Nat := if f = 2 then 2 else 1
/-- Bytes of an output element by OUT_FMT (09 R345). -/
def outSize (o : Nat) : Nat := match o with | 2 => 2 | 3 => 1 | 4 => 1 | _ => 4
/-- An element of a storage format as FP32, exactly: 0 INT8, 1 F8. -/
def byteToF32 (f8 : Bool) (x : Nat) : Nat := if f8 then f8ToF32 x else fpOfInt fp32 (sext 8 x)
/-- A stored output read back as FP32 (09 R347). -/
def outToF32 (o x : Nat) : Nat :=
  match o with
  | 2 => bf16ToF32 x
  | 3 => f8ToF32 x
  | 4 => fpOfInt fp32 (sext 8 x)
  | _ => x
/-- convert(y, OUT_FMT) (09 R345). -/
def convertOut (o y : Nat) : Nat :=
  match o with
  | 2 => f32ToBf16 y
  | 3 => f32ToF8 y
  | 4 => f32ToI8 y
  | _ => y
/-- A residual element as FP32 by RES_FMT (09 R344). -/
def resToF32 (f x : Nat) : Nat :=
  match f with
  | 1 => bf16ToF32 x
  | 2 => f8ToF32 x
  | 3 => fpOfInt fp32 (sext 8 x)
  | _ => x
/-- Bytes of a residual element. -/
def resSize (f : Nat) : Nat := match f with | 0 => 4 | 1 => 2 | _ => 1
/-- An operand as the array takes it: flushed, as FP32 or as the pattern of a signed integer (08 R298). -/
def operand (fmt x : Nat) : Nat :=
  match fmt with
  | 0 => toField 32 (sext 8 x)
  | 1 => f8ToF32 (f8Flush x)
  | _ => bf16ToF32 (bf16Flush x)
/-- One multiply-accumulate (08 R297, R299). -/
def macStep (fmt a b acc : Nat) : Nat := if fmt = 0 then (acc + a * b) % 2 ^ 32 else ffma a b acc

/-! ### A unit's GEMM -/

/-- What a unit of a GEMM works on: the descriptor, its fusion record, the actual extents, its addresses and its rows. -/
structure GemmCtx where
  w : BitVec 512
  f : BitVec 1024
  m : Nat
  n : Nat
  k : Nat
  a : Nat
  b : Nat
  c : Nat
  row0 : Nat
  rows : Nat

/-- FORMAT. -/
def GemmCtx.fmt (g : GemmCtx) : Nat := bits (gdField g.w 0 1) 1 0
/-- ACC_INIT. -/
def GemmCtx.accInit (g : GemmCtx) : Bool := bit (gdField g.w 1 1) 0
/-- LDA. -/
def GemmCtx.lda (g : GemmCtx) : Nat := gdField g.w 40 4
/-- LDB. -/
def GemmCtx.ldb (g : GemmCtx) : Nat := gdField g.w 44 4
/-- LDC. -/
def GemmCtx.ldc (g : GemmCtx) : Nat := gdField g.w 48 4
/-- TM. -/
def GemmCtx.tm (g : GemmCtx) : Nat := gdField g.w 52 2
/-- TN. -/
def GemmCtx.tn (g : GemmCtx) : Nat := gdField g.w 54 2
/-- TK. -/
def GemmCtx.tk (g : GemmCtx) : Nat := gdField g.w 56 2
/-- Column tiles. -/
def GemmCtx.tiles (g : GemmCtx) : Nat := cdiv g.n g.tn
/-- Reduction steps of an output tile; a K of 0 takes one that adds nothing (08 R311, R323). -/
def GemmCtx.steps (g : GemmCtx) : Nat := max 1 (cdiv g.k g.tk)
/-- First column of a tile. -/
def GemmCtx.col0 (g : GemmCtx) (col : Nat) : Nat := col * g.tn
/-- Columns of a tile (08 R308). -/
def GemmCtx.cols (g : GemmCtx) (col : Nat) : Nat := min g.tn (g.n - col * g.tn)
/-- First reduction index of a step. -/
def GemmCtx.k0 (g : GemmCtx) (i : Nat) : Nat := i * g.tk
/-- Reduction indices of a step. -/
def GemmCtx.ks (g : GemmCtx) (i : Nat) : Nat := min g.tk (g.k - i * g.tk)
/-- Bytes of a stored A element (09 R342). -/
def GemmCtx.aSize (g : GemmCtx) : Nat := if fuPro g.f 3 then 1 else fmtSize g.fmt
/-- Bytes of a stored B element. -/
def GemmCtx.bSize (g : GemmCtx) : Nat := if fuPro g.f 4 then 1 else fmtSize g.fmt
/-- Bytes of a stored output element. -/
def GemmCtx.cSize (g : GemmCtx) : Nat := outSize (fuOut g.f)

/-- The context of a descriptor's unit, from the addresses its part read. -/
def Sched.gemmCtx (d : Sched) (p : ProgramImage) (w : BitVec 512) (addrs : Nat × Nat × Nat) (unit : Nat) : GemmCtx :=
  let m := extentOf d.dims (gdField w 4 4)
  let nb := max 1 (d.bucketBands w)
  let row0 := unit % nb * gdField w 52 2
  { w := w, f := fusionOf p w, m := m, n := extentOf d.dims (gdField w 8 4), k := extentOf d.dims (gdField w 12 4),
    a := addrs.1, b := addrs.2.1, c := addrs.2.2, row0 := row0, rows := min (gdField w 52 2) (m - row0) }

/-- The second GEMM of a chain over the same rows (09 R349). -/
def Sched.chainCtx (d : Sched) (p : ProgramImage) (g : GemmCtx) : GemmCtx :=
  let w := lget 0 p.gemms (fuField g.f 6 2)
  { w := w, f := fusionOf p w, m := g.m, n := extentOf d.dims (gdField w 8 4), k := extentOf d.dims (gdField w 12 4),
    a := gdField w 16 8, b := gdField w 24 8, c := gdField w 32 8, row0 := g.row0, rows := g.rows }

/-! ### Operands (09 R340 to R342) -/

/-- The number at a device address. -/
def State.memNat (s : State) (a n : Nat) : Nat := leNat (s.dramRead a n)
/-- The stored row of row `i` (09 R340). -/
def State.aRow (s : State) (g : GemmCtx) (i : Nat) : Nat := if fuPro g.f 2 then s.memNat (fuField g.f 8 8 + 4 * i) 4 else i
/-- Address of A's element (i, k) (09 R340, R341). -/
def State.aAddr (s : State) (g : GemmCtx) (i k : Nat) : Nat :=
  if fuPro g.f 0 then g.a + k * g.lda + i * g.aSize else g.a + s.aRow g i * g.lda + k * g.aSize
/-- Address of B's element (k, j) (09 R341). -/
def GemmCtx.bAddr (g : GemmCtx) (k j : Nat) : Nat :=
  if fuPro g.f 1 then g.b + j * g.ldb + k * g.bSize else g.b + k * g.ldb + j * g.bSize
/-- A stored element dequantised into BF16 (09 R342). -/
def dequant (f8 : Bool) (x scale : Nat) : Nat := f32ToBf16 (fmul (byteToF32 f8 x) scale)
/-- A's operand at (i, k). -/
def State.aVal (s : State) (g : GemmCtx) (i k : Nat) : Nat :=
  let x := s.memNat (s.aAddr g i k) g.aSize
  if fuPro g.f 3 then operand 2 (dequant (fuPro g.f 7) x (s.memNat (fuField g.f 24 8 + (if fuPro g.f 5 then 4 * i else 0)) 4))
  else operand g.fmt x
/-- B's operand at (k, j). -/
def State.bVal (s : State) (g : GemmCtx) (k j : Nat) : Nat :=
  let x := s.memNat (g.bAddr k j) g.bSize
  if fuPro g.f 4 then operand 2 (dequant (fuPro g.f 8) x (s.memNat (fuField g.f 32 8 + (if fuPro g.f 6 then 4 * j else 0)) 4))
  else operand g.fmt x

/-- Products of a step added to an accumulator in ascending order of k (08 R297). -/
def reduceRow (fmt : Nat) (aOf bOf : Nat → Nat) (k0 ks acc : Nat) : Nat :=
  (List.range ks).foldl (fun c q => macStep fmt (aOf (k0 + q)) (bOf (k0 + q)) c) acc

/-- Initial accumulators of a tile, row-major (08 R306). Where C_ADDR is ignored they are 0 whatever ACC_INIT says. DESIGN CHOICE; log 125
(09 R350, R354, R356). -/
def State.accStart (s : State) (g : GemmCtx) (store : Bool) (col : Nat) : List Word :=
  (List.range g.rows).flatMap fun i => (List.range (g.cols col)).map fun j =>
    if g.accInit && store then BitVec.ofNat 32 (s.memNat (g.c + (g.row0 + i) * g.ldc + 4 * (g.col0 col + j)) 4) else 0

/-- A reduction step over the tile's accumulators; `aOf` gives A's operand at a local row and k (08 R297, R311). -/
def State.reduceTile (s : State) (g : GemmCtx) (col step : Nat) (aOf : Nat → Nat → Nat) (acc : List Word) : List Word :=
  let n := g.cols col
  (List.range (g.rows * n)).map fun x =>
    let i := x / n
    let j := g.col0 col + x % n
    BitVec.ofNat 32 (reduceRow g.fmt (aOf i) (fun k => s.bVal g k j) (g.k0 step) (g.ks step) (lget 0 acc x).toNat)

/-! ### Epilogue (09 R343 to R347) -/

/-- GELU's polynomial, the coefficients as nearest FP32 values (09 R346). -/
def gelu (y : Nat) : Nat :=
  let c (n : Int) : Nat := fpOfRatio fp32 n 100000
  if fpIsNan fp32 y then fp32.nanPat
  else if fpLe fp32 0x40400000 y then y
  else if fpLe fp32 y 0xC0400000 then 0
  else
    let t := fmul y 0x3EAAAAAB
    let v := fmul t t
    let p := ffma v (c (-51528)) (c 147739)
    let p := ffma v p (c (-165894))
    let p := ffma v p (c 119683)
    fmul y (ffma t p 0x3F000000)

/-- act(y) (09 R346). -/
def activate (a y : Nat) : Nat :=
  match a with
  | 1 => if fpIsNan fp32 y then fp32.nanPat else if flt 0 y then y else 0
  | 2 => gelu y
  | _ => y

/-- The epilogue value of an accumulator before it is stored (09 R343). -/
def State.epilogue (s : State) (g : GemmCtx) (fmt : Nat) (acc : Word) (i j : Nat) : Nat :=
  let f := g.f
  let r (y : Nat) : Nat := if fuEpi f 7 then outToF32 (fuOut f) (convertOut (fuOut f) y) else y
  let y := r (if fmt = 0 then fpOfInt fp32 acc.toInt else acc.toNat)
  let y := if fuEpi f 0 then r (fadd y (s.memNat (fuField f 40 8 + 4 * j) 4)) else y
  let y := if fuEpi f 1 then r (fmul y (s.memNat (fuField f 48 8 + (if fuEpi f 2 then 4 * j else 0)) 4)) else y
  let y := if fuAct f ≠ 0 then r (activate (fuAct f) y) else y
  let y := if fuEpi f 5 then
      r (fadd y (resToF32 (fuRes f) (s.memNat (fuField f 56 8 + i * fuField f 64 4 + j * resSize (fuRes f)) (resSize (fuRes f)))))
    else y
  if fuEpi f 6 then r (fmul y (fuField f 68 4)) else y

/-- The stored pattern of an accumulator at row `i` and column `j` of the output (09 R343, R345). -/
def State.outElem (s : State) (g : GemmCtx) (fmt : Nat) (acc : Word) (i j : Nat) : Word :=
  if fuOut g.f = 0 then acc else BitVec.ofNat 32 (convertOut (fuOut g.f) (s.epilogue g fmt acc i j))

/-- A tile of stored elements, row-major. -/
def State.outTile (s : State) (g : GemmCtx) (fmt : Nat) (col : Nat) (acc : List Word) : List Word :=
  let n := g.cols col
  (List.range (g.rows * n)).map fun x => s.outElem g fmt (lget 0 acc x) (g.row0 + x / n) (g.col0 col + x % n)

/-- Bytes of a listed GEMM's unit written, but for those a unit of a higher number has written (08 R318). -/
def State.writeInOrder (s : State) (r : PartRef) (a : Nat) (d : List Byte) : State :=
  let l := match (s.tenant r.tenant).sched.task r.task with
    | some k => k.outs.filter fun o => r.unit < o.1 && o.2.1 < a + d.length && a < o.2.1 + o.2.2
    | none => []
  let s := if l = [] then s.writeResult r.tenant a d
    else s.forEach (List.range d.length) fun s i =>
      if l.any fun o => o.2.1 ≤ a + i && a + i < o.2.1 + o.2.2 then s else s.writeResult r.tenant (a + i) [lget 0 d i]
  s.updSched r.tenant fun x => x.updTask r.task fun k => { k with outs := k.outs ++ [(r.unit, a, d.length)] }

/-- A tile written to C by a part on core `c`, element by element and no byte beyond (08 R309). Outside FREE mode a listed GEMM's writes
retire in ascending unit order (08 R318). -/
def State.storeTile (s : State) (c : Nat) (r : PartRef) (g : GemmCtx) (col : Nat) (tile : List Word) : State :=
  let n := g.cols col
  s.forEach (List.range g.rows) fun s i =>
    let a := g.c + (g.row0 + i) * g.ldc + g.col0 col * g.cSize
    let d := ((tile.drop (i * n)).take n).flatMap fun e => leBytes g.cSize e.toNat
    let s := if gdList g.w && s.det ≠ 0 then s.writeInOrder r a d else s.writeResult r.tenant a d
    s.streamWrite c toDram 0 a d

/-! ### SOFTMAX (09 R351 to R353) -/

/-- expf of a value not above 0 (09 R352). -/
def expf (x : Nat) : Nat :=
  let c (n : Int) (d : Nat) : Nat := fpOfRatio fp32 n d
  if fpIsNan fp32 x then fp32.nanPat
  else if flt x 0xC2AE0000 then 0
  else
    let w := fmul x (c 14426950408889634 10000000000000000)
    let n : Int := match fpRatio fp32 w with | some r => ifloor r.1 r.2 | none => 0
    let f := fsub w (fpOfInt fp32 n)
    let p := ffma f (c 154035304 1000000000000) (c 133335581 100000000000)
    let p := ffma f p (c 961812911 100000000000)
    let p := ffma f p (c 555041087 10000000000)
    let p := ffma f p (c 240226507 1000000000)
    let p := ffma f p (c 693147181 1000000000)
    let p := ffma f p f32One.toNat
    fmul p ((n + 127).toNat * 2 ^ 23)

/-- Minus infinity in FP32. -/
def fNegInf : Nat := 0xFF800000

/-- A row's state over a score tile: m, l, the correction and the weights e_j (09 R351). -/
def softRow (m l : Nat) (sc : List Nat) : Nat × Nat × Nat × List Nat :=
  let mt := sc.foldl (fun a x => if flt a x then x else a) m
  let none' := mt = fNegInf
  let corr := if none' then f32One.toNat else expf (fsub m mt)
  let e := sc.map fun x => if none' then 0 else expf (fsub x mt)
  (mt, e.foldl fadd (fmul l corr), corr, e)

/-- A weight converted into the second GEMM's FORMAT and taken by the array (09 R351, 08 R298). -/
def softOperand (fmt e : Nat) : Nat := operand fmt (if fmt = 2 then f32ToBf16 e else f32ToF8 e)

/-- The state of every row after a score tile of `n` columns whose first is `col0` (09 R351, R353). -/
def State.softTile (s : State) (g2 : GemmCtx) (rows n col0 : Nat) (sc : List Nat) (r : Run) : Run :=
  let row (i : Nat) : Nat × Nat × Nat × List Nat :=
    softRow (lget (BitVec.ofNat 32 fNegInf) r.rowM i).toNat (lget 0 r.rowL i).toNat ((sc.drop (i * n)).take n)
  let st := (List.range rows).map row
  let bad (i : Nat) : Bool :=
    lget false r.rowBad i || ((sc.drop (i * n)).take n).any fun x => fpIsNan fp32 x || x = fp32.infPat
  let o (i x : Nat) : Nat :=
    let k := lget (0, 0, 0, []) st i
    let start := fmul (lget 0 r.oAcc (i * g2.n + x)).toNat k.2.2.1
    ((List.range n).zip k.2.2.2).foldl (fun a p => ffma (softOperand g2.fmt p.2) (s.bVal g2 (col0 + p.1) x) a) start
  { r with
    rowM := st.map fun k => BitVec.ofNat 32 k.1
    rowL := st.map fun k => BitVec.ofNat 32 k.2.1
    oAcc := (List.range (rows * g2.n)).map fun x => BitVec.ofNat 32 (o (x / g2.n) (x % g2.n))
    rowBad := (List.range rows).map bad }

/-- out_i := O_i / l, every element of a bad row being the NaN (09 R351, R353). -/
def softResult (rows n : Nat) (r : Run) : List Word :=
  (List.range (rows * n)).map fun x =>
    if lget false r.rowBad (x / n) then BitVec.ofNat 32 fp32.nanPat
    else BitVec.ofNat 32 (fdiv (lget 0 r.oAcc x).toNat (lget 0 r.rowL (x / n)).toNat)

/-! ### Faults of a step (08 R317, R326; 09 R340; 19 R719, R728) -/

/-- Ranges of bytes the operands of a step lie in. -/
def State.operandRanges (s : State) (g : GemmCtx) (col step : Nat) (useA : Bool) : List (Nat × Nat) :=
  let k0 := g.k0 step
  let ks := g.ks step
  let n := g.cols col
  let aR := if ! useA then []
    else if fuPro g.f 0 then (List.range ks).map fun q => (s.aAddr g g.row0 (k0 + q), g.rows * g.aSize)
    else (List.range g.rows).map fun i => (s.aAddr g (g.row0 + i) k0, ks * g.aSize)
  let bR := if fuPro g.f 1 then (List.range n).map fun j => (g.bAddr k0 (g.col0 col + j), ks * g.bSize)
    else (List.range ks).map fun q => (g.bAddr (k0 + q) (g.col0 col), n * g.bSize)
  let deqA := if useA && fuPro g.f 3 then
      [if fuPro g.f 5 then (fuField g.f 24 8 + 4 * g.row0, 4 * g.rows) else (fuField g.f 24 8, 4)] else []
  let deqB := if fuPro g.f 4 then
      [if fuPro g.f 6 then (fuField g.f 32 8 + 4 * g.col0 col, 4 * n) else (fuField g.f 32 8, 4)] else []
  let gather := if useA && fuPro g.f 2 then [(fuField g.f 8 8 + 4 * g.row0, 4 * g.rows)] else []
  aR ++ bR ++ deqA ++ deqB ++ gather

/-- Ranges a complete tile's epilogue reads, and those it writes to C. -/
def GemmCtx.outRanges (g : GemmCtx) (col : Nat) (store : Bool) : List (Nat × Nat) × List (Nat × Nat) :=
  let f := g.f
  let n := g.cols col
  let bias := if fuEpi f 0 then [(fuField f 40 8 + 4 * g.col0 col, 4 * n)] else []
  let scale := if fuEpi f 1 then [if fuEpi f 2 then (fuField f 48 8 + 4 * g.col0 col, 4 * n) else (fuField f 48 8, 4)] else []
  let res := if fuEpi f 5 then (List.range g.rows).map fun i =>
      (fuField f 56 8 + (g.row0 + i) * fuField f 64 4 + g.col0 col * resSize (fuRes f), n * resSize (fuRes f)) else []
  let c := (List.range g.rows).map fun i => (g.c + (g.row0 + i) * g.ldc + g.col0 col * g.cSize, n * g.cSize)
  (bias ++ scale ++ res, if store then c else [])

/-- The fault of a list of ranges read and a list written: outside the lease, or poisoned data read. -/
def State.rangeFault (s : State) (t : Fin 16) (rd wr : List (Nat × Nat)) : Option Byte :=
  if (rd ++ wr).any fun x => 0 < x.2 && ! s.inLease t x.1 x.2 then some codeAccess
  else if rd.any fun x => s.dram.poisoned x.1 x.2 then some codeMemoryUe
  else none

/-- C_ADDR is not ignored: a GEMM that does not begin a chain and does not only send (09 R350, R354, R356). -/
def GemmCtx.stores (g : GemmCtx) : Bool := fuChain g.f = 0 && ! (fuPeer g.f ≠ 0 && fuPeerOnly g.f)

/-- A pointer-list entry whose address is misaligned or whose operand or output leaves the lease (08 R317). A gathered A is the stored
matrix of GATHER_ROWS rows (09 R340). -/
def State.entryFault (s : State) (t : Fin 16) (g : GemmCtx) : Bool :=
  let span (a ld rows bytes : Nat) : Bool := a % 64 ≠ 0 || (0 < rows && ! s.inLease t a ((rows - 1) * ld + bytes))
  let rowsA := if fuPro g.f 2 then fuField g.f 16 4 else g.m
  gdList g.w
    && ((if fuPro g.f 0 then span g.a g.lda g.k (g.m * g.aSize) else span g.a g.lda rowsA (g.k * g.aSize))
      || (if fuPro g.f 1 then span g.b g.ldb g.n (g.k * g.bSize) else span g.b g.ldb g.k (g.n * g.bSize))
      || (g.stores && span g.c g.ldc g.m (g.n * g.cSize)))

/-- A gather index at or beyond GATHER_ROWS (09 R340). -/
def State.gatherFault (s : State) (g : GemmCtx) : Bool :=
  fuPro g.f 2 && (List.range g.rows).any fun i => fuField g.f 16 4 ≤ s.aRow g (g.row0 + i)

/-! ### Cycles (08 R324, 09 R368) -/

/-- Array cycles of a reduction step with its prologue. -/
def GemmCtx.stepCycles (g : GemmCtx) (col step : Nat) : Nat :=
  let k := g.ks step
  let kc := if g.fmt = 2 then 2 * (cdiv k 32 * 32) else cdiv k 64 * 64
  let aE := cdiv (g.rows * k) 64
  let bE := cdiv (k * g.cols col) 64
  64 + cdiv g.rows 32 * cdiv (g.cols col) 64 * kc
    + b2n (fuPro g.f 0) * aE + b2n (fuPro g.f 1) * bE + 2 * (b2n (fuPro g.f 3) * aE + b2n (fuPro g.f 4) * bE)

/-! ### The accumulator in the core store (08 R301, R303) -/

/-- A tile's accumulators written to one half of the accumulator area, rows TN_a elements apart. DESIGN CHOICE for the order inside the
region; log 128. -/
def Core.putAcc (k : Core) (g : GemmCtx) (half : Bool) (n : Nat) (acc : List Word) : Core :=
  let row (m : List Host.Cell) (i : Nat) : List Host.Cell :=
    bytesPut m (b2n half * 0x20000 + i * (cdiv g.tn 64 * 64) * 4) (((acc.drop (i * n)).take n).flatMap fun e => leBytes 4 e.toNat)
  { k with store := (List.range g.rows).foldl row k.store }

/-! ### GEMM_TILE_STEP (08 R324, R325) -/

/-- A step counts in C_STEPS and C_BUSY. -/
def State.countStep (s : State) (c cycles : Nat) : State :=
  s.updCore c fun k => { k with steps := k.steps + 1, busy := k.busy + cycles }

/-- The run of a core replaced. -/
def State.setRun (s : State) (c : Nat) (r : Run) : State := s.updCore c fun k => { k with run := some r }

/-- A tile boundary: the part ends when it has to stop or has nothing left to do, unless a tile waits to be sent or link
sends wait for their answers (01 R36; 09 R356, R361). -/
def State.atBoundary (s : State) (c : Nat) (r : Run) : State :=
  let s := s.setRun c r
  let open' := s.cascade.tags.any fun g => g.core.isSome && g.tenant = r.part.tenant && g.task = r.part.task && g.unit = r.part.unit
  if (r.finished || r.stop) && r.outgoing.isNone && ! open' then s.endPart c else s

/-- The descriptor index of the GEMM that sends. -/
def Sched.senderOf (d : Sched) (p : ProgramImage) (i : Nat) (second : Bool) : Nat :=
  let w := trWork (d.rec' i)
  if second then fuField (fusionOf p (lget 0 p.gemms w)) 6 2 else w

/-- The ring of a sender; empty before its first tile. -/
def Sched.ring (d : Sched) (g : Nat) : Ring :=
  match d.rings.find? fun r => r.gemm = g with
  | some r => r
  | none => { gemm := g, sent := [], held := [] }

/-- The tile a peer-sending GEMM has to send (09 R356); none where a core that left UP has sent it (08 R329). -/
def State.toSend (s : State) (r : Run) (g : GemmCtx) (tile : List Word) : Option Outgoing :=
  let d := (s.tenant r.part.tenant).sched
  let q := r.part.unit * g.tiles + r.col
  let sender := match d.image with | some p => d.senderOf p r.part.task r.second | none => 0
  if fuPeer g.f = 0 || (d.ring sender).sent.contains (r.part.task, q) then none
  else
    some
      { q := q, row0 := g.row0, col0 := g.col0 r.col, rows := g.rows, cols := g.cols r.col, second := r.second
        elems := tile, sent := 0 }

/-- A band extended by a tile's columns, row-major (09 R350). -/
def bandPut (rows old new : Nat) (band tile : List Word) : List Word :=
  (List.range rows).flatMap fun i => (band.drop (i * old)).take old ++ (tile.drop (i * new)).take new

/-- The next tile takes the other accumulator half (08 R303). -/
def Run.nextTile (r : Run) : Run := { r with kStep := 0, acc := [], closing := false, half := ! r.half, col := r.col + 1 }

/-- The first GEMM's band of a chain is complete: the second GEMM begins, at the first of its tiles that is not complete (08 R329; 09
R349). -/
def Run.beginSecond (r : Run) (g2 : GemmCtx) (soft : Bool) : Run :=
  { r with second := true, col := if soft then 0 else r.from', finished := ! soft && decide (g2.tiles ≤ r.from') }

/-- A faulting list of ranges ends the part, or the step goes on. -/
def State.checked (s : State) (c : Nat) (r : Run) (rd wr : List (Nat × Nat)) (k : State) : State :=
  match s.rangeFault r.part.tenant rd wr with
  | some code => s.faultPart c r code
  | none => k

/-- The epilogue of an output tile without a score chain: stored, kept or to be sent, and the run moved on (08 R325; 09 R343, R368). -/
def State.closeTile (s : State) (c : Nat) (r : Run) (g g2 : GemmCtx) : State :=
  let keep := ! r.second && fuChain g.f = 1
  let o := g.outRanges r.col g.stores
  let tile := s.outTile g g.fmt r.col r.acc
  s.checked c r o.1 o.2
    (let s' := if g.stores then s.storeTile c r.part g r.col tile else s
     let v := { r.nextTile with
       outgoing := s.toSend r g tile
       band := if keep then bandPut g.rows (g.col0 r.col) (g.cols r.col) r.band tile else r.band }
     let last := g.tiles ≤ r.col + 1
     (s'.countStep c 0).atBoundary c (if last && keep then v.beginSecond g2 false else { v with finished := last }))

/-- A score-tile step of a SOFTMAX chain (09 R351, R368): the rows' state, and the second GEMM's products. -/
def State.closeScores (s : State) (c : Nat) (r : Run) (g g2 : GemmCtx) : State :=
  let n := g.cols r.col
  let sc := (List.range (g.rows * n)).map fun x =>
    s.epilogue g g.fmt (lget 0 r.acc x) (g.row0 + x / n) (g.col0 r.col + x % n)
  s.checked c r ((g.outRanges r.col false).1 ++ s.operandRanges g2 0 r.col false) []
    (let v := (s.softTile g2 g.rows n (g.col0 r.col) sc r).nextTile
     (s.countStep c (g2.stepCycles 0 r.col)).atBoundary c (if g.tiles ≤ r.col + 1 then v.beginSecond g2 true else v))

/-- The final division of a SOFTMAX band, and then the second GEMM's epilogue (09 R351, R368). -/
def State.closeSoftmax (s : State) (c : Nat) (r : Run) (g2 : GemmCtx) : State :=
  if ! r.closing then (s.countStep c 0).atBoundary c { r with oAcc := softResult g2.rows g2.n r, closing := true }
  else
    let o := g2.outRanges 0 g2.stores
    let tile := s.outTile g2 1 0 r.oAcc
    s.checked c r o.1 o.2
      (let s' := if g2.stores then s.storeTile c r.part g2 0 tile else s
       (s'.countStep c 0).atBoundary c { r with closing := false, outgoing := s.toSend r g2 tile, finished := true })

/-- A reduction step of the GEMM a run is in: its faults, its products, and the tile's accumulators in the core store (08 R297, R303, R311,
R325). -/
def State.reduceStep (s : State) (c : Nat) (r : Run) (g : GemmCtx) : State :=
  let t := r.part.tenant
  let n := g.cols r.col
  let start := if g.accInit && g.stores && r.kStep = 0 then
      (List.range g.rows).map fun i => (g.c + (g.row0 + i) * g.ldc + 4 * g.col0 r.col, 4 * n) else []
  if s.entryFault t g || (! r.second && s.gatherFault g) then s.faultPart c r codeBad
  else
    s.checked c r (s.operandRanges g r.col r.kStep (! r.second) ++ start) []
      (let acc := if r.kStep = 0 then s.accStart g g.stores r.col else r.acc
       let aOf (i k : Nat) : Nat :=
         if r.second then operand g.fmt (lget 0 r.band (i * g.k + k)).toNat else s.aVal g (g.row0 + i) k
       let acc := s.reduceTile g r.col r.kStep aOf acc
       let s := (s.countStep c (g.stepCycles r.col r.kStep)).updCore c fun k => k.putAcc g r.half n acc
       s.atBoundary c { r with kStep := r.kStep + 1, acc := acc, closing := g.steps ≤ r.kStep + 1 })

/-- A step of a GEMM's part (08 R324; 09 R349, R368): a reduction step, an epilogue, a score-tile step or a final division. A GEMM without a
column has no tile: its part is done, or goes on with the second GEMM of its chain (08 R323). -/
def State.stepGemm (s : State) (c : Nat) (r : Run) (g g2 : GemmCtx) : State :=
  let soft := fuChain g.f = 2
  if r.second && soft then s.closeSoftmax c r g2
  else
    let h := if r.second then g2 else g
    if h.tiles ≤ r.col then s.atBoundary c (if ! r.second && fuChain g.f ≠ 0 then r.beginSecond g2 soft else { r with finished := true })
    else if ! r.closing then s.reduceStep c r h
    else if soft then s.closeScores c r g g2
    else s.closeTile c r h g2

/-- GEMM_TILE_STEP (08 R324): the next step of the part a core runs; a part that is no GEMM does its work whole. What
that work writes is not the device's to know. PRESUMED: nothing; log 8. -/
def State.stepTile (s : State) (c : Nat) : State :=
  match (s.core c).run with
  | none => s
  | some r =>
    if s.held || s.halted || r.outgoing.isSome then s
    else if r.finished then s.atBoundary c r
    else
      let d := (s.tenant r.part.tenant).sched
      match d.image with
      | none => s.endPart c
      | some p =>
        match p.gemms[trWork (d.rec' r.part.task)]? with
        | none => (s.countStep c 0).endPart c
        | some w =>
          let g := d.gemmCtx p w r.addrs r.part.unit
          s.stepGemm c r g (d.chainCtx p g)

/-- GEMM_TILE_STEP -/
def execGemmTileStep (c : Fin 48) (s : State) : Host.Outcome State Fault Refusal := done (s.stepTile c.val)

/-! ### CUT_FORCED (01 R38) -/

/-- Time the core domain has spent on the holding clock since `T` (16 R619). -/
def State.heldSince (s : State) (T : Nat) : Nat := nsum (s.clock.holdSpans.map fun x => x.2 - max x.1 T)

/-- CUT_FORCED (01 R38): 50 µs after its deadline, a part that has reached no tile boundary is halted and its unfinished tile
discarded. The time the core domain has spent on the holding clock since then extends the 50 µs, and while it is on it they do not end
(16 R619). -/
def State.forceCut (s : State) (c : Nat) : State :=
  match (s.core c).run with
  | none => s
  | some r =>
    let t := r.part.tenant
    let k := trPhase ((s.tenant t).sched.rec' r.part.task)
    if s.held || ! r.stop || ! s.frame.inFrame || s.clock.holdSince.isSome then s
    else
      let s := s.advanceTo (s.deadlineAt k + 50 + s.heldSince (s.deadlineAt k))
      (s.updOut t fun o => { o with cutForced := true }).endPart c

/-- CUT_FORCED -/
def execCutForced (c : Fin 48) (s : State) : Host.Outcome State Fault Refusal := done (s.forceCut c.val)

/-! ### PEER_SEND (09 R356 to R363) -/

/-- The tiles a sender makes, in ascending q (09 R356). -/
def State.sendOrder (s : State) (t : Fin 16) (i tiles : Nat) : List Nat :=
  (s.unitsOfTask t i).flatMap fun u => (List.range tiles).map fun c => u.1 * tiles + c

/-- The ring of a sender replaced. -/
def Sched.putRing (d : Sched) (r : Ring) : Sched := { d with rings := d.rings.filter (fun x => x.gemm ≠ r.gemm) ++ [r] }

/-- The order lets tile `q` of a task be sent: ascending in STATIC and LOCKSTEP modes, and for a ring its slot released by every
earlier tile (09 R356, R358). -/
def State.sendTurn (s : State) (order : List Nat) (r : Ring) (task q slots : Nat) : Bool :=
  (s.det = 0 || order.all fun x => q ≤ x || r.sent.contains (task, x))
    && (slots = 0 || ((order.all fun x => q ≤ x || x % slots ≠ q % slots || r.sent.contains (task, x))
      && r.held.all fun h => h.1 % slots ≠ q % slots))

/-- The tile is noted as sent, and the run goes on. -/
def State.noteSent (s : State) (c : Nat) (r : Run) (gemm q : Nat) (held : List (Nat × List Word)) : State :=
  let s := s.updSched r.part.tenant fun d =>
    let ring := d.ring gemm
    d.putRing { ring with sent := ring.sent ++ [(r.part.task, q)], held := ring.held ++ held }
  s.atBoundary c { r with outgoing := none }

/-- A tile of `TM × TN` elements placed in slot `q mod slots` of a ring in a core store, its rows TN elements apart (09 R358). -/
def Core.putSlot (k : Core) (off slots tm tn es : Nat) (o : Outgoing) : Core :=
  let row (m : List Host.Cell) (i : Nat) : List Host.Cell :=
    bytesPut m (off + o.q % max 1 slots * (tm * tn * es) + i * (tn * es))
      (((o.elems.drop (i * o.cols)).take o.cols).flatMap fun e => leBytes es e.toNat)
  { k with store := (List.range o.rows).foldl row k.store }

/-- The write requests of a tile sent over a link, one a row and piece: remote address and bytes (09 R361, 15 R573). -/
def linkPieces (f : BitVec 1024) (ldc es : Nat) (o : Outgoing) : List (Nat × List Byte) :=
  (List.range o.rows).flatMap fun i =>
    let data := ((o.elems.drop (i * o.cols)).take o.cols).flatMap fun e => leBytes es e.toNat
    let base := fuField f 88 8 + (o.row0 + i) * ldc + o.col0 * es
    (framePieces data.length).map fun x => (base + x.1, (data.drop x.1).take x.2)

/-- One write request of a tile sent over a link, where the link accepts it and the core's DMA engine has a descriptor free (08 R326; 09
R357). -/
def State.sendPiece (s : State) (c : Fin 48) (dest : BitVec 16) (x : Nat × Nat × List Byte) : State :=
  match (s.core c.val).run with
  | none => s
  | some r =>
    match r.outgoing with
    | none => s
    | some o =>
      if o.sent ≠ x.1 || ! s.accepts dest || 32 ≤ s.coreDma c.val then s
      else
        let s := s.setRun c.val { r with outgoing := some { o with sent := o.sent + 1 } }
        (s.streamWrite c.val toLink dest.toNat x.2.1 x.2.2).issueRequest r.part.tenant r.part.task (some c) r.part.unit 1 dest x.2.1 0 0 x.2.2

/-- A tile sent over a link, as far as the link accepts it; the rest of it waits (09 R357, R361). -/
def State.sendLink (s : State) (c : Fin 48) (gemm : Nat) (dest : BitVec 16) (l : List (Nat × List Byte)) : State :=
  let s := s.forEach ((List.range l.length).zip l) fun s x => s.sendPiece c dest x
  match (s.core c.val).run with
  | some r =>
    match r.outgoing with
    | some o => if o.sent = l.length then s.noteSent c.val r gemm o.q [] else s
    | none => s
  | none => s

/-- PEER_SEND (09 R356 to R363): the finished tile of a core goes to its target once the target accepts it. -/
def State.peerSend (s : State) (c : Fin 48) : State :=
  match (s.core c.val).run with
  | none => s
  | some r =>
    let t := r.part.tenant
    let d := (s.tenant t).sched
    match r.outgoing, d.image with
    | some o, some p =>
      let gi := d.senderOf p r.part.task o.second
      let w := lget 0 p.gemms gi
      let f := fusionOf p w
      let tiles := cdiv (extentOf d.dims (gdField w 8 4)) (gdField w 54 2)
      let turn := s.sendTurn (s.sendOrder t r.part.task tiles) (d.ring gi) r.part.task o.q
        (if fuPeer f = 1 then max 1 (fuField f 74 2) else 0)
      if s.held || s.halted || ! turn then s
      else
        match fuPeer f with
        | 1 =>
          let dest := s.hostOf t (bits (fuField f 73 1) 5 0)
          if ! s.usable .core dest then s.faultPart c.val r codeFenced
          else
            let es := outSize (fuOut f)
            let s := s.streamWrite c.val toCore (bits (fuField f 73 1) 5 0)
              (fuField f 76 4 + o.q % max 1 (fuField f 74 2) * (gdField w 52 2 * gdField w 54 2 * es))
              (o.elems.flatMap fun e => leBytes es e.toNat)
            let s := s.updCore dest fun k => k.putSlot (fuField f 76 4) (fuField f 74 2) (gdField w 52 2) (gdField w 54 2) es o
            (s.noteSent c.val r gi o.q [(o.q, o.elems)]).setFlag t (bits (fuField f 82 2) 9 0)
        | 2 =>
          if (s.tenant t).table.stalls 1152 5248 then s
          else
            let rows := (List.range o.rows).map fun i => (o.row0 + i, (o.elems.drop (i * o.cols)).take o.cols)
            let s := s.forEach rows fun s x =>
              s.streamWrite c.val toConverter 0 (128 * x.1) (x.2.flatMap fun e => leBytes 4 e.toNat)
            (s.updSearch t fun x => { x with fox := x.fox ++ rows }).noteSent c.val r gi o.q []
        | _ =>
          let dest := BitVec.ofNat 16 (fuField f 80 2)
          if ! s.reachable dest then s.faultPart c.val r codeFenced
          else s.sendLink c gi dest (linkPieces f (gdField w 48 4) (outSize (fuOut f)) o)
    | _, _ => s

/-- PEER_SEND -/
def execPeerSend (c : Fin 48) (s : State) : Host.Outcome State Fault Refusal := done (s.peerSend c)

end Sys2Proof.Machine
end

