-- ==== Sys2Proof/Machine/Commands.lean ====
section
/-! DEFINITION. The remaining host commands: MEASURE and LOAD_MODEL (06 R236 to R238), SHAPE (08 R319 to R323), SIGNAL (11 R432),
ACTIVATE (10 R394), and LOAD_PROGRAM with its checks and admission (10 R378; 08 R307; 09 R337, R339, R354, R359, R360, R364 to R366;
13 R502). -/
namespace Sys2Proof.Machine
open Sys2Proof

/-- Of two accepted inputs the one with the later doorbell stands (06 R236, R238; 08 R319). -/
def newer {α : Type} (old : Option (Nat × α)) (order : Nat) (x : α) : Option (Nat × α) :=
  match old with
  | some (o, y) => if o < order then some (order, x) else some (o, y)
  | none => some (order, x)

/-- A MEASURE or SHAPE that its frame has passed: one fetched after the seal (11 R433), or one fetched in time whose frame has ended before
it is carried out. DESIGN CHOICE for the second; log 130. -/
def State.framePassed (s : State) (c : Cmd) : Bool :=
  c.late || c.stamp.frame < s.frame.seq || (c.stamp.frame = s.frame.seq && ! s.frame.inFrame)

/-- In STATIC and LOCKSTEP modes the command waits for the D_0 of its frame (14 R529). -/
def State.waitsForD0 (s : State) (st : Stamp) : Bool := s.det ≠ 0 && ! s.effective st

/-! ### MEASURE (06 R237, R238) -/

/-- The measurement block of a command. -/
def Cmd.measure (c : Cmd) : Measure :=
  let f (i : Nat) : BitVec 16 := BitVec.ofNat 16 (cmdField c.word (24 + i) 2)
  { x := f 0, y := f 2, heading := f 4, speed := f 6, accel := f 8, kappa := f 10 }

/-- An accepted MEASURE takes effect for its frame and completes (06 R238). -/
def State.applyMeasure (s : State) (t : Fin 16) (c : Cmd) : State :=
  let o := c.stamp.order
  let s := s.updSolver t fun v =>
    if c.stamp.frame ≤ s.frame.seq then { v with meas := newer v.meas o c.measure }
    else { v with measNext := newer v.measNext o c.measure }
  let s := s.remeasureStops t
  (s.noteInput t c.stamp.frame o 4 (c.args 24 32)).completeCmd t c codeOk 0

/-- MEASURE (06 R237, R238; 11 R433; 14 R529). -/
def State.measureCmd (s : State) (t : Fin 16) (tag : Nat) : State :=
  match s.cmdFor t tag 4 with
  | none => s
  | some c =>
    if s.held then s
    else if cmdField c.word 36 20 ≠ 0 then s.refuseCmd t c codeBad 36 false
    else if s.framePassed c then s.completeCmd t c codePassed 0
    else if s.waitsForD0 c.stamp then s.holdCmd t c []
    else s.applyMeasure t c

/-- MEASURE -/
def execMeasure (t : Fin 16) (tag : Nat) (s : State) : Host.Outcome State Fault Refusal := done (s.measureCmd t tag)

/-! ### LOAD_MODEL (06 R235, R236) -/

/-- Offsets of the faulty fields of a model block (06 R236). -/
def modelFlaws (b : List Byte) : List Nat :=
  let bad (i : Nat) : Bool :=
    let x := u32At b (4 * i)
    ! fpIsFinite fp32 x || (if i < 8 then flt x 0 else ! flt 0 x)
  (((List.range 13).filter bad).map (4 * ·)) ++ (if allZero ((b.drop 52).take 12) then [] else [52])

/-- The block as loaded. -/
def modelOf (b : List Byte) : Model := { fields := Vector.ofFn fun i => BitVec.ofNat 32 (u32At b (4 * i.val)), loaded := true }

/-- LOAD_MODEL (06 R236): an accepted block waits for the tick. -/
def State.loadModel (s : State) (t : Fin 16) (tag : Nat) (buf : List Byte) : State :=
  match s.cmdFor t tag 3 with
  | none => s
  | some c =>
    if s.held then s
    else
      match s.cmdData c buf with
      | none => s.completeCmd t c codeMemoryUe 0
      | some d =>
        match modelFlaws d with
        | x :: r => s.refuseCmd t c codeBad (r.foldl min x) true
        | [] =>
          (s.updSolver t fun v => { v with modelNext := newer v.modelNext c.stamp.order (modelOf d) }).completeCmd t c codeDeferred 0

/-- LOAD_MODEL -/
def execLoadModel (t : Fin 16) (tag : Nat) (buf : List Byte) (s : State) : Host.Outcome State Fault Refusal :=
  done (s.loadModel t tag buf)

/-! ### SHAPE (08 R319 to R321) -/

/-- The program that runs in the frame a stamp belongs to: a pending exchange comes before a later frame (10 R394). -/
def State.programFor (s : State) (t : Fin 16) (frame : Nat) : Option Program :=
  let d := (s.tenant t).sched
  match d.activate with
  | some (_, b) => if s.frame.seq < frame + b2n s.frame.opening then (if b then d.slotB else d.slotA) else d.program
  | none => d.program

/-- The bucket chosen for dimensions: of those that fit, the least product, then the lowest index (08 R320). -/
def bucketFor (p : ProgramImage) (dims : List Nat) : Option Nat :=
  let fits (b : Nat) : Bool := (List.range p.dims).all fun i => lget 0 dims i ≤ lget 0 (lget [] p.buckets b) i
  let size (b : Nat) : Nat := ((lget [] p.buckets b).take p.dims).foldl (· * ·) 1
  ((List.range p.buckets.length).filter fits).foldl
    (fun a b => match a with | none => some b | some c => if size b < size c then some b else some c) none

/-- An accepted or refused SHAPE completes (08 R319, R321; 11 R440). -/
def State.applyShape (s : State) (t : Fin 16) (c : Cmd) : State :=
  let o := c.stamp.order
  let dims := (List.range 4).map fun i => cmdField c.word (24 + 4 * i) 4
  match (s.programFor t c.stamp.frame).bind fun p => bucketFor p.image dims with
  | none => s.completeCmd t c codeNoBucket 0
  | some b =>
    let s := s.updSched t fun d =>
      if c.stamp.frame ≤ s.frame.seq then { d with shape := newer d.shape o (dims, b) }
      else { d with shapeNext := newer d.shapeNext o (dims, b) }
    (s.noteInput t c.stamp.frame o 5 (c.args 24 16)).completeCmd t c codeOk (BitVec.ofNat 160 b)

/-- SHAPE (08 R319 to R321; 11 R433; 14 R529). -/
def State.shapeCmd (s : State) (t : Fin 16) (tag : Nat) : State :=
  match s.cmdFor t tag 5 with
  | none => s
  | some c =>
    if s.held then s
    else if s.framePassed c then s.completeCmd t c codePassed 0
    else if s.waitsForD0 c.stamp then s.holdCmd t c []
    else s.applyShape t c

/-- SHAPE -/
def execShape (t : Fin 16) (tag : Nat) (s : State) : Host.Outcome State Fault Refusal := done (s.shapeCmd t tag)

/-! ### SIGNAL (11 R432) -/

/-- An accepted SIGNAL writes the signal word and completes (11 R432). It belongs to the frame in which it takes effect (14
R537). -/
def State.applySignal (s : State) (t : Fin 16) (c : Cmd) : State :=
  let w := (s.tenant t).sched.signal
  let v := (w &&& ~~~ BitVec.ofNat 32 (cmdField c.word 28 4)) ||| BitVec.ofNat 32 (cmdField c.word 24 4)
  let frame := if s.frame.inFrame then s.frame.seq else s.frame.seq + 1
  ((s.setSignal t v).noteInput t frame c.stamp.order 9 (c.args 24 8)).completeCmd t c codeOk 0

/-- No command with an earlier doorbell can still be a SIGNAL that has not taken effect (11 R425, R432, R456). -/
def State.signalTurn (s : State) (t : Fin 16) (c : Cmd) : Bool :=
  let n := s.tenant t
  (n.cmds.all fun d => d.opcode ≠ 9 || c.stamp.order ≤ d.stamp.order)
    && n.queues.toList.all fun q => q.published.all fun st => c.stamp.order ≤ st.order

/-- SIGNAL (11 R432, R456; 14 R529): it takes effect in its turn. -/
def State.signalCmd (s : State) (t : Fin 16) (tag : Nat) : State :=
  match s.cmdFor t tag 9 with
  | none => s
  | some c =>
    if s.held then s
    else if s.waitsForD0 c.stamp then s.holdCmd t c []
    else if s.signalTurn t c then s.applySignal t c
    else s

/-- SIGNAL -/
def execSignal (t : Fin 16) (tag : Nat) (s : State) : Host.Outcome State Fault Refusal := done (s.signalCmd t tag)

/-- A SIGNAL whose turn has not come at D_0 waits no longer for D_0. -/
def State.freeSignal (s : State) (t : Fin 16) (c : Cmd) : State :=
  s.updTenant t fun n => { n with cmds := n.cmds.map fun d => if d.tag = c.tag then { d with waiting := false } else d }

/-- At D_0 in STATIC and LOCKSTEP modes the waiting commands of the frame take effect in doorbell order (14 R529; 11 R432). -/
def State.applyWaiting (s : State) (t : Fin 16) : State :=
  let l := (s.tenant t).cmds.filter fun c =>
    c.waiting && (c.opcode = 4 || c.opcode = 5 || c.opcode = 9) && c.stamp.frame ≤ s.frame.seq
  s.forEach (l.mergeSort fun a b => a.stamp.order ≤ b.stamp.order) fun s c =>
    match c.opcode with
    | 4 => s.applyMeasure t c
    | 5 => s.applyShape t c
    | _ => if s.signalTurn t c then s.applySignal t c else s.freeSignal t c

/-! ### ACTIVATE (10 R394) -/

/-- ACTIVATE (10 R394): the exchange waits for the tick; the later doorbell's stands. -/
def State.activateCmd (s : State) (t : Fin 16) (tag : Nat) : State :=
  match s.cmdFor t tag 8 with
  | none => s
  | some c =>
    if s.held then s
    else
      (s.updSched t fun d =>
        { d with activate := newer d.activate c.stamp.order (cmdField c.word 24 1 = 1) }).completeCmd t c codeDeferred 0

/-- ACTIVATE -/
def execActivate (t : Fin 16) (tag : Nat) (s : State) : Host.Outcome State Fault Refusal := done (s.activateCmd t tag)

/-! ### LOAD_PROGRAM: task records (10 R378) -/

/-- A task record's own checks: assigned codes, no reserved bit, flag and timer IDs, a WAIT's flags. The bits R377 names for
other kinds only are reserved in a record. DEDUCED; log 36. -/
def taskOk (w : BitVec 256) : Bool :=
  let k := trKind w
  let done' := trField w 12 2
  let flagOk (e : Nat) : Bool := bits e 14 10 = 0
  let noWait := trField w 14 2 = 0 && trField w 16 8 = 0
  k ≤ 4 && ! bit (trField w 0 1) 7 && bits (trField w 1 1) 7 4 = 0 && bits (trField w 3 1) 7 4 = 0 && flagOk done'
    && (match k with
      | 0 => noWait && bits (trHome w) 15 6 = 0
      | 1 => noWait && trHome w ≤ 4
      | 2 =>
        (List.range 4).all (fun i => flagOk (trField w (16 + 2 * i) 2)) && trFlags w ≠ [] && trWork w = 0 && trHome w = 0
      | 3 => trField w 16 2 < 1024 && trField w 22 2 = 0 && trWork w < 64 && trHome w = 0
      | _ => noWait && trWork w = 0 && trHome w = 0)
    && bits (trField w 30 2) 14 12 = 0

/-- A detector table entry's checks: assigned SOURCE and POLARITY codes, no reserved bit (10 R378, R392). The codes are checked
as R378 checks KIND and HOME. DEDUCED; log 36. -/
def detectorOk (c : BitVec 64) : Bool :=
  detSource c ≤ 4 && bits c.toNat 15 10 = 0 && (detSource c = 0 || detPolarity c ≠ 0) && bits c.toNat 63 42 = 0

/-- The task table's and the detector table's checks together (10 R378). A successor that is no task of the table is refused.
DEDUCED; log 36. -/
def tasksOk (p : ProgramImage) : Bool :=
  let n := p.tasks.length
  let ix := (List.range n).zip p.tasks
  let named := ix.map fun x => succOf p x.2
  p.detectors.all detectorOk && ix.all fun x =>
    taskOk x.2
      && (trSuccCount x.2 = 0 || trSuccOff x.2 + 2 * trSuccCount x.2 ≤ 2 * p.succ.length)
      && (succOf p x.2).all (fun j => x.1 < j && j < n)
      && trPreds x.2 = nsum (named.map fun l => l.countP fun j => j = x.1)
      && (! trRelease x.2 || match trRing x.2 with
          | some g => g < p.gemms.length && fuPeer (fusionOf p (lget 0 p.gemms g)) = 1
          | none => false)

/-! ### LOAD_PROGRAM: descriptors and fusion records (08 R307; 09 R337, R339, R354, R359, R360) -/

/-- The largest value an extent takes over the buckets. -/
def maxExtent (p : ProgramImage) (e : Nat) : Nat :=
  if bit e 31 then p.buckets.foldl (fun m b => max m (lget 0 b (bits e 1 0))) 0 else bits e 30 0

/-- A constant extent in its range, or a declared dimension (08 R307). -/
def extentOk (p : ProgramImage) (e top : Nat) : Bool :=
  if bit e 31 then bits e 30 2 = 0 && bits e 1 0 < p.dims else 1 ≤ e && e ≤ top

/-- A length rounded up to 64 bytes. -/
def up64 (n : Nat) : Nat := cdiv n 64 * 64

/-- The lease a program is judged against. -/
structure LeaseView where
  vcores : Nat
  hosts : List Nat
  base : Nat
  size : Nat

/-- A range lies wholly in the lease. -/
def LeaseView.holds (v : LeaseView) (a n : Nat) : Bool := v.base ≤ a && a + n ≤ v.base + v.size

/-- The second descriptor of a chain. -/
def nextOf (p : ProgramImage) (f : BitVec 1024) : BitVec 512 := lget 0 p.gemms (fuField f 6 2)

/-- Bytes of an A and of a B element as stored. -/
def elemA (g : BitVec 512) (f : BitVec 1024) : Nat := if fuPro f 3 then 1 else fmtSize (bits (gdField g 0 1) 1 0)
/-- Bytes of a B element as stored. -/
def elemB (g : BitVec 512) (f : BitVec 1024) : Nat := if fuPro f 4 then 1 else fmtSize (bits (gdField g 0 1) 1 0)

/-- Operand-area bytes of a GEMM's tiles and prologue buffers, each item rounded up; `useA` false where A comes from a chain
(09 R364). -/
def proBytes (g : BitVec 512) (f : BitVec 1024) (useA : Bool) : Nat :=
  let tm := gdField g 52 2
  let tn := gdField g 54 2
  let tk := gdField g 56 2
  let a := if useA then
      up64 (tm * tk * elemA g f) + (if fuPro f 3 then up64 (tm * tk * 2) + (if fuPro f 5 then up64 (tm * 4) else 64) else 0)
        + (if fuPro f 0 then up64 (tm * tk * elemA g f) else 0) + (if fuPro f 2 then up64 (tm * 4) else 0)
    else 0
  a + up64 (tk * tn * elemB g f) + (if fuPro f 4 then up64 (tk * tn * 2) + (if fuPro f 6 then up64 (tn * 4) else 64) else 0)
    + (if fuPro f 1 then up64 (tk * tn * elemB g f) else 0)

/-- The checks of R307 on descriptor `i`. -/
def gemmOk (p : ProgramImage) (v : LeaseView) (i : Nat) (g : BitVec 512) : Bool :=
  let f := fusionOf p g
  let fmt := gdField g 0 1
  let m := maxExtent p (gdField g 4 4)
  let n := maxExtent p (gdField g 8 4)
  let k := maxExtent p (gdField g 12 4)
  let tm := gdField g 52 2
  let tn := gdField g 54 2
  let tk := gdField g 56 2
  let kq := if fmt = 2 then 32 else 64
  let noC := fuChain f ≠ 0 || (fuPeer f ≠ 0 && fuPeerOnly f)
  let noA := chained p i ≠ 0
  let rowA := if fuPro f 0 then (k, m * elemA g f) else (m, k * elemA g f)
  let rowB := if fuPro f 1 then (n, k * elemB g f) else (k, n * elemB g f)
  let rowC := (m, n * outSize (fuOut f))
  let array (addr ld : Nat) (r : Nat × Nat) (ignored : Bool) : Bool :=
    addr % 64 = 0 && ld % 64 = 0 && up64 r.2 ≤ ld
      && (gdList g || ignored || r.1 = 0 || v.holds addr ((r.1 - 1) * ld + r.2))
  fmt ≤ 2 && gdField g 1 1 < 4 && gdField g 2 2 = 0 && bits (gdField g 60 4) 30 16 = 0
    && tm % 32 = 0 && 32 ≤ tm && tm ≤ 256 && tn % 64 = 0 && 64 ≤ tn && tn ≤ 512
    && tk % kq = 0 && kq ≤ tk && tk ≤ 4096 && tm * tn ≤ 32768
    && extentOk p (gdField g 4 4) 1048576 && extentOk p (gdField g 8 4) 65536 && extentOk p (gdField g 12 4) 65536
    && (! gdList g || (1 ≤ gdField g 58 2 && gdField g 58 2 ≤ 4096))
    && array (gdField g 16 8) (gdField g 40 4) (if fuPro f 2 then (fuField f 16 4, rowA.2) else rowA) noA
    && array (gdField g 24 8) (gdField g 44 4) rowB false
    && array (gdField g 32 8) (gdField g 48 4) rowC noC
    && proBytes g f true ≤ 720896
    && (! bit (gdField g 60 4) 31 || bits (gdField g 60 4) 15 0 < p.fusions.length)

/-- The chain rules of R354 on a record's first GEMM. -/
def chainOk (p : ProgramImage) (g : BitVec 512) (f : BitVec 1024) : Bool :=
  let h := nextOf p f
  let fh := fusionOf p h
  let fmt2 := gdField h 0 1
  fuChain f = 0
    || (fuField f 6 2 < p.gemms.length && ! gdList g && ! gdList h && gdField g 4 4 = gdField h 4 4
      && gdField g 52 2 = gdField h 52 2 && fuChain fh = 0 && gdField h 12 4 = gdField g 8 4
      && (if fuChain f = 1 then
          (fuOut f = 2 && fmt2 = 2) || (fuOut f = 3 && fmt2 = 1) || (fuOut f = 4 && fmt2 = 0)
        else
          (fmt2 = 1 || fmt2 = 2) && gdField h 56 2 = gdField g 54 2 && maxExtent p (gdField h 8 4) ≤ gdField h 54 2
            && fuAct f = 0 && ! fuEpi f 5 && ! fuEpi f 6 && fuOut f = 1 && fuPeer f = 0 && ! fuEpi f 7))

/-- The checks of R339, with the chain and peer-send rules, on the record a descriptor uses. -/
def fusionOk (p : ProgramImage) (v : LeaseView) (g : BitVec 512) : Bool :=
  let f := fusionOf p g
  let m := maxExtent p (gdField g 4 4)
  let n := maxExtent p (gdField g 8 4)
  let es := outSize (fuOut f)
  let slots := fuField f 74 2
  let off := fuField f 76 4
  let addrs := [fuField f 8 8, fuField f 24 8, fuField f 32 8, fuField f 40 8, fuField f 48 8, fuField f 56 8, fuField f 88 8]
  let resRow := n * resSize (fuRes f)
  let arrays : List (Bool × Nat × Nat) :=
    [(fuPro f 2, fuField f 8 8, 4 * m), (fuPro f 3, fuField f 24 8, if fuPro f 5 then 4 * m else 4),
     (fuPro f 4, fuField f 32 8, if fuPro f 6 then 4 * n else 4), (fuEpi f 0, fuField f 40 8, 4 * n),
     (fuEpi f 1, fuField f 48 8, if fuEpi f 2 then 4 * n else 4),
     (fuEpi f 5, fuField f 56 8, (m - 1) * fuField f 64 4 + resRow)]
  ! bit (gdField g 60 4) 31
    || (bits (fuField f 73 1) 5 0 < v.vcores && bits (fuField f 0 2) 15 9 = 0 && ! fuEpi f 11
        && bits (fuField f 2 2) 15 14 = 0 && fuAct f ≠ 3 && fuOut f ≤ 4
      && fuField f 4 2 ≤ 2 && fuField f 20 4 = 0 && bits (fuField f 72 1) 7 3 = 0 && bits (fuField f 73 1) 7 6 = 0
      && fuField f 82 2 < 1024 && fuField f 84 4 = 0 && fuField f 96 32 = 0
      && (fuOut f ≠ 0 || (! fuEpi f 0 && ! fuEpi f 1 && ! fuEpi f 5 && ! fuEpi f 6 && fuAct f = 0))
      && ! (fuPro f 2 && fuPro f 0) && ((! fuPro f 3 && ! fuPro f 4) || gdField g 0 1 = 2)
      && addrs.all (fun a => a % 64 = 0) && (! fuEpi f 5 || up64 resRow ≤ fuField f 64 4)
      && arrays.all (fun a => ! a.1 || v.holds a.2.1 a.2.2) && chainOk p g f
      && (match fuPeer f with
        | 0 => true
        | 1 => 1 ≤ slots && slots ≤ 16 && 0x40000 ≤ off
            && off + slots * (gdField g 52 2 * gdField g 54 2 * es) ≤ 0xF0000
        | 2 => gdField g 8 4 = 32 && fuOut f = 1
        | _ => true))

/-- Every check that comes before admission: R378, R307 and R339. -/
def imageOk (p : ProgramImage) (v : LeaseView) : Bool :=
  tasksOk p && ((List.range p.gemms.length).zip p.gemms).all fun x => gemmOk p v x.1 x.2 && fusionOk p v x.2

/-! ### LOAD_PROGRAM: admission (09 R364 to R366; 13 R502) -/

/-- An extent in a bucket. -/
def bucketExtent (p : ProgramImage) (b e : Nat) : Nat := if bit e 31 then lget 0 (lget [] p.buckets b) (bits e 1 0) else bits e 30 0

/-- Bytes of an output accumulator (08 R303). -/
def accBytes (g : BitVec 512) : Nat := cdiv (gdField g 52 2) 32 * 32 * (cdiv (gdField g 54 2) 64 * 64) * 4

/-- Operand-area bytes of an epilogue's vectors and residual tile. -/
def epiBytes (g : BitVec 512) (f : BitVec 1024) : Nat :=
  let tm := gdField g 52 2
  let tn := gdField g 54 2
  (if fuEpi f 0 then up64 (tn * 4) else 0) + (if fuEpi f 1 then (if fuEpi f 2 then up64 (tn * 4) else 64) else 0)
    + (if fuEpi f 5 then up64 (tm * tn * resSize (fuRes f)) else 0)

/-- Accumulator and operand demand of the fusion group that descriptor `g` begins, in a bucket (09 R364). -/
def groupDemand (p : ProgramImage) (b : Nat) (g : BitVec 512) : Nat × Nat :=
  let f := fusionOf p g
  let tm := gdField g 52 2
  let one := (up64 (2 * accBytes g), proBytes g f true + epiBytes g f)
  if fuChain f = 0 then one
  else
    let h := nextOf p f
    let fh := fusionOf p h
    let op2 := proBytes h fh false + epiBytes h fh
    if fuChain f = 1 then
      (one.1 + up64 (2 * accBytes h), one.2 + op2 + up64 (tm * bucketExtent p b (gdField g 8 4) * outSize (fuOut f)))
    else
      let tn := gdField g 54 2
      (one.1 + up64 (accBytes h),
        one.2 + op2 + up64 (tm * tn * 4) + up64 (tm * 8) + up64 (tm * tn * fmtSize (bits (gdField h 0 1) 1 0)))

/-- Bytes of every ring whose destination has the host of virtual core `v` (13 R502). -/
def ringDemand (p : ProgramImage) (l : LeaseView) (v : Nat) : Nat :=
  let host (x : Nat) : Nat := lget 0 l.hosts (x % max 1 l.hosts.length)
  nsum (p.gemms.map fun g =>
    let f := fusionOf p g
    if fuPeer f = 1 && host (bits (fuField f 73 1) 5 0) = host v then
      up64 (fuField f 74 2 * (gdField g 52 2 * gdField g 54 2 * outSize (fuOut f)))
    else 0)

/-- A failed admission: SHORT_KIND, SHORT_WHERE and SHORT_AMOUNT (09 R366). -/
structure Short where
  kind : Nat
  place : Nat
  amount : Nat
deriving DecidableEq, Repr

/-- The largest shortfall of a list of places; none where nothing is short. -/
def worstShort (kind : Nat) (l : List (Nat × Nat)) : Option Short :=
  l.foldl (fun b x => if x.2 = 0 then b else match b with
    | none => some ⟨kind, x.1, x.2⟩
    | some y => if y.amount < x.2 then some ⟨kind, x.1, x.2⟩ else some y) none

/-- CORE_STORE shortfalls by bucket and group, a group being numbered by its first descriptor. DEDUCED; log 36. -/
def coreShorts (p : ProgramImage) (l : LeaseView) : List (Nat × Nat) :=
  (List.range (max 1 p.buckets.length)).flatMap fun b =>
    (((List.range p.gemms.length).zip p.gemms).filter fun x => chained p x.1 = 0).flatMap fun x =>
      let d := groupDemand p b x.2
      (List.range l.vcores).map fun v => (x.1 % 4096 + b * 4096, (d.1 - 262144) + (d.2 + ringDemand p l v - 720896))

/-- A phase's declared worst-case time at a virtual core count (09 R365). -/
def phaseTime (p : ProgramImage) (vcores k : Nat) : Nat :=
  match p.phaseUs.find? fun x => x.1 = vcores with
  | some x => lget 0 x.2 k
  | none => 0

/-- PHASE_TIME shortfalls against budgets (09 R365, 01 R30). -/
def phaseShorts (p : ProgramImage) (vcores : Nat) (budget : Nat → Nat) : List (Nat × Nat) :=
  (List.range 8).map fun k => (k, phaseTime p vcores k - budget k)

/-- The lease of a tenant as programs are judged against it. -/
def State.leaseView (s : State) (t : Fin 16) : LeaseView :=
  { vcores := s.vcores t, hosts := s.coresOf t, base := s.dramBase t, size := s.dramSize t }

/-- Bytes of DRAM the tenant's lattice image, the one that waits for the tick, and the program of its other slot hold (04 R155; 09 R365). -/
def State.heldBytes (s : State) (t : Fin 16) (slotB : Bool) : Nat :=
  let n := s.tenant t
  let bytes (i : Lattice) : Nat := 64 + 32 * i.prims.length
  (match n.search.image with | some i => bytes i | none => 0) + (match n.search.imageNext with | some x => bytes x.2 | none => 0)
    + (match (if slotB then n.sched.slotA else n.sched.slotB) with | some p => p.image.dramBytes | none => 0)

/-- Admission in order, stopping at the first check that fails (09 R365). -/
def State.admission (s : State) (t : Fin 16) (slotB : Bool) (p : ProgramImage) : Option Short :=
  let l := s.leaseView t
  (worstShort 1 (coreShorts p l)).or
    ((worstShort 2 [(0, (p.minTiles - s.tileShare t) * 16384)]).or
      ((worstShort 3 [(0, p.dramBytes - (l.size - s.heldBytes t slotB))]).or
        (worstShort 4 (phaseShorts p l.vcores s.budget))))

/-- A program with its hashes, computed at load (14 R537). -/
def programOf (p : ProgramImage) : Program :=
  { image := p, programHash := sha256 p.body, weightsHash := sha256 p.weights.flatten }

/-- A load into the running slot, or one a pending ACTIVATE names (10 R394). -/
def Sched.slotBusy (d : Sched) (b : Bool) : Bool :=
  (d.activeB = b && d.program.isSome) || (match d.activate with | some (_, x) => x = b | none => false)

/-- The engine requests of an image placed in its DRAM, where they lie in the lease (10 R377; log 127). -/
def State.placeRequests (s : State) (t : Fin 16) (p : ProgramImage) : State :=
  s.forEach p.requests fun s r => if s.inLease t (p.dram + r.1) r.2.length then s.dramWrite (p.dram + r.1) r.2 else s

/-- LOAD_PROGRAM (10 R378, R394; 08 R307; 09 R339, R365, R366). The spec gives the image's container no layout, so the offset
of a faulty field is a free value (log 5). -/
def State.loadProgram (s : State) (t : Fin 16) (tag : Nat) (p : ProgramImage) : State :=
  match s.cmdFor t tag 7 with
  | none => s
  | some c =>
    let b : Bool := cmdField c.word 24 1 = 1
    if s.held then s
    else if (s.tenant t).sched.slotBusy b then s.completeCmd t c codeBusy 0
    else if c.src && s.dram.poisoned c.addr c.len then s.completeCmd t c codeMemoryUe 0
    else if ! imageOk p (s.leaseView t) then (s.refuseCmd t c codeBad (Config.freeWord s.draws).toNat true).draw
    else
      match s.admission t b p with
      | some x => s.completeCmd t c codeTooLarge (BitVec.ofNat 160 (x.kind + x.place * 2 ^ 16 + x.amount * 2 ^ 32))
      | none =>
        let q := some (programOf p)
        let s := s.placeRequests t p
        (s.updSched t fun d => if b then { d with slotB := q } else { d with slotA := q }).completeCmd t c codeOk 0

/-- LOAD_PROGRAM -/
def execLoadProgram (t : Fin 16) (tag : Nat) (p : ProgramImage) (s : State) : Host.Outcome State Fault Refusal :=
  done (s.loadProgram t tag p)

end Sys2Proof.Machine
end

