-- ==== Sys2Proof/Machine/Checker.lean ====
section
/-! DEFINITION. The checker engines at work (05 R207, R208, R212 to R224): which check an engine takes next, and what its verdict
writes. -/
namespace Sys2Proof.Machine
open Sys2Proof

/-- The facts a tenant's checks depend on, once it is sealed (05 R208). -/
def State.checkCtx (s : State) (t : Fin 16) (v : Sealed) : CheckCtx :=
  { foot := s.foot t, sealed := v, classFree := s.classFree, cellCm := s.cellCm, sliceMs := s.sliceMs, slices := s.sliceCount }

/-- The entry may be checked now: its tenant is sealed, its phase has not passed, the emergency stop waits for a Hedgehog
that is not CLEAR, and the other candidates wait for the stops (01 R34, R52; 05 R212, R213, R215). -/
def State.checkable (s : State) (x : Entry) : Bool :=
  let n := s.tenant x.tenant
  let hh := n.table.verdict 0
  n.live && n.world.view.isSome && ! s.phasePassed (checkPhase x.id)
    && (match x.id with
      | 0 => true
      | 1 => decide (2 ≤ hh)
      | _ => hh = 1 || n.table.verdict 1 ≠ 0)

/-- A stop comes before another: in ascending tenant order, the Hedgehog first (05 R212). -/
def Entry.stopBefore (a b : Entry) : Bool := a.tenant < b.tenant || (a.tenant = b.tenant && a.id < b.id)

/-- The next check of an engine: an allowed stop of its queue, else the oldest entry that may be checked (05 R212). -/
def State.nextCheck (s : State) (q : List Entry) : Option Entry :=
  let l := q.filter s.checkable
  match l.filter fun x => x.id < 2 with
  | [] => l.head?
  | x :: r => some (r.foldl (fun b y => if y.stopBefore b then y else b) x)

/-- CHECK_START (05 R212, R213): a free usable engine takes its next check; the room in its queue lets stalled producers go
on (05 R214). -/
def State.startCheck (s : State) (e : Fin 16) : State :=
  let k := s.engines.at' e
  if s.held || s.halted || s.frame.opening || ! s.frame.inFrame || ! k.view.serves || k.current.isSome then s
  else
    match s.nextCheck k.queue with
    | none => s
    | some x =>
      (s.updEngine e.val fun k =>
        { k with queue := k.queue.erase x, current := some x, spoiled := false }).retryStalled

/-- CHECK_START -/
def execCheckStart (e : Fin 16) (s : State) : Host.Outcome State Fault Refusal := done (s.startCheck e)

/-- The result of the check of a written candidate (05 R205). -/
def State.checkResult (s : State) (t : Fin 16) (v : Sealed) (c : Cand) : CheckResult :=
  let n := s.tenant t
  let prims := if c.kind = 2 then n.table.stopPrims else match n.search.image with | some i => i.prims | none => []
  (s.checkCtx t v).check c prims n.search.limits.decelComfort.toNat n.table.stopSpeed

/-- A verdict written into the record and the tenant's counts; CLEAR sets the candidate's bit (05 R205, R216, R220). -/
def State.writeVerdict (s : State) (e : Nat) (t : Fin 16) (id : Nat) (v : BitVec 2) (hit : Byte) (agent : Word) : State :=
  let s := s.streamWrite (48 + e) toDram 0 (s.candAddr t id + 5) [BitVec.ofNat 8 v.toNat, hit]
  let s := s.streamWrite (48 + e) toDram 0 (s.candAddr t id + 80) (leBytes 4 agent.toNat)
  let s := s.updCand t id fun c => { c with verdict := v, firstHit := hit, hitAgent := agent }
  s.updTable t fun b =>
    { b with
      clear := if v = 1 then sinsert b.clear id else b.clear
      checked := b.checked + 1
      nClear := b.nClear + b2n (v = 1)
      nHit := b.nHit + b2n (v = 2)
      nUnsure := b.nUnsure + b2n (v = 3) }

/-! ### Drains (10 R379) -/

/-- An ID of a tenant is in a Badger queue or being checked. -/
def State.inBadger (s : State) (t : Fin 16) (id : Nat) : Bool :=
  s.engines.toList.any fun e => e.queue.contains ⟨t, id⟩ || e.current = some ⟨t, id⟩

/-- A started CHECK_DRAIN task. -/
def Sched.draining (d : Sched) (k : Task) : Bool := k.st = .started && trKind (d.rec' k.index) = 1 && trHome (d.rec' k.index) % 8 = 3

/-- Drains whose last candidate has left the queues retire (10 R379). -/
def State.pollDrains (s : State) (t : Fin 16) : State :=
  let s1 := s.updSched t fun d =>
    { d with tasks := d.tasks.map fun k => if d.draining k then { k with waitsOn := k.waitsOn.filter (s.inBadger t) } else k }
  let d := (s1.tenant t).sched
  s1.forEach ((d.tasks.filter fun k => d.draining k && k.waitsOn = []).map (·.index)) fun s i => s.finishTask t i codeOk

/-- A Hedgehog that is CLEAR leaves no check of the emergency stop to make: that entry leaves the queues (01 R52; 05 R213; 10
R379). DEDUCED; log 78. -/
def State.releaseStop (s : State) (t : Fin 16) : State :=
  if (s.tenant t).table.verdict 0 ≠ 1 then s
  else
    let engines := s.engines.map fun (e : Engine) => { e with queue := e.queue.filter fun x => x ≠ ⟨t, 1⟩ }
    (({ s with engines := engines }).updTable t fun b => { b with stalled := b.stalled.filter fun i => i ≠ 1 }).retryStalled

/-- CHECK_VERDICT (05 R205, R207, R216; 19 R724; 01 R55): the check in progress ends. A check spoiled by an SRAM error ends
UNSURE; its FIRST_HIT is a free value, since the spec states none (log 33). A poisoned record is a program fault and gets no
verdict (19 R729). -/
def State.endCheck (s : State) (e : Fin 16) : State :=
  let k := s.engines.at' e
  match k.current with
  | none => s
  | some x =>
    let n := s.tenant x.tenant
    if s.held || s.halted then s
    else
      match n.world.view, n.table.cand x.id with
      | some v, some c =>
        if s.candPoisoned x.tenant x.id then
          let s := s.updEngine e.val fun k => { k with current := none, spoiled := false }
          (s.programFault x.tenant codeMemoryUe).pollDrains x.tenant
        else
        let r := s.checkResult x.tenant v c
        let s := s.updEngine e.val fun k =>
          { k with current := none, spoiled := false, checked := k.checked + 1, busy := k.busy + r.cost }
        let s :=
          if k.spoiled then (s.writeVerdict e.val x.tenant x.id 3 (Config.freeByte s.draws) 0xFFFFFFFF).draw
          else s.writeVerdict e.val x.tenant x.id r.verdict r.firstHit r.hitAgent
        ((s.releaseStop x.tenant).judgeImminent x.tenant).pollDrains x.tenant
      | _, _ => (s.updEngine e.val fun k => { k with current := none, spoiled := false }).pollDrains x.tenant

/-- CHECK_VERDICT -/
def execCheckVerdict (e : Fin 16) (s : State) : Host.Outcome State Fault Refusal := done (s.endCheck e)

/-! ### An engine leaves UP (05 R224) -/

/-- The next usable engine of a tenant's list after an engine, wrapping. -/
def State.nextEngine (s : State) (t : Fin 16) (e : Nat) : Option (Fin 16) :=
  let l := (s.tenant t).table.engineList
  ((l.filter fun f => e < f.val) ++ l.filter fun f => f.val < e).find? fun f => s.usable .badger f.val

/-- An engine that has left UP: what it queued and checked stays PENDING, but its stops restart on the next usable engine of
their tenant's list, where they take a place even beyond the 256th (DESIGN CHOICE; log 117); a producer that the engine's queue stalled
goes on (05 R224). -/
def State.engineLost (s : State) (e : Nat) : State :=
  let k := bget Engine.reset s.engines e
  let stops := (k.current.toList ++ k.queue).filter fun x => x.id < 2
  let s := s.updEngine e fun k => { k with queue := [], current := none, spoiled := false }
  let s := s.forEach stops fun s x =>
    match s.nextEngine x.tenant e with
    | some f => (s.updEngine f.val fun k => { k with queue := k.queue ++ [x] }).noteDepth f.val
    | none => s
  s.retryStalled.forTenants State.pollDrains

/-- A PENDING written candidate of a phase is neither being checked nor can any more begin (05 R215, R224). -/
def State.unbegun (s : State) (t : Fin 16) (k : Nat) : Bool :=
  (s.tenant t).table.cands.any fun p =>
    checkPhase p.1 = k && p.2.verdict = 0 && s.engines.toList.all fun e => e.current ≠ some ⟨t, p.1⟩

end Sys2Proof.Machine
end

