-- ==== Sys2Proof/Machine/Search.lean ====
section
/-! DEFINITION. The primitive table and its checks (04 R145 to R155), Front's field (04 R157 to R161), the lattice expander
(04 R162 to R167) and the proposal converter (04 R168 to R173). -/
namespace Sys2Proof.Machine
open Sys2Proof

/-! ### The lattice image (04 R145, R150 to R154) -/

/-- The limit block of 32 bytes (04 R145). -/
def parseLimits (b : List Byte) : Limits :=
  let f (i : Nat) : BitVec 16 := BitVec.ofNat 16 (u16At b i)
  { vMax := f 0, accelLong := f 2, decelComfort := f 4, decelDyn := f 6, accelLat := f 8, jerk := f 10, kappaFront := f 12,
    kappaRear := f 14, kappa4ws := f 16, crabMax := BitVec.ofNat 8 (byteAt b 18), modes := BitVec.ofNat 8 (byteAt b 19) }

/-- Offsets of the faulty fields of a limit block; "any of bytes 2–17 is 0" is read as any field of them. DEDUCED; log 30
(04 R146). -/
def limitFlaws (b : List Byte) : List Nat :=
  let rows : List (Bool × Nat) :=
    [(u16At b 0 = 0 || 8000 < u16At b 0, 0), (u16At b 6 < u16At b 4, 4), (bits (byteAt b 19) 3 0 = 0, 19),
     (bits (byteAt b 19) 7 4 ≠ 0, 19), (bit (byteAt b 19) 3 && (byteAt b 18 = 0 || 16 < byteAt b 18), 18),
     (! allZero ((b.drop 20).take 12), 20)]
  let zero : List (Bool × Nat) := (List.range 8).map fun i => (decide (u16At b (2 + 2 * i) = 0), 2 + 2 * i)
  ((rows ++ zero).filter (·.1)).map (·.2)

/-- A primitive record (04 R151). -/
def parsePrim (b : List Byte) : Prim :=
  let f (i : Nat) : BitVec 16 := BitVec.ofNat 16 (u16At b i)
  { start := f 0, stop := f 2, dx := f 4, dy := f 6, durationMs := f 8, kappa0 := f 10, kappa1 := f 12, acc0 := f 14,
    acc1 := f 16, cost := f 18, crab := BitVec.ofNat 8 (byteAt b 20) }

/-- Heading bin, speed bin and mode of a state word (04 R151). -/
def stateHead (w : BitVec 16) : Nat := bits w.toNat 5 0
/-- Speed bin. -/
def stateSpeed (w : BitVec 16) : Nat := bits w.toNat 10 6
/-- Mode. -/
def stateMode (w : BitVec 16) : Nat := bits w.toNat 12 11

/-- Offsets of the faulty fields of a primitive record, with the START of the record before it (04 R153). -/
def primFlaws (b : List Byte) (prev : Nat) : List Nat :=
  let st (i : Nat) : Bool := 16 < bits (u16At b i) 10 6 || bits (u16At b i) 15 13 ≠ 0
  let rows : List (Bool × Nat) :=
    [(st 0 || u16At b 0 < prev, 0), (st 2, 2), (u16At b 8 < 250 || 2000 < u16At b 8, 8), (! allZero ((b.drop 21).take 11), 21)]
  (rows.filter (·.1)).map (·.2)

/-- The values at which the speed of a primitive may be extreme, in mm/s (04 R154). -/
def Prim.speeds (p : Prim) : List (Int × Nat) :=
  let v0 : Int := 500 * (stateSpeed p.start : Int)
  let d : Int := p.durationMs.toNat
  let a0 := p.acc0.toInt
  let a1 := p.acc1.toInt
  let slope := a1 - a0
  let inner := if slope = 0 ∨ - a0 * slope.sign ≤ 0 ∨ slope.natAbs ≤ a0.natAbs then []
    else [fracAdd (v0, 1) (frac (- (a0 * a0 * d * slope.sign)) (2000 * slope.natAbs))]
  (v0, 1) :: fracAdd (v0, 1) (frac ((a0 + a1) * d) 2000) :: inner

/-- The lowest limit code a primitive breaks; none for no violator (04 R154). `The mode' of codes 1 and 9 is START's where the two differ.
DESIGN CHOICE; log 112. -/
def Prim.violation (p : Prim) (l : Limits) : Option Nat :=
  let mode := stateMode p.start
  let kap := if mode = 0 then l.kappaFront.toNat else if mode = 1 then l.kappaRear.toNat else l.kappa4ws.toNat
  let k0 := p.kappa0.toInt.natAbs
  let k1 := p.kappa1.toInt.natAbs
  let a0 := p.acc0.toInt
  let a1 := p.acc1.toInt
  let vs := p.speeds
  let peak := vs.foldl (fun b v => if fracLe b v then v else b) (0, 1)
  let rows : List (Bool × Nat) :=
    [(if mode = 3 then k0 ≠ 0 || k1 ≠ 0 else kap < k0 || kap < k1, 1),
     ((l.accelLong.toNat : Int) < a0 || (l.accelLong.toNat : Int) < a1, 2),
     (a0 < - (l.decelComfort.toNat : Int) || a1 < - (l.decelComfort.toNat : Int), 3),
     (l.jerk.toNat * p.durationMs.toNat < (a1 - a0).natAbs * 1000, 4),
     (decide ((l.accelLat.toNat * 1024000 : Nat) * (peak.2 * peak.2 : Nat) < ((max k0 k1 : Nat) : Int) * (peak.1 * peak.1)), 5),
     (vs.any fun v => v.1 < 0 || ! fracLe v (l.vMax.toNat, 1), 6),
     (mode ≠ stateMode p.stop && (stateSpeed p.start ≠ 0 || stateSpeed p.stop ≠ 0), 7),
     (! bit l.modes.toNat mode || ! bit l.modes.toNat (stateMode p.stop), 8),
     (if mode = 3 then l.crabMax.toNat < p.crab.toInt.natAbs else p.crab ≠ 0, 9)]
  ((rows.filter (·.1)).map (·.2)).head?

/-- What the check of an image answers (04 R153). -/
inductive LatticeCheck where
  | ok (x : Lattice)
  | bad (code : Byte) (off : Nat)
  | violator (index limit : Nat)

/-- The check of a lattice image against the grid's cell size (04 R150 to R154). -/
def checkLattice (data : List Byte) (cellCm : Nat) : LatticeCheck :=
  let n := u32At data 0
  if data.length < 64 + 32 * n then .bad codeLength 0
  else
    let rs := (chunks 32 n (data.drop 64))
    let starts := rs.map fun r => u16At r 0
    let flaws := (if n = 0 ∨ 65536 < n then [0] else []) ++ (if byteAt data 4 ≠ cellCm then [4] else [])
      ++ (if allZero ((data.drop 5).take 11) then [] else [5]) ++ (limitFlaws ((data.drop 16).take 32)).map (16 + ·)
      ++ (if allZero ((data.drop 48).take 16) then [] else [48])
      ++ ((List.range rs.length).zip (rs.zip (0 :: starts))).flatMap fun p => (primFlaws p.2.1 p.2.2).map (64 + 32 * p.1 + ·)
    if flaws ≠ [] then .bad codeBad (flaws.foldl min 0xFFFFFFFF)
    else
      let l := parseLimits ((data.drop 16).take 32)
      let prims := rs.map parsePrim
      match ((List.range prims.length).zip prims).findSome? fun p => (p.2.violation l).map fun c => (p.1, c) with
      | some (i, c) => .violator i c
      | none => .ok { cellCm := BitVec.ofNat 8 (byteAt data 4), limits := l, prims := prims, hash := sha256 data }

/-- LOAD_LATTICE (04 R153, R155, R183): an accepted image waits for the tick, the later doorbell's replacing the earlier's. -/
def State.loadLattice (s : State) (t : Fin 16) (tag : Nat) (buf : List Byte) : State :=
  match s.cmdFor t tag 2 with
  | none => s
  | some c =>
    if s.held then s
    else
      match s.cmdData c buf with
      | none => s.completeCmd t c codeMemoryUe 0
      | some d =>
        match checkLattice d s.cellCm with
        | .bad code off => s.refuseCmd t c code off true
        | .violator i k => s.completeCmd t c codeLimit (BitVec.ofNat 160 (i + k * 2 ^ 32))
        | .ok x =>
          let s := s.updSearch t fun f =>
            { f with imageNext := match f.imageNext with
                | some (o, y) => if o < c.stamp.order then some (c.stamp.order, x) else some (o, y)
                | none => some (c.stamp.order, x) }
          s.completeCmd t c codeDeferred 0

/-- LOAD_LATTICE -/
def execLoadLattice (t : Fin 16) (tag : Nat) (buf : List Byte) (s : State) : Host.Outcome State Fault Refusal :=
  done (s.loadLattice t tag buf)

/-! ### Front (04 R157 to R161) -/

/-- A per-tenant register of the WAVEFRONT page. -/
def State.wave (s : State) (t : Fin 16) (off : Nat) : Nat := s.live 0x08 (perTenant t off)
/-- A per-tenant register of the LATTICE page. -/
def State.latReg (s : State) (t : Fin 16) (off : Nat) : Nat := s.live 0x07 (perTenant t off)

/-- A set of cells of the grid: row `cy` of the list holds cell `cx` as its bit `cx`; the empty list is the empty set. -/
abbrev CellRows := List Nat

/-- Cells of a tile whose word passes a test, as 4,096 bits. -/
def TileBody.openBits (b : TileBody) (ok : Nat → Bool) : Nat :=
  match b with
  | .uniform v => if ok v.word then 2 ^ 4096 - 1 else 0
  | .mixed ws =>
    ws.foldl (fun t p => if ok p.2.toNat = ok 0 then t else t ^^^ 2 ^ p.1) (if ok 0 then 2 ^ 4096 - 1 else 0)

/-- Cells whose static voxels in the bands are neither OCCUPIED nor unfreed UNKNOWN (04 R157). -/
def Sealed.openRows (v : Sealed) (classFree : Nat → Nat) (bandLo bandHi : Nat) : CellRows :=
  let bands := (List.range (bandHi + 1 - bandLo)).map (bandLo + ·)
  (List.range 32).flatMap fun ty =>
    let tiles := (List.range 32).map fun tx =>
      let i := 32 * ty + tx
      if v.lateTiles.contains i then 0
      else
        let x := mget Tile.default v.stat i
        let free := classFree x.cls.toNat
        x.body.openBits fun w => bands.all fun b =>
          match bits w (2 * b + 1) (2 * b) with | 0 => true | 1 => false | _ => bit free b
    (List.range 64).map fun r =>
      ((List.range 32).zip tiles).foldl (fun row p => row + bits p.2 (64 * r + 63) (64 * r) * 2 ^ (64 * p.1)) 0

/-- A cell index at an offset; none outside the grid. -/
def cellAt (i : Nat) (dx dy : Int) : Option Nat :=
  let x := ((i % 2048 : Nat) : Int) + dx
  let y := ((i / 2048 : Nat) : Int) + dy
  if 0 ≤ x ∧ x < 2048 ∧ 0 ≤ y ∧ y < 2048 then some (2048 * y.toNat + x.toNat) else none

/-- Union of two sets. -/
def CellRows.union (a b : CellRows) : CellRows := if a = [] then b else if b = [] then a else List.zipWith (· ||| ·) a b

/-- Cells beside those of a row. -/
def rowSides (r : Nat) : Nat := (r <<< 1) % 2 ^ 2048 ||| r >>> 1

/-- Cells above or below those of a set. -/
def CellRows.vertical (a : CellRows) : CellRows := if a = [] then [] else List.zipWith (· ||| ·) (0 :: a) (a.drop 1 ++ [0])

/-- Cells one orthogonal step from those of a set. -/
def CellRows.orthogonal (a : CellRows) : CellRows := CellRows.union (a.map rowSides) (CellRows.vertical a)

/-- Cells one diagonal step from those of a set. -/
def CellRows.diagonal (a : CellRows) : CellRows := CellRows.vertical (a.map rowSides)

/-- The cells within Chebyshev distance `n` of those of a set. -/
def CellRows.within : Nat → CellRows → CellRows
  | 0, a => a
  | n + 1, a => CellRows.within n (CellRows.union a (CellRows.union (CellRows.orthogonal a) (CellRows.diagonal a)))

/-- Unblocked cells: those around which every cell of the grid within INFLATE is open (04 R157). -/
def unblocked (openSet : CellRows) (inflate : Nat) : CellRows :=
  let full := 2 ^ 2048 - 1
  (CellRows.within inflate (openSet.map fun r => full ^^^ r)).map fun r => full ^^^ r

/-- Set bits of a row. -/
def rowCells : Nat → Nat → List Nat
  | 0, _ => []
  | f + 1, r => if r = 0 then [] else r.log2 :: rowCells f (r - 2 ^ r.log2)

/-- Cost `c` noted for the cells of a set, row by row. -/
def noteCost (c : Nat) (layer : CellRows) (rows : List (List (Nat × Nat))) : List (List (Nat × Nat)) :=
  if layer = [] then rows else List.zipWith (fun row r => (rowCells 2048 r).foldl (fun l x => (x, c) :: l) row) rows layer

/-- The least path sums over steps of 5 and 7: the cells of cost `c` are the ones left one orthogonal step from a cell of cost
`c - 5` or one diagonal step from a cell of cost `c - 7`; `layers` holds the last seven layers, the newest first. Whether a sum
exceeds 65,533 is answered too (04 R158). -/
def settleCells : Nat → Nat → CellRows → List CellRows → List (List (Nat × Nat)) → List (List (Nat × Nat)) × Bool
  | 0, _, _, _, rows => (rows, false)
  | f + 1, c, left, layers, rows =>
    if layers.all (· = []) then (rows, decide (65541 < c))
    else
      let near := CellRows.union (CellRows.orthogonal (lget [] layers 4)) (CellRows.diagonal (lget [] layers 6))
      let layer := List.zipWith (· &&& ·) near left
      let layer := if layer.all (· = 0) then [] else layer
      let left := if layer = [] then left else List.zipWith (· ^^^ ·) left layer
      settleCells f (c + 1) left (layer :: layers.take 6) (noteCost (min c 65533) layer rows)

/-- Cells of the goal square, clipped to the grid (04 R158). -/
def goalRows (gx gy radius : Nat) : CellRows :=
  let row := bits (((2 ^ (2 * radius + 1) - 1) <<< gx) >>> radius) 2047 0
  (List.range 2048).map fun y => if y ≤ gy + radius ∧ gy ≤ y + radius then row else 0

/-- The field: cost per cell, row by row, of the cells reached, and FIELD_SAT (04 R158, R160). -/
def fieldOfCells (u : CellRows) (goalEn : Bool) (gx gy radius : Nat) : List (List (Nat × Nat)) × Bool :=
  if ! goalEn then ([], false)
  else
    let goals := List.zipWith (· &&& ·) u (goalRows gx gy radius)
    let layer := if goals.all (· = 0) then [] else goals
    let left := List.zipWith (· ^^^ ·) u goals
    settleCells 29360128 1 left (layer :: List.replicate 6 []) (noteCost 0 layer (List.replicate 2048 []))

/-- The stored cost of a cell: 0xFFFF where it is blocked, and `costDefault` where it is unblocked and not listed. -/
def Search.costAt (f : Search) (i : Nat) : Nat :=
  if ! bit (lget 0 f.unblocked (i / 2048)) (i % 2048) then 0xFFFF
  else
    match (lget [] f.cost (i / 2048)).find? fun p => p.1 = i % 2048 with
    | some p => p.2
    | none => f.costDefault

/-- The descent heading's neighbours in order (04 R159). -/
def headSteps : List (Int × Int × Nat) :=
  [(1, 0, 0), (1, 1, 8), (0, 1, 16), (-1, 1, 24), (-1, 0, 32), (-1, -1, 40), (0, -1, 48), (1, -1, 56)]

/-- The descent heading of a cell (04 R159). -/
def Search.descent (f : Search) (goalEn : Bool) (i : Nat) : Nat :=
  if ! goalEn || f.costAt i = 0 then 0
  else
    let best := headSteps.foldl (fun (b : Nat × Nat) d =>
      match cellAt i d.1 d.2.1 with
      | some n => let c := f.costAt n; if c < b.1 then (c, d.2.2) else b
      | none => b) (0xFFFE, 0)
    best.2

/-- GOAL_EN. -/
def State.goalEn (s : State) (t : Fin 16) : Bool := bit (s.wave t 0x04) 31

/-- GOAL_UNREACHABLE of the frame's field (04 R160, R190). -/
def State.goalLost (s : State) (t : Fin 16) : Bool := bit (s.wave t 0x18) 29

/-- The goal cannot be reached from a cell: its cost is 0xFFFE, or it is blocked and no neighbour has a finite cost; nor from a start
outside the grid. DEDUCED; log 18 (04 R160). -/
def Search.unreachable (f : Search) (cell : Option Nat) : Bool :=
  match cell with
  | none => true
  | some i =>
    if f.costAt i = 0xFFFF then
      headSteps.all fun d => match cellAt i d.1 d.2.1 with | some n => 0xFFFE ≤ f.costAt n | none => true
    else f.costAt i = 0xFFFE

/-- The start cell, where it lies in the grid. -/
def Start.cellIndex (k : Start) (cellCm : Nat) : Option Nat :=
  let c := k.cell cellCm
  if 0 ≤ c.1 ∧ c.1 < 2048 ∧ 0 ≤ c.2 ∧ c.2 < 2048 then some (2048 * c.2.toNat + c.1.toNat) else none

/-- END_REASON, NODES, FRONT_DONE and the candidates emitted, latched as expansion ends; the FRONT task ends (04 R166,
R181). -/
def State.endExpansion (s : State) (t : Fin 16) (reason : Nat) (frontDone : Bool) : State :=
  let f := (s.tenant t).search
  let old := s.wave t 0x18
  let w := f.expanded % 2 ^ 20 + reason * 2 ^ 20 + bits old 29 28 * 2 ^ 28 + b2n frontDone * 2 ^ 30 + bits old 31 31 * 2 ^ 31
  let s := s.setLive 0x08 (perTenant t 0x18) w
  let s := s.setLive 0x08 (perTenant t 0x1C) (f.emitted % 2 ^ 20)
  s.updSearch t fun f => { f with ended := some reason }

/-- Expansion ends while its FRONT task runs: the task's work ends too. -/
def State.finishFront (s : State) (t : Fin 16) (reason : Nat) : State :=
  let i := (s.tenant t).search.frontTask
  (s.endExpansion t reason true).endTask t i codeOk

/-- FRONT_FIELD (04 R157 to R161): the field of a sealed tenant, on a usable leased engine, before D_3; then the start node,
or the end NOT_RUN without an image or with LAT_EN 0. -/
def State.buildField (s : State) (t : Fin 16) : State :=
  let n := s.tenant t
  match n.world.view with
  | none => s
  | some v =>
    if s.held || s.halted || n.search.front ≠ .requested || s.phasePassed 3 || s.usableOf t .front = [] then s
    else
      let cfg := s.wave t 0x08
      let ga := s.wave t 0x00
      let gb := s.wave t 0x04
      let u := unblocked (v.openRows s.classFree (bits cfg 11 8) (bits cfg 15 12)) (bits cfg 3 0)
      let fld := fieldOfCells u (bit gb 31) (bits ga 10 0) (bits ga 26 16) (bits gb 7 0)
      let k := s.start t
      let c := k.cell s.cellCm
      let node : Node :=
        { cx := c.1, cy := c.2, head := k.headBin, speed := k.speedBin, mode := k.mode.toNat, g := 0, elapsed := 0, depth := 0,
          chain := [], gen := 0, expanded := false }
      let s := s.updSearch t fun f =>
        { f with
          front := .done, unblocked := u, cost := fld.1, costDefault := if bit gb 31 then 0xFFFE else 0, nodes := [node]
          generated := 1, expanded := 0, emitted := 0 }
      let s := s.streamFree (64 + lget 0 (s.usableOf t .front) 0) (4 * 2048 * 2048)
      let un := bit gb 31 && ((s.tenant t).search.unreachable (k.cellIndex s.cellCm))
      let old := s.wave t 0x18
      let s := s.setLive 0x08 (perTenant t 0x18)
        (bits old 27 0 + b2n fld.2 * 2 ^ 28 + b2n un * 2 ^ 29 + bits old 31 30 * 2 ^ 30)
      if n.search.image.isNone || ! bit (s.wave t 0x0C) 24 then s.finishFront t 5 else s

/-- FRONT_FIELD -/
def execFrontField (t : Fin 16) (s : State) : Host.Outcome State Fault Refusal := done (s.buildField t)

/-! ### Expansion (04 R162 to R167) -/

/-- Circular difference of heading bins (04 R162). -/
def headDiff (a b : Nat) : Nat := let d := (a + 64 - b % 64) % 64; min d (64 - d)

/-- f of a node, in unsigned 32-bit arithmetic (04 R162); with the goal unreachable every cell has c = 0xFFFE (04 R190). -/
def State.nodeCost (s : State) (t : Fin 16) (n : Node) : Nat :=
  let f := (s.tenant t).search
  let i := match cellAt 0 n.cx n.cy with | some i => i | none => 0
  let inside := (cellAt 0 n.cx n.cy).isSome
  let c := if s.goalLost t then 0xFFFE else if inside then f.costAt i else 0xFFFF
  let e := if inside then f.descent (s.goalEn t) i else 0
  let cfg := s.wave t 0x0C
  (n.g + ((c * bits cfg 15 8) >>> 4) + bits cfg 23 16 * headDiff n.head e) % 2 ^ 32

/-- A node may be expanded: its depth and its elapsed time lie below their bounds (04 R164). -/
def State.expandable (s : State) (t : Fin 16) (n : Node) : Bool :=
  ! n.expanded && n.depth < bits (s.wave t 0x0C) 4 0 && n.elapsed < s.horizonMs

/-- The node to expand next: the lowest f, a tie going to the earlier-generated (04 R162). -/
def State.nextNode (s : State) (t : Fin 16) : Option Node :=
  let l := ((s.tenant t).search.nodes.filter (s.expandable t)).map fun n => (s.nodeCost t n, n)
  match l with
  | [] => none
  | x :: r => some (r.foldl (fun b y => if y.1 < b.1 || (y.1 = b.1 && y.2.gen < b.2.gen) then y else b) x).2

/-- The key under which nodes count as the same (04 R163). -/
def Node.key (n : Node) (sliceMs : Nat) : Int × Int × Nat × Nat × Nat × Nat :=
  (n.cx, n.cy, n.head, n.speed, n.mode, n.elapsed / sliceMs)

/-- The successor of a node by primitive `i` (04 R163). -/
def Node.step (n : Node) (i : Nat) (p : Prim) (gen : Nat) : Node :=
  { cx := n.cx + p.dx.toInt, cy := n.cy + p.dy.toInt, head := stateHead p.stop, speed := stateSpeed p.stop,
    mode := stateMode p.stop, g := (n.g + p.cost.toNat) % 2 ^ 32, elapsed := n.elapsed + p.durationMs.toNat,
    depth := n.depth + 1, chain := n.chain ++ [i], gen := gen, expanded := false }

/-- A survivor is emitted as a candidate (04 R165); with the goal unreachable by CAND_MIN_MS alone (04 R190). -/
def State.emits (s : State) (t : Fin 16) (n : Node) : Bool :=
  let gb := s.wave t 0x04
  let ga := s.wave t 0x00
  let r : Int := bits gb 7 0
  bits (s.wave t 0x14) 12 0 ≤ n.elapsed
    || (! s.goalLost t && (n.cx - (bits ga 10 0 : Int)).natAbs ≤ r.toNat && (n.cy - (bits ga 26 16 : Int)).natAbs ≤ r.toNat
        && headDiff n.head (bits gb 21 16) ≤ bits gb 29 24)

/-- The LATTICE candidate of a node (04 R174, R175): COST is its g as binary32. -/
def State.latticeCand (s : State) (t : Fin 16) (k : Start) (n : Node) (id : Nat) : Cand :=
  let c := s.stampCand t { Cand.blank with
    id := id, origin := 0, cost := BitVec.ofNat 32 (fpOfInt fp32 n.g), mode := k.mode, kind := 0,
    count := BitVec.ofNat 8 n.chain.length,
    geom := (List.range 24).map fun i => BitVec.ofNat 16 (lget 0 n.chain i),
    companion := f32One, durationMs := BitVec.ofNat 32 n.elapsed }
  k.fill s.cellCm c

/-- The reason for which emission ends expansion at once (04 R166). -/
def State.emitEnd (s : State) (t : Fin 16) : Option Nat :=
  let e := (s.tenant t).search.emitted
  let cap := 16 * bits (s.wave t 0x14) 31 16
  if cap ≠ 0 ∧ cap ≤ e then some 2 else if s.candQuota t ≤ 5248 + e then some 3 else none

/-- One successor of a node: discarded, or kept and perhaps emitted (04 R163, R165). Nothing more happens once expansion has
ended. -/
def State.successor (s : State) (t : Fin 16) (k : Start) (n : Node) (x : Nat × Prim) : State :=
  let f := (s.tenant t).search
  if f.ended.isSome then s
  else
    let y := n.step x.1 x.2 f.generated
    match cellAt 0 y.cx y.cy with
    | none => s
    | some i =>
      let old := f.nodes.find? fun z => z.key s.sliceMs = y.key s.sliceMs
      let drop := f.costAt i = 0xFFFF || (match old with | some z => z.g ≤ y.g || z.expanded | none => false)
      if drop then s
      else
        let s := s.updSearch t fun f =>
          { f with generated := f.generated + 1, nodes := (f.nodes.filter fun z => z.key s.sliceMs ≠ y.key s.sliceMs) ++ [y] }
        if s.emits t y then
          let id := 5248 + f.emitted
          let s := s.updSearch t fun f => { f with emitted := f.emitted + 1 }
          let s := s.putCandBy (64 + lget 0 (s.usableOf t .front) 0) t (s.latticeCand t k y id)
          match s.emitEnd t with
          | some r => s.finishFront t r
          | none => s
        else s

/-- Successors of a node in order, until the expander stalls with some of them left, which it keeps (05 R214). -/
def State.successors (s : State) (t : Fin 16) (k : Start) (n : Node) : List (Nat × Prim) → State
  | [] => s
  | x :: r =>
    if (s.tenant t).table.stalls 5248 (2 ^ 20) then s.updSearch t fun f => { f with resume := some (n, (x :: r).map (·.1)) }
    else (s.successor t k n x).successors t k n r

/-- The expansion of a node has gone through its successors: expansion ends with the frontier empty or at NODE_CAP, unless the expander
has stalled on the way (04 R164, R181). -/
def State.afterNode (s : State) (t : Fin 16) : State :=
  let f := (s.tenant t).search
  if f.ended.isSome || f.resume.isSome then s
  else if (s.nextNode t).isNone then s.finishFront t 0
  else if f.expanded = bits (s.wave t 0x10) 19 0 then s.finishFront t 1
  else s

/-- EXPAND_NODE (04 R162 to R167): the lowest node expands while D_3 has not passed and the expander is not stalled. A node on which the
expander stalled goes on with the successors it has left (05 R214). -/
def State.expandNode (s : State) (t : Fin 16) : State :=
  let n := s.tenant t
  if s.held || s.halted || n.search.front ≠ .done || n.search.ended.isSome || s.phasePassed 3 || n.table.stalls 5248 (2 ^ 20)
      || s.usableOf t .front = [] then s
  else
    let prims := match n.search.image with | some l => l.prims | none => []
    let all := (List.range prims.length).zip prims
    let k := s.start t
    match n.search.resume with
    | some (x, left) =>
      let s := s.updSearch t fun f => { f with resume := none }
      (s.successors t k x (all.filter fun p => left.contains p.1)).afterNode t
    | none =>
      match s.nextNode t with
      | none => s.finishFront t 0
      | some x =>
        let own := all.filter fun p =>
          stateHead p.2.start = x.head && stateSpeed p.2.start = x.speed && stateMode p.2.start = x.mode
        let s := s.updSearch t fun f =>
          { f with expanded := f.expanded + 1, nodes := f.nodes.map fun z => if z.gen = x.gen then { z with expanded := true } else z }
        (s.successors t k x own).afterNode t

/-- EXPAND_NODE -/
def execExpandNode (t : Fin 16) (s : State) : Host.Outcome State Fault Refusal := done (s.expandNode t)

/-! ### The proposal converter (04 R168 to R173) -/

/-- An integer from 0 to 3 in binary32 (04 R170). -/
def modeValue (x : Nat) : Option Nat :=
  match fpRatio fp32 x with
  | some (n, d) => if 0 ≤ n ∧ n % (d : Int) = 0 ∧ n / (d : Int) ≤ 3 then some (n / (d : Int)).toNat else none
  | none => none

/-- The conversion of a row with its index; none where it is discarded (04 R169 to R173). -/
def State.convertRow (s : State) (t : Fin 16) (p : Nat) (row : List F32) : Option Cand :=
  let f := (s.tenant t).search
  let v (i : Nat) : Nat := (lget 0 row i).toNat
  let cfg := s.latReg t 0x14
  let k := s.start t
  let finite := (List.range 25).all fun i => fpIsFinite fp32 (v (i + 1))
  match modeValue (v 1) with
  | none => none
  | some m =>
    if ! finite || ! bit f.limits.modes.toNat m || (m ≠ k.mode.toNat && k.speed.1 ≠ 0) || ! bit cfg 16 then none
    else
      let ctl := (List.range 12).map fun i => (v (2 + i), v (14 + i))
      let c := s.stampCand t { Cand.blank with
        id := 1152 + p, origin := 1, cost := BitVec.ofNat 32 (fpNeg fp32 (v 0)), companion := f32One }
      some (controlCand f.limits m (bits cfg 9 0) (siOf k.speed) (siOf k.acc) ctl (k.fill s.cellCm c))

/-- PROPOSAL_CONVERT (04 R169 to R173): the oldest delivered row is converted and queued, or discarded and counted, unless
the converter is stalled. -/
def State.convertProposal (s : State) (t : Fin 16) : State :=
  let n := s.tenant t
  match n.search.fox with
  | [] => s
  | (p, row) :: rest =>
    if s.held || s.halted || 8 ≤ s.frame.passed || n.table.stalls 1152 5248 then s
    else
      let s := s.updSearch t fun f => { f with fox := rest }
      if 4096 ≤ p then s.updSearch t fun f => { f with foxOver := sat16 f.foxOver }
      else
        match s.convertRow t p row with
        | none => s.updSearch t fun f => { f with foxDiscarded := sat16 f.foxDiscarded }
        | some c =>
          let s := s.updSearch t fun f =>
            { f with converted := f.converted + 1, foxClipped := f.foxClipped + b2n c.clipped }
          s.putCandBy 74 t c

/-- PROPOSAL_CONVERT -/
def execProposalConvert (t : Fin 16) (s : State) : Host.Outcome State Fault Refusal := done (s.convertProposal t)

end Sys2Proof.Machine
end

