-- ==== Sys2Proof/Machine/Engines.lean ====
section
/-! DEFINITION. ENGINE tasks (10 R379): requests issued to Front, Jay, Bear, the check drain and the DMA engine. -/
namespace Sys2Proof.Machine
open Sys2Proof

/-- Device address of an ENGINE task's request: WORK in the image's DRAM (10 R377; log 127). -/
def Sched.requestAddr (d : Sched) (i : Nat) : Nat :=
  match d.image with
  | some p => p.dram + trWork (d.rec' i)
  | none => trWork (d.rec' i)

/-- Bytes of the request to an engine, by HOME (06 R229; 07 R266; 15 R573). The drain's range lies in bytes 8 to 15. PRESUMED; log 37. -/
def State.requestLen (s : State) (home addr : Nat) : Nat :=
  match home with
  | 0 => 0
  | 1 => 64
  | 2 => 32 + 4 * byteAt (s.dramRead addr 2) 1
  | 3 => 16
  | _ => 32

/-- The request of an ENGINE task, as device DRAM holds it: a range outside the lease, or poisoned, is a fault (08 R326; 19 R729). -/
def State.readRequest (s : State) (t : Fin 16) (i : Nat) : Except Byte (List Byte) :=
  let d := (s.tenant t).sched
  let a := d.requestAddr i
  let n := s.requestLen (trHome (d.rec' i) % 8) a
  if n ≠ 0 && ! s.inLease t a n then .error codeAccess
  else if s.dram.poisoned a n then .error codeMemoryUe
  else .ok (s.dramRead a n)

/-- A started task whose request has gone to its engine. -/
def State.markStarted (s : State) (t : Fin 16) (i : Nat) : State :=
  (s.updSched t fun d => d.updTask i fun k => { k with st := .started, startAt := s.now }).traceTask 3 t i 0x3F 0 0

/-- CHECK_DRAIN at issue: the candidates of its range in Badger's queues or being checked (10 R379). The range lies in the
request as in a CANDIDATE selection. PRESUMED; log 37. -/
def State.issueDrain (s : State) (t : Fin 16) (i : Nat) (b : List Byte) : State :=
  let lo := u32At b 8
  let hi := u32At b 12
  let ids := ((s.tenant t).table.cands.map (·.1)).filter fun c => lo ≤ c && c ≤ hi && s.inBadger t c
  (s.updSched t fun d => d.updTask i fun k => { k with waitsOn := ids }).pollDrains t

/-- The link request is malformed (15 R573). -/
def linkRequestBad (b : List Byte) : Bool :=
  let op := byteAt b 0
  let len := u32At b 4
  op = 0 || 3 < op || (op = 3 && 15 < byteAt b 1) || (op ≠ 3 && byteAt b 1 ≠ 0) || ! allZero ((b.drop 24).take 8)
    || (if op = 3 then len ≠ 0 else len = 0 || 16777216 < len)

/-- A link request issued: its frames of at most 256 bytes in ascending address order (15 R573). A malformed one completes
with BAD_DESCRIPTOR, and a local range outside the lease or poisoned is a program fault (08 R326, 19 R729). DESIGN CHOICE;
log 40. -/
def State.issueDma (s : State) (t : Fin 16) (i : Nat) (b : List Byte) : State :=
  let b := padTo 32 b
  let len := u32At b 4
  let dest := BitVec.ofNat 16 (u16At b 2)
  let loc := u64At b 8
  let rem := u64At b 16
  if linkRequestBad b then s.finishTask t i codeBad
  else
    match byteAt b 0 with
    | 3 => s.issueRequest t i none 0 3 dest 0 (byteAt b 1) 0 []
    | op =>
      if ! s.inLease t loc len then s.programFault t codeAccess
      else if op = 1 && s.dram.poisoned loc len then s.programFault t codeMemoryUe
      else
        let base := s.cascade.nextTag
        let ps := (List.range (cdiv len 256)).zip (framePieces len)
        let tags : List OutTag := ps.map fun p =>
          { tag := (base + p.1) % 2 ^ 32, tenant := t, task := i, kind := if op = 1 then 1 else 2,
            localAddr := loc + p.2.1, core := none, unit := 0 }
        let s := s.updCascade fun c => { c with nextTag := base + tags.length, tags := c.tags ++ tags }
        s.forEach ps fun s p =>
          let tag := (base + p.1) % 2 ^ 32
          if ! s.cascade.tags.any (fun g => g.tag = tag) then s
          else if op = 1 then s.sendRequest (s.requestFrame 1 dest tag (rem + p.2.1) 0 (s.dramRead (loc + p.2.1) p.2.2))
          else s.sendRequest (s.requestFrame 2 dest tag (rem + p.2.1) p.2.2 [])

/-- ENGINE_TASK_ISSUE (10 R379, 04 R161): a ready ENGINE task issues its request. Front runs once per tenant and frame: a
second FRONT task retires at once. DEDUCED; log 46. -/
def State.issueEngine (s : State) (t : Fin 16) (i : Nat) : State :=
  let d := (s.tenant t).sched
  if ! s.readyTask t i 1 || s.halted then s
  else
    let req := s.readRequest t i
    let ph := trPhase (d.rec' i)
    let s := s.markStarted t i
    match req with
    | .error code => s.programFault t code
    | .ok b =>
      match trHome (d.rec' i) % 8 with
      | 0 =>
        if (s.tenant t).search.front = .notRun && (s.tenant t).search.ended.isNone then
          s.updSearch t fun f => { f with front := .requested, frontTask := i }
        else s.finishTask t i codeOk
      | 1 => s.updSel t fun v => { v with issued := v.issued ++ [(i, ph, b)] }
      | 2 => s.updSolver t fun v => { v with issued := v.issued ++ [(i, b)] }
      | 3 => s.issueDrain t i b
      | _ => s.issueDma t i b

/-- ENGINE_TASK_ISSUE -/
def execEngineTaskIssue (t : Fin 16) (i : Nat) (s : State) : Host.Outcome State Fault Refusal := done (s.issueEngine t i)

end Sys2Proof.Machine
end

