-- ==== Sys2Proof/Machine/Selection.lean ====
section
/-! DEFINITION. Jay (07): SELECT requests, the ranking order, exact and bucketed selection, the two sums and their tree,
results, and the partials of a collective (15 R586). -/
namespace Sys2Proof.Machine
open Sys2Proof

/-! ### The request (07 R266, R267) -/

/-- The `n` bytes at byte `i` of a SELECT request. -/
def sqField (w : BitVec 512) (i n : Nat) : Nat := bits w.toNat (8 * (i + n) - 1) (8 * i)
/-- MODE is BUCKETED. -/
def sqBucketed (w : BitVec 512) : Bool := bit (sqField w 0 1) 0
/-- FINAL. -/
def sqFinal (w : BitVec 512) : Bool := bit (sqField w 0 1) 1
/-- KIND is TENSOR. -/
def sqTensor (w : BitVec 512) : Bool := bit (sqField w 0 1) 2
/-- K. -/
def sqK (w : BitVec 512) : Nat := sqField w 1 1
/-- GROUP. -/
def sqGroup (w : BitVec 512) : Nat := sqField w 2 2
/-- ID_LO, or BASE_ID. -/
def sqLo (w : BitVec 512) : Nat := sqField w 8 4
/-- ID_HI, or ROW_LEN. -/
def sqHi (w : BitVec 512) : Nat := sqField w 12 4
/-- First ID of a CANDIDATE row; the stops are never entries (07 R268). -/
def sqFirst (w : BitVec 512) : Nat := max (sqLo w) 2
/-- OUT_ADDR. -/
def sqOut (w : BitVec 512) : Nat := sqField w 32 8
/-- Length of the row in positions (07 R279). -/
def sqRow (w : BitVec 512) : Nat := if sqTensor w then sqHi w else sqHi w + 1 - sqFirst w

/-- A group entry of the CASCADE page (15 R585). -/
def State.groupEntry (s : State) (g : Nat) : Option Nat :=
  ((List.range 16).map fun k => s.live 0x0D (0x140 + 4 * k)).find? fun w => g ≠ 0 && bits w 15 0 = g

/-- The request's lengths are too short (07 R267). -/
def selectShort (w : BitVec 512) : Bool := sqField w 4 4 < 64 || sqField w 40 4 < 32 + 16 * sqK w

/-- The request has a bad field (07 R267, 15 R585). -/
def State.selectBad (s : State) (t : Fin 16) (phase : Nat) (w : BitVec 512) : Bool :=
  sqK w = 0 || (if sqBucketed w then 64 else 8) < sqK w || bits (sqField w 0 1) 7 3 ≠ 0 || sqField w 44 20 ≠ 0
    || (! sqTensor w && (sqHi w < sqLo w || s.candQuota t ≤ sqHi w))
    || (sqTensor w && (sqHi w = 0 || 1048576 < sqHi w || ! s.inLease t (sqField w 16 8) (4 * sqHi w)
        || ! s.inLease t (sqField w 24 8) (4 * sqHi w)))
    || (sqFinal w && (sqBucketed w || sqTensor w || sqGroup w ≠ 0 || phase ≠ 6 || (s.tenant t).sel.finalIssued))
    || (sqGroup w ≠ 0 && (s.groupEntry (sqGroup w)).isNone)

/-! ### Ranking and selection (07 R272 to R276) -/

/-- An entry ranks before another (07 R272). -/
def SelEntry.before (a b : SelEntry) : Bool :=
  let na := fpIsNan fp32 a.key.toNat
  let nb := fpIsNan fp32 b.key.toNat
  if na ≠ nb then nb
  else if ! na && flt a.key.toNat b.key.toNat then true
  else if ! na && flt b.key.toNat a.key.toNat then false
  else decide (a.ident.toNat < b.ident.toNat)

/-- An entry put in its place among ranked ones. -/
def rankIn (e : SelEntry) : List SelEntry → List SelEntry
  | [] => [e]
  | a :: r => if e.before a then e :: a :: r else a :: rankIn e r

/-- The best `k` of a list of entries in rank order, as the comparator of 07 R274 keeps them. -/
def bestOf (k : Nat) (l : List SelEntry) : List SelEntry := l.foldl (fun b e => (rankIn e b).take k) []

/-- U(x) of a non-NaN key (07 R273). -/
def keyU (x : Nat) : Nat :=
  let y := if x = 0x80000000 then 0 else x % 2 ^ 32
  if bit y 31 then 2 ^ 32 - 1 - y else y + 2 ^ 31

/-- Least `s` from 0 to 24 with the range shifted by it at most 255 (07 R275). -/
def shiftFor (range : Nat) : Nat := ((List.range 25).find? fun s => range >>> s ≤ 255).getD 24

/-- What the range pass finds: counts of non-NaN and NaN entries, least and greatest U. -/
structure SelRange where
  valid : Nat
  nans : Nat
  umin : Nat
  umax : Nat
deriving DecidableEq, Repr

/-- The range pass over a list of entries (07 R275 step 1). -/
def rangeOf (l : List SelEntry) : SelRange :=
  l.foldl (fun r e =>
    if fpIsNan fp32 e.key.toNat then { r with nans := r.nans + 1 }
    else { r with valid := r.valid + 1, umin := min r.umin (keyU e.key.toNat), umax := max r.umax (keyU e.key.toNat) })
    ⟨0, 0, 2 ^ 32 - 1, 0⟩

/-- Bucket of an entry; none for a NaN key. -/
def SelRange.bucket (r : SelRange) (e : SelEntry) : Option Nat :=
  if fpIsNan fp32 e.key.toNat then none else some ((keyU e.key.toNat - r.umin) >>> shiftFor (r.umax - r.umin))

/-- The histogram of the 256 buckets (07 R275 step 2). -/
def histogramOf (r : SelRange) (l : List SelEntry) : List Nat :=
  (l.foldl (fun (v : Array Nat) e => match r.bucket e with | some b => v.modify b (· + 1) | none => v)
    (Array.replicate 256 0)).toList

/-- The boundary bucket with C_(b−1) and C_b (07 R275 step 2). -/
def boundaryOf (k : Nat) : List Nat → Nat → Nat → Nat × Nat × Nat
  | [], b, c => (b, c, c)
  | n :: r, b, c => if k ≤ c + n then (b, c, c + n) else boundaryOf k r (b + 1) (c + n)

/-- Entries of the boundary bucket in ascending identifier order, at most 512; identifiers wrap at most once from `base`
(07 R269, R275 step 3). -/
def collectOf (r : SelRange) (b base : Nat) (l : List SelEntry) : List SelEntry :=
  let own := l.filter fun e => r.bucket e = some b
  ((own.filter fun e => e.ident.toNat < base) ++ own.filter fun e => base ≤ e.ident.toNat).take 512

/-- What a selection finds: the selected entries in rank order, RANK_BOUND and SHIFT. -/
structure Selected where
  list : List SelEntry
  bound : Nat
  shift : Nat
deriving DecidableEq, Repr

/-- The selection over a whole row (07 R274, R275, R276, R292). -/
def selectRow (bucketed : Bool) (k base : Nat) (l : List SelEntry) : Selected :=
  let r := rangeOf l
  if ! bucketed || r.valid < k then ⟨bestOf k l, 0, 0⟩
  else
    let h := histogramOf r l
    let b := boundaryOf k h 0 0
    let below := l.filter fun e => match r.bucket e with | some c => decide (c < b.1) | none => false
    let own := bestOf (k - b.2.1) (collectOf r b.1 base l)
    ⟨bestOf k (below ++ own), if 512 < lget 0 h b.1 then b.2.2 - k else 0, shiftFor (r.umax - r.umin)⟩

/-! ### Sums (07 R277 to R279) -/

/-- One level of the tree of 07 R278. -/
def treeLevel : List Nat → List Nat
  | a :: b :: r => fadd a b :: treeLevel r
  | l => l

/-- A list of partial sums combined in the fixed tree; `fuel` levels (07 R278). -/
def treeSum : Nat → List Nat → Nat
  | _, [] => 0
  | _, [a] => a
  | 0, a :: _ => a
  | f + 1, l => treeSum f (treeLevel l)

/-- Positions of a segment (07 R279). -/
def segLen (row v : Nat) : Nat := max 1 (cdiv row (max 1 v))

/-- The sum of the companions of a segment's entries that meet `p`, in position order from +0.0 (07 R277). -/
def segSum (row v i : Nat) (l : List SelEntry) (p : SelEntry → Bool) : Nat :=
  (l.filter fun e => e.pos / segLen row v = i && p e).foldl (fun a e => fadd a e.comp.toNat) 0

/-- SEL_SUM and OUT_SUM of a package's row (07 R277, R278). -/
def sumsOf (row v : Nat) (l : List SelEntry) (chosen : SelEntry → Bool) : Nat × Nat :=
  let part (p : SelEntry → Bool) := treeSum 64 ((List.range (max 1 v)).map fun i => segSum row v i l p)
  (part chosen, part fun e => ! chosen e)

/-! ### Results (07 R282, R288) -/

/-- An entry of a result. -/
def selEntryBytes (ident key comp : Nat) : List Byte := leBytes 4 ident ++ leBytes 4 key ++ leBytes 4 comp ++ leBytes 4 0

/-- The result header (07 R282). -/
def selHeader (status : Byte) (count shift rows selSum outSum bound nans : Nat) : List Byte :=
  [status, BitVec.ofNat 8 count, BitVec.ofNat 8 shift, 0] ++ leBytes 4 rows ++ leBytes 4 selSum ++ leBytes 4 outSum
    ++ leBytes 4 bound ++ leBytes 4 nans ++ leBytes 8 0

/-- A tenant's counts after a request of a status (07 R288). -/
def Selection.count (v : Selection) (status : Byte) : Selection :=
  if status = codeOk then { v with ok := v.ok + 1 }
  else if status = codeApprox then { v with ok := v.ok + 1, approx := v.approx + 1 }
  else if status = codePhaseCut then { v with cut := v.cut + 1 }
  else { v with other := v.other + 1 }

/-- A request of unit `u` completes: its result is written, T_LAST and the counts advance, a FINAL's entry 0 is kept, and its task ends
(07 R282, R285 to R288). A cut FINAL is no completed one. A result area outside the lease is a program fault (08 R326).
DEDUCED; log 40. A FINAL that ends with UNIT_FENCED is a completed one with COUNT 0 (01 R46). DESIGN CHOICE; log 121. -/
def State.writeSel (s : State) (u : Nat) (q : SelReq) (status : Byte) (count bound : Nat) (first : Option Nat) (bs : List Byte) : State :=
  let t := q.tenant
  if ! s.inLease t (sqOut q.word) bs.length then s.programFault t codeAccess
  else
    let s := (s.writeResult q.tenant (sqOut q.word) bs).streamWrite (70 + u) toDram 0 (sqOut q.word) bs
    let s := s.setLive 0x05 (perTenant t 0x0C) (status.toNat + count * 2 ^ 8 + min 0xFFFF bound * 2 ^ 16)
    let s := s.updSel t fun v =>
      let v := v.count status
      if sqFinal q.word && status ≠ codePhaseCut then { v with finalResult := some first } else v
    s.finishTask t q.task status

/-- A request completes without a selection, with COUNT 0. The other fields of its header are free values, since the spec
states none (07 R281, R284, R290; log 41). -/
def State.failSel (s : State) (u : Nat) (q : SelReq) (status : Byte) : State :=
  let w (i : Nat) := (Config.openWord [status.toNat, q.word.toNat] i).toNat
  let shift := if sqBucketed q.word then w 4 % 256 else 0
  s.writeSel u q status 0 0 none (selHeader status 0 shift (w 0) (w 1) (w 2) 0 (w 3))

/-- A Jay unit. -/
def State.jay (s : State) (u : Nat) : JayUnit := bget ⟨View.reset, [], none⟩ s.jays u

/-- The unit a result is ascribed to that no unit has taken up: the tenant's first. DESIGN CHOICE; log 50. -/
def State.selUnit (s : State) (t : Fin 16) : Nat := lget 0 (s.unitsOf t .jay) 0

/-- A collective that ends has held the successors of its task (14 R531 bit 6). DEDUCED; log 38. -/
def State.noteGroup (s : State) (q : SelReq) : State :=
  if sqGroup q.word = 0 || (s.tenant q.tenant).sched.succs q.task = [] then s else s.noteTiming q.tenant 6

/-- The running request of a unit completes without a selection. -/
def State.failRun (s : State) (u : Nat) (status : Byte) : State :=
  match (s.jay u).run with
  | some r => ((s.updJay u fun j => { j with run := none }).noteGroup r.req).failSel u r.req status
  | none => s

/-! ### SELECT (07 R267, R271) -/

/-- Count of a tenant's earlier collectives of a group in the frame (15 R586). -/
def Selection.collCount (v : Selection) (g : Nat) : Nat := (mfind v.collectives g).getD 0

/-- Why a request of a phase is refused (07 R267). -/
def State.selectFlaw (s : State) (t : Fin 16) (phase : Nat) (w : BitVec 512) : Option Byte :=
  if selectShort w then some codeLength else if s.selectBad t phase w then some codeBad else none

/-- A request refused (07 R267, R288). -/
def State.refuseSelect (s : State) (t : Fin 16) (task : Nat) (code : Byte) : State :=
  (s.updSel t fun v => v.count code).finishTask t task code

/-- A request that is not refused counts as issued: a FINAL, and an instance of its group (07 R267; 15 R586). -/
def State.noteSelect (s : State) (t : Fin 16) (w : BitVec 512) : State :=
  s.updSel t fun v =>
    { v with
      finalIssued := v.finalIssued || sqFinal w
      collectives := if sqGroup w = 0 then v.collectives else mput v.collectives (sqGroup w) (v.collCount (sqGroup w) + 1) }

/-- SELECT: Jay receives the tenant's oldest request, refuses it with nothing changed, or queues it to its unit; it waits
while the unit's queue holds 16 (07 R267, R271). With no usable unit it completes with UNIT_FENCED (07 R290). -/
def State.receiveSelect (s : State) (t : Fin 16) : State :=
  let n := s.tenant t
  match n.sel.issued with
  | [] => s
  | (task, phase, b) :: rest =>
    let w : BitVec 512 := BitVec.ofNat 512 (leNat (padTo 64 b))
    let q : SelReq := { tenant := t, task := task, phase := phase, word := w, inst := n.sel.collCount (sqGroup w)
                        snap := none }
    let took := s.updSel t fun v => { v with issued := rest }
    let us := s.usableOf t .jay
    let u := lget 0 us (n.sel.dealt % max 1 us.length)
    if s.held || s.halted then s
    else
      match s.selectFlaw t phase w with
      | some c => took.refuseSelect t task c
      | none =>
      let took := took.noteSelect t w
      if us = [] then took.failSel (s.selUnit t) q codeFenced
      else if 16 ≤ (s.jay u).queue.length then s
      else (took.updSel t fun v => { v with dealt := v.dealt + 1 }).updJay u fun j => { j with queue := j.queue ++ [q] }

/-- SELECT -/
def execSelect (t : Fin 16) (s : State) : Host.Outcome State Fault Refusal := done (s.receiveSelect t)

/-! ### SELECT_START (07 R268, R269, R279, R284) -/

/-- Segments of a row: one, or one per virtual core beyond the split threshold (07 R279). -/
def State.segmentsFor (s : State) (t : Fin 16) (row : Nat) : Nat :=
  if row ≤ 2 ^ bits (s.live 0x05 (perTenant t 0)) 4 0 then 1 else max 1 (s.vcores t)

/-- Entries of a snapshot piece of a CANDIDATE row: positions from `p`, at most 65,536 (07 R268, R284, R291). -/
def State.snapshotPiece (s : State) (t : Fin 16) (w : BitVec 512) (p : Nat) : List SelEntry :=
  let b := (s.tenant t).table
  let lo := sqFirst w + p
  let hi := min (sqHi w + 1) (lo + 65536)
  (b.clear.filter fun i => lo ≤ i && i < hi && b.isClear (s.candBase t) i).map fun i =>
    match b.cand i with
    | some c => ⟨i - sqFirst w, BitVec.ofNat 32 i, c.cost, c.companion⟩
    | none => ⟨i - sqFirst w, BitVec.ofNat 32 i, 0, 0⟩

/-- Entries of a TENSOR row (07 R269). The arrays are read as the request starts. DEDUCED; log 42. -/
def State.tensorRow (s : State) (w : BitVec 512) : List SelEntry :=
  (List.range (sqHi w)).map fun i =>
    let f (a : Nat) : Word := BitVec.ofNat 32 (leNat (s.dramRead (a + 4 * i) 4))
    ⟨i, BitVec.ofNat 32 (sqLo w + i), f (sqField w 16 8), f (sqField w 24 8)⟩

/-- The engine read of a request touches poisoned DRAM (19 R729). -/
def State.selPoisoned (s : State) (t : Fin 16) (w : BitVec 512) (p : Nat) : Bool :=
  if sqTensor w then s.dram.poisoned (sqField w 16 8) (4 * sqHi w) || s.dram.poisoned (sqField w 24 8) (4 * sqHi w)
  else s.dram.poison ≠ [] && (s.snapshotPiece t w p).any fun e => s.candPoisoned t e.ident.toNat

/-- One more snapshot piece taken by a unit's run, or a program fault on poisoned data (07 R268, R284). -/
def State.snap (s : State) (u : Nat) : State :=
  match (s.jay u).run with
  | none => s
  | some r =>
    let t := r.req.tenant
    let w := r.req.word
    if s.selPoisoned t w r.snapped then s.programFault t codeMemoryUe
    else
      let es := if sqTensor w then s.tensorRow w else s.snapshotPiece t w r.snapped
      let n := if sqTensor w then sqRow w else min (sqRow w) (r.snapped + 65536)
      s.updJay u fun j => { j with run := some { r with snapped := n, entries := r.entries ++ es } }

/-- SELECT_START (07 R268): a free usable unit takes the head of its queue and begins its snapshot, or takes up the one a lost unit had
begun (07 R290). After the master is lost
a collective completes at once (15 R590). -/
def State.startSelect (s : State) (u : Nat) : State :=
  let j := s.jay u
  if s.held || s.halted || s.frame.opening || ! s.frame.inFrame || ! j.view.serves || j.run.isSome then s
  else
    match j.queue with
    | [] => s
    | q :: rest =>
      let r : SelRun :=
        { req := q, v := s.segmentsFor q.tenant (sqRow q.word), snapped := 0, entries := [], tiles := 0, stop := false,
          sent := [], incoming := [], failed := none }
      let r : SelRun := match q.snap with
        | some (n, es) => { r with snapped := n, entries := es }
        | none => r
      let s := s.updJay u fun j => { j with queue := rest, run := some r }
      if sqGroup q.word ≠ 0 && s.cascade.masterLost then s.failRun u codeMasterLost
      else if q.snap.isSome then s else s.snap u

/-- SELECT_START -/
def execSelectStart (u : Fin 4) (s : State) : Host.Outcome State Fault Refusal := done (s.startSelect u.val)

/-! ### Collectives (15 R585, R586; 07 R281). The layout of a partial is a DESIGN CHOICE; log 47. -/

/-- LOGICAL_FRAME (14 R536). -/
def State.logicalFrame (s : State) : Nat := (s.frame.number.toNat + s.live 0x0C 0x100 + s.live 0x0C 0x104 * 2 ^ 32) % 2 ^ 64

/-- The combined state of a pass, once every part of it has arrived. -/
def SelRun.combined (r : SelRun) (pass : Nat) : Option (List Byte) :=
  let l := r.incoming.filter fun x => x.1 = pass
  match l with
  | [] => none
  | x :: _ =>
    if (List.range x.2.2.1).all fun i => l.any fun y => y.2.1 = i then
      some ((List.range x.2.2.1).flatMap fun i => match l.find? fun y => y.2.1 = i with | some y => y.2.2.2 | none => [])
    else none

/-- Bytes of a range partial: counts of non-NaN and NaN entries, least and greatest U. -/
def SelRange.bytes (r : SelRange) : List Byte := leBytes 4 r.valid ++ leBytes 4 r.nans ++ leBytes 4 r.umin ++ leBytes 4 r.umax
/-- A range partial read. -/
def rangeFrom (b : List Byte) : SelRange := ⟨u32At b 0, u32At b 4, u32At b 8, u32At b 12⟩

/-- The range over the whole row: of a collective, the combined one where it has come. -/
def SelRun.range (r : SelRun) : SelRange :=
  match r.combined 0 with
  | some b => rangeFrom b
  | none => rangeOf r.entries

/-- The row has too few non-NaN entries to form buckets, or the mode is EXACT (07 R275). -/
def SelRun.plain (r : SelRun) : Bool := ! sqBucketed r.req.word || r.range.valid < sqK r.req.word

/-- Pass number on the links of a run's own pass: 0 range, 1 histogram, 2 collect, 3 sums, 4 plain selection. -/
def SelRun.code (r : SelRun) (i : Nat) : Option Nat :=
  if ! sqBucketed r.req.word then (if i = 0 then some 4 else some 3)
  else match i with
    | 0 => some 0
    | 1 => if r.plain then none else some 1
    | 2 => if r.plain then some 4 else some 2
    | _ => some 3

/-- Boundary bucket with C_(b−1) and C_b of a collective, from the combined histogram. -/
def SelRun.boundary (r : SelRun) : Nat × Nat × Nat :=
  let h := (r.combined 1).getD []
  boundaryOf (sqK r.req.word) ((List.range 256).map fun i => u32At h (4 * i)) 0 0

/-- A TENSOR row's BASE_ID, from which identifiers wrap. -/
def SelRun.base (r : SelRun) : Nat := if sqTensor r.req.word then sqLo r.req.word else 0

/-- The entry is selected in a collective of which this package is `src`. -/
def SelRun.chosen (r : SelRun) (src : Nat) (e : SelEntry) : Bool :=
  if r.plain then
    let b := ((r.combined 4).getD []).drop 8
    (chunks 10 64 b).any fun c => u16At c 0 = src && u32At c 2 = e.ident.toNat
  else
    match r.range.bucket e with
    | none => false
    | some c =>
      c < r.boundary.1 || (c = r.boundary.1
        && (chunks 9 64 ((r.combined 2).getD [])).any fun x => u16At x 0 = src && u32At x 2 = e.ident.toNat)

/-- Offset of an entry's U within its bucket. -/
def SelRange.offset (r : SelRange) (e : SelEntry) : Nat := (keyU e.key.toNat - r.umin) % 2 ^ shiftFor (r.umax - r.umin)

/-- The package partial of a pass. -/
def SelRun.partialOf (r : SelRun) (src pass : Nat) : List Byte :=
  let w := r.req.word
  match pass with
  | 0 => (rangeOf r.entries).bytes
  | 1 => (histogramOf r.range r.entries).flatMap (leBytes 4)
  | 2 =>
    let b := r.boundary
    leBytes 2 (sqK w - b.2.1)
      ++ (collectOf r.range b.1 r.base r.entries).flatMap fun e => leBytes 4 e.ident.toNat ++ leBytes 3 (r.range.offset e)
  | 3 =>
    let s := sumsOf (sqRow w) r.v r.entries (r.chosen src)
    leBytes 4 s.1 ++ leBytes 4 s.2 ++ (bestOf 64 (r.entries.filter (r.chosen src))).flatMap fun e =>
      leBytes 4 e.ident.toNat ++ leBytes 4 e.key.toNat ++ leBytes 4 e.comp.toNat
  | _ =>
    let g := rangeOf r.entries
    leBytes 1 (sqK w) ++ leBytes 4 (g.valid + g.nans) ++ leBytes 4 g.nans
      ++ (bestOf (sqK w) r.entries).flatMap fun e => leBytes 4 e.ident.toNat ++ leBytes 4 e.key.toNat

/-- A keyed entry with its package as position. -/
def partEntry (src ident key : Nat) : SelEntry := ⟨src, BitVec.ofNat 32 ident, BitVec.ofNat 32 key, 0⟩

/-- Entry comparison by identifier, then by package. -/
def identIn (e : SelEntry) : List SelEntry → List SelEntry
  | [] => [e]
  | a :: r => if e.ident.toNat < a.ident.toNat then e :: a :: r else a :: identIn e r

/-- The master's combination of the partials of a pass, in ascending SRC (07 R278, 15 R586). -/
def combineParts (pass : Nat) (l : List (Nat × List Byte)) : List Byte :=
  match pass with
  | 0 =>
    let g := l.map fun p => rangeFrom p.2
    SelRange.bytes (g.foldl (fun a b => ⟨a.valid + b.valid, a.nans + b.nans, min a.umin b.umin, max a.umax b.umax⟩)
      ⟨0, 0, 2 ^ 32 - 1, 0⟩)
  | 1 => (List.range 256).flatMap fun i => leBytes 4 (nsum (l.map fun p => u32At p.2 (4 * i)))
  | 2 =>
    let r := match l with | p :: _ => u16At p.2 0 | [] => 0
    let es := l.flatMap fun p => (chunks 7 512 (p.2.drop 2)).map fun c =>
      partEntry p.1 (u32At c 0) (byteAt c 4 + byteAt c 5 * 2 ^ 8 + byteAt c 6 * 2 ^ 16)
    (bestOf r ((es.foldl (fun a e => identIn e a) []).take 512)).flatMap fun e =>
      leBytes 2 e.pos ++ leBytes 4 e.ident.toNat ++ leBytes 3 e.key.toNat
  | 3 =>
    let s := treeSum 64 (l.map fun p => u32At p.2 0)
    let o := treeSum 64 (l.map fun p => u32At p.2 4)
    let es := l.flatMap fun p => (chunks 12 64 (p.2.drop 8)).map fun c =>
      (⟨p.1, BitVec.ofNat 32 (u32At c 0), BitVec.ofNat 32 (u32At c 4), BitVec.ofNat 32 (u32At c 8)⟩ : SelEntry)
    leBytes 4 s ++ leBytes 4 o ++ (bestOf 64 es).flatMap fun e =>
      leBytes 4 e.ident.toNat ++ leBytes 4 e.key.toNat ++ leBytes 4 e.comp.toNat
  | _ =>
    let k := match l with | p :: _ => byteAt p.2 0 | [] => 0
    let es := l.flatMap fun p => (chunks 8 64 (p.2.drop 9)).map fun c => partEntry p.1 (u32At c 0) (u32At c 4)
    leBytes 4 (nsum (l.map fun p => u32At p.2 1)) ++ leBytes 4 (nsum (l.map fun p => u32At p.2 5))
      ++ (bestOf k es).flatMap fun e => leBytes 2 e.pos ++ leBytes 4 e.ident.toNat ++ leBytes 4 e.key.toNat

/-- Payloads of at most 256 bytes; one empty payload for no bytes. -/
def payloads (b : List Byte) : List (List Byte) := if b = [] then [[]] else chunks 256 (b.length / 256 + 1) b

/-- The packages whose partial of a collective is whole. -/
def Coll.whole (c : Coll) : List Nat :=
  (c.from'.map (·.1)).filter fun i =>
    match c.parts.find? fun p => p.1 = i with
    | some p => (List.range p.2.2.1).all fun j => c.parts.any fun q => q.1 = i && q.2.1 = j
    | none => false

/-- A package's partial, its parts in order. -/
def Coll.bytesOf (c : Coll) (i : Nat) : List Byte :=
  match c.parts.find? fun p => p.1 = i with
  | some p => (List.range p.2.2.1).flatMap fun j =>
      match c.parts.find? fun q => q.1 = i && q.2.1 = j with | some q => q.2.2.2 | none => []
  | none => []

/-- The combined state returned to every member in COLL_RESULT frames (15 R586). -/
def State.returnColl (s : State) (f : LinkFrame) (c : Coll) : State :=
  let srcs := c.whole.foldl sinsert []
  let ps := payloads (combineParts c.pass (srcs.map fun i => (i, c.bytesOf i)))
  s.forEach c.from' fun s m =>
    s.forEach ((List.range ps.length).zip ps) fun s p =>
      let r := s.answer { f with src := BitVec.ofNat 16 m.1, tag := m.2 } codeOk p.2
      s.sendResponse ({ r with
        aux := BitVec.ofNat 32 (c.group + c.pass * 2 ^ 16 + p.1 * 2 ^ 24 + ps.length % 16 * 2 ^ 28) } : LinkFrame).signed

/-- A COLL_PART at its destination (15 R585 to R587, R597): kept until the partials of MEMBERS_M1 + 1 distinct packages are
whole, then combined in ascending SRC and returned; beyond the member count, or without a group entry, it is answered with
BAD_DESCRIPTOR. -/
def State.masterPart (s : State) (f : LinkFrame) : State :=
  let a := f.aux.toNat
  let g := bits a 15 0
  let ps := bits a 19 16
  let n := if bits a 31 28 = 0 then 16 else bits a 31 28
  let src := f.src.toNat
  match s.groupEntry g with
  | none => s.sendResponse (s.answer f codeBad [])
  | some w =>
    let members := bits w 31 16 + 1
    let same (c : Coll) : Bool := c.group = g && c.addr = f.addr && c.pass = ps
    let c : Coll := (s.cascade.colls.find? same).getD { group := g, addr := f.addr, pass := ps, parts := [], from' := [] }
    let known := c.from'.any fun m => m.1 = src
    if ! known && members ≤ c.from'.length then s.sendResponse (s.answer f codeBad [])
    else if c.parts.any fun p => p.1 = src && p.2.1 = bits a 27 24 then s
    else
      let c : Coll := { c with
        parts := c.parts ++ [(src, bits a 27 24, n, f.payload)]
        from' := if known then c.from' else c.from' ++ [(src, f.tag)] }
      let s := s.updCascade fun k => { k with colls := k.colls.filter (fun d => ! same d) ++ [c] }
      if c.whole.length = members then s.returnColl f c else s

/-- A partial sent to the master in COLL_PART frames under one tag (15 R560, R586). -/
def State.sendPartial (s : State) (u pass : Nat) : State :=
  match (s.jay u).run with
  | none => s
  | some r =>
    if s.cascade.masterLost then s.failRun u codeMasterLost
    else
      let ps := payloads (r.partialOf s.pkgId.toNat pass)
      let tag := s.cascade.nextTag % 2 ^ 32
      let g : OutTag := { tag := tag, tenant := r.req.tenant, task := r.req.task, kind := 4, localAddr := 0, core := none, unit := 0 }
      let s := s.updJay u fun j => { j with run := some { r with sent := r.sent ++ [pass] } }
      let s := s.updCascade fun c => { c with nextTag := c.nextTag + 1, tags := c.tags ++ [g] }
      let addr := s.logicalFrame % 2 ^ 48 + r.req.inst % 2 ^ 16 * 2 ^ 48
      s.forEach ((List.range ps.length).zip ps) fun s p =>
        let aux := sqGroup r.req.word + pass * 2 ^ 16 + p.1 * 2 ^ 24 + ps.length % 16 * 2 ^ 28
        let f := s.requestFrame 4 s.masterId tag addr aux p.2
        if s.masterId = s.pkgId then s.masterPart f else s.sendRequest f

/-! ### SELECT_PASS (07 R284) -/

/-- Passes of a mode (07, "Figures at a glance"). -/
def SelRun.passes (r : SelRun) : Nat := if sqBucketed r.req.word then 4 else 2

/-- Tiles of one pass: the pieces of every segment and one for each merge level (07 R278, R284). -/
def SelRun.perPass (r : SelRun) : Nat :=
  let row := sqRow r.req.word
  let n := segLen row r.v
  nsum ((List.range r.v).map fun i => cdiv (min n (row - i * n)) 4096) + (if r.v ≤ 1 then 0 else Nat.log2 (r.v - 1) + 1)

/-- The snapshot is whole. -/
def SelRun.snapDone (r : SelRun) : Bool := sqRow r.req.word ≤ r.snapped

/-- A pass is behind: its tiles are complete and, in a collective, its combined state has come. -/
def SelRun.passDone (r : SelRun) (i : Nat) : Bool :=
  decide ((i + 1) * r.perPass ≤ r.tiles)
    && (sqGroup r.req.word = 0 || match r.code i with | some c => (r.combined c).isSome | none => true)

/-- The pass a run is in; none when every pass is behind. -/
def SelRun.pass (r : SelRun) : Option Nat := (List.range r.passes).find? fun i => ! r.passDone i

/-- The run waits for the combined state of a pass (15 R588). -/
def SelRun.waiting (r : SelRun) : Bool :=
  r.snapDone && (match r.pass with
    | some i => decide ((i + 1) * r.perPass ≤ r.tiles) && (match r.code i with | some c => r.sent.contains c | none => false)
    | none => false)

/-- The partial of the current pass sent, when its tiles are complete and it has not been. -/
def State.sendDue (s : State) (u : Nat) : State :=
  match (s.jay u).run with
  | none => s
  | some r =>
    match r.pass with
    | none => s
    | some i =>
      match r.code i with
      | some c =>
        if sqGroup r.req.word ≠ 0 && decide ((i + 1) * r.perPass ≤ r.tiles) && ! r.sent.contains c then s.sendPartial u c else s
      | none => s

/-- A failed collective completes with its status and COUNT 0 (07 R281, 15 R587). -/
def State.endFailed (s : State) (u : Nat) : State :=
  match (s.jay u).run with
  | some r => match r.failed with | some c => s.failRun u c | none => s
  | none => s

/-- SELECT_PASS (07 R284): one more snapshot piece, pass piece or merge level; the partial of a finished pass of a collective
is sent; past its deadline the request then completes with PHASE_CUT. -/
def State.passSelect (s : State) (u : Nat) : State :=
  let j := s.jay u
  if s.held || s.halted || ! j.view.serves then s
  else
    match j.run with
    | none => s
    | some r =>
      let s :=
        if ! r.snapDone then s.snap u
        else
          match r.pass with
          | none => s
          | some i =>
            if r.tiles < (i + 1) * r.perPass then s.updJay u fun j => { j with run := some { r with tiles := r.tiles + 1 } } else s
      if r.stop then s.failRun u codePhaseCut else (s.sendDue u).endFailed u

/-- SELECT_PASS -/
def execSelectPass (u : Fin 4) (s : State) : Host.Outcome State Fault Refusal := done (s.passSelect u.val)

/-! ### SELECT_RESULT (07 R282, R283, R285) -/

/-- Every pass of a run is behind. -/
def SelRun.complete (r : SelRun) : Bool := r.snapDone && r.pass.isNone

/-- The result of a local selection: status, count, bound, first identifier and bytes. -/
def SelRun.localResult (r : SelRun) : Byte × Nat × Nat × Option Nat × List Byte :=
  let w := r.req.word
  let x := selectRow (sqBucketed w) (sqK w) r.base r.entries
  let g := rangeOf r.entries
  let sums := sumsOf (sqRow w) r.v r.entries fun e => x.list.any fun y => y.pos = e.pos
  let st := if x.bound = 0 then codeOk else codeApprox
  (st, x.list.length, x.bound, (x.list.head?).map fun e => e.ident.toNat,
    selHeader st x.list.length x.shift (g.valid + g.nans) sums.1 sums.2 x.bound g.nans
      ++ x.list.flatMap fun e => selEntryBytes e.ident.toNat e.key.toNat e.comp.toNat)

/-- The result of a collective, the same at every member (07 R281). -/
def SelRun.groupResult (r : SelRun) : Byte × Nat × Nat × Option Nat × List Byte :=
  let w := r.req.word
  let b := (r.combined 3).getD []
  let es := chunks 12 64 (b.drop 8)
  let p4 := (r.combined 4).getD []
  let g := r.range
  let rows := if sqBucketed w then g.valid + g.nans else u32At p4 0
  let nans := if sqBucketed w then g.nans else u32At p4 4
  let bd := r.boundary
  let bound := if r.plain then 0 else if 512 < bd.2.2 - bd.2.1 then bd.2.2 - sqK w else 0
  let shift := if r.plain then 0 else shiftFor (g.umax - g.umin)
  let st := if bound = 0 then codeOk else codeApprox
  (st, es.length, bound, (es.head?).map fun c => u32At c 0,
    selHeader st es.length shift rows (u32At b 0) (u32At b 4) bound nans
      ++ es.flatMap fun c => selEntryBytes (u32At c 0) (u32At c 4) (u32At c 8))

/-- SELECT_RESULT (07 R282): a request whose passes are all behind completes with its result; past its deadline, or after a
failed collective, it completes with COUNT 0. -/
def State.resultSelect (s : State) (u : Nat) : State :=
  if s.held || s.halted then s
  else
    match (s.jay u).run with
    | none => s
    | some r =>
      match r.failed with
      | some c => s.failRun u c
      | none =>
        if ! r.complete then s
        else if r.stop then s.failRun u codePhaseCut
        else
          let x := if sqGroup r.req.word = 0 then r.localResult else r.groupResult
          ((s.updJay u fun j => { j with run := none }).noteGroup r.req).writeSel u r.req x.1 x.2.1 x.2.2.1 x.2.2.2.1 x.2.2.2.2

/-- SELECT_RESULT -/
def execSelectResult (u : Fin 4) (s : State) : Host.Outcome State Fault Refusal := done (s.resultSelect u.val)

/-! ### Cuts and losses (07 R284, R290) -/

/-- Deadline D_k of a request's phase (07 R284, 15 R588): requests not started complete with PHASE_CUT, and so does a run that
stands at a tile boundary; a run within a tile stops at its end. -/
def State.cutSelects (s : State) (k : Nat) : State :=
  let s := s.forTenants fun s t =>
    let mine := (s.tenant t).sel.issued.countP fun q => q.2.1 = k
    if mine = 0 then s
    else
      let l := (s.tenant t).sel.issued.filter fun q => q.2.1 = k
      let s := s.updSel t fun v => { v with issued := v.issued.filter fun q => q.2.1 ≠ k }
      s.forEach l fun s q =>
        let s := s.noteCut t k q.1
        let w : BitVec 512 := BitVec.ofNat 512 (leNat (padTo 64 q.2.2))
        let r : SelReq := { tenant := t, task := q.1, phase := k, word := w, inst := 0, snap := none }
        match s.selectFlaw t k w with
        | some c => s.refuseSelect t q.1 c
        | none => (s.noteSelect t w).failSel (s.selUnit t) r codePhaseCut
  s.forEach (List.range 4) fun s u =>
    let mine := (s.jay u).queue.filter fun q => q.phase = k
    let s := s.updJay u fun j => { j with queue := j.queue.filter fun q => q.phase ≠ k }
    let s := s.forEach mine fun s q => (s.noteCut q.tenant k q.task).failSel u q codePhaseCut
    match (s.jay u).run with
    | none => s
    | some r =>
      if r.req.phase ≠ k then s
      else
        let s := s.noteCut r.req.tenant k r.req.task
        if r.waiting || r.complete then s.failRun u codePhaseCut
        else s.updJay u fun j => { j with run := some { r with stop := true } }

/-- The next usable unit of a tenant's list after a unit, wrapping (07 R290). -/
def State.nextUnit (s : State) (t : Fin 16) (k : UnitKind) (u : Nat) : Option Nat :=
  let l := s.unitsOf t k
  ((l.filter fun v => u < v) ++ l.filter fun v => v < u).find? fun v => s.usable k v

/-- A request of a unit that has left UP goes on at the tenant's next usable unit, where it takes its place even beyond the 16th (DESIGN
CHOICE; log 120), or completes with UNIT_FENCED (07 R290). -/
def State.moveSelect (s : State) (u : Nat) (q : SelReq) : State :=
  match s.nextUnit q.tenant .jay u with
  | some v => s.updJay v fun j => { j with queue := j.queue ++ [q] }
  | none => s.failSel u q codeFenced

/-- A Jay unit has left UP: its requests restart elsewhere, a running one from its snapshot, and one that its deadline has stopped
completes with PHASE_CUT (07 R284, R290). -/
def State.jayLost (s : State) (u : Nat) : State :=
  let j := s.jay u
  let s := s.updJay u fun j => { j with queue := [], run := none }
  let s := match j.run with
    | some r => if r.stop then s.failSel u r.req codePhaseCut else s.moveSelect u { r.req with snap := some (r.snapped, r.entries) }
    | none => s
  s.forEach j.queue fun s q => s.moveSelect u q

/-- A core has left UP: the split requests of its tenant restart from their snapshot, or complete with UNIT_FENCED where the tenant has no
usable core left (07 R290). -/
def State.segmentsLost (s : State) (c : Nat) : State :=
  s.forEach (List.range 4) fun s u =>
    match (s.jay u).run with
    | none => s
    | some r =>
      if ! (1 < r.v && bit (s.coreMask r.req.tenant) c) then s
      else if s.usableOf r.req.tenant .core = [] then s.failRun u codeFenced
      else s.updJay u fun j => { j with run := some { r with tiles := 0 } }

/-- The frame's selection registers, latched at D_6 (07 R287, R288). -/
def State.latchSelect (s : State) (t : Fin 16) : State :=
  let v := (s.tenant t).sel
  let m (n : Nat) := min 255 n
  let s := s.setLive 0x05 (perTenant t 0x04) (m v.ok + m v.approx * 2 ^ 8 + m v.cut * 2 ^ 16 + m v.other * 2 ^ 24)
  s.setLive 0x05 (perTenant t 0x08) (match v.finalResult with | some (some i) => i | _ => 0xFFFFFFFF)

end Sys2Proof.Machine
end

