-- ==== Sys2Proof/Machine/Solver.lean ====
section
/-! DEFINITION. Bear (06): SMOOTH requests, the assembled problem, the interior-point iteration, and reports. -/
namespace Sys2Proof.Machine
open Sys2Proof

/-! ### The request (06 R229 to R231) -/

/-- START_SLOT. -/
def smStart (b : List Byte) : Nat := byteAt b 0 % 64
/-- COUNT. -/
def smCount (b : List Byte) : Nat := byteAt b 1
/-- T_CFG of a tenant (06 R258). -/
def State.solverCfg (s : State) (t : Fin 16) : Nat := s.live 0x0A (perTenant t 0)
/-- PREC: binary64. -/
def State.solver64 (s : State) (t : Fin 16) : Bool := bit (s.solverCfg t) 0
/-- Number of variables n = 7N + 5 with N = 11 × SUB (06 R239). -/
def solverVars (sub : Nat) : Nat := 77 * sub + 5
/-- Bytes of a slot's report (06 R253). -/
def State.reportSize (s : State) (t : Fin 16) : Nat :=
  32 + solverVars (bits (s.solverCfg t) 3 1) * (if s.solver64 t then 8 else 4)

/-- The request is too long for its buffers (06 R230). -/
def State.smoothShort (s : State) (t : Fin 16) (b : List Byte) : Bool :=
  u32At b 4 < 32 + 4 * smCount b || 64 < smStart b + smCount b || u32At b 16 < smCount b * s.reportSize t

/-- The request has a bad field (06 R230). -/
def State.smoothBad (s : State) (t : Fin 16) (b : List Byte) : Bool :=
  smCount b = 0 || bits (byteAt b 0) 7 6 ≠ 0 || u16At b 2 ≠ 0 || ! allZero ((b.drop 20).take 12)
    || (s.tenant t).solver.slots.any fun k => smStart b ≤ k.slot && k.slot < smStart b + smCount b

/-! ### Reports (06 R253) -/

/-- The 32 bytes of a report. -/
def reportHead (status : Byte) (iters refines cand obj rp rd mu source : Nat) : List Byte :=
  [status, BitVec.ofNat 8 iters, BitVec.ofNat 8 (min 255 refines), 0] ++ leBytes 4 cand ++ leBytes 4 obj ++ leBytes 4 rp
    ++ leBytes 4 rd ++ leBytes 4 mu ++ leBytes 4 source ++ leBytes 4 0

/-- A tenant's counts after a slot's report (06 R257). -/
def Solver.count (v : Solver) (status : Byte) : Solver :=
  if status = codeOk then { v with solved := v.solved + 1 }
  else if status = codeNotConverged then { v with notConverged := v.notConverged + 1 }
  else if status = codeIllPosed then { v with illPosed := v.illPosed + 1 }
  else { v with other := v.other + 1 }

/-- A slot's report written: T_LAST, the counts, and its task's end with its last slot. A report outside the lease is a
program fault (08 R326; log 40). -/
def State.writeReport (s : State) (t : Fin 16) (k : BearSlot) (status : Byte) (iters : Nat) (missing : Bool) (bs : List Byte) :
    State :=
  let s := s.setLive 0x0A (perTenant t 0x0C)
    (status.toNat + iters * 2 ^ 8 + k.slot * 2 ^ 16 + b2n missing * 2 ^ 31)
  let s := s.updSolver t fun v =>
    { v.count status with slots := v.slots.map fun x => if x.slot = k.slot then { x with st := .finished } else x }
  if ! s.inLease t k.report bs.length then s.programFault t codeAccess
  else
    let s := (s.writeResult t k.report bs).streamWrite (68 + k.unit.val) toDram 0 k.report bs
    let s := if status = codePhaseCut || status = codeFenced then
        s.updSched t fun d => d.updTask k.task fun x => { x with status := status }
      else s
    if (s.tenant t).solver.slots.all fun x => x.task ≠ k.task || x.st = .finished then
      match (s.tenant t).sched.task k.task with
      | some x => if x.st = .started then s.finishTask t k.task x.status else s
      | none => s
    else s

/-- The inputs of a solve of a source: its record, the measurement block, the limit and model blocks, and T_CFG (06 R234). -/
def State.solveInputs (s : State) (t : Fin 16) (source : Nat) : List Nat :=
  let n := s.tenant t
  let l := n.search.limits
  let m : List Nat := match n.solver.meas with
    | some (_, m) => [m.x.toNat, m.y.toNat, m.heading.toNat, m.speed.toNat, m.accel.toNat, m.kappa.toNat]
    | none => []
  s.solverCfg t :: m.length :: m
    ++ ([l.vMax, l.accelLong, l.decelComfort, l.decelDyn, l.accelLat, l.jerk, l.kappaFront, l.kappaRear, l.kappa4ws].map BitVec.toNat)
    ++ [l.crabMax.toNat, l.modes.toNat] ++ n.solver.model.fields.toList.map BitVec.toNat
    ++ (n.table.entryBytes source).map BitVec.toNat

/-- The fields of a report that the spec leaves open, by the inputs of the solve and the status (06 R234; log 41). -/
def State.openField (s : State) (t : Fin 16) (source : Nat) (status : Byte) (i : Nat) : Nat :=
  (Config.openWord (status.toNat :: source :: s.solveInputs t source) i).toNat

/-- A report of a slot that has no result: skipped, cut or without a unit. The spec states neither the residuals nor the
vector, which are free values (06 R233, R256, R263; log 41). -/
def State.emptyReport (s : State) (t : Fin 16) (k : BearSlot) (status : Byte) (iters refines : Nat) (missing : Bool) : State :=
  let w := s.openField t k.source status
  let n := (s.reportSize t - 32) / 4
  let bs := reportHead status iters refines 0xFFFFFFFF (w 0) (w 1) (w 2) (w 3) k.source
    ++ (List.range n).flatMap fun i => leBytes 4 (w (4 + i))
  s.writeReport t k status iters missing bs

/-! ### SMOOTH (06 R230 to R232) -/

/-- SMOOTH: Bear receives the tenant's oldest request, refuses it with nothing changed, or queues its slots, slot `s` to
unit u_(s mod U); with no usable unit they report UNIT_FENCED (06 R263). -/
def State.receiveSmooth (s : State) (t : Fin 16) : State :=
  match (s.tenant t).solver.issued with
  | [] => s
  | (task, b) :: rest =>
    if s.held || s.halted then s
    else
      let took := s.updSolver t fun v => { v with issued := rest }
      if s.smoothShort t b then took.finishTask t task codeLength
      else if s.smoothBad t b then took.finishTask t task codeBad
      else
        let us := s.usableOf t .bear
        let slots : List BearSlot := (List.range (smCount b)).map fun i =>
          let k := smStart b + i
          { slot := k, source := u32At b (32 + 4 * i), report := u64At b 8 + i * s.reportSize t, task := task,
            unit := ⟨lget 0 us (k % max 1 us.length) % 2, Nat.mod_lt _ (by decide)⟩, st := .queued }
        let s := took.updSolver t fun v => { v with slots := v.slots ++ slots }
        if us = [] then s.forEach slots fun s k => s.emptyReport t k codeFenced 0 0 false else s

/-- SMOOTH -/
def execSmooth (t : Fin 16) (s : State) : Host.Outcome State Fault Refusal := done (s.receiveSmooth t)

/-! ### Vectors and sparse rows -/

/-- Patterns of a solve as numbers. -/
def vals (l : List (BitVec 64)) : List Nat := l.map BitVec.toNat
/-- Numbers as patterns of a solve. -/
def pats (l : List Nat) : List (BitVec 64) := l.map (BitVec.ofNat 64)

/-- A chain of fused multiply-adds from a start value (06 R246). -/
def chain (f : Fmt) (acc : Nat) (l : List (Nat × Nat)) : Nat := l.foldl (fun a p => fpFma f p.1 p.2 a) acc
/-- A sum of products, from the first term (06 R246). -/
def sumOf (f : Fmt) : List (Nat × Nat) → Nat
  | [] => 0
  | p :: r => chain f (fpMul f p.1 p.2) r

/-- The largest magnitude of a list; a NaN anywhere gives the NaN. -/
def normInf (f : Fmt) (l : List Nat) : Nat :=
  l.foldl (fun a x => if fpIsNan f a || fpIsNan f x then f.nanPat else if fpLt f a (fpAbs f x) then fpAbs f x else a) 0

/-- A sparse row: column and coefficient, ascending. -/
abbrev Row := List (Nat × Nat)

/-- One in a format. -/
def fpOne (f : Fmt) : Nat := fpOfInt f 1

/-- The equality rows (06 R241). -/
def equalityRows (f : Fmt) (n : Nat) (h : Nat) (vref : List Nat) : List Row :=
  let one := fpOne f
  let neg := fpNeg f one
  (List.range 5).map (fun i => [(i, one)]) ++ (List.range n).flatMap fun k =>
    let hv := fpNeg f (fpMul f h (lget 0 vref k))
    let x := 7 * k
    [[(x, neg), (x + 1, hv), (x + 7, one)], [(x + 1, neg), (x + 4, hv), (x + 8, one)],
     [(x + 2, neg), (x + 3, fpNeg f h), (x + 9, one)], [(x + 3, neg), (x + 5, fpNeg f h), (x + 10, one)],
     [(x + 4, neg), (x + 6, fpNeg f h), (x + 11, one)]]

/-- The right-hand sides (06 R241). -/
def equalityRhs (f : Fmt) (n : Nat) (h : Nat) (vref kref init : List Nat) : List Nat :=
  init ++ (List.range n).flatMap fun k =>
    [0, fpNeg f (fpMul f (fpMul f h (lget 0 vref k)) (lget 0 kref k)), 0, 0, 0]

/-- Columns of the rows: row and coefficient, ascending. -/
def columnsOf (rows : List Row) (n : Nat) : Array Row :=
  let numbered := (List.range rows.length).zip rows
  let a := numbered.foldl (fun (a : Array Row) r => r.2.foldl (fun a p => a.modify p.1 ((r.1, p.2) :: ·)) a) (Array.replicate n [])
  a.map List.reverse

/-! ### The Cholesky factor (06 R249) -/

/-- The coefficient of a row at a column. -/
def rowAt (r : Row) (c : Nat) : Option Nat := (r.find? fun p => p.1 = c).map (·.2)

/-- Products of two rows at their common columns below a bound, ascending. -/
def common (a b : Row) (hi : Nat) : List (Nat × Nat) :=
  a.filterMap fun p => if p.1 < hi then (rowAt b p.1).map fun y => (p.2, y) else none

/-- An entry of M = A diag(w) Aᵀ; none where it is structurally zero. -/
def normalEntry (f : Fmt) (w : Array Nat) (a b : Row) : Option Nat :=
  let l := a.filterMap fun p => (rowAt b p.1).map fun y => (fpMul f p.2 (w.getD p.1 0), y)
  if l = [] then none else some (chain f 0 l)

/-- The lower half of M by rows, within the band of nine. -/
def normalRows (f : Fmt) (w : Array Nat) (rows : Array Row) : Array Row :=
  (Array.range rows.size).map fun r =>
    (List.range (min r 9 + 1)).filterMap fun j =>
      let c := r - min r 9 + j
      (normalEntry f w (rows.getD r []) (rows.getD c [])).map fun v => (c, v)

/-- One row of L from the rows before it; none where its pivot is not above 0 and finite. -/
def cholRow (f : Fmt) (l : Array Row) (m : Row) (r : Nat) : Option Row :=
  let lo := r - min r 9
  let off : Row := (List.range (r - lo)).foldl (fun (row : Row) (j : Nat) =>
    let c := lo + j
    let lc := l.getD c []
    let prods := (common row lc c).map fun p => (fpNeg f p.1, p.2)
    let diag := (rowAt lc c).getD 0
    match rowAt m c with
    | some v => row ++ [(c, fpDiv f (chain f v prods) diag)]
    | none => if prods = [] then row else row ++ [(c, fpDiv f (sumOf f prods) diag)]) []
  let d := chain f ((rowAt m r).getD 0) (off.map fun p => (fpNeg f p.2, p.2))
  if fpLt f 0 d && fpIsFinite f d then some (off ++ [(r, fpSqrt f d)]) else none

/-- The factor of M; none where a pivot fails (06 R251). -/
def cholesky (f : Fmt) (m : Array Row) : Option (Array Row) :=
  m.foldl (fun a row => match a with
    | some l => (cholRow f l row l.size).map l.push
    | none => none) (some #[])

/-- The solution of L Lᵀ x = rhs by forward and backward substitution. -/
def cholSolve (f : Fmt) (l : Array Row) (cols : Array Row) (rhs : List Nat) : List Nat :=
  let y := ((List.range rhs.length).zip rhs).foldl (fun (y : Array Nat) p =>
    let row := l.getD p.1 []
    let acc := chain f p.2 ((row.filter fun q => q.1 < p.1).map fun q => (fpNeg f q.2, y.getD q.1 0))
    y.push (fpDiv f acc ((rowAt row p.1).getD 0))) #[]
  let x := (List.range rhs.length).reverse.foldl (fun (x : Array Nat) i =>
    let acc := chain f (y.getD i 0) (((cols.getD i []).filter fun q => i < q.1).map fun q => (fpNeg f q.2, x.getD q.1 0))
    x.set! i (fpDiv f acc ((rowAt (l.getD i []) i).getD 0))) (Array.replicate rhs.length 0)
  x.toList

/-- The residual rhs − M x in binary64 from binary32 values, M by its lower half (06 R250). -/
def residual64 (m mcols : Array Row) (rhs x : List Nat) : List Nat :=
  let xs := x.toArray
  ((List.range rhs.length).zip rhs).map fun p =>
    let full := m.getD p.1 [] ++ (mcols.getD p.1 []).filter fun q => p.1 < q.1
    chain fp64 (fpConv fp32 fp64 p.2) (full.map fun q => (fpNeg fp64 (fpConv fp32 fp64 q.2), fpConv fp32 fp64 (xs.getD q.1 0)))

/-- Refinement (06 R250): steps until the residual is small or `fuel` steps have been taken; the solution and the steps. -/
def refineGo (l lcols m mcols : Array Row) (rhs : List Nat) : Nat → Nat → List Nat → List Nat × Nat
  | 0, k, x => (x, k)
  | fuel + 1, k, x =>
    let rho := residual64 m mcols rhs x
    let tol := fpMul fp64 (fpOfRatio fp64 1 (2 ^ 24)) (normInf fp64 (rhs.map (fpConv fp32 fp64)))
    if fpLe fp64 (normInf fp64 rho) tol then (x, k)
    else
      let d := cholSolve fp32 l lcols (rho.map (fpConv fp64 fp32))
      let x' := (x.zip d).map fun p => fpConv fp64 fp32 (fpAdd fp64 (fpConv fp32 fp64 p.1) (fpConv fp32 fp64 p.2))
      refineGo l lcols m mcols rhs fuel (k + 1) x'

/-! ### A solve's data -/

/-- Working format. -/
def Solve.fmt (v : Solve) : Fmt := if v.fp64 then Sys2Proof.Machine.fp64 else Sys2Proof.Machine.fp32
/-- Stages N. -/
def Solve.stages (v : Solve) : Nat := 11 * v.sub
/-- Equality rows. -/
def Solve.rows (v : Solve) : List Row := equalityRows v.fmt v.stages v.h.toNat (vals v.vref)
/-- Right-hand sides. -/
def Solve.rhs (v : Solve) : List Nat := equalityRhs v.fmt v.stages v.h.toNat (vals v.vref) (vals v.kref) (vals v.init)
/-- sl = z − lo and su = hi − z of variable `i`; none where it has no bound. -/
def Solve.slack (v : Solve) (i z : Nat) : Option (Nat × Nat) :=
  match lget none v.lo i, lget none v.hi i with
  | some l, some u => some (fpSub v.fmt z l.toNat, fpSub v.fmt u.toNat z)
  | _, _ => none

/-- Slacks of every variable. -/
def Solve.slacks (v : Solve) : List (Option (Nat × Nat)) :=
  (v.lo.zip (v.hi.zip v.z)).map fun p => match p.1, p.2.1 with
    | some l, some u => some (fpSub v.fmt p.2.2.toNat l.toNat, fpSub v.fmt u.toNat p.2.2.toNat)
    | _, _ => none

/-- Multipliers and slacks of every variable. -/
def Solve.bounds (v : Solve) : List (Option (Nat × Nat) × Nat × Nat) := v.slacks.zip ((vals v.lamL).zip (vals v.lamU))

/-- mu (06 R249): over the bounds in ascending index, the lower before the upper. -/
def Solve.mu (v : Solve) : Nat :=
  let terms := v.bounds.flatMap fun b => match b.1 with
    | some (sl, su) => [(sl, b.2.1), (su, b.2.2)]
    | none => []
  fpDiv v.fmt (sumOf v.fmt terms) (fpOfInt v.fmt (12 * v.stages : Nat))

/-- rp = A z − b (06 R249). -/
def Solve.rp (v : Solve) : List Nat :=
  let z := (vals v.z).toArray
  (v.rows.zip v.rhs).map fun p => fpSub v.fmt (sumOf v.fmt (p.1.map fun q => (q.2, z.getD q.1 0))) p.2

/-- rd = g + H z − Aᵀ y (06 R249). -/
def Solve.rd (v : Solve) : List Nat :=
  let f := v.fmt
  let y := (vals v.y).toArray
  let cols := columnsOf v.rows v.z.length
  (cols.toList.zip ((vals v.g).zip ((vals v.hdiag).zip (vals v.z)))).map fun p =>
    chain f (fpFma f p.2.2.1 p.2.2.2 p.2.1) (p.1.map fun q => (fpNeg f q.2, y.getD q.1 0))

/-- The largest step that keeps a value above 0 along a change, and every NaN (06 R249, R251). -/
def stepLimit (f : Fmt) (best x dx : Nat) : Nat :=
  if fpIsNan f best || fpIsNan f dx || fpIsNan f x then f.nanPat
  else if fpLt f dx 0 then (let a := fpDiv f x (fpNeg f dx); if fpIsNan f a then f.nanPat else if fpLt f a best then a else best)
  else best

/-- One iteration of 06 R249 with its refinement; the problem is ill-posed by a D, a pivot or alpha (06 R251), in the last case after the
refinement steps, which count (06 R253). -/
def Solve.iterate (v : Solve) : Solve :=
  let f := v.fmt
  let rows := v.rows
  let n := v.z.length
  let cols := columnsOf rows n
  let rp := v.rp
  let rd := v.rd
  let sm := fpMul f (fpOfRatio f 1 8) v.mu
  let one := fpOne f
  let bs := v.bounds
  let q := (rd.zip bs).map fun p => match p.2.1 with
    | some (sl, su) => fpFma f (fpNeg f sm) (fpDiv f one su) (fpFma f sm (fpDiv f one sl) (fpNeg f p.1))
    | none => fpNeg f p.1
  let d := ((vals v.hdiag).zip bs).map fun p => match p.2.1 with
    | some (sl, su) => fpAdd f (fpAdd f p.1 (fpDiv f p.2.2.1 sl)) (fpDiv f p.2.2.2 su)
    | none => p.1
  if d.any fun x => ! (fpLt f 0 x && fpIsFinite f x) then { v with illPosed := true }
  else
    let w := (d.map fun x => fpDiv f one x).toArray
    let wq := ((w.toList.zip q).map fun p => fpMul f p.1 p.2).toArray
    let m := normalRows f w rows.toArray
    match cholesky f m with
    | none => { v with illPosed := true }
    | some l =>
      let lcols := columnsOf l.toList rows.length
      let mcols := columnsOf m.toList rows.length
      let rhs := (rp.zip rows).map fun p => chain f (fpNeg f p.1) (p.2.map fun c => (fpNeg f c.2, wq.getD c.1 0))
      let x := cholSolve f l lcols rhs
      let r := if v.fp64 then (x, 0) else refineGo l lcols m mcols rhs v.refineMax 0 x
      let dy := r.1.toArray
      let dz := ((List.range n).zip (q.zip w.toList)).map fun p =>
        fpMul f (chain f p.2.1 ((cols.getD p.1 []).map fun c => (c.2, dy.getD c.1 0))) p.2.2
      let dl := (bs.zip dz).map fun p => match p.1.1 with
        | some (sl, _) => fpFma f (fpNeg f (fpDiv f p.1.2.1 sl)) p.2 (fpSub f (fpDiv f sm sl) p.1.2.1)
        | none => 0
      let du := (bs.zip dz).map fun p => match p.1.1 with
        | some (_, su) => fpFma f (fpDiv f p.1.2.2 su) p.2 (fpSub f (fpDiv f sm su) p.1.2.2)
        | none => 0
      let lim := (bs.zip (dz.zip (dl.zip du))).foldl (fun a p => match p.1.1 with
        | some (sl, su) =>
          stepLimit f (stepLimit f (stepLimit f (stepLimit f a sl p.2.1) su (fpNeg f p.2.1)) p.1.2.1 p.2.2.1) p.1.2.2 p.2.2.2
        | none => a) f.infPat
      let alpha := if fpIsNan f lim then f.nanPat
        else let a := fpMul f (fpOfRatio f 63 64) lim; if fpLt f a one then a else one
      if fpIsNan f alpha then { v with illPosed := true, refines := v.refines + r.2 }
      else
        let go (x dx : List Nat) := pats ((x.zip dx).map fun p => fpFma f alpha p.2 p.1)
        { v with
          z := go (vals v.z) dz
          y := go (vals v.y) r.1
          lamL := go (vals v.lamL) dl
          lamU := go (vals v.lamU) du
          done := v.done + 1
          refines := v.refines + r.2
          alphas := v.alphas ++ [BitVec.ofNat 64 alpha] }

/-- The objective of the report (06 R253). -/
def Solve.objective (v : Solve) : Nat :=
  let f := v.fmt
  ((vals v.hdiag).zip ((vals v.g).zip (vals v.z))).foldl (fun acc p =>
    fpFma f (fpFma f (fpMul f (fpOfRatio f 1 2) p.1) p.2.2 p.2.1) p.2.2 acc) 0

/-! ### SOLVE_START (06 R232, R233, R239 to R244, R248, R251) -/

/-- The motion with its time in 1/`q` µs: its speeds come out `q` times as large. -/
def Motion.scaled (m : Motion) (q : Nat) : Motion :=
  let k : Int := q
  { m with
    segs := m.segs.map fun g => { g with t0 := g.t0 * k, t1 := g.t1 * k, n0 := g.n0 * k }
    tEnd := m.tEnd * k
    endN := m.endN * k }

/-- Curvature of a motion at a time, in 1/1,024 m⁻¹. -/
def Motion.kappaAt (m : Motion) (t : Int) : Int × Nat :=
  match m.segAt t with
  | some g => frac (g.k0 * g.len + (g.k1 - g.k0) * (t - g.t0)) g.len.toNat
  | none => (m.kEnd, 1)

/-- A fraction over a divisor, rounded once. -/
def siRound (f : Fmt) (x : Int × Nat) (d : Nat) : Nat := fpOfRatio f x.1 (x.2 * d)

/-- A value clamped into [lo + δ, hi − δ] with δ = (hi − lo)/16 (06 R248). -/
def clampIn (f : Fmt) (lo hi x : Nat) : Nat :=
  let d := fpDiv f (fpSub f hi lo) (fpOfInt f 16)
  let a := fpAdd f lo d
  let b := fpSub f hi d
  if fpLt f x a then a else if fpLt f b x then b else x

/-- Lateral offset and heading difference of a measured pose from a start pose, rounded once from a fixed-point
evaluation (06 R244). DESIGN CHOICE; log 45. -/
def poseError (f : Fmt) (c : Cand) (m : Measure) (cellCm : Nat) : Nat × Nat :=
  let a := c.heading.toNat * fx / 65536
  let dx := m.x.toInt - c.x.toInt
  let dy := m.y.toInt - c.y.toInt
  let d := (dy * cosTurn a - dx * sinTurn a) * (cellCm : Int)
  let turn := (m.heading.toNat + 65536 - c.heading.toNat) % 65536
  let signed : Int := if turn ≤ 32768 then turn else turn - 65536
  (fpOfRatio f d (fx.toNat * 1600), fpOfRatio f (signed * twoPi) (fx.toNat * 65536))

/-- A field of the model block in the working format (06 R235). -/
def Model.field (m : Model) (f : Fmt) (i : Nat) : Nat := fpConv fp32 f (bget 0 m.fields i).toNat

/-- The problem of a source (06 R239 to R244), before its first iteration. -/
def State.assemble (s : State) (t : Fin 16) (k : BearSlot) (c : Cand) : Solve :=
  let cfg := s.solverCfg t
  let wide := bit cfg 0
  let f := if wide then fp64 else fp32
  let sub := bits cfg 3 1
  let n := 11 * sub
  let dt := bits (s.live 0x07 (perTenant t 0x14)) 9 0
  let sr := (s.tenant t).search
  let lim := sr.limits
  let md := (s.tenant t).solver.model
  let prims := match sr.image with | some i => i.prims | none => []
  let m := (c.motion prims lim.decelComfort.toNat).scaled sub
  let at' (i : Nat) : Int := ((i * dt * 1000 : Nat) : Int)
  let ix := List.range (n + 1)
  let vref := ix.map fun i => siRound f (m.speedAt (at' i)) (1000 * sub)
  let kref := ix.map fun i => siRound f (m.kappaAt (at' i)) 1024
  let aref := ix.map fun i => siRound f (m.accAt (at' i)) 1000
  let h := fpOfRatio f (dt : Int) (1000 * sub)
  let useMeas := bit cfg 13
  let meas := if useMeas then (s.tenant t).solver.meas else none
  let init := match meas with
    | some (_, b) =>
      let e := poseError f c b s.cellCm
      [e.1, e.2, fpOfRatio f b.speed.toNat 1000, fpOfRatio f b.accel.toInt 1000, fpOfRatio f b.kappa.toInt 1024]
    | none => [0, 0, lget 0 vref 0, lget 0 aref 0, lget 0 kref 0]
  let w (i : Nat) := md.field f i
  let vMax := fpOfRatio f lim.vMax.toNat 1000
  let aHi := fpOfRatio f lim.accelLong.toNat 1000
  let aLo := fpNeg f (fpOfRatio f lim.decelComfort.toNat 1000)
  let jerk := fpOfRatio f lim.jerk.toNat 1000
  let kap := fpOfRatio f (lim.kappaOf c.mode.toNat) 1024
  let lat := fpOfRatio f lim.accelLat.toNat 1000
  let dMax := w 8
  let sig := w 9
  let kb (i : Nat) :=
    let v := lget 0 vref i
    let x := fpDiv f lat (fpMul f v v)
    if ! fpEq f v 0 && fpLt f x kap then x else kap
  let sym (x : Nat) : Option (Nat × Nat) := some (fpNeg f x, x)
  let stateB (i : Nat) : List (Option (Nat × Nat)) :=
    if i = 0 then List.replicate 5 none else [sym dMax, none, some (0, vMax), some (aLo, aHi), sym (kb i)]
  let ctl : List (Option (Nat × Nat)) := [sym jerk, sym sig]
  let bounds := ix.flatMap fun i => stateB i ++ (if i < n then ctl else [])
  let hd := ix.flatMap fun i => [w 0, w 1, w 2, w 3, w 4] ++ (if i < n then [w 5, w 6] else [])
  let g := ix.flatMap fun i =>
    [0, 0, fpMul f (fpNeg f (w 2)) (lget 0 vref i), 0, fpMul f (fpNeg f (w 4)) (lget 0 kref i)] ++ (if i < n then [0, 0] else [])
  let z0 := ix.flatMap fun i =>
    (if i = 0 then init else [0, 0, lget 0 vref i, lget 0 aref i, lget 0 kref i]) ++ (if i < n then [0, 0] else [])
  let z := (z0.zip bounds).map fun p => match p.2 with | some (l, u) => clampIn f l u p.1 | none => p.1
  let out (x : Nat) (l u : Nat) : Bool := fpLt f x l || fpLt f u x
  let ill := out (lget 0 init 2) 0 vMax || out (lget 0 init 3) aLo aHi || out (lget 0 init 4) (fpNeg f (kb 1)) (kb 1)
    || (useMeas && out (lget 0 init 0) (fpNeg f dMax) dMax)
  { tenant := t, slot := k.slot, source := k.source, report := k.report, fp64 := wide, sub := sub, iters := bits cfg 9 4,
    refineMax := bits cfg 12 10, h := BitVec.ofNat 64 h, vref := pats vref, kref := pats kref, init := pats init,
    startX := match meas with | some (_, b) => b.x | none => c.x
    startY := match meas with | some (_, b) => b.y | none => c.y
    startHeading := match meas with | some (_, b) => b.heading | none => c.heading
    startSpeed := match meas with | some (_, b) => b.speed | none => c.speed
    lo := bounds.map fun b => b.map fun p => BitVec.ofNat 64 p.1
    hi := bounds.map fun b => b.map fun p => BitVec.ofNat 64 p.2
    hdiag := pats hd, g := pats g, z := pats z, y := pats (List.replicate (5 * (n + 1)) 0)
    lamL := pats (List.replicate z.length (fpOne f)), lamU := pats (List.replicate z.length (fpOne f))
    done := 0, refines := 0, alphas := [], illPosed := ill, measUsed := meas.isSome, measMissing := useMeas && meas.isNone,
    stop := false }

/-- A Bear unit. -/
def State.bear (s : State) (u : Nat) : BearUnit := bget ⟨View.reset, none⟩ s.bears u

/-- The slot a unit solves next: the lowest queued to it, tenants ascending on a tie (06 R232). -/
def State.nextSlot (s : State) (u : Nat) : Option (Fin 16 × BearSlot) :=
  ((allFin 16).flatMap fun t => ((s.tenant t).solver.slots.filter fun k => k.st = .queued && k.unit.val = u).map fun k => (t, k)).foldl
    (fun b x => match b with | none => some x | some y => if x.2.slot < y.2.slot then some x else some y) none

/-- Core cycles of Bear for a tenant (06 R255). -/
def State.bearCycles (s : State) (t : Fin 16) (n : Nat) : State := s.updSolver t fun v => { v with cycles := v.cycles + n }

/-- A candidate that a unit has written waits for room in its checker queue: the unit stalls (05 R214). -/
def State.bearStalled (s : State) (u : Nat) : Bool :=
  s.tenants.toList.any fun n => n.solver.slots.any fun k => k.unit.val = u && k.st = .finished && n.table.stalled.contains (64 + k.slot)

/-- SOLVE_START (06 R232, R233, R248, R251): the unit's next slot is assembled, or skipped with BAD_DESCRIPTOR. -/
def State.startSolve (s : State) (u : Nat) : State :=
  let b := s.bear u
  if s.held || s.halted || s.frame.opening || ! s.frame.inFrame || s.phasePassed 5 || ! b.view.serves || b.solve.isSome
      || s.bearStalled u then s
  else
    match s.nextSlot u with
    | none => s
    | some (t, k) =>
      let n := s.tenant t
      match n.table.cand k.source with
      | none => s.emptyReport t k codeBad 0 0 false
      | some c =>
        if ! n.table.isClear (s.candBase t) k.source || s.candQuota t ≤ k.source || c.kind = 2 || c.mode = 3 then
          s.emptyReport t k codeBad 0 0 false
        else if s.candPoisoned t k.source then s.programFault t codeMemoryUe
        else
          let v := s.assemble t k c
          let s := s.updBear u fun b => { b with solve := some v }
          let s := s.updSolver t fun x =>
            { x with slots := x.slots.map fun y => if y.slot = k.slot then { y with st := .running } else y }
          s.bearCycles t (1000 + 16 * v.z.length)

/-- SOLVE_START -/
def execSolveStart (u : Fin 2) (s : State) : Host.Outcome State Fault Refusal := done (s.startSolve u.val)

/-! ### SOLVE_ITERATION and SOLVE_END (06 R249 to R256) -/

/-- The slot of a running solve. -/
def State.slotOfSolve (s : State) (v : Solve) : Option BearSlot :=
  (s.tenant v.tenant).solver.slots.find? fun k => k.slot = v.slot && k.st = .running

/-- A running solve cut at its deadline: PHASE_CUT with the iterations it completed, and no candidate (06 R256). -/
def State.cutSolve (s : State) (u : Nat) (v : Solve) : State :=
  let s := (s.updBear u fun b => { b with solve := none }).bearCycles v.tenant 500
  match s.slotOfSolve v with
  | some k => s.emptyReport v.tenant k codePhaseCut v.done v.refines v.measMissing
  | none => s

/-- SOLVE_ITERATION (06 R249, R250, R255, R256). -/
def State.iterateSolve (s : State) (u : Nat) : State :=
  match (s.bear u).solve with
  | none => s
  | some v =>
    if s.held || s.halted || v.illPosed || v.iters ≤ v.done then s
    else
      let n := v.z.length
      let m := 17 * v.stages + 5
      let v' := v.iterate
      let cost := if v.fp64 then 400 + 12 * n + 4 * m else 400 + 6 * n + 2 * m + (v'.refines - v.refines) * (100 + n)
      let s := (s.updBear u fun b => { b with solve := some v' }).bearCycles v.tenant cost
      if v.stop && ! v'.illPosed then s.cutSolve u v' else s

/-- SOLVE_ITERATION -/
def execSolveIteration (u : Fin 2) (s : State) : Host.Outcome State Fault Refusal := done (s.iterateSolve u.val)

/-- The final iterate is ill-posed: rp above EPS_P, and no recent step of 2^(−10) (06 R251, third condition). -/
def Solve.stuck (v : Solve) (epsP : Nat) : Bool :=
  let f := v.fmt
  let last := (vals v.alphas).drop (v.alphas.length - min 8 v.iters)
  fpLt f epsP (normInf f v.rp) && last.all fun a => fpLt f a (fpOfRatio f 1 1024)

/-- A value of the working format as a signed 16-bit field, and whether it saturated (06 R254, 04 R174). -/
def fieldIn (f : Fmt) (x scale : Nat) : BitVec 16 × Bool :=
  match fpRatio f x with
  | some (n, d) => let r := rne (n * (scale : Int)) d; (BitVec.ofInt 16 (satI16 r), decide (satI16 r ≠ r))
  | none => (0, true)

/-- The smoothed candidate of a converged solve (06 R254). -/
def State.smoothedCand (s : State) (v : Solve) (c : Cand) (obj32 : Nat) : Cand :=
  let f := v.fmt
  let z := (vals v.z).toArray
  let dt := bits (s.live 0x07 (perTenant v.tenant 0x14)) 9 0
  let pts := (List.range 12).flatMap fun i =>
    let x := 7 * i * v.sub
    [fieldIn f (z.getD (x + 4) 0) 1024, fieldIn f (z.getD (x + 3) 0) 1000]
  let clip := pts.any (·.2)
  let wObj := (bget 0 (s.tenant v.tenant).solver.model.fields 7).toNat
  { s.stampCand v.tenant { Cand.blank with id := 64 + v.slot } with
    origin := c.origin, smoothed := true, clipped := clip, parent := BitVec.ofNat 32 v.source
    cost := BitVec.ofNat 32 (ffma wObj obj32 c.cost.toNat), x := v.startX, y := v.startY, heading := v.startHeading
    speed := v.startSpeed, mode := c.mode, kind := 1, count := 12, status := if clip then codeClipped else codeOk
    param := BitVec.ofNat 16 dt, geom := pts.map (·.1), companion := c.companion
    durationMs := BitVec.ofNat 32 (11 * dt) }

/-- The words of a vector. -/
def vectorBytes (wide : Bool) (l : List Nat) : List Byte := l.flatMap (leBytes (if wide then 8 else 4))

/-- SOLVE_END (06 R251 to R256): an ill-posed, unconverged or converged solve writes its report, and a converged one its
candidate; a solve stopped within its assembly reports PHASE_CUT. -/
def State.endSolve (s : State) (u : Nat) : State :=
  match (s.bear u).solve with
  | none => s
  | some v =>
    let t := v.tenant
    if s.held || s.halted then s
    else if v.stop && ! v.illPosed then s.cutSolve u v
    else if ! v.illPosed && v.done < v.iters then s
    else
      let f := v.fmt
      let md := (s.tenant t).solver.model
      let n := v.z.length
      match s.slotOfSolve v with
      | none => s.updBear u fun b => { b with solve := none }
      | some k =>
        let s := (s.updBear u fun b => { b with solve := none }).bearCycles t 500
        if v.illPosed || v.stuck (md.field f 10) then
          let w := s.openField t v.source codeIllPosed
          let bs := reportHead codeIllPosed v.done v.refines 0xFFFFFFFF (w 0) (w 1) (w 2) (w 3) v.source
            ++ vectorBytes v.fp64 (List.replicate n f.nanPat)
          s.writeReport t k codeIllPosed v.done v.measMissing bs
        else
          let rp := normInf f v.rp
          let rd := normInf f v.rd
          let mu := v.mu
          let obj := fpConv f fp32 v.objective
          let ok := fpLe f rp (md.field f 10) && fpLe f rd (md.field f 11) && fpLe f mu (md.field f 12)
          let st := if ok then codeOk else codeNotConverged
          let cand := if ok then 64 + v.slot else 0xFFFFFFFF
          let bs := reportHead st v.done v.refines cand obj (fpConv f fp32 rp) (fpConv f fp32 rd) (fpConv f fp32 mu) v.source
            ++ vectorBytes v.fp64 (vals v.z)
          let s := match ok, (s.tenant t).table.cand v.source with
            | true, some c => s.putCandBy (68 + u) t (s.smoothedCand v c obj)
            | _, _ => s
          s.writeReport t k st v.done v.measMissing bs

/-- SOLVE_END -/
def execSolveEnd (u : Fin 2) (s : State) : Host.Outcome State Fault Refusal := done (s.endSolve u.val)

/-! ### Cuts and losses (06 R256, R263) -/

/-- Slots of a tenant that meet `p` and have not started report PHASE_CUT (06 R256). -/
def State.cutSlots (s : State) (t : Fin 16) (p : BearSlot → Bool) : State :=
  s.forEach ((s.tenant t).solver.slots.filter fun k => k.st = .queued && p k) fun s k => s.emptyReport t k codePhaseCut 0 0 false

/-- Deadline D_k for Bear: at D_5 every slot, at another deadline those of the phase's tasks, is cut where it has not
started; a running solve stops at its next boundary (06 R256, 10 R384). -/
def State.cutSolves (s : State) (k : Nat) : State :=
  s.forTenants fun s t =>
    let hit (i : Nat) : Bool := k = 5 || trPhase ((s.tenant t).sched.rec' i) = k
    let s := s.forEach ((s.tenant t).solver.issued.filter fun q => k = 5 || hit q.1) fun s q =>
      if k = 5 then s.receiveSmooth t
      else ((s.noteCut t k q.1).updSolver t fun v => { v with issued := v.issued.filter fun x => x.1 ≠ q.1 }).finishTask t q.1 codePhaseCut
    let queued := (s.tenant t).solver.slots.filter fun x => x.st = .queued && hit x.task
    let running (b : BearUnit) : Bool := match b.solve with
      | some v => v.tenant = t && ! v.illPosed && decide (v.done < v.iters)
          && (match s.slotOfSolve v with | some x => hit x.task | none => false)
      | none => false
    let solving := (s.bears.toList.filter running).filterMap fun b => (b.solve.bind s.slotOfSolve).map (·.task)
    let s := s.forEach ((queued.map (·.task) ++ solving).foldl sinsert []) fun s i => s.noteCut t k i
    let stopIt (b : BearUnit) : BearUnit :=
      if running b then { b with solve := b.solve.map fun v => { v with stop := true } } else b
    let s : State := { s with bears := s.bears.map stopIt }
    s.cutSlots t fun x => hit x.task

/-- A Bear unit has left UP: its slots go to the tenant's next usable unit, a running one from assembly, or report
UNIT_FENCED (06 R263). A solve that D_5 has already stopped starts no more, and reports PHASE_CUT (06 R256). -/
def State.bearLost (s : State) (u : Nat) : State :=
  let stopped : Option (Fin 16 × Nat) := match (s.bear u).solve with
    | some v => if v.stop then some (v.tenant, v.slot) else none
    | none => none
  let s := s.updBear u fun b => { b with solve := none }
  s.forTenants fun s t =>
    s.forEach ((s.tenant t).solver.slots.filter fun k => k.unit.val = u && k.st ≠ .finished) fun s k =>
      match s.nextUnit t .bear u with
      | some v => if stopped = some (t, k.slot) then s.emptyReport t k codePhaseCut 0 0 false else s.updSolver t fun x =>
          { x with slots := x.slots.map fun y =>
              if y.slot = k.slot then { y with st := .queued, unit := ⟨v % 2, Nat.mod_lt _ (by decide)⟩ } else y }
      | none => s.emptyReport t k codeFenced 0 0 false

/-- The frame's solver registers, latched at D_5 (06 R257). -/
def State.latchSolver (s : State) (t : Fin 16) : State :=
  let v := (s.tenant t).solver
  let m (n : Nat) := min 255 n
  let s := s.setLive 0x0A (perTenant t 0x08) (m v.solved + m v.notConverged * 2 ^ 8 + m v.illPosed * 2 ^ 16 + m v.other * 2 ^ 24)
  s.setLive 0x0A (perTenant t 0x10) (min 0xFFFFFF v.cycles)

end Sys2Proof.Machine
end

