-- ==== Sys2Proof/Machine/RegRead.lean ====
section
/-! DEFINITION. Reading BAR0 (12): which pages a port reaches, quiescence, the value every register reads as, holding
copies, and registers that a read clears. -/
namespace Sys2Proof.Machine
open Sys2Proof

/-! ### Reach (12 R477; 13 R492, R493) -/

/-- Pages present in RECOVERY (17 R651). -/
def recoveryPages : List Nat := [0x00, 0x01, 0x02, 0x0E, 0x0F, 0x10, 0x170, 0x171, 0x172, 0x173]

/-- The page is in the map and the part has what it belongs to (12 R477; 02 R68, R69; 17 R651). -/
def State.pagePresent (s : State) (page : Nat) : Bool :=
  (! s.inRecovery || recoveryPages.contains page) && match pageBase page with
  | none => false
  | some 0x100 => page - 0x100 < s.chip.nCores
  | some 0x160 => page - 0x160 < s.chip.nLinks
  | some 0x170 => page - 0x170 < s.chip.nSites
  | some _ => true

/-- The tenant whose queue page it is. -/
def queueTenant (page : Nat) : Option (Fin 16 × Fin 8) :=
  if h : 0x40 ≤ page ∧ page < 0xC0 then some (⟨(page - 0x40) / 8, by omega⟩, ⟨(page - 0x40) % 8, by omega⟩) else none
/-- The tenant whose tenant page it is. -/
def pageTenant (page : Nat) : Option (Fin 16) := if h : 0x20 ≤ page ∧ page < 0x30 then some ⟨page - 0x20, by omega⟩ else none

/-- A port may read a page: every present page but the queue pages of another port's tenants (13 R492). -/
def State.mayRead (s : State) (p : Port) (page : Nat) : Bool :=
  s.pagePresent page && (match queueTenant page with | some (t, _) => s.ownerOf t = p | none => true)

/-- The tenant a register belongs to: its page's, or its block's on pages 0x004 to 0x00C. -/
def regTenant (page : Nat) (r : Reg) (i : Nat) : Option (Fin 16) :=
  match queueTenant page with
  | some (t, _) => some t
  | none =>
    match pageTenant page with
    | some t => some t
    | none => if h : r.count = 16 ∧ i < 16 then some ⟨i, h.2⟩ else none

/-- A writer may write a register, its access types apart (13 R492): Owl firmware has full reach (16 R627). Per-port registers
are each port's own. -/
def State.mayWrite (s : State) (w : Writer) (page : Nat) (r : Reg) (i : Nat) : Bool :=
  match w with
  | .owl => r.writer ≠ .port
  | .port p =>
    match r.writer with
    | .ctl => s.ctrlPort = p
    | .own => match regTenant page r i with | some t => s.ownerOf t = p | none => s.ctrlPort = p
    | .port => true
    | .both => true

/-- A header register other than those both ports write may be written by a writer (13 R492, R493). -/
def State.mayWriteHeader (s : State) (w : Writer) (page : Nat) : Bool :=
  match w with
  | .owl => true
  | .port p =>
    match queueTenant page with
    | some (t, _) => s.ownerOf t = p
    | none => match pageTenant page with | some _ => true | none => s.ctrlPort = p

/-- The port can reach BAR0 at all: the device is out of reset and the port is ready (11 R413; 17 R646). -/
def State.portUp (s : State) (p : Port) : Bool := ! s.held && (s.cfg p).ready

/-- A writer can act: Owl whenever the device is out of reset, a port when it is ready. -/
def State.writerUp (s : State) : Writer → Bool
  | .owl => ! s.held
  | .port p => s.portUp p

/-- A writer reaches the registers of the control port. -/
def State.isCtl (s : State) : Writer → Bool
  | .owl => ! s.held
  | .port p => s.portUp p && s.ctrlPort = p

/-- A writer reaches the control port's registers of a page. -/
def State.ctlReaches (s : State) (w : Writer) (page : Nat) : Bool := s.isCtl w && s.pagePresent page

/-- A write that the table does not allow a port: ERR_COUNT of the page increments where it would have changed a field (13 R492). -/
def State.refuseWrite (s : State) (w : Writer) (page : Nat) (changes : Bool) : State :=
  match w with
  | .owl => s
  | .port p => if s.portUp p && s.mayRead p page && changes then s.bumpErr page else s

/-! ### Quiescence (12 R464 and the pages' own rules) -/

/-- A queue page is quiescent (11 R418). -/
def State.queueQuiet (s : State) (t : Fin 16) (q : Fin 8) : Bool :=
  let k := s.queue t q
  ! s.sqEn t q && ! s.cqEn t q && ! k.sqActive && ! k.cqActive

/-- A tenant page is quiescent (13 R495). -/
def State.tenantQuiet (s : State) (t : Fin 16) : Bool :=
  let n := s.tenant t
  n.state = .none || (n.state = .held && (allFin 8).all (s.queueQuiet t))

/-- SRC_EN as live. -/
def State.srcEn (s : State) : Nat := s.live 0x01 0x108

/-- A page is quiescent (12 R464; 16 R604; 10 R404). -/
def State.pageQuiet (s : State) (page : Nat) : Bool :=
  match queueTenant page, pageTenant page with
  | some (t, q), _ => s.queueQuiet t q
  | none, some t => s.tenantQuiet t
  | none, none =>
    if page = 0x01 then s.stopped && ! bit s.srcEn 4 && ! bit s.srcEn 5
    else if page = 0x11 then ! bit (s.live 0x11 0x100) 0
    else s.stopped

/-- A Q-class register's block is quiescent: a tenant's W_ registers while its L_WITNESS.EN is 0 (13 R520), any other its page.
-/
def State.regQuiet (s : State) (page off : Nat) : Bool :=
  match pageTenant page with
  | some t => if 0x138 ≤ off then ! bit (s.lease t 0x134) 7 else s.tenantQuiet t
  | none => s.pageQuiet page

/-! ### The header (12 R458) -/

/-- The open set a page is in: port and set. -/
def State.openSetOf (s : State) (page : Nat) : Option (Port × Nat) :=
  match s.cfgA.openSets.find? fun x => x.2.contains page with
  | some x => some (.a, x.1)
  | none =>
    match s.cfgB.openSets.find? fun x => x.2.contains page with
    | some x => some (.b, x.1)
    | none => none

/-- A shadow of the page has been written since its last capture (12 R458 DIRTY). -/
def State.pageDirty (s : State) (page : Nat) : Bool := s.dirty.any fun k => k / 4096 = page

/-- PAGE_STATUS (12 R458). -/
def State.pageStatus (s : State) (page : Nat) : Nat :=
  let o := s.openSetOf page
  let pend := (s.cfgA.submitted ++ s.cfgB.submitted).any fun c => c.pages.contains page
  b2n (s.pageQuiet page) + b2n (s.pageDirty page) * 2 + b2n o.isSome * 4 + b2n pend * 8
    + (mget 0 s.attn.lastResult page).toNat * 2 ^ 8
    + (match o with | some (p, k) => k * 2 ^ 16 + b2n (p = .b) * 2 ^ 20 | none => 0)

/-- A register of the common header (12 R457, R458). -/
def State.headerValue (s : State) (page off : Nat) : Nat :=
  match off with
  | 0x000 => page + (pageType ((pageBase page).getD 0)) * 2 ^ 16 + 2 ^ 31
  | 0x004 => 0x100
  | 0x008 => s.pageStatus page
  | 0x00C => (mget 0 s.attn.pageCtrl page).toNat
  | 0x010 => (s.attnRaw page).toNat
  | 0x014 => (mget 0 s.attn.latch page).toNat
  | 0x018 => (mget 0 s.attn.mask page).toNat
  | 0x020 => mget 0 s.attn.errCount page
  | 0x024 => (mget 0 s.attn.level page).toNat
  | 0x028 => (mget 0 s.attn.crossed page).toNat
  | 0x02C => mget 0 s.attn.count page
  | _ => 0

/-! ### Registers that report the state -/

/-- Two's complement of a number in a byte. -/
def i8 (x : Int) : Nat := toField 8 x

/-- STATE, tenant and BUSY of a unit, as UNIT_STATUS packs them (06 R257, 07 R287). -/
def unitByte (v : View) (run : Option (Fin 16)) : Nat :=
  v.code + (match run with | some t => t.val * 4 + 64 | none => 0)

/-- DEVICE page (12 R479). -/
def State.deviceReg (s : State) (off : Nat) : Option Nat :=
  match off with
  | 0x100 => some s.chip.idWord
  | 0x104 => some (s.chip.fuse.toNat % 2 ^ 32)
  | 0x108 => some (s.chip.fuse.toNat / 2 ^ 32)
  | 0x110 => some s.cfgA.result.toNat
  | 0x114 => some s.cfgA.place.toNat
  | 0x118 => some s.cfgB.result.toNat
  | 0x11C => some s.cfgB.place.toNat
  | 0x120 => some (s.cfgA.submitted.length + s.cfgB.submitted.length * 2 ^ 4)
  | _ => none

/-- CLOCK page (16 R628). -/
def State.clockReg (s : State) (off : Nat) : Option Nat :=
  let c := s.clock
  match off with
  | 0x104 => some (c.target.toNat + c.current.toNat * 2 ^ 4 + b2n c.relock.isSome * 2 ^ 8)
  | 0x10C => some (c.stable.toNat + c.fail.toNat * 2 ^ 8 + b2n c.refLost * 2 ^ 15)
  | 0x110 => some (nsum ((allFin 5).map fun d => (c.sel.at' d).toNat * 4 ^ d.val))
  | 0x114 => some (c.stuck.toNat + c.stuckCount * 2 ^ 16)
  | 0x118 => some c.trimCode
  | 0x11C => some (c.trimRef.toNat + b2n c.trimPeriodic * 2 ^ 5 + b2n c.trimBusy * 2 ^ 8 + b2n c.trimConverged * 2 ^ 9
      + b2n c.trimFail * 2 ^ 10 + min 7 c.trimIters * 2 ^ 12)
  | 0x120 => some (c.meterN + c.meterTarget * 2 ^ 8 + c.meterRef * 2 ^ 12 + b2n c.meterDone * 2 ^ 17)
  | 0x124 => some c.meterCount
  | 0x128 => some (min 0xFFFF c.relocks + min 0xFFFF c.lastUs * 2 ^ 16)
  | _ => none

/-- RESET_POWER page (17 R661). TEMP is the junction in whole degrees, rounded down. DESIGN CHOICE; log 48. -/
def State.powerReg (s : State) (off : Nat) : Option Nat :=
  let p := s.power
  match off with
  | 0x100 => some (p.stage + p.bootSel.toNat * 2 ^ 4 + b2n p.bank * 2 ^ 6 + b2n p.fallback * 2 ^ 7 + p.result.toNat * 2 ^ 8)
  | 0x104 => some p.cause.toNat
  | 0x110 => some (b2n p.unitBusy.isSome + p.unitResult.toNat * 2 ^ 8)
  | 0x120 => some (i8 (p.junction / 16) + p.sensor * 2 ^ 8)
  | 0x124 => some (b2n p.throttle + b2n s.fault.trip * 2 + p.restoreLevel.toNat * 2 ^ 4 + min 0xFFFF p.throttleCount * 2 ^ 16)
  | 0x128 => some (min 0xFFFF p.last + min 0xFFFF p.peak * 2 ^ 16)
  | _ => none

/-- FRAME page (12 R481). SAFE_STATUS keeps its count in the live file. -/
def State.frameReg (s : State) (off : Nat) : Option Nat :=
  let f := s.frame
  match off with
  | 0x100 => some (b2n f.run)
  | 0x130 => some (f.number.toNat % 2 ^ 32)
  | 0x134 => some (f.number.toNat / 2 ^ 32)
  | 0x138 => some (if f.inFrame then f.passed else 8)
  | 0x148 => some (b2n f.safePin + bits (s.live 0x03 0x148) 31 16 * 2 ^ 16)
  | _ => none

/-- A per-tenant register of the SCHED page (10 R403). -/
def State.schedTenantReg (s : State) (t : Fin 16) (off : Nat) : Option Nat :=
  let d := (s.tenant t).sched
  match off with
  | 0x04 => some (s.slotQuota t + d.slotsUsed * 2 ^ 16)
  | 0x08 => some (b2n d.activeB + b2n d.activate.isSome * 2 + b2n d.running * 4 + d.abortCode.toNat * 2 ^ 8
      + bits (s.live 0x04 (perTenant t 0x08)) 23 16 * 2 ^ 16)
  | 0x0C => some (nsum ((allFin 32).map fun k => b2n (d.detectors.at' k).latched * 2 ^ k.val))
  | 0x18 => some (d.delayUsed % 2 ^ 10 + d.delayPeak % 2 ^ 10 * 2 ^ 16)
  | 0x1C => some d.timers.length
  | _ => none

/-- SCHED page (10 R403). -/
def State.schedReg (s : State) (off : Nat) : Option Nat :=
  if off = 0x100 then some s.slotsUsed
  else if off = 0x104 then some s.slotsPeak
  else if off = 0x108 then some (s.schedTime % 2 ^ 32)
  else if off = 0x10C then some (s.schedTime / 2 ^ 32)
  else if 0x800 ≤ off then
    let n := (off - 0x800) / 0x20
    if s.chip.nCores ≤ n then some 0 else if off % 0x20 = 0 then some (s.core n).ready.length else none
  else if h : 0x200 ≤ off ∧ off < 0x400 then s.schedTenantReg ⟨(off - 0x200) / 0x20, by omega⟩ (off % 0x20)
  else none

/-- SELECT page (07 R287). -/
def State.selectReg (s : State) (off : Nat) : Option Nat :=
  match off with
  | 0x100 => some (nsum ((allFin 4).map fun u =>
      let j := s.jays.at' u
      unitByte j.view (j.run.map fun r => r.req.tenant) * 2 ^ (8 * u.val)))
  | 0x104 => some (nsum ((allFin 4).map fun u => min 16 (s.jays.at' u).queue.length * 2 ^ (8 * u.val)))
  | _ => none

/-- Mixed tiles of all tenants (03 R135). -/
def State.poolUsed (s : State) : Nat := nsum (s.tenants.toList.map fun n => n.world.mixedTiles)

/-- WORLD page (03 R135). -/
def State.worldReg (s : State) (off : Nat) : Option Nat :=
  if off = 0x108 then some (s.poolUsed + (2048 - s.poolUsed) * 2 ^ 16)
  else if h : 0x200 ≤ off ∧ off < 0x400 then
    let t : Fin 16 := ⟨(off - 0x200) / 0x20, by omega⟩
    match off % 0x20 with
    | 0x00 => some (s.tileShare t)
    | 0x04 => some (s.tenant t).world.mixedTiles
    | _ => none
  else none

/-- LATTICE page (04 R180). -/
def State.latticeReg (s : State) (off : Nat) : Option Nat :=
  if off = 0x100 then some (nsum ((allFin 16).map s.candQuota))
  else if h : 0x200 ≤ off ∧ off < 0x400 then
    let t : Fin 16 := ⟨(off - 0x200) / 0x20, by omega⟩
    let f := (s.tenant t).search
    let l := f.limits
    match off % 0x20 with
    | 0x00 => some (match f.image with | some x => x.prims.length + x.cellCm.toNat * 2 ^ 24 + 2 ^ 31 | none => 0)
    | 0x04 => some (l.vMax.toNat + l.accelLong.toNat * 2 ^ 16)
    | 0x08 => some (l.decelComfort.toNat + l.decelDyn.toNat * 2 ^ 16)
    | 0x0C => some (l.accelLat.toNat + l.jerk.toNat * 2 ^ 16)
    | 0x10 => some (s.candQuota t)
    | _ => none
  else none

/-- CHECK page: T_CLASS (05 R220). -/
def State.checkReg (s : State) (off : Nat) : Option Nat :=
  if h : 0x200 ≤ off ∧ off < 0x400 then
    if off % 0x20 = 0x08 then some (s.foot ⟨(off - 0x200) / 0x20, by omega⟩).cls else none
  else none

/-- SOLVER page (06 R257). -/
def State.solverReg (s : State) (off : Nat) : Option Nat :=
  if off = 0x100 then
    some (nsum ((allFin 2).map fun u =>
      let b := s.bears.at' u
      unitByte b.view (b.solve.map fun v => v.tenant) * 2 ^ (8 * u.val)))
  else if h : 0x200 ≤ off ∧ off < 0x400 then
    let v := (s.tenant ⟨(off - 0x200) / 0x20, by omega⟩).solver
    if off % 0x20 = 0x04 then some (b2n v.model.loaded + b2n v.meas.isSome * 2) else none
  else none

/-- LOCKSTEP page (14 R548). -/
def State.lockstepReg (s : State) (off : Nat) : Option Nat :=
  let x := s.lynx
  match off with
  | 0x104 => some (s.det + b2n x.comparing * 4 + b2n (s.det = 2 && ! s.refOnly) * 8 + b2n x.frozen * 16 + b2n x.pinned * 32
      + x.pinLevel.toNat * 2 ^ 6 + b2n x.partnerLost * 2 ^ 8)
  | 0x108 => some x.divCount
  | 0x10C => some (x.divFrame.toNat % 2 ^ 32)
  | 0x110 => some (x.divFrame.toNat / 2 ^ 32)
  | 0x114 => some (x.divWindow % 2 ^ 32)
  | 0x118 => some (x.divStream + x.divKind * 2 ^ 8 + (if x.held then 0x62 * 2 ^ 16 else 0))
  | 0x11C => some (x.divOffset % 2 ^ 32)
  | 0x120 => some (x.divLocal.toNat % 2 ^ 32)
  | 0x124 => some (x.divLocal.toNat / 2 ^ 32)
  | 0x128 => some (x.divRemote.toNat % 2 ^ 32)
  | 0x12C => some (x.divRemote.toNat / 2 ^ 32)
  | _ => none

/-- DIGEST page: T_LAST (14 R549). -/
def State.digestReg (s : State) (off : Nat) : Option Nat :=
  if h : 0x200 ≤ off ∧ off < 0xA00 then
    if off % 0x80 < 0x20 then
      some (u32At (digestBytes (s.tenant ⟨(off - 0x200) / 0x80, by omega⟩).spoor.last) (off % 0x80))
    else none
  else none

/-- CASCADE page (15 R592). -/
def State.cascadeReg (s : State) (off : Nat) : Option Nat :=
  let c := s.cascade
  match off with
  | 0x104 => some (s.role + b2n c.strap * 2 ^ 8)
  | 0x11C => some (s.route (BitVec.ofNat 16 (s.live 0x0D 0x118)))
  | 0x180 => some (b2n c.masterLost + b2n s.periodMismatch * 8 + c.hops.toNat * 2 ^ 8 + min 0xFFFF c.lastA * 2 ^ 16)
  | 0x184 => some (c.routeDrops + c.stale * 2 ^ 16)
  | 0x188 => some c.foreign
  | _ => none

/-- Mask of the populated DRAM sites. -/
def Chip.siteMask (c : Chip) : Nat := 2 ^ c.nSites - 1

/-- MEMORY page (17 R662). -/
def State.memoryReg (s : State) (off : Nat) : Option Nat :=
  match off with
  | 0x104 => some ((if s.power.trained then s.chip.siteMask &&& (15 - s.power.failedSites.toNat) else 0)
      + (if s.power.initDone then s.chip.siteMask &&& (15 - s.power.failedSites.toNat) else 0) * 2 ^ 4
      + bits (s.live 0x0E 0x100) 0 0 * 2 ^ 8)
  | 0x108 => some s.chip.capUnits
  | _ => none

/-- The mailbox of a port. -/
def portIx : Port → Nat
  | .a => 0
  | .b => 1

/-- A word of a byte string. -/
def wordAt (l : List Byte) (i : Nat) : Nat := u32At l i

/-- MGMT_MAILBOX page as a port reads it (18 R707). -/
def State.mailboxReg (s : State) (p : Port) (off : Nat) : Option Nat :=
  let o := s.owl
  let b := bget Mailbox.reset o.boxes (portIx p)
  if off = 0x104 then some (b2n b.busy + b2n b.done * 2 + b2n b.err * 4)
  else if off = 0x110 then some (o.buffer.length % 2 ^ 9 + o.logDrops * 2 ^ 16)
  else if off = 0x114 then
    some (b2n o.activeB + b2n o.trial * 2 + b2n o.session.isSome * 4 + o.rollback % 256 * 2 ^ 8 + o.fwResult.toNat * 2 ^ 16)
  else if off = 0x118 then some (b2n o.pairing.isSome + b2n o.changed * 2)
  else if 0x300 ≤ off ∧ off < 0x400 then some (wordAt b.response (off - 0x300))
  else none

/-- CALENDAR page (18 R708). -/
def State.calendarReg (s : State) (off : Nat) : Option Nat :=
  let c := s.cal
  match off with
  | 0x10C => some (c.year + c.month * 2 ^ 16 + c.day * 2 ^ 24)
  | 0x110 => some (c.second + c.minute * 2 ^ 8 + c.hour * 2 ^ 16)
  | 0x114 => some (c.seconds.toNat % 2 ^ 32)
  | 0x118 => some (c.seconds.toNat / 2 ^ 32)
  | 0x11C => some (b2n c.valid + b2n c.ended * 2 + c.result.toNat * 2 ^ 8)
  | _ => none

/-- The code of STATE (13 R495). -/
def TState.code : TState → Nat
  | .none => 0
  | .active => 1
  | .resetting => 2
  | .held => 3

/-- Tenant page (13 R520). -/
def State.tenantReg (s : State) (t : Fin 16) (off : Nat) : Option Nat :=
  let n := s.tenant t
  match off with
  | 0x104 => some (n.state.code + b2n (s.ownerOf t = .b) * 4 + b2n n.holdPending * 8 + n.cause.toNat * 2 ^ 4
      + min 255 n.resets * 2 ^ 8 + min 255 n.faults * 2 ^ 16)
  | 0x108 => some (s.owl.board.map.toNat + b2n s.owl.board.ctrlB * 4 + b2n s.owl.board.twin * 8)
  | 0x10C => some (n.unitsWord.toNat + b2n (s.mismatchOf t) * 2 ^ 31)
  | _ => none

/-- Queue page (11 R417). -/
def State.queueReg (s : State) (t : Fin 16) (q : Fin 8) (off : Nat) : Option Nat :=
  let k := s.queue t q
  match off with
  | 0x120 => some k.sqTail
  | 0x124 => some k.sqHead
  | 0x128 => some k.cqHead
  | 0x12C => some (k.cqTail + b2n k.toggle * 2 ^ 16)
  | 0x130 => some (b2n k.sqActive + b2n k.cqActive * 2 + b2n k.dbErr * 4 + b2n k.dmaErr * 8)
  | 0x134 => some ((s.tenant t).tagsOf q % 2 ^ 12 + (if q = 0 then (s.tenant t).backlog.length else 0) * 2 ^ 16)
  | _ => none

/-- Core page (08 R327, R328). -/
def State.coreReg (s : State) (c : Nat) (off : Nat) : Option Nat :=
  let k := s.core c
  match off with
  | 0x100 => some (k.view.code + (match s.coreTenant c with | some t => t.val * 2 ^ 4 + s.lowestVcore t c * 2 ^ 8 | none => 0)
      + b2n k.run.isSome * 2 ^ 16)
  | 0x108 => some (match k.run with | some r => s.slotOf r.part.tenant r.part.task % 2 ^ 12 + 2 ^ 15 | none => 0)
  | 0x114 => some (min 32 (s.coreDma c))
  | _ => none

/-- Checker engine page (05 R222). -/
def State.engineReg (s : State) (e : Nat) (off : Nat) : Option Nat :=
  let k := bget Engine.reset s.engines e
  match off with
  | 0x100 => some (k.view.code + (match k.current with | some x => x.tenant.val * 2 ^ 4 + 2 ^ 8 | none => 0))
  | 0x104 => some k.depth
  | _ => none

/-- Link page (15 R593). -/
def State.linkReg (s : State) (l : Nat) (off : Nat) : Option Nat :=
  let k := s.link l
  match off with
  | 0x100 => some (b2n k.enabled)
  | 0x104 => some ((match k.st with | .down => 0 | .training => 1 | .up => 2) + b2n k.calibrated * 2 ^ 4 + k.peer.toNat * 2 ^ 16)
  | 0x108 => some (k.delay.toNat + k.roundTrip.toNat * 2 ^ 16)
  | 0x10C => some (k.credits.at' 0 + k.credits.at' 1 * 2 ^ 8 + k.credits.at' 2 * 2 ^ 16)
  | 0x110 => some (k.replays + k.retrains * 2 ^ 16)
  | 0x114 => some (k.peerStat.toNat + k.peerSeq.toNat * 2 ^ 16)
  | _ => none

/-- DRAM site page (17 R663). D_REFRESH.NS is the stack's, a free value of the part; log 25. -/
def State.siteReg (s : State) (d : Nat) (off : Nat) : Option Nat :=
  let p := s.power
  match off with
  | 0x100 => some ((if bit p.failedSites.toNat d then 3 else if p.trained then 2 else if p.stage = 2 then 1 else 0)
      + (bget 0 s.owl.stackTemps d).toNat % 256 * 2 ^ 8)
  | 0x108 => some (Config.refreshNs d).toNat
  | _ => none

/-- What a read-only or computed register reads as now; none for a register kept in the live file. -/
def State.stateReg (s : State) (p : Port) (page off : Nat) : Option Nat :=
  match page with
  | 0x00 => s.deviceReg off
  | 0x01 => s.clockReg off
  | 0x02 => s.powerReg off
  | 0x03 => s.frameReg off
  | 0x04 => s.schedReg off
  | 0x05 => s.selectReg off
  | 0x06 => s.worldReg off
  | 0x07 => s.latticeReg off
  | 0x09 => s.checkReg off
  | 0x0A => s.solverReg off
  | 0x0B => s.lockstepReg off
  | 0x0C => s.digestReg off
  | 0x0D => s.cascadeReg off
  | 0x0E => s.memoryReg off
  | 0x0F => s.mailboxReg p off
  | 0x10 => s.calendarReg off
  | _ =>
    match queueTenant page, pageTenant page with
    | some (t, q), _ => s.queueReg t q off
    | none, some t => s.tenantReg t off
    | none, none =>
      if 0x100 ≤ page ∧ page < 0x130 then s.coreReg (page - 0x100) off
      else if 0x140 ≤ page ∧ page < 0x150 then s.engineReg (page - 0x140) off
      else if 0x160 ≤ page ∧ page < 0x168 then s.linkReg (page - 0x160) off
      else if 0x170 ≤ page ∧ page < 0x174 then s.siteReg (page - 0x170) off
      else none

/-! ### A read (11 R414; 12 R459, R462) -/

/-- The page of the files that holds a register, for a port: its own copy of a per-port register (13 R492). -/
def filePage (p : Port) (page : Nat) (r : Reg) : Nat := if r.writer = .port then (match p with | .a => page | .b => page + 0x1000) else page

/-- The port's VIEW bit of a page is 1 (12 R462). -/
def State.viewsShadow (s : State) (p : Port) (page : Nat) : Bool := bit (mget 0 s.attn.pageCtrl page).toNat (portIx p)

/-- What a register reads as for a port, holding copies apart; a write-only field reads 0 (00 R8, R10; 12 R462). -/
def State.regValue (s : State) (p : Port) (page off : Nat) : Nat :=
  if off < 0x100 then s.headerValue page off
  else
    match regFind page off with
    | none => 0
    | some (r, _) =>
      if r.cls ≠ .a && s.viewsShadow p page then s.shadowOf page off
      else
        match s.stateReg p page off with
        | some v => v
        | none => s.live (filePage p page r) off

/-- The high register of a 64-bit pair, by its low register (12 R459). -/
def pairHigh : Nat → Nat → Option Nat
  | 0x03, 0x130 => some 0x134
  | 0x04, 0x108 => some 0x10C
  | 0x00, 0x104 => some 0x108
  | 0x0B, 0x10C => some 0x110
  | 0x0B, 0x120 => some 0x124
  | 0x0B, 0x128 => some 0x12C
  | _, _ => none

/-- Registers a read of this one copies into the port's holding copies (12 R459; 18 R705). -/
def heldBy (page off : Nat) : List Nat :=
  if page = 0x10 ∧ off = 0x10C then [0x110, 0x114, 0x118] else (pairHigh page off).toList

/-- The holding copies of a port with some replaced. -/
def PortCfg.hold (c : PortCfg) (l : List (Nat × Word)) : PortCfg :=
  { c with holds := l.foldl (fun m x => mput m x.1 x.2) c.holds }

/-- Where a peak since the last read starts again: at what stands now (05 R222; 10 R403). -/
def State.peakBase (s : State) (page off : Nat) : Nat :=
  if 0x140 ≤ page ∧ page < 0x150 ∧ off = 0x108 then (bget Engine.reset s.engines (page - 0x140)).depth
  else if page = 0x04 ∧ 0x800 ≤ off then (s.core ((off - 0x804) / 0x20)).ready.length
  else 0

/-- What a read clears (00 R8 RC): the register's RC fields return to 0, and a peak then holds what stands now. -/
def State.clearRead (s : State) (page off : Nat) : State :=
  if off = 0x020 then s.updAttn fun a => { a with errCount := mset 0 a.errCount page 0 }
  else
    match page, off with
    | 0x01, 0x114 => s.updClock fun c => { c with stuck := 0, stuckCount := 0 }
    | 0x02, 0x104 => s.updPower fun p => { p with cause := 0 }
    | 0x04, 0x104 => { s with slotsPeak := s.slotsUsed }
    | 0x0B, 0x108 => s.updLynx fun x => { x with divCount := 0 }
    | 0x0D, 0x184 => s.updCascade fun c => { c with routeDrops := 0, stale := 0 }
    | 0x0D, 0x188 => s.updCascade fun c => { c with foreign := 0 }
    | _, _ =>
      match regFind page off with
      | none => s
      | some (r, _) =>
        if r.rc = 0 then s
        else if r.page = 0x160 then s.updLink (page - 0x160) fun k => { k with replays := 0, retrains := 0 }
        else s.setLive page off (s.peakBase page off)

/-- A 32-bit read of BAR0 by a port. The data goes to the port's `readData`; log 3. A page the port cannot read reads 0
(11 R414). -/
def State.bar0Read (s : State) (p : Port) (page off : Nat) : State :=
  if ! s.portUp p then s
  else if off % 4 ≠ 0 || ! s.mayRead p page then s.updCfg p fun c => { c with readData := 0 }
  else
    let key := regKey page off
    let v := match mfind (s.cfg p).holds key with | some w => w | none => BitVec.ofNat 32 (s.regValue p page off)
    let copies := (heldBy page off).map fun o => (regKey page o, BitVec.ofNat 32 (s.regValue p page o))
    let s := s.updCfg p fun c => ({ c with readData := v, holds := mdel c.holds key }).hold copies
    s.clearRead page off

/-! ### The read rows -/

/-- LOW_WORD_READ -/
def execLowWordRead (p : Port) (page off : BitVec 12) (s : State) : Host.Outcome State Fault Refusal :=
  done (s.bar0Read p page.toNat off.toNat)
/-- NOW_DATE_READ -/
def execNowDateRead (p : Port) (s : State) : Host.Outcome State Fault Refusal := done (s.bar0Read p 0x10 0x10C)
/-- ERR_COUNT_READ -/
def execErrCountRead (p : Port) (page : BitVec 12) (s : State) : Host.Outcome State Fault Refusal :=
  done (s.bar0Read p page.toNat 0x020)
/-- C_FAULT_READ -/
def execCFaultRead (p : Port) (c : Fin 48) (s : State) : Host.Outcome State Fault Refusal :=
  done (s.bar0Read p (corePage c.val) 0x104)
/-- C_STORE_PEAK_READ -/
def execCStorePeakRead (p : Port) (c : Fin 48) (s : State) : Host.Outcome State Fault Refusal :=
  done (s.bar0Read p (corePage c.val) 0x118)
/-- E_QUEUE_PEAK_READ -/
def execEQueuePeakRead (p : Port) (e : Fin 16) (s : State) : Host.Outcome State Fault Refusal :=
  done (s.bar0Read p (enginePage e.val) 0x108)
/-- SLOTS_PEAK_READ -/
def execSlotsPeakRead (p : Port) (s : State) : Host.Outcome State Fault Refusal := done (s.bar0Read p 0x04 0x104)
/-- Q_PEAK_READ -/
def execQPeakRead (p : Port) (c : Fin 48) (s : State) : Host.Outcome State Fault Refusal :=
  done (s.bar0Read p 0x04 (0x804 + 0x20 * c.val))
/-- BAR2_DROPS_READ -/
def execBar2DropsRead (p : Port) (s : State) : Host.Outcome State Fault Refusal := done (s.bar0Read p 0x00 0x10C)
/-- TRACE_DROPS_READ -/
def execTraceDropsRead (p : Port) (s : State) : Host.Outcome State Fault Refusal := done (s.bar0Read p 0x11 0x118)
/-- DIV_COUNT_READ -/
def execDivCountRead (p : Port) (s : State) : Host.Outcome State Fault Refusal := done (s.bar0Read p 0x0B 0x108)
/-- CASCADE_DROPS_READ -/
def execCascadeDropsRead (p : Port) (s : State) : Host.Outcome State Fault Refusal := done (s.bar0Read p 0x0D 0x184)
/-- FOREIGN_READ -/
def execForeignRead (p : Port) (s : State) : Host.Outcome State Fault Refusal := done (s.bar0Read p 0x0D 0x188)
/-- L_ERR_READ -/
def execLErrRead (p : Port) (l : Fin 8) (s : State) : Host.Outcome State Fault Refusal :=
  done (s.bar0Read p (linkPage l.val) 0x110)
/-- RESET_CAUSE_READ -/
def execResetCauseRead (p : Port) (s : State) : Host.Outcome State Fault Refusal := done (s.bar0Read p 0x02 0x104)
/-- MUX_STUCK_READ -/
def execMuxStuckRead (p : Port) (s : State) : Host.Outcome State Fault Refusal := done (s.bar0Read p 0x01 0x114)
/-- D_ECC_READ -/
def execDEccRead (p : Port) (d : Fin 4) (s : State) : Host.Outcome State Fault Refusal :=
  done (s.bar0Read p (sitePage d.val) 0x104)

/-! ### BAR2 (11 R415; 13 R494; 05 R218; 19 R728, R729) -/

/-- Tenants a port owns that exist. -/
def State.ownedBy (s : State) (p : Port) : List (Fin 16) :=
  (allFin 16).filter fun t => s.ownerOf t = p && (s.tenant t).exists'

/-- A range lies in the DRAM lease of a tenant the port owns (13 R494). -/
def State.bar2Lease (s : State) (p : Port) (a n : Nat) : Bool := (s.ownedBy p).any fun t => s.inLease t a n
/-- A range lies in the candidate region of a tenant the port owns. -/
def State.bar2Table (s : State) (p : Port) (a n : Nat) : Option (Fin 16) :=
  (s.ownedBy p).find? fun t => s.candAddr t 0 ≤ a && a + n ≤ s.candAddr t (s.candQuota t)

/-- Bytes of a tenant's candidate region. -/
def State.tableBytes (s : State) (t : Fin 16) (a n : Nat) : List Byte :=
  (List.range n).map fun i =>
    let o := a + i - s.candAddr t 0
    lget 0 ((s.tenant t).table.entryBytes (o / 128)) (o % 128)

/-- A counted access of BAR2 (11 R415; 12 R478). -/
def State.bar2Drop (s : State) (p : Port) : State :=
  let v := s.live 0x00 0x10C
  let w := match p with
    | .a => sat16 (bits v 15 0) + bits v 31 16 * 2 ^ 16
    | .b => bits v 15 0 + sat16 (bits v 31 16) * 2 ^ 16
  (s.setLive 0x00 0x10C w).raise 0x00 (2 + (portIx p))

/-- BAR2_READ: the data, zeros with a count, or a poisoned completion (19 R729). -/
def State.bar2Read (s : State) (p : Port) (a n : Nat) : State :=
  if ! s.portUp p then s
  else if s.bar2Lease p a n then
    let d := if s.dram.poisoned a n then none else some (s.dramRead a n)
    s.updCfg p fun c => { c with bar2Data := d }
  else
    match s.bar2Table p a n with
    | some t =>
      let d := if s.dram.poisoned a n then none else some (s.tableBytes t a n)
      s.updCfg p fun c => { c with bar2Data := d }
    | none => (s.updCfg p fun c => { c with bar2Data := some (List.replicate n 0) }).bar2Drop p

/-- BAR2_READ -/
def execBar2Read (p : Port) (a n : Nat) (s : State) : Host.Outcome State Fault Refusal := done (s.bar2Read p a n)

/-- BAR2_WRITE: into a lease, dropped at the candidate table with that table's own count (05 R218), or dropped. That the
table's count replaces BAR2_DROPS is DEDUCED; log 49. -/
def State.bar2Write (s : State) (p : Port) (a : Nat) (d : List Byte) : State :=
  if ! s.portUp p then s
  else if s.bar2Lease p a d.length then s.dramWrite a d
  else if s.chip.tableBase ≤ a && a < s.chip.capacity then s.setLive 0x09 0x100 (sat16 (s.live 0x09 0x100))
  else s.bar2Drop p

/-- BAR2_WRITE -/
def execBar2Write (p : Port) (a : Nat) (d : List Byte) (s : State) : Host.Outcome State Fault Refusal :=
  done (s.bar2Write p a d)

/-- CONFIGURATION_REQUEST (11 R413): answered with Configuration Request Retry Status until the port is ready, and by the
configuration space, whose contents the spec leaves to PCI Express, after that; log 11. -/
def State.configRequest (s : State) (p : Port) : State :=
  if s.held then s
  else
    let up := (s.cfg p).ready
    let v := Config.configSpace s.draws
    (s.updCfg p fun c => { c with crs := ! up, readData := if up then v else c.readData }).draw

/-- CONFIGURATION_REQUEST -/
def execConfigurationRequest (p : Port) (s : State) : Host.Outcome State Fault Refusal := done (s.configRequest p)

end Sys2Proof.Machine
end

