-- ==== Sys2Proof/Machine/Spoor.lean ====
section
/-! DEFINITION. TIMING, comparability and the Spoor digest (14 R531 to R538). -/
namespace Sys2Proof.Machine
open Sys2Proof

/-! ### TIMING and COMPARABLE (14 R531, R532) -/

/-- The adaptive policy (17 R652). -/
def State.adaptive (s : State) : Bool := bit (s.live 0x02 0x114) 0
/-- THERMAL.THROTTLE_EN (17 R657). -/
def State.throttleEn (s : State) : Bool := bit (s.live 0x02 0x11C) 0
/-- Deterministic refresh (17 R659). -/
def State.detRefresh (s : State) : Bool := bit (s.live 0x0E 0x100) 0

/-- CUT_MAP is not zero, CUT_FORCED is set or END_REASON is DEADLINE (14 R531 bit 8). -/
def Tenant.wasCut (n : Tenant) : Bool := n.out.cutMap ≠ 0 || n.out.cutForced || n.search.ended = some 4

/-- A tenant's TIMING as it stands (14 R531): the bits noted, and those its state shows. -/
def State.timing (s : State) (t : Fin 16) : BitVec 16 :=
  let n := s.tenant t
  let l : List (Nat × Bool) :=
    [(1, bit (s.live 0x06 (perTenant t 0x0C)) 31 && n.world.view.isSome),
     (2, s.frame.opening), (3, match s.frame.levelAt with | some x => s.frame.prevTickAt ≤ x | none => false),
      (6, s.cascade.masterLost || s.frame.masterLost),
     (7, n.queues.toList.any fun q => q.dmaErr), (8, n.wasCut), (9, n.sched.waitTimeouts ≠ 0),
     (10, n.sched.abortCode = codeDeadlock && n.out.aborted)]
  n.out.timing ||| (bitsOf l).setWidth 16

/-- COMPARABLE (14 R532). -/
def State.comparable (s : State) (t : Fin 16) : Bool :=
  s.det ≠ 0 && s.detRefresh && ! s.throttleEn && (s.timing t).toNat % 2 ^ 8 = 0 && ! (s.det = 2 && ! s.refOnly)

/-! ### The input record (14 R536, R537) -/

/-- COND (14 R536). -/
def State.cond (s : State) : Byte :=
  BitVec.ofNat 8 (s.det + b2n s.refOnly * 4 + s.clock.current.toNat * 8 + b2n s.adaptive * 32 + b2n s.detRefresh * 64
    + b2n s.throttleEn * 128)

/-- The 64 bytes of a model block (06 R235). -/
def Model.bytes (m : Model) : List Byte := m.fields.toList.flatMap (fun w => leBytes 4 w.toNat) ++ leBytes 12 0

/-- The registers CONFIG_HASH covers, in order (14 R537). -/
def configRegs (t : Fin 16) : List (Nat × Nat) :=
  (0x03, 0x10C) :: (List.range 8).map (fun k => (0x03, 0x110 + 4 * k))
    ++ [(0x06, 0x100), (0x06, 0x104)] ++ (List.range 8).map (fun k => (0x06, 0x120 + 4 * k))
    ++ [(0x07, perTenant t 0x14)] ++ (List.range 6).map (fun k => (0x08, perTenant t (4 * k)))
    ++ [(0x09, perTenant t 0), (0x09, perTenant t 4), (0x0A, perTenant t 0), (0x05, perTenant t 0),
        (tenantPage t, 0x124), (tenantPage t, 0x12C)]

/-- CONFIG_HASH of a tenant, as at the tick (14 R537). -/
def State.configHash (s : State) (t : Fin 16) : Digest :=
  let n := s.tenant t
  sha256 ((configRegs t).flatMap (fun r => leBytes 4 (s.live r.1 r.2))
    ++ (match n.search.image with | some i => digestBytes i.hash | none => List.replicate 32 0) ++ n.solver.model.bytes)

/-- INPUT_HASH of the accepted inputs of a frame (14 R537). -/
def inputHash (l : List (Nat × Byte × List Byte)) : Digest :=
  sha256 (l.flatMap fun x => [x.2.1, 0, 0, 0] ++ leBytes 4 x.2.2.length ++ x.2.2)

/-- FRAME.NUMBER with DIGEST.FRAME_BASE added (14 R536). -/
def State.logicalFrame64 (s : State) : Nat :=
  (s.frame.number.toNat + s.live 0x0C 0x100 + s.live 0x0C 0x104 * 2 ^ 32) % 2 ^ 64

/-- The 32 bytes of T_SEED (14 R538). -/
def State.seedOf (s : State) (t : Fin 16) : Digest :=
  BitVec.ofNat 256 (beNat ((List.range 8).flatMap fun k => leBytes 4 (s.live 0x0C (0x220 + 0x80 * t.val + 4 * k))))

/-- PREV of the frame (14 R538). -/
def State.prevDigest (s : State) (t : Fin 16) : Digest :=
  let p := (s.tenant t).spoor
  if p.seeded then s.seedOf t else p.prev

/-- PLAN_HASH (14 R536). -/
def planHash (rec' : List Byte) (logical : Nat) : List Byte :=
  if rec'.isEmpty then List.replicate 32 0
  else digestBytes (sha256 (rec'.take 88 ++ leBytes 8 logical ++ rec'.drop 96))

/-- The 256-byte input record (14 R536). A tenant without a program has hashes of nothing: 32 zero bytes, since the spec
gives it no image. DESIGN CHOICE; log 51. -/
def State.spoorRecord (s : State) (t : Fin 16) (result : Byte) (outcome : Byte) (rec' : List Byte) : List Byte :=
  let n := s.tenant t
  let h (f : Program → Digest) : List Byte := match n.sched.program with | some p => digestBytes (f p) | none => List.replicate 32 0
  leBytes 4 1 ++ [0, BitVec.ofNat 8 (s.vcores t), s.chip.stepLetter ++ s.chip.stepDigit, s.cond] ++ leBytes 2 (s.timing t).toNat
    ++ [result, n.out.cutMap, outcome &&& 7, 0, 0, 0] ++ leBytes 8 s.logicalFrame64 ++ digestBytes (s.prevDigest t)
    ++ h (·.programHash) ++ h (·.weightsHash) ++ digestBytes n.spoor.configHash ++ digestBytes (inputHash n.spoor.inputs)
    ++ planHash rec' s.logicalFrame64 ++ List.replicate 40 0

/-- The frame's Spoor digest (14 R536). -/
def State.digestOf (s : State) (t : Fin 16) (result : Byte) (outcome : Byte) (rec' : List Byte) : Digest :=
  sha256 (s.spoorRecord t result outcome rec')

/-- The chain moved on by a frame's digest, latched into T_LAST with T_STATUS (14 R536, R549). -/
def State.chainDigest (s : State) (t : Fin 16) (d : Digest) : State :=
  let w := s.cond.toNat + (s.timing t).toNat * 2 ^ 8 + b2n (s.comparable t) * 2 ^ 31
  (s.updSpoor t fun p => { p with prev := d, last := d, seeded := false }).setLive 0x0C (0x240 + 0x80 * t.val) w

end Sys2Proof.Machine
end

