-- ==== Sys2Proof/Machine/Tenancy.lean ====
section
/-! DEFINITION. Tenants and units (13): creation, deletion, reset, hold and release; the two views of a unit and its loss; unit
resets (17 R647, R648). -/
namespace Sys2Proof.Machine
open Sys2Proof

/-! ### The result of a direct write (12 R463) -/

/-- The result of a direct write, in LAST_RESULT of the page and in the writing port's CFG_RESULT and CFG_WHERE (12 R463, R473).
-/
def State.recordDirect (s : State) (w : Writer) (page off : Nat) (code : Byte) : State :=
  let s := s.updAttn fun a => a.setResult page code
  match w with
  | .owl => s
  | .port p =>
    s.updCfg p fun c =>
      { c with
        result := BitVec.ofNat 32 (code.toNat + c.seq.toNat * 2 ^ 16 + 2 ^ 24)
        place := if code = codeOk then 0 else BitVec.ofNat 32 (off + page * 2 ^ 16) }

/-! ### The reset of a tenant (13 R504; 05 R226) -/

/-- Entries of a tenant leave the checker queues and engines, other than those kept, and so do the producers that wait with them; the
room lets the stalled producers of others go on (05 R214, R226). -/
def State.dropEntries (s : State) (t : Fin 16) (keep : Nat → Bool) : State :=
  let stays (x : Entry) : Bool := x.tenant ≠ t || keep x.id
  let engines := s.engines.map fun (e : Engine) => { e with queue := e.queue.filter stays, current := e.current.filter stays }
  let s : State := { s with engines := engines }
  (s.updTable t fun b => { b with stalled := b.stalled.filter keep }).retryStalled

/-- What a tenant reset clears and keeps of the tenant's own state (13 R504). The Spoor chain restarts (14 R538). -/
def Tenant.cleared (n : Tenant) : Tenant :=
  { n with
    world := World.reset, search := Search.reset, table := Table.reset, solver := Solver.reset, sel := Selection.reset
    sched :=
      { Sched.reset with
        slotA := n.sched.slotA, slotB := n.sched.slotB, activeB := n.sched.activeB, activate := n.sched.activate, inForce := n.sched.inForce
        abortCode := n.sched.abortCode }
    spoor := { n.spoor with prev := 0, inputs := [], inputsNext := [] }
    resets := min 255 (n.resets + 1) }

/-- A core whose last task was the tenant's is zeroed before its next task (08 R304, R330). -/
def State.disown (s : State) (t : Fin 16) : State :=
  { s with cores := s.cores.map fun k => if k.owner = some t then { k with owner := none } else k }

/-- A tenant's reset completes (13 R504): its commands whose effect is not fixed complete with TENANT_RESET, and RESET_DONE is
raised. DESIGN CHOICE: the commands complete at this moment; log 52. -/
def State.resetTenant (s : State) (t : Fin 16) : State :=
  let s := s.completeAll t (s.tenant t).cmds codeTenantReset
  let s := ((s.dropWork t).disown t).dropEntries t fun _ => false
  let s := s.updCascade fun c => { c with tags := c.tags.filter fun g => g.tenant ≠ t }
  let s := s.updTenant t Tenant.cleared
  let s := ((s.setLive 0x06 (perTenant t 0x08) 0).setLive 0x06 (perTenant t 0x0C) 0).setLive 0x06 (perTenant t 0x10) 0
  s.raise (tenantPage t) 0

/-- No frame of the tenant can be affected any more: its completion is fixed, or no frame runs (13 R505). -/
def State.pastD7 (s : State) : Bool := ! s.frame.inFrame || 8 ≤ s.frame.passed

/-- The guard has one more action, which takes 40 µs at most. DESIGN CHOICE: it takes the whole time; log 53 (13 R505). -/
def State.extendGuard (s : State) : State := s.updFrame fun f => { f with guardUntil := max f.guardUntil (s.now + 40) }

/-- RESET of a tenant (13 R496, R497, R504, R505; 05 R226), with the cause it records. An INGEST being applied stops where it is, its
remaining records with it (03 R140). -/
def State.requestReset (s : State) (t : Fin 16) (cause : BitVec 4) : State :=
  if (s.tenant t).state ≠ .active then s
  else
    let s := s.updTenant t fun n => { n with cause := cause }
    if s.stopped then s.resetTenant t
    else if s.pastD7 then ((s.updTenant t fun n => { n with state := .resetting }).resetTenant t).extendGuard
    else
      let s := s.updTenant t fun n =>
        { n with
          state := .resetting, sel := { n.sel with finalResult := none }, world := { n.world with jobs := [] }
          table := { n.table with clear := n.table.clear.filter (· < 2) } }
      (((s.failFrame t codeTenantReset).disown t).dropEntries t fun i => i < 2).noteTiming t 7

/-- HOLD of a tenant (13 R496, R497), with the cause it records. -/
def State.requestHold (s : State) (t : Fin 16) (cause : BitVec 4) : State :=
  match (s.tenant t).state with
  | .active =>
    let s := s.updTenant t fun n => { n with cause := cause }
    if s.stopped then (s.updTenant t fun n => { n with state := .held }).resetTenant t
    else
      let s := s.updTenant t fun n => { n with holdPending := true }
      if s.pastD7 then (s.resetTenant t).extendGuard else s.noteTiming t 7
  | .resetting => s.updTenant t fun n => { n with holdPending := true, cause := cause }
  | _ => s

/-- RELEASE of a tenant (13 R496, R497). -/
def State.requestRelease (s : State) (t : Fin 16) : State :=
  let n := s.tenant t
  if n.state ≠ .held then s
  else if 16 ≤ n.backlog.length then s.raise (tenantPage t) 6
  else if s.stopped then s.updTenant t fun n => { n with state := .active }
  else s.updTenant t fun n => { n with releasePending := true }

/-- A port reaches a tenant's T_CTRL (13 R492). -/
def State.ownsTenant (s : State) (p : Port) (t : Fin 16) : Bool :=
  s.portUp p && s.ownerOf t = p && s.pagePresent (tenantPage t)

/-- T_CTRL_RESET -/
def execTCtrlReset (p : Port) (t : Fin 16) (s : State) : Host.Outcome State Fault Refusal :=
  done (if s.ownsTenant p t then s.requestReset t 1 else s.refuseWrite (.port p) (tenantPage t) true)
/-- T_CTRL_HOLD -/
def execTCtrlHold (p : Port) (t : Fin 16) (s : State) : Host.Outcome State Fault Refusal :=
  done (if s.ownsTenant p t then s.requestHold t 1 else s.refuseWrite (.port p) (tenantPage t) true)
/-- T_CTRL_RELEASE -/
def execTCtrlRelease (p : Port) (t : Fin 16) (s : State) : Host.Outcome State Fault Refusal :=
  done (if s.ownsTenant p t then s.requestRelease t else s.refuseWrite (.port p) (tenantPage t) true)

/-- The tenant's transition due at the tick, or at the end of the last frame's guard (13 R496). -/
def Tenant.turn (n : Tenant) : Tenant :=
  let st : TState :=
    match n.state with
    | .resetting => if n.holdPending then .held else .active
    | .active => if n.holdPending then .held else .active
    | .held => if n.releasePending then .active else .held
    | .none => if n.enabling then .active else .none
  { n with state := st, holdPending := false, releasePending := false, enabling := false }

/-! ### Creation and deletion (13 R496, R498, R779) -/

/-- L_MAIN.ENABLE has applied as 1: the tenant takes its defaults and holds no program. A seed applied before it stands (14 R538). -/
def State.createTenant (s : State) (t : Fin 16) : State :=
  let now := s.stopped
  s.updTenant t fun n =>
    { Tenant.reset with
      state := if now then .active else .none, enabling := ! now, cause := n.cause, resets := n.resets, faults := n.faults
      spoor := { Tenant.reset.spoor with seeded := n.spoor.seeded }
      queues := n.queues, pubRing := n.pubRing, witnessRing := n.witnessRing, unitsWord := n.unitsWord }

/-- The registers of a tenant's blocks on pages 0x004 to 0x00C at their reset values. -/
def State.resetBlocks (s : State) (t : Fin 16) : State :=
  let s := s.forEach [4, 5, 6, 7, 8, 9, 0xA] fun s p => s.resetRegs p (0x200 + 0x20 * t.val) (0x220 + 0x20 * t.val)
  s.resetRegs 0x0C (0x200 + 0x80 * t.val) (0x280 + 0x80 * t.val)

/-- L_MAIN.ENABLE has applied as 0: the tenant is gone, with its queue pages, register blocks and lease (13 R498). -/
def State.deleteTenant (s : State) (t : Fin 16) : State :=
  let s := ((s.dropWork t).disown t).dropEntries t fun _ => false
  let s := s.updTenant t fun n =>
    { Tenant.reset with
      cause := n.cause, resets := n.resets, faults := n.faults
      queues := n.queues, pubRing := n.pubRing, witnessRing := n.witnessRing }
  let s := s.forEach (allFin 8) fun s q => s.resetQueue t q
  (s.resetBlocks t).resetRegs (tenantPage t) 0x110 0x144

/-! ### Views of units (13 R514 to R519) -/

/-- The page of a unit's block (19 R733). -/
def unitPage : UnitKind → Nat → Nat
  | .core, n => corePage n
  | .badger, n => enginePage n
  | .bear, _ => 0x0A
  | .jay, _ => 0x05
  | .front, _ => 0x08

/-- A view's code in an event record. -/
def OwlView.code : OwlView → Nat
  | .down => 0
  | .up => 1
  | .fenced => 2

/-- The event MISMATCH: kind, index and both views (13 R518; 18 R685). -/
def State.logMismatch (s : State) (k : UnitKind) (n : Nat) (v : View) : State :=
  s.logEvent (unitPage k n) 3 2 0 n (([UnitKind.code k, n, v.owl.code, b2n v.beaverUp] : List Nat).map fun x => BitVec.ofNat 8 x)

/-- The tenants whose Front request runs on an engine: the lowest of the usable ones they lease. -/
def State.frontUsers (s : State) (u : Nat) : List (Fin 16) :=
  (allFin 16).filter fun t =>
    let f := (s.tenant t).search
    f.front ≠ .notRun && f.ended.isNone && (s.usableOf t .front).head? = some u

/-- A Front engine has left UP: the expansions of the tenants it served do not run (04 R186; 19 R724). -/
def State.frontLost (s : State) (l : List (Fin 16)) : State :=
  s.forEach l fun s t =>
    let f := (s.tenant t).search
    (s.endExpansion t 4 (f.front = .done)).endTask t f.frontTask codeOk

/-- The work of a unit that has stopped being usable (05 R224; 06 R263; 07 R290; 08 R329). -/
def State.workLost (s : State) (k : UnitKind) (n : Nat) (users : List (Fin 16)) : State :=
  match k with
  | .core => (s.coreLost n).segmentsLost n
  | .badger => s.engineLost n
  | .bear => s.bearLost n
  | .jay => s.jayLost n
  | .front => s.frontLost users

/-- The views of a unit changed: a unit that stops being usable is lost to its tenants, and a mismatch that begins is logged
(13 R514, R518, R520). -/
def State.setView (s : State) (k : UnitKind) (n : Nat) (f : View → View) : State :=
  match s.view k n with
  | none => s
  | some v =>
    let w := f v
    let users := if k = .front then s.frontUsers n else []
    let lost := v.usable && ! w.usable
    let s := s.updView k n fun _ => { w with joined := w.joined && ! lost }
    let s :=
      if lost then
        let s := s.forTenants fun s t =>
          if (s.tenant t).exists' && (s.unitsOf t k).contains n then (s.raise (tenantPage t) 4).noteTiming t 4 else s
        s.workLost k n users
      else s
    if w.mismatch && ! v.mismatch then s.logMismatch k n w else s

/-- At a tick, a unit whose reset has completed is UP for Beaver again, and every usable unit joins its tenants (13 R514, R515).
-/
def View.turn (v : View) : View :=
  let up := v.beaverUp || v.rejoin
  { v with beaverUp := up, rejoin := false, joined := v.owl == .up && up }

/-- DISPATCH_ACK_TIMEOUT (13 R515). -/
def State.ackTimeout (s : State) (k : UnitKind) (n : Nat) : State :=
  if s.held then s else s.setView k n fun v => { v with beaverUp := false }

/-- DISPATCH_ACK_TIMEOUT -/
def execDispatchAckTimeout (k : UnitKind) (n : Nat) (s : State) : Host.Outcome State Fault Refusal := done (s.ackTimeout k n)

/-! ### Unit resets (17 R647, R648; 19 R725) -/

/-- A unit's queues and work in hand cleared, at the write (17 R648). -/
def State.clearWork (s : State) (k : UnitKind) (n : Nat) : State :=
  match k with
  | .core => s.updCore n fun c => { c with ready := [], run := none, owner := none, steps := 0, busy := 0, entries := [] }
  | .badger => s.updEngine n fun e => { e with queue := [], current := none, spoiled := false, checked := 0, busy := 0 }
  | .bear => s.updBear n fun b => { b with solve := none }
  | .jay => s.updJay n fun j => { j with queue := [], run := none }
  | .front => s

/-- A unit's registers and store cleared. DESIGN CHOICE: as the reset completes; log 54 (17 R648). -/
def State.clearStore (s : State) (k : UnitKind) (n : Nat) : State :=
  match k with
  | .core => (s.updCore n fun c => { c with store := [] }).resetRegs (corePage n) 0x100 0x1000
  | .badger =>
    let s := s.forTenants fun s t =>
      (s.updTable t fun b => { b with clear := b.clear.filter fun i => (s.candBase t + i) % 16 ≠ n }).judgeImminent t
    s.resetRegs (enginePage n) 0x100 0x1000
  | _ => s

/-- A reset of a unit begins (17 R648). -/
def State.beginUnitReset (s : State) (k : UnitKind) (n : Nat) : State :=
  let s := s.setView k n fun v => { v with beaverUp := false, rejoin := false }
  (s.clearWork k n).updPower fun p => { p with unitBusy := some (k, n) }

/-- UNIT_RST with GO (17 R647). -/
def State.unitReset (s : State) (w : Writer) (kind index : Nat) : State :=
  if ! s.isCtl w then s.refuseWrite w 0x02 true
  else
    match s.power.unitBusy, kindOf kind with
    | none, some k => if index < s.unitCount k then s.beginUnitReset k index else s.recordDirect w 0x02 0x10C codeInvalid
    | _, _ => s.recordDirect w 0x02 0x10C codeInvalid

/-- UNIT_RST -/
def execUnitRst (w : Writer) (kind : BitVec 3) (index : BitVec 6) (s : State) : Host.Outcome State Fault Refusal :=
  done (s.unitReset w kind.toNat index.toNat)

/-- Owl firmware resets a unit as soon as no other unit reset runs (19 R725). -/
def State.owlUnitReset (s : State) (k : UnitKind) (n : Nat) : State :=
  if s.power.unitBusy.isNone then s.beginUnitReset k n
  else s.updPower fun p => { p with unitQueue := p.unitQueue ++ [(k, n)] }

/-- UNIT_RST_DONE (17 R648). -/
def State.unitResetDone (s : State) : State :=
  match s.power.unitBusy with
  | none => s
  | some (k, n) =>
    if s.held then s
    else
      let s := (s.clearStore k n).updView k n fun v => { v with rejoin := true }
      let s := (s.updPower fun p => { p with unitBusy := none, unitResult := codeOk }).raise 0x02 2
      match s.power.unitQueue with
      | [] => s
      | (k, n) :: r => (s.updPower fun p => { p with unitQueue := r }).beginUnitReset k n

/-- UNIT_RST_DONE -/
def execUnitRstDone (s : State) : Host.Outcome State Fault Refusal := done s.unitResetDone

end Sys2Proof.Machine
end

