-- ==== Sys2Proof/Machine/Commit.lean ====
section
/-! DEFINITION. Commit sets (12 R466 to R474, R488): joining, submission, judgement, application and discarding. -/
namespace Sys2Proof.Machine
open Sys2Proof

/-! ### The rules of committed values (12 R471) -/

/-- Two ranges of units overlap. -/
def overlap (a n b m : Nat) : Bool := a < b + m && b < a + n

/-- The conditions of a lease with ENABLE 1 as they stand (13 R499, R510): a broken one with its register's offset. -/
def State.leaseFlaws (s : State) (t : Fin 16) : List Nat :=
  let others := (allFin 16).filter fun u => u ≠ t && s.enabled u
  let all := t :: others
  let mask := s.coreMask t
  let n := (s.coresOf t).length
  let v := s.vcores t
  let fits (b : Bool) : Option Program → Bool
    | some p => (s.admission t b p.image).isNone
    | none => true
  let rows : List (Bool × Nat) :=
    [(! [32, 40, 48].contains v || s.chip.nCores < v, 0x110),
     (n = 0 || v < n || mask / 2 ^ s.chip.nCores ≠ 0 || others.any (fun u => (s.coresOf u).any fun c => bit mask c), 0x114),
     ((s.unitsOf t .badger).isEmpty || (s.unitsOf t .jay).isEmpty, 0x11C),
     (s.tagQuota t = 0 || 2048 < nsum (all.map s.tagQuota), 0x120),
     (s.slotQuota t = 0 || 4096 < s.slotQuota t || 4096 < nsum (all.map s.slotQuota), 0x120),
     (2048 < nsum (all.map s.tileShare), 0x124),
     (s.candBase t % 64 ≠ 0 || 1048576 < s.candBase t + s.candQuota t
        || others.any (fun u => overlap (s.candBase t) (s.candQuota t) (s.candBase u) (s.candQuota u)), 0x128),
     (s.candQuota t % 64 ≠ 0 || s.candQuota t < 8192, 0x12C),
     (s.dramSize t = 0 || s.chip.tableBase < s.dramBase t + s.dramSize t
        || others.any (fun u => overlap (s.dramBase t) (s.dramSize t) (s.dramBase u) (s.dramSize u)), 0x130),
     (bit (s.lease t 0x134) 4 && ! s.owl.board.twin, 0x134),
     (! fits false (s.tenant t).sched.slotA || ! fits true (s.tenant t).sched.slotB, 0x110)]
  (rows.filter (·.1)).map (·.2)

/-- Registers of the frame's period and budgets. -/
def timeRegs : List Nat := (0x10C :: (List.range 8).map (0x110 + 4 * ·)).map (regKey 0x03)
/-- Registers of the modes 14 R546 and 15 R575 combine. -/
def modeRegs : List Nat := [regKey 0x03 0x104, regKey 0x0B 0x100, regKey 0x0D 0x104, regKey 0x0D 0x10C]

/-- A loaded program declares a phase longer than its budget (01 R30). -/
def State.phaseTooLong (s : State) : Bool :=
  (allFin 16).any fun t =>
    let d := (s.tenant t).sched
    (d.slotA.toList ++ d.slotB.toList).any fun p => (phaseShorts p.image (s.vcores t) s.budget).any fun x => 0 < x.2

/-- The rule on period and budgets is broken (01 R30). -/
def State.timesBad (s : State) : Bool :=
  s.budget 7 < 300 || s.period < nsum ((List.range 8).map s.budget) + 100 || s.phaseTooLong

/-- A combination of modes is refused (14 R546; 15 R575). -/
def State.modesBad (s : State) : Bool :=
  let strap := s.cascade.strap
  let tree := bit (s.live 0x0D 0x10C) 3
  (s.role = 1 && (! strap || tree)) || (s.role = 2 && (strap || ! tree))
    || (s.det = 2 && (s.role = 0 || ! s.owl.board.twin || (s.role = 2 && s.tickSrc ≠ 2)))

/-- The registers, as keys, at which the state breaks a rule over several committed values that a change of the keys `touched`
concerns. A rule that names no one register is laid at the lowest changed register it covers. DESIGN CHOICE; log 55. -/
def State.ruleFails (s : State) (touched : List Nat) : List Nat :=
  let low (l : List Nat) : List Nat := (touched.filter l.contains).foldl (fun b k => match b with
    | [] => [k]
    | m :: _ => [min m k]) []
  let leases := (allFin 16).flatMap fun t =>
    if touched.any (fun k => k / 4096 = tenantPage t) && s.enabled t then (s.leaseFlaws t).map (regKey (tenantPage t)) else []
  let feet := (allFin 16).flatMap fun t =>
    if (s.foot t).class?.isNone then low [regKey 0x09 (perTenant t 0x00), regKey 0x09 (perTenant t 0x04)] else []
  (if s.timesBad then low timeRegs else []) ++ (if s.modesBad then low modeRegs else []) ++ leases ++ feet

/-! ### Application (12 R471; the pages' own rules) -/

/-- The state with changes in the live file. -/
def State.withChanges (s : State) (l : List (Nat × Word)) : State :=
  { s with regs := l.foldl (fun m x => filePut s.chip m (x.1 / 4096) (x.1 % 4096) x.2.toNat) s.regs }

/-- Every world discarded and every lattice image unloaded, at a new cell size (03 R137; 04 R185). -/
def State.newCellSize (s : State) : State :=
  s.forTenants fun s t => (s.updWorld t World.discard).updSearch t fun f => { f with image := none }

/-- What follows from changes just applied, `old` being the state before them. Under LOCKSTEP the adaptive policy is pinned to the level in
force when both first hold (14 R547). -/
def State.afterChanges (old s : State) (keys : List Nat) : State :=
  let moved (page off : Nat) : Bool := old.live page off ≠ s.live page off
  let s := s.forTenants fun s t =>
    if s.enabled t && ! old.enabled t then s.createTenant t
    else if old.enabled t && ! s.enabled t then s.deleteTenant t
    else s
  let s := if moved 0x06 0x100 then s.newCellSize else s
  let s := if moved 0x11 0x104 || moved 0x11 0x108 || moved 0x11 0x10C then (s.setLive 0x11 0x110 0).setLive 0x11 0x114 0 else s
  let s := s.forTenants fun s t =>
    if keys.any (fun k => regKey 0x0C (0x220 + 0x80 * t.val) ≤ k && k < regKey 0x0C (0x240 + 0x80 * t.val)) then
      s.updSpoor t fun p => { p with seeded := true }
    else s
  let s := if s.det ≠ 2 && old.det = 2 then s.updLynx fun x => { x with comparing := false, kept := [] } else s
  let pin := s.det = 2 && s.adaptive
  s.updLynx fun x => { x with pinned := pin, pinLevel := if pin && ! x.pinned then s.clock.current else x.pinLevel }

/-- Changes applied together (12 R471). -/
def State.applyChanges (s : State) (l : List (Nat × Word)) : State := s.afterChanges (s.withChanges l) (l.map (·.1))

/-! ### Judgement (12 R471, R488) -/

/-- The class of the register of a key. -/
def keyClass (k : Nat) : RegClass :=
  match regFind (k / 4096) (k % 4096) with
  | some (r, _) => r.cls
  | none => .a

/-- A change of a set lies in its stated range. -/
def State.changeOk (s : State) (x : Nat × Word) : Bool :=
  match regFind (x.1 / 4096) (x.1 % 4096) with
  | some (r, _) => rangeOk s.chip r x.2.toNat
  | none => false

/-- The pages of a set that its port no longer reaches, since they are absent or another's, each as its lowest changed register, or its
first where it holds no change. DESIGN CHOICE; log 55 (12 R488). -/
def State.lostPages (s : State) (p : Port) (pages : List Nat) (keys : List Nat) : List Nat :=
  (pages.filter fun g => ! s.mayRead p g).map fun g => match keys.filter fun k => k / 4096 = g with
    | [] => regKey g 0
    | k :: r => r.foldl min k

/-- The lowest of a list of keys. -/
def lowest : List Nat → Nat
  | [] => 0
  | k :: r => r.foldl min k

/-- The judgement of a set's changes: OK, or the code and the first register that failed (12 R471, R479, R488). -/
def State.judge (s : State) (p : Port) (pages : List Nat) (l : List (Nat × Word)) : Byte × Nat :=
  let bad := s.lostPages p pages (l.map (·.1)) ++ ((l.filter fun x => ! s.changeOk x).map (·.1)) ++ (s.withChanges l).ruleFails (l.map (·.1))
  let busy := (l.filter fun x => keyClass x.1 = .q && ! s.regQuiet (x.1 / 4096) (x.1 % 4096)).map (·.1)
  if bad ≠ [] then (codeInvalid, lowest bad) else if busy ≠ [] then (codeBusy, lowest busy) else (codeOk, 0)

/-- The result of a set in CFG_RESULT, CFG_WHERE and its pages' LAST_RESULT; a refusal raises CFG_REFUSED (12 R473, R479). -/
def State.recordSet (s : State) (p : Port) (id : Nat) (seq : Byte) (pages : List Nat) (code : Byte) (place : Nat) : State :=
  let s := s.updAttn fun a => pages.foldl (fun a g => a.setResult g code) a
  let s := s.updCfg p fun c =>
    { c with
      result := BitVec.ofNat 32 (code.toNat + id * 2 ^ 8 + seq.toNat * 2 ^ 16)
      place := if code = codeOk then 0 else BitVec.ofNat 32 (place % 4096 + place / 4096 * 2 ^ 16) }
  if code = codeOk then s else s.raise 0x00 (portIx p)

/-- A submitted set judged, and applied or refused (12 R471, R473). -/
def State.finishSet (s : State) (p : Port) (c : CfgSet) : State :=
  let s := s.updCfg p fun f => { f with submitted := f.submitted.filter fun d => d.order ≠ c.order }
  let j := if c.changes = [] then (codeOk, 0) else s.judge p c.pages c.changes
  let s := if j.1 = codeOk then s.applyChanges c.changes else { s with dirty := sunion s.dirty (c.changes.map (·.1)) }
  s.recordSet p c.id.toNat c.seq c.pages j.1 j.2

/-- Sets of both ports that meet `ok`, in the order of their submission, each judged against what those before it left
(12 R472). -/
def State.finishSets (s : State) (ok : CfgSet → Bool) : State :=
  let l := ((s.cfgA.submitted.map fun c => (Port.a, c)) ++ s.cfgB.submitted.map fun c => (Port.b, c)).filter fun x => ok x.2
  s.forEach (l.mergeSort fun x y => x.2.order ≤ y.2.order) fun s x => s.finishSet x.1 x.2

/-- SET_APPLY (12 R470): a pending set of a port is judged while no frame runs; at a tick the tick itself judges it. -/
def State.applyOldest (s : State) (p : Port) : State :=
  if s.held || ! s.stopped then s
  else match (s.cfg p).submitted with
    | [] => s
    | c :: _ => s.finishSet p c

/-- SET_APPLY -/
def execSetApply (p : Port) (s : State) : Host.Outcome State Fault Refusal := done (s.applyOldest p)

/-! ### Joining and submission (12 R466, R468, R469) -/

/-- The sequence of a port advanced; its new value. -/
def State.nextSeq (s : State) (p : Port) : State × Byte :=
  let q := (s.cfg p).seq + 1
  (s.updCfg p fun c => { c with seq := q }, q)

/-- A set refused at its COMMIT write (12 R466, R469). -/
def State.refuseSet (s : State) (p : Port) (id : Nat) (pages : List Nat) (page : Nat) : State :=
  let r := s.nextSeq p
  r.1.recordSet p id r.2 pages codeInvalid (regKey page 0x01C)

/-- A set submitted: its changes captured, and judged at once when all are Q-class or there are none (12 R468 to R470). -/
def State.submitSet (s : State) (p : Port) (id : Nat) (pages : List Nat) : State :=
  if 4 ≤ (s.cfg p).submitted.length then s.refuseSet p id pages (lowest pages)
  else
    let r := s.nextSeq p
    let s := r.1
    let keys := s.dirty.filter fun k => pages.contains (k / 4096)
    let ch := keys.map fun k => (k, BitVec.ofNat 32 (s.shadowOf (k / 4096) (k % 4096)))
    let c : CfgSet :=
      { id := BitVec.ofNat 4 id, seq := r.2, pages := pages, changes := ch, at' := s.now, order := s.setOrder }
    let s : State := { s with dirty := s.dirty.filter fun k => ! pages.contains (k / 4096), setOrder := s.setOrder + 1 }
    if keys.any fun k => keyClass k = .f then s.updCfg p fun f => { f with submitted := f.submitted ++ [c] } else s.finishSet p c

/-- Pages of an open set of a port. -/
def PortCfg.openPages (c : PortCfg) (id : Nat) : List Nat := (mfind c.openSets id).getD []

/-- A write of COMMIT by a port (12 R466, R489). -/
def State.commitWrite (s : State) (p : Port) (page id : Nat) (submit : Bool) : State :=
  if ! s.portUp p || ! s.mayRead p page then s
  else
    match s.openSetOf page with
    | none =>
      if id = 0 then s.submitSet p 0 [page]
      else
        let l := (s.cfg p).openPages id
        if 8 ≤ l.length then
          (s.updCfg p fun c => { c with openSets := mdel c.openSets id }).refuseSet p id (l ++ [page]) page
        else if submit then (s.updCfg p fun c => { c with openSets := mdel c.openSets id }).submitSet p id (sinsert l page)
        else s.updCfg p fun c => { c with openSets := mput c.openSets id (sinsert l page) }
    | some (q, k) =>
      if id = 0 then s.refuseSet p 0 [page] page
      else if q = p && k = id then
        if submit then
          (s.updCfg p fun c => { c with openSets := mdel c.openSets id }).submitSet p id ((s.cfg p).openPages id)
        else s
      else
        (s.updCfg p fun c => { c with openSets := mdel c.openSets id }).refuseSet p id ((s.cfg p).openPages id ++ [page]) page

/-- COMMIT_SINGLE -/
def execCommitSingle (p : Port) (page : BitVec 12) (s : State) : Host.Outcome State Fault Refusal :=
  done (s.commitWrite p page.toNat 0 true)
/-- COMMIT_JOIN -/
def execCommitJoin (p : Port) (page : BitVec 12) (id : BitVec 4) (s : State) : Host.Outcome State Fault Refusal :=
  done (s.commitWrite p page.toNat id.toNat false)
/-- COMMIT_SUBMIT -/
def execCommitSubmit (p : Port) (page : BitVec 12) (id : BitVec 4) (s : State) : Host.Outcome State Fault Refusal :=
  done (s.commitWrite p page.toNat id.toNat true)

/-! ### DISCARD (12 R467; 13 R493) -/

/-- The shadows of a page that a writer may write return to their live values. -/
def State.reloadShadows (s : State) (w : Writer) (page : Nat) : State :=
  let mine (k : Nat) : Bool :=
    k / 4096 = page && match regFind page (k % 4096) with
      | some (r, i) => r.cls ≠ .a && s.mayWrite w page r i
      | none => false
  let keys := ((s.shadow.map (·.1)) ++ s.regs.map (·.1)).filter mine
  let s := s.forEach keys fun s k => s.setShadow page (k % 4096) (s.live page (k % 4096))
  { s with dirty := s.dirty.filter fun k => ! mine k }

/-- A page leaves an open set of a port; an empty set is no longer open. -/
def PortCfg.leave (c : PortCfg) (page : Nat) : PortCfg :=
  { c with openSets := (c.openSets.map fun x => (x.1, x.2.filter (· ≠ page))).filter fun x => x.2 ≠ [] }

/-- A write of 1 to DISCARD by a port. -/
def State.discardPage (s : State) (p : Port) (page : Nat) : State :=
  if ! s.portUp p || ! s.mayRead p page then s
  else (s.reloadShadows (.port p) page).updCfg p fun c => c.leave page

/-- DISCARD -/
def execDiscard (p : Port) (page : BitVec 12) (s : State) : Host.Outcome State Fault Refusal := done (s.discardPage p page.toNat)

end Sys2Proof.Machine
end

