-- ==== Sys2Proof/Machine/Faults.lean ====
section
/-! DEFINITION. Package faults (19 R722), domain resets (16 R615; 17 R641, R642), the Owl domain's restart, and fences that Owl sets
(18 R679; 19 R725). -/
namespace Sys2Proof.Machine
open Sys2Proof

/-- A package fault: fetching stops, and every command that holds a tag completes with INTERNAL_ERROR (19 R722). -/
def State.packageFault (s : State) (f : PkgFault → PkgFault) : State :=
  let s := s.updFault f
  s.forTenants fun s t =>
    (s.completeAll t (s.tenant t).cmds codeInternal).updWorld t fun w => { w with jobs := [] }

/-- Bits of RESET_CAUSE added (17 R661). -/
def State.addCause (s : State) (k : Nat) : State :=
  s.updPower fun p => { p with cause := p.cause ||| BitVec.ofNat 32 (2 ^ k) }

/-- The code of a domain in DOMAIN and MUX_STUCK (16 R628). -/
def domainIx : Domain → Fin 5
  | .core => 0
  | .checker => 1
  | .fabric => 2
  | .owl => 3
  | .frameTimer => 4

/-- Owl's view of the units as fences stored in flash leave it (18 R679). -/
def Owl.viewOf (o : Owl) (k : UnitKind) (n : Nat) : OwlView := if o.fences.contains (k, n) then .fenced else .up

/-- The Owl domain resets: its firmware state goes, a session closes as at a package reset, and it boots again from ROM; the
mailboxes and the units waiting for a reset are firmware state. DEDUCED; log 57 (17 R641; 19 R739). -/
def State.owlDomainReset (s : State) : State :=
  let s := s.updOwl fun o => { o with boxes := Vector.replicate 4 Mailbox.reset, order := [], session := none }
  let s := (s.updPower fun p => { p with unitQueue := [] }).addCause 4
  s.logEvent 0xFFFF 1 1 0 0xFF (leBytes 4 s.power.cause.toNat)

/-- What is clocked in a logic domain cleared. The spec places the cores, Bear and Jay in the core domain, Badger in the checker's
and the mesh in the fabric's; nothing else is cleared. DESIGN CHOICE; log 56 (17 R641). -/
def State.clearDomain (s : State) (d : Domain) : State :=
  match d with
  | .core =>
    let cores := s.cores.map fun (c : Core) => { Core.reset with view := c.view }
    let bears := s.bears.map fun (b : BearUnit) => { b with solve := none }
    let jays := s.jays.map fun (j : JayUnit) => { j with queue := [], run := none }
    let s : State := { s with cores := cores, bears := bears, jays := jays }
    s.forEach (List.range 48) fun s c => s.resetRegs (corePage c) 0x100 0x1000
  | .checker =>
    let engines := s.engines.map fun (e : Engine) => { Engine.reset with view := e.view }
    let s : State := { s with engines := engines }
    let s := s.forTenants fun s t => s.updTable t fun b => { b with clear := [] }
    s.forEach (List.range 16) fun s e => s.resetRegs (enginePage e) 0x100 0x1000
  | _ => s

/-- The reset of a domain by a forced switch (16 R614, R615; 17 R641, R642). -/
def State.domainReset (s : State) (d : Domain) : State :=
  match d with
  | .owl => s.owlDomainReset
  | _ =>
    let s := (s.clearDomain d).addCause 5
    s.packageFault fun f => { f with domainReset := true, fabric := f.fabric || d = .fabric }

/-- Owl fences a unit: its view is FENCED, the fence is kept in flash, and the change is raised and logged with the channel's number,
0xFF for the firmware itself (18 R679, R685, R707). -/
def State.fenceUnit (s : State) (k : UnitKind) (n channel : Nat) : State :=
  let old := s.owl.fences.contains (k, n)
  let s := s.updOwl fun o => if old then o else { o with fences := o.fences ++ [(k, n)] }
  let s := s.setView k n fun v => { v with owl := .fenced }
  let s := s.logEvent (unitPage k n) 4 1 0 n (([UnitKind.code k, n, channel] : List Nat).map fun x => BitVec.ofNat 8 x)
  if old then s else s.raise 0x0F 4

/-- Owl lifts a fence (13 R516, R522; 18 R679). Before the boot has brought the units up, the unit is DOWN; log 21. -/
def State.unfenceUnit (s : State) (k : UnitKind) (n channel : Nat) : State :=
  let old := s.owl.fences.contains (k, n)
  let s := s.updOwl fun o => { o with fences := o.fences.filter (· ≠ (k, n)) }
  let s := s.setView k n fun v => { v with owl := if v.owl ≠ .fenced then v.owl else if s.isReady then .up else .down }
  let s := s.logEvent (unitPage k n) 5 1 0 n (([UnitKind.code k, n, channel] : List Nat).map fun x => BitVec.ofNat 8 x)
  if old then s.raise 0x0F 4 else s

end Sys2Proof.Machine
end

