-- ==== Sys2Proof/Machine/Clock.lean ====
section
/-! DEFINITION. Clocks (16): sources, multiplexers, relocks of the root PLL and level changes, loss of the reference, the frequency
meter and the FIO trim. -/
namespace Sys2Proof.Machine
open Sys2Proof

/-! ### Domains and multiplexers (16 R611 to R615) -/

/-- The five domains, in DOMAIN order. -/
def allDomains : List Domain := [.core, .checker, .fabric, .owl, .frameTimer]

/-- A switch of every domain to a clock begins: 1 FIO, 2 the holding clock, 3 the root. -/
def Clock.switchAll (c : Clock) (v : BitVec 2) : Clock :=
  { c with switches := (allDomains.filter fun d => c.sel.at' (domainIx d) ≠ v).map fun d => (d, v) }

/-- A domain's switch ended on a clock. -/
def Clock.endSwitch (c : Clock) (d : Domain) (on : BitVec 2) : Clock :=
  { c with sel := c.sel.put (domainIx d) on, switches := c.switches.filter fun x => x.1 ≠ d }

/-- The core domain's time on the holding clock noted, at a switch of it at `now` (16 R619). -/
def Clock.noteHold (c : Clock) (now : Nat) (on : BitVec 2) : Clock :=
  { c with
    holdSpans := match c.holdSince with | some a => c.holdSpans ++ [(a, now)] | none => c.holdSpans
    holdSince := if on = 2 then some now else none }

/-- A domain's switch ended: LOAD counts the core cycles before it, and the time on the holding clock is noted (10 R400; 16 R619). -/
def State.endSwitch (s : State) (d : Domain) (on : BitVec 2) : State :=
  if d = .core then s.accrue.updClock fun c => (c.endSwitch d on).noteHold s.now on else s.updClock fun c => c.endSwitch d on

/-- The root PLL's output is stable and in lock (SRC_STATUS.ROOT_LOCK). -/
def Clock.rootLocked (c : Clock) : Bool := c.stable.getLsbD 4

/-! ### Level changes (16 R616, R620, R621) -/

/-- A relock begins: the domains go to the holding clock (16 R616). TIMING.LEVEL takes note (14 R531; 16 R619). -/
def State.beginRelock (s : State) (v : BitVec 2) : State :=
  let s := s.updClock fun c =>
    { c.switchAll 2 with relock := some ⟨v, .toHolding, s.now⟩, heldTarget := none, deferred := none }
  s.updFrame fun f => { f with levelAt := some s.now }

/-- A level requested, whatever its cause (16 R616, R620, R621). One that names the level in force takes back a deferred change. DESIGN
CHOICE; log 141. -/
def State.requestLevel (s : State) (v : BitVec 2) : State :=
  let s := s.updClock fun c => { c with target := v }
  if s.clock.relock.isSome then s.updClock fun c => { c with heldTarget := some v }
  else if ! s.clock.rootLocked then s
  else if v = s.clock.current then s.updClock fun c => { c with deferred := none }
  else if s.frame.inFrame && s.deadlineAt 6 ≤ s.now + 400 then s.updClock fun c => { c with deferred := some v }
  else s.beginRelock v

/-- A relock ends: CURRENT takes the target, and a held target that differs is requested (16 R616, R621, R628). -/
def State.endRelock (s : State) (r : Relock) : State :=
  let s := s.updClock fun c =>
    { c with
      current := r.target, relock := none, heldTarget := none, relocks := min 0xFFFF (c.relocks + 1)
      lastUs := min 0xFFFF (s.now - r.startUs) }
  let s := (s.updFrame fun f => { f with levelAt := some s.now }).raise 0x01 3
  s

/-- The relock's next step, once no switch is in progress (16 R616). -/
def State.stepRelock (s : State) : State :=
  match s.clock.relock with
  | none => s
  | some r =>
    if s.clock.switches ≠ [] then s
    else
      match r.step with
      | .toHolding =>
        s.updClock fun c =>
          { c with relock := some { r with step := .locking }, lockSeen := false, stable := c.stable &&& ~~~ (0x10#7) }
      | .returning =>
        match s.clock.heldTarget with
        | some v => let s := s.endRelock r; if v = r.target then s else s.requestLevel v
        | none => s.endRelock r
      | _ => s

/-- A write of LEVEL.TARGET (16 R616, R621; 17 R652, R657): ignored with CONFIG_INVALID while pinned, under ADAPTIVE, and below
the throttle's level while a throttle is active. -/
def State.writeTarget (s : State) (w : Writer) (v : BitVec 2) : State :=
  if ! s.isCtl w then s.refuseWrite w 0x01 (s.clock.target ≠ v)
  else if s.lynx.pinned || s.adaptive || (s.power.throttle && v.toNat < s.power.throttleLevel.toNat) then
    s.recordDirect w 0x01 0x104 codeInvalid
  else s.requestLevel v

/-- LEVEL_CHANGE_REQUEST -/
def execLevelChangeRequest (w : Writer) (v : BitVec 2) (s : State) : Host.Outcome State Fault Refusal := done (s.writeTarget w v)

/-- MUX_SWITCH (16 R612). -/
def State.muxSwitch (s : State) (d : Domain) : State :=
  if s.held then s
  else
    match s.clock.switches.find? fun x => x.1 = d with
    | none => s
    | some x => (s.endSwitch d x.2).stepRelock

/-- MUX_SWITCH -/
def execMuxSwitch (d : Domain) (s : State) : Host.Outcome State Fault Refusal := done (s.muxSwitch d)

/-- MUX_WATCHDOG (16 R613 to R615): the switch is forced, to the new clock where it was seen toggling and to the holding clock
otherwise, with the domain's reset. -/
def State.muxWatchdog (s : State) (d : Domain) (toggled : Bool) : State :=
  if s.held then s
  else
    match s.clock.switches.find? fun x => x.1 = d with
    | none => s
    | some x =>
      let i := (domainIx d).val
      let s := (s.endSwitch d (if toggled then x.2 else 2)).updClock fun c =>
        { c with stuck := c.stuck ||| BitVec.ofNat 5 (2 ^ i), stuckCount := sat16 c.stuckCount }
      let s := (s.raise 0x01 0).logEvent 0x01 6 2 0 0xFF [BitVec.ofNat 8 i]
      (s.domainReset d).stepRelock

/-- MUX_WATCHDOG -/
def execMuxWatchdog (d : Domain) (toggled : Bool) (s : State) : Host.Outcome State Fault Refusal := done (s.muxWatchdog d toggled)

/-! ### PLLs and sources (16 R610, R611) -/

/-- The bit of a source in SRC_EN, by its bit in SRC_STATUS: XTA, XTB, FIO, CLKIN, ROOT, DRAM, LINK (16 R628). -/
def enableBit : Nat → Nat
  | 3 => 6
  | 4 => 3
  | 5 => 4
  | 6 => 5
  | n => n

/-- A source of SRC_STATUS is enabled. -/
def State.sourceOn (s : State) (b : Nat) : Bool := bit s.srcEn (enableBit b)

/-- A source may still become stable: enabled, not failed, and the reference not lost (16 R610, R622). -/
def State.mayStart (s : State) (b : Nat) : Bool :=
  s.sourceOn b && ! s.clock.fail.getLsbD b && ! s.clock.stable.getLsbD b && ! s.held

/-- A source marked stable. -/
def Clock.offer (c : Clock) (b : Nat) : Clock := { c with stable := c.stable ||| BitVec.ofNat 7 (2 ^ b) }

/-- PLL_LOCK_DETECT (16 R616): of the root PLL, after enabling or reprogramming. -/
def State.lockDetect (s : State) : State :=
  if s.clock.refLost || ! s.mayStart 4 then s
  else
    match s.clock.relock with
    | some r =>
      if r.step = .locking then s.updClock fun c => { c with relock := some { r with step := .locked }, lockSeen := true } else s
    | none => s.updClock fun c => { c with lockSeen := true }

/-- PLL_LOCK_DETECT -/
def execPllLockDetect (s : State) : Host.Outcome State Fault Refusal := done s.lockDetect

/-- The root PLL is stable: a relock returns, or, at the boot, every domain switches to the root at LEVEL.TARGET (16 R611, R616).
-/
def State.rootStable (s : State) : State :=
  if s.clock.refLost || ! s.mayStart 4 || ! s.clock.lockSeen then s
  else
    match s.clock.relock with
    | some r =>
      if r.step = .locked then
        (s.updClock fun c => ({ c with relock := some { r with step := .returning } }.offer 4).switchAll 3).stepRelock
      else s
    | none => s.updClock fun c => ({ c with current := c.target }.offer 4).switchAll 3

/-- PLL_STABLE (16 R610). -/
def State.pllStable (s : State) (p : Pll) : State :=
  match p with
  | .root => s.rootStable
  | .dram => if s.mayStart 5 && ! s.clock.refLost then s.updClock fun c => c.offer 5 else s
  | .link => if s.mayStart 6 && ! s.clock.refLost then s.updClock fun c => c.offer 6 else s

/-- PLL_STABLE -/
def execPllStable (p : Pll) (s : State) : Host.Outcome State Fault Refusal := done (s.pllStable p)

/-- The bit of a source in SRC_STATUS. -/
def sourceIx : ClockSource → Nat
  | .xta => 0
  | .xtb => 1
  | .fio => 2
  | .clkin => 3

/-- SOURCE_STABLE (16 R610). -/
def State.sourceStable (s : State) (x : ClockSource) : State :=
  if s.mayStart (sourceIx x) then s.updClock fun c => c.offer (sourceIx x) else s

/-- SOURCE_STABLE -/
def execSourceStable (x : ClockSource) (s : State) : Host.Outcome State Fault Refusal := done (s.sourceStable x)

/-- SOURCE_START_TIMEOUT (16 R610): the source's FAIL bit. The time counts from the source's enabling, so a relock of the root PLL,
which was stable before it, has none. DEDUCED; log 140. -/
def State.startTimeout (s : State) (b : Nat) : State :=
  if s.mayStart b && ! (decide (b = 4) && s.clock.relock.isSome) then s.updClock fun c => { c with fail := c.fail ||| BitVec.ofNat 7 (2 ^ b) } else s

/-- SOURCE_START_TIMEOUT -/
def execSourceStartTimeout (b : Fin 7) (s : State) : Host.Outcome State Fault Refusal := done (s.startTimeout b.val)

/-- CLOCK.MODE.MODE: 0 LOCAL_XTA, 1 LOCAL_CLKIN, 2 REF_ONLY (16 R602). -/
def State.clockMode (s : State) : Nat := bits (s.live 0x01 0x100) 1 0

/-- A source, by its bit in SRC_STATUS, is in use by a PLL, a multiplexer or the real-time clock (16 R611). The DRAM and link PLLs
feed none of these. -/
def State.sourceInUse (s : State) (b : Nat) : Bool :=
  let pll := bits s.srcEn 5 3 ≠ 0
  let sel (v : BitVec 2) : Bool := s.clock.sel.toList.contains v || s.clock.switches.any fun x => x.2 = v
  match b with
  | 0 => s.clockMode = 0 && pll
  | 1 => s.clockMode ≠ 2
  | 2 => sel 1 || (s.clockMode ≠ 2 && sel 2)
  | 3 => (s.clockMode ≠ 0 && pll) || s.clockMode = 2
  | 4 => sel 3 || s.clock.relock.isSome
  | _ => false

/-- SRC_EN_WRITE (16 R610, R611): a write that would disable a source in use is ignored with CONFIG_INVALID; a source enabled
starts afresh. -/
def State.writeSrcEn (s : State) (w : Writer) (v : Nat) : State :=
  if ! s.isCtl w then s.refuseWrite w 0x01 (s.srcEn ≠ v % 128)
  else
    let off := (List.range 7).filter fun b => s.sourceOn b && ! bit v (enableBit b)
    if off.any s.sourceInUse then s.recordDirect w 0x01 0x108 codeInvalid
    else
      let gone := BitVec.ofNat 7 (nsum (off.map (2 ^ ·)))
      let s := s.updClock fun c =>
        { c with
          stable := c.stable &&& ~~~ gone, fail := c.fail &&& ~~~ gone
          lockSeen := c.lockSeen && ! off.contains 4 }
      s.setLive 0x01 0x108 (v % 128)

/-- SRC_EN_WRITE -/
def execSrcEnWrite (w : Writer) (v : Word) (s : State) : Host.Outcome State Fault Refusal := done (s.writeSrcEn w v.toNat)

/-- REF_LOST (16 R622): a package fault; the PLLs lose lock and every domain goes to FIO/4, which DOMAIN reports as the holding
clock in either mode. DESIGN CHOICE; log 59. -/
def State.loseReference (s : State) : State :=
  if s.held || s.clock.refLost || ! s.sourceOn 4 then s
  else
    let s := s.updClock fun c =>
      { c.switchAll 2 with refLost := true, lockSeen := false, stable := c.stable &&& 0x0F#7 }
    (s.logEvent 0x01 7 3 0 0xFF []).packageFault fun f => { f with refLost := true }

/-- REF_LOST -/
def execRefLost (s : State) : Host.Outcome State Fault Refusal := done s.loseReference

/-! ### The frequency meter (16 R623) -/

/-- A write of METER_CTRL (16 R623, R628): in reference-only mode only CLKIN is a reference. START abandons a measurement that
runs. -/
def State.writeMeter (s : State) (w : Writer) (v : Nat) : State :=
  if ! s.isCtl w then s.refuseWrite w 0x01 (bit v 16)
  else
    let ok : Bool := 8 ≤ bits v 4 0 && bits v 4 0 ≤ 24 && bits v 11 8 ≤ 10 && bits v 13 12 ≠ 3 && ! (s.refOnly && bits v 13 12 ≠ 0)
    if ! ok then s.recordDirect w 0x01 0x120 codeInvalid
    else
      let go := bit v 16
      s.updClock fun c =>
        { c with
          meterN := bits v 4 0, meterTarget := bits v 11 8, meterRef := bits v 13 12
          meterBusy := c.meterBusy || go, meterDone := c.meterDone && ! go }

/-- METER_START -/
def execMeterStart (w : Writer) (v : Word) (s : State) : Host.Outcome State Fault Refusal :=
  done (s.writeMeter w (v.toNat ||| 0x10000))

/-- The meter's target has stopped (16 R623). -/
def State.targetStopped (s : State) (k : Nat) : Bool :=
  match k with
  | 0 => ! s.sourceOn 4
  | 1 => s.clock.sel.at' 0 = 0
  | 2 => s.clock.sel.at' 2 = 0
  | 3 => s.clock.sel.at' 3 = 0
  | 4 => ! s.sourceOn 3
  | 5 => ! s.sourceOn 0
  | 6 => ! s.sourceOn 1
  | 7 => ! s.sourceOn 2
  | 9 => ! s.sourceOn 5
  | 10 => ! s.sourceOn 6
  | _ => false

/-- METER_DONE (16 R623): the count is latched, saturating; a stopped target counts 0. -/
def State.endMeter (s : State) (n : Nat) : State :=
  if s.held || ! s.clock.meterBusy then s
  else
    let n := if s.targetStopped s.clock.meterTarget then 0 else min 0xFFFFFFFF n
    s.updClock fun c => { c with meterBusy := false, meterDone := true, meterCount := n }

/-- METER_DONE -/
def execMeterDone (n : Nat) (s : State) : Host.Outcome State Fault Refusal := done (s.endMeter n)

/-! ### The FIO trim (16 R624 to R626) -/

/-- An auto-trim begins. -/
def Clock.startTrim (c : Clock) : Clock := { c with trimBusy := true, trimConverged := false, trimFail := false, trimIters := 0 }

/-- A write of TRIM_CTRL (16 R625, R628). -/
def State.writeTrimCtrl (s : State) (w : Writer) (v : Nat) : State :=
  if ! s.isCtl w then s.refuseWrite w 0x01 (bit v 4)
  else if bits v 1 0 = 3 then s.recordDirect w 0x01 0x11C codeInvalid
  else
    s.updClock fun c =>
      let c := { c with trimRef := BitVec.ofNat 2 v, trimPeriodic := bit v 5 }
      if bit v 4 then c.startTrim else c

/-- TRIM_START -/
def execTrimStart (w : Writer) (v : Word) (s : State) : Host.Outcome State Fault Refusal := done (s.writeTrimCtrl w (v.toNat ||| 0x10))

/-- A quotient rounded to nearest, ties away from zero. -/
def roundAway (n : Int) (d : Nat) : Int :=
  let q := (2 * n.natAbs + d) / (2 * d)
  if n < 0 then - (q : Int) else q

/-- The expected count of a gate (16 R625). -/
def State.trimExpected (s : State) : Nat :=
  match s.clock.trimRef.toNat with
  | 0 => 2097152
  | 1 => 200 * s.period
  | _ => 1638400

/-- TRIM_ITERATION (16 R625). -/
def State.trimStep (s : State) (n : Nat) : State :=
  let c := s.clock
  if s.held || ! c.trimBusy || n = 0 then s
  else
    let k : Int := (c.trimCode : Int) + roundAway (2000 * ((s.trimExpected : Int) - (n : Int))) n
    let code := if k < 0 then 0 else min 1023 k.toNat
    let iters := c.trimIters + 1
    let same : Bool := code = c.trimCode
    s.updClock fun c =>
      { c with
        trimCode := code, trimIters := iters, trimConverged := same, trimFail := ! same && decide (8 ≤ iters)
        trimBusy := ! same && decide (iters < 8) }

/-- TRIM_ITERATION -/
def execTrimIteration (n : Nat) (s : State) : Host.Outcome State Fault Refusal := done (s.trimStep n)

/-- TRIM_REF_TIMEOUT (16 R626). -/
def State.trimTimeout (s : State) : State :=
  if s.held || ! s.clock.trimBusy then s
  else (s.updClock fun c => { c with trimBusy := false, trimFail := true }).raise 0x01 4

/-- TRIM_REF_TIMEOUT -/
def execTrimRefTimeout (s : State) : Host.Outcome State Fault Refusal := done s.trimTimeout

end Sys2Proof.Machine
end

