-- ==== Sys2Proof/Machine/Deadlines.lean ====
section
/-! DEFINITION. The deadlines of a frame (01 R29 to R40, R42 to R46, R53 to R55): cuts, the values latched at each deadline, what
PUBLISH decides, the frame completion fixed at D_7, and the actions of the guard (01 R41, R63). -/
namespace Sys2Proof.Machine
open Sys2Proof

/-! ### Cuts of tasks (01 R36; 10 R384) -/

/-- Cores running a part of a task. -/
def State.coresRunning (s : State) (t : Fin 16) (i : Nat) : List Nat :=
  (List.range 48).filter fun c =>
    match (s.core c).run with
    | some r => r.part.tenant = t && r.part.task = i
    | none => false

/-- A task of the phase cut with its record in the trace, and retired with PHASE_CUT (10 R384). -/
def State.cutOff (s : State) (t : Fin 16) (k i : Nat) : State := (s.noteCut t k i).finishTask t i codePhaseCut

/-- A COMPUTE task at its deadline: parts not started leave their lists, and running parts stop at their next tile boundary (10 R384;
01 R36). -/
def State.cutCompute (s : State) (t : Fin 16) (k i : Nat) : State :=
  let s := s.dropParts t fun p => p.task ≠ i
  match s.coresRunning t i with
  | [] => s.cutOff t k i
  | l =>
    let s := s.noteCut t k i
    let s := s.updSched t fun d => d.updTask i fun x => { x with status := codePhaseCut, partsLeft := l.length }
    s.forEach l fun s c => s.updCore c fun x => { x with run := x.run.map fun r => { r with stop := true } }

/-- A started ENGINE task at its deadline; Jay's and Bear's requests are cut in their own engines (10 R384). A Front that has begun
stops and its expansion ends (04 R161, R166). -/
def State.cutEngineTask (s : State) (t : Fin 16) (k : Nat) (x : Task) : State :=
  match trHome ((s.tenant t).sched.rec' x.index) % 8 with
  | 0 =>
    let f := (s.tenant t).search
    if f.frontTask ≠ x.index || f.front = .notRun then s
    else
      let s := if f.ended.isSome then s else s.endExpansion t 4 (f.front = .done)
      let s := s.updSearch t fun f => { f with front := if f.front = .requested then .notRun else f.front }
      s.cutOff t k x.index
  | 1 => s
  | 2 => s
  | _ => s.cutOff t k x.index

/-- A task of phase `k` at D_k, where it is ready or started (01 R32, R36; 10 R384). A waiting WAIT has this deadline as its own
(10 R388, R389) and expires after the cuts. A ready task that is no COMPUTE task can start no more. DEDUCED; log 26. -/
def State.cutTask (s : State) (t : Fin 16) (k : Nat) (x : Task) : State :=
  let kind := trKind ((s.tenant t).sched.rec' x.index)
  match x.st with
  | .ready => if kind = 0 then s.cutCompute t k x.index else s.cutOff t k x.index
  | .started =>
    if kind = 0 then s.cutCompute t k x.index
    else if kind = 1 then s.cutEngineTask t k x
    else s
  | _ => s

/-- The tasks of phase `k` of every tenant at D_k. -/
def State.cutTasks (s : State) (k : Nat) : State :=
  s.forTenants fun s t =>
    let s := s.pollDrains t
    let d := (s.tenant t).sched
    s.forEach (d.tasks.filter fun x => trPhase (d.rec' x.index) = k) fun s x =>
      match (s.tenant t).sched.task x.index with
      | some y => s.cutTask t k y
      | none => s

/-! ### Cuts of checks (01 R39; 05 R215) -/

/-- Checks of phase `k` not begun by D_k stay PENDING, out of every queue; the stop checks in progress end at D_6. A tenant without a
frame program reports no cut (01 R43). -/
def State.cutChecks (s : State) (k : Nat) : State :=
  let keep (x : Entry) : Bool := checkPhase x.id ≠ k
  let s := if k = 6 then s else s.forTenants fun s t => if (s.tenant t).live && (s.tenant t).hasProgram && s.unbegun t k then s.cut t k else s
  let engines := s.engines.map fun (e : Engine) =>
    { e with queue := e.queue.filter keep, current := if k = 6 then e.current.filter keep else e.current }
  let s : State := { s with engines := engines }
  s.retryStalled.forTenants State.pollDrains

/-! ### Values latched at a deadline -/

/-- The converter's counts, latched at D_2 (04 R180). -/
def State.latchFox (s : State) (t : Fin 16) : State :=
  let f := (s.tenant t).search
  (s.setLive 0x07 (perTenant t 0x18) (f.converted % 2 ^ 13 + f.foxClipped % 2 ^ 13 * 2 ^ 16)).setLive 0x07 (perTenant t 0x1C)
    (min 0xFFFF f.foxDiscarded + min 0xFFFF f.foxOver * 2 ^ 16)

/-- Expansion still open at D_3 ends: NOT_RUN without an image or with LAT_EN 0, otherwise DEADLINE (04 R161, R166, R186). -/
def State.endSearch (s : State) (t : Fin 16) : State :=
  let n := s.tenant t
  if ! n.live || ! n.hasProgram || n.search.ended.isSome then s
  else
    let off := n.search.image.isNone || ! bit (s.wave t 0x0C) 24
    s.endExpansion t (if off then 5 else 4) (n.search.front = .done)

/-- The search space of the tenant is exhausted, at D_6 (04 R179). The stops are built and not emitted, and do not count. DESIGN CHOICE; log
114. -/
def State.spaceExhausted (s : State) (t : Fin 16) : Bool :=
  let n := s.tenant t
  (n.search.ended = some 0 || n.search.image.isNone) && n.out.cutMap &&& 0x1C = 0
    && n.table.cands.all fun p => p.1 < 2 || p.2.verdict ≠ 0

/-- EXHAUSTED, latched at D_6 (04 R179, R181). -/
def State.latchExhausted (s : State) (t : Fin 16) : State :=
  let e := s.spaceExhausted t
  let s := s.updSearch t fun f => { f with exhausted := e }
  s.setLive 0x08 (perTenant t 0x18) (bits (s.wave t 0x18) 30 0 + b2n e * 2 ^ 31)

/-- VERDICT codes of the stops as T_STOPS shows them: a stop whose check was due and has no verdict counts as HIT (01 R39; 05 R221).
-/
def Table.stopCodes (b : Table) : Nat × Nat :=
  let hh := if b.verdict 0 = 0 then 2 else b.verdict 0
  (hh, if hh = 1 then b.verdict 1 else if b.verdict 1 = 0 then 2 else b.verdict 1)

/-- FIRST_HIT of an entry; 0 where none is written. -/
def Table.firstHit (b : Table) (i : Nat) : Nat := match b.cand i with | some c => c.firstHit.toNat | none => 0

/-- The CHECK registers of a tenant, latched at D_6 (05 R221). -/
def State.latchChecks (s : State) (t : Fin 16) : State :=
  let b := (s.tenant t).table
  let m (n : Nat) := n % 2 ^ 21
  let v := if (b.cand 0).isSome then b.stopCodes else (0, 0)
  let s := (s.setLive 0x09 (perTenant t 0x0C) (m b.checked)).setLive 0x09 (perTenant t 0x10) (m b.nClear)
  let s := (s.setLive 0x09 (perTenant t 0x14) (m b.nHit)).setLive 0x09 (perTenant t 0x18) (m b.nUnsure)
  s.setLive 0x09 (perTenant t 0x1C) (v.1 + v.2 * 4 + b.firstHit 0 * 2 ^ 8 + b.firstHit 1 * 2 ^ 16)

/-- E_CHECKED and E_BUSY of every engine, latched at D_6 (05 R222). -/
def State.latchEngines (s : State) : State :=
  s.forEach (List.range 16) fun s e =>
    let k := bget Engine.reset s.engines e
    let s := (s.setLive (enginePage e) 0x10C (min 0xFFFFFFFF k.checked)).setLive (enginePage e) 0x110 (min 0xFFFFFFFF k.busy)
    s.updEngine e fun k => { k with checked := 0, busy := 0 }

/-- The registers of a core latched at D_7 (08 R327; 10 R400). -/
def State.latchCore (s : State) (c : Nat) : State :=
  let k := s.core c
  let base := 0x800 + 0x20 * c
  let s := (s.setLive (corePage c) 0x10C (min 0xFFFFFFFF k.steps)).setLive (corePage c) 0x110 (min 0xFFFFFFFF k.busy)
  let s := s.forEach (List.range 4) fun s i =>
    s.setLive 0x04 (base + 8 + 4 * i) (bget 0 k.hist (2 * i) + bget 0 k.hist (2 * i + 1) * 2 ^ 16)
  let s := (s.setLive 0x04 (base + 0x18) (min 0xFFFFFFFF k.load)).setLive 0x04 (base + 0x1C) (k.parts + k.steals * 2 ^ 16)
  s.updCore c fun k => { k with steps := 0, busy := 0, load := 0, parts := 0, steals := 0, hist := Vector.replicate 8 0 }

/-- The registers of every core of the grade, latched at D_7. -/
def State.latchCores (s : State) : State := s.forEach (List.range s.chip.nCores) State.latchCore

/-- T_WAITS, latched at D_7 (10 R403). -/
def State.latchWaits (s : State) (t : Fin 16) : State :=
  let d := (s.tenant t).sched
  s.setLive 0x04 (perTenant t 0x14) (d.waitTimeouts + d.nCancelled * 2 ^ 16)

/-! ### What PUBLISH decides (01 R43, R46, R53; 07 R285, R286) -/

/-- What a frame publishes: result code, STOP_KIND and the candidate. -/
structure Decision where
  result : Byte
  stopKind : Nat
  plan : Option Nat
deriving DecidableEq, Repr

/-- No CLEAR bit of the tenant is set at D_6 other than those of the stops, and no word of its bitmap reads as clear after an SRAM
error (01 R46 row 3; 19 R726). -/
def Table.noneClear (b : Table) : Bool := b.lost = [] && b.clear.all fun i => i < 2

/-- The plan and the result of a tenant's frame (01 R43, R46, R53). -/
def State.decision (s : State) (t : Fin 16) : Decision :=
  let n := s.tenant t
  let b := n.table
  if ! n.hasProgram then ⟨codeOk, 0, none⟩
  else
    match s.selected t with
    | some i => ⟨if n.out.cutMap = 0 then codeOk else codePhaseCut, 0, some i⟩
    | none =>
      let clear := s.hedgehogClear t || b.verdict 1 = 1
      let code :=
        if ! clear then codeImminent
        else if n.out.aborted && n.sel.finalResult.isNone then codeFallback
        else if n.sel.finalResult.isSome && n.search.exhausted && b.noneClear then codeNoPathProven
        else codeNoPathInTime
      if s.hedgehogClear t then ⟨code, 1, some 0⟩ else ⟨code, 2, some 1⟩

/-- The selected plan's record is poisoned: the read by PUBLISH is a program fault and the plan cannot be used. DEDUCED; log 60 (19
R729). -/
def State.readPlan (s : State) (t : Fin 16) : State :=
  match s.selected t with
  | some i =>
    if s.candPoisoned t i then
      (s.updSel t fun v => { v with finalResult := none }).programFault t codeMemoryUe
    else s
  | none => s

/-- PUBLISH of a tenant, between D_6 and D_7 (01 R53): its plan is decided. The completion is fixed at D_7, since it carries the pin's
state there (01 R42, R44). -/
def State.publish (s : State) (t : Fin 16) : State :=
  let n := s.tenant t
  if s.held || s.inFault || ! n.live || ! s.frame.inFrame || s.frame.passed ≠ 7 || n.out.fixed then s
  else
    let s := s.readPlan t
    let d := s.decision t
    s.updOut t fun o => { o with fixed := true, result := d.result, planId := d.plan }

/-- PUBLISH -/
def execPublish (t : Fin 16) (s : State) : Host.Outcome State Fault Refusal := done (s.publish t)

/-! ### The frame completion (01 R42, R44; 11 R441, R444) -/

/-- The decision of a tenant at D_7: PUBLISH's, with a cut of P7 still counted, or made now. -/
def State.finalDecision (s : State) (t : Fin 16) : Decision :=
  let o := (s.tenant t).out
  if ! o.fixed then s.decision t
  else
    match o.planId with
    | none => ⟨o.result, 0, none⟩
    | some 0 => ⟨o.result, 1, some 0⟩
    | some 1 => ⟨o.result, 2, some 1⟩
    | some i => ⟨if o.cutMap = 0 then codeOk else codePhaseCut, 0, some i⟩

/-- OUTCOME of a frame completion (11 R441). -/
def State.outcomeByte (s : State) (t : Fin 16) (d : Decision) : Byte :=
  BitVec.ofNat 8 (d.stopKind + b2n d.plan.isSome * 4 + b2n s.frame.substituted * 8 + b2n (s.tenant t).out.cutForced * 16
    + b2n s.frame.masterLost * 32 + b2n s.frame.safePin * 64)

/-- The plan a published record becomes: the basis of the next stops, in effect from the next tick (01 R41, R47; 05 R210). -/
def State.planOf (s : State) (t : Fin 16) (c : Cand) : Plan :=
  let n := s.tenant t
  if c.kind = 2 then
    { rec' := c, epochUs := 0, fresh := true, prims := n.table.stopPrims, decel := c.planDecel.toNat, outside := c.outside,
      speedQ := n.table.stopSpeed, arcQ := n.table.stopArc }
  else
    { rec' := c, epochUs := 0, fresh := true, prims := match n.search.image with | some i => i.prims | none => [],
      decel := n.search.limits.decelComfort.toNat, outside := c.outside, speedQ := (0, 1), arcQ := (0, 1) }

/-- A link-local frame of this package (15 R559). -/
def State.localFrame (s : State) (kind : Byte) (addr aux : Nat) (data : List Byte) : LinkFrame :=
  LinkFrame.signed
    { kind := kind, ttl := 0, dest := 0, src := s.pkgId, len := BitVec.ofNat 16 data.length, tag := 0, stat := 0, attnSeq := 0
      reserved := 0, addr := BitVec.ofNat 64 addr, aux := BitVec.ofNat 32 aux, crc := 0, payload := data }

/-- The witness records of a source's completion, in the rings of the tenants of this package that witness it (13 R510, R511). -/
def State.writeWitness (s : State) (t : Fin 16) (d : FrameDone) : State :=
  s.forTenants fun s w =>
    let l := s.lease w 0x134
    if ! bit l 7 || bit l 4 || bits l 3 0 ≠ t.val || ! (s.tenant w).exists' then s
    else
      let slot := d.frame.toNat % 2 ^ bits (s.lease w 0x140) 2 0
      let b := recordBytes d
      (s.updTenant w fun n => { n with witnessRing := mput n.witnessRing slot b }).streamRecord slot b

/-- The witness records of a source's completion for the tenants of the twin that witness it, in WITNESS frames over link 0 (13 R510,
R511; 15 R559, R560). Which tenants of the twin witness it, and the sizes of their rings, stand in the twin's registers, and the spec does not
say how the source learns them: both are free. DESIGN CHOICE; log 70. -/
def State.sendWitness (s : State) (d : FrameDone) : State :=
  if ! s.owl.board.twin then s
  else
    let mask := (Config.freeWord s.draws).toNat
    s.draw.forTenants fun s w =>
      if ! bit mask w.val then s
      else
        let slot := d.frame.toNat % 2 ^ ((Config.freeWord s.draws).toNat % 7)
        let b := recordBytes d
        let s := s.draw.streamRecord slot b
        let f := s.localFrame 0x15 slot w.val b
        let f : LinkFrame :=
          { f with
            ttl := BitVec.ofNat 8 (s.live 0x0D 0x114), dest := (s.link 0).peer, stat := s.stat none codeOk, attnSeq := s.attnSeq none }
        if s.linkDead 0 then s.dropRoute else s.transmit 0 (LinkFrame.signed f)

/-- The frame completion of a live tenant fixed at D_7, with its digest and its witness records (01 R42; 14 R536; 13 R511). -/
def State.fixFrame (s : State) (t : Fin 16) : State :=
  let d := s.finalDecision t
  let o := s.outcomeByte t d
  let c := match d.plan with | some i => (s.tenant t).table.cand i | none => none
  let bs := match c with | some c => c.bytes | none => []
  let dig := s.digestOf t d.result o bs
  let f : FrameDone :=
    { frame := s.frame.number, result := d.result, cutMap := (s.tenant t).out.cutMap, outcome := o
      planId := match d.plan with | some i => BitVec.ofNat 32 i | none => 0xFFFFFFFF
      slot := BitVec.ofNat 16 (s.pubSlot t s.frame.number d.plan.isSome), entry := 0
      record := if bs.isEmpty then [] else bs ++ digestBytes dig }
  let s := s.chainDigest t dig
  let s := match c with
    | some c => let p := s.planOf t c; s.updTable t fun b => { b with lastPlan := some p }
    | none => s
  let s := s.updOut t fun x => { x with fixed := true, result := d.result, planId := d.plan }
  let f := { f with entry := s.fixedEntry t f }
  ((s.fixDone t f).writeWitness t f).sendWitness f

/-- A tenant whose completion cannot be fixed makes SAFE_STATE assert, where SAFE_MASK selects it and it has a program (01 R43, R55).
-/
def State.cannotFix (s : State) (t : Fin 16) : State :=
  if (s.tenant t).hasProgram && bit (s.live 0x03 0x140) t.val then s.assertSafe else s

/-- A backlog that overflows: the completion cannot be fixed, and the tenant is held with cause BACKLOG, its reset falling in this
guard (11 R444; 13 R496, R525). -/
def State.overflow (s : State) (t : Fin 16) : State :=
  (s.updTenant t fun n => { n with state := .held, cause := 2, holdPending := false }).resetTenant t

/-- What comes before any completion at D_7: a plan not yet decided is read, and a tenant whose completion cannot be fixed asserts
SAFE_STATE, so that every completion carries the pin as it is at D_7 (01 R44, R55; 19 R729). -/
def State.beforeFix (s : State) (t : Fin 16) : State :=
  let n := s.tenant t
  if ! n.live then s
  else if s.inFault || 16 ≤ n.backlog.length then s.cannotFix t
  else if n.out.fixed then s
  else s.readPlan t

/-- D_7 of a tenant's completion (01 R42, R55). -/
def State.endTenantFrame (s : State) (t : Fin 16) : State :=
  let n := s.tenant t
  if ! n.live || s.inFault then s
  else if 16 ≤ n.backlog.length then s.overflow t
  else s.fixFrame t

/-! ### The guard (01 R40, R41, R63) -/

/-- Every task still present is aborted, its slot freed (01 R40). The abort's code is PHASE_CUT, since the spec names none. DESIGN
CHOICE; log 61. -/
def State.endTasks (s : State) (t : Fin 16) : State :=
  if (s.tenant t).sched.tasks = [] then (s.dropWork t).updSched t fun d => { d with running := false, deadEdges := 0, rings := [] }
  else s.abortTasks t codePhaseCut

/-- What does not cross the tick (01 R41): dynamic slices, agents and the seal; the candidates; Front's field and the converter's
rows; the measurement block; the working state of Jay and Bear. END_REASON stands until the tick (04 R181). -/
def Tenant.discardFrame (n : Tenant) : Tenant :=
  { n with
    world := { n.world with dyn := [], dynCollapsed := [], agents := [], marked := [], view := none }
    search :=
      { n.search with
        front := .notRun, unblocked := [], cost := [], costDefault := 0xFFFF, nodes := [], emitted := 0, resume := none, fox := []
        hostNext := 128 }
    table := { n.table with cands := [], stalled := [], stopPrims := [] }
    solver := { n.solver with meas := none, issued := [], slots := [] }
    sel := Selection.reset
    sched := { n.sched with shape := none } }

/-- A byte of DRAM lies in a region that the running program declares retained (01 R41). -/
def Sched.retains (d : Sched) (a : Nat) : Bool :=
  match d.image with
  | some p => p.retained.any fun r => r.1 ≤ a && a < r.1 + r.2
  | none => false

/-- The results the frame's tasks have written outside the retained regions are discarded: their bytes are free values. DESIGN CHOICE; log
126 (01 R41). -/
def State.discardResults (s : State) (t : Fin 16) : State :=
  let d := (s.tenant t).sched
  let s := s.forEach d.results fun s r =>
    s.forEach (List.range r.2) fun s i =>
      if d.retains (r.1 + i) then s else (s.dramWrite (r.1 + i) [Config.freeByte s.draws]).draw
  s.updSched t fun d => { d with results := [] }

/-- Holds and resets performed in the guard (13 R496, R504, R524). -/
def State.guardReset (s : State) (t : Fin 16) : State :=
  let n := s.tenant t
  if n.state = .resetting || (n.state = .active && n.holdPending) then s.resetTenant t else s

/-- A remote witness record that has not arrived by the witness tenant's D_7 (13 R513, R523): none is due at the first D_7 at which the
tenant witnesses. Whether the source had a frame completion since the last D_7, so that one is due, or was HELD, the twin alone knows:
free. DESIGN CHOICE; log 135. -/
def State.missWitness (s : State) (t : Fin 16) : State :=
  let n := s.tenant t
  let l := s.lease t 0x134
  let on := n.live && bit l 7 && bit l 4
  let s := s.updTenant t fun n => { n with witnessing := on, witnessed := false }
  if ! on || ! n.witnessing || n.witnessed then s
  else
    let due := bit (Config.freeWord s.draws).toNat 0
    let s := s.draw
    if due then
      let s := s.updTenant t fun n => { n with witnessNext := n.witnessNext + 1, witnessMissed := n.witnessMissed ++ [n.witnessNext] }
      let v := bits (s.lease t 0x144) 31 16
      (s.setLive (tenantPage t) 0x144 (sat16 v * 2 ^ 16)).raise (tenantPage t) 7
    else s

/-- A CAL sent on a link that is UP (15 R577). -/
def State.sendCal (s : State) (l : Nat) : State :=
  if (s.link l).st = .up then s.transmit l (s.localFrame 0x23 0 0 []) else s

/-- The guard's actions (01 R41, R63; 13 R504; 15 R577; 19 R727). They take the whole 40 µs. DESIGN CHOICE; log 53. -/
def State.guardActions (s : State) : State :=
  let s := (s.forTenants State.endTasks).forTenants State.discardResults
  let s := s.forTenants State.guardReset
  let s := s.forTenants fun s t => s.updTenant t Tenant.discardFrame
  let engines := s.engines.map fun (e : Engine) => { e with queue := [], current := none, spoiled := false }
  let bears := s.bears.map fun (b : BearUnit) => { b with solve := none }
  let jays := s.jays.map fun (j : JayUnit) => { j with queue := [], run := none }
  let s : State := { s with engines := engines, bears := bears, jays := jays }
  let s := s.updCascade fun c => { c with colls := [] }
  let s := s.updDram fun d => { d with writeBack := Vector.replicate 4 [] }
  let s := s.forEach (List.range s.chip.nLinks) State.sendCal
  s.updFrame fun f => { f with guardUntil := s.now + 40 }

/-- Everything at D_7 after the cuts (01 R40 to R42, R55). A frozen package keeps every store and register (14 R544). -/
def State.endFrame (s : State) : State :=
  let s := (s.forTenants State.beforeFix).forTenants State.endTenantFrame
  let s := s.updFrame fun f => { f with safeLast := f.safeNow, safeNow := false }
  if s.fault.frozen then s
  else
    let s := s.forTenants State.missWitness
    let s := s.forTenants State.latchWaits
    let cores := s.cores.map s.haltCore
    let s : State := { s with cores := cores.map fun k => { k with entries := [] } }
    (settle s.latchCores).guardActions

/-! ### D_k (01 R29, R36) -/

/-- What D_k does beside its cuts: the seals that D_1 forces, commands that take effect from D_0, and the values latched. -/
def State.atDeadline (s : State) (k : Nat) : State :=
  match k with
  | 0 => s.forTenants State.applyWaiting
  | 1 => s.forTenants fun s t => if s.sealDue t then s.sealWorld t else s
  | 2 => s.forTenants State.latchFox
  | 3 => s.forTenants State.endSearch
  | 4 => s.cutChecks 4
  | 5 => (s.cutChecks 5).forTenants State.latchSolver
  | 6 =>
    let s := s.cutChecks 6
    let s := s.forTenants fun s t => if (s.tenant t).live then ((s.latchExhausted t).latchChecks t).latchSelect t else s
    s.latchEngines.forTenants State.judgeImminent
  | _ => s.endFrame

/-- The work of phase `k` cut at D_k: the flags that its retirements set come first, then the waits of that moment, then the WAITs whose
deadline it is (10 R384, R387, R389). -/
def State.cutPhase (s : State) (k : Nat) : State :=
  let s := (((s.hold.cutTasks k).cutSelects k).cutSolves k).unhold
  s.forTenants fun s t => s.expireWaits t s.now (s.tenant t).sched.tasks.length

/-- D_k passes: time reaches it, the phase's work is cut, and the values of the deadline latch (01 R36; 10 R384). In a package whose
engines are halted only D_7 acts (14 R544; 17 R658). The watermarks are evaluated before and after (12 R475). -/
def State.passDeadline (s : State) (k : Nat) : State :=
  let s := (settle s).advanceTo (s.deadlineAt k)
  let s := s.updFrame fun f => { f with passed := k + 1 }
  if s.halted then (if k = 7 then s.endFrame else s) else settle ((s.cutPhase k).atDeadline k)

end Sys2Proof.Machine
end

