-- ==== Sys2Proof/Machine/Frame.lean ====
section
/-! DEFINITION. The tick (01 R18 to R27, R63; 15 R578, R579): how a frame boundary is produced and judged, what opens a frame, and the
controls of the FRAME page (01 R24, R25, R56). -/
namespace Sys2Proof.Machine
open Sys2Proof

/-! ### What a tick changes (01 R41, R47; 04 R155; 05 R212, R216; 06 R236; 13 R496, R514) -/

/-- The performance level that waits for the tick (16 R620). The spacing of a throttle's steps counts from here (17 R665). -/
def State.startDeferred (s : State) : State :=
  match s.clock.deferred with
  | none => s
  | some v =>
    let s := s.updClock fun c => { c with deferred := none }
    let s := if s.power.throttle || s.power.restoring then s.updPower fun p => { p with stepAt := s.now } else s
    if v = s.clock.current || s.clock.relock.isSome || ! s.clock.rootLocked then s else s.beginRelock v

/-- The adaptive policy's step at a tick (17 R653). -/
def State.adapt (s : State) : State :=
  let p := s.live 0x02 0x114
  let cap := bits (s.live 0x02 0x118) 15 0
  let l := s.clock.current.toNat
  let slow := bits p 13 12
  if ! s.adaptive || s.power.throttle || (s.power.restoring && s.clock.current ≠ s.power.restoreLevel) || s.lynx.pinned then s
  else if cap < s.power.last then
    if l < slow then s.requestLevel (BitVec.ofNat 2 (l + 1)) else if l = slow then s.raise 0x02 4 else s
  else if 8 ≤ s.power.underCap && bits p 5 4 < l then s.requestLevel (BitVec.ofNat 2 (l - 1))
  else s

/-- Package power of the frame that ends: LAST is the mean of its samples, PEAK the highest mean of ten, and the count of frames below
85 % of the cap goes on (17 R653, R661). A frame without a sample leaves them. DEDUCED; log 62. -/
def State.closePower (s : State) : State :=
  let cap := bits (s.live 0x02 0x118) 15 0
  let mean (l : List Nat) : Nat := nsum l / max 1 l.length
  s.updPower fun p =>
    let last := if p.samples = [] then p.last else mean p.samples
    let peak := if p.samples = [] then p.peak
      else ((chunks 10 (p.samples.length / 10 + 1) p.samples).map mean).foldl max 0
    { p with last := last, peak := peak, samples := [], underCap := if 100 * last < 85 * cap then p.underCap + 1 else 0 }

/-- The inputs that belong to the frame that begins: the measurement, the shape and what its digest covers (06 R238; 08 R319; 14 R537). -/
def Tenant.takeInputs (n : Tenant) : Tenant :=
  { n with
    solver := { n.solver with meas := n.solver.measNext, measNext := none }
    sched := { n.sched with shape := n.sched.shapeNext, shapeNext := none }
    spoor := { n.spoor with inputs := n.spoor.inputsNext, inputsNext := [] } }

/-- A tenant's side of a new frame: its plan takes effect, its CLEAR bits clear, the images and blocks that waited apply, and its
engine list is fixed (01 R47; 04 R155, R183; 05 R212, R216; 06 R236). -/
def Tenant.startFrame (n : Tenant) (tickAt : Nat) (engines : List (Fin 16)) (units : Word) : Tenant :=
  { n with
    table :=
      { n.table with
        cands := [], clear := [], lost := [], stalled := [], checked := 0, nClear := 0, nHit := 0, nUnsure := 0
        engineList := engines
        lastPlan := n.table.lastPlan.map fun p => if p.fresh then { p with fresh := false, epochUs := tickAt } else p }
    search :=
      { n.search with
        image := match n.search.imageNext with | some x => some x.2 | none => n.search.image
        limits := match n.search.imageNext with | some x => x.2.limits | none => n.search.limits
        imageNext := none, front := .notRun, generated := 0, expanded := 0, emitted := 0, ended := none, resume := none
        converted := 0, foxClipped := 0, foxDiscarded := 0, foxOver := 0, hostNext := 128, exhausted := false }
    solver :=
      { n.solver with
        model := match n.solver.modelNext with | some x => x.2 | none => n.solver.model
        modelNext := none, solved := 0, notConverged := 0, illPosed := 0, other := 0
        cycles := 0 }
    sel := Selection.reset
    out := Outcome.reset
    unitsWord := units }

/-- A tenant's frame started (13 R520 T_UNITS). -/
def State.startTenant (s : State) (t : Fin 16) : State :=
  if ! (s.tenant t).exists' then s
  else
    let engines := (allFin 16).filter fun e => (s.usableOf t .badger).contains e.val
    let units := BitVec.ofNat 32 (s.unitsWord t)
    s.updTenant t fun n => n.startFrame s.frame.tickAt engines units

/-- Every unit's views at a tick (13 R514, R515). -/
def State.turnUnits (s : State) : State := s.forEach s.allUnits fun s u => s.updView u.1 u.2 View.turn

/-- Tenants' transitions at a tick; an ENABLE that the tick's own sets applied waits for the next (13 R496). -/
def State.turnTenants (s : State) (was : List (Fin 16)) : State :=
  s.forTenants fun s t =>
    s.updTenant t fun n =>
      if was.contains t then n.turn else { n.turn with enabling := n.enabling, state := if n.state = .none then .none else n.turn.state }

/-- The tenants whose ENABLE has applied and waits for a tick. -/
def State.enablingTenants (s : State) : List (Fin 16) := (allFin 16).filter fun t => (s.tenant t).enabling

/-- Delays measured on the links take effect (15 R577). -/
def State.turnLinks (s : State) : State :=
  let turn (k : Link) : Link := match k.delayNext with
    | some d => { k with delay := d, delayNext := none }
    | none => k
  { s with links := s.links.map turn }

/-- The opening of a frame, once the guard actions of the one before are complete (01 R63; 12 R472): commit sets first, then the
levels, tenants and units, the exchange of 10 R395, and the stops. A frozen package does none of it (14 R544). -/
def State.openFrame (s : State) : State :=
  if s.fault.frozen then s.updFrame fun f => { f with opening := false }
  else
    let was := s.enablingTenants
    let s := s.finishSets fun c => c.at' + 2 ≤ s.frame.tickAt
    let s := settle s.startDeferred.adapt
    let s := ((s.turnTenants was).turnUnits).turnLinks
    let s := s.forTenants State.startTenant
    let s := s.forTenants fun s t => if (s.tenant t).exists' then s.exchange t else s
    let s := s.updFrame fun f => { f with opening := false }
    let s := if s.det = 0 then s.forTenants State.applyWaiting else s
    let s := s.forTenants fun s t => let h := s.configHash t; s.updSpoor t fun p => { p with configHash := h }
    settle (s.forTenants State.buildStops)

/-! ### The frame boundary (01 R25 to R27; 14 R531, R538, R541, R545) -/

/-- What frame 0 of a run restarts: every Spoor chain, and the comparison of a lock-step pair, which needs link 0 trained (14 R538,
R545). -/
def State.startRun (s : State) : State :=
  let s := s.forTenants fun s t => s.updSpoor t fun p => { p with prev := 0 }
  if s.det = 2 then
    let up : Bool := (s.link 0).st = .up
    s.updLynx fun x => { x with comparing := up, partnerLost := ! up }
  else s

/-- A frame boundary, now (01 R25 to R27, R63). The number is the master's on a member (01 R26). -/
def State.beginFrame (s : State) (subst : Bool) (number : Option (BitVec 64)) : State :=
  let f := s.frame
  let s := if f.fresh then s.startRun else s
  let irregular := f.fresh || s.now ≠ f.tickAt + s.period
  let s := s.updFrame fun f =>
    { f with
      inFrame := true, fresh := false, number := number.getD (if f.fresh then 0 else f.number + 1), seq := f.seq + 1, passed := 0
      tickAt := s.now, prevTickAt := if f.seq = 0 then s.now else f.tickAt, substituted := subst, irregular := irregular
      masterLost := s.cascade.masterLost, ftickOut := true, aligned := none, alignedSubst := false, opening := true
      ranSinceReset := true, refreshes := 0, fetchTurn := 0 }
  let s := s.updLynx fun x =>
    { x with
      window := 0, kept := [], sigs := Vector.replicate 76 0, bytesNow := Vector.replicate 76 0
      bytesBefore := Vector.replicate 76 0 }
  let s := ((s.updClock fun c => { c with holdSpans := [] }).closePower).forTenants fun s t => s.updTenant t Tenant.takeInputs
  if s.now < s.frame.guardUntil then s else s.openFrame

/-- The guard actions that held a new frame back are complete (01 R63; 13 R505); its TIMING says so (14 R531 bit 2). -/
def State.finishOpening (s : State) : State :=
  let s := (s.advanceTo s.frame.guardUntil).openFrame
  s.forTenants fun s t => s.noteTiming t 2

/-- Deadlines up to D_k that have not passed pass in their order. -/
def State.passUpTo (s : State) (k : Nat) : State :=
  let s := if s.frame.opening then s.finishOpening else s
  s.forEach (List.range (k + 1)) fun s j => if s.frame.inFrame && s.frame.passed = j then s.passDeadline j else s

/-- PHASE_DEADLINE of `k` (01 R29, R36): the deadlines before it, where they have not passed, and D_k. -/
def State.reachDeadline (s : State) (k : Nat) : State :=
  if s.held || ! s.frame.inFrame || k < s.frame.passed then s else s.passUpTo k

/-- PHASE_DEADLINE -/
def execPhaseDeadline (k : Fin 8) (s : State) : Host.Outcome State Fault Refusal := done (s.reachDeadline k.val)

/-- WAIT_TIMEOUT (10 R389): time comes to a waiting WAIT's deadline, whatever else falls due by then taking place; a deadline that is D_k of
its phase passes with D_k. -/
def State.timeoutWait (s : State) (t : Fin 16) (i : Nat) : State :=
  match (s.tenant t).sched.task i with
  | some k =>
    if k.st ≠ .waiting || ! s.delayRuns t then s
    else if s.mayExpire t k then s.advanceTo k.deadlineUs
    else s.reachDeadline (trPhase ((s.tenant t).sched.rec' i))
  | none => s

/-- WAIT_TIMEOUT -/
def execWaitTimeout (t : Fin 16) (i : Nat) (s : State) : Host.Outcome State Fault Refusal := done (s.timeoutWait t i)

/-- GUARD_ACTIONS_COMPLETE (01 R63; 13 R505). -/
def State.completeGuard (s : State) : State :=
  if s.held then s else if s.frame.opening then s.finishOpening else s.advanceTo s.frame.guardUntil

/-- GUARD_ACTIONS_COMPLETE -/
def execGuardActionsComplete (s : State) : Host.Outcome State Fault Refusal := done s.completeGuard

/-- The frame in progress brought to the end of its deadlines, for a boundary now (01 R62). -/
def State.closeFrame (s : State) : State := if s.frame.inFrame then s.passUpTo 7 else s

/-! ### Sources of the tick (01 R19 to R24; 15 R578, R579) -/

/-- TICK_ALIGN in whole µs at the current level (15 R578). -/
def State.alignUs (s : State) : Nat := bits (s.live 0x0D 0x110) 15 0 / s.coreMhz
/-- How long before the boundary the tick edge of the source lies: on a master TICK_ALIGN, elsewhere nothing (15 R578). -/
def State.leadUs (s : State) : Nat := if s.role = 1 then s.alignUs else 0
/-- The expected time of the next tick of the source (01 R20, R21, R64). -/
def State.expectedAt (s : State) : Nat := s.frame.tickAt + s.period - s.leadUs
/-- The expected time of the next external tick: a period after the last one, also while the boundary that one begins is still to come
(01 R21; 15 R578, R579). -/
def State.nextExpected (s : State) : Nat :=
  match s.frame.aligned with
  | some (T, _) => T + s.period - s.leadUs
  | none => s.expectedAt
/-- TICK_WINDOW. -/
def State.windowUs (s : State) : Nat := bits (s.live 0x03 0x108) 6 0

/-- The child links of the cascade (15 R592 TREE). -/
def State.childLinks (s : State) : List Nat :=
  (List.range s.chip.nLinks).filter fun l => bit (s.live 0x0D 0x10C) (8 + l)

/-- A TICK frame (15 R560). It carries TTL like a routed frame, so that members count hops. DEDUCED; log 43. -/
def State.tickFrame (s : State) (ttl : Byte) (number : BitVec 64) (acc period : Nat) : LinkFrame :=
  LinkFrame.signed { s.localFrame 0x21 number.toNat acc (leBytes 4 period) with ttl := ttl, src := if s.role = 1 then s.pkgId else s.masterId }

/-- The number of the frame that the next boundary begins. -/
def State.nextNumber (s : State) : BitVec 64 := if s.frame.fresh then 0 else s.frame.number + 1

/-- A tick edge of the selected source: a master sends its TICK and starts its frame TICK_ALIGN later; any other package starts it now
(15 R578). -/
def State.tickEdge (s : State) (subst : Bool) : State :=
  if s.role = 1 then
    let f := s.tickFrame (BitVec.ofNat 8 (s.live 0x0D 0x114)) s.nextNumber 0 s.period
    let s := s.forEach s.childLinks fun s l => s.transmit l f
    if s.alignUs = 0 then s.closeFrame.beginFrame subst none
    else s.updFrame fun x => { x with aligned := some (s.now + s.alignUs, none), alignedSubst := subst }
  else s.closeFrame.beginFrame subst none

/-- A new tick may still come: RUN is 1 and no boundary is already due (01 R25). -/
def State.wantsTick (s : State) : Bool := ! s.held && s.frame.run && s.frame.aligned.isNone

/-- FRAME_TIMER_TICK (01 R20, R25): PERIOD after the previous tick; the first tick falls on the next frame-timer edge. Where RUN is
written 1 again while the last frame of the run before is in progress, that frame runs to its end, and frame 0 starts where its next tick
was due. DESIGN CHOICE; log 109. -/
def State.timerTick (s : State) : State :=
  if ! s.wantsTick || s.tickSrc ≠ 0 then s
  else if s.frame.inFrame then
    let due := s.expectedAt
    let s := if s.leadUs = 0 then s.closeFrame else s
    (s.advanceTo due).tickEdge false
  else if s.frame.fresh then (s.advanceTo (s.now + 1)).tickEdge false
  else s

/-- FRAME_TIMER_TICK -/
def execFrameTimerTick (s : State) : Host.Outcome State Fault Refusal := done s.timerTick

/-- How an external tick is judged (01 R21, R22, R24). -/
inductive Arrival where
  | accepted | early | ignored
deriving DecidableEq, Repr

/-- The judgement of an external tick that arrives at `T` (01 R21 to R25). One that comes before its window is early also in the last frame
of a run, or while a boundary already accepted is still to come. One that comes after its window finds the substitute taken, and is ignored
here. -/
def State.judgeArrival (s : State) (T : Nat) : Arrival :=
  if s.held then .ignored
  else if ! s.frame.inFrame then (if s.wantsTick && s.frame.fresh then .accepted else .ignored)
  else if s.wantsTick && s.frame.resync && s.deadlineAt 7 ≤ T then .accepted
  else if T + s.windowUs < s.nextExpected then .early
  else if s.wantsTick && T ≤ s.nextExpected + s.windowUs then .accepted
  else .ignored

/-- EARLY_COUNT advanced (01 R22). -/
def State.countEarly (s : State) : State :=
  let v := s.live 0x03 0x13C
  s.setLive 0x03 0x13C (sat16 (bits v 15 0) + bits v 31 16 * 2 ^ 16)

/-- RESYNC used by an accepted tick at or after D_7 (01 R24). -/
def State.useResync (s : State) (T : Nat) : State :=
  if s.frame.resync && s.frame.inFrame && s.deadlineAt 7 ≤ T then s.updFrame fun f => { f with resync := false } else s

/-- FTICK_IN (01 R19, R21, R22, R24; 20 R754, R775). -/
def State.ftickIn (s : State) : State :=
  if s.tickSrc ≠ 1 then s
  else
    match s.judgeArrival s.now with
    | .accepted => (s.useResync s.now).tickEdge false
    | .early => s.countEarly
    | .ignored => s

/-- FTICK_IN -/
def execFtickIn (s : State) : Host.Outcome State Fault Refusal := done s.ftickIn

/-- MASTER_LOST declared: collectives in progress complete with it, and the frame in progress carries it (15 R589, R590). A ready
task that a collective held counts for TIMING bit 6; log 38. -/
def State.declareLost (s : State) : State :=
  if s.cascade.masterLost then s
  else
    let s := s.updCascade fun c => { c with masterLost := true, colls := [] }
    let s := s.updFrame fun f => { f with masterLost := f.masterLost || f.inFrame }
    s.forEach (List.range 4) fun s u =>
      match (s.jay u).run with
      | some r => if r.waiting then s.failRun u codeMasterLost else s
      | none => s

/-- SUBSTITUTE_TICK (01 R23; 15 R589, R590): the window ends without an external tick. A package that selects the cascade without being
a member receives no tick at all, so its first is substituted too (14 R546). DEDUCED; log 63. -/
def State.substituteTick (s : State) : State :=
  let first := ! s.frame.inFrame && s.frame.fresh && s.tickSrc = 2 && s.role ≠ 2
  if ! s.wantsTick || s.tickSrc = 0 || ! (s.frame.inFrame || first) then s
  else
    let due := if s.frame.inFrame then s.expectedAt else s.frame.expected
    let s := if s.leadUs = 0 then s.closeFrame else s
    let s := s.advanceTo (due + s.windowUs)
    let v := s.live 0x03 0x13C
    let s := (s.setLive 0x03 0x13C (bits v 15 0 + sat16 (bits v 31 16) * 2 ^ 16)).raise 0x03 0
    let s := if s.tickSrc = 2 && s.role = 2 then s.declareLost else s
    s.tickEdge true

/-- SUBSTITUTE_TICK -/
def execSubstituteTick (s : State) : Host.Outcome State Fault Refusal := done s.substituteTick

/-- ALIGNED_FRAME_BOUNDARY (15 R578, R579, R580): the boundary that is due is taken. -/
def State.alignedBoundary (s : State) : State :=
  match s.frame.aligned with
  | none => s
  | some (T, number) =>
    if s.held || ! s.frame.run then s
    else
      let sub := s.frame.alignedSubst
      (s.closeFrame.advanceTo T).beginFrame sub number

/-- ALIGNED_FRAME_BOUNDARY -/
def execAlignedFrameBoundary (s : State) : Host.Outcome State Fault Refusal := done s.alignedBoundary

/-- FTICK_OUT_FALL (01 R27): 1 µs after the boundary. -/
def State.ftickOutFall (s : State) : State :=
  if s.held || ! s.frame.ftickOut then s
  else (s.advanceTo (s.frame.tickAt + 1)).updFrame fun f => { f with ftickOut := false }

/-- FTICK_OUT_FALL -/
def execFtickOutFall (s : State) : Host.Outcome State Fault Refusal := done s.ftickOutFall

/-! ### RUN, RESYNC and the last frame (01 R24, R25, R66; 12 R470; 13 R496) -/

/-- A write of FRAME.CTRL.RUN (01 R25, R26, R66; 10 R390; 14 R545; 15 R589). The count of frames restarts; a frame still in progress keeps
its number (log 109). -/
def State.setRunning (s : State) (on : Bool) : State :=
  if on then
    if s.frame.run then s
    else
      let s := s.updFrame fun f =>
        { f with
          run := true, fresh := true, timed := true, runAt := s.now, expected := s.now + 1, number := if f.inFrame then f.number else 0 }
      (s.updCascade fun c => { c with noMark := 0 }).updLynx fun x => { x with partnerLost := false }
  else s.updFrame fun f => { f with run := false, fresh := false, resync := false, aligned := none, alignedSubst := false }

/-- RUN -/
def execRun (w : Writer) (on : Bool) (s : State) : Host.Outcome State Fault Refusal :=
  done (if s.ctlReaches w 0x03 then s.setRunning on else s.refuseWrite w 0x03 (s.frame.run ≠ on))

/-- A write of 1 to FRAME.CTRL.RESYNC (01 R24, R66): with RUN 0 there is no frame to end, and it arms nothing. DEDUCED; log 64. -/
def State.armResync (s : State) : State := if s.frame.run then s.updFrame fun f => { f with resync := true } else s

/-- RESYNC -/
def execResync (w : Writer) (s : State) : Host.Outcome State Fault Refusal :=
  done (if s.ctlReaches w 0x03 then s.armResync else s.refuseWrite w 0x03 true)

/-- LAST_FRAME_END (01 R25; 12 R470; 13 R496): the guard of the frame in which RUN was cleared ends where the next tick would have
fallen; pending sets and due transitions take place. -/
def State.endLastFrame (s : State) : State :=
  if s.held || s.frame.run || ! s.frame.inFrame then s
  else
    let s := s.closeFrame
    let s := s.advanceTo (s.frame.tickAt + s.period)
    let was := s.enablingTenants
    let s := s.updFrame fun f => { f with inFrame := false, opening := false }
    if s.fault.frozen then s else (s.finishSets fun _ => true).turnTenants was

/-- LAST_FRAME_END -/
def execLastFrameEnd (s : State) : Host.Outcome State Fault Refusal := done s.endLastFrame

/-! ### SAFE_STATE (01 R56; 17 R643) -/

/-- A write of 1 to FRAME.SAFE_CTRL.RELEASE (01 R56): refused while the frame in progress or the most recent one has a condition; with
no frame run since a package reset, the release is accepted (17 R643). -/
def State.releaseSafe (s : State) : State :=
  if ! s.frame.safePin then s
  else if s.frame.ranSinceReset && (s.frame.safeNow || s.frame.safeLast) then
    (s.setLive 0x03 0x148 (sat16 (bits (s.live 0x03 0x148) 31 16) * 2 ^ 16)).raise 0x03 2
  else s.updFrame fun f => { f with safePin := false }

/-- SAFE_CTRL_RELEASE -/
def execSafeCtrlRelease (w : Writer) (s : State) : Host.Outcome State Fault Refusal :=
  done (if s.ctlReaches w 0x03 then s.releaseSafe else s.refuseWrite w 0x03 true)

end Sys2Proof.Machine
end

