-- ==== Sys2Proof/Machine/Power.lean ====
section
/-! DEFINITION. Power, reset and bring-up (17): package and cold resets, the boot, port resets, the thermal throttle and trip, sensors'
alerts, deterministic refresh, and the SAFE_STATE pin's supply (20 R743, R773). -/
namespace Sys2Proof.Machine
open Sys2Proof

/-! ### What a reset leaves (17 R641, R643) -/

/-- A tenant's rings in host memory, which no reset of the device touches. -/
def Tenant.hostSide (n : Tenant) : Tenant :=
  { Tenant.reset with
    queues := n.queues.map fun (k : Queue) => { Queue.reset with ring := k.ring }
    pubRing := n.pubRing, witnessRing := n.witnessRing }

/-- A port's configuration after a package reset: the link is down until PORT_READY, and what the host has received stands. -/
def PortCfg.hostSide (c : PortCfg) : PortCfg := { PortCfg.reset with msix := c.msix, perst := c.perst, linkUp := false }

/-- A unit's views after a package reset: DOWN, or FENCED, since Owl's fences are kept in flash (18 R679). -/
def Owl.viewReset (o : Owl) (k : UnitKind) (n : Nat) : View :=
  { View.reset with owl := if o.fences.contains (k, n) then .fenced else .down }

/-- A unit as the boot's end brings it up: Owl's view UP where no fence stands, Beaver's UP, and joined to its tenants. DESIGN CHOICE; log
21. -/
def View.raised (v : View) (o : OwlView) : View := { v with owl := o, beaverUp := true, joined := o == .up }

/-- Every unit of the grade brought up as the boot reaches READY; log 21. -/
def State.raiseUnits (s : State) : State :=
  s.forEach s.allUnits fun s u => s.updView u.1 u.2 fun v => v.raised (s.owl.viewOf u.1 u.2)

/-- Every unit at its reset values, fences standing. -/
def State.resetUnits (s : State) : State :=
  let o := s.owl
  let e (i : Fin 16) : Engine := { Engine.reset with view := o.viewReset .badger i.val }
  let b (i : Fin 2) : BearUnit := ⟨o.viewReset .bear i.val, none⟩
  let j (i : Fin 4) : JayUnit := ⟨o.viewReset .jay i.val, [], none⟩
  let f (i : Fin 4) : FrontUnit := ⟨o.viewReset .front i.val⟩
  let c (i : Fin 48) : Core := { Core.reset with view := o.viewReset .core i.val }
  { s with engines := Vector.ofFn e, bears := Vector.ofFn b, jays := Vector.ofFn j, fronts := Vector.ofFn f, cores := Vector.ofFn c }

/-- Owl after a package reset: flash, the island and the sensors' readings stand; mailboxes, the session, the latches and the counts
of page 0x00F return to their reset values, and no board configuration has been read (17 R641; 18 R671, R691). -/
def Owl.packageReset (o : Owl) : Owl :=
  { o with
    boxes := Vector.replicate 4 Mailbox.reset, order := [], session := none, fwResult := 0, runningVersion := 0
    runningRollback := 0, board := BoardCfg.default, boardDefault := false, changed := false, logDrops := 0, alert := false
    sramImage := none }

/-- Power state after a package reset: the pins stand, and the cause is the reset's own (17 R661). -/
def Power.packageReset (p : Power) (cause : Nat) : Power :=
  { Power.reset with
    vaon := p.vaon, pwrGood := p.pwrGood, sysRst := p.sysRst, jtagHold := p.jtagHold, v3p3 := p.v3p3
    bootSelBalls := p.bootSelBalls, cascBall := p.cascBall, bootSel := p.bootSel, powerRose := p.powerRose, bootStarted := false
    cause := BitVec.ofNat 32 (2 ^ cause) }

/-- The device in package reset (17 R641, R643): every register at its reset value, every lease, tenant, program, world, candidate and
set gone, DRAM and links cleared. The calendar page lies in the island and stands (18 R708), as do the SAFE_STATE pin's level and the
straps. JTAG is not reset by it (20 R763). -/
def State.clearPackage (s : State) (cause : Nat) : State :=
  let owl := s.owl.packageReset
  let s : State :=
    { State.reset with
      pending := s.pending, chip := s.chip, now := s.now, draws := s.draws, doorbells := s.doorbells
      regs := s.regs.filter fun x => decide (x.1 / 4096 = 0x10), cfgA := s.cfgA.hostSide, cfgB := s.cfgB.hostSide
      attn := { Attn.reset with ident := owl.pairing.isNone }
      frame := { Frame.reset with safePin := s.frame.safePin, safeDriven := s.frame.safeDriven }
      tenants := s.tenants.map Tenant.hostSide, cascade := { Cascade.reset with strap := s.cascade.strap }
      power := s.power.packageReset cause, owl := owl, cal := s.cal, jtag := s.jtag }
  s.resetUnits

/-! ### The straps and the start of the boot (17 R649, R650; 18 R687, R692) -/

/-- A package reset that finds TRIAL set once the trial firmware has booted makes the other bank active, with FALLBACK, and logs the
trial's failure (18 R692, R713). -/
def State.endTrial (s : State) : State :=
  if s.owl.trial && s.owl.trialBooted then
    let s := s.updOwl fun o => { o with activeB := ! o.activeB, trial := false, trialBooted := false }
    let s := s.updPower fun p => { p with fallback := true }
    let b := ! s.owl.activeB
    let k := if b then s.owl.bankB else s.owl.bankA
    s.logEvent 0xFFFF 0x0C 1 codeUpdate 0xFF ([codeUpdate, 0, BitVec.ofNat 8 (b2n b)] ++ leBytes 4 k.version.toNat ++ leBytes 4 k.rollback)
  else s

/-- Package reset is released: the straps are sampled and Owl's ROM runs (17 R649, R650). -/
def State.startBoot (s : State) : State :=
  if s.held then s
  else
    let rose := s.power.powerRose
    let s := s.updPower fun p => { p with bootStarted := true, stage := 0, bootSel := p.bootSelBalls, powerRose := false }
    let s := s.updCascade fun c => { c with strap := s.power.cascBall }
    let s := if rose then s.bumpCounter 11 else s
    let s := s.logEvent 0xFFFF 1 1 0 0xFF (leBytes 4 s.power.cause.toNat)
    s.endTrial

/-- A package reset with its cause, which ends at once where nothing holds it (17 R641, R661). A cause that comes while the device is held
adds its bit. -/
def State.packageReset (s : State) (cause : Nat) : State := if s.held then s.addCause cause else s.clearPackage cause

/-- PKG_RST (17 R661). -/
def State.pkgRst (s : State) (w : Writer) : State := if s.isCtl w then (s.packageReset 3).startBoot else s.refuseWrite w 0x02 true
/-- PKG_RST -/
def execPkgRst (w : Writer) (s : State) : Host.Outcome State Fault Refusal := done (s.pkgRst w)

/-- PWR_GOOD_FALL (17 R638). -/
def State.powerFalls (s : State) : State :=
  if s.power.pwrGood then (s.packageReset 2).updPower fun p => { p with pwrGood := false } else s
/-- PWR_GOOD_FALL -/
def execPwrGoodFall (s : State) : Host.Outcome State Fault Refusal := done s.powerFalls

/-- PWR_GOOD_RISE (17 R670): with SYS_RST_N high the boot starts over from STAGE ROM. -/
def State.powerRises (s : State) : State :=
  if s.power.pwrGood then s else (s.updPower fun p => { p with pwrGood := true, powerRose := true }).startBoot
/-- PWR_GOOD_RISE -/
def execPwrGoodRise (s : State) : Host.Outcome State Fault Refusal := done s.powerRises

/-- SYS_RST_N_LOW (17 R639): low for `us` µs, and held low until it rises. A pulse shorter than 10 µs may be ignored, and is. -/
def State.sysResetLow (s : State) (us : Nat) : State :=
  if us < 10 || s.power.sysRst then s else (s.packageReset 1).updPower fun p => { p with sysRst := true }
/-- SYS_RST_N_LOW -/
def execSysRstNLow (us : Nat) (s : State) : Host.Outcome State Fault Refusal := done (s.sysResetLow us)

/-- SYS_RST_N_RISE (17 R650). -/
def State.sysResetRises (s : State) : State :=
  if s.power.sysRst then (s.updPower fun p => { p with sysRst := false }).startBoot else s
/-- SYS_RST_N_RISE -/
def execSysRstNRise (s : State) : Host.Outcome State Fault Refusal := done s.sysResetRises

/-- Counters as the last checkpoint in the journal holds them (18 R688). -/
def Owl.checkpointed (o : Owl) : Vector Word 21 :=
  let l := o.journal.getLast?.getD []
  Vector.ofFn fun i => l.getD i.val 0

/-- COLD_RESET (17 R641; 18 R687, R688, R702): everything but flash and fuses, with COLD_RESETS counted. Input pins stand as they are. -/
def State.coldReset (s : State) : State :=
  let o := s.owl
  let owl : Owl :=
    { Owl.reset with
      bankA := o.bankA, bankB := o.bankB, activeB := o.activeB, trial := o.trial, trialBooted := o.trialBooted, rollback := o.rollback
      boardStored := o.boardStored, fences := o.fences, pairing := o.pairing, flashLog := o.flashLog, nextSeq := o.nextSeq
      counters := o.checkpointed, journal := o.journal }
  let s := { s.clearPackage 0 with owl := owl, cal := Calendar.reset, regs := [] }
  let s := s.updFrame fun f => { f with safePin := false, safeDriven := s.power.v3p3 }
  (({ s with cascade := Cascade.reset }).resetUnits.bumpCounter 20).startBoot
/-- COLD_RESET -/
def execColdReset (s : State) : Host.Outcome State Fault Refusal := done s.coldReset

/-- OWL_WATCHDOG (17 R641). -/
def State.owlWatchdog (s : State) : State := if s.held then s else s.owlDomainReset
/-- OWL_WATCHDOG -/
def execOwlWatchdog (s : State) : Host.Outcome State Fault Refusal := done s.owlWatchdog

/-! ### The SAFE_STATE pin's supply (20 R743, R773) -/

/-- V3P3_LOSS -/
def execV3p3Loss (s : State) : Host.Outcome State Fault Refusal :=
  done ((s.updPower fun p => { p with v3p3 := false }).updFrame fun f => { f with safeDriven := false })
/-- V3P3_RETURN -/
def execV3p3Return (s : State) : Host.Outcome State Fault Refusal :=
  done ((s.updPower fun p => { p with v3p3 := true }).updFrame fun f => { f with safeDriven := true })

/-! ### The boot (17 R650, R651) -/

/-- The boot's outcome in the event log (18 R685). -/
def State.logBoot (s : State) : State :=
  let p := s.power
  s.logEvent 0xFFFF 2 0 p.result 0xFF [BitVec.ofNat 8 p.stage, BitVec.ofNat 8 (b2n p.bank), BitVec.ofNat 8 (b2n p.fallback), p.result]

/-- The boot stops in RECOVERY (17 R651). -/
def State.enterRecovery (s : State) (code : Byte) : State := (s.updPower fun p => { p with stage := 6, result := code }).logBoot

/-- An image authenticates as the ROM judges it now: it is intact and its ROLLBACK is not below the counter (18 R690). -/
def Owl.bankOk (o : Owl) (b : Bool) : Bool :=
  let k := if b then o.bankB else o.bankA
  k.valid && o.rollback ≤ k.rollback

/-- Firmware of a bank runs: STAGE FW_AUTH (17 R650). The trial firmware has then booted once (18 R692). -/
def State.runBank (s : State) (b fallback : Bool) : State :=
  let k := if b then s.owl.bankB else s.owl.bankA
  let s := s.updOwl fun o =>
    { o with
      runningVersion := k.version, runningRollback := k.rollback
      trialBooted := o.trialBooted || (o.trial && b == o.activeB) }
  s.updPower fun p => { p with stage := 1, bank := b, fallback := fallback }

/-- The junction's limit at which the ROM lets the boot go on, in 1/16 °C (17 R658). -/
def bootLimit : Int := 1600

/-- The ROM's stage (17 R649 to R651): the bank the straps select, or the other one where it does not authenticate, with FALLBACK. -/
def State.bootRom (s : State) : State :=
  let o := s.owl
  let p := s.power
  match p.bootSel.toNat with
  | 3 => (s.updPower fun p => { p with stage := 7 }).logBoot
  | 2 =>
    match o.sramImage with
    | none => s
    | some k =>
      (s.updOwl fun o => { o with runningVersion := k.version, runningRollback := k.rollback }).updPower fun p => { p with stage := 1 }
  | sel =>
    let first := if sel = 1 && ! p.fallback then ! o.activeB else o.activeB
    if o.bankOk first then s.runBank first p.fallback
    else if o.bankOk (! first) then s.runBank (! first) true
    else s.enterRecovery codeUpdate

/-- The sources a clock mode uses, as SRC_EN holds them once firmware has enabled them (16 R602, R603, R610). DESIGN CHOICE; log 66. -/
def sourcesOf (mode : Nat) : Nat :=
  match mode with
  | 0 => 0x3F
  | 1 => 0x7E
  | _ => 0x7C

/-- The firmware's stage: the board configuration is read, its clock mode written, and the sources enabled; STAGE CLOCKS (16 R604;
17 R650; 18 R700). -/
def State.bootClocks (s : State) : State :=
  let o := s.owl
  let b := o.boardStored.getD BoardCfg.default
  let s := s.updOwl fun o => { o with board := b, boardDefault := o.boardStored.isNone }
  let v := b.clockMode.toNat + bits b.refDiv.toNat 3 0 * 2 ^ 4
  let s := ((s.setLive 0x01 0x100 v).setShadow 0x01 0x100 v).setLive 0x01 0x108 (sourcesOf b.clockMode.toNat)
  s.updPower fun p => { p with stage := 2 }

/-- The root, DRAM and link PLLs are stable and every domain has switched: DRAM may train (17 R650). -/
def State.clocksUp (s : State) : Bool := s.clock.stable.toNat / 16 = 7 && s.clock.switches = []

/-- A stage ends (17 R650). A stage whose conditions do not hold yet goes on. -/
def State.bootNext (s : State) : State :=
  match s.power.stage with
  | 0 => if (s.owl.junctions.toList.all fun j => j.toInt ≤ bootLimit) then s.bootRom else s
  | 1 => s.bootClocks
  | 2 => if s.clocksUp then s.updPower fun p => { p with stage := 3, trained := true } else s
  | 3 => (s.updPower fun p => { p with stage := 4, initDone := true }).updDram fun _ => Dram.reset
  | 4 => (s.updPower fun p => { p with stage := 5 }).raiseUnits.logBoot
  | _ => s

/-- A stage cannot complete (17 R651). Where no source has failed at STAGE CLOCKS, a site has failed its training; which one is free.
DESIGN CHOICE; log 65. -/
def State.bootFails (s : State) : State :=
  if s.power.stage = 2 && s.clock.fail = 0 then
    let d := (Config.freeByte s.draws).toNat % s.chip.nSites
    (s.draw.updPower fun p => { p with failedSites := BitVec.ofNat 4 (2 ^ d) }).enterRecovery codeInternal
  else s.enterRecovery codeInternal

/-- BOOT_STAGE_COMPLETE (17 R650, R651). -/
def State.endBootStage (s : State) (o : StageOutcome) : State :=
  if s.held || ! s.power.bootStarted || 5 ≤ s.power.stage then s
  else
    match o with
    | .ok => s.bootNext
    | .authFailed => if s.power.stage = 0 then s.enterRecovery codeUpdate else s
    | .failed => s.bootFails
/-- BOOT_STAGE_COMPLETE -/
def execBootStageComplete (o : StageOutcome) (s : State) : Host.Outcome State Fault Refusal := done (s.endBootStage o)

/-! ### Ports (17 R644 to R646) -/

/-- PORT_READY (17 R646): the boot has reached READY or RECOVERY and the port's link is trained. -/
def State.portReady (s : State) (p : Port) : State :=
  if s.held || ! (s.isReady || s.inRecovery) then s
  else
    let x := (Config.freeWord s.draws).toNat
    s.draw.updCfg p fun c =>
      { c with
        perst := false, linkUp := true, ready := true, crs := false
        lanes := if c.lanes = 0 then 2 ^ (x % 4) else c.lanes
        rate := if c.rate = 0 then lget 25 [25, 50, 80, 160, 320] (x / 4 % 5) else c.rate }
/-- PORT_READY -/
def execPortReady (p : Port) (s : State) : Host.Outcome State Fault Refusal := done (s.portReady p)

/-- The bit of a port reset in RESET_CAUSE (17 R661). -/
def portCause (p : Port) (c : PortResetCause) : Nat :=
  8 + portIx p + (match c with | .flr => 2 | _ => 0)

/-- A queue page of a reset port: fetching stops, completions are discarded with their slots, and the page returns to its reset values
once its tags are free (17 R644). -/
def State.dropQueue (s : State) (t : Fin 16) (q : Fin 8) : State :=
  let n := (s.tenant t).cmds.countP fun c => c.q = q
  (s.updQueue t q fun k => { k with dying := true, comps := [], reserved := n, frameSlot := false }).reapQueue t q

/-- A tenant's frame completion that had its slot goes back to the backlog (17 R644). -/
def Tenant.undeliver (n : Tenant) : Tenant :=
  match n.delivering with
  | some d => { n with delivering := none, backlog := d :: n.backlog }
  | none => n

/-- A tenant of a reset port (17 R644). -/
def State.portLost (s : State) (t : Fin 16) : State :=
  let s := s.updTenant t Tenant.undeliver
  let s := s.forEach (allFin 8) fun s q => s.dropQueue t q
  if (s.tenant t).state = .active then s.requestHold t 3 else s

/-- PORT_RESET (17 R644, R661; 12 R474). -/
def State.portReset (s : State) (p : Port) (c : PortResetCause) : State :=
  if s.held then s
  else
    let s := s.addCause (portCause p c)
    let s := s.updCfg p fun f =>
      { f with
        openSets := [], holds := [], ready := false, crs := false
        perst := f.perst || decide (c = .perst), linkUp := f.linkUp && decide (c = .flr)
        lanes := if c = .flr then f.lanes else 0, rate := if c = .flr then f.rate else 0 }
    let s := s.resetRegs (ownPage p) 0x700 0x1000
    let v := s.live 0x00 0x10C
    let s := s.setLive 0x00 0x10C (match p with | .a => bits v 31 16 * 2 ^ 16 | .b => bits v 15 0)
    s.forTenants fun s t => if s.ownerOf t = p then s.portLost t else s
/-- PORT_RESET -/
def execPortReset (p : Port) (c : PortResetCause) (s : State) : Host.Outcome State Fault Refusal := done (s.portReset p c)

/-! ### Sensors (17 R655 to R658; 18 R683; 19 R731) -/

/-- The nominal voltage of each rail in mV, in the order of READ_SENSORS (18 R682; 20 R768). -/
def nominalRails : List Nat := [750, 750, 850, 900, 1800, 3300, 800, 1050, 500, 1050, 500, 1050, 500, 1050, 500]

/-- A rail lies outside its nominal value ± RAIL_TOL; the rails of absent sites are not judged (18 R682, R683). -/
def State.badRail (s : State) (rails : Bank (BitVec 16) 15) : Option Nat :=
  let tol := bits (s.live 0x0F 0x10C) 23 16
  (List.range (7 + 2 * s.chip.nSites)).find? fun i =>
    let n := lget 0 nominalRails i
    let v := (bget 0 rails i).toNat
    v * 1000 < n * (1000 - tol) || n * (1000 + tol) < v * 1000

/-- SENSOR_ALERT judged on the readings as they stand, and TEMP_ALERT_N on the junctions alone; a beginning is logged with the sensor, or
16 more than the rail, and its reading (18 R683, R685; 19 R731). -/
def State.judgeAlert (s : State) : State :=
  let v := s.live 0x0F 0x10C
  let c : Int := 16 * (bits v 7 0 : Int)
  let low : Int := c - 16 * (bits v 15 8 : Int)
  let js := s.owl.junctions.toList.map fun j => j.toInt
  let hot := js.findIdx? fun j => decide (c ≤ j)
  let cool := js.all fun j => decide (j < low)
  let on := if s.owl.alert then ! cool || s.owl.railBad else hot.isSome || s.owl.railBad
  let data : List Byte := match hot with
    | some i => BitVec.ofNat 8 i :: leBytes 4 (bget 0 s.owl.junctions i).toNat
    | none => match s.badRail s.owl.rails with
      | some i => BitVec.ofNat 8 (16 + i) :: leBytes 4 (bget 0 s.owl.rails i).toNat
      | none => []
  let s := if on && ! s.owl.alert then s.logEvent 0x0F 0x0F 0 0 0xFF data else s
  (s.updOwl fun o => { o with alert := on }).updPower fun p =>
    { p with tempAlert := hot.isSome || (p.tempAlert && ! cool) }

/-- The hottest sensor and its reading; the lowest-numbered of equal ones. -/
def hottest (js : List Int) : Nat × Int :=
  ((js.zipIdx).foldl (fun b x => match b with
    | none => some (x.2, x.1)
    | some y => if y.2 < x.1 then some (x.2, x.1) else some y) none).getD (0, 0)

/-- THERMAL.THROTTLE_C in 1/16 °C. -/
def State.throttleC (s : State) : Int := 16 * (bits (s.live 0x02 0x11C) 15 8 : Int)

/-- The event records of a throttle and a trip: junction, sensor, level (18 R685). -/
def State.logHeat (s : State) (event severity : Nat) : State :=
  let p := s.power
  s.logEvent 0x02 event severity 0 p.sensor
    [BitVec.ofNat 8 (i8 (p.junction / 16)), BitVec.ofNat 8 p.sensor, BitVec.ofNat 8 s.clock.current.toNat]

/-- A throttle requests the next slower level (17 R655). It has acted at this moment (14 R531). -/
def State.slowDown (s : State) : State :=
  let l := s.clock.current
  let s := s.updFrame fun f => { f with levelAt := some s.now }
  if l.toNat < 3 then (s.updPower fun p => { p with throttleLevel := l + 1, stepAt := s.now }).requestLevel (l + 1)
  else s.updPower fun p => { p with throttleLevel := l, stepAt := s.now }

/-- Restoring from a throttle that has ended is still on its way (17 R656). -/
def State.restoringNow (s : State) : Bool := s.power.restoring && s.clock.current ≠ s.power.restoreLevel

/-- A throttle begins (17 R655, R656; 14 R547). -/
def State.beginThrottle (s : State) : State :=
  let r := if s.restoringNow then s.power.restoreLevel else if s.lynx.pinned then s.lynx.pinLevel else s.clock.current
  let s := s.updPower fun p =>
    { p with throttle := true, restoring := false, restoreLevel := r, coolSince := none, throttleCount := sat16 p.throttleCount }
  ((s.bumpCounter 12).logHeat 8 1).slowDown

/-- The throttle as a sample moves it (17 R655 to R657). -/
def State.watchThrottle (s : State) : State :=
  let c := s.throttleC
  let j := s.power.junction
  if c ≤ j then
    if s.power.throttle then s.updPower fun p => { p with coolSince := none }
    else if s.throttleEn then (s.updPower fun p => { p with overC := false }).beginThrottle
    else s.updPower fun p => { p with overC := true }
  else
    let now := s.now
    s.updPower fun p =>
      { p with
        overC := false
        coolSince := if p.throttle && decide (j ≤ c - 80) then some (p.coolSince.getD now) else none }

/-- The trip at 115 °C (17 R658): a package fault, engines halted, DRAM in self-refresh. -/
def State.watchTrip (s : State) : State :=
  if s.power.junction < 1840 || s.fault.trip then s
  else
    let s := (s.bumpCounter 13).logHeat 9 3
    (s.updDram fun d => { d with selfRefresh := true }).packageFault fun f => { f with trip := true }

/-- TEMP_SAMPLE (17 R655). -/
def State.tempSample (s : State) (js : Bank (BitVec 16) 12) : State :=
  if s.held then s
  else
    let h := hottest (js.toList.map fun j => j.toInt)
    let s := s.updOwl fun o => { o with junctions := js }
    let s := s.updPower fun p => { p with junction := h.2, sensor := h.1 }
    (s.judgeAlert.watchThrottle).watchTrip
/-- TEMP_SAMPLE -/
def execTempSample (js : Bank (BitVec 16) 12) (s : State) : Host.Outcome State Fault Refusal := done (s.tempSample js)

/-- THROTTLE_STEP (17 R655, R665): 10 ms after the last step, while the junction stays at or above THROTTLE_C. A step still deferred to a
tick has not been taken. -/
def State.throttleStep (s : State) : State :=
  if s.held || ! s.power.throttle || s.power.junction < s.throttleC || ! s.throttleEn || s.clock.deferred.isSome then s
  else (s.advanceTo (s.power.stepAt + 10000)).slowDown
/-- THROTTLE_STEP -/
def execThrottleStep (s : State) : Host.Outcome State Fault Refusal := done s.throttleStep

/-- One step towards RESTORE_LEVEL (17 R656). -/
def State.restoreOne (s : State) : State :=
  let l := s.clock.current
  let r := s.power.restoreLevel
  let s := s.updPower fun p => { p with stepAt := s.now }
  if l = r then s.updPower fun p => { p with restoring := false }
  else s.requestLevel (if r.toNat < l.toNat then l - 1 else l + 1)

/-- THROTTLE_END (17 R656). -/
def State.throttleEnd (s : State) : State :=
  match s.power.coolSince with
  | none => s
  | some since =>
    if s.held || ! s.power.throttle then s
    else
      let s := s.advanceTo (since + 1000000)
      let s := s.updPower fun p => { p with throttle := false, restoring := true, coolSince := none }
      let s := s.updFrame fun f => { f with levelAt := some s.now }
      s.restoreOne
/-- THROTTLE_END -/
def execThrottleEnd (s : State) : Host.Outcome State Fault Refusal := done s.throttleEnd

/-- THROTTLE_RESTORE_STEP (17 R656). -/
def State.restoreStep (s : State) : State :=
  if s.held || s.power.throttle || ! s.power.restoring then s
  else if s.restoringNow then (s.advanceTo (s.power.stepAt + 1000000)).restoreOne
  else s.updPower fun p => { p with restoring := false }
/-- THROTTLE_RESTORE_STEP -/
def execThrottleRestoreStep (s : State) : Host.Outcome State Fault Refusal := done s.restoreStep

/-! ### DRAM refresh (17 R659) -/

/-- DRAM_REFRESH: in the deterministic mode every site refreshes at the next multiple of INTERVAL_US after the tick, before the latest
time at which the next tick can come; the edge of that tick is none of them. In the standard mode the controllers schedule refresh
themselves, and nothing the spec names changes. DEDUCED; log 142. -/
def State.dramRefresh (s : State) : State :=
  if s.held || ! s.detRefresh || ! s.frame.inFrame then s
  else
    let n := s.frame.refreshes + 1
    let at' := n * bits (s.live 0x0E 0x100) 5 4
    if s.period + (if s.tickSrc = 0 then 0 else s.windowUs) ≤ at' then s
    else (s.advanceTo (s.frame.tickAt + at')).updFrame fun f => { f with refreshes := n }
/-- DRAM_REFRESH -/
def execDramRefresh (s : State) : Host.Outcome State Fault Refusal := done s.dramRefresh

end Sys2Proof.Machine
end

