-- ==== Sys2Proof/Machine/Cascade.lean ====
section
/-! DEFINITION. The cascade's links (15): training, replays and loss of a link, frames as they arrive, the tick and marks, calibration,
and the route table. -/
namespace Sys2Proof.Machine
open Sys2Proof

/-! ### A link (15 R556 to R558, R563, R593) -/

/-- A link that goes DOWN holds no credits. DEDUCED; log 134 (15 R563, R593). -/
def Link.drop (k : Link) : Link := { k with st := .down, failed := 0, granted := false, credits := Vector.replicate 3 0 }

/-- Training gives every channel its 64 credits, where the link holds none from before a retrain; log 134 (15 R563). -/
def Link.grant (k : Link) : Link := if k.granted then k else { k with granted := true, credits := Vector.replicate 3 64 }

/-- A write of L_CTRL.EN: 1 starts training, 0 takes the link down (15 R556). -/
def Link.enable (k : Link) (on : Bool) : Link :=
  if on then (if k.enabled then k else { k with enabled := true, st := .training })
  else { k.drop with enabled := false }

/-- A writer writes EN of a link. -/
def State.enableLink (s : State) (w : Writer) (l : Nat) (on : Bool) : State :=
  if s.ctlReaches w (linkPage l) then s.updLink l fun k => k.enable on
  else s.refuseWrite w (linkPage l) ((s.link l).enabled ≠ on)
/-- LINK_ENABLE -/
def execLinkEnable (w : Writer) (l : Fin 8) (s : State) : Host.Outcome State Fault Refusal := done (s.enableLink w l.val true)

/-- Training completes at ×4: the link is UP with PEER_ID, what waited for it goes, and it calibrates (15 R556, R557, R577). -/
def State.linkUp (s : State) (l : Nat) (peer : BitVec 16) : State :=
  let k := s.link l
  if s.held || ! k.enabled || k.st = .up || s.chip.nLinks ≤ l then s
  else
    let s := s.updLink l fun k => Link.flush { k.grant with st := .up, peer := peer, dead := false, failed := 0, echoDue := 0 }
    s.sendCal l
/-- LINK_TRAINED -/
def execLinkTrained (l : Fin 8) (peer : BitVec 16) (s : State) : Host.Outcome State Fault Refusal := done (s.linkUp l.val peer)

/-- A link that is UP retrains, counted, raised and logged (15 R557, R593; 18 R685, R687). -/
def State.retrainLink (s : State) (l : Nat) : State :=
  let k := s.link l
  if s.held || k.st ≠ .up then s
  else
    let s := s.updLink l fun k => { k with st := .training, failed := 0, retrains := sat16 k.retrains }
    ((s.bumpCounter 18).logEvent (linkPage l) 0x0A 1 0 l (BitVec.ofNat 8 l :: leBytes 4 k.replays)).raise (linkPage l) 1
/-- RETRAIN -/
def execRetrain (w : Writer) (l : Fin 8) (s : State) : Host.Outcome State Fault Refusal :=
  done (if s.ctlReaches w (linkPage l.val) then s.retrainLink l.val else s.refuseWrite w (linkPage l.val) true)

/-- LINK_REPLAY (15 R557): a CRC error on the link makes the transmission be replayed. `failed` counts its errors in a row: the first
calls for the first replay, and each further one says that a replay has failed too. -/
def State.replay (s : State) (l : Nat) : State :=
  if s.held || (s.link l).st ≠ .up then s else s.updLink l fun k => { k with failed := k.failed + 1, replays := sat16 k.replays }
/-- LINK_REPLAY -/
def execLinkReplay (l : Fin 8) (s : State) : Host.Outcome State Fault Refusal := done (s.replay l.val)

/-- REPLAY_RETRAIN (15 R557): after 8 failed replays of one transmission. -/
def execReplayRetrain (l : Fin 8) (s : State) : Host.Outcome State Fault Refusal :=
  done (if 9 ≤ (s.link l.val).failed then s.retrainLink l.val else s)

/-- LINK_DOWN (15 R593): the link leaves UP for its partner's or the channel's sake. -/
def State.loseLink (s : State) (l : Nat) : State :=
  if s.held || (s.link l).st ≠ .up then s else s.updLink l Link.drop
/-- LINK_DOWN -/
def execLinkDown (l : Fin 8) (s : State) : Host.Outcome State Fault Refusal := done (s.loseLink l.val)

/-- A frame that is unroutable: a request is answered with UNIT_FENCED, a response dropped; a link-local frame goes with its link
(15 R567). -/
def State.unroutable (s : State) (f : LinkFrame) : State :=
  match f.vc with
  | 0 => s.sendResponse (s.answer f codeFenced [])
  | 1 => s.dropRoute
  | _ => s

/-- LINK_DOWN_TIMEOUT (15 R558). -/
def State.killLink (s : State) (l : Nat) : State :=
  let k := s.link l
  if s.held || k.st = .up || k.dead then s
  else
    let l' := k.waiting.toList.flatMap id
    let s := s.updLink l fun k => { k with dead := true, waiting := Vector.replicate 3 [] }
    s.forEach l' State.unroutable
/-- LINK_DOWN_TIMEOUT -/
def execLinkDownTimeout (l : Fin 8) (s : State) : Host.Outcome State Fault Refusal := done (s.killLink l.val)

/-- CREDIT_RETURN (15 R563): 64 at most, on a link that holds its reserve; a frame that waits for it goes. The transmission it answers has
got through, so its failed replays end. DEDUCED; log 67. -/
def State.returnCredit (s : State) (l : Nat) (v : Fin 3) : State :=
  if s.held || s.chip.nLinks ≤ l || ! (s.link l).granted then s
  else s.updLink l fun k => Link.flush { k with credits := k.credits.upd v fun c => min 64 (c + 1), failed := 0 }
/-- CREDIT_RETURN -/
def execCreditReturn (l : Fin 8) (v : Fin 3) (s : State) : Host.Outcome State Fault Refusal := done (s.returnCredit l.val v)

/-! ### The route table (15 R564, R565) -/

/-- A write of ROUTE_DATA. -/
def State.writeRoute (s : State) (w : Writer) (v : Nat) : State :=
  if ! s.ctlReaches w 0x0D then s.refuseWrite w 0x0D (s.route (BitVec.ofNat 16 (s.live 0x0D 0x118)) ≠ bits v 3 0)
  else if bits v 3 0 ≠ 15 && ! linkOk s.chip (bits v 3 0) then s.recordDirect w 0x0D 0x11C codeInvalid
  else s.updCascade fun c => { c with routes := mset 15 c.routes (bits (s.live 0x0D 0x118) 15 0) (BitVec.ofNat 4 v) }
/-- ROUTE_DATA_WRITE -/
def execRouteDataWrite (w : Writer) (v : Word) (s : State) : Host.Outcome State Fault Refusal := done (s.writeRoute w v.toNat)

/-! ### Frames as they arrive (15 R559, R560, R564 to R567, R569) -/

/-- A frame comes in on a link that carries it; one that is malformed is discarded and counted. -/
def State.receive (s : State) (l : Nat) (f : LinkFrame) (kind : Nat) (body : State → State) : State :=
  if s.held || (s.link l).st ≠ .up || f.kind.toNat ≠ kind then s
  else if ! LinkFrame.valid f then s.dropFrame
  else body s

/-- INVALID_FRAME (15 R560). -/
def State.receiveInvalid (s : State) (l : Nat) (f : LinkFrame) : State :=
  if s.held || (s.link l).st ≠ .up || LinkFrame.valid f then s else s.dropFrame
/-- INVALID_FRAME -/
def execInvalidFrame (l : Fin 8) (f : LinkFrame) (s : State) : Host.Outcome State Fault Refusal := done (s.receiveInvalid l.val f)

/-- A routed frame is forwarded with its TTL decremented, where it has a route and hops remain (15 R564, R566, R567). -/
def State.forwardFrame (s : State) (f : LinkFrame) : State :=
  if s.noRoute f.dest || f.ttl.toNat ≤ 1 then s.unroutable f
  else s.transmit (s.route f.dest) { f with ttl := f.ttl - 1 }

/-- A routed frame: its own package's, come back, is discarded (15 R569); delivered here where DEST says so; forwarded elsewhere. -/
def State.routeFrame (s : State) (l : Nat) (f : LinkFrame) (kind : Nat) (deliver : State → State) : State :=
  s.receive l f kind fun s =>
    if f.src = s.pkgId then s.dropFrame.raise 0x0D 5
    else if f.dest = s.pkgId then deliver s
    else s.forwardFrame f

/-- A request performed here and answered (15 R570 to R572). -/
def State.serve (s : State) (l : Nat) (f : LinkFrame) : State :=
  let r := s.perform (some l) f
  r.1.sendResponse r.2

/-- WRITE -/
def execWrite (l : Fin 8) (f : LinkFrame) (s : State) : Host.Outcome State Fault Refusal :=
  done (s.routeFrame l.val f 0x01 fun s => s.serve l.val f)
/-- READ -/
def execRead (l : Fin 8) (f : LinkFrame) (s : State) : Host.Outcome State Fault Refusal :=
  done (s.routeFrame l.val f 0x02 fun s => s.serve l.val f)
/-- DOORBELL -/
def execDoorbell (l : Fin 8) (f : LinkFrame) (s : State) : Host.Outcome State Fault Refusal :=
  done (s.routeFrame l.val f 0x03 fun s => s.serve l.val f)
/-- COLL_PART -/
def execCollPart (l : Fin 8) (f : LinkFrame) (s : State) : Host.Outcome State Fault Refusal :=
  done (s.routeFrame l.val f 0x04 fun s => s.masterPart f)
/-- ACK -/
def execAck (l : Fin 8) (f : LinkFrame) (s : State) : Host.Outcome State Fault Refusal :=
  done (s.routeFrame l.val f 0x11 fun s => s.deliverResponse (some l.val) f)
/-- READ_DATA -/
def execReadData (l : Fin 8) (f : LinkFrame) (s : State) : Host.Outcome State Fault Refusal :=
  done (s.routeFrame l.val f 0x12 fun s => s.deliverResponse (some l.val) f)

/-- The combined state of a collective comes; a collective it says has failed completes (15 R586, R587). -/
def State.collResult (s : State) (l : Nat) (f : LinkFrame) : State :=
  let s := s.deliverResponse (some l) f
  if s.halted then s else s.forEach (List.range 4) State.endFailed
/-- COLL_RESULT -/
def execCollResult (l : Fin 8) (f : LinkFrame) (s : State) : Host.Outcome State Fault Refusal :=
  done (s.routeFrame l.val f 0x14 fun s => s.collResult l.val f)

/-- A remote witness record from the twin goes into the ring of the tenant that witnesses it (13 R510, R511, R513): it comes from the
twin over link 0, and one already counted missed is not written. -/
def State.takeWitness (s : State) (l : Nat) (f : LinkFrame) : State :=
  let w : Fin 16 := ⟨f.aux.toNat % 16, Nat.mod_lt _ (by decide)⟩
  let v := s.lease w 0x134
  let number := u64At f.payload 176
  if ! s.owl.board.twin || l ≠ 0 || f.src ≠ (s.link 0).peer || ! bit v 7 || ! bit v 4 || ! (s.tenant w).exists' || s.writesStopped
      || (s.tenant w).witnessMissed.contains number then s
  else
    let slot := f.addr.toNat % 2 ^ bits (s.lease w 0x140) 2 0
    s.updTenant w fun n =>
      { n with
        witnessRing := mput n.witnessRing slot f.payload, witnessed := true, witnessNext := number + 1, witnessMissed := [] }
/-- WITNESS -/
def execWitness (l : Fin 8) (f : LinkFrame) (s : State) : Host.Outcome State Fault Refusal :=
  done (s.routeFrame l.val f 0x15 fun s => (s.notePeer (some l.val) f).takeWitness l.val f)

/-! ### The tick (15 R576, R578, R579, R583, R591) -/

/-- The package is a member, the link its parent's and the sender its master (15 R576). -/
def State.fromMaster (s : State) (l : Nat) (f : LinkFrame) : Bool :=
  let v := s.live 0x0D 0x10C
  s.role = 2 && bit v 3 && bits v 2 0 = l && f.src = s.masterId

/-- A foreign TICK or MARK is discarded and counted, at a standalone package as at a master (15 R576). DESIGN CHOICE; log 138. -/
def State.countForeign (s : State) : State := (s.updCascade fun c => { c with foreign := sat16 c.foreign }).raise 0x0D 2

/-- Hops from the master, as a TICK's TTL shows them. DEDUCED; log 43. -/
def State.hopsOf (s : State) (f : LinkFrame) : Byte := BitVec.ofNat 8 (1 + (bits (s.live 0x0D 0x114) 7 0 - f.ttl.toNat))

/-- What a member keeps of its master's TICK: A, the hops, and the master's period (15 R579, R583, R592). -/
def State.noteTick (s : State) (f : LinkFrame) (a : Nat) : State :=
  let h := s.hopsOf f
  s.updCascade fun c => { c with hops := h, lastA := min 0xFFFF a, masterPeriod := some (u32At f.payload 0) }

/-- A TICK accepted as an external tick: the boundary comes at `T` with the master's number, MASTER_LOST ends, with the count of edges
without a MARK starting over, and the TICK is kept to be forwarded (15 R579, R591). DEDUCED; log 139. -/
def State.acceptTick (s : State) (f : LinkFrame) (a T : Nat) : State :=
  let g : LinkFrame := { f with ttl := BitVec.ofNat 8 (f.ttl.toNat - 1), aux := BitVec.ofNat 32 (a + 64) }
  let s := s.useResync T
  let s := s.updFrame fun x => { x with aligned := some (T, some (BitVec.ofNat 64 f.addr.toNat)), alignedSubst := false }
  s.updCascade fun c =>
    { c with masterLost := false, noMark := if c.masterLost then 0 else c.noMark, tickForward := c.tickForward ++ [LinkFrame.signed g] }

/-- TICK (15 R576, R579). -/
def State.takeTick (s : State) (l : Nat) (f : LinkFrame) : State :=
  s.receive l f 0x21 fun s =>
    if ! s.fromMaster l f then s.countForeign
    else
      let a := f.aux.toNat + (s.link l).delay.toNat
      let align := bits (s.live 0x0D 0x110) 15 0
      let s := s.noteTick f a
      let s := if align < a then s.raise 0x0D 3 else s
      let T := s.now + (align - a) / s.coreMhz
      if s.tickSrc ≠ 2 then s
      else
        match s.judgeArrival T with
        | .accepted => s.acceptTick f a T
        | .early => s.countEarly
        | .ignored => s
/-- TICK -/
def execTick (l : Fin 8) (f : LinkFrame) (s : State) : Host.Outcome State Fault Refusal := done (s.takeTick l.val f)

/-- TICK_FORWARD (15 R579, R590). -/
def State.forwardTick (s : State) : State :=
  match s.cascade.tickForward with
  | [] => s
  | f :: r =>
    if s.held then s
    else
      let s := s.updCascade fun c => { c with tickForward := r }
      if s.cascade.masterLost then s else s.forEach s.childLinks fun s l => s.transmit l f
/-- TICK_FORWARD -/
def execTickForward (s : State) : Host.Outcome State Fault Refusal := done s.forwardTick

/-! ### Marks (15 R576, R584, R589) -/

/-- MARK (15 R576). -/
def State.takeMark (s : State) (l : Nat) (f : LinkFrame) : State :=
  s.receive l f 0x22 fun s =>
    if ! s.fromMaster l f then s.countForeign
    else
      let g : LinkFrame := { f with ttl := BitVec.ofNat 8 (f.ttl.toNat - 1) }
      s.updCascade fun c => { c with noMark := 0, markForward := c.markForward ++ [g] }
/-- MARK -/
def execMark (l : Fin 8) (f : LinkFrame) (s : State) : Host.Outcome State Fault Refusal := done (s.takeMark l.val f)

/-- MARK_SEND (15 R584): at a µs edge while RUN is 1. -/
def State.sendMark (s : State) : State :=
  if s.held || s.role ≠ 1 || ! s.frame.run then s
  else
    let n := if s.frame.inFrame then s.now - s.frame.tickAt else 0
    let f := s.localFrame 0x22 n 0 []
    s.forEach s.childLinks fun s l => s.transmit l f
/-- MARK_SEND -/
def execMarkSend (s : State) : Host.Outcome State Fault Refusal := done s.sendMark

/-- MARK_FORWARD (15 R584, R590). -/
def State.forwardMark (s : State) : State :=
  match s.cascade.markForward with
  | [] => s
  | f :: r =>
    if s.held then s
    else
      let s := s.updCascade fun c => { c with markForward := r }
      if s.cascade.masterLost then s else s.forEach s.childLinks fun s l => s.transmit l f
/-- MARK_FORWARD -/
def execMarkForward (s : State) : Host.Outcome State Fault Refusal := done s.forwardMark

/-- MASTER_LOST (15 R589): at the 16th consecutive µs edge without an accepted MARK. -/
def State.loseMaster (s : State) : State :=
  if s.held || s.role ≠ 2 || ! s.frame.run || s.cascade.masterLost then s
  else (s.advanceTo (s.now + (16 - s.cascade.noMark))).declareLost
/-- MASTER_LOST -/
def execMasterLost (s : State) : Host.Outcome State Fault Refusal := done s.loseMaster

/-! ### Calibration (15 R577) -/

/-- CAL: the far end owes an echo. -/
def execCal (l : Fin 8) (f : LinkFrame) (s : State) : Host.Outcome State Fault Refusal :=
  done (s.receive l.val f 0x23 fun s => s.updLink l.val fun k => { k with echoDue := k.echoDue + 1 })

/-- CAL_ECHO_SEND: 512 core cycles after the CAL arrived, by the device's own count. -/
def State.echoCal (s : State) (l : Nat) : State :=
  if s.held || (s.link l).st ≠ .up || (s.link l).echoDue = 0 then s
  else (s.updLink l fun k => { k with echoDue := k.echoDue - 1 }).transmit l (s.localFrame 0x24 0 0 [])
/-- CAL_ECHO_SEND -/
def execCalEchoSend (l : Fin 8) (s : State) : Host.Outcome State Fault Refusal := done (s.echoCal l.val)

/-- CAL_ECHO: the round trip of `r` core cycles gives the delay, in effect from the next tick. -/
def State.takeEcho (s : State) (l : Nat) (f : LinkFrame) (r : Nat) : State :=
  s.receive l f 0x24 fun s =>
    let d := BitVec.ofNat 16 (min 0xFFFF ((r - 512) / 2))
    s.updLink l fun k => { k with delayNext := some d, roundTrip := BitVec.ofNat 16 (min 0xFFFF r), calibrated := true }
/-- CAL_ECHO -/
def execCalEcho (l : Fin 8) (f : LinkFrame) (r : Nat) (s : State) : Host.Outcome State Fault Refusal := done (s.takeEcho l.val f r)

end Sys2Proof.Machine
end

