-- ==== Sys2Proof/Machine/Lynx.lean ====
section
/-! DEFINITION. Lynx (14 R540 to R545): windows, the exchange of signatures over link 0, and divergences. -/
namespace Sys2Proof.Machine
open Sys2Proof

/-- Lynx compares now: a lock-step pair whose partner is not lost (14 R539, R545). -/
def State.lynxOn (s : State) : Bool := ! s.held && s.det = 2 && s.lynx.comparing && ! s.lynx.frozen

/-- Time at which a window starts: 4,096 core cycles each, to the whole µs below (14 R541; log 9). -/
def State.windowAt (s : State) (w : Nat) : Nat := s.frame.tickAt + 4096 * w / s.coreMhz

/-- The three LYNX_SIG frames of a window (15 R560). -/
def State.sigFrames (s : State) (w : Nat) (sigs : List (BitVec 64)) : List LinkFrame :=
  (List.range 3).map fun p =>
    s.localFrame 0x25 s.frame.number.toNat (w % 4096 + p * 2 ^ 12) (((sigs.drop (32 * p)).take 32).flatMap fun v => leBytes 8 v.toNat)

/-- The window that runs ends: its signatures are kept, and sent on link 0 (14 R541, R542). -/
def State.endWindow (s : State) : State :=
  let x := s.lynx
  let w := x.window
  if ! s.lynxOn || ! s.frame.inFrame || s.deadlineAt 7 ≤ s.windowAt w then s
  else
    let s := s.advanceTo (min (s.windowAt (w + 1)) (s.deadlineAt 7))
    let sigs := x.sigs.toList
    let s := s.updLynx fun x =>
      { x with
        kept := x.kept ++ [(w, sigs, x.bytesBefore.toList, [])], sigs := Vector.replicate 76 0, bytesBefore := x.bytesNow
        window := w + 1 }
    s.forEach (s.sigFrames w sigs) fun s f => s.transmit 0 f
/-- LYNX_WINDOW_END -/
def execLynxWindowEnd (s : State) : Host.Outcome State Fault Refusal := done s.endWindow

/-! ### Divergences (14 R542 to R545) -/

/-- The bytes of a divergence notice: the record's registers in their order. DESIGN CHOICE; log 68. -/
def Lynx.notice (x : Lynx) : List Byte :=
  leBytes 8 x.divFrame.toNat ++ leBytes 4 x.divWindow ++ leBytes 4 (x.divStream + x.divKind * 2 ^ 8 + 0x62 * 2 ^ 16) ++ leBytes 4 x.divOffset
    ++ leBytes 8 x.divLocal.toNat ++ leBytes 8 x.divRemote.toNat

/-- The package freezes, where ACTION says so and the pair is comparable; Owl logs it under an event code the spec does not give, a free
value (14 R544, R546; log 12). -/
def State.freeze (s : State) : State :=
  if ! bit (s.live 0x0B 0x100) 4 || ! s.refOnly then s
  else
    let e := (Config.freeByte s.draws).toNat
    let s := s.draw.logEvent 0x0B e 3 codeDiverged 0xFF []
    (s.updLynx fun x => { x with frozen := true }).packageFault fun f => { f with frozen := true }

/-- A divergence counted (14 R543). -/
def State.countDiv (s : State) : State := s.updLynx fun x => { x with divCount := sat16 x.divCount }

/-- A divergence: the first one is recorded, told to the partner and raised, and acts as ACTION says; while its record is held, later
ones only count (14 R543, R544). -/
def State.diverge (s : State) (kind window stream offset : Nat) (own other : BitVec 64) : State :=
  if s.lynx.held then s.countDiv
  else
    let n := s.frame.number
    let s := s.countDiv.raise 0x0B 0
    let s := s.updLynx fun x =>
      { x with
        held := true, divFrame := n, divWindow := window, divStream := stream, divKind := kind, divOffset := offset, divLocal := own
        divRemote := other }
    (s.transmit 0 (s.localFrame 0x26 n.toNat window s.lynx.notice)).freeze

/-- A divergence that no stream shows: the record's stream, offset and signatures are free. DESIGN CHOICE; log 69. -/
def State.divergeFree (s : State) (kind window : Nat) : State :=
  let d := s.draws
  let wide (i : Nat) : BitVec 64 := (Config.freeWord (d + i)).append (Config.freeWord (d + i + 1))
  let s : State := { s with draws := d + 6 }
  s.diverge kind window ((Config.freeByte d).toNat % 76) (Config.freeWord (d + 1)).toNat (wide 2) (wide 4)

/-- The signatures a frame carries, with their streams. -/
def sigsOf (f : LinkFrame) : List (Nat × BitVec 64) :=
  let p := bits f.aux.toNat 13 12
  (List.range (min 32 (76 - 32 * p))).map fun i => (32 * p + i, BitVec.ofNat 64 (u64At f.payload (8 * i)))

/-- The partner's signatures compared with those kept of the same window; a window that differs is done with, and one whose three parts
agree as well (14 R542, R543). -/
def State.compareSigs (s : State) (f : LinkFrame) : State :=
  let w := bits f.aux.toNat 11 0
  match s.lynx.kept.find? fun k => k.1 % 4096 = w with
  | none => s
  | some k =>
    let p := bits f.aux.toNat 13 12
    let parts := sinsert k.2.2.2 p
    let others := s.lynx.kept.filter fun j => j.1 ≠ k.1
    match (sigsOf f).find? fun x => x.2 ≠ lget 0 k.2.1 x.1 with
    | some x =>
      (s.updLynx fun y => { y with kept := others }).diverge 1 k.1 x.1 (lget 0 k.2.2.1 x.1) (lget 0 k.2.1 x.1) x.2
    | none =>
      s.updLynx fun y => { y with kept := if parts.length = 3 then others else others ++ [(k.1, k.2.1, k.2.2.1, parts)] }

/-- LYNX_SIG (14 R542): it comes while the window it is of has ended here too. -/
def State.takeSig (s : State) (f : LinkFrame) : State :=
  s.receive 0 f 0x25 fun s =>
    if ! s.lynxOn then s
    else if f.addr ≠ s.frame.number then s.divergeFree 3 (bits f.aux.toNat 11 0)
    else
      let s := if bits f.aux.toNat 11 0 = s.lynx.window % 4096 then s.endWindow else s
      s.compareSigs f
/-- LYNX_SIG -/
def execLynxSig (f : LinkFrame) (s : State) : Host.Outcome State Fault Refusal := done (s.takeSig f)

/-- LYNX_NOTICE (14 R542, R551): after the package's own record it only counts. -/
def State.takeNotice (s : State) (f : LinkFrame) : State :=
  s.receive 0 f 0x26 fun s => if s.lynx.held then s.countDiv else if s.lynxOn then s.divergeFree 4 f.aux.toNat else s
/-- LYNX_NOTICE -/
def execLynxNotice (f : LinkFrame) (s : State) : Host.Outcome State Fault Refusal := done (s.takeNotice f)

/-- LYNX_MISSING (14 R542, R545): window `w + 8` has ended and the partner's signatures for `w` are not whole. -/
def State.missSigs (s : State) (w : Nat) : State :=
  if ! s.lynxOn || s.lynx.window < w + 9 || ! (s.lynx.kept.any fun k => k.1 = w) then s
  else
    let s := s.divergeFree 2 w
    s.updLynx fun x => { x with partnerLost := true, comparing := false, kept := [] }
/-- LYNX_MISSING -/
def execLynxMissing (w : Nat) (s : State) : Host.Outcome State Fault Refusal := done (s.missSigs w)

/-- The record cleared and re-armed (14 R543, R548). -/
def Lynx.clearRecord (x : Lynx) : Lynx :=
  { x with
    held := false, divFrame := 0, divWindow := 0, divStream := 0, divKind := 0, divOffset := 0, divLocal := 0, divRemote := 0 }
/-- DIV_CLEAR -/
def execDivClear (w : Writer) (s : State) : Host.Outcome State Fault Refusal :=
  done (if s.ctlReaches w 0x0B then s.updLynx Lynx.clearRecord else s.refuseWrite w 0x0B true)

end Sys2Proof.Machine
end

