-- ==== Sys2Proof/Machine/Owl.lean ====
section
/-! DEFINITION. Owl (18): mailboxes and their requests, SMBus and UART, the event log, the lifetime counters, firmware updates, identity,
the board configuration, the sensors' rails, and the calendar. -/
namespace Sys2Proof.Machine
open Sys2Proof

/-! ### Mailboxes (18 R674 to R677) -/

/-- The mailbox of a channel; its number is the channel's in a FENCE record, in the order of 18 R717. -/
def chanIx : Channel → Fin 4
  | .portA => 0
  | .portB => 1
  | .smbus => 2
  | .uart => 3

/-- The port of a channel. -/
def chanPort : Channel → Option Port
  | .portA => some .a
  | .portB => some .b
  | _ => none

/-- The channel of a port. -/
def portChan : Port → Channel
  | .a => .portA
  | .b => .portB

/-- A channel's mailbox. -/
def State.box (s : State) (ch : Channel) : Mailbox := s.owl.boxes.at' (chanIx ch)
/-- A channel's mailbox passed through `f`. -/
def State.updBox (s : State) (ch : Channel) (f : Mailbox → Mailbox) : State :=
  s.updOwl fun o => { o with boxes := o.boxes.upd (chanIx ch) f }

/-- A request arrives: BUSY sets, DONE clears, and it takes its place in the order (18 R675, R677). -/
def State.arriveRequest (s : State) (ch : Channel) (req : List Byte) : State :=
  (s.updBox ch fun b => { b with busy := true, done := false, request := req }).updOwl fun o => { o with order := o.order ++ [ch] }

/-- OPCODE, LEN and payload of a request (18 R674). -/
def reqOp (r : List Byte) : Nat := byteAt r 0
/-- LEN. -/
def reqLen (r : List Byte) : Nat := u16At r 4
/-- The payload, zeros where the request is shorter than LEN. -/
def reqData (r : List Byte) : List Byte := padTo (reqLen r) (r.drop 16)

/-- The bytes of a port's MB_REQ (18 R707). -/
def State.reqBytes (s : State) (p : Port) : List Byte :=
  (List.range 64).flatMap fun i => leBytes 4 (s.live (ownPage p) (0x200 + 4 * i))
/-- MB_REQ written whole. -/
def State.setReqBytes (s : State) (p : Port) (r : List Byte) : State :=
  s.forEach (List.range 64) fun s i => s.setLive (ownPage p) (0x200 + 4 * i) (u32At (padTo 256 r) (4 * i))

/-- The response's 16-byte header and payload (18 R674). -/
def State.responseOf (s : State) (req : List Byte) (code : Byte) (data : List Byte) : List Byte :=
  leBytes 2 (s.stat none code).toNat ++ [s.attnSeq none, 0] ++ padTo 2 (req.drop 2) ++ leBytes 2 data.length ++ List.replicate 8 0 ++ data

/-- A response written: BUSY clears, DONE sets; a port's MSI-X vector goes, and the UART sends its frame (18 R675, R681). -/
def State.respond (s : State) (ch : Channel) (code : Byte) (data : List Byte) : State :=
  let r := s.responseOf (s.box ch).request code data
  let s := s.updBox ch fun b => { b with busy := false, done := true, request := [], response := r }
  match ch with
  | .uart => s.updOwl fun o => { o with uartSent := [0x55, 0xAA] ++ r ++ leBytes 4 (crc32 r).toNat }
  | .smbus => s
  | .portA =>
    let v := s.live (ownPage .a) 0x108
    if bit v 7 then s.sendMsix .a (bits v 6 0) else s
  | .portB =>
    let v := s.live (ownPage .b) 0x108
    if bit v 7 then s.sendMsix .b (bits v 6 0) else s

/-! ### Which requests are allowed (18 R676, R678) -/

/-- The firmware opcodes. -/
def fwOp (op : Nat) : Bool := 0x0C ≤ op && op ≤ 0x0E

/-- Owl serves a request: its firmware runs, or the ROM loads an image over the UART (17 R649, R651; 18 R672, R681). -/
def State.owlServes (s : State) (ch : Channel) (op : Nat) : Bool :=
  let p := s.power
  ! s.held && ((1 ≤ p.stage && p.stage ≠ 7) || (p.stage = 0 && p.bootSel = 2 && ch = .uart && fwOp op))

/-- The opcode takes a payload of this length (18 R678, R691). -/
def lenOk (op len : Nat) : Bool :=
  match op with
  | 0x04 => len = 8
  | 0x06 => len = 32
  | 0x07 => len = 16
  | 0x08 => len = 32
  | 0x0A => len = 2
  | 0x0B => len = 2
  | 0x0C => len = 4
  | 0x0D => 5 ≤ len && len ≤ 228
  | 0x10 => len = 32
  | _ => len = 0

/-- The opcode is allowed on the channel (18 R678). -/
def State.opAllowed (s : State) (ch : Channel) (op : Nat) : Bool :=
  let ctl : Bool := chanPort ch = some s.ctrlPort
  let port := (chanPort ch).isSome
  match op with
  | 0x06 => port || ch == .uart
  | 0x07 => port
  | 0x08 => ctl
  | 0x09 => port
  | 0x0A => ctl || ch == .smbus
  | 0x0B => ctl || ch == .smbus
  | 0x0C => ctl || (ch == .uart && (s.inRecovery || s.power.stage = 0))
  | 0x0D => ctl || (ch == .uart && (s.inRecovery || s.power.stage = 0))
  | 0x0E => ctl || (ch == .uart && (s.inRecovery || s.power.stage = 0))
  | 0x0F => ctl
  | 0x10 => ctl || ch == .uart
  | _ => true

/-- The refusal of a request before it is looked into: LENGTH_EXCEEDS_BUFFER, BAD_DESCRIPTOR, NOT_PERMITTED, the first that applies in
this order. DEDUCED; log 71 (18 R676). -/
def State.reqFlaw (s : State) (ch : Channel) (r : List Byte) : Option Byte :=
  let op := reqOp r
  if 240 < reqLen r then some codeLength
  else if op = 0 || 0x11 < op || byteAt r 1 ≠ 0 || ! allZero (padTo 10 (r.drop 6)) || ! lenOk op (reqLen r) then some codeBad
  else if ! s.opAllowed ch op then some codeNotPermitted
  else none

/-! ### Reading requests (18 R682, R686, R687, R694, R696, R697, R706) -/

/-- GET_INFO (18 R706). -/
def State.infoBytes (s : State) : List Byte :=
  let o := s.owl
  let other := if s.power.bank then o.bankA else o.bankB
  leBytes 4 o.runningVersion.toNat ++ leBytes 4 (if other.valid then other.version.toNat else 0)
    ++ [BitVec.ofNat 8 o.rollback, BitVec.ofNat 8 (b2n o.activeB + b2n o.trial * 2 + b2n o.bankA.valid * 4 + b2n o.bankB.valid * 8),
      BitVec.ofNat 8 s.power.stage] ++ List.replicate 21 0

/-- READ_SENSORS (18 R682). -/
def Owl.sensorBytes (o : Owl) : List Byte :=
  (o.junctions.toList ++ o.rails.toList ++ [o.current] ++ o.stackTemps.toList ++ [o.powerNow]).flatMap fun v => leBytes 2 v.toNat

/-- An event record's 64 bytes (18 R685). -/
def Event.bytes (e : Event) : List Byte :=
  let b := leBytes 8 e.seq ++ leBytes 8 e.seconds.toNat ++ leBytes 2 e.page.toNat ++ [e.event, e.severity, e.result, e.unit, 0, 0]
    ++ padTo 32 e.data ++ leBytes 4 e.cycles.toNat
  b ++ leBytes 4 (crc32 b).toNat

/-- READ_LOG (18 R686): up to three records from a SEQ, and the SEQ of the record after them; the next one to be written where none
follows. DEDUCED; log 72. -/
def Owl.logBytes (o : Owl) (start : Nat) : List Byte :=
  let l := (o.flashLog ++ o.buffer).filter fun e => decide (start ≤ e.seq)
  let next := match l.drop 3 with | e :: _ => e.seq | [] => o.nextSeq
  (l.take 3).flatMap Event.bytes ++ leBytes 8 next

/-- DEVICE_ID: the first 8 bytes of the SHA-256 of the public key (18 R694). -/
def deviceIdBytes : List Byte := (digestBytes (sha256 (beBytes 64 Config.publicKey.toNat))).take 8

/-- GET_IDENTITY (18 R696). -/
def identityBytes : List Byte :=
  beBytes 8 Config.serial.toNat ++ deviceIdBytes ++ beBytes 64 Config.publicKey.toNat ++ beBytes 64 Config.endorsement.toNat

/-- The bytes CHALLENGE signs (18 R697): "UBN-CHAL", the nonce, the seconds counter, PAIRED. -/
def State.challengeText (s : State) (nonce : List Byte) : List Byte :=
  ([0x55, 0x42, 0x4E, 0x2D, 0x43, 0x48, 0x41, 0x4C] : List Byte) ++ nonce ++ leBytes 8 s.cal.seconds.toNat
    ++ [BitVec.ofNat 8 (b2n s.owl.pairing.isSome)]

/-- CHALLENGE (18 R697). -/
def State.challengeBytes (s : State) (nonce : List Byte) : List Byte :=
  leBytes 8 s.cal.seconds.toNat ++ [BitVec.ofNat 8 (b2n s.owl.pairing.isSome)]
    ++ beBytes 64 (Config.sign s.draws (sha256 (s.challengeText nonce))).toNat

/-! ### Pairing and fences (18 R679, R695, R698) -/

/-- VERIFY (18 R697). -/
def Owl.verify (o : Owl) (token : List Byte) : Byte :=
  match o.pairing with
  | none => codeUnpaired
  | some h => if sha256 token = h then codeOk else codeToken

/-- PAIR (18 R695): a record that changes sets CHANGED and is logged with both pairing states. -/
def State.pairWith (s : State) (new cur : List Byte) : State × Byte :=
  let old := s.owl.pairing
  match old with
  | some h => if sha256 cur ≠ h then (s, codeToken) else go s old
  | none => go s old
where
  /-- The new record stored, where it differs. -/
  go (s : State) (old : Option Digest) : State × Byte :=
    let rec' := if allZero new then none else some (sha256 new)
    if rec' = old then (s, codeOk)
    else
      let s := s.updOwl fun o => { o with pairing := rec', changed := true }
      (s.logEvent 0xFFFF 0x0D 1 0 0xFF [BitVec.ofNat 8 (b2n old.isSome), BitVec.ofNat 8 (b2n rec'.isSome)], codeOk)

/-- FENCE and UNFENCE (18 R679). -/
def State.fenceReq (s : State) (ch : Channel) (d : List Byte) (on : Bool) : State × Byte :=
  match kindOf (byteAt d 0) with
  | none => (s, codeBad)
  | some k =>
    let n := byteAt d 1
    if s.unitCount k ≤ n then (s, codeBad)
    else (if on then s.fenceUnit k n (chanIx ch).val else s.unfenceUnit k n (chanIx ch).val, codeOk)

/-! ### Firmware (18 R689 to R693) -/

/-- 8 MiB, a bank's size. -/
def bankSize : Nat := 8388608

/-- A bank passed through `f`. -/
def Owl.updBank (o : Owl) (b : Bool) (f : FwBank → FwBank) : Owl :=
  if b then { o with bankB := f o.bankB } else { o with bankA := f o.bankA }

/-- FW_BEGIN (18 R691). An image for Owl SRAM leaves the banks alone (17 R649). -/
def State.fwOpen (s : State) (total : Nat) : State × Byte :=
  if bankSize < total then (s, codeLength)
  else if s.owl.session.isSome then (s, codeBusy)
  else
    let ram : Bool := s.power.stage = 0
    let s := s.updOwl fun o => { o with session := some ⟨total, [], ! ram, ram, []⟩ }
    (if ram then s else s.updOwl fun o => o.updBank (! o.activeB) fun b => { b with bytes := [], valid := false }, codeOk)

/-- FW_CHUNK (18 R691), its erase done. Without a session no offset matches. DEDUCED; log 73. -/
def State.fwWrite (s : State) (d : List Byte) : State × Byte :=
  match s.owl.session with
  | none => (s, codeBad)
  | some x =>
    let data := d.drop 4
    if u32At d 0 ≠ x.written.length then (s, codeBad)
    else if x.total < x.written.length + data.length then (s, codeLength)
    else (s.updOwl fun o => { o with session := some { x with written := x.written ++ data } }, codeOk)

/-- The flaw of a written image, by its reason: 1 LENGTH, 2 HASH, 3 SIGNATURE, 4 ROLLBACK, 5 INCOMPLETE (18 R690, R691). The spec gives
a wrong magic no reason: a free value. DESIGN CHOICE; log 73. -/
def Owl.imageFlaw (o : Owl) (x : Session) (draw : Nat) : Option Byte :=
  let w := x.written
  let body := u32At w 12
  if w.length < x.total then some 5
  else if w.length < 128 || bankSize < 128 + body || w.length ≠ 128 + body then some 1
  else if w.take 4 ≠ ([0x4F, 0x57, 0x4C, 0x46] : List Byte) then some (Config.freeByte draw)
  else if digestBytes (sha256 ((w.drop 64).take body)) ≠ (w.drop 16).take 32 then some 2
  else if ! Config.authentic w then some 3
  else if u32At w 8 < o.rollback then some 4
  else none

/-- DATA of an UPDATE record: result, reason, bank, VERSION, ROLLBACK (18 R685). -/
def updateData (code reason : Byte) (bank : Bool) (w : List Byte) : List Byte :=
  [code, reason, BitVec.ofNat 8 (b2n bank)] ++ leBytes 4 (u32At w 4) ++ leBytes 4 (u32At w 8)

/-- The end of a session: its result in FW_STATUS, UPDATE_DONE raised, and an UPDATE record (18 R685, R707). -/
def State.fwEnd (s : State) (code reason : Byte) (bank : Bool) (w : List Byte) : State :=
  let s := s.updOwl fun o => { o with session := none, fwResult := code }
  (s.logEvent 0xFFFF 0x0C 1 code 0xFF (updateData code reason bank w)).raise 0x0F 2

/-- FW_FINISH (18 R691): code and payload. -/
def State.fwFinish (s : State) : State × Byte × List Byte :=
  match s.owl.session with
  | none => (s, codeBad, [])
  | some x =>
    let bank := ! s.owl.activeB
    match s.owl.imageFlaw x s.draws with
    | some r => ((s.draw.fwEnd codeUpdate r bank x.written), codeUpdate, [r])
    | none =>
      let k : FwBank := { bytes := x.written, valid := true, version := BitVec.ofNat 32 (u32At x.written 4), rollback := u32At x.written 8 }
      let s := s.updOwl fun o =>
        if x.sram then { o with sramImage := some k }
        else { o.updBank bank fun _ => k with activeB := bank, trial := true, trialBooted := false }
      (((s.bumpCounter 19).fwEnd codeOk 0 bank x.written), codeOk, [])

/-- FW_CONFIRM (18 R693). -/
def State.fwConfirm (s : State) : State × Byte :=
  let o := s.owl
  if o.trial && s.power.bank == o.activeB && o.trialBooted && s.isReady then
    (s.updOwl fun o => { o with trial := false, trialBooted := false, rollback := max o.rollback (min 64 o.runningRollback) }, codeOk)
  else (s, codeBad)

/-! ### The board configuration record (18 R699) -/

/-- The record's 32 bytes. -/
def BoardCfg.bytes (b : BoardCfg) : List Byte :=
  ([b.map.toNat, b2n b.ctrlB, b2n b.twin, b.clockMode.toNat, b.refDiv.toNat, b.smbAddr.toNat] : List Nat).map (BitVec.ofNat 8)
    ++ leBytes 4 b.baud.toNat ++ List.replicate 22 0

/-- A record read from its bytes; none where a value is out of range. REF_DIV is coded as in CLOCK.MODE. DEDUCED; log 74. -/
def boardOf (d : List Byte) : Option BoardCfg :=
  let f := byteAt d
  let baud := u32At d 6
  if 2 < f 0 || 1 < f 1 || 1 < f 2 || 2 < f 3 || 15 < f 4 || 127 < f 5 || baud < 9600 || 3000000 < baud || ! allZero (d.drop 10) then none
  else some
    { map := BitVec.ofNat 2 (f 0), ctrlB := f 1 = 1, twin := f 2 = 1, clockMode := BitVec.ofNat 2 (f 3), refDiv := BitVec.ofNat 8 (f 4)
      smbAddr := BitVec.ofNat 7 (f 5), baud := BitVec.ofNat 32 baud }

/-- SET_BOARD_CFG: stored, to apply at the next package reset. -/
def State.setBoard (s : State) (d : List Byte) : State × Byte :=
  match boardOf d with
  | none => (s, codeBad)
  | some b => (s.updOwl fun o => { o with boardStored := some b }, codeOk)

/-! ### Serving (18 R676, R677) -/

/-- A request's effect, its code and its payload; none where it waits for the flash. -/
def State.serveOp (s : State) (ch : Channel) (op : Nat) (d : List Byte) : Option (State × Byte × List Byte) :=
  match op with
  | 0x01 => some (s, codeOk, s.infoBytes)
  | 0x02 => some (s, codeOk, s.owl.sensorBytes)
  | 0x03 => some (s, codeOk, s.owl.counters.toList.flatMap fun w => leBytes 4 w.toNat)
  | 0x04 => some (s, codeOk, s.owl.logBytes (u64At d 0))
  | 0x05 => some (s, codeOk, identityBytes)
  | 0x06 => some (s.draw, codeOk, s.challengeBytes d)
  | 0x07 => some (s, s.owl.verify d, [])
  | 0x08 => let r := s.pairWith (d.take 16) (d.drop 16); some (r.1, r.2, [])
  | 0x09 => some (s.updOwl fun o => { o with changed := false }, codeOk, [])
  | 0x0A => let r := s.fenceReq ch d true; some (r.1, r.2, [])
  | 0x0B => let r := s.fenceReq ch d false; some (r.1, r.2, [])
  | 0x0C => let r := s.fwOpen (u32At d 0); some (r.1, r.2, [])
  | 0x0D =>
    let r := s.fwWrite d
    match s.owl.session with
    | some x => if x.erasing && r.2 = codeOk then none else some (r.1, r.2, [])
    | none => some (r.1, r.2, [])
  | 0x0E => some s.fwFinish
  | 0x0F => let r := s.fwConfirm; some (r.1, r.2, [])
  | 0x10 => let r := s.setBoard d; some (r.1, r.2, [])
  | 0x11 => some (s, codeOk, (s.owl.boardStored.getD BoardCfg.default).bytes)
  | _ => some (s, codeBad, [])

/-- A FW_CHUNK waits for the erase (18 R677, R691). -/
def State.holdChunk (s : State) (ch : Channel) (r : List Byte) : State :=
  s.updOwl fun o => { o with session := o.session.map fun x => { x with held := x.held ++ [(ch, r)] } }

/-- The request of a channel served; a refused one changes nothing (18 R676). -/
def State.serveRequest (s : State) (ch : Channel) : State :=
  let r := (s.box ch).request
  let s := s.updOwl fun o => { o with order := o.order.filter fun c => decide (c ≠ ch) }
  match s.reqFlaw ch r with
  | some c => s.respond ch c []
  | none =>
    match s.serveOp ch (reqOp r) (reqData r) with
    | some x => x.1.respond ch x.2.1 x.2.2
    | none => s.holdChunk ch r

/-- Requests served in their order of arrival, up to a channel's own (18 R677, R717). -/
def State.serveUpTo (s : State) (ch : Channel) : State :=
  if s.owl.order.contains ch then
    s.forEach ((s.owl.order.takeWhile fun c => decide (c ≠ ch)) ++ [ch]) State.serveRequest
  else s

/-- The channel can bring a request: a port that is ready, or a framed channel. -/
def State.chanUp (s : State) (ch : Channel) : Bool := match chanPort ch with | some p => s.portUp p | none => true

/-- A request of an opcode that meets `isOp` comes on a channel and is served. One that already waits there, from a write of GO, is the
one served. -/
def State.mailRow (s : State) (isOp : Nat → Bool) (ch : Channel) (req : List Byte) : State :=
  let r := if (s.box ch).busy then (s.box ch).request else req
  if ! isOp (reqOp r) || ! s.owlServes ch (reqOp r) || ! s.chanUp ch then s
  else
    let s :=
      if (s.box ch).busy then s
      else match chanPort ch with
        | some p => (s.setReqBytes p req).arriveRequest ch req
        | none => s.arriveRequest ch req
    s.serveUpTo ch

/-- A row of one opcode. -/
def State.mailOp (s : State) (op : Nat) (ch : Channel) (req : List Byte) : State := s.mailRow (· == op) ch req

/-- GET_INFO -/
def execGetInfo (ch : Channel) (req : List Byte) (s : State) : Host.Outcome State Fault Refusal := done (s.mailOp 0x01 ch req)
/-- READ_SENSORS -/
def execReadSensors (ch : Channel) (req : List Byte) (s : State) : Host.Outcome State Fault Refusal := done (s.mailOp 0x02 ch req)
/-- READ_COUNTERS -/
def execReadCounters (ch : Channel) (req : List Byte) (s : State) : Host.Outcome State Fault Refusal := done (s.mailOp 0x03 ch req)
/-- READ_LOG -/
def execReadLog (ch : Channel) (req : List Byte) (s : State) : Host.Outcome State Fault Refusal := done (s.mailOp 0x04 ch req)
/-- GET_IDENTITY -/
def execGetIdentity (ch : Channel) (req : List Byte) (s : State) : Host.Outcome State Fault Refusal := done (s.mailOp 0x05 ch req)
/-- CHALLENGE -/
def execChallenge (ch : Channel) (req : List Byte) (s : State) : Host.Outcome State Fault Refusal := done (s.mailOp 0x06 ch req)
/-- VERIFY -/
def execVerify (ch : Channel) (req : List Byte) (s : State) : Host.Outcome State Fault Refusal := done (s.mailOp 0x07 ch req)
/-- PAIR -/
def execPair (ch : Channel) (req : List Byte) (s : State) : Host.Outcome State Fault Refusal := done (s.mailOp 0x08 ch req)
/-- IDENT_ACK -/
def execIdentAck (ch : Channel) (req : List Byte) (s : State) : Host.Outcome State Fault Refusal := done (s.mailOp 0x09 ch req)
/-- FENCE -/
def execFence (ch : Channel) (req : List Byte) (s : State) : Host.Outcome State Fault Refusal := done (s.mailOp 0x0A ch req)
/-- UNFENCE -/
def execUnfence (ch : Channel) (req : List Byte) (s : State) : Host.Outcome State Fault Refusal := done (s.mailOp 0x0B ch req)
/-- FW_BEGIN -/
def execFwBegin (ch : Channel) (req : List Byte) (s : State) : Host.Outcome State Fault Refusal := done (s.mailOp 0x0C ch req)
/-- FW_CHUNK -/
def execFwChunk (ch : Channel) (req : List Byte) (s : State) : Host.Outcome State Fault Refusal := done (s.mailOp 0x0D ch req)
/-- FW_FINISH -/
def execFwFinish (ch : Channel) (req : List Byte) (s : State) : Host.Outcome State Fault Refusal := done (s.mailOp 0x0E ch req)
/-- FW_CONFIRM -/
def execFwConfirm (ch : Channel) (req : List Byte) (s : State) : Host.Outcome State Fault Refusal := done (s.mailOp 0x0F ch req)
/-- SET_BOARD_CFG -/
def execSetBoardCfg (ch : Channel) (req : List Byte) (s : State) : Host.Outcome State Fault Refusal := done (s.mailOp 0x10 ch req)
/-- GET_BOARD_CFG -/
def execGetBoardCfg (ch : Channel) (req : List Byte) (s : State) : Host.Outcome State Fault Refusal := done (s.mailOp 0x11 ch req)
/-- UNASSIGNED_MAILBOX_OPCODE (18 R676). -/
def execUnassignedMailboxOpcode (ch : Channel) (req : List Byte) (s : State) : Host.Outcome State Fault Refusal :=
  done (s.mailRow (fun op => op == 0 || decide (0x11 < op)) ch req)

/-- A write of GO by a port (18 R675): while BUSY it is ignored and sets MB_ERR. -/
def State.mailGo (s : State) (p : Port) : State :=
  if ! s.portUp p then s
  else if (s.box (portChan p)).busy then s.updBox (portChan p) fun b => { b with err := true }
  else s.arriveRequest (portChan p) (s.reqBytes p)

/-- MB_GO_WHILE_BUSY -/
def execMbGoWhileBusy (p : Port) (s : State) : Host.Outcome State Fault Refusal :=
  done (if (s.box (portChan p)).busy then s.mailGo p else s)

/-- MAILBOX_FRAME_DISCARDED (18 R680, R681): nothing changes. -/
def execMailboxFrameDiscarded (_ch : Channel) (s : State) : Host.Outcome State Fault Refusal := done s

/-- FLASH_ERASE_DONE (18 R691): requests that waited for the erase are served. -/
def State.eraseDone (s : State) : State :=
  match s.owl.session with
  | none => s
  | some x =>
    if s.held || ! x.erasing then s
    else
      let s := s.updOwl fun o => { o with session := some { x with erasing := false, held := [] } }
      s.forEach x.held fun s c =>
        match s.serveOp c.1 (reqOp c.2) (reqData c.2) with
        | some y => y.1.respond c.1 y.2.1 y.2.2
        | none => s
/-- FLASH_ERASE_DONE -/
def execFlashEraseDone (s : State) : Host.Outcome State Fault Refusal := done s.eraseDone

/-! ### SMBus reads (18 R672, R680) -/

/-- CAL_STATUS bits [7:0] (18 R708). -/
def Calendar.statusByte (c : Calendar) : Byte := BitVec.ofNat 8 (b2n c.valid + b2n c.ended * 2)

/-- SMB_RESPONSE_READ of a command: bytes 0 to 127 or 128 to 255 of the response; not acknowledged while the processor is held. -/
def State.smbRead (s : State) (cmd : Byte) : State :=
  let r := padTo 256 (s.box .smbus).response
  s.updOwl fun o =>
    { o with smbData := if s.held then none else if cmd = 2 then some (r.take 128) else if cmd = 3 then some (r.drop 128) else none }
/-- SMB_RESPONSE_READ -/
def execSmbResponseRead (cmd : Byte) (s : State) : Host.Outcome State Fault Refusal := done (s.smbRead cmd)

/-- SMB_TIME_READ: the island answers while VAON is present. -/
def State.smbTime (s : State) : State :=
  let d := leBytes 8 s.cal.seconds.toNat ++ [s.cal.statusByte, 0, 0, 0]
  s.updOwl fun o => { o with smbData := if s.power.vaon then some d else none }
/-- SMB_TIME_READ -/
def execSmbTimeRead (s : State) : Host.Outcome State Fault Refusal := done s.smbTime

/-! ### The event log and the counters (18 R686 to R688) -/

/-- A record written to the flash ring of 737,280 records; where it is the first of a sector, that sector's older records go. -/
def logPut (l : List Event) (e : Event) : List Event :=
  let low := (e.seq / 1024 + 1) * 1024 - 737280
  (if e.seq % 1024 = 0 then l.filter fun x => decide (low ≤ x.seq) else l) ++ [e]

/-- LOG_FLUSH (18 R686, R716): with V3P3 present the buffer goes to flash, and what was dropped is recorded. -/
def State.flushLog (s : State) : State :=
  if s.held || ! s.power.v3p3 || s.owl.buffer = [] then s
  else
    let n := s.owl.dropsPending
    let s := s.updOwl fun o => { o with flashLog := o.buffer.foldl logPut o.flashLog, buffer := [], dropsPending := 0 }
    if n = 0 then s else s.logEvent 0xFFFF 0x10 2 0 0xFF (leBytes 4 n)
/-- LOG_FLUSH -/
def execLogFlush (s : State) : Host.Outcome State Fault Refusal := done s.flushLog

/-- COUNTER_CHECKPOINT (18 R688): at most once in 10 s; the journal holds 8,192. -/
def State.checkpoint (s : State) : State :=
  if s.held || (s.owl.journal ≠ [] && s.owl.sinceCheckpoint < 10) then s
  else s.updOwl fun o =>
    let j := o.journal ++ [o.counters.toList]
    { o with journal := j.drop (j.length - 8192), sinceCheckpoint := 0 }
/-- COUNTER_CHECKPOINT -/
def execCounterCheckpoint (s : State) : Host.Outcome State Fault Refusal := done s.checkpoint

/-! ### Rails (18 R682, R683) -/

/-- The readings from index `n` on, which are of absent sites, read as 0 (18 R682). -/
def presentOnly {k : Nat} (n : Nat) (v : Bank (BitVec 16) k) : Bank (BitVec 16) k :=
  Vector.ofFn fun i => if i.val < n then v[i] else 0

/-- RAIL_SAMPLE: rails, VCORE current, stack temperatures and package power, the last also for POWER.LAST and PEAK (17 R661). -/
def State.railSample (s : State) (rails : Bank (BitVec 16) 15) (current : BitVec 16) (stackTemps : Bank (BitVec 16) 4)
    (power : BitVec 16) : State :=
  if s.held then s
  else
    let bad := (s.badRail rails).isSome
    let s := s.updOwl fun o =>
      { o with
        rails := presentOnly (7 + 2 * s.chip.nSites) rails, current := current
        stackTemps := presentOnly s.chip.nSites stackTemps, powerNow := power, railBad := bad }
    let s := if s.frame.inFrame then s.updPower fun p => { p with samples := p.samples ++ [power.toNat] } else s
    s.judgeAlert
/-- RAIL_SAMPLE -/
def execRailSample (rails : Bank (BitVec 16) 15) (current : BitVec 16) (stackTemps : Bank (BitVec 16) 4) (power : BitVec 16)
    (s : State) : Host.Outcome State Fault Refusal := done (s.railSample rails current stackTemps power)

/-! ### The calendar (18 R701 to R705) -/

/-- A leap year (18 R701). -/
def leap (y : Nat) : Bool := y % 4 = 0 && (y % 100 ≠ 0 || y % 400 = 0)
/-- Days of a month (18 R701). -/
def monthDays (y m : Nat) : Nat :=
  match m with
  | 2 => if leap y then 29 else 28
  | 4 => 30
  | 6 => 30
  | 9 => 30
  | 11 => 30
  | _ => 31

/-- The calendar reads its last second. -/
def Calendar.atEnd (c : Calendar) : Bool :=
  c.year = 2399 && c.month = 12 && c.day = 31 && c.hour = 23 && c.minute = 59 && c.second = 59

/-- One second forward, carried through the fields (18 R702). -/
def Calendar.advance (c : Calendar) : Calendar :=
  if c.second < 59 then { c with second := c.second + 1 }
  else
    let c := { c with second := 0 }
    if c.minute < 59 then { c with minute := c.minute + 1 }
    else
      let c := { c with minute := 0 }
      if c.hour < 23 then { c with hour := c.hour + 1 }
      else
        let c := { c with hour := 0 }
        if c.day < monthDays c.year c.month then { c with day := c.day + 1 }
        else
          let c := { c with day := 1 }
          if c.month < 12 then { c with month := c.month + 1 } else { c with month := 1, year := c.year + 1 }

/-- A second of the real-time clock: the calendar stands at its end, and CAL_END sets when it reads it; the seconds counter goes on
(18 R702). -/
def Calendar.tick (c : Calendar) : Calendar :=
  let c := { (if c.atEnd then c else c.advance) with seconds := c.seconds + 1 }
  { c with ended := c.ended || c.atEnd }

/-- The seconds from 2000-01-01T00:00:00 to a date and time. -/
def secondsOf (y m d h mi se : Nat) : Nat :=
  let days := nsum ((List.range (y - 2000)).map fun i => if leap (2000 + i) then 366 else 365)
    + nsum ((List.range (m - 1)).map fun i => monthDays y (i + 1)) + (d - 1)
  days * 86400 + h * 3600 + mi * 60 + se

/-- The bin of a junction reading in 1/16 °C, as its counter (18 R687). -/
def tempBin (j : Int) : Nat :=
  if j < 0 then 1 else 2 + (([25, 50, 70, 85, 95, 100, 105, 115] : List Int).countP fun b => decide (16 * b ≤ j))

/-- What Owl counts each second with PWR_GOOD high (18 R687, R688; 16 R625). -/
def State.owlSecond (s : State) : State :=
  if ! s.power.pwrGood then s
  else
    let s := s.bumpCounter (tempBin s.power.junction)
    let hour : Bool := 3600 ≤ s.owl.hourSeconds + 1
    let s := s.updOwl fun o =>
      { o with hourSeconds := if hour then 0 else o.hourSeconds + 1, sinceCheckpoint := o.sinceCheckpoint + 1 }
    let s := if hour then s.bumpCounter 0 else s
    if ! s.held && s.clock.trimPeriodic && ! s.clock.trimBusy then s.updClock Clock.startTrim else s

/-- RTC_SECOND (18 R702): not while the clock's source is lost. -/
def State.rtcSecond (s : State) : State :=
  if ! s.power.vaon || s.cal.lost then s else (s.updCal Calendar.tick).owlSecond
/-- RTC_SECOND -/
def execRtcSecond (s : State) : Host.Outcome State Fault Refusal := done s.rtcSecond

/-- RTC_SOURCE_LOST (18 R673). -/
def execRtcSourceLost (s : State) : Host.Outcome State Fault Refusal :=
  done (s.updCal fun c => { c with lost := true, valid := false })
/-- RTC_SOURCE_RETURN (18 R673): the calendar resumes from the held values. -/
def execRtcSourceReturn (s : State) : Host.Outcome State Fault Refusal := done (s.updCal fun c => { c with lost := false })

/-- The staged date and time are valid (18 R703). -/
def stagedOk (d t : Nat) : Bool :=
  let y := bits d 15 0
  let m := bits d 23 16
  let day := bits d 31 24
  2000 ≤ y && y ≤ 2399 && 1 ≤ m && m ≤ 12 && 1 ≤ day && day ≤ monthDays y m && bits t 23 16 ≤ 23 && bits t 15 8 ≤ 59 && bits t 7 0 ≤ 59

/-- A valid CAL_SET (18 R704). -/
def Calendar.set (c : Calendar) (d t : Nat) : Calendar :=
  let c := { c with
    year := bits d 15 0, month := bits d 23 16, day := bits d 31 24, hour := bits t 23 16, minute := bits t 15 8, second := bits t 7 0
    seconds := BitVec.ofNat 64 (secondsOf (bits d 15 0) (bits d 23 16) (bits d 31 24) (bits t 23 16) (bits t 15 8) (bits t 7 0))
    valid := true, result := codeOk }
  { c with ended := c.atEnd }

/-- A write of 1 to CAL_CTRL.CAL_SET (18 R703, R704). -/
def State.calSet (s : State) (w : Writer) : State :=
  if ! s.isCtl w then s.refuseWrite w 0x10 true
  else
    let d := s.live 0x10 0x100
    let t := s.live 0x10 0x104
    if ! stagedOk d t then (s.updCal fun c => { c with result := codeDate }).recordDirect w 0x10 0x108 codeDate
    else
      let old := s.cal.seconds.toNat
      let s := s.updCal fun c => c.set d t
      s.logEvent 0x10 0x0E 0 0 0xFF (leBytes 8 old ++ leBytes 8 s.cal.seconds.toNat)
/-- CAL_SET -/
def execCalSet (p : Port) (s : State) : Host.Outcome State Fault Refusal := done (s.calSet (.port p))

end Sys2Proof.Machine
end

