-- ==== Sys2Proof/Machine/Storage.lean ====
section
/-! DEFINITION. Storage errors (19 R723 to R728, R733, R736): corrected and uncorrectable errors of SRAM and DRAM, and how far they
reach. -/
namespace Sys2Proof.Machine
open Sys2Proof

/-! ### Where an error lies (19 R724, R733) -/

/-- The page that owns a storage (19 R733). -/
def storagePage : Storage → Nat
  | .coreStore c => corePage c.val
  | .badgerCheck e => enginePage e.val
  | .badgerBitmap e _ => enginePage e.val
  | .bear _ => 0x0A
  | .jay _ => 0x05
  | .front _ => 0x08
  | .burrowTile _ _ _ => 0x06
  | .burrowDirectory => 0x06
  | .beaver => 0x04
  | .fabric => 0x00
  | .lynx => 0x00
  | .spoor => 0x00
  | .owlSram => 0x0F

/-- The unit whose storage it is. -/
def storageUnit : Storage → Option (UnitKind × Nat)
  | .coreStore c => some (.core, c.val)
  | .badgerCheck e => some (.badger, e.val)
  | .badgerBitmap e _ => some (.badger, e.val)
  | .bear u => some (.bear, u.val)
  | .jay u => some (.jay, u.val)
  | .front f => some (.front, f.val)
  | _ => none

/-- UNIT of the error's event record: the unit index, 0xFF where no unit owns the storage. -/
def storageIndex (x : Storage) : Nat := match storageUnit x with | some u => u.2 | none => 0xFF

/-- The part has the storage. -/
def State.hasStorage (s : State) (x : Storage) : Bool :=
  match storageUnit x with
  | some (k, n) => decide (n < s.unitCount k)
  | none => true

/-- SRAM_CORRECTED (19 R723). -/
def State.sramCorrected (s : State) (x : Storage) : State := if s.held || ! s.hasStorage x then s else s.bumpErr (storagePage x)
/-- SRAM_CORRECTED -/
def execSramCorrected (x : Storage) (s : State) : Host.Outcome State Fault Refusal := done (s.sramCorrected x)

/-! ### Units (13 R515; 19 R724, R725) -/

/-- An uncorrectable error of a unit counted: at its fourth since package reset Owl fences it (19 R725). Answers whether it has. -/
def State.countUe (s : State) (k : UnitKind) (n : Nat) : State × Bool :=
  let s := s.updView k n fun v => { v with ueCount := v.ueCount + 1 }
  let c := match s.view k n with | some v => v.ueCount | none => 0
  if c = 4 then (s.fenceUnit k n 0xFF, true) else (s, decide (4 < c))

/-- A unit reports an internal fault: Beaver's view of it becomes DOWN, and Owl resets it, unless it is fenced for its errors (13 R515;
19 R725). -/
def State.internalFault (s : State) (k : UnitKind) (n : Nat) : State :=
  let s := s.setView k n fun v => { v with beaverUp := false }
  let r := s.countUe k n
  if r.2 then r.1 else r.1.owlUnitReset k n

/-- A core's store fails: the task that runs there faults (19 R719, R724). -/
def State.coreStoreFault (s : State) (c : Nat) : State :=
  let s := match (s.core c).run with
    | some r => s.faultPart c r codeMemoryUe
    | none => s
  s.internalFault .core c

/-- Check data of an engine fail: the check in progress ends UNSURE (19 R724). -/
def State.badgerFault (s : State) (e : Fin 16) : State :=
  let s := if (s.engines.at' e).current.isSome then (s.updEngine e.val fun k => { k with spoiled := true }).endCheck e else s
  s.internalFault .badger e.val

/-- A word of an engine's CLEAR bitmap reads as clear until the next tick, for every tenant whose region it serves (19 R724, R726). A
Hedgehog whose bit is lost can leave the result IMMINENT (01 R55, R65). -/
def State.bitmapFault (s : State) (e : Fin 16) (word : Nat) : State :=
  let s := s.forTenants fun s t =>
    let base := s.candBase t
    let first := base / 16 / 64
    let last := (base + s.candQuota t - 1) / 16 / 64
    if (s.tenant t).exists' && decide (0 < s.candQuota t) && decide (first ≤ word) && decide (word ≤ last)
      && ! (s.tenant t).table.lost.contains (e.val, word) then
      s.updTable t fun b => { b with lost := b.lost ++ [(e.val, word)] }
    else s
  (s.countUe .badger e.val).1.forTenants State.judgeImminent

/-- A Burrow tile's storage fails: it is uniform OCCUPIED, in the store and in the frame's sealed view, and counts as collapsed (19
R724). -/
def World.tileFault (w : World) (slice : Option Nat) (i : Nat) : World :=
  let w := w.collapse (slice, i)
  let inView (v : Sealed) : Sealed :=
    match slice with
    | none => { v with stat := mset Tile.default v.stat i { mget Tile.default v.stat i with body := .uniform .occupied } }
    | some j => { v with dyn := mput v.dyn (1024 * j + i) (.uniform .occupied), collapsed := sinsert v.collapsed (1024 * j + i) }
  { w with view := w.view.map inView }

/-- An uncorrectable SRAM error contained where it lies (19 R724). -/
def State.containUe (s : State) (x : Storage) : State :=
  match x with
  | .coreStore c => s.coreStoreFault c.val
  | .badgerCheck e => s.badgerFault e
  | .badgerBitmap e w => s.bitmapFault e w
  | .bear u => s.internalFault .bear u.val
  | .jay u => s.internalFault .jay u.val
  | .front f => s.internalFault .front f.val
  | .burrowTile t j i => s.updWorld t fun w => w.tileFault (j.map (·.val)) i.val
  | .fabric => s.packageFault fun f => { f with sram := true, fabric := true }
  | .burrowDirectory => s.packageFault fun f => { f with sram := true }
  | .beaver => s.packageFault fun f => { f with sram := true }
  | .lynx => s.packageFault fun f => { f with sram := true }
  | .spoor => s.packageFault fun f => { f with sram := true }
  | .owlSram => s.owlDomainReset

/-- SRAM_UE (19 R724): counted, logged under an event code the spec does not give, a free value, and contained. DESIGN CHOICE; log 12.
-/
def State.sramUe (s : State) (x : Storage) : State :=
  if s.held || ! s.hasStorage x then s
  else
    let e := (Config.freeByte s.draws).toNat
    let s := (s.bumpErr (storagePage x)).draw.logEvent (storagePage x) e 2 codeMemoryUe (storageIndex x) []
    s.containUe x
/-- SRAM_UE -/
def execSramUe (x : Storage) (s : State) : Host.Outcome State Fault Refusal := done (s.sramUe x)

/-! ### DRAM (19 R727, R728) -/

/-- DRAM_CORRECTED (19 R727). -/
def State.dramCorrected (s : State) (a : Nat) : State :=
  if s.held || s.chip.capacity ≤ a then s
  else
    let d := siteOf s.chip a
    let v := s.live (sitePage d) 0x104
    let s := s.setLive (sitePage d) 0x104 (sat16 (bits v 15 0) + bits v 31 16 * 2 ^ 16)
    let s := (s.bumpErr (sitePage d)).bumpCounter (14 + d)
    s.updDram fun m => { m with writeBack := bupd m.writeBack d fun l => if 64 ≤ l.length then l else l ++ [a / 32] }
/-- DRAM_CORRECTED -/
def execDramCorrected (a : Nat) (s : State) : Host.Outcome State Fault Refusal := done (s.dramCorrected a)

/-- DRAM_UE (19 R728): the block stays poisoned until a write covers all of it. -/
def State.dramUe (s : State) (a : Nat) : State :=
  if s.held || s.chip.capacity ≤ a then s
  else
    let d := siteOf s.chip a
    let v := s.live (sitePage d) 0x104
    let s := s.setLive (sitePage d) 0x104 (bits v 15 0 + sat16 (bits v 31 16) * 2 ^ 16)
    let s := ((s.bumpErr (sitePage d)).raise (sitePage d) 1).logEvent (sitePage d) 0x0B 2 codeMemoryUe d (BitVec.ofNat 8 d :: leBytes 8 a)
    s.updDram fun m => { m with poison := sinsert m.poison (a / 32) }
/-- DRAM_UE -/
def execDramUe (a : Nat) (s : State) : Host.Outcome State Fault Refusal := done (s.dramUe a)

end Sys2Proof.Machine
end

