-- ==== Sys2Proof/Machine/Jtag.lean ====
section
/-! DEFINITION. JTAG and boundary scan (20 R763 to R766): the instruction register, what each instruction captures, and the package
reset that the test instructions hold. -/
namespace Sys2Proof.Machine
open Sys2Proof

/-- IDCODE (20 R764): version 1 for stepping A1; of another stepping the spec gives no version, a free value. DESIGN CHOICE; log 75. -/
def State.idcode (s : State) : Nat :=
  let v := if s.chip.stepLetter = 1 ∧ s.chip.stepDigit = 1 then 1 else (Config.freeByte s.draws).toNat % 16
  v * 2 ^ 28 + 0x5B300A7

/-- FAULT_N is driven low (19 R730). -/
def State.faultPin (s : State) : Bool := s.inFault || s.inRecovery
/-- TEMP_ALERT_N is driven low (19 R731). -/
def State.tempPin (s : State) : Bool := s.power.tempAlert || s.fault.trip

/-- Length of the boundary register (20 R765). -/
def Chip.cells (c : Chip) : Nat := if c.nLinks = 8 then 188 else 140

/-- The boundary cells that show a pin the model holds, by their number in the order of 20 R742 and R765: FTICK_OUT's data cell,
PWR_GOOD, SYS_RST_N, both PERST_N, the data cells of SAFE_STATE, FAULT_N and TEMP_ALERT_N, and the straps. -/
def State.knownCells (s : State) : List (Nat × Bool) :=
  let p := s.power
  [(3, s.frame.ftickOut), (4, p.pwrGood), (5, ! p.sysRst), (6, ! s.cfgA.perst), (7, ! s.cfgB.perst), (9, s.frame.safePin),
   (11, ! s.faultPin), (13, ! s.tempPin), (14, p.cascBall), (15, p.bootSelBalls.getLsbD 0), (16, p.bootSelBalls.getLsbD 1)]

/-- The boundary register as captured; a cell of a pin that the model does not hold is free. DESIGN CHOICE; log 75. -/
def State.captureCells (s : State) : List Bool :=
  let known := s.knownCells
  (List.range s.chip.cells).map fun i =>
    match known.find? fun x => x.1 = i with
    | some x => x.2
    | none => (Config.freeByte (s.draws + i)).getLsbD 0

/-- An instruction is in the register, with what its data register captures. Leaving a test instruction completes the package reset it
held (20 R766). -/
def State.loadJtag (s : State) (ir : Byte) (d : List Bool) : State :=
  let s : State := { s with jtag := { ir := ir, captured := d } }
  if s.power.jtagHold then (s.updPower fun p => { p with jtagHold := false }).startBoot else s

/-- A test instruction is in the register: the device is held in package reset with cause SYS_RST (20 R766). -/
def State.loadTest (s : State) (ir : Byte) (d : List Bool) : State :=
  let s : State := { s with jtag := { ir := ir, captured := d }, draws := s.draws + s.chip.cells }
  if s.power.jtagHold then s else (s.packageReset 1).updPower fun p => { p with jtagHold := true }

/-- EXTEST -/
def execExtest (s : State) : Host.Outcome State Fault Refusal := done (s.loadTest 0x00 s.captureCells)
/-- CLAMP: the bypass register is selected. -/
def execClamp (s : State) : Host.Outcome State Fault Refusal := done (s.loadTest 0x04 [false])
/-- HIGHZ: the bypass register is selected. -/
def execHighz (s : State) : Host.Outcome State Fault Refusal := done (s.loadTest 0x05 [false])
/-- EXTEST_PULSE -/
def execExtestPulse (s : State) : Host.Outcome State Fault Refusal := done (s.loadTest 0x06 s.captureCells)
/-- EXTEST_TRAIN -/
def execExtestTrain (s : State) : Host.Outcome State Fault Refusal := done (s.loadTest 0x07 s.captureCells)
/-- IDCODE -/
def execIdcode (s : State) : Host.Outcome State Fault Refusal :=
  done ((s.loadJtag 0x01 ((List.range 32).map fun i => bit s.idcode i)).draw)
/-- SAMPLE/PRELOAD -/
def execSamplePreload (s : State) : Host.Outcome State Fault Refusal :=
  done { s.loadJtag 0x02 s.captureCells with draws := s.draws + s.chip.cells }
/-- BYPASS -/
def execBypass (s : State) : Host.Outcome State Fault Refusal := done (s.loadJtag 0xFF [false])

end Sys2Proof.Machine
end

