-- ==== Sys2Proof/Machine/RegWrite.lean ====
section
/-! DEFINITION. Writing BAR0 (12): the common header, live and shadow values, direct writes, what each port may write, and the actions
of registers whose writes act at once. -/
namespace Sys2Proof.Machine
open Sys2Proof

/-! ### Who reaches what (13 R492, R493) -/

/-- A writer reaches the registers of a page. -/
def State.reaches (s : State) (w : Writer) (page : Nat) : Bool :=
  match w with
  | .owl => ! s.held && s.pagePresent page
  | .port p => s.portUp p && s.mayRead p page

/-- The bits of a register a writer may write: those of the table, and of TRACE.CTRL the TENANTS bits of its own tenants, the other
fields being the control port's (13 R492, R493). -/
def State.mayBits (s : State) (w : Writer) (page : Nat) (r : Reg) (i : Nat) : Nat :=
  match w, r.writer with
  | .port p, .both =>
    nsum ((allFin 16).map fun t => b2n (s.ownerOf t = p) * 2 ^ (16 + t.val)) + (if s.ctrlPort = p then 0xFFFF else 0)
  | _, _ => if s.mayWrite w page r i then 0xFFFFFFFF else 0

/-- A write would change fields under a mask: a RW field takes a new value, a set W1C bit clears, a WO field triggers (00 R8). -/
def wouldChange (r : Reg) (mask old v : Nat) : Bool :=
  decide ((old ^^^ v) &&& r.rw &&& mask ≠ 0 ∨ old &&& v &&& r.w1c &&& mask ≠ 0 ∨ v &&& r.wo &&& mask ≠ 0)

/-- A value as a write leaves its RW fields, fields outside the mask keeping theirs; reserved bits are dropped (00 R8, R10). -/
def mergeRw (r : Reg) (mask old v : Nat) : Nat := (old &&& (0xFFFFFFFF ^^^ (r.rw &&& mask))) ||| (v &&& r.rw &&& mask)

/-! ### The common header (12 R458, R460, R461, R466, R467, R475; 13 R493) -/

/-- A write of PAGE_CTRL: each port its own VIEW bit, STAGE_Q for who may write the page's header, and DISCARD. -/
def State.writePageCtrl (s : State) (w : Writer) (page v : Nat) : State :=
  let old := (mget 0 s.attn.pageCtrl page).toNat
  let own := match w with | .owl => 3 | .port p => 2 ^ portIx p
  let mask := own + (if s.mayWriteHeader w page then 4 else 0)
  let new := (old &&& (7 ^^^ mask)) ||| (v &&& mask)
  let s := s.updAttn fun a => { a with pageCtrl := mset 0 a.pageCtrl page (BitVec.ofNat 32 new) }
  let s := if (old ^^^ v) &&& (7 ^^^ mask) ≠ 0 then s.bumpErr page else s
  if bit v 3 then (match w with | .port p => s.discardPage p page | .owl => s.reloadShadows .owl page) else s

/-- A W1C write of ATTN_LATCH. -/
def State.writeLatch (s : State) (w : Writer) (page : Nat) (v : Word) : State :=
  if s.reaches w page then s.updAttn fun a => a.clearLatch page (s.attnRaw page) v else s
/-- A write of ATTN_MASK. -/
def State.writeMask (s : State) (w : Writer) (page : Nat) (v : Word) : State :=
  if ! s.reaches w page then s
  else if s.mayWriteHeader w page then s.updAttn fun a => a.setMask page v
  else if mget 0 s.attn.mask page ≠ v &&& attnBits page then s.bumpErr page else s
/-- A W1C write of WMARK_CROSSED. -/
def State.writeCrossed (s : State) (w : Writer) (page : Nat) (v : Word) : State :=
  if s.reaches w page then s.updAttn fun a => a.clearCrossed page v else s
/-- A write of WMARK_COUNT. -/
def State.writeCount (s : State) (w : Writer) (page v : Nat) : State :=
  if s.mayWriteHeader w page then s.updAttn fun a => { a with count := mset 0 a.count page (v % 65536) }
  else if mget 0 s.attn.count page ≠ v % 65536 then s.bumpErr page else s

/-- A write of a register of the common header. -/
def State.writeHeader (s : State) (w : Writer) (page off v : Nat) : State :=
  match off with
  | 0x00C => s.writePageCtrl w page v
  | 0x014 => s.writeLatch w page (BitVec.ofNat 32 v)
  | 0x018 => s.writeMask w page (BitVec.ofNat 32 v)
  | 0x01C => (match w with | .port p => s.commitWrite p page (v % 16) (bit v 8) | .owl => s)
  | 0x028 => s.writeCrossed w page (BitVec.ofNat 32 v)
  | 0x02C => s.writeCount w page v
  | _ => s

/-! ### Registers whose writes act at once -/

/-- A write of Q_CTRL (11 R417, R418, R421, R451): a completion queue that is enabled starts an empty ring on its first pass. -/
def State.writeQCtrl (s : State) (t : Fin 16) (q : Fin 8) (v : Nat) : State :=
  let was := s.cqEn t q
  let s := s.setLive (queuePage t q) 0x100 (v % 8)
  let s := if ! was && s.cqEn t q then
      s.updQueue t q fun k => { k with cqHead := 0, cqTail := 0, toggle := true, written := 0, cqActive := true }
    else s
  (s.reserveFrame t).refreshActive t q

/-- A write of Q_STATUS (11 R417): DB_ERR and DMA_ERR clear where written 1. -/
def State.writeQStatus (s : State) (t : Fin 16) (q : Fin 8) (v : Nat) : State :=
  s.updQueue t q fun k => { k with dbErr := k.dbErr && ! bit v 2, dmaErr := k.dmaErr && ! bit v 3 }

/-- A write of T_CTRL: RESET, HOLD and RELEASE in that order, by the host or by Owl (13 R496, R520). -/
def State.writeTCtrl (s : State) (w : Writer) (t : Fin 16) (v : Nat) : State :=
  let cause : BitVec 4 := match w with | .owl => 4 | .port _ => 1
  let s := if bit v 0 then s.requestReset t cause else s
  let s := if bit v 1 then s.requestHold t cause else s
  if bit v 2 then s.requestRelease t else s

/-- A write of TRACE.TAIL (10 R404): outside HEAD - 2^RING_LOG2 to HEAD it is ignored. -/
def State.writeTail (s : State) (w : Writer) (v : Nat) : State :=
  if 2 ^ bits (s.live 0x11 0x10C) 4 0 < (s.live 0x11 0x110 + 2 ^ 32 - v % 2 ^ 32) % 2 ^ 32 then s.recordDirect w 0x11 0x114 codeInvalid
  else s.setLive 0x11 0x114 v

/-- A write into a port's MSI-X table (11 R412, R445): a vector unmasked with its pending bit set sends its message. PRESUMED, as PCI
Express has it; log 77. -/
def State.writeMsix (s : State) (p : Port) (off v : Nat) : State :=
  let k := (off - 0x800) / 16
  let s := s.setLive (ownPage p) off v
  let o := 0x700 + 4 * (k / 32)
  let pend := s.live (ownPage p) o
  if off % 16 = 12 && ! bit v 0 && bit pend (k % 32) then (s.setLive (ownPage p) o (pend - 2 ^ (k % 32))).sendMsix p k else s

/-- The port whose own copy of page 0x00F a writer writes. -/
def writerPort : Writer → Port
  | .port p => p
  | .owl => .a

/-- What a write of a page's own A-class register does beyond the file, where it does: `v` is the value with its fields merged. None: the
register is kept in the live file. -/
def State.writeAction (s : State) (w : Writer) (page off v : Nat) : Option State :=
  match page, off with
  | 0x01, 0x104 => some (s.writeTarget w (BitVec.ofNat 2 v))
  | 0x01, 0x108 => some (s.writeSrcEn w v)
  | 0x01, 0x118 => some (if s.clock.trimBusy then s else s.updClock fun c => { c with trimCode := v % 1024 })
  | 0x01, 0x11C => some (s.writeTrimCtrl w v)
  | 0x01, 0x120 => some (s.writeMeter w v)
  | 0x02, 0x108 => some (if bit v 0 then s.pkgRst w else s)
  | 0x02, 0x10C => some (if bit v 31 then s.unitReset w (bits v 10 8) (bits v 5 0) else s)
  | 0x03, 0x100 => some (let s := s.setRunning (bit v 0); if bit v 1 then s.armResync else s)
  | 0x03, 0x144 => some (if bit v 0 then s.releaseSafe else s)
  | 0x0B, 0x130 => some (if bit v 0 then s.updLynx Lynx.clearRecord else s)
  | 0x0D, 0x11C => some (s.writeRoute w v)
  | 0x0F, 0x100 => some (if bit v 0 then s.mailGo (writerPort w) else s)
  | 0x0F, 0x104 =>
    some (if bit v 2 then s.updBox (portChan (writerPort w)) fun b => { b with err := false } else s)
  | 0x10, 0x108 => some (if bit v 0 then s.calSet w else s)
  | 0x11, 0x114 => some (s.writeTail w v)
  | _, _ =>
    if page = 0x0F ∧ 0x800 ≤ off then some (s.writeMsix (writerPort w) off v)
    else
      match queueTenant page, pageTenant page with
      | some (t, q), _ =>
        if off = 0x100 then some (s.writeQCtrl t q v)
        else if off = 0x120 then some (match w with | .port p => s.ringSq p t q (BitVec.ofNat 32 v) | .owl => s)
        else if off = 0x128 then some (match w with | .port p => s.ringCq p t q (BitVec.ofNat 32 v) | .owl => s)
        else if off = 0x130 then some (s.writeQStatus t q v)
        else none
      | none, some t => if off = 0x100 then some (s.writeTCtrl w t v) else none
      | none, none =>
        if 0x160 ≤ page ∧ page < 0x168 ∧ off = 0x100 then
          let s := s.enableLink w (page - 0x160) (bit v 0)
          some (if bit v 1 then s.retrainLink (page - 0x160) else s)
        else none

/-! ### Block registers by class (12 R462 to R465) -/

/-- The page of the files that holds a writer's copy of a register (13 R492). -/
def writerPage (w : Writer) (page : Nat) (r : Reg) : Nat := filePage (writerPort w) page r

/-- The value a write of a register changes: its live value, or its shadow where the write sets that. -/
def State.current (s : State) (w : Writer) (page off : Nat) (r : Reg) : Nat :=
  let now := match s.stateReg (writerPort w) page off with | some x => x | none => s.live (writerPage w page r) off
  match r.cls with
  | .a => now
  | .f => s.shadowOf page off
  | .q => if bit (mget 0 s.attn.pageCtrl page).toNat 2 then s.shadowOf page off else now

/-- An A-class register written under a mask (12 R463, R465). -/
def State.writeA (s : State) (w : Writer) (page off : Nat) (r : Reg) (mask v : Nat) : State :=
  let fp := writerPage w page r
  let new := mergeRw r mask (s.current w page off r) v
  if ! rangeOk s.chip r (new &&& r.rw) then s.recordDirect w page off codeInvalid
  else
    match s.writeAction w page off ((new &&& r.rw) ||| (v &&& (r.wo ||| r.w1c) &&& mask)) with
    | some s' => s'
    | none => if r.rw = 0 then s else s.setLive fp off new

/-- An F-class register, or a Q-class one under STAGE_Q: the shadow and DIRTY (12 R462, R463). -/
def State.writeShadow (s : State) (page off : Nat) (r : Reg) (mask v : Nat) : State :=
  let s := s.setShadow page off (mergeRw r mask (s.shadowOf page off) v)
  { s with dirty := sinsert s.dirty (regKey page off) }

/-- A direct write of a Q-class register (12 R463): quiescence first, then the ranges and rules, then the value at once, shadow too. -/
def State.writeDirect (s : State) (w : Writer) (page off : Nat) (r : Reg) (mask v : Nat) : State :=
  let new := mergeRw r mask (s.live page off) v
  let ch := [(regKey page off, BitVec.ofNat 32 new)]
  if ! s.regQuiet page off then s.recordDirect w page off codeBusy
  else if ! rangeOk s.chip r new || (s.withChanges ch).ruleFails [regKey page off] ≠ [] then s.recordDirect w page off codeInvalid
  else
    let s := s.setShadow page off new
    let s : State := { s with dirty := s.dirty.filter (· ≠ regKey page off) }
    (s.applyChanges ch).recordDirect w page off codeOk

/-- A block register written field by field; ERR_COUNT of the page increments where the write would have changed a field the writer may
not write (13 R492). DEDUCED for a register of which it may write no field; log 76. -/
def State.writeBlock (s : State) (w : Writer) (page off v : Nat) : State :=
  match regFind page off with
  | none => s
  | some (r, i) =>
    let mask := s.mayBits w page r i
    let old := s.current w page off r
    let s := match w with
      | .port _ => if wouldChange r (0xFFFFFFFF ^^^ mask) old v then s.bumpErr page else s
      | .owl => s
    if mask = 0 then s
    else
      match r.cls with
      | .a => s.writeA w page off r mask v
      | .f => s.writeShadow page off r mask v
      | .q =>
        if r.rw = 0 then s
        else if bit (mget 0 s.attn.pageCtrl page).toNat 2 then s.writeShadow page off r mask v
        else s.writeDirect w page off r mask v

/-- A 32-bit write of BAR0 (11 R414; 12 R457, R462). -/
def State.writeReg (s : State) (w : Writer) (page off v : Nat) : State :=
  if ! s.reaches w page || off % 4 ≠ 0 then s
  else if off < 0x100 then s.writeHeader w page off v
  else s.writeBlock w page off v

/-! ### The write rows -/

/-- ATTN_LATCH_CLEAR -/
def execAttnLatchClear (p : Port) (page : BitVec 12) (v : Word) (s : State) : Host.Outcome State Fault Refusal :=
  done (s.writeReg (.port p) page.toNat 0x014 v.toNat)
/-- WMARK_CROSSED_CLEAR -/
def execWmarkCrossedClear (p : Port) (page : BitVec 12) (v : Word) (s : State) : Host.Outcome State Fault Refusal :=
  done (s.writeReg (.port p) page.toNat 0x028 v.toNat)
/-- ATTN_MASK_WRITE -/
def execAttnMaskWrite (w : Writer) (page : BitVec 12) (v : Word) (s : State) : Host.Outcome State Fault Refusal :=
  done (s.writeReg w page.toNat 0x018 v.toNat)
/-- REGISTER_WRITE -/
def execRegisterWrite (w : Writer) (page off : BitVec 12) (v : Word) (s : State) : Host.Outcome State Fault Refusal :=
  done (s.writeReg w page.toNat off.toNat v.toNat)
/-- TAIL_WRITE -/
def execTailWrite (w : Writer) (v : Word) (s : State) : Host.Outcome State Fault Refusal := done (s.writeReg w 0x11 0x114 v.toNat)

end Sys2Proof.Machine
end

