-- ==== Sys2Proof/Machine/Dispatch.lean ====
section
/-! DEFINITION. One arm per command: the meaning it calls. -/
namespace Sys2Proof.Machine
open Sys2Proof

/-- What a command does to everything but the queue. -/
def exec (i : Instr) (s : State) : Host.Outcome State Fault Refusal :=
  match i with
  | .frameTimerTick => Sys2Proof.Machine.execFrameTimerTick s
  | .ftickIn => Sys2Proof.Machine.execFtickIn s
  | .substituteTick => Sys2Proof.Machine.execSubstituteTick s
  | .ftickOutFall => Sys2Proof.Machine.execFtickOutFall s
  | .run w on => Sys2Proof.Machine.execRun w on s
  | .resync w => Sys2Proof.Machine.execResync w s
  | .phaseDeadline k => Sys2Proof.Machine.execPhaseDeadline k s
  | .cutForced c => Sys2Proof.Machine.execCutForced c s
  | .worldSeal t => Sys2Proof.Machine.execWorldSeal t s
  | .publish t => Sys2Proof.Machine.execPublish t s
  | .safeCtrlRelease w => Sys2Proof.Machine.execSafeCtrlRelease w s
  | .sqDoorbell p t q value => Sys2Proof.Machine.execSqDoorbell p t q value s
  | .cqDoorbell p t q value => Sys2Proof.Machine.execCqDoorbell p t q value s
  | .commandFetch t q word => Sys2Proof.Machine.execCommandFetch t q word s
  | .completionWrite t q => Sys2Proof.Machine.execCompletionWrite t q s
  | .frameCompletionWrite t => Sys2Proof.Machine.execFrameCompletionWrite t s
  | .qStatusDmaErrClear p t q => Sys2Proof.Machine.execQStatusDmaErrClear p t q s
  | .ingest t tag buf => Sys2Proof.Machine.execIngest t tag buf s
  | .mixedTile t => Sys2Proof.Machine.execMixedTile t s
  | .uniformTiles t => Sys2Proof.Machine.execUniformTiles t s
  | .scroll t => Sys2Proof.Machine.execScroll t s
  | .region t => Sys2Proof.Machine.execRegion t s
  | .agentList t => Sys2Proof.Machine.execAgentList t s
  | .agentRasterise t => Sys2Proof.Machine.execAgentRasterise t s
  | .loadLattice t tag buf => Sys2Proof.Machine.execLoadLattice t tag buf s
  | .loadModel t tag buf => Sys2Proof.Machine.execLoadModel t tag buf s
  | .measure t tag => Sys2Proof.Machine.execMeasure t tag s
  | .shape t tag => Sys2Proof.Machine.execShape t tag s
  | .hostCand t tag buf => Sys2Proof.Machine.execHostCand t tag buf s
  | .hostCandJudge t tag => Sys2Proof.Machine.execHostCandJudge t tag s
  | .loadProgram t tag image => Sys2Proof.Machine.execLoadProgram t tag image s
  | .activate t tag => Sys2Proof.Machine.execActivate t tag s
  | .signal t tag => Sys2Proof.Machine.execSignal t tag s
  | .nop t tag => Sys2Proof.Machine.execNop t tag s
  | .bar2Read p addr len => Sys2Proof.Machine.execBar2Read p addr len s
  | .bar2Write p addr data => Sys2Proof.Machine.execBar2Write p addr data s
  | .configurationRequest p => Sys2Proof.Machine.execConfigurationRequest p s
  | .frontField t => Sys2Proof.Machine.execFrontField t s
  | .expandNode t => Sys2Proof.Machine.execExpandNode t s
  | .proposalConvert t => Sys2Proof.Machine.execProposalConvert t s
  | .checkStart e => Sys2Proof.Machine.execCheckStart e s
  | .checkVerdict e => Sys2Proof.Machine.execCheckVerdict e s
  | .smooth t => Sys2Proof.Machine.execSmooth t s
  | .solveStart u => Sys2Proof.Machine.execSolveStart u s
  | .solveIteration u => Sys2Proof.Machine.execSolveIteration u s
  | .solveEnd u => Sys2Proof.Machine.execSolveEnd u s
  | .select t => Sys2Proof.Machine.execSelect t s
  | .selectStart u => Sys2Proof.Machine.execSelectStart u s
  | .selectPass u => Sys2Proof.Machine.execSelectPass u s
  | .selectResult u => Sys2Proof.Machine.execSelectResult u s
  | .gemmTileStep c => Sys2Proof.Machine.execGemmTileStep c s
  | .peerSend c => Sys2Proof.Machine.execPeerSend c s
  | .taskFetch t => Sys2Proof.Machine.execTaskFetch t s
  | .computePartStart c => Sys2Proof.Machine.execComputePartStart c s
  | .engineTaskIssue t task => Sys2Proof.Machine.execEngineTaskIssue t task s
  | .waitStart t task => Sys2Proof.Machine.execWaitStart t task s
  | .timerTask t task => Sys2Proof.Machine.execTimerTask t task s
  | .signalTask t task => Sys2Proof.Machine.execSignalTask t task s
  | .taskRetire t task => Sys2Proof.Machine.execTaskRetire t task s
  | .waitTimeout t task => Sys2Proof.Machine.execWaitTimeout t task s
  | .timerFire t timer => Sys2Proof.Machine.execTimerFire t timer s
  | .edgeDeliver t detector => Sys2Proof.Machine.execEdgeDeliver t detector s
  | .deadlock t => Sys2Proof.Machine.execDeadlock t s
  | .commitSingle p page => Sys2Proof.Machine.execCommitSingle p page s
  | .commitJoin p page set => Sys2Proof.Machine.execCommitJoin p page set s
  | .commitSubmit p page set => Sys2Proof.Machine.execCommitSubmit p page set s
  | .discard p page => Sys2Proof.Machine.execDiscard p page s
  | .setApply p => Sys2Proof.Machine.execSetApply p s
  | .attnLatchClear p page bits => Sys2Proof.Machine.execAttnLatchClear p page bits s
  | .wmarkCrossedClear p page bits => Sys2Proof.Machine.execWmarkCrossedClear p page bits s
  | .attnMaskWrite w page mask => Sys2Proof.Machine.execAttnMaskWrite w page mask s
  | .registerWrite w page offset value => Sys2Proof.Machine.execRegisterWrite w page offset value s
  | .lowWordRead p page offset => Sys2Proof.Machine.execLowWordRead p page offset s
  | .nowDateRead p => Sys2Proof.Machine.execNowDateRead p s
  | .errCountRead p page => Sys2Proof.Machine.execErrCountRead p page s
  | .cFaultRead p c => Sys2Proof.Machine.execCFaultRead p c s
  | .cStorePeakRead p c => Sys2Proof.Machine.execCStorePeakRead p c s
  | .eQueuePeakRead p e => Sys2Proof.Machine.execEQueuePeakRead p e s
  | .slotsPeakRead p => Sys2Proof.Machine.execSlotsPeakRead p s
  | .qPeakRead p c => Sys2Proof.Machine.execQPeakRead p c s
  | .bar2DropsRead p => Sys2Proof.Machine.execBar2DropsRead p s
  | .traceDropsRead p => Sys2Proof.Machine.execTraceDropsRead p s
  | .tailWrite w value => Sys2Proof.Machine.execTailWrite w value s
  | .divCountRead p => Sys2Proof.Machine.execDivCountRead p s
  | .cascadeDropsRead p => Sys2Proof.Machine.execCascadeDropsRead p s
  | .foreignRead p => Sys2Proof.Machine.execForeignRead p s
  | .lErrRead p l => Sys2Proof.Machine.execLErrRead p l s
  | .resetCauseRead p => Sys2Proof.Machine.execResetCauseRead p s
  | .muxStuckRead p => Sys2Proof.Machine.execMuxStuckRead p s
  | .dEccRead p d => Sys2Proof.Machine.execDEccRead p d s
  | .tCtrlReset p t => Sys2Proof.Machine.execTCtrlReset p t s
  | .tCtrlHold p t => Sys2Proof.Machine.execTCtrlHold p t s
  | .tCtrlRelease p t => Sys2Proof.Machine.execTCtrlRelease p t s
  | .dispatchAckTimeout kind index => Sys2Proof.Machine.execDispatchAckTimeout kind index s
  | .unitRst w kind index => Sys2Proof.Machine.execUnitRst w kind index s
  | .unitRstDone => Sys2Proof.Machine.execUnitRstDone s
  | .pkgRst w => Sys2Proof.Machine.execPkgRst w s
  | .pwrGoodFall => Sys2Proof.Machine.execPwrGoodFall s
  | .sysRstNLow us => Sys2Proof.Machine.execSysRstNLow us s
  | .sysRstNRise => Sys2Proof.Machine.execSysRstNRise s
  | .bootStageComplete outcome => Sys2Proof.Machine.execBootStageComplete outcome s
  | .coldReset => Sys2Proof.Machine.execColdReset s
  | .portReset p cause => Sys2Proof.Machine.execPortReset p cause s
  | .portReady p => Sys2Proof.Machine.execPortReady p s
  | .tempSample junction => Sys2Proof.Machine.execTempSample junction s
  | .throttleStep => Sys2Proof.Machine.execThrottleStep s
  | .throttleEnd => Sys2Proof.Machine.execThrottleEnd s
  | .throttleRestoreStep => Sys2Proof.Machine.execThrottleRestoreStep s
  | .dramRefresh => Sys2Proof.Machine.execDramRefresh s
  | .levelChangeRequest w target => Sys2Proof.Machine.execLevelChangeRequest w target s
  | .pllLockDetect => Sys2Proof.Machine.execPllLockDetect s
  | .pllStable pll => Sys2Proof.Machine.execPllStable pll s
  | .sourceStable source => Sys2Proof.Machine.execSourceStable source s
  | .sourceStartTimeout bit => Sys2Proof.Machine.execSourceStartTimeout bit s
  | .srcEnWrite w value => Sys2Proof.Machine.execSrcEnWrite w value s
  | .muxSwitch d => Sys2Proof.Machine.execMuxSwitch d s
  | .muxWatchdog d toggled => Sys2Proof.Machine.execMuxWatchdog d toggled s
  | .refLost => Sys2Proof.Machine.execRefLost s
  | .meterStart w value => Sys2Proof.Machine.execMeterStart w value s
  | .meterDone count => Sys2Proof.Machine.execMeterDone count s
  | .trimStart w value => Sys2Proof.Machine.execTrimStart w value s
  | .trimIteration count => Sys2Proof.Machine.execTrimIteration count s
  | .trimRefTimeout => Sys2Proof.Machine.execTrimRefTimeout s
  | .rtcSecond => Sys2Proof.Machine.execRtcSecond s
  | .rtcSourceLost => Sys2Proof.Machine.execRtcSourceLost s
  | .calSet p => Sys2Proof.Machine.execCalSet p s
  | .linkEnable w l => Sys2Proof.Machine.execLinkEnable w l s
  | .linkTrained l peer => Sys2Proof.Machine.execLinkTrained l peer s
  | .retrain w l => Sys2Proof.Machine.execRetrain w l s
  | .linkReplay l => Sys2Proof.Machine.execLinkReplay l s
  | .replayRetrain l => Sys2Proof.Machine.execReplayRetrain l s
  | .linkDownTimeout l => Sys2Proof.Machine.execLinkDownTimeout l s
  | .routeDataWrite w value => Sys2Proof.Machine.execRouteDataWrite w value s
  | .write l f => Sys2Proof.Machine.execWrite l f s
  | .read l f => Sys2Proof.Machine.execRead l f s
  | .doorbell l f => Sys2Proof.Machine.execDoorbell l f s
  | .collPart l f => Sys2Proof.Machine.execCollPart l f s
  | .ack l f => Sys2Proof.Machine.execAck l f s
  | .readData l f => Sys2Proof.Machine.execReadData l f s
  | .collResult l f => Sys2Proof.Machine.execCollResult l f s
  | .witness l f => Sys2Proof.Machine.execWitness l f s
  | .tick l f => Sys2Proof.Machine.execTick l f s
  | .tickForward => Sys2Proof.Machine.execTickForward s
  | .mark l f => Sys2Proof.Machine.execMark l f s
  | .markSend => Sys2Proof.Machine.execMarkSend s
  | .markForward => Sys2Proof.Machine.execMarkForward s
  | .masterLost => Sys2Proof.Machine.execMasterLost s
  | .cal l f => Sys2Proof.Machine.execCal l f s
  | .calEchoSend l => Sys2Proof.Machine.execCalEchoSend l s
  | .calEcho l f roundTrip => Sys2Proof.Machine.execCalEcho l f roundTrip s
  | .lynxWindowEnd => Sys2Proof.Machine.execLynxWindowEnd s
  | .lynxSig f => Sys2Proof.Machine.execLynxSig f s
  | .lynxNotice f => Sys2Proof.Machine.execLynxNotice f s
  | .lynxMissing window => Sys2Proof.Machine.execLynxMissing window s
  | .divClear w => Sys2Proof.Machine.execDivClear w s
  | .getInfo ch req => Sys2Proof.Machine.execGetInfo ch req s
  | .readSensors ch req => Sys2Proof.Machine.execReadSensors ch req s
  | .readCounters ch req => Sys2Proof.Machine.execReadCounters ch req s
  | .readLog ch req => Sys2Proof.Machine.execReadLog ch req s
  | .getIdentity ch req => Sys2Proof.Machine.execGetIdentity ch req s
  | .challenge ch req => Sys2Proof.Machine.execChallenge ch req s
  | .verify ch req => Sys2Proof.Machine.execVerify ch req s
  | .pair ch req => Sys2Proof.Machine.execPair ch req s
  | .identAck ch req => Sys2Proof.Machine.execIdentAck ch req s
  | .fence ch req => Sys2Proof.Machine.execFence ch req s
  | .unfence ch req => Sys2Proof.Machine.execUnfence ch req s
  | .fwBegin ch req => Sys2Proof.Machine.execFwBegin ch req s
  | .fwChunk ch req => Sys2Proof.Machine.execFwChunk ch req s
  | .fwFinish ch req => Sys2Proof.Machine.execFwFinish ch req s
  | .fwConfirm ch req => Sys2Proof.Machine.execFwConfirm ch req s
  | .setBoardCfg ch req => Sys2Proof.Machine.execSetBoardCfg ch req s
  | .getBoardCfg ch req => Sys2Proof.Machine.execGetBoardCfg ch req s
  | .smbResponseRead cmd => Sys2Proof.Machine.execSmbResponseRead cmd s
  | .smbTimeRead => Sys2Proof.Machine.execSmbTimeRead s
  | .logFlush => Sys2Proof.Machine.execLogFlush s
  | .counterCheckpoint => Sys2Proof.Machine.execCounterCheckpoint s
  | .railSample rails current stackTemps power => Sys2Proof.Machine.execRailSample rails current stackTemps power s
  | .sramCorrected st => Sys2Proof.Machine.execSramCorrected st s
  | .sramUe st => Sys2Proof.Machine.execSramUe st s
  | .dramCorrected addr => Sys2Proof.Machine.execDramCorrected addr s
  | .dramUe addr => Sys2Proof.Machine.execDramUe addr s
  | .extest => Sys2Proof.Machine.execExtest s
  | .idcode => Sys2Proof.Machine.execIdcode s
  | .samplePreload => Sys2Proof.Machine.execSamplePreload s
  | .clamp => Sys2Proof.Machine.execClamp s
  | .highz => Sys2Proof.Machine.execHighz s
  | .extestPulse => Sys2Proof.Machine.execExtestPulse s
  | .extestTrain => Sys2Proof.Machine.execExtestTrain s
  | .bypass => Sys2Proof.Machine.execBypass s
  | .lastFrameEnd => Sys2Proof.Machine.execLastFrameEnd s
  | .alignedFrameBoundary => Sys2Proof.Machine.execAlignedFrameBoundary s
  | .guardActionsComplete => Sys2Proof.Machine.execGuardActionsComplete s
  | .queueDmaError t q what => Sys2Proof.Machine.execQueueDmaError t q what s
  | .rtcSourceReturn => Sys2Proof.Machine.execRtcSourceReturn s
  | .pwrGoodRise => Sys2Proof.Machine.execPwrGoodRise s
  | .v3p3Loss => Sys2Proof.Machine.execV3p3Loss s
  | .v3p3Return => Sys2Proof.Machine.execV3p3Return s
  | .owlWatchdog => Sys2Proof.Machine.execOwlWatchdog s
  | .linkDown l => Sys2Proof.Machine.execLinkDown l s
  | .invalidFrame l f => Sys2Proof.Machine.execInvalidFrame l f s
  | .creditReturn l vc => Sys2Proof.Machine.execCreditReturn l vc s
  | .mbGoWhileBusy p => Sys2Proof.Machine.execMbGoWhileBusy p s
  | .unassignedMailboxOpcode ch req => Sys2Proof.Machine.execUnassignedMailboxOpcode ch req s
  | .mailboxFrameDiscarded ch => Sys2Proof.Machine.execMailboxFrameDiscarded ch s
  | .flashEraseDone => Sys2Proof.Machine.execFlashEraseDone s

end Sys2Proof.Machine
end

