-- ==== Sys2Proof/Safety.lean ====
section
/-! DEFINITION. What the statements speak of: the parts of the state, the parts each command may change, and the invariant
every step keeps. -/
namespace Sys2Proof.Machine
open Sys2Proof

/-! ### Canonical forms -/

/-- The keys of a map rise strictly. -/
abbrev keysRise {β : Type} (m : List (Nat × β)) : Prop := m.Pairwise fun x y => x.1 < y.1

/-- A memory is in its canonical form: addresses strictly rising, and no entry equal to 0, which an unlisted byte reads. -/
abbrev Memory.wf (m : List Host.Cell) : Prop := keysRise m ∧ ∀ c ∈ m, c.2 ≠ 0

/-- Device DRAM is well formed: its bytes are in canonical form, its poisoned blocks rise strictly, and no site's write-back
queue holds more than 64 blocks (19 R728). -/
abbrev Dram.ok (d : Dram) : Prop :=
  Memory.wf d.bytes ∧ d.poison.Pairwise (· < ·) ∧ ∀ k : Fin 4, (d.writeBack.at' k).length ≤ 64

/-- The calendar reads a date and a time that exist (18 R701, R702). -/
abbrev Calendar.legal (c : Calendar) : Prop :=
  2000 ≤ c.year ∧ c.year ≤ 2399 ∧ 1 ≤ c.month ∧ c.month ≤ 12 ∧ 1 ≤ c.day ∧ c.day ≤ monthDays c.year c.month ∧ c.hour ≤ 23 ∧
    c.minute ≤ 59 ∧ c.second ≤ 59

/-- The invariant every step keeps: DRAM and the register files are in canonical form, the boot stands in a stage the spec
names (17 R650, R651, R661), at most eight deadlines of the frame have passed (01 R29), the trim code has ten bits
(16 R625), the calendar reads a date that exists (18 R702), no command leaves a moment of flags open (10 R387), and wherever frames run
the scheduler's time counts from a RUN that is past (10 R390). -/
structure State.Inv (s : State) : Prop where
  dram : s.dram.ok
  regs : keysRise s.regs
  shadow : keysRise s.shadow
  dirty : s.dirty.Pairwise (· < ·)
  stage : s.power.stage ≤ 7
  passed : s.frame.passed ≤ 8
  trim : s.clock.trimCode ≤ 1023
  calendar : s.cal.legal
  whole : s.frame.together = false
  timed : s.frame.run = true ∨ s.frame.inFrame = true → s.frame.timed = true
  began : s.frame.runAt ≤ s.now

/-- The sparse maps that commands read and write by key are in canonical form: those of attention, and every tenant's static tiles. -/
structure State.Canonical (s : State) : Prop where
  latch : keysRise s.attn.latch
  mask : keysRise s.attn.mask
  errCount : keysRise s.attn.errCount
  crossed : keysRise s.attn.crossed
  tiles : ∀ t, keysRise (s.tenant t).world.stat

/-! ### The parts of the state -/

/-- The parts of the state: each field of `State`, with the tenants, the frame machine and Owl cut into finer parts. -/
inductive Part where
  | pending | chip | now | draws | doorbells | regs | shadow | dirty | cfgA | cfgB | setOrder | attn | tick | passed | running
  | safe | frame | tState | tWorld | tSearch | tTable | tSolver | tSel | tSched | tOut | tSpoor | tQueues | tCmds | tDone |
  tRings | engines | bears | jays | fronts | cores | slotsPeak | dram | links | cascade | lynx | clock | power | fault | boxes
  | firmware | board | identity | log | owl | cal | jtag
deriving DecidableEq, Repr

/-- A part of the tenants reads the same in two states of one tenant; true of a part that is none of theirs. -/
def Part.sameT (p : Part) (n m : Tenant) : Prop :=
  match p with
  | .tState => m.state = n.state ∧ m.holdPending = n.holdPending ∧ m.releasePending = n.releasePending ∧
    m.enabling = n.enabling ∧ m.cause = n.cause ∧ m.resets = n.resets ∧ m.faults = n.faults ∧ m.unitsWord = n.unitsWord
  | .tWorld => m.world = n.world
  | .tSearch => m.search = n.search
  | .tTable => m.table = n.table
  | .tSolver => m.solver = n.solver
  | .tSel => m.sel = n.sel
  | .tSched => m.sched = n.sched
  | .tOut => m.out = n.out
  | .tSpoor => m.spoor = n.spoor
  | .tQueues => m.queues = n.queues ∧ m.queueTurn = n.queueTurn
  | .tCmds => m.cmds = n.cmds
  | .tDone => m.delivering = n.delivering ∧ m.backlog = n.backlog
  | .tRings => m.pubRing = n.pubRing ∧ m.witnessRing = n.witnessRing ∧ m.witnessed = n.witnessed ∧ m.witnessing = n.witnessing ∧
    m.witnessNext = n.witnessNext ∧ m.witnessMissed = n.witnessMissed
  | _ => True

/-- A part of the frame machine reads the same. -/
def Part.sameF (p : Part) (n m : Frame) : Prop :=
  match p with
  | .tick => m.inFrame = n.inFrame ∧ m.number = n.number ∧ m.seq = n.seq ∧ m.tickAt = n.tickAt ∧
    m.prevTickAt = n.prevTickAt ∧ m.substituted = n.substituted ∧ m.irregular = n.irregular
  | .passed => m.passed = n.passed
  | .running => m.run = n.run ∧ m.fresh = n.fresh ∧ m.runAt = n.runAt ∧ m.expected = n.expected ∧ m.resync = n.resync ∧
    m.timed = n.timed
  | .safe => m.safePin = n.safePin ∧ m.safeDriven = n.safeDriven ∧ m.safeNow = n.safeNow ∧ m.safeLast = n.safeLast
  | .frame => m.guardUntil = n.guardUntil ∧ m.opening = n.opening ∧ m.masterLost = n.masterLost ∧ m.ftickOut = n.ftickOut ∧
    m.aligned = n.aligned ∧ m.alignedSubst = n.alignedSubst ∧ m.ranSinceReset = n.ranSinceReset ∧ m.levelAt = n.levelAt ∧
    m.refreshes = n.refreshes ∧ m.fetchTurn = n.fetchTurn ∧ m.together = n.together
  | _ => True

/-- A part of Owl reads the same. -/
def Part.sameO (p : Part) (n m : Owl) : Prop :=
  match p with
  | .boxes => m.boxes = n.boxes ∧ m.order = n.order
  | .firmware => m.bankA = n.bankA ∧ m.bankB = n.bankB ∧ m.activeB = n.activeB ∧ m.trial = n.trial ∧
    m.trialBooted = n.trialBooted ∧ m.session = n.session ∧ m.fwResult = n.fwResult ∧ m.rollback = n.rollback ∧
    m.runningVersion = n.runningVersion ∧ m.runningRollback = n.runningRollback ∧ m.sramImage = n.sramImage
  | .board => m.boardStored = n.boardStored ∧ m.board = n.board ∧ m.boardDefault = n.boardDefault
  | .identity => m.fences = n.fences ∧ m.pairing = n.pairing ∧ m.changed = n.changed
  | .log => m.buffer = n.buffer ∧ m.flashLog = n.flashLog ∧ m.nextSeq = n.nextSeq ∧ m.logDrops = n.logDrops ∧
    m.dropsPending = n.dropsPending
  | .owl => m.counters = n.counters ∧ m.journal = n.journal ∧ m.hourSeconds = n.hourSeconds ∧
    m.sinceCheckpoint = n.sinceCheckpoint ∧ m.junctions = n.junctions ∧ m.rails = n.rails ∧ m.current = n.current ∧
    m.stackTemps = n.stackTemps ∧ m.powerNow = n.powerNow ∧ m.railBad = n.railBad ∧ m.alert = n.alert ∧
    m.smbData = n.smbData ∧ m.uartSent = n.uartSent
  | _ => True

/-- A field of the state that is a part of its own reads the same. -/
def Part.sameS (p : Part) (s t : State) : Prop :=
  match p with
  | .pending => t.pending = s.pending
  | .chip => t.chip = s.chip
  | .now => t.now = s.now
  | .draws => t.draws = s.draws
  | .doorbells => t.doorbells = s.doorbells
  | .regs => t.regs = s.regs
  | .shadow => t.shadow = s.shadow
  | .dirty => t.dirty = s.dirty
  | .cfgA => t.cfgA = s.cfgA
  | .cfgB => t.cfgB = s.cfgB
  | .setOrder => t.setOrder = s.setOrder
  | .attn => t.attn = s.attn
  | .engines => t.engines = s.engines
  | .bears => t.bears = s.bears
  | .jays => t.jays = s.jays
  | .fronts => t.fronts = s.fronts
  | .cores => t.cores = s.cores
  | .slotsPeak => t.slotsPeak = s.slotsPeak
  | .dram => t.dram = s.dram
  | .links => t.links = s.links
  | .cascade => t.cascade = s.cascade
  | .lynx => t.lynx = s.lynx
  | .clock => t.clock = s.clock
  | .power => t.power = s.power
  | .fault => t.fault = s.fault
  | .cal => t.cal = s.cal
  | .jtag => t.jtag = s.jtag
  | _ => True

/-- A part reads the same in two states. A part of the tenants does when it does for every tenant. -/
def Part.same (p : Part) (s t : State) : Prop :=
  p.sameS s t ∧ (∀ k, p.sameT (s.tenant k) (t.tenant k)) ∧ p.sameF s.frame t.frame ∧ p.sameO s.owl t.owl

/-! ### Time passing -/

/-- Nothing that time alone brings about falls due up to a time: no timer, no WAIT's deadline and no 64th edge of a deadlock test (10 R388,
R391, R398). -/
def State.nothingDue (s : State) (T : Nat) : Prop := ∀ t, ∀ e ∈ s.dueTimes t, T < e

/-- Nothing falls due up to a time for any tenant but one. -/
def State.othersLater (s : State) (t : Fin 16) (T : Nat) : Prop := ∀ j, j ≠ t → ∀ e ∈ s.dueTimes j, T < e

/-- No WAIT waits for a flag, and none that waits is satisfied already: setting the flag wakes no task (10 R387). -/
def Sched.unawaited (d : Sched) (f : Nat) : Prop :=
  d.firstSatisfied = none ∧ ∀ k ∈ d.tasks, k.st = .waiting → f ∉ trFlags (d.rec' k.index)

/-- Work of a tenant that becomes ready finds a core to run on: some virtual core of its lease has a usable host (08 R329; 10 R382). -/
def State.served (s : State) (t : Fin 16) : Prop := (s.coreFor t 0).isSome = true

/-- Every request that a core's part has sent over a link has been answered (09 R361). -/
def State.answered (s : State) (p : PartRef) : Prop :=
  ∀ g ∈ s.cascade.tags, g.core.isSome = true → g.tenant = p.tenant → g.task = p.task → g.unit ≠ p.unit

/-- The part a core ran has faulted: the core is idle and the tenant's frame aborted (13 R507). -/
def PartFaulted (t : State) (c : Fin 48) (p : PartRef) : Prop :=
  (t.core c).run = none ∧ (t.tenant p.tenant).sched.tasks = [] ∧ (t.tenant p.tenant).out.aborted = true

/-! ### A command's completion -/

/-- A host command has completed with a code and a DETAIL: its completion is the last of its queue's, and its tag is free (11 R423,
R426, R440). -/
def Completes (s u : State) (t : Fin 16) (c : Cmd) (code : Byte) (detail : BitVec 160) : Prop :=
  (u.queue t c.q).comps = (s.queue t c.q).comps ++ [{ cmdId := c.id, result := code, detail := detail }] ∧
    (u.tenant t).cmds = (s.tenant t).cmds.filter fun d => d.tag ≠ c.tag

/-! ### A mailbox reply -/

/-- Owl has answered a channel's request with a code and a payload: BUSY clears, DONE sets, and the response stands in the channel's
mailbox (18 R674, R675). -/
def Replied (t : State) (ch : Channel) (code : Byte) (data : List Byte) : Prop :=
  (t.box ch).busy = false ∧ (t.box ch).done = true ∧ byteAt (t.box ch).response 0 = code.toNat ∧
    (t.box ch).response.drop 16 = data

/-! ### A register read -/

/-- A port's read of a register answered `v`, or its holding copy of the register where one stands (12 R459). -/
def Answers (s t : State) (p : Port) (page off v : Nat) : Prop :=
  (t.cfg p).readData = (mfind (s.cfg p).holds (regKey page off)).getD (BitVec.ofNat 32 v)

/-! ### Sets of changes -/

/-- The changes a submission of pages captures: every dirty register of theirs with its shadow value (12 R468). -/
def captured (s : State) (pages : List Nat) : List (Nat × Word) :=
  (s.dirty.filter fun k => pages.contains (k / 4096)).map fun k => (k, BitVec.ofNat 32 (s.shadowOf (k / 4096) (k % 4096)))

/-- A set of a port has been judged, its pages and changes `ch` against `s`: CONFIG_INVALID where the port no longer reaches a page of it,
or a change is out of range or breaks a rule, then BUSY_QUIESCE_REQUIRED where a Q-class register's block is not quiescent, then OK.
Applied, every register holds its change, whole (those of TRACE's page and of a lease whose ENABLE moves have effects of their own);
refused, no register moves and the changes are dirty again (12 R470, R471, R473, R479). -/
def Judged (s t : State) (p : Port) (pages : List Nat) (id seq : Nat) (ch : List (Nat × Word)) : Prop :=
  ∃ code : Byte, (t.cfg p).result = BitVec.ofNat 32 (code.toNat + id * 2 ^ 8 + seq * 2 ^ 16) ∧
    (code = codeInvalid ↔ ch ≠ [] ∧
      ((∃ g ∈ pages, s.mayRead p g = false) ∨ (∃ x ∈ ch, s.changeOk x = false) ∨ (s.withChanges ch).ruleFails (ch.map (·.1)) ≠ [])) ∧
    (code = codeBusy ↔ ch ≠ [] ∧ (∀ g ∈ pages, s.mayRead p g = true) ∧ (∀ x ∈ ch, s.changeOk x = true) ∧
      (s.withChanges ch).ruleFails (ch.map (·.1)) = [] ∧
      ∃ x ∈ ch, keyClass x.1 = .q ∧ s.regQuiet (x.1 / 4096) (x.1 % 4096) = false) ∧
    (code ≠ codeInvalid → code ≠ codeBusy → code = codeOk ∧ (t.cfg p).place = 0 ∧
      ((∀ u, (s.withChanges ch).enabled u = s.enabled u) →
        ∀ x ∈ ch, x.1 / 4096 ≠ 0x11 → t.live (x.1 / 4096) (x.1 % 4096) = x.2.toNat)) ∧
    (code ≠ codeOk → t.regs = s.regs ∧ ∀ x ∈ ch, x.1 ∈ t.dirty)

/-! ### Package resets -/

/-- A package reset has cleared the device: registers outside the calendar's page at their reset values, no tenant, program, world or
command, DRAM and links cleared, the frame counter at 0; and Owl's flash, the calendar, the fuses and the level of SAFE_STATE stand (17 R641,
R643; 18 R671, R691, R708). -/
def PackageCleared (s u : State) : Prop :=
  (∀ page off, off < 4096 → page ≠ 0x10 → u.live page off = regReset s.chip page off) ∧
    (∀ t, (u.tenant t).state = .none ∧ (u.tenant t).sched.slotA = none ∧ (u.tenant t).sched.slotB = none ∧
      (u.tenant t).world = World.reset ∧ (u.tenant t).cmds = []) ∧
    u.shadow = [] ∧ u.dirty = [] ∧ u.dram = Dram.reset ∧ u.links = State.reset.links ∧ u.frame.run = false ∧
    u.frame.inFrame = false ∧ u.frame.number = 0 ∧ u.frame.safePin = s.frame.safePin ∧ u.cal = s.cal ∧ u.chip = s.chip ∧
    u.owl.bankA = s.owl.bankA ∧ u.owl.bankB = s.owl.bankB ∧ u.owl.rollback = s.owl.rollback ∧ u.owl.fences = s.owl.fences ∧
    u.owl.pairing = s.owl.pairing ∧ u.owl.boardStored = s.owl.boardStored ∧ u.owl.flashLog = s.owl.flashLog

/-! ### Burrow's jobs -/

/-- The jobs after the head record of the first has been applied (03 R115). -/
def jobsAfter : List Job → List Job
  | [] => []
  | j :: r => match j.records.tail with
    | [] => r
    | l => { j with records := l } :: r

/-! ### What a command may change -/

/-- The parts a command's own effect may change, before the conditions that watch the state bring attention and the edge
detectors up to date (`settle`). -/
def mayChange : Instr → List Part
  | .frameTimerTick => [.now, .draws, .regs, .shadow, .dirty, .cfgA, .cfgB, .attn, .tick, .passed, .running, .safe, .frame,
      .tState, .tWorld, .tSearch, .tTable, .tSolver, .tSel, .tSched, .tOut, .tSpoor, .tQueues, .tCmds, .tDone, .tRings,
      .engines, .bears, .jays, .fronts, .cores, .dram, .links, .cascade, .lynx, .clock, .power]
  | .ftickIn => [.now, .draws, .regs, .shadow, .dirty, .cfgA, .cfgB, .attn, .tick, .passed, .running, .safe, .frame,
      .tState, .tWorld, .tSearch, .tTable, .tSolver, .tSel, .tSched, .tOut, .tSpoor, .tQueues, .tCmds, .tDone, .tRings,
      .engines, .bears, .jays, .fronts, .cores, .dram, .links, .cascade, .lynx, .clock, .power]
  | .substituteTick => [.now, .draws, .regs, .shadow, .dirty, .cfgA, .cfgB, .attn, .tick, .passed, .running, .safe, .frame,
      .tState, .tWorld, .tSearch, .tTable, .tSolver, .tSel, .tSched, .tOut, .tSpoor, .tQueues, .tCmds, .tDone, .tRings,
      .engines, .bears, .jays, .fronts, .cores, .dram, .links, .cascade, .lynx, .clock, .power]
  | .ftickOutFall => [.now, .draws, .regs, .attn, .safe, .frame, .tSearch, .tSolver, .tSel, .tSched, .tOut, .bears, .jays,
      .cores, .dram, .cascade]
  | .run _ _ => [.attn, .tick, .running, .frame, .cascade, .lynx]
  | .resync _ => [.attn, .running]
  | .phaseDeadline _ => [.now, .draws, .regs, .shadow, .dirty, .cfgA, .cfgB, .attn, .passed, .safe, .frame, .tState,
      .tWorld, .tSearch, .tTable, .tSolver, .tSel, .tSched, .tOut, .tSpoor, .tQueues, .tCmds, .tDone, .tRings, .engines,
      .bears, .jays, .fronts, .cores, .dram, .links, .cascade, .lynx, .clock, .power]
  | .cutForced _ => [.now, .draws, .regs, .attn, .safe, .frame, .tSearch, .tSolver, .tSel, .tSched, .tOut, .bears, .jays,
      .cores, .dram, .cascade]
  | .worldSeal _ => [.draws, .regs, .attn, .safe, .tState, .tWorld, .tSearch, .tTable, .tSolver, .tSel, .tSched, .tOut,
      .bears, .jays, .cores, .dram, .cascade]
  | .publish _ => [.draws, .regs, .attn, .safe, .tState, .tSearch, .tSolver, .tSel, .tSched, .tOut, .bears, .jays, .cores,
      .dram, .cascade]
  | .safeCtrlRelease _ => [.regs, .attn, .safe]
  | .sqDoorbell _ _ _ _ => [.doorbells, .tQueues]
  | .cqDoorbell _ _ _ _ => [.tQueues]
  | .commandFetch _ _ _ => [.regs, .shadow, .dirty, .cfgA, .cfgB, .attn, .tOut, .tQueues, .tCmds]
  | .completionWrite _ _ => [.regs, .cfgA, .cfgB, .tQueues]
  | .frameCompletionWrite _ => [.regs, .cfgA, .cfgB, .tQueues, .tDone, .tRings, .lynx]
  | .qStatusDmaErrClear _ _ _ => [.tQueues]
  | .ingest _ _ _ => [.regs, .shadow, .dirty, .attn, .tWorld, .tSpoor, .tQueues, .tCmds]
  | .mixedTile _ => [.regs, .shadow, .dirty, .attn, .tWorld, .tQueues, .tCmds]
  | .uniformTiles _ => [.regs, .shadow, .dirty, .attn, .tWorld, .tQueues, .tCmds]
  | .scroll _ => [.regs, .shadow, .dirty, .attn, .tWorld, .tQueues, .tCmds]
  | .region _ => [.regs, .shadow, .dirty, .attn, .tWorld, .tQueues, .tCmds]
  | .agentList _ => [.regs, .shadow, .dirty, .attn, .tWorld, .tQueues, .tCmds]
  | .agentRasterise _ => [.tWorld]
  | .loadLattice _ _ _ => [.regs, .shadow, .dirty, .attn, .tSearch, .tQueues, .tCmds]
  | .loadModel _ _ _ => [.regs, .shadow, .dirty, .attn, .tSolver, .tQueues, .tCmds]
  | .measure _ _ => [.regs, .shadow, .dirty, .attn, .tTable, .tSolver, .tSpoor, .tQueues, .tCmds]
  | .shape _ _ => [.regs, .shadow, .dirty, .attn, .tSched, .tSpoor, .tQueues, .tCmds]
  | .hostCand _ _ _ => [.regs, .shadow, .dirty, .attn, .tQueues, .tCmds]
  | .hostCandJudge _ _ => [.regs, .shadow, .dirty, .attn, .tSearch, .tTable, .tSpoor, .tQueues, .tCmds, .engines, .dram]
  | .loadProgram _ _ _ => [.draws, .regs, .shadow, .dirty, .attn, .tSched, .tQueues, .tCmds, .dram]
  | .activate _ _ => [.regs, .shadow, .dirty, .attn, .tSched, .tQueues, .tCmds]
  | .signal _ _ => [.regs, .shadow, .dirty, .attn, .tSched, .tSpoor, .tQueues, .tCmds]
  | .nop _ _ => [.regs, .shadow, .dirty, .attn, .tQueues, .tCmds]
  | .bar2Read _ _ _ => [.regs, .cfgA, .cfgB, .attn]
  | .bar2Write _ _ _ => [.regs, .attn, .dram]
  | .configurationRequest _ => [.draws, .cfgA, .cfgB]
  | .frontField _ => [.draws, .regs, .tSearch, .tSched, .lynx]
  | .expandNode _ => [.regs, .tSearch, .tTable, .tSched, .engines, .dram, .lynx]
  | .proposalConvert _ => [.regs, .tSearch, .tTable, .engines, .dram, .lynx]
  | .checkStart _ => [.regs, .tTable, .engines]
  | .checkVerdict _ => [.draws, .regs, .attn, .safe, .tState, .tSearch, .tTable, .tSolver, .tSel, .tSched, .tOut, .engines,
      .bears, .jays, .cores, .dram, .cascade, .lynx]
  | .smooth _ => [.draws, .regs, .attn, .safe, .tState, .tSearch, .tSolver, .tSel, .tSched, .tOut, .bears, .jays, .cores,
      .dram, .cascade, .lynx]
  | .solveStart _ => [.draws, .regs, .attn, .safe, .tState, .tSearch, .tSolver, .tSel, .tSched, .tOut, .bears, .jays,
      .cores, .dram, .cascade, .lynx]
  | .solveIteration _ => [.draws, .regs, .attn, .safe, .tState, .tSearch, .tSolver, .tSel, .tSched, .tOut, .bears, .jays,
      .cores, .dram, .cascade, .lynx]
  | .solveEnd _ => [.draws, .regs, .attn, .safe, .tState, .tSearch, .tTable, .tSolver, .tSel, .tSched, .tOut, .engines,
      .bears, .jays, .cores, .dram, .cascade, .lynx]
  | .select _ => [.draws, .regs, .attn, .safe, .tState, .tSearch, .tSolver, .tSel, .tSched, .tOut, .bears, .jays, .cores,
      .dram, .cascade, .lynx]
  | .selectStart _ => [.draws, .regs, .attn, .safe, .tState, .tSearch, .tSolver, .tSel, .tSched, .tOut, .bears, .jays,
      .cores, .dram, .cascade, .lynx]
  | .selectPass _ => [.draws, .regs, .attn, .safe, .tState, .tSearch, .tSolver, .tSel, .tSched, .tOut, .bears, .jays,
      .cores, .dram, .links, .cascade, .lynx]
  | .selectResult _ => [.draws, .regs, .attn, .safe, .tState, .tSearch, .tSolver, .tSel, .tSched, .tOut, .bears, .jays,
      .cores, .dram, .cascade, .lynx]
  | .gemmTileStep _ => [.draws, .regs, .attn, .safe, .tState, .tSearch, .tSolver, .tSel, .tSched, .tOut, .bears, .jays,
      .cores, .dram, .cascade, .lynx]
  | .peerSend _ => [.draws, .regs, .attn, .safe, .tState, .tSearch, .tSolver, .tSel, .tSched, .tOut, .bears, .jays, .cores,
      .dram, .links, .cascade, .lynx]
  | .taskFetch _ => [.draws, .regs, .safe, .frame, .tSearch, .tSolver, .tSel, .tSched, .tOut, .bears, .jays, .cores,
      .slotsPeak, .dram, .cascade]
  | .computePartStart _ => [.draws, .regs, .attn, .safe, .tState, .tSearch, .tSolver, .tSel, .tSched, .tOut, .bears, .jays,
      .cores, .dram, .cascade]
  | .engineTaskIssue _ _ => [.draws, .regs, .attn, .safe, .tState, .tSearch, .tSolver, .tSel, .tSched, .tOut, .bears, .jays,
      .cores, .dram, .links, .cascade]
  | .waitStart _ _ => [.draws, .regs, .safe, .tSearch, .tSolver, .tSel, .tSched, .tOut, .bears, .jays, .cores, .dram,
      .cascade]
  | .timerTask _ _ => [.draws, .regs, .safe, .tSearch, .tSolver, .tSel, .tSched, .tOut, .bears, .jays, .cores, .dram,
      .cascade]
  | .signalTask _ _ => [.draws, .regs, .safe, .tSearch, .tSolver, .tSel, .tSched, .tOut, .bears, .jays, .cores, .dram,
      .cascade]
  | .taskRetire _ _ => [.draws, .regs, .safe, .tSearch, .tSolver, .tSel, .tSched, .tOut, .bears, .jays, .cores, .dram,
      .cascade]
  | .waitTimeout _ _ => [.now, .draws, .regs, .shadow, .dirty, .cfgA, .cfgB, .attn, .passed, .safe, .frame, .tState,
      .tWorld, .tSearch, .tTable, .tSolver, .tSel, .tSched, .tOut, .tSpoor, .tQueues, .tCmds, .tDone, .tRings, .engines,
      .bears, .jays, .fronts, .cores, .dram, .links, .cascade, .lynx, .clock, .power]
  | .timerFire _ _ => [.now, .draws, .regs, .attn, .safe, .frame, .tSearch, .tSolver, .tSel, .tSched, .tOut, .bears, .jays,
      .cores, .dram, .cascade]
  | .edgeDeliver _ _ => [.draws, .regs, .safe, .tSearch, .tSolver, .tSel, .tSched, .tOut, .bears, .jays, .cores, .dram,
      .cascade]
  | .deadlock _ => [.now, .draws, .regs, .attn, .safe, .frame, .tSearch, .tSolver, .tSel, .tSched, .tOut, .bears, .jays,
      .cores, .dram, .cascade]
  | .commitSingle _ _ => [.regs, .shadow, .dirty, .cfgA, .cfgB, .setOrder, .attn, .tState, .tWorld, .tSearch, .tTable,
      .tSolver, .tSel, .tSched, .tOut, .tSpoor, .tQueues, .tCmds, .tDone, .tRings, .engines, .bears, .jays, .cores, .lynx]
  | .commitJoin _ _ _ => [.regs, .shadow, .dirty, .cfgA, .cfgB, .setOrder, .attn, .tState, .tWorld, .tSearch, .tTable,
      .tSolver, .tSel, .tSched, .tOut, .tSpoor, .tQueues, .tCmds, .tDone, .tRings, .engines, .bears, .jays, .cores, .lynx]
  | .commitSubmit _ _ _ => [.regs, .shadow, .dirty, .cfgA, .cfgB, .setOrder, .attn, .tState, .tWorld, .tSearch, .tTable,
      .tSolver, .tSel, .tSched, .tOut, .tSpoor, .tQueues, .tCmds, .tDone, .tRings, .engines, .bears, .jays, .cores, .lynx]
  | .discard _ _ => [.shadow, .dirty, .cfgA, .cfgB]
  | .setApply _ => [.regs, .shadow, .dirty, .cfgA, .cfgB, .attn, .tState, .tWorld, .tSearch, .tTable, .tSolver, .tSel,
      .tSched, .tOut, .tSpoor, .tQueues, .tCmds, .tDone, .tRings, .engines, .bears, .jays, .cores, .lynx]
  | .attnLatchClear _ _ _ => [.draws, .doorbells, .regs, .shadow, .dirty, .cfgA, .cfgB, .setOrder, .attn, .tick, .passed,
      .running, .safe, .frame, .tState, .tWorld, .tSearch, .tTable, .tSolver, .tSel, .tSched, .tOut, .tSpoor, .tQueues,
      .tCmds, .tDone, .tRings, .engines, .bears, .jays, .fronts, .cores, .slotsPeak, .dram, .links, .cascade, .lynx, .clock,
      .power, .fault, .boxes, .firmware, .board, .identity, .log, .owl, .cal]
  | .wmarkCrossedClear _ _ _ => [.draws, .doorbells, .regs, .shadow, .dirty, .cfgA, .cfgB, .setOrder, .attn, .tick, .passed,
      .running, .safe, .frame, .tState, .tWorld, .tSearch, .tTable, .tSolver, .tSel, .tSched, .tOut, .tSpoor, .tQueues,
      .tCmds, .tDone, .tRings, .engines, .bears, .jays, .fronts, .cores, .slotsPeak, .dram, .links, .cascade, .lynx, .clock,
      .power, .fault, .boxes, .firmware, .board, .identity, .log, .owl, .cal]
  | .attnMaskWrite _ _ _ => [.draws, .doorbells, .regs, .shadow, .dirty, .cfgA, .cfgB, .setOrder, .attn, .tick, .passed,
      .running, .safe, .frame, .tState, .tWorld, .tSearch, .tTable, .tSolver, .tSel, .tSched, .tOut, .tSpoor, .tQueues,
      .tCmds, .tDone, .tRings, .engines, .bears, .jays, .fronts, .cores, .slotsPeak, .dram, .links, .cascade, .lynx, .clock,
      .power, .fault, .boxes, .firmware, .board, .identity, .log, .owl, .cal]
  | .registerWrite _ _ _ _ => [.draws, .doorbells, .regs, .shadow, .dirty, .cfgA, .cfgB, .setOrder, .attn, .tick, .passed,
      .running, .safe, .frame, .tState, .tWorld, .tSearch, .tTable, .tSolver, .tSel, .tSched, .tOut, .tSpoor, .tQueues,
      .tCmds, .tDone, .tRings, .engines, .bears, .jays, .fronts, .cores, .slotsPeak, .dram, .links, .cascade, .lynx, .clock,
      .power, .fault, .boxes, .firmware, .board, .identity, .log, .owl, .cal]
  | .lowWordRead _ _ _ => [.regs, .cfgA, .cfgB, .attn, .slotsPeak, .links, .cascade, .lynx, .clock, .power]
  | .nowDateRead _ => [.regs, .cfgA, .cfgB, .attn, .slotsPeak, .links, .cascade, .lynx, .clock, .power]
  | .errCountRead _ _ => [.regs, .cfgA, .cfgB, .attn, .slotsPeak, .links, .cascade, .lynx, .clock, .power]
  | .cFaultRead _ _ => [.regs, .cfgA, .cfgB, .attn, .slotsPeak, .links, .cascade, .lynx, .clock, .power]
  | .cStorePeakRead _ _ => [.regs, .cfgA, .cfgB, .attn, .slotsPeak, .links, .cascade, .lynx, .clock, .power]
  | .eQueuePeakRead _ _ => [.regs, .cfgA, .cfgB, .attn, .slotsPeak, .links, .cascade, .lynx, .clock, .power]
  | .slotsPeakRead _ => [.regs, .cfgA, .cfgB, .attn, .slotsPeak, .links, .cascade, .lynx, .clock, .power]
  | .qPeakRead _ _ => [.regs, .cfgA, .cfgB, .attn, .slotsPeak, .links, .cascade, .lynx, .clock, .power]
  | .bar2DropsRead _ => [.regs, .cfgA, .cfgB, .attn, .slotsPeak, .links, .cascade, .lynx, .clock, .power]
  | .traceDropsRead _ => [.regs, .cfgA, .cfgB, .attn, .slotsPeak, .links, .cascade, .lynx, .clock, .power]
  | .tailWrite _ _ => [.draws, .doorbells, .regs, .shadow, .dirty, .cfgA, .cfgB, .setOrder, .attn, .tick, .passed, .running,
      .safe, .frame, .tState, .tWorld, .tSearch, .tTable, .tSolver, .tSel, .tSched, .tOut, .tSpoor, .tQueues, .tCmds,
      .tDone, .tRings, .engines, .bears, .jays, .fronts, .cores, .slotsPeak, .dram, .links, .cascade, .lynx, .clock, .power,
      .fault, .boxes, .firmware, .board, .identity, .log, .owl, .cal]
  | .divCountRead _ => [.regs, .cfgA, .cfgB, .attn, .slotsPeak, .links, .cascade, .lynx, .clock, .power]
  | .cascadeDropsRead _ => [.regs, .cfgA, .cfgB, .attn, .slotsPeak, .links, .cascade, .lynx, .clock, .power]
  | .foreignRead _ => [.regs, .cfgA, .cfgB, .attn, .slotsPeak, .links, .cascade, .lynx, .clock, .power]
  | .lErrRead _ _ => [.regs, .cfgA, .cfgB, .attn, .slotsPeak, .links, .cascade, .lynx, .clock, .power]
  | .resetCauseRead _ => [.regs, .cfgA, .cfgB, .attn, .slotsPeak, .links, .cascade, .lynx, .clock, .power]
  | .muxStuckRead _ => [.regs, .cfgA, .cfgB, .attn, .slotsPeak, .links, .cascade, .lynx, .clock, .power]
  | .dEccRead _ _ => [.regs, .cfgA, .cfgB, .attn, .slotsPeak, .links, .cascade, .lynx, .clock, .power]
  | .tCtrlReset _ _ => [.draws, .regs, .shadow, .dirty, .attn, .safe, .frame, .tState, .tWorld, .tSearch, .tTable, .tSolver,
      .tSel, .tSched, .tOut, .tSpoor, .tQueues, .tCmds, .engines, .bears, .jays, .cores, .dram, .cascade]
  | .tCtrlHold _ _ => [.regs, .shadow, .dirty, .attn, .frame, .tState, .tWorld, .tSearch, .tTable, .tSolver, .tSel, .tSched,
      .tOut, .tSpoor, .tQueues, .tCmds, .engines, .bears, .jays, .cores, .cascade]
  | .tCtrlRelease _ _ => [.attn, .tState]
  | .dispatchAckTimeout _ _ => [.draws, .regs, .attn, .safe, .tState, .tSearch, .tTable, .tSolver, .tSel, .tSched, .tOut,
      .engines, .bears, .jays, .fronts, .cores, .dram, .cascade, .lynx, .log]
  | .unitRst _ _ _ => [.draws, .regs, .cfgA, .cfgB, .attn, .safe, .tState, .tSearch, .tTable, .tSolver, .tSel, .tSched,
      .tOut, .engines, .bears, .jays, .fronts, .cores, .dram, .cascade, .lynx, .power, .log]
  | .unitRstDone => [.draws, .regs, .shadow, .dirty, .attn, .safe, .tState, .tSearch, .tTable, .tSolver, .tSel, .tSched,
      .tOut, .engines, .bears, .jays, .fronts, .cores, .dram, .cascade, .lynx, .power, .log]
  | .pkgRst _ => [.regs, .shadow, .dirty, .cfgA, .cfgB, .setOrder, .attn, .tick, .passed, .running, .safe, .frame, .tState,
      .tWorld, .tSearch, .tTable, .tSolver, .tSel, .tSched, .tOut, .tSpoor, .tQueues, .tCmds, .tDone, .tRings, .engines,
      .bears, .jays, .fronts, .cores, .slotsPeak, .dram, .links, .cascade, .lynx, .clock, .power, .fault, .boxes, .firmware,
      .board, .identity, .log, .owl]
  | .pwrGoodFall => [.regs, .shadow, .dirty, .cfgA, .cfgB, .setOrder, .attn, .tick, .passed, .running, .safe, .frame,
      .tState, .tWorld, .tSearch, .tTable, .tSolver, .tSel, .tSched, .tOut, .tSpoor, .tQueues, .tCmds, .tDone, .tRings,
      .engines, .bears, .jays, .fronts, .cores, .slotsPeak, .dram, .links, .cascade, .lynx, .clock, .power, .fault, .boxes,
      .firmware, .board, .identity, .log, .owl]
  | .sysRstNLow _ => [.regs, .shadow, .dirty, .cfgA, .cfgB, .setOrder, .attn, .tick, .passed, .running, .safe, .frame,
      .tState, .tWorld, .tSearch, .tTable, .tSolver, .tSel, .tSched, .tOut, .tSpoor, .tQueues, .tCmds, .tDone, .tRings,
      .engines, .bears, .jays, .fronts, .cores, .slotsPeak, .dram, .links, .cascade, .lynx, .clock, .power, .fault, .boxes,
      .firmware, .board, .identity, .log, .owl]
  | .sysRstNRise => [.attn, .cascade, .power, .firmware, .log, .owl]
  | .bootStageComplete _ => [.draws, .regs, .shadow, .attn, .engines, .bears, .jays, .fronts, .cores, .dram, .power,
      .firmware, .board, .log]
  | .coldReset => [.regs, .shadow, .dirty, .cfgA, .cfgB, .setOrder, .attn, .tick, .passed, .running, .safe, .frame, .tState,
      .tWorld, .tSearch, .tTable, .tSolver, .tSel, .tSched, .tOut, .tSpoor, .tQueues, .tCmds, .tDone, .tRings, .engines,
      .bears, .jays, .fronts, .cores, .slotsPeak, .dram, .links, .cascade, .lynx, .clock, .power, .fault, .boxes, .firmware,
      .board, .identity, .log, .owl, .cal]
  | .portReset _ _ => [.regs, .shadow, .dirty, .cfgA, .cfgB, .attn, .frame, .tState, .tWorld, .tSearch, .tTable, .tSolver,
      .tSel, .tSched, .tOut, .tSpoor, .tQueues, .tCmds, .tDone, .engines, .bears, .jays, .cores, .cascade, .power]
  | .portReady _ => [.draws, .cfgA, .cfgB]
  | .tempSample _ => [.regs, .shadow, .dirty, .attn, .frame, .tWorld, .tQueues, .tCmds, .dram, .clock, .power, .fault, .log,
      .owl]
  | .throttleStep => [.now, .draws, .regs, .attn, .safe, .frame, .tSearch, .tSolver, .tSel, .tSched, .tOut, .bears, .jays,
      .cores, .dram, .cascade, .clock, .power]
  | .throttleEnd => [.now, .draws, .regs, .attn, .safe, .frame, .tSearch, .tSolver, .tSel, .tSched, .tOut, .bears, .jays,
      .cores, .dram, .cascade, .clock, .power]
  | .throttleRestoreStep => [.now, .draws, .regs, .attn, .safe, .frame, .tSearch, .tSolver, .tSel, .tSched, .tOut, .bears,
      .jays, .cores, .dram, .cascade, .clock, .power]
  | .dramRefresh => [.now, .draws, .regs, .attn, .safe, .frame, .tSearch, .tSolver, .tSel, .tSched, .tOut, .bears, .jays,
      .cores, .dram, .cascade]
  | .levelChangeRequest _ _ => [.cfgA, .cfgB, .attn, .frame, .clock]
  | .pllLockDetect => [.clock]
  | .pllStable _ => [.attn, .frame, .clock]
  | .sourceStable _ => [.clock]
  | .sourceStartTimeout _ => [.clock]
  | .srcEnWrite _ _ => [.regs, .cfgA, .cfgB, .attn, .clock]
  | .muxSwitch _ => [.attn, .frame, .cores, .clock]
  | .muxWatchdog _ _ => [.regs, .shadow, .dirty, .attn, .frame, .tWorld, .tTable, .tQueues, .tCmds, .engines, .bears, .jays,
      .cores, .clock, .power, .fault, .boxes, .firmware, .log]
  | .refLost => [.regs, .shadow, .dirty, .attn, .tWorld, .tQueues, .tCmds, .clock, .fault, .log]
  | .meterStart _ _ => [.cfgA, .cfgB, .attn, .clock]
  | .meterDone _ => [.clock]
  | .trimStart _ _ => [.cfgA, .cfgB, .attn, .clock]
  | .trimIteration _ => [.clock]
  | .trimRefTimeout => [.attn, .clock]
  | .rtcSecond => [.clock, .owl, .cal]
  | .rtcSourceLost => [.cal]
  | .calSet _ => [.cfgA, .cfgB, .attn, .log, .cal]
  | .linkEnable _ _ => [.attn, .links]
  | .linkTrained _ _ => [.links]
  | .retrain _ _ => [.attn, .links, .log, .owl]
  | .linkReplay _ => [.links]
  | .replayRetrain _ => [.attn, .links, .log, .owl]
  | .linkDownTimeout _ => [.draws, .regs, .attn, .safe, .tState, .tSearch, .tSolver, .tSel, .tSched, .tOut, .bears, .jays,
      .cores, .dram, .links, .cascade]
  | .routeDataWrite _ _ => [.cfgA, .cfgB, .attn, .cascade]
  | .write _ _ => [.draws, .regs, .attn, .safe, .tState, .tSearch, .tSolver, .tSel, .tSched, .tOut, .bears, .jays, .cores,
      .dram, .links, .cascade]
  | .read _ _ => [.draws, .regs, .attn, .safe, .tState, .tSearch, .tSolver, .tSel, .tSched, .tOut, .bears, .jays, .cores,
      .dram, .links, .cascade]
  | .doorbell _ _ => [.draws, .regs, .attn, .safe, .tState, .tSearch, .tSolver, .tSel, .tSched, .tOut, .bears, .jays,
      .cores, .dram, .links, .cascade]
  | .collPart _ _ => [.draws, .regs, .attn, .safe, .tState, .tSearch, .tSolver, .tSel, .tSched, .tOut, .bears, .jays,
      .cores, .dram, .links, .cascade]
  | .ack _ _ => [.draws, .regs, .attn, .safe, .tState, .tSearch, .tSolver, .tSel, .tSched, .tOut, .bears, .jays, .cores,
      .dram, .links, .cascade]
  | .readData _ _ => [.draws, .regs, .attn, .safe, .tState, .tSearch, .tSolver, .tSel, .tSched, .tOut, .bears, .jays,
      .cores, .dram, .links, .cascade]
  | .collResult _ _ => [.draws, .regs, .attn, .safe, .tState, .tSearch, .tSolver, .tSel, .tSched, .tOut, .bears, .jays,
      .cores, .dram, .links, .cascade, .lynx]
  | .witness _ _ => [.draws, .regs, .attn, .safe, .tState, .tSearch, .tSolver, .tSel, .tSched, .tOut, .tRings, .bears,
      .jays, .cores, .dram, .links, .cascade]
  | .tick _ _ => [.regs, .attn, .running, .frame, .cascade]
  | .tickForward => [.links, .cascade]
  | .mark _ _ => [.attn, .cascade]
  | .markSend => [.links]
  | .markForward => [.links, .cascade]
  | .masterLost => [.now, .draws, .regs, .attn, .safe, .frame, .tState, .tSearch, .tSolver, .tSel, .tSched, .tOut, .bears,
      .jays, .cores, .dram, .cascade, .lynx]
  | .cal _ _ => [.links, .cascade]
  | .calEchoSend _ => [.links]
  | .calEcho _ _ _ => [.links, .cascade]
  | .lynxWindowEnd => [.now, .draws, .regs, .attn, .safe, .frame, .tSearch, .tSolver, .tSel, .tSched, .tOut, .bears, .jays,
      .cores, .dram, .links, .cascade, .lynx]
  | .lynxSig _ => [.now, .draws, .regs, .shadow, .dirty, .attn, .safe, .frame, .tWorld, .tSearch, .tSolver, .tSel, .tSched,
      .tOut, .tQueues, .tCmds, .bears, .jays, .cores, .dram, .links, .cascade, .lynx, .fault, .log]
  | .lynxNotice _ => [.draws, .regs, .shadow, .dirty, .attn, .tWorld, .tQueues, .tCmds, .links, .cascade, .lynx, .fault,
      .log]
  | .lynxMissing _ => [.draws, .regs, .shadow, .dirty, .attn, .tWorld, .tQueues, .tCmds, .links, .lynx, .fault, .log]
  | .divClear _ => [.attn, .lynx]
  | .getInfo _ _ => [.draws, .regs, .cfgA, .cfgB, .attn, .safe, .tState, .tSearch, .tTable, .tSolver, .tSel, .tSched, .tOut,
      .engines, .bears, .jays, .fronts, .cores, .dram, .cascade, .lynx, .boxes, .firmware, .board, .identity, .log, .owl]
  | .readSensors _ _ => [.draws, .regs, .cfgA, .cfgB, .attn, .safe, .tState, .tSearch, .tTable, .tSolver, .tSel, .tSched,
      .tOut, .engines, .bears, .jays, .fronts, .cores, .dram, .cascade, .lynx, .boxes, .firmware, .board, .identity, .log,
      .owl]
  | .readCounters _ _ => [.draws, .regs, .cfgA, .cfgB, .attn, .safe, .tState, .tSearch, .tTable, .tSolver, .tSel, .tSched,
      .tOut, .engines, .bears, .jays, .fronts, .cores, .dram, .cascade, .lynx, .boxes, .firmware, .board, .identity, .log,
      .owl]
  | .readLog _ _ => [.draws, .regs, .cfgA, .cfgB, .attn, .safe, .tState, .tSearch, .tTable, .tSolver, .tSel, .tSched, .tOut,
      .engines, .bears, .jays, .fronts, .cores, .dram, .cascade, .lynx, .boxes, .firmware, .board, .identity, .log, .owl]
  | .getIdentity _ _ => [.draws, .regs, .cfgA, .cfgB, .attn, .safe, .tState, .tSearch, .tTable, .tSolver, .tSel, .tSched,
      .tOut, .engines, .bears, .jays, .fronts, .cores, .dram, .cascade, .lynx, .boxes, .firmware, .board, .identity, .log,
      .owl]
  | .challenge _ _ => [.draws, .regs, .cfgA, .cfgB, .attn, .safe, .tState, .tSearch, .tTable, .tSolver, .tSel, .tSched,
      .tOut, .engines, .bears, .jays, .fronts, .cores, .dram, .cascade, .lynx, .boxes, .firmware, .board, .identity, .log,
      .owl]
  | .verify _ _ => [.draws, .regs, .cfgA, .cfgB, .attn, .safe, .tState, .tSearch, .tTable, .tSolver, .tSel, .tSched, .tOut,
      .engines, .bears, .jays, .fronts, .cores, .dram, .cascade, .lynx, .boxes, .firmware, .board, .identity, .log, .owl]
  | .pair _ _ => [.draws, .regs, .cfgA, .cfgB, .attn, .safe, .tState, .tSearch, .tTable, .tSolver, .tSel, .tSched, .tOut,
      .engines, .bears, .jays, .fronts, .cores, .dram, .cascade, .lynx, .boxes, .firmware, .board, .identity, .log, .owl]
  | .identAck _ _ => [.draws, .regs, .cfgA, .cfgB, .attn, .safe, .tState, .tSearch, .tTable, .tSolver, .tSel, .tSched,
      .tOut, .engines, .bears, .jays, .fronts, .cores, .dram, .cascade, .lynx, .boxes, .firmware, .board, .identity, .log,
      .owl]
  | .fence _ _ => [.draws, .regs, .cfgA, .cfgB, .attn, .safe, .tState, .tSearch, .tTable, .tSolver, .tSel, .tSched, .tOut,
      .engines, .bears, .jays, .fronts, .cores, .dram, .cascade, .lynx, .boxes, .firmware, .board, .identity, .log, .owl]
  | .unfence _ _ => [.draws, .regs, .cfgA, .cfgB, .attn, .safe, .tState, .tSearch, .tTable, .tSolver, .tSel, .tSched, .tOut,
      .engines, .bears, .jays, .fronts, .cores, .dram, .cascade, .lynx, .boxes, .firmware, .board, .identity, .log, .owl]
  | .fwBegin _ _ => [.draws, .regs, .cfgA, .cfgB, .attn, .safe, .tState, .tSearch, .tTable, .tSolver, .tSel, .tSched, .tOut,
      .engines, .bears, .jays, .fronts, .cores, .dram, .cascade, .lynx, .boxes, .firmware, .board, .identity, .log, .owl]
  | .fwChunk _ _ => [.draws, .regs, .cfgA, .cfgB, .attn, .safe, .tState, .tSearch, .tTable, .tSolver, .tSel, .tSched, .tOut,
      .engines, .bears, .jays, .fronts, .cores, .dram, .cascade, .lynx, .boxes, .firmware, .board, .identity, .log, .owl]
  | .fwFinish _ _ => [.draws, .regs, .cfgA, .cfgB, .attn, .safe, .tState, .tSearch, .tTable, .tSolver, .tSel, .tSched,
      .tOut, .engines, .bears, .jays, .fronts, .cores, .dram, .cascade, .lynx, .boxes, .firmware, .board, .identity, .log,
      .owl]
  | .fwConfirm _ _ => [.draws, .regs, .cfgA, .cfgB, .attn, .safe, .tState, .tSearch, .tTable, .tSolver, .tSel, .tSched,
      .tOut, .engines, .bears, .jays, .fronts, .cores, .dram, .cascade, .lynx, .boxes, .firmware, .board, .identity, .log,
      .owl]
  | .setBoardCfg _ _ => [.draws, .regs, .cfgA, .cfgB, .attn, .safe, .tState, .tSearch, .tTable, .tSolver, .tSel, .tSched,
      .tOut, .engines, .bears, .jays, .fronts, .cores, .dram, .cascade, .lynx, .boxes, .firmware, .board, .identity, .log,
      .owl]
  | .getBoardCfg _ _ => [.draws, .regs, .cfgA, .cfgB, .attn, .safe, .tState, .tSearch, .tTable, .tSolver, .tSel, .tSched,
      .tOut, .engines, .bears, .jays, .fronts, .cores, .dram, .cascade, .lynx, .boxes, .firmware, .board, .identity, .log,
      .owl]
  | .smbResponseRead _ => [.owl]
  | .smbTimeRead => [.owl]
  | .logFlush => [.attn, .log]
  | .counterCheckpoint => [.owl]
  | .railSample _ _ _ _ => [.attn, .power, .log, .owl]
  | .sramCorrected _ => [.attn]
  | .sramUe _ => [.draws, .regs, .shadow, .dirty, .attn, .safe, .tState, .tWorld, .tSearch, .tTable, .tSolver, .tSel,
      .tSched, .tOut, .tQueues, .tCmds, .engines, .bears, .jays, .fronts, .cores, .dram, .cascade, .lynx, .power, .fault,
      .boxes, .firmware, .identity, .log]
  | .dramCorrected _ => [.regs, .attn, .dram, .owl]
  | .dramUe _ => [.regs, .attn, .dram, .log]
  | .extest => [.draws, .regs, .shadow, .dirty, .cfgA, .cfgB, .setOrder, .attn, .tick, .passed, .running, .safe, .frame,
      .tState, .tWorld, .tSearch, .tTable, .tSolver, .tSel, .tSched, .tOut, .tSpoor, .tQueues, .tCmds, .tDone, .tRings,
      .engines, .bears, .jays, .fronts, .cores, .slotsPeak, .dram, .links, .cascade, .lynx, .clock, .power, .fault, .boxes,
      .firmware, .board, .identity, .log, .owl, .jtag]
  | .idcode => [.draws, .attn, .cascade, .power, .firmware, .log, .owl, .jtag]
  | .samplePreload => [.draws, .attn, .cascade, .power, .firmware, .log, .owl, .jtag]
  | .clamp => [.draws, .regs, .shadow, .dirty, .cfgA, .cfgB, .setOrder, .attn, .tick, .passed, .running, .safe, .frame,
      .tState, .tWorld, .tSearch, .tTable, .tSolver, .tSel, .tSched, .tOut, .tSpoor, .tQueues, .tCmds, .tDone, .tRings,
      .engines, .bears, .jays, .fronts, .cores, .slotsPeak, .dram, .links, .cascade, .lynx, .clock, .power, .fault, .boxes,
      .firmware, .board, .identity, .log, .owl, .jtag]
  | .highz => [.draws, .regs, .shadow, .dirty, .cfgA, .cfgB, .setOrder, .attn, .tick, .passed, .running, .safe, .frame,
      .tState, .tWorld, .tSearch, .tTable, .tSolver, .tSel, .tSched, .tOut, .tSpoor, .tQueues, .tCmds, .tDone, .tRings,
      .engines, .bears, .jays, .fronts, .cores, .slotsPeak, .dram, .links, .cascade, .lynx, .clock, .power, .fault, .boxes,
      .firmware, .board, .identity, .log, .owl, .jtag]
  | .extestPulse => [.draws, .regs, .shadow, .dirty, .cfgA, .cfgB, .setOrder, .attn, .tick, .passed, .running, .safe,
      .frame, .tState, .tWorld, .tSearch, .tTable, .tSolver, .tSel, .tSched, .tOut, .tSpoor, .tQueues, .tCmds, .tDone,
      .tRings, .engines, .bears, .jays, .fronts, .cores, .slotsPeak, .dram, .links, .cascade, .lynx, .clock, .power, .fault,
      .boxes, .firmware, .board, .identity, .log, .owl, .jtag]
  | .extestTrain => [.draws, .regs, .shadow, .dirty, .cfgA, .cfgB, .setOrder, .attn, .tick, .passed, .running, .safe,
      .frame, .tState, .tWorld, .tSearch, .tTable, .tSolver, .tSel, .tSched, .tOut, .tSpoor, .tQueues, .tCmds, .tDone,
      .tRings, .engines, .bears, .jays, .fronts, .cores, .slotsPeak, .dram, .links, .cascade, .lynx, .clock, .power, .fault,
      .boxes, .firmware, .board, .identity, .log, .owl, .jtag]
  | .bypass => [.attn, .cascade, .power, .firmware, .log, .owl, .jtag]
  | .lastFrameEnd => [.now, .draws, .regs, .shadow, .dirty, .cfgA, .cfgB, .attn, .tick, .passed, .safe, .frame, .tState,
      .tWorld, .tSearch, .tTable, .tSolver, .tSel, .tSched, .tOut, .tSpoor, .tQueues, .tCmds, .tDone, .tRings, .engines,
      .bears, .jays, .fronts, .cores, .dram, .links, .cascade, .lynx, .clock, .power]
  | .alignedFrameBoundary => [.now, .draws, .regs, .shadow, .dirty, .cfgA, .cfgB, .attn, .tick, .passed, .running, .safe,
      .frame, .tState, .tWorld, .tSearch, .tTable, .tSolver, .tSel, .tSched, .tOut, .tSpoor, .tQueues, .tCmds, .tDone,
      .tRings, .engines, .bears, .jays, .fronts, .cores, .dram, .links, .cascade, .lynx, .clock, .power]
  | .guardActionsComplete => [.now, .draws, .regs, .shadow, .dirty, .cfgA, .cfgB, .attn, .safe, .frame, .tState, .tWorld,
      .tSearch, .tTable, .tSolver, .tSel, .tSched, .tOut, .tSpoor, .tQueues, .tCmds, .tDone, .tRings, .engines, .bears,
      .jays, .fronts, .cores, .dram, .links, .cascade, .lynx, .clock, .power]
  | .queueDmaError _ _ _ => [.attn, .tOut, .tQueues]
  | .rtcSourceReturn => [.cal]
  | .pwrGoodRise => [.attn, .cascade, .power, .firmware, .log, .owl]
  | .v3p3Loss => [.safe, .power]
  | .v3p3Return => [.safe, .power]
  | .owlWatchdog => [.attn, .power, .boxes, .firmware, .log]
  | .linkDown _ => [.links]
  | .invalidFrame _ _ => [.cascade]
  | .creditReturn _ _ => [.links]
  | .mbGoWhileBusy _ => [.boxes]
  | .unassignedMailboxOpcode _ _ => [.draws, .regs, .cfgA, .cfgB, .attn, .safe, .tState, .tSearch, .tTable, .tSolver, .tSel,
      .tSched, .tOut, .engines, .bears, .jays, .fronts, .cores, .dram, .cascade, .lynx, .boxes, .firmware, .board,
      .identity, .log, .owl]
  | .mailboxFrameDiscarded _ => []
  | .flashEraseDone => [.draws, .regs, .cfgA, .cfgB, .attn, .safe, .tState, .tSearch, .tTable, .tSolver, .tSel, .tSched,
      .tOut, .engines, .bears, .jays, .fronts, .cores, .dram, .cascade, .lynx, .boxes, .firmware, .board, .identity, .log,
      .owl]

end Sys2Proof.Machine
end

