-- ==== Sys2Proof/Certificates/Slice0/Obligations.lean ====
section
/-! DEFINITION. The statements for the provers: what the commands do, what they leave alone, and what every step keeps. -/
set_option linter.unusedVariables false
open Sys2Proof Sys2Proof.Machine

/-! ### The block as a whole -/

/-- A step takes the command at the front of the queue: it is that command's effect on the state with the queue's rest. -/
def Obligations.StepRunsTheFrontCommand : Prop :=
  ∀ (s : State) (c : Instr) (rest : List Instr), s.pending = c :: rest → step s = exec c { s with pending := rest }

/-- With no command waiting, a step lets one microsecond of the frame timer pass (01 R20), and no frame begins or ends with it. Where no timer,
no WAIT's deadline and no 64th edge of a deadlock test falls due by then (10 R388, R391, R398), registers, memory, attention, the frame, Owl
and the units stand as they are, and of the tenants the edges of the deadlock test alone move. DESIGN CHOICE, log 2. -/
def Obligations.AnIdleStepIsOneMicrosecond : Prop :=
  ∀ s : State, s.pending = [] → ∃ t, step s = .next t ∧ t.now = s.now + 1 ∧ t.pending = [] ∧ t.frame.number = s.frame.number ∧
    t.owl = s.owl ∧ (s.nothingDue (s.now + 1) → t.regs = s.regs ∧ t.dram = s.dram ∧ t.attn = s.attn ∧ t.frame = s.frame ∧
      t.cores = s.cores ∧ t.engines = s.engines ∧ t.bears = s.bears ∧ t.jays = s.jays ∧
      ∀ k, (t.tenant k).table = (s.tenant k).table ∧ (t.tenant k).out = (s.tenant k).out ∧
        ∃ n, (t.tenant k).sched = { (s.tenant k).sched with deadEdges := n })

/-- Every command answers a next state, and changes no part of the state but those `mayChange` lists for it; the conditions that watch
the state then bring attention and the edge detectors up to date (12 R460, R475; 10 R392, R393). -/
def Obligations.CommandsChangeOnlyTheirParts : Prop :=
  ∀ (i : Instr) (s : State), ∃ after, exec i s = .next (settle after) ∧ ∀ p, p ∉ mayChange i → p.same s after

/-- Bringing attention up to date changes no mask, no count of errors, no result and no page control, sets latch and crossed bits without
clearing one, and of the rest of the state moves the edge detectors of the schedulers alone: a detector keeps its entry, and one latched
stays so (10 R392, R393; 12 R460, R461, R475). -/
def Obligations.SettlingMovesAttentionAndDetectorsAlone : Prop :=
  ∀ s : State, s.attn.mask = (settle s).attn.mask ∧ s.attn.errCount = (settle s).attn.errCount ∧
    s.attn.lastResult = (settle s).attn.lastResult ∧ s.attn.pageCtrl = (settle s).attn.pageCtrl ∧
    (s.Canonical → ∀ page i, (mget 0 s.attn.latch page).getLsbD i = true → (mget 0 (settle s).attn.latch page).getLsbD i = true) ∧
    (s.Canonical → ∀ page i, (mget 0 s.attn.crossed page).getLsbD i = true →
      (mget 0 (settle s).attn.crossed page).getLsbD i = true) ∧
    (∀ t, ((settle s).tenant t).sched.detectors.map (·.cfg) = (s.tenant t).sched.detectors.map (·.cfg) ∧
      ∀ j : Fin 32, ((s.tenant t).sched.detectors.at' j).latched = true →
        (((settle s).tenant t).sched.detectors.at' j).latched = true) ∧
    ∀ p : Part, p ≠ .attn → p ≠ .tSched → p.same s (settle s)

/-- Every step keeps the invariant, from every state that has it: DRAM, its poisoned blocks and write-back queues, and the register files
stay well formed, the boot stays in a stage, at most eight deadlines have passed, the trim code keeps its ten bits, the calendar reads
a date that exists, every moment's flags are all set (10 R387), and wherever frames run the scheduler's time counts from a RUN that is past
(10 R390). -/
def Obligations.EveryStepKeepsTheInvariant : Prop :=
  ∀ s t : State, s.Inv → step s = .next t → t.Inv

/-- The state after reset has the invariant, and its maps are in canonical form. -/
def Obligations.ResetHasTheInvariant : Prop := State.reset.Inv ∧ State.reset.Canonical

/-- Every step keeps attention's maps and the tenants' static tiles in canonical form, from every state whose maps are so: equal contents
are equal data. -/
def Obligations.EveryStepKeepsMapsCanonical : Prop :=
  ∀ s t : State, s.Canonical → step s = .next t → t.Canonical

/-- No step turns back the frame timer's time, which gives every tick, deadline and timer its instant (01 R20), nor the rollback counter of
the fuses, which only ever rises (18 R690). The chip's own identity never changes (02 R68). -/
def Obligations.TimeAndFusesNeverFallBack : Prop :=
  ∀ s t : State, step s = .next t → s.now ≤ t.now ∧ s.owl.rollback ≤ t.owl.rollback ∧ t.chip = s.chip

/-- What the device reads right after a cold reset: no frame runs and FRAME.NUMBER is 0 (01 R57), the phase budgets stand at their reset
values (01 R28), no tenant exists, the boot stands at STAGE ROM with cause COLD alone (17 R650, R661), every link is DOWN (15 R563), the
calendar reads 2000-01-01 and is not valid (18 R702, R703), no commit set is open or waiting (12 R466) and JTAG holds IDCODE (20 R764). -/
def Obligations.ResetStopsFramesAndTenants : Prop :=
  State.reset.pending = [] ∧ State.reset.frame.inFrame = false ∧ State.reset.frame.run = false ∧ State.reset.frame.number = 0 ∧
    (List.range 8).map State.reset.deadlineAt = [1000, 2200, 3700, 5200, 7600, 8800, 9200, 9900] ∧
    State.reset.period = 10000 ∧ (∀ t, (State.reset.tenant t).state = .none) ∧ State.reset.power.stage = 0 ∧
    State.reset.power.cause = 1 ∧ (∀ l : Fin 8, (State.reset.links.at' l).st = .down) ∧
    (State.reset.cal.year, State.reset.cal.month, State.reset.cal.day) = (2000, 1, 1) ∧ State.reset.cal.valid = false ∧
    State.reset.cfgA.openSets = [] ∧ State.reset.cfgB.openSets = [] ∧ State.reset.cfgA.submitted = [] ∧
    State.reset.cfgB.submitted = [] ∧ State.reset.jtag.ir = 0x01

/-- Once asserted, SAFE_STATE stays asserted: the only commands that end it are a release, in a state with no condition of the frame in
progress or the most recent one, and a cold reset (01 R56; 17 R641, R643). It never releases by itself. -/
def Obligations.SafeStateEndsOnlyByRelease : Prop :=
  ∀ (i : Instr) (s t : State), s.frame.safePin = true → exec i s = .next t → t.frame.safePin = false →
    i = .coldReset ∨ (s.frame.ranSinceReset = false ∨ s.frame.safeNow = false ∧ s.frame.safeLast = false) ∧
      ((∃ w, i = .safeCtrlRelease w) ∨ ∃ w v, i = .registerWrite w 0x003 0x144 v ∧ v.getLsbD 0 = true)

/-- The budget of phase Pk is FRAME.BUDGET_Pk.US, of class F, with the reset values of R28: they add up to the deadlines of R28's table, and
the guard's 100 µs to the period (01 R28). -/
def Obligations.PhaseBudgetsHaveTheirReset : Prop :=
  ∀ k : Fin 8,
    (∃ r, regFind 0x03 (0x110 + 4 * k.val) = some (r, 0) ∧ r.cls = .f ∧
      r.reset = [1000, 1200, 1500, 1500, 2400, 1200, 400, 700].getD k.val 0) ∧
    (∀ s : State, s.budget k.val = bits (s.live 0x03 (0x110 + 4 * k.val)) 16 0) ∧
    State.reset.budget k.val = [1000, 1200, 1500, 1500, 2400, 1200, 400, 700].getD k.val 0 ∧
    State.reset.deadlineAt k.val = State.reset.frame.tickAt + [1000, 2200, 3700, 5200, 7600, 8800, 9200, 9900].getD k.val 0 ∧
    State.reset.deadlineAt 7 + 100 = State.reset.frame.tickAt + State.reset.period

/-- The calendar is Gregorian: the leap years, February's days, and every minute sixty seconds long (18 R701). -/
def Obligations.TheCalendarIsGregorian : Prop :=
  (∀ y, leap y = true ↔ y % 4 = 0 ∧ (y % 100 ≠ 0 ∨ y % 400 = 0)) ∧
    leap 2000 = true ∧ leap 2100 = false ∧ leap 2200 = false ∧ leap 2300 = false ∧
    (∀ y, monthDays y 2 = if leap y then 29 else 28) ∧
    ∀ c : Calendar, c.legal → c.atEnd = false → c.tick.second = (if c.second = 59 then 0 else c.second + 1)

/-! ### The tick (01 R18 to R27, R66; 15 R578) -/

/-- A tick of the selected source that comes in the guard of a frame, or where RUN has changed to 1 and no frame runs, begins the next
frame, in a package that leads no cascade: frame 0 after RUN has changed to 1, otherwise the frame after the one in progress (01 R23,
R25, R26, R62). The tick of the internal timer falls PERIOD after the previous one, or on the next frame-timer edge where none runs
(01 R20, R25); an accepted external tick is taken when it arrives (01 R21); a substitute falls at the end of the window and is marked
(01 R23). FTICK_OUT rises (01 R27). -/
def Obligations.TicksBeginFrames : Prop :=
  ∀ s : State, s.Inv → s.held = false → s.frame.run = true → s.frame.aligned = none → s.role ≠ 1 →
    (s.frame.inFrame = true → s.frame.passed = 8 ∧ s.frame.opening = false) →
    (s.tickSrc = 0 → s.frame.inFrame = true ∨ s.frame.fresh = true →
      ∃ t, exec .frameTimerTick s = .next t ∧ t.frame.inFrame = true ∧ t.frame.fresh = false ∧
        t.frame.number = (if s.frame.fresh then 0 else s.frame.number + 1) ∧ t.frame.substituted = false ∧
        t.frame.ftickOut = true ∧
        t.frame.tickAt = (if s.frame.inFrame then max s.now (s.frame.tickAt + s.period) else s.now + 1)) ∧
    (s.tickSrc = 1 → s.judgeArrival s.now = .accepted →
      ∃ t, exec .ftickIn s = .next t ∧ t.frame.inFrame = true ∧ t.frame.fresh = false ∧
        t.frame.number = (if s.frame.fresh then 0 else s.frame.number + 1) ∧ t.frame.substituted = false ∧
        t.frame.ftickOut = true ∧ t.frame.tickAt = s.now) ∧
    (s.tickSrc ≠ 0 → s.role ≠ 2 → s.frame.inFrame = true →
      ∃ t, exec .substituteTick s = .next t ∧ t.frame.inFrame = true ∧ t.frame.fresh = false ∧
        t.frame.number = (if s.frame.fresh then 0 else s.frame.number + 1) ∧ t.frame.substituted = true ∧
        t.frame.ftickOut = true ∧ t.frame.tickAt = max s.now (s.frame.tickAt + s.period + s.windowUs))

/-- What else ends and begins frames: the boundary that is due takes the number the cascade's TICK carried, else the next one (01 R26;
15 R578, R579); FTICK_OUT falls 1 µs after the boundary (01 R27); the last frame ends, with nothing after it, where the next tick would
have fallen (01 R25); and the guard's actions let the frame that waited for them open (01 R63). -/
def Obligations.BoundariesAndEndsTakeEffect : Prop :=
  ∀ s : State, s.held = false →
    (∃ t, exec .guardActionsComplete s = .next t ∧ t.now = max s.now s.frame.guardUntil ∧ t.frame.opening = false ∧
      (s.frame.opening = false → s.nothingDue (max s.now s.frame.guardUntil) → t.frame = s.frame)) ∧
    (s.frame.ftickOut = true →
      ∃ t, exec .ftickOutFall s = .next t ∧ t.frame.ftickOut = false ∧ t.now = max s.now (s.frame.tickAt + 1) ∧
        t.frame.number = s.frame.number ∧ t.frame.inFrame = s.frame.inFrame ∧ t.frame.passed = s.frame.passed ∧
        (s.nothingDue (max s.now (s.frame.tickAt + 1)) → t.frame = { s.frame with ftickOut := false })) ∧
    ((s.frame.inFrame = true → s.frame.passed = 8 ∧ s.frame.opening = false) →
    (∀ T number, s.frame.run = true → s.frame.aligned = some (T, number) →
      ∃ t, exec .alignedFrameBoundary s = .next t ∧ t.frame.inFrame = true ∧ t.frame.fresh = false ∧
        t.frame.number = number.getD (if s.frame.fresh then 0 else s.frame.number + 1) ∧ t.frame.tickAt = max s.now T ∧
        t.frame.ftickOut = true) ∧
    (s.frame.run = false → s.frame.inFrame = true →
      ∃ t, exec .lastFrameEnd s = .next t ∧ t.frame.inFrame = false ∧ t.frame.number = s.frame.number ∧
        t.now = max s.now (s.frame.tickAt + s.period)))

/-- RUN starts the frames, the count of them restarting where none is in progress (01 R25, R26; log 109), and stops them, RESYNC arms while
RUN is 1 and does nothing while it is 0, and RELEASE releases SAFE_STATE unless the frame in progress or the most recent one had a
condition; where it is refused, the count of refused releases advances, up to 65,535 (01 R24, R25, R56, R66; 17 R643). Clearing RUN disarms
RESYNC and leaves the frame in progress running (01 R25, R66). -/
def Obligations.FrameControlsTakeEffect : Prop :=
  ∀ (s : State) (w : Writer), s.ctlReaches w 0x03 = true →
    (∃ t, exec (.run w true) s = .next t ∧ t.frame.run = true ∧ t.frame.inFrame = s.frame.inFrame ∧
      t.frame.number = (if s.frame.run = false ∧ s.frame.inFrame = false then 0 else s.frame.number) ∧
      t.frame.fresh = (s.frame.fresh || ! s.frame.run)) ∧
    (∃ t, exec (.run w false) s = .next t ∧ t.frame.run = false ∧ t.frame.resync = false ∧
      t.frame.inFrame = s.frame.inFrame ∧ t.frame.number = s.frame.number ∧ t.frame.passed = s.frame.passed) ∧
    (∃ t, exec (.resync w) s = .next t ∧
      t.frame = if s.frame.run then { s.frame with resync := true } else s.frame) ∧
    (∃ t, exec (.safeCtrlRelease w) s = .next t ∧
      (s.frame.ranSinceReset = false ∨ s.frame.safeNow = false ∧ s.frame.safeLast = false → t.frame.safePin = false) ∧
      (s.frame.safePin = true → s.frame.ranSinceReset = true → s.frame.safeNow = true ∨ s.frame.safeLast = true →
        t.frame = s.frame ∧
        bits (t.live 0x03 0x148) 31 16 = min 65535 (bits (s.live 0x03 0x148) 31 16 + 1)))

/-- The deadlines and what they bring. D_k passes at its time, the deadlines before it that have not passed going first; one that has passed
changes nothing more (01 R29, R36). A part that has reached no tile boundary 50 µs after its deadline is halted, and CUT_FORCED is set; the
time the core domain spent on the holding clock extends the 50 µs (01 R38; 16 R619). The seal fixes the tenant's world for the frame, takes up
the scrolls, latches their sums in T_SCROLL, modulo 256 where they exceed a byte (log 110), and leaves other worlds alone; a program that needs
a SHAPE and has none takes its fault there (01 R34; 03 R119, R128; 08 R322). PUBLISH fixes what 01 R43, R46 and R53 decide: nothing where the
tenant has no program, the selected plan, or a stop with the first result that applies; a poisoned plan is a program fault, and a stop is
published (log 60). -/
def Obligations.DeadlinesSealsAndDecisionsTakeEffect : Prop :=
  ∀ s : State, s.Inv → s.held = false →
    (∀ k : Fin 8, s.frame.inFrame = true → s.frame.opening = false →
      (s.frame.passed ≤ k.val →
        ∃ t, exec (.phaseDeadline k) s = .next t ∧ t.frame.passed = k.val + 1 ∧ s.now ≤ t.now ∧ t.frame.number = s.frame.number ∧
          (s.frame.passed = k.val → t.now = max s.now (s.deadlineAt k.val))) ∧
      (k.val < s.frame.passed → exec (.phaseDeadline k) s = .next (settle s))) ∧
    (∀ (c : Fin 48) r, s.frame.inFrame = true → (s.core c.val).run = some r → r.stop = true → s.clock.holdSince = none →
      ∃ t, exec (.cutForced c) s = .next t ∧ (t.core c.val).run = none ∧
        (t.tenant r.part.tenant).out.cutForced = true ∧
        ∀ T, T = s.deadlineAt (trPhase ((s.tenant r.part.tenant).sched.rec' r.part.task)) →
          t.now = max s.now (T + 50 + s.heldSince T)) ∧
    (∀ t, s.halted = false → s.sealDue t = true →
      ∃ u, exec (.worldSeal t) s = .next u ∧
        (u.tenant t).world =
          { (s.tenant t).world with
            view := some ((s.tenant t).world.sealed
              (((s.tenant t).world.jobs.filter fun j => j.stamp.frame ≤ s.frame.seq).flatMap (·.records)) (s.unfetched t))
            scrollX := 0, scrollY := 0, cntDyn := 0, cntStat := 0 } ∧
        (∀ t', t' ≠ t → (u.tenant t').world = (s.tenant t').world) ∧
        ∀ noShape, noShape = (match (s.tenant t).sched.image with
            | some p => p.dims ≠ 0 && (s.tenant t).sched.shape.isNone
            | none => false) →
          ((s.tenant t).sched.running = false ∨ noShape = false →
            (u.tenant t).sched.tasks = (s.tenant t).sched.tasks ∧ (u.tenant t).faults = (s.tenant t).faults ∧
            u.live 0x06 (0x208 + 0x20 * t.val) =
              toField 8 (s.tenant t).world.scrollX + toField 8 (s.tenant t).world.scrollY * 2 ^ 8) ∧
          ((s.tenant t).sched.running = true → noShape = true →
            (u.tenant t).sched.tasks = [] ∧ (u.tenant t).sched.running = false ∧
            (u.tenant t).sched.abortCode = codeNoBucket ∧ (u.tenant t).out.aborted = true ∧
            (u.tenant t).faults = min 255 ((s.tenant t).faults + 1))) ∧
    (∀ t, s.inFault = false → (s.tenant t).live = true → s.frame.inFrame = true → s.frame.passed = 7 →
      (s.tenant t).out.fixed = false →
      ∃ u, exec (.publish t) s = .next u ∧ (u.tenant t).out.fixed = true ∧
        ((s.tenant t).hasProgram = false → (u.tenant t).out.result = codeOk ∧ (u.tenant t).out.planId = none) ∧
        ((s.tenant t).hasProgram = true → ∀ i, s.selected t = some i → s.candPoisoned t i = false →
          (u.tenant t).out.planId = some i ∧
            (u.tenant t).out.result = if (s.tenant t).out.cutMap = 0 then codeOk else codePhaseCut) ∧
        ((s.tenant t).hasProgram = true → s.selected t = none →
          (u.tenant t).out.planId = some (if s.hedgehogClear t then 0 else 1) ∧
          (u.tenant t).out.result =
            (if s.hedgehogClear t = false ∧ (s.tenant t).table.verdict 1 ≠ 1 then codeImminent
             else if (s.tenant t).out.aborted = true ∧ (s.tenant t).sel.finalResult = none then codeFallback
             else if (s.tenant t).sel.finalResult.isSome = true ∧ (s.tenant t).search.exhausted = true ∧
               (s.tenant t).table.noneClear = true then codeNoPathProven
             else codeNoPathInTime)) ∧
        (∀ i, s.selected t = some i → s.candPoisoned t i = true →
          (u.tenant t).sel.finalResult = none ∧ (u.tenant t).out.aborted = true ∧ (u.tenant t).sched.tasks = [] ∧
          (u.tenant t).faults = min 255 ((s.tenant t).faults + 1) ∧
          ((s.tenant t).hasProgram = true → (u.tenant t).out.planId = some (if s.hedgehogClear t then 0 else 1))))

/-! ### Queues (11) -/

/-- A submission doorbell publishes the entries from SQ_HEAD up to the index written: those published before keep their stamps, each further one
takes the next place in the order of all doorbells, and a tail moved back withdraws entries (11 R419, R425). A completion doorbell moves the
head to the index and frees the written slots before it; at the head itself, the whole ring where it is full (11 R421). An index outside the
ring sets DB_ERR and does nothing else (11 R417). No other queue changes, but that queue 0 may take a slot freed for the tenant's frame
completion (11 R443). -/
def Obligations.DoorbellsMoveTheirQueueAlone : Prop :=
  ∀ (s : State) (p : Port) (t : Fin 16) (q : Fin 8) (v : Word), s.reachesQueue p t = true →
    (∃ u, exec (.sqDoorbell p t q v) s = .next u ∧
      (s.sqDepth t q ≤ v.toNat % 4096 → u.queue t q = { s.queue t q with dbErr := true } ∧ u.doorbells = s.doorbells) ∧
      (v.toNat % 4096 < s.sqDepth t q →
        ∀ n, n = (v.toNat % 4096 + s.sqDepth t q - (s.queue t q).sqHead % s.sqDepth t q) % s.sqDepth t q →
        ∃ new, u.queue t q =
            { s.queue t q with sqTail := v.toNat % 4096, published := (s.queue t q).published.take n ++ new } ∧
          new.length = n - (s.queue t q).published.length ∧ u.doorbells = s.doorbells + new.length ∧
          ∀ j, j < new.length → new[j]? = some { s.stampNow with order := s.doorbells + j }) ∧
      ∀ t' q', (t', q') ≠ (t, q) → u.queue t' q' = s.queue t' q') ∧
    (∃ u, exec (.cqDoorbell p t q v) s = .next u ∧
      (s.cqDepth t q ≤ v.toNat % 4096 → u.queue t q = { s.queue t q with dbErr := true }) ∧
      (v.toNat % 4096 < s.cqDepth t q →
        ∀ n, n = (if v.toNat % 4096 = (s.queue t q).cqHead
            then (if (s.queue t q).written = s.cqDepth t q then s.cqDepth t q else 0)
            else min (s.queue t q).written ((v.toNat % 4096 + s.cqDepth t q - (s.queue t q).cqHead) % s.cqDepth t q)) →
        u.queue t q =
          { s.queue t q with
            cqHead := v.toNat % 4096, written := (s.queue t q).written - n, frameSlot := (u.queue t q).frameSlot } ∧
        (q ≠ 0 → (u.queue t q).frameSlot = (s.queue t q).frameSlot) ∧
        ((s.queue t q).frameSlot = true → (u.queue t q).frameSlot = true)) ∧
      ∀ t' q', (t', q') ≠ (t, q) → u.queue t' q' = { s.queue t' q' with frameSlot := (u.queue t' q').frameSlot } ∧
        (t' ≠ t ∨ q' ≠ 0 → u.queue t' q' = s.queue t' q'))

/-- A fetch takes the first published entry of the queue whose turn it is: SQ_HEAD advances round the ring, a slot of the completion queue is
reserved, and the rounds of the port and of the tenant go on past the queue; a queue whose turn it is not is passed over (11 R419, R423,
R424). An entry without a flaw holds its tag from then on, late where its frame has passed it (11 R433); a flawed one completes at once, its
completion last in the queue's order, with the code and ERR_OFFSET of its first fault (11 R426, R429, R440). -/
def Obligations.FetchTakesTheFirstEntry : Prop :=
  ∀ (s : State) (t : Fin 16) (q : Fin 8) (w : BitVec 512), s.held = false →
    (s.portNext (s.ownerOf t) ≠ some (t, q) → exec (.commandFetch t q w) s = .next (settle s)) ∧
    ∀ st rest, s.portNext (s.ownerOf t) = some (t, q) → (s.queue t q).published = st :: rest →
    ∃ u, exec (.commandFetch t q w) s = .next u ∧ (u.queue t q).published = rest ∧
      (u.queue t q).sqHead = ((s.queue t q).sqHead + 1) % s.sqDepth t q ∧
      (u.queue t q).reserved = (s.queue t q).reserved + 1 ∧
      (u.cfg (s.ownerOf t)).fetchTurn = (t.val + 1) % 16 ∧ (u.tenant t).queueTurn = (q.val + 1) % 8 ∧
      (cmdFlaws w (s.inLease t) = [] → (u.queue t q).comps = (s.queue t q).comps ∧
        ∃ c, (u.tenant t).cmds = (s.tenant t).cmds ++ [c] ∧ c.word = w ∧ c.q = q ∧ c.stamp = st ∧ c.waiting = false ∧
          c.late = s.fetchedLate t st (cmdField w 0 1)) ∧
      (cmdFlaws w (s.inLease t) ≠ [] → (u.queue t q).comps = (s.queue t q).comps ++
        [{ cmdId := BitVec.ofNat 16 (cmdField w 2 2), result := (flawCode (cmdFlaws w (s.inLease t))).1,
           detail := errDetail (flawCode (cmdFlaws w (s.inLease t))).2 false }])

/-- A completion is written at CQ_TAIL in the order the commands completed, TOGGLE inverting at the wrap; a frame completion goes the same
way into queue 0, the one that has its slot first and then the backlog in frame order, its publication record written to the slot that D_7
fixed where it publishes a plan (11 R421, R426, R435, R442, R443). -/
def Obligations.CompletionsGoOutInOrder : Prop :=
  ∀ (s : State) (t : Fin 16), s.writesStopped = false →
    (∀ q x rest, (q = 0 → (s.tenant t).backlog = [] ∨ s.frameReady t = false) → (s.queue t q).comps = x :: rest →
      ∃ u, exec (.completionWrite t q) s = .next u ∧ (u.queue t q).comps = rest ∧
        (u.queue t q).cqTail = ((s.queue t q).cqTail + 1) % s.cqDepth t q ∧
        (u.queue t q).toggle = ((s.queue t q).toggle ^^ decide ((s.queue t q).cqTail + 1 = s.cqDepth t q)) ∧
        (u.queue t q).written = (s.queue t q).written + 1 ∧
        mfind (u.queue t q).ring (s.queue t q).cqTail = some (entryOf (s.stat (some t) x.result) (s.attnSeq (some t))
          (s.queue t q).toggle false (s.queue t q).sqHead q.val x.cmdId x.detail)) ∧
    (∀ d, s.frameReady t = true → (s.tenant t).delivering = some d →
      ∃ u, exec (.frameCompletionWrite t) s = .next u ∧ (u.tenant t).delivering = none ∧
        (u.tenant t).backlog = (s.tenant t).backlog ∧
        (u.queue t 0).cqTail = ((s.queue t 0).cqTail + 1) % s.cqDepth t 0 ∧
        mfind (u.queue t 0).ring (s.queue t 0).cqTail = some (entryOf (s.stat (some t) d.result) (s.attnSeq (some t))
          (s.queue t 0).toggle true (s.queue t 0).sqHead 0 0xFFFF (d.detail (s.tenant t).backlog.length)) ∧
        (d.valid = true → mfind (u.tenant t).pubRing d.slot.toNat = some (recordBytes d))) ∧
    (∀ d rest, s.frameReady t = true → (s.tenant t).delivering = none → (s.tenant t).backlog = d :: rest →
      ∃ u, exec (.frameCompletionWrite t) s = .next u ∧ (u.tenant t).backlog = rest ∧
        (u.queue t 0).cqTail = ((s.queue t 0).cqTail + 1) % s.cqDepth t 0 ∧
        mfind (u.queue t 0).ring (s.queue t 0).cqTail = some (entryOf (s.stat (some t) d.result) (s.attnSeq (some t))
          (s.queue t 0).toggle true (s.queue t 0).sqHead 0 0xFFFF (d.detail rest.length)) ∧
        (d.valid = true → mfind (u.tenant t).pubRing d.slot.toNat = some (recordBytes d)))

/-- A failed DMA sets DMA_ERR, counts in ERR_COUNT and stops the queue's fetching; clearing DMA_ERR resumes it and changes nothing else of
the queue (11 R422). -/
def Obligations.DmaErrorsStopFetchingUntilCleared : Prop :=
  ∀ (s : State) (t : Fin 16) (q : Fin 8),
    (∀ what, s.held = false →
      ∃ u, exec (.queueDmaError t q what) s = .next u ∧ u.queue t q = { s.queue t q with dmaErr := true } ∧
        u.canFetch t q = false ∧
        mget 0 u.attn.errCount (queuePage t q) = min 65535 (mget 0 s.attn.errCount (queuePage t q) + 1)) ∧
    (∀ p, s.reachesQueue p t = true →
      ∃ u, exec (.qStatusDmaErrClear p t q) s = .next u ∧ u.queue t q = { s.queue t q with dmaErr := false })

/-! ### Host commands (11 R428 to R433) -/

/-- NOP completes with OK (11 R428). ACTIVATE is accepted for the tick, the later doorbell's standing (10 R394). LOAD_MODEL and
LOAD_LATTICE check their block whole: an accepted one waits for the tick and completes with CONFIG_DEFERRED, a refused one changes
nothing and completes with its code (04 R153 to R155; 06 R236; 11 R426, R440). -/
def Obligations.DeferredCommandsCompleteAtAcceptance : Prop :=
  ∀ (s : State) (t : Fin 16) (tag : Nat) (c : Cmd), s.held = false → (s.queue t c.q).dying = false →
    (s.cmdFor t tag 0x0A = some c → ∃ u, exec (.nop t tag) s = .next u ∧ Completes s u t c codeOk 0) ∧
    (s.cmdFor t tag 8 = some c → ∃ u, exec (.activate t tag) s = .next u ∧ Completes s u t c codeDeferred 0 ∧
      (u.tenant t).sched.activate =
        newer (s.tenant t).sched.activate c.stamp.order (decide (cmdField c.word 24 1 = 1))) ∧
    (∀ buf d, s.cmdFor t tag 3 = some c → s.cmdData c buf = some d →
      ∃ u, exec (.loadModel t tag buf) s = .next u ∧
        (modelFlaws d = [] → Completes s u t c codeDeferred 0 ∧ (u.tenant t).solver =
          { (s.tenant t).solver with modelNext := newer (s.tenant t).solver.modelNext c.stamp.order (modelOf d) }) ∧
        (modelFlaws d ≠ [] → (u.tenant t).solver = (s.tenant t).solver ∧
          ∃ off ∈ modelFlaws d, (∀ x ∈ modelFlaws d, off ≤ x) ∧ Completes s u t c codeBad (errDetail off true))) ∧
    (∀ buf d, s.cmdFor t tag 2 = some c → s.cmdData c buf = some d →
      ∃ u, exec (.loadLattice t tag buf) s = .next u ∧
        (∀ x, checkLattice d s.cellCm = .ok x → Completes s u t c codeDeferred 0 ∧ (u.tenant t).search =
          { (s.tenant t).search with imageNext := newer (s.tenant t).search.imageNext c.stamp.order x }) ∧
        (∀ code off, checkLattice d s.cellCm = .bad code off → (u.tenant t).search = (s.tenant t).search ∧
          Completes s u t c code (errDetail off true)) ∧
        (∀ i k, checkLattice d s.cellCm = .violator i k → (u.tenant t).search = (s.tenant t).search ∧
          Completes s u t c codeLimit (BitVec.ofNat 160 (i + k * 2 ^ 32))))

/-- MEASURE, SHAPE and SIGNAL take effect and complete with OK: the block and the dimensions of the later doorbell stand for the frame
(06 R238; 08 R319), and the bits SIGNAL names are cleared before those it names are set (11 R432). A MEASURE or SHAPE that its frame has
passed completes with FRAME_PASSED and changes neither (11 R433; log 130), a SHAPE that no bucket holds completes with SHAPE_NO_BUCKET
(08 R320, R321), and a MEASURE with a reserved byte that is not 0 with BAD_DESCRIPTOR (11 R429). In STATIC and LOCKSTEP modes each waits for
the D_0 of its frame (14 R529), and a SIGNAL waits while one with an earlier doorbell may still come (11 R432). -/
def Obligations.FrameInputsTakeEffect : Prop :=
  ∀ (s : State) (t : Fin 16) (tag : Nat) (c : Cmd), s.held = false → (s.queue t c.q).dying = false →
    ∀ waits, waits = (s.tenant t).cmds.map (fun e => if e.tag = c.tag then { e with waiting := true, data := [] } else e) →
    (s.cmdFor t tag 4 = some c →
      ∃ u, exec (.measure t tag) s = .next u ∧
        (cmdField c.word 36 20 ≠ 0 → (u.tenant t).solver = (s.tenant t).solver ∧ Completes s u t c codeBad (errDetail 36 false)) ∧
        (cmdField c.word 36 20 = 0 → s.framePassed c = true →
          (u.tenant t).solver = (s.tenant t).solver ∧ Completes s u t c codePassed 0) ∧
        (cmdField c.word 36 20 = 0 → s.framePassed c = false → s.waitsForD0 c.stamp = true →
          (u.tenant t).solver = (s.tenant t).solver ∧ (u.tenant t).cmds = waits) ∧
        (cmdField c.word 36 20 = 0 → s.framePassed c = false → s.waitsForD0 c.stamp = false → Completes s u t c codeOk 0 ∧
          (u.tenant t).solver = if c.stamp.frame ≤ s.frame.seq
            then { (s.tenant t).solver with meas := newer (s.tenant t).solver.meas c.stamp.order c.measure }
            else { (s.tenant t).solver with measNext := newer (s.tenant t).solver.measNext c.stamp.order c.measure })) ∧
    (s.cmdFor t tag 5 = some c →
      ∃ u, exec (.shape t tag) s = .next u ∧
        (s.framePassed c = true → (u.tenant t).sched.shape = (s.tenant t).sched.shape ∧
          (u.tenant t).sched.shapeNext = (s.tenant t).sched.shapeNext ∧ Completes s u t c codePassed 0) ∧
        (s.framePassed c = false → s.waitsForD0 c.stamp = true → (u.tenant t).sched.shape = (s.tenant t).sched.shape ∧
          (u.tenant t).sched.shapeNext = (s.tenant t).sched.shapeNext ∧ (u.tenant t).cmds = waits) ∧
        (s.framePassed c = false → s.waitsForD0 c.stamp = false →
          ∀ dims, dims = (List.range 4).map (fun i => cmdField c.word (24 + 4 * i) 4) →
          (∀ b, ((s.programFor t c.stamp.frame).bind fun p => bucketFor p.image dims) = some b →
            Completes s u t c codeOk (BitVec.ofNat 160 b) ∧
            (if c.stamp.frame ≤ s.frame.seq
             then (u.tenant t).sched.shape = newer (s.tenant t).sched.shape c.stamp.order (dims, b)
             else (u.tenant t).sched.shapeNext = newer (s.tenant t).sched.shapeNext c.stamp.order (dims, b))) ∧
          (((s.programFor t c.stamp.frame).bind fun p => bucketFor p.image dims) = none →
            (u.tenant t).sched.shape = (s.tenant t).sched.shape ∧ Completes s u t c codeNoBucket 0))) ∧
    (s.cmdFor t tag 9 = some c →
      ∃ u, exec (.signal t tag) s = .next u ∧
        (s.waitsForD0 c.stamp = true → (u.tenant t).sched.signal = (s.tenant t).sched.signal ∧ (u.tenant t).cmds = waits) ∧
        (s.waitsForD0 c.stamp = false → s.signalTurn t c = false → u = settle s) ∧
        (s.waitsForD0 c.stamp = false → s.signalTurn t c = true → Completes s u t c codeOk 0 ∧
          (u.tenant t).sched.signal = ((s.tenant t).sched.signal &&& ~~~ BitVec.ofNat 32 (cmdField c.word 28 4)) |||
            BitVec.ofNat 32 (cmdField c.word 24 4)))

/-- LOAD_PROGRAM into a slot that is neither running nor named by a pending ACTIVATE: an image that passes its checks and is admitted
stands in the slot with its hashes (10 R378, R394; 09 R365; 14 R537), one that is not admitted completes with MODEL_TOO_LARGE and its
shortfall (09 R366), a busy slot refuses it (10 R394), a poisoned source completes with MEMORY_UE (11 R430), and an image that fails a check
with BAD_DESCRIPTOR (10 R378); only the accepted load changes the slots. -/
def Obligations.ProgramsLoadIntoTheIdleSlot : Prop :=
  ∀ (s : State) (t : Fin 16) (tag : Nat) (p : ProgramImage) (c : Cmd), s.held = false → (s.queue t c.q).dying = false →
    s.cmdFor t tag 7 = some c →
    ∀ b, b = decide (cmdField c.word 24 1 = 1) → ∃ u, exec (.loadProgram t tag p) s = .next u ∧
      ((s.tenant t).sched.slotBusy b = true → Completes s u t c codeBusy 0 ∧
        (u.tenant t).sched.slotA = (s.tenant t).sched.slotA ∧ (u.tenant t).sched.slotB = (s.tenant t).sched.slotB) ∧
      ((s.tenant t).sched.slotBusy b = false → (c.src && s.dram.poisoned c.addr c.len) = true →
        Completes s u t c codeMemoryUe 0 ∧
        (u.tenant t).sched.slotA = (s.tenant t).sched.slotA ∧ (u.tenant t).sched.slotB = (s.tenant t).sched.slotB) ∧
      ((s.tenant t).sched.slotBusy b = false → (c.src && s.dram.poisoned c.addr c.len) = false →
        imageOk p (s.leaseView t) = false →
        (∃ off, Completes s u t c codeBad (errDetail off true)) ∧
        (u.tenant t).sched.slotA = (s.tenant t).sched.slotA ∧ (u.tenant t).sched.slotB = (s.tenant t).sched.slotB) ∧
      ((s.tenant t).sched.slotBusy b = false → (c.src && s.dram.poisoned c.addr c.len) = false →
        imageOk p (s.leaseView t) = true →
        (∀ x, s.admission t b p = some x → (u.tenant t).sched.slotA = (s.tenant t).sched.slotA ∧
          (u.tenant t).sched.slotB = (s.tenant t).sched.slotB ∧
          Completes s u t c codeTooLarge (BitVec.ofNat 160 (x.kind + x.place * 2 ^ 16 + x.amount * 2 ^ 32))) ∧
        (s.admission t b p = none → Completes s u t c codeOk 0 ∧
          (u.tenant t).sched.slotA = (if b then (s.tenant t).sched.slotA else some (programOf p)) ∧
          (u.tenant t).sched.slotB = (if b then some (programOf p) else (s.tenant t).sched.slotB)))

/-- HOST_CAND waits with its records for the judgement, is refused with FRAME_PASSED where it was fetched at or after D_3 of its frame, or its
frame has ended since (11 R431, R433; log 130), and with MEMORY_UE where its buffer is poisoned (11 R430). At the judgement, in its turn, a
command with a fault is refused with nothing written, one whose records do not fit below ID 1,152 with LENGTH_EXCEEDS_BUFFER (log 113), and
one of good records takes the next entries of the tenant's host range; where no queue fills, every record stands in its entry and the
command completes with its first ID and their number (04 R175, R177). One that waits for room goes on where it stopped (05 R214), and has
nothing left to do once its frame is over (log 118). -/
def Obligations.HostCandidatesAreJudgedWhole : Prop :=
  ∀ (s : State) (t : Fin 16) (tag : Nat) (c : Cmd), s.held = false → (s.queue t c.q).dying = false →
    ∀ gone, gone = (c.late = true ∨ c.stamp.hostFrame < s.frame.seq ∨
      c.stamp.hostFrame = s.frame.seq ∧ s.frame.inFrame = false) →
    (∀ st, s.fetchedLate t st 6 = true ↔ st.hostFrame < s.frame.seq ∨
      st.hostFrame = s.frame.seq ∧ (s.frame.inFrame = false ∨ 4 ≤ s.frame.passed)) ∧
    (∀ buf, s.cmdFor t tag 6 = some c →
      ∃ u, exec (.hostCand t tag buf) s = .next u ∧ (u.tenant t).table = (s.tenant t).table ∧
        (gone → Completes s u t c codePassed 0) ∧
        (¬ gone → s.cmdData c buf = none → Completes s u t c codeMemoryUe 0) ∧
        (¬ gone → ∀ d, s.cmdData c buf = some d → (u.tenant t).cmds = (s.tenant t).cmds.map fun e =>
          if e.tag = c.tag then { e with waiting := true, data := d } else e)) ∧
    (((s.tenant t).cmds.find? fun c => c.tag = tag && c.opcode = 6 && c.waiting) = some c →
      ∀ rs, rs = chunks 128 (c.data.length / 128 + 1) c.data →
      ∀ flaws, flaws = ((List.range rs.length).zip rs).flatMap (fun p =>
        hostFlaws (s.tenant t).search.image (s.tenant t).search.limits p.2 (128 * p.1)) →
      ∃ u, exec (.hostCandJudge t tag) s = .next u ∧
        (c.delivering = none → s.frame.opening = false → c.stamp.hostFrame ≤ s.frame.seq → s.hostTurn t c = true →
          (gone → (u.tenant t).table = (s.tenant t).table ∧ Completes s u t c codePassed 0) ∧
          (¬ gone → flaws ≠ [] → (u.tenant t).table = (s.tenant t).table ∧ (u.tenant t).search = (s.tenant t).search ∧
            Completes s u t c codeBad (errDetail (flaws.foldl min 0xFFFFFFFF) true)) ∧
          (¬ gone → flaws = [] → 1152 < (s.tenant t).search.hostNext + rs.length →
            (u.tenant t).table = (s.tenant t).table ∧ (u.tenant t).search = (s.tenant t).search ∧
            Completes s u t c codeLength (errDetail 20 false)) ∧
          (¬ gone → flaws = [] → ∀ first, first = (s.tenant t).search.hostNext → first + rs.length ≤ 1152 →
            (u.tenant t).search.hostNext = first + rs.length ∧
            ((s.tenant t).table.stalls first (first + rs.length) = false →
              (∀ e : Fin 16, (s.engines.at' e).queue.length + rs.length ≤ 256) →
              Completes s u t c codeOk (BitVec.ofNat 160 (first + rs.length * 2 ^ 32)) ∧
              ∀ i k, (s.hostRecords t c first)[i]? = some k → (u.tenant t).table.cand (first + i) = some k))) ∧
        (∀ first n, c.delivering = some (first, n) →
          ((s.frame.inFrame = false ∨ s.frame.opening = true ∨ c.stamp.hostFrame ≠ s.frame.seq) →
            (u.tenant t).table = (s.tenant t).table ∧
            Completes s u t c codeOk (BitVec.ofNat 160 (first + rs.length * 2 ^ 32))) ∧
          (s.frame.inFrame = true → s.frame.opening = false → c.stamp.hostFrame = s.frame.seq →
            (s.tenant t).table.stalls first (first + rs.length) = false → n ≤ rs.length →
            (∀ e : Fin 16, (s.engines.at' e).queue.length + (rs.length - n) ≤ 256) →
            Completes s u t c codeOk (BitVec.ofNat 160 (first + rs.length * 2 ^ 32)) ∧
            ∀ i k, n ≤ i → (s.hostRecords t c first)[i]? = some k → (u.tenant t).table.cand (first + i) = some k)))

/-! ### The world store (03) -/

/-- INGEST judges its stream whole: a stream with a fault changes nothing of the world and completes with the code and place of the fault;
an accepted one waits in doorbell order for its records to be applied, and one without records completes with OK (03 R111 to R115). -/
def Obligations.IngestJudgesTheStreamWhole : Prop :=
  ∀ (s : State) (t : Fin 16) (tag : Nat) (buf : List Byte) (c : Cmd) (d : List Byte), s.held = false →
    (s.queue t c.q).dying = false → s.cmdFor t tag 1 = some c → s.hasWorld t = true → s.cmdData c buf = some d →
    ∃ u, exec (.ingest t tag buf) s = .next u ∧
      (∀ code off, checkStream d = .error (code, off) → (u.tenant t).world = (s.tenant t).world ∧
        Completes s u t c code (errDetail off true)) ∧
      (checkStream d = .ok [] → (u.tenant t).world = (s.tenant t).world ∧ Completes s u t c codeOk 0) ∧
      (∀ r rs, checkStream d = .ok (r :: rs) →
        (u.tenant t).world = { (s.tenant t).world with
          jobs := insertJob ⟨tag, c.stamp, r :: rs⟩ (s.tenant t).world.jobs } ∧
        (u.queue t c.q).comps = (s.queue t c.q).comps ∧
        ∀ e ∈ (u.tenant t).cmds, e.tag = c.tag → e.waiting = true)

/-- Burrow applies the record at the head of the first job: UNIFORM_TILES makes every tile of its rectangle uniform, REGION gives every
tile of it the class, and both leave the other tiles alone (03 R117); SCROLL adds to the tenant's scroll sums and moves the agents'
marks (03 R118, R119); the agents of AGENT_LIST take the next indices (03 R124); a MIXED_TILE of one state throughout becomes a uniform
tile, and one of several is stored while the share has room (03 R117, R126, R138, R144). The record then leaves its job (03 R115), and
the lowest agent not yet marked is rasterised (03 R123, R124). -/
def Obligations.RecordsChangeTheWorldInOrder : Prop :=
  ∀ (s : State) (t : Fin 16), s.Canonical →
    (∀ x0 y0 x1 y1 v, s.nextRecord t = some (.uniformTiles x0 y0 x1 y1 v) →
      ∃ u, exec (.uniformTiles t) s = .next u ∧ (u.tenant t).world.jobs = jobsAfter (s.tenant t).world.jobs ∧
        ∀ i, (u.tenant t).world.tile i = if i ∈ rectTiles x0 y0 x1 y1
          then { (s.tenant t).world.tile i with body := .uniform v } else (s.tenant t).world.tile i) ∧
    (∀ x0 y0 x1 y1 k, s.nextRecord t = some (.region x0 y0 x1 y1 k) →
      ∃ u, exec (.region t) s = .next u ∧ (u.tenant t).world.jobs = jobsAfter (s.tenant t).world.jobs ∧
        ∀ i, (u.tenant t).world.tile i = if i ∈ rectTiles x0 y0 x1 y1
          then { (s.tenant t).world.tile i with cls := k } else (s.tenant t).world.tile i) ∧
    (∀ dx dy, s.nextRecord t = some (.scroll dx dy) →
      ∃ u, exec (.scroll t) s = .next u ∧ (u.tenant t).world.jobs = jobsAfter (s.tenant t).world.jobs ∧
        (u.tenant t).world.scrollX = (s.tenant t).world.scrollX + dx ∧
        (u.tenant t).world.scrollY = (s.tenant t).world.scrollY + dy ∧
        (u.tenant t).world.agents = (s.tenant t).world.agents.map fun a => a.moved dx dy) ∧
    (∀ l, s.nextRecord t = some (.agentList l) →
      ∃ u, exec (.agentList t) s = .next u ∧ (u.tenant t).world =
        { (s.tenant t).world with agents := (s.tenant t).world.agents ++ l, jobs := jobsAfter (s.tenant t).world.jobs }) ∧
    (∀ tx ty d, s.nextRecord t = some (.mixedTile tx ty d) →
      ∃ u, exec (.mixedTile t) s = .next u ∧ (u.tenant t).world.jobs = jobsAfter (s.tenant t).world.jobs ∧
        ((bodyOf (tileWords d)).isMixed = false ∨ ((s.tenant t).world.setTile (tileIx tx ty)
            { (s.tenant t).world.tile (tileIx tx ty) with body := .uniform .free }).mixedList.length < s.tileShare t →
          (u.tenant t).world.tile (tileIx tx ty) =
            { (s.tenant t).world.tile (tileIx tx ty) with body := bodyOf (tileWords d) })) ∧
    (∀ i a, (List.range (s.tenant t).world.agents.length).find? (fun i => ! (s.tenant t).world.marked.contains i) = some i →
      (s.tenant t).world.agents[i]? = some a → s.held = false → s.halted = false → (s.tenant t).world.view = none →
      ∃ u, exec (.agentRasterise t) s = .next u ∧ i ∈ (u.tenant t).world.marked)

/-! ### BAR2 and configuration (11 R413, R415; 13 R494; 19 R729) -/

/-- A port that is ready reads and writes, through BAR2, the DRAM leases of the tenants it owns: a read returns the bytes, or is completed
poisoned where it touches a poisoned block, and changes nothing of the memory; a write changes its own bytes and no other
(13 R494; 19 R729). Any other read returns zeros, any other write is dropped, and each is counted (11 R415; 05 R218). -/
def Obligations.Bar2ReachesOwnLeasesAlone : Prop :=
  ∀ (s : State) (p : Port) (a : Nat), s.Inv → s.portUp p = true →
    (∀ n, ∃ u, exec (.bar2Read p a n) s = .next u ∧ u.dram = s.dram ∧
      (s.bar2Lease p a n = true → s.dram.poisoned a n = false →
        (u.cfg p).bar2Data = some ((List.range n).map fun i => s.dram.byte (a + i))) ∧
      (s.bar2Lease p a n = true → s.dram.poisoned a n = true → (u.cfg p).bar2Data = none) ∧
      (s.bar2Lease p a n = false → s.bar2Table p a n = none → (u.cfg p).bar2Data = some (List.replicate n 0) ∧
        u.live 0x00 0x10C = (match p with
          | .a => min 65535 (bits (s.live 0x00 0x10C) 15 0 + 1) + bits (s.live 0x00 0x10C) 31 16 * 2 ^ 16
          | .b => bits (s.live 0x00 0x10C) 15 0 + min 65535 (bits (s.live 0x00 0x10C) 31 16 + 1) * 2 ^ 16))) ∧
    (∀ d : List Byte, ∃ u, exec (.bar2Write p a d) s = .next u ∧
      (s.bar2Lease p a d.length = true → u.regs = s.regs ∧
        ∀ x, u.dram.byte x = if a ≤ x ∧ x < a + d.length then d.getD (x - a) 0 else s.dram.byte x) ∧
      (s.bar2Lease p a d.length = false → u.dram = s.dram ∧
        (s.chip.tableBase ≤ a → a < s.chip.capacity →
          u.live 0x09 0x100 = min 65535 (s.live 0x09 0x100 + 1))))

/-- A configuration request is answered with Configuration Request Retry Status exactly while the port is not ready, and leaves
everything but the port's answer alone (11 R413). -/
def Obligations.ConfigurationRequestsRetryUntilReady : Prop :=
  ∀ (s : State) (p : Port), s.held = false →
    ∃ u, exec (.configurationRequest p) s = .next u ∧ (u.cfg p).crs = ! (s.cfg p).ready ∧ u.regs = s.regs ∧
      u.dram = s.dram ∧ u.frame = s.frame ∧ ∀ q, q ≠ p → u.cfg q = s.cfg q

/-! ### Search (04) and checks (05) -/

/-- Front's field of a sealed tenant is built before D_3 and leaves the start node alone to expand, in the cell and the bins of the start
pose (04 R157, R161, R162); without a goal every unblocked cell costs 0 (04 R160), and without an image or with LAT_EN 0 expansion ends
NOT_RUN (04 R166). The expander then expands one node at a time: none left ends expansion EXHAUSTED, otherwise NODES advances (04 R162, R166,
R167), and a node on which it stalled goes on without being counted again; a full queue stalls it (05 R214). After D_3 neither does anything
more (04 R161, R166). The converter takes the oldest delivered row and counts it as converted, clipped, discarded or over the cap (04 R169 to
R173). -/
def Obligations.SearchStepsTakeEffect : Prop :=
  ∀ (s : State) (t : Fin 16), s.Inv → s.held = false → s.halted = false →
    (s.phasePassed 3 = true → exec (.frontField t) s = .next (settle s) ∧ exec (.expandNode t) s = .next (settle s)) ∧
    (∀ v, (s.tenant t).world.view = some v → (s.tenant t).search.front = .requested → s.phasePassed 3 = false →
      s.usableOf t .front ≠ [] →
      ∃ u, exec (.frontField t) s = .next u ∧ (u.tenant t).search.front = .done ∧
        (u.tenant t).search.generated = 1 ∧ (u.tenant t).search.nodes =
          [{ cx := ((s.start t).cell s.cellCm).1, cy := ((s.start t).cell s.cellCm).2, head := (s.start t).headBin
             speed := (s.start t).speedBin, mode := (s.start t).mode.toNat, g := 0, elapsed := 0, depth := 0, chain := [], gen := 0
             expanded := false }] ∧
        (bit (s.wave t 0x04) 31 = false → ∀ i, bit (lget 0 (u.tenant t).search.unblocked (i / 2048)) (i % 2048) = true →
          (u.tenant t).search.costAt i = 0) ∧
        ((s.tenant t).search.image = none ∨ bit (s.wave t 0x0C) 24 = false → (u.tenant t).search.ended = some 5) ∧
        ((s.tenant t).search.image ≠ none → bit (s.wave t 0x0C) 24 = true →
          (u.tenant t).search.ended = (s.tenant t).search.ended)) ∧
    ((s.tenant t).table.stalls 5248 (2 ^ 20) = true → exec (.expandNode t) s = .next (settle s)) ∧
    ((s.tenant t).search.front = .done → (s.tenant t).search.ended = none → s.phasePassed 3 = false →
      (s.tenant t).table.stalls 5248 (2 ^ 20) = false → s.usableOf t .front ≠ [] →
      ∃ u, exec (.expandNode t) s = .next u ∧
        ((s.tenant t).search.resume = none → s.nextNode t = none → (u.tenant t).search.ended = some 0 ∧
          (u.tenant t).search.expanded = (s.tenant t).search.expanded) ∧
        ((s.tenant t).search.resume = none → ∀ x, s.nextNode t = some x →
          (u.tenant t).search.expanded = (s.tenant t).search.expanded + 1) ∧
        (∀ x, (s.tenant t).search.resume = some x → (u.tenant t).search.expanded = (s.tenant t).search.expanded)) ∧
    ((s.tenant t).table.stalls 1152 5248 = true → exec (.proposalConvert t) s = .next (settle s)) ∧
    (∀ p row rest, (s.tenant t).search.fox = (p, row) :: rest → s.frame.passed < 8 →
      (s.tenant t).table.stalls 1152 5248 = false →
      ∃ u, exec (.proposalConvert t) s = .next u ∧ (u.tenant t).search.fox = rest ∧
        (4096 ≤ p → (u.tenant t).search.foxOver = min 65535 ((s.tenant t).search.foxOver + 1) ∧
          (u.tenant t).table = (s.tenant t).table) ∧
        (p < 4096 → s.convertRow t p row = none → (u.tenant t).table = (s.tenant t).table ∧
          (u.tenant t).search.foxDiscarded = min 65535 ((s.tenant t).search.foxDiscarded + 1)) ∧
        (∀ c, p < 4096 → s.convertRow t p row = some c →
          (u.tenant t).search.converted = (s.tenant t).search.converted + 1 ∧
          (u.tenant t).search.foxClipped = (s.tenant t).search.foxClipped + b2n c.clipped ∧
          (u.tenant t).table.cand c.id = some c))

/-- A free engine that serves takes the next check its queue allows: an allowed stop, in ascending tenant order and the Hedgehog first, else
the oldest entry that may be checked; with none it stays free (05 R212, R213). The check in progress ends with its verdict written into the
record and counted: CLEAR sets the candidate's bit (05 R205, R216, R220). A check an SRAM error has spoiled ends UNSURE (19 R724; log 33), a
poisoned record gets no verdict and is a program fault (19 R729), and a check whose tenant or record is gone ends without one. -/
def Obligations.ChecksStartAndEndWithAVerdict : Prop :=
  ∀ (s : State) (e : Fin 16), s.held = false → s.halted = false →
    (s.frame.opening = false → s.frame.inFrame = true → (s.engines.at' e).view.serves = true →
      (s.engines.at' e).current = none →
      (s.nextCheck (s.engines.at' e).queue = none → (∀ y ∈ (s.engines.at' e).queue, s.checkable y = false) ∧
        exec (.checkStart e) s = .next (settle s)) ∧
      ∀ x, s.nextCheck (s.engines.at' e).queue = some x →
        x ∈ (s.engines.at' e).queue ∧ s.checkable x = true ∧
        (∀ y ∈ (s.engines.at' e).queue, s.checkable y = true → y.id < 2 → x.id < 2 ∧ y.stopBefore x = false) ∧
        (2 ≤ x.id → ∃ l r, (s.engines.at' e).queue = l ++ x :: r ∧ ∀ y ∈ l, s.checkable y = false) ∧
        ∃ u, exec (.checkStart e) s = .next u ∧ (u.engines.at' e).current = some x ∧
          ∀ t, (u.tenant t).table.cands = (s.tenant t).table.cands ∧ (u.tenant t).table.clear = (s.tenant t).table.clear) ∧
    (∀ x, (s.engines.at' e).current = some x →
      ∃ u, exec (.checkVerdict e) s = .next u ∧ (u.engines.at' e).current = none ∧
        ((s.tenant x.tenant).world.view = none ∨ (s.tenant x.tenant).table.cand x.id = none →
          (u.tenant x.tenant).table = (s.tenant x.tenant).table) ∧
        ∀ v c, (s.tenant x.tenant).world.view = some v → (s.tenant x.tenant).table.cand x.id = some c →
        (s.candPoisoned x.tenant x.id = true → (u.tenant x.tenant).table = (s.tenant x.tenant).table ∧
          (u.tenant x.tenant).out.aborted = true ∧ (u.tenant x.tenant).faults = min 255 ((s.tenant x.tenant).faults + 1)) ∧
        (s.candPoisoned x.tenant x.id = false →
          (u.tenant x.tenant).table.checked = (s.tenant x.tenant).table.checked + 1 ∧
          ((s.engines.at' e).spoiled = true →
            (u.tenant x.tenant).table.clear = (s.tenant x.tenant).table.clear ∧ ∃ hit,
            (u.tenant x.tenant).table.cand x.id =
              some { c with verdict := 3, firstHit := hit, hitAgent := 0xFFFFFFFF }) ∧
          ((s.engines.at' e).spoiled = false → ∀ r, r = s.checkResult x.tenant v c →
            (u.tenant x.tenant).table.cand x.id =
              some { c with verdict := r.verdict, firstHit := r.firstHit, hitAgent := r.hitAgent } ∧
            (r.verdict = 1 → x.id ∈ (u.tenant x.tenant).table.clear) ∧
            (r.verdict ≠ 1 → (u.tenant x.tenant).table.clear = (s.tenant x.tenant).table.clear))))

/-! ### Register pages (12) -/

/-- A 32-bit read answers what the register reads as now, and a read of a low register leaves the registers it copies in the port's
holding copies, all of one instant (12 R459; 18 R705). A page the port cannot read reads 0 (11 R414). -/
def Obligations.ReadsAnswerOneInstant : Prop :=
  ∀ (s : State) (p : Port), s.portUp p = true →
    (∀ page off : BitVec 12, off.toNat % 4 = 0 → s.mayRead p page.toNat = true →
      ∃ t, exec (.lowWordRead p page off) s = .next t ∧
        Answers s t p page.toNat off.toNat (s.regValue p page.toNat off.toNat) ∧
        ∀ o ∈ heldBy page.toNat off.toNat,
          mfind (t.cfg p).holds (regKey page.toNat o) = some (BitVec.ofNat 32 (s.regValue p page.toNat o))) ∧
    (∀ page off : BitVec 12, off.toNat % 4 ≠ 0 ∨ s.mayRead p page.toNat = false →
      ∃ t, exec (.lowWordRead p page off) s = .next t ∧ (t.cfg p).readData = 0) ∧
    (s.mayRead p 0x10 = true →
      ∃ t, exec (.nowDateRead p) s = .next t ∧
        Answers s t p 0x10 0x10C (s.cal.year + s.cal.month * 2 ^ 16 + s.cal.day * 2 ^ 24) ∧
        mfind (t.cfg p).holds (regKey 0x10 0x110) =
          some (BitVec.ofNat 32 (s.cal.second + s.cal.minute * 2 ^ 8 + s.cal.hour * 2 ^ 16)) ∧
        mfind (t.cfg p).holds (regKey 0x10 0x114) = some (BitVec.ofNat 32 s.cal.seconds.toNat) ∧
        mfind (t.cfg p).holds (regKey 0x10 0x118) = some (BitVec.ofNat 32 (s.cal.seconds.toNat / 2 ^ 32)) ∧ t.cal = s.cal)

/-- A read of a register of access type RC answers its count and leaves it 0 (00 R8), one statement for every such register: ERR_COUNT
(19 R733), C_FAULT, C_STORE_PEAK, BAR2_DROPS, TRACE_DROPS, DIV_COUNT, CASCADE_DROPS, FOREIGN, L_ERR, RESET_CAUSE, MUX_STUCK and D_ECC. A
peak since the last read starts again at what stands as it is read: E_QUEUE_PEAK at the queue's depth (05 R222), SLOTS_PEAK at the slots in
use and Q_PEAK at the ready list's depth (10 R400, R403). -/
def Obligations.ReadsClearTheirCounts : Prop :=
  ∀ (s : State) (p : Port), s.portUp p = true → keysRise s.attn.errCount →
    (∀ page : BitVec 12, s.mayRead p page.toNat = true → ∃ t, exec (.errCountRead p page) s = .next t ∧
      Answers s t p page.toNat 0x020 (mget 0 s.attn.errCount page.toNat) ∧ mget 0 t.attn.errCount page.toNat = 0) ∧
    (∀ c : Fin 48, s.mayRead p (corePage c) = true →
      (∃ t, exec (.cFaultRead p c) s = .next t ∧ Answers s t p (corePage c) 0x104 (s.live (corePage c) 0x104) ∧
        t.live (corePage c) 0x104 = 0) ∧
      (∃ t, exec (.cStorePeakRead p c) s = .next t ∧ Answers s t p (corePage c) 0x118 (s.live (corePage c) 0x118) ∧
        t.live (corePage c) 0x118 = 0)) ∧
    (∀ e : Fin 16, s.mayRead p (enginePage e) = true → ∃ t, exec (.eQueuePeakRead p e) s = .next t ∧
      Answers s t p (enginePage e) 0x108 (s.live (enginePage e) 0x108) ∧
      t.live (enginePage e) 0x108 = (s.engines.at' e).queue.length % 2 ^ 32) ∧
    (s.mayRead p 0x04 = true →
      (∃ t, exec (.slotsPeakRead p) s = .next t ∧ Answers s t p 0x04 0x104 s.slotsPeak ∧
        t.slotsPeak = s.slotsUsed) ∧
      (∀ c : Fin 48, c < s.chip.nCores → ∃ t, exec (.qPeakRead p c) s = .next t ∧
        Answers s t p 0x04 (0x804 + 0x20 * c) (s.live 0x04 (0x804 + 0x20 * c)) ∧
        t.live 0x04 (0x804 + 0x20 * c) = (s.core c.val).ready.length % 2 ^ 32)) ∧
    (s.mayRead p 0x00 = true → ∃ t, exec (.bar2DropsRead p) s = .next t ∧
      Answers s t p 0x00 0x10C (s.live 0x00 0x10C) ∧ t.live 0x00 0x10C = 0) ∧
    (s.mayRead p 0x11 = true → ∃ t, exec (.traceDropsRead p) s = .next t ∧
      Answers s t p 0x11 0x118 (s.live 0x11 0x118) ∧ t.live 0x11 0x118 = 0) ∧
    (s.mayRead p 0x0B = true → ∃ t, exec (.divCountRead p) s = .next t ∧
      Answers s t p 0x0B 0x108 s.lynx.divCount ∧ t.lynx = { s.lynx with divCount := 0 }) ∧
    (s.mayRead p 0x0D = true →
      (∃ t, exec (.cascadeDropsRead p) s = .next t ∧
        Answers s t p 0x0D 0x184 (s.cascade.routeDrops + s.cascade.stale * 2 ^ 16) ∧
        t.cascade = { s.cascade with routeDrops := 0, stale := 0 }) ∧
      (∃ t, exec (.foreignRead p) s = .next t ∧ Answers s t p 0x0D 0x188 s.cascade.foreign ∧
        t.cascade = { s.cascade with foreign := 0 })) ∧
    (∀ l : Fin 8, s.mayRead p (linkPage l) = true → ∃ t, exec (.lErrRead p l) s = .next t ∧
      Answers s t p (linkPage l) 0x110 ((s.links.at' l).replays + (s.links.at' l).retrains * 2 ^ 16) ∧
      t.links.at' l = { s.links.at' l with replays := 0, retrains := 0 }) ∧
    (s.mayRead p 0x02 = true → ∃ t, exec (.resetCauseRead p) s = .next t ∧
      Answers s t p 0x02 0x104 s.power.cause.toNat ∧ t.power = { s.power with cause := 0 }) ∧
    (s.mayRead p 0x01 = true → ∃ t, exec (.muxStuckRead p) s = .next t ∧
      Answers s t p 0x01 0x114 (s.clock.stuck.toNat + s.clock.stuckCount * 2 ^ 16) ∧
      t.clock = { s.clock with stuck := 0, stuckCount := 0 }) ∧
    (∀ d : Fin 4, s.mayRead p (sitePage d) = true → ∃ t, exec (.dEccRead p d) s = .next t ∧
      Answers s t p (sitePage d) 0x104 (s.live (sitePage d) 0x104) ∧ t.live (sitePage d) 0x104 = 0)

/-- Writes of the header by a writer that reaches the page: ATTN_LATCH clears the bits written 1 whose raw bit is 0, WMARK_CROSSED those
written 1, and nothing else of either (12 R460, R475, R483); ATTN_MASK takes, in the bits its page names, the value from whoever may write
the page's header, and from another counts where they differ (00 R10; 12 R458, R461; 13 R492, R493). The state then settles. -/
def Obligations.HeaderWritesClearAndMask : Prop :=
  ∀ (s : State) (w : Writer) (page : BitVec 12) (v : Word), s.Canonical → s.reaches w page.toNat = true →
    (∀ p, w = .port p →
      (∃ t, exec (.attnLatchClear p page v) s = .next (settle t) ∧
        t = { s with attn := { s.attn with latch := t.attn.latch } } ∧
        mget 0 t.attn.latch page.toNat = mget 0 s.attn.latch page.toNat &&& ~~~ (v &&& ~~~ s.attnRaw page.toNat) ∧
        ∀ g, g ≠ page.toNat → mget 0 t.attn.latch g = mget 0 s.attn.latch g) ∧
      (∃ t, exec (.wmarkCrossedClear p page v) s = .next (settle t) ∧
        t = { s with attn := { s.attn with crossed := t.attn.crossed } } ∧
        mget 0 t.attn.crossed page.toNat = mget 0 s.attn.crossed page.toNat &&& ~~~ v ∧
        ∀ g, g ≠ page.toNat → mget 0 t.attn.crossed g = mget 0 s.attn.crossed g)) ∧
    ∃ t, exec (.attnMaskWrite w page v) s = .next t ∧
      (s.mayWriteHeader w page.toNat = true → mget 0 t.attn.mask page.toNat = v &&& attnBits page.toNat ∧
        ∀ g, g ≠ page.toNat → mget 0 t.attn.mask g = mget 0 s.attn.mask g) ∧
      (s.mayWriteHeader w page.toNat = false → t.attn.mask = s.attn.mask ∧
        mget 0 t.attn.errCount page.toNat = if mget 0 s.attn.mask page.toNat = v &&& attnBits page.toNat then mget 0 s.attn.errCount page.toNat
          else min 65535 (mget 0 s.attn.errCount page.toNat + 1))

/-- A write of a block register by who may write it whole. A-class: a value outside its ranges changes no register and records
CONFIG_INVALID, and a register without an action of its own takes the value in its RW fields and no other. F-class, and Q-class under
STAGE_Q: the shadow takes the value, the register is dirty and no live value moves. Q-class directly: BUSY_QUIESCE_REQUIRED outside
quiescence, CONFIG_INVALID out of range, with nothing changed (12 R462 to R465). -/
def Obligations.WritesFollowTheirClass : Prop :=
  ∀ (s : State) (p : Port) (page off : BitVec 12) (v : Word) (r : Reg) (i : Nat), s.portUp p = true →
    s.mayRead p page.toNat = true → off.toNat % 4 = 0 → 0x100 ≤ off.toNat → keysRise s.regs → keysRise s.shadow →
    regFind page.toNat off.toNat = some (r, i) → s.mayBits (.port p) page.toNat r i = 0xFFFFFFFF →
    ∀ new, new = mergeRw r 0xFFFFFFFF (s.current (.port p) page.toNat off.toNat r) v.toNat →
    ∃ t, exec (.registerWrite (.port p) page off v) s = .next t ∧
      (r.cls = .a → rangeOk s.chip r (new &&& r.rw) = false → t.regs = s.regs ∧
        mget 0 t.attn.lastResult page.toNat = codeInvalid ∧ bits (t.cfg p).result.toNat 7 0 = codeInvalid.toNat) ∧
      (r.cls = .a → rangeOk s.chip r (new &&& r.rw) = true → r.rw ≠ 0 →
        s.writeAction (.port p) page.toNat off.toNat ((new &&& r.rw) ||| (v.toNat &&& (r.wo ||| r.w1c) &&& 0xFFFFFFFF)) = none →
        t.live (filePage p page.toNat r) off.toNat = new % 2 ^ 32 ∧
        ∀ g o, regKey g o ≠ regKey (filePage p page.toNat r) off.toNat → t.live g o = s.live g o) ∧
      (r.cls = .f ∨ r.cls = .q ∧ r.rw ≠ 0 ∧ (mget 0 s.attn.pageCtrl page.toNat).getLsbD 2 = true →
        t.regs = s.regs ∧ t.shadowOf page.toNat off.toNat =
          mergeRw r 0xFFFFFFFF (s.shadowOf page.toNat off.toNat) v.toNat % 2 ^ 32 ∧
        regKey page.toNat off.toNat ∈ t.dirty) ∧
      (r.cls = .q → r.rw ≠ 0 → (mget 0 s.attn.pageCtrl page.toNat).getLsbD 2 = false →
        (s.regQuiet page.toNat off.toNat = false → t.regs = s.regs ∧ t.shadow = s.shadow ∧
          mget 0 t.attn.lastResult page.toNat = codeBusy ∧ bits (t.cfg p).result.toNat 7 0 = codeBusy.toNat) ∧
        (s.regQuiet page.toNat off.toNat = true →
          rangeOk s.chip r (mergeRw r 0xFFFFFFFF (s.live page.toNat off.toNat) v.toNat) = false →
          t.regs = s.regs ∧ t.shadow = s.shadow ∧ mget 0 t.attn.lastResult page.toNat = codeInvalid))

/-- A write by a port that may write no field of a register changes no register, and ERR_COUNT of its page counts where the write would
have changed one (13 R492). That a write which would change nothing is not counted is DEDUCED, log 76. A write of TRACE.TAIL outside
HEAD - 2^RING_LOG2 to HEAD is ignored, and any other moves the tail and no other register (10 R404). -/
def Obligations.WritesOfOthersAreCounted : Prop :=
  (∀ (s : State) (p : Port) (page off : BitVec 12) (v : Word) (r : Reg) (i : Nat), s.portUp p = true →
    s.mayRead p page.toNat = true → off.toNat % 4 = 0 → 0x100 ≤ off.toNat → keysRise s.attn.errCount →
    regFind page.toNat off.toNat = some (r, i) → s.mayBits (.port p) page.toNat r i = 0 →
    ∃ t, exec (.registerWrite (.port p) page off v) s = .next t ∧ t.regs = s.regs ∧ t.shadow = s.shadow ∧ t.dirty = s.dirty ∧
      mget 0 t.attn.errCount page.toNat =
        if wouldChange r 0xFFFFFFFF (s.current (.port p) page.toNat off.toNat r) v.toNat
        then min 65535 (mget 0 s.attn.errCount page.toNat + 1) else mget 0 s.attn.errCount page.toNat) ∧
  ∀ (s : State) (w : Writer) (v : Word), s.reaches w 0x11 = true → s.isCtl w = true → keysRise s.regs →
    ∃ t, exec (.tailWrite w v) s = .next t ∧
      (2 ^ bits (s.live 0x11 0x10C) 4 0 < (s.live 0x11 0x110 + 2 ^ 32 - v.toNat) % 2 ^ 32 → t.regs = s.regs) ∧
      ((s.live 0x11 0x110 + 2 ^ 32 - v.toNat) % 2 ^ 32 ≤ 2 ^ bits (s.live 0x11 0x10C) 4 0 →
        t.live 0x11 0x114 = v.toNat ∧ ∀ g o, regKey g o ≠ regKey 0x11 0x114 → t.live g o = s.live g o)

/-! ### Commit sets (12 R466 to R474) -/

/-- A COMMIT of a page in no open set submits it alone (12 R466, R468 to R470): its sequence is the port's next, a port with four sets
waiting refuses it with CONFIG_INVALID, one with an F-class change waits with what it captured, and any other is judged at once. A page
already in an open set refuses it and that set stays open (12 R466, R469). -/
def Obligations.SingleCommitsSubmitAtOnce : Prop :=
  ∀ (s : State) (p : Port) (page : BitVec 12), s.portUp p = true → s.mayRead p page.toNat = true → s.dirty.Pairwise (· < ·) →
    keysRise s.regs →
    ∃ t, exec (.commitSingle p page) s = .next t ∧
      (s.openSetOf page.toNat ≠ none ∨ 4 ≤ (s.cfg p).submitted.length → t.regs = s.regs ∧ t.dirty = s.dirty ∧
        (t.cfg p).openSets = (s.cfg p).openSets ∧ (t.cfg p).submitted = (s.cfg p).submitted ∧
        (t.cfg p).result = BitVec.ofNat 32 (codeInvalid.toNat + ((s.cfg p).seq + 1).toNat * 2 ^ 16)) ∧
      (s.openSetOf page.toNat = none → (s.cfg p).submitted.length < 4 →
        ((∃ x ∈ captured s [page.toNat], keyClass x.1 = .f) → t.regs = s.regs ∧
          t.dirty = s.dirty.filter (fun k => k / 4096 ≠ page.toNat) ∧
          (t.cfg p).result = (s.cfg p).result ∧
          (t.cfg p).submitted = (s.cfg p).submitted ++ [⟨0, (s.cfg p).seq + 1, [page.toNat], captured s [page.toNat],
            s.now, s.setOrder⟩]) ∧
        ((∀ x ∈ captured s [page.toNat], keyClass x.1 ≠ .f) →
          Judged s t p [page.toNat] 0 ((s.cfg p).seq + 1).toNat (captured s [page.toNat])))

/-- A COMMIT with a set number joins a page to that set, which stays open; eight pages are its most, and a ninth ends the set refused
(12 R466). One with SUBMIT ends the open set and submits its pages together (12 R468); a page open in another set refuses both. -/
def Obligations.SetsJoinAndSubmitTogether : Prop :=
  ∀ (s : State) (p : Port) (page : BitVec 12) (id : BitVec 4), s.portUp p = true → s.mayRead p page.toNat = true → id ≠ 0 →
    s.dirty.Pairwise (· < ·) → keysRise s.regs → keysRise (s.cfg p).openSets →
    (s.openSetOf page.toNat = none → ((s.cfg p).openPages id.toNat).length < 8 →
      ∃ t, exec (.commitJoin p page id) s = .next t ∧
        (t.cfg p).openPages id.toNat = sinsert ((s.cfg p).openPages id.toNat) page.toNat ∧
        (∀ k, k ≠ id.toNat → (t.cfg p).openPages k = (s.cfg p).openPages k) ∧
        t.regs = s.regs ∧ t.dirty = s.dirty ∧ (t.cfg p).submitted = (s.cfg p).submitted) ∧
    (s.openSetOf page.toNat = none → 8 ≤ ((s.cfg p).openPages id.toNat).length →
      ∃ t, exec (.commitJoin p page id) s = .next t ∧ (t.cfg p).openPages id.toNat = [] ∧ t.regs = s.regs ∧ t.dirty = s.dirty ∧
        bits (t.cfg p).result.toNat 7 0 = codeInvalid.toNat) ∧
    (∀ pages, s.openSetOf page.toNat = some (p, id.toNat) ∧ pages = (s.cfg p).openPages id.toNat ∨
        s.openSetOf page.toNat = none ∧ ((s.cfg p).openPages id.toNat).length < 8 ∧
          pages = sinsert ((s.cfg p).openPages id.toNat) page.toNat →
      (s.cfg p).submitted.length < 4 →
      ∃ t, exec (.commitSubmit p page id) s = .next t ∧ (t.cfg p).openPages id.toNat = [] ∧
        ((∃ x ∈ captured s pages, keyClass x.1 = .f) → t.regs = s.regs ∧
          t.dirty = s.dirty.filter (fun k => ! pages.contains (k / 4096)) ∧
          (t.cfg p).submitted = (s.cfg p).submitted ++ [⟨id, (s.cfg p).seq + 1, pages, captured s pages, s.now,
            s.setOrder⟩]) ∧
        ((∀ x ∈ captured s pages, keyClass x.1 ≠ .f) → Judged s t p pages id.toNat ((s.cfg p).seq + 1).toNat (captured s pages))) ∧
    (∀ q k, s.openSetOf page.toNat = some (q, k) → (q, k) ≠ (p, id.toNat) →
      ∀ i ∈ [Instr.commitJoin p page id, .commitSubmit p page id], ∃ t, exec i s = .next t ∧ (t.cfg p).openPages id.toNat = [] ∧
        t.regs = s.regs ∧ t.dirty = s.dirty ∧ (t.cfg p).submitted = (s.cfg p).submitted ∧ bits (t.cfg p).result.toNat 7 0 = codeInvalid.toNat)

/-- While no frame runs the oldest set a port has waiting is judged and leaves the queue (12 R470, R471). DISCARD returns the shadows of the
page that the port may write to their live values, clears their dirt and takes the page out of the port's open sets; no live value
moves (12 R467; 13 R493). -/
def Obligations.WaitingSetsApplyAndPagesDiscard : Prop :=
  ∀ (s : State) (p : Port), keysRise s.regs → keysRise s.shadow →
    (s.held = false → s.stopped = true → ∀ c r, (s.cfg p).submitted = c :: r → (∀ d ∈ r, d.order ≠ c.order) →
      (c.changes.map (·.1)).Nodup →
      ∃ t, exec (.setApply p) s = .next t ∧ (t.cfg p).submitted = r ∧ Judged s t p c.pages c.id.toNat c.seq.toNat c.changes) ∧
    (∀ page : BitVec 12, s.portUp p = true → s.mayRead p page.toNat = true →
      ∃ t, exec (.discard p page) s = .next t ∧ t.regs = s.regs ∧
        (∀ x ∈ (t.cfg p).openSets, page.toNat ∉ x.2) ∧
        ∀ off r i, off < 4096 → regFind page.toNat off = some (r, i) → r.cls ≠ .a → s.mayWrite (.port p) page.toNat r i = true →
          t.shadowOf page.toNat off = s.live page.toNat off ∧ regKey page.toNat off ∉ t.dirty)

/-- A RELEASE with 16 frame completions in the backlog is ignored and raises RELEASE_REFUSED; RESET and HOLD of a HELD or NONE tenant, RESET
of a RESETTING one and RELEASE of one that is not HELD have no effect; and one write with several of the bits acts as those writes in the
order RESET, HOLD, RELEASE, each judged against the state the one before it left (13 R497). -/
def Obligations.TenantControlsActInTheirOrder : Prop :=
  ∀ (s : State) (p : Port) (t : Fin 16), s.ownsTenant p t = true →
    ((s.tenant t).state = .held → 16 ≤ (s.tenant t).backlog.length →
      ∃ a, exec (.tCtrlRelease p t) s = .next (settle a) ∧ a = { s with attn := a.attn } ∧
        (mget 0 a.attn.latch (tenantPage t)).getLsbD 6 = true) ∧
    ((s.tenant t).state = .held ∨ (s.tenant t).state = .none →
      exec (.tCtrlReset p t) s = .next (settle s) ∧ exec (.tCtrlHold p t) s = .next (settle s)) ∧
    ((s.tenant t).state = .resetting → exec (.tCtrlReset p t) s = .next (settle s)) ∧
    ((s.tenant t).state ≠ .held → exec (.tCtrlRelease p t) s = .next (settle s)) ∧
    ∀ v : Word,
      ∀ a, a = (if v.getLsbD 0 then s.requestReset t 1 else s) →
      ∀ b, b = (if v.getLsbD 1 then a.requestHold t 1 else a) →
      exec (.registerWrite (.port p) (BitVec.ofNat 12 (tenantPage t)) 0x100 v) s =
        .next (settle (if v.getLsbD 2 then b.requestRelease t else b))

/-! ### Tenants and units (13 R496 to R520; 17 R647, R648) -/

/-- RESET and HOLD by the port that owns an active tenant record cause 1 (13 R497). With no frame in progress the tenant is cleared at once:
world, search, table, solver, selections and commands go, programs stand, and RESETS counts; HOLD leaves it HELD (13 R496, R504). In a frame
before D_7 RESET cuts the frame with TENANT_RESET and the tenant is RESETTING until the tick, its records still to be applied discarded and
no check of it queued but those of the stops (03 R140; 05 R226), and HOLD waits for the tick (13 R497, R505). That the commands complete at
that moment is DESIGN CHOICE, log 52. -/
def Obligations.ResetAndHoldClearTheirTenant : Prop :=
  ∀ (s : State) (p : Port) (t : Fin 16), s.ownsTenant p t = true → (s.tenant t).state = .active →
    (∀ i ∈ [Instr.tCtrlReset p t, .tCtrlHold p t], s.stopped = true → ∃ u, exec i s = .next u ∧
      (u.tenant t).state = (if i = .tCtrlReset p t then .active else .held) ∧ (u.tenant t).cause = 1 ∧
      (u.tenant t).resets = min 255 ((s.tenant t).resets + 1) ∧ (u.tenant t).world = World.reset ∧
      (u.tenant t).search = Search.reset ∧ (u.tenant t).table = Table.reset ∧ (u.tenant t).solver = Solver.reset ∧
      (u.tenant t).sel = Selection.reset ∧ (u.tenant t).cmds = [] ∧ (u.tenant t).spoor.prev = 0 ∧
      (u.tenant t).sched.slotA = (s.tenant t).sched.slotA ∧ (u.tenant t).sched.slotB = (s.tenant t).sched.slotB ∧
      (u.tenant t).sched.tasks = []) ∧
    (s.stopped = false → s.pastD7 = false →
      (∃ u, exec (.tCtrlReset p t) s = .next u ∧ (u.tenant t).state = .resetting ∧ (u.tenant t).cause = 1 ∧
        (u.tenant t).sched.tasks = [] ∧ (u.tenant t).sched.running = false ∧ (u.tenant t).sched.abortCode = codeTenantReset ∧
        (u.tenant t).sel.finalResult = none ∧ (u.tenant t).world.jobs = [] ∧ (∀ x ∈ (u.tenant t).table.clear, x < 2) ∧
        ∀ e : Fin 16, ∀ x ∈ (u.engines.at' e).queue, x.tenant = t → x.id < 2) ∧
      (∃ u, exec (.tCtrlHold p t) s = .next u ∧ (u.tenant t).state = .active ∧ (u.tenant t).holdPending = true ∧
        (u.tenant t).cause = 1 ∧ (u.tenant t).world = (s.tenant t).world ∧ (u.tenant t).cmds = (s.tenant t).cmds))

/-- RELEASE of a HELD tenant: it is ACTIVE at once while no frame runs and from the next tick otherwise; with 16 completions in its backlog
it stays HELD and its page raises the event (13 R496, R497). A port that does not own the tenant changes nothing and is counted
(13 R492). -/
def Obligations.ReleaseNeedsTheOwnerAndRoom : Prop :=
  ∀ (s : State) (p : Port) (t : Fin 16),
    (s.ownsTenant p t = true → (s.tenant t).state = .held →
      ∃ u, exec (.tCtrlRelease p t) s = .next u ∧
        (16 ≤ (s.tenant t).backlog.length → (u.tenant t).state = .held ∧ (u.tenant t).releasePending = (s.tenant t).releasePending) ∧
        ((s.tenant t).backlog.length < 16 → s.stopped = true → (u.tenant t).state = .active) ∧
        ((s.tenant t).backlog.length < 16 → s.stopped = false → (u.tenant t).state = .held ∧
          (u.tenant t).releasePending = true)) ∧
    (s.portUp p = true → s.mayRead p (tenantPage t) = true → s.ownerOf t ≠ p → keysRise s.attn.errCount →
      ∀ i ∈ [Instr.tCtrlReset p t, .tCtrlHold p t, .tCtrlRelease p t], ∃ a, exec i s = .next (settle a) ∧
        a = { s with attn := { s.attn with errCount := a.attn.errCount } } ∧
        mget 0 a.attn.errCount (tenantPage t) = min 65535 (mget 0 s.attn.errCount (tenantPage t) + 1))

/-- A unit that does not acknowledge its dispatch is DOWN for Beaver, and no other unit's views move (13 R514, R515). UNIT_RST by the control
port takes an idle unit of the grade out of use with its queues and work cleared, and is busy until it ends; a reset while one runs, an
unassigned kind or an index outside the grade is CONFIG_INVALID with no unit touched (17 R647, R648, R661). Its end lets the unit join at
the next tick and raises the event (17 R648). That queues clear at the write and the store at the end is DESIGN CHOICE, log 54. -/
def Obligations.UnitsLeaveAndReturn : Prop :=
  ∀ (s : State), s.held = false →
    (∀ (k : UnitKind) (n : Nat) (v : View), s.view k n = some v → ∃ u, exec (.dispatchAckTimeout k n) s = .next u ∧
      u.view k n = some { v with beaverUp := false, joined := v.joined && ! v.usable } ∧
      ∀ j m, (j, m) ≠ (k, n) → u.view j m = s.view j m) ∧
    (∀ (w : Writer) (kind : BitVec 3) (index : BitVec 6), s.isCtl w = true →
      (∀ k v, s.power.unitBusy = none → kindOf kind.toNat = some k → s.view k index.toNat = some v →
        ∃ u, exec (.unitRst w kind index) s = .next u ∧ u.power.unitBusy = some (k, index.toNat) ∧
          u.view k index.toNat = some { v with beaverUp := false, rejoin := false, joined := v.joined && ! v.usable } ∧
          (∀ j m, (j, m) ≠ (k, index.toNat) → u.view j m = s.view j m) ∧
          (k = .core → (u.core index.toNat).ready = [] ∧ (u.core index.toNat).run = none) ∧
          (k = .badger → (bget Engine.reset u.engines index.toNat).queue = [] ∧
            (bget Engine.reset u.engines index.toNat).current = none) ∧
          (k = .bear → (u.bear index.toNat).solve = none) ∧
          (k = .jay → (u.jay index.toNat).queue = [] ∧ (u.jay index.toNat).run = none)) ∧
      (s.power.unitBusy ≠ none ∨ (∀ k, kindOf kind.toNat = some k → s.view k index.toNat = none) →
        ∃ u, exec (.unitRst w kind index) s = .next u ∧ u.power = s.power ∧ (∀ j m, u.view j m = s.view j m) ∧
          mget 0 u.attn.lastResult 0x02 = codeInvalid)) ∧
    ∀ (k : UnitKind) (n : Nat) (v : View), s.power.unitBusy = some (k, n) → s.power.unitQueue = [] → s.view k n = some v →
      ∃ a, exec .unitRstDone s = .next (settle a) ∧ a.power = { s.power with unitBusy := none, unitResult := codeOk } ∧
        a.view k n = some { v with rejoin := true } ∧ (∀ j m, (j, m) ≠ (k, n) → a.view j m = s.view j m) ∧
        (mget 0 a.attn.latch 0x02).getLsbD 2 = true

/-! ### Power, reset and bring-up (17) -/

/-- PKG_RST by the control port, a fall of PWR_GOOD and SYS_RST_N low for 10 µs or more clear the device and leave their own cause alone
in RESET_CAUSE (17 R638, R639, R641, R643, R661); PKG_RST ends at once and the boot starts, and the two pins hold it (17 R650). While the
device is held already a cause only adds its bit. That a pulse under 10 µs is ignored is DESIGN CHOICE. -/
def Obligations.PackageResetsClearTheDevice : Prop :=
  ∀ (s : State),
    (∀ w, s.isCtl w = true → ∃ u, exec (.pkgRst w) s = .next u ∧ PackageCleared s u ∧ u.power.cause = 8 ∧
      u.power.bootStarted = true ∧ u.power.stage = 0) ∧
    (s.power.pwrGood = true → ∃ u, exec .pwrGoodFall s = .next u ∧ u.power.pwrGood = false ∧
      (s.held = false → PackageCleared s u ∧ u.power.cause = 4 ∧ u.power.bootStarted = false) ∧
      (s.held = true → u.power.cause = s.power.cause ||| 4 ∧ u.owl = s.owl ∧ u.regs = s.regs)) ∧
    (∀ us, s.power.sysRst = false →
      (10 ≤ us → ∃ u, exec (.sysRstNLow us) s = .next u ∧ u.power.sysRst = true ∧
        (s.held = false → PackageCleared s u ∧ u.power.cause = 2 ∧ u.power.bootStarted = false) ∧
        (s.held = true → u.power.cause = s.power.cause ||| 2 ∧ u.owl = s.owl ∧ u.regs = s.regs)) ∧
      (us < 10 → ∃ u, exec (.sysRstNLow us) s = .next u ∧ u = settle s))

/-- A pin that held the device in reset lets it go: once nothing holds it the straps are sampled and the boot starts at STAGE ROM, with
PWR_ON counted after a rise of PWR_GOOD (17 R649, R650, R670; 18 R687). COLD_RESET clears everything but flash and fuses, reads the
counters from the last checkpoint and counts itself (17 R641; 18 R687, R688). -/
def Obligations.BootStartsWhenNothingHolds : Prop :=
  ∀ (s : State), s.power.jtagHold = false → s.power.vaon = true →
    (s.power.pwrGood = false → ∃ u, exec .pwrGoodRise s = .next u ∧ u.power.pwrGood = true ∧
      (s.power.sysRst = false → u.power.bootStarted = true ∧ u.power.stage = 0 ∧ u.power.bootSel = s.power.bootSelBalls ∧
        u.cascade.strap = s.power.cascBall ∧
        u.owl.counters[11] = if s.owl.counters[11] = 0xFFFFFFFF then (0xFFFFFFFF : Word) else s.owl.counters[11] + 1) ∧
      (s.power.sysRst = true → u.power.bootStarted = s.power.bootStarted ∧ u.owl = s.owl)) ∧
    (s.power.sysRst = true → ∃ u, exec .sysRstNRise s = .next u ∧ u.power.sysRst = false ∧
      (s.power.pwrGood = true → u.power.bootStarted = true ∧ u.power.stage = 0 ∧ u.power.bootSel = s.power.bootSelBalls ∧
        u.cascade.strap = s.power.cascBall) ∧
      (s.power.pwrGood = false → u.power.bootStarted = s.power.bootStarted ∧ u.owl = s.owl)) ∧
    ∃ u, exec .coldReset s = .next u ∧ u.power.cause = 1 ∧ u.cal = Calendar.reset ∧ u.regs = [] ∧ u.dram = Dram.reset ∧
      u.frame.safePin = false ∧ u.owl.bankA = s.owl.bankA ∧ u.owl.bankB = s.owl.bankB ∧ u.owl.rollback = s.owl.rollback ∧
      u.owl.fences = s.owl.fences ∧ u.owl.pairing = s.owl.pairing ∧ u.owl.flashLog = s.owl.flashLog ∧
      u.owl.journal = s.owl.journal ∧
      (s.power.powerRose = false → ∀ i : Fin 20, i ≠ 11 →
        u.owl.counters[i.val] = ((s.owl.journal.getLast?).getD []).getD i 0) ∧
      (∀ x, x = ((s.owl.journal.getLast?).getD []).getD 20 0 → u.owl.counters[20] = if x = 0xFFFFFFFF then x else x + 1)

/-- The boot's stages end in their order (17 R650): the ROM's with the selected bank, or the other one and FALLBACK where it does not
authenticate, or RECOVERY where neither does (17 R649 to R651; 18 R690); the firmware's with the clock mode of the board's record;
CLOCKS once root, DRAM and link PLLs are stable; training; initialisation, which zeroes DRAM; and READY. A stage that cannot complete
stops in RECOVERY with INTERNAL_ERROR, and a refused image with UPDATE_REJECTED (17 R651). -/
def Obligations.BootStagesFollowTheirOrder : Prop :=
  ∀ (s : State), s.held = false → s.power.bootStarted = true →
    (s.power.stage = 0 → s.power.bootSel = 0 → (∀ j ∈ s.owl.junctions.toList, j.toInt ≤ 1600) →
      ∃ u, exec (.bootStageComplete .ok) s = .next u ∧
        (∀ b, s.owl.bankOk b = true → (b = s.owl.activeB ∨ s.owl.bankOk (! b) = false) →
          u.power.stage = 1 ∧ u.power.bank = b ∧
          u.power.fallback = (if b = s.owl.activeB then s.power.fallback else true) ∧
          u.owl.runningVersion = (if b then s.owl.bankB else s.owl.bankA).version) ∧
        (s.owl.bankOk false = false → s.owl.bankOk true = false → u.power.stage = 6 ∧ u.power.result = codeUpdate)) ∧
    (s.power.stage = 1 → keysRise s.regs → ∃ u, exec (.bootStageComplete .ok) s = .next u ∧ u.power.stage = 2 ∧
      u.owl.board = (s.owl.boardStored.getD BoardCfg.default) ∧ u.owl.boardDefault = s.owl.boardStored.isNone ∧
      bits (u.live 0x01 0x100) 1 0 = (s.owl.boardStored.getD BoardCfg.default).clockMode.toNat) ∧
    (s.power.stage = 2 → s.clocksUp = true → ∃ u, exec (.bootStageComplete .ok) s = .next u ∧ u.power.stage = 3 ∧
      u.power.trained = true) ∧
    (s.power.stage = 3 → ∃ u, exec (.bootStageComplete .ok) s = .next u ∧ u.power.stage = 4 ∧ u.power.initDone = true ∧
      u.dram = Dram.reset) ∧
    (s.power.stage = 4 → ∃ u, exec (.bootStageComplete .ok) s = .next u ∧ u.power.stage = 5) ∧
    (s.power.stage = 0 → ∃ u, exec (.bootStageComplete .authFailed) s = .next u ∧ u.power.stage = 6 ∧ u.power.result = codeUpdate) ∧
    (s.power.stage < 5 → ∃ u, exec (.bootStageComplete .failed) s = .next u ∧ u.power.stage = 6 ∧ u.power.result = codeInternal)

/-- A port is ready once the boot has reached READY or RECOVERY (17 R646). Its reset records the cause, closes its link and its open sets,
empties its holding copies and its own count of BAR2_DROPS, leaves the other port alone and, with no frame in progress, leaves its
tenants HELD and no other (17 R644, R661; 12 R474). OWL_WATCHDOG resets Owl's domain: cause bit 4, mailboxes empty and the device
working on (17 R641). -/
def Obligations.PortsAndOwlResetAlone : Prop :=
  ∀ (s : State), s.held = false →
    (∀ p, s.isReady = true ∨ s.inRecovery = true → ∃ u, exec (.portReady p) s = .next u ∧
      (u.cfg p).ready = true ∧ (u.cfg p).linkUp = true ∧ ∀ q, q ≠ p → u.cfg q = s.cfg q) ∧
    (∀ p c, ∃ u, exec (.portReset p c) s = .next u ∧
      u.power.cause = s.power.cause ||| BitVec.ofNat 32
        (match p, c with | .a, .flr => 1024 | .b, .flr => 2048 | .a, _ => 256 | .b, _ => 512) ∧
      (u.cfg p).ready = false ∧ (u.cfg p).openSets = [] ∧ (u.cfg p).holds = [] ∧ (u.cfg p).submitted = (s.cfg p).submitted ∧
      (∀ q, q ≠ p → u.cfg q = s.cfg q) ∧
      (s.stopped = true → ∀ t, (u.tenant t).state =
        if s.ownerOf t = p ∧ (s.tenant t).state = .active then .held else (s.tenant t).state)) ∧
    (∃ u, exec .owlWatchdog s = .next u ∧ u.power.cause = s.power.cause ||| 16 ∧
      (∀ ch, u.owl.boxes.at' ch = Mailbox.reset) ∧ u.owl.session = none ∧ u.owl.bankA = s.owl.bankA ∧
      u.owl.bankB = s.owl.bankB ∧ u.regs = s.regs ∧ u.frame = s.frame)

/-- TEMP_SAMPLE keeps the readings, the hottest and its sensor (17 R655). The throttle begins at THROTTLE_C where it is enabled and counts
once, and below it does not begin (17 R655 to R657); at 115 °C the device trips into a package fault with DRAM in self-refresh (17
R658). -/
def Obligations.SamplesThrottleAndTrip : Prop :=
  ∀ (s : State) (js : Bank (BitVec 16) 12), s.held = false →
    ∃ u, exec (.tempSample js) s = .next u ∧ u.owl.junctions = js ∧
      (∀ i : Fin 12, (js.at' i).toInt ≤ u.power.junction) ∧ u.power.sensor < 12 ∧
      (js.toList.map fun j => j.toInt)[u.power.sensor]? = some u.power.junction ∧
      (s.throttleC ≤ u.power.junction → s.throttleEn = true → u.power.throttle = true ∧
        u.power.throttleCount = if s.power.throttle then s.power.throttleCount else min 65535 (s.power.throttleCount + 1)) ∧
      (u.power.junction < s.throttleC → u.power.throttle = s.power.throttle ∧ u.power.throttleCount = s.power.throttleCount) ∧
      (1840 ≤ u.power.junction → u.fault.trip = true) ∧
      (u.power.junction < 1840 → u.fault = s.fault ∧ u.dram = s.dram) ∧
      (1840 ≤ u.power.junction → s.fault.trip = false → u.dram = { s.dram with selfRefresh := true })

/-- The throttle's further step comes 10 ms after the last while the junction stays at or above THROTTLE_C (17 R655, R665), it ends once
the junction has stayed 5 °C below for one second (17 R656), and restoring then takes one step a second until RESTORE_LEVEL (17 R656). In
the deterministic mode every site refreshes at the next multiple of INTERVAL_US after the tick (17 R659), before the latest time at which the
next tick can come (log 142), and leaves the memory as it is. -/
def Obligations.ThrottleAndRefreshKeepTheirTimes : Prop :=
  ∀ (s : State), s.held = false →
    (s.power.throttle = true → s.throttleC ≤ s.power.junction → s.throttleEn = true → s.clock.deferred = none →
      ∃ u, exec .throttleStep s = .next u ∧ u.now = max s.now (s.power.stepAt + 10000) ∧ u.power.stepAt = u.now ∧
        u.power.throttleLevel = (if s.clock.current.toNat < 3 then s.clock.current + 1 else s.clock.current) ∧
        u.power.throttle = true) ∧
    (∀ since, s.power.throttle = true → s.power.coolSince = some since →
      ∃ u, exec .throttleEnd s = .next u ∧ u.now = max s.now (since + 1000000) ∧ u.power.throttle = false ∧
        u.power.coolSince = none ∧ u.power.stepAt = u.now ∧
        u.power.restoring = decide (s.clock.current ≠ s.power.restoreLevel)) ∧
    (s.power.throttle = false → s.power.restoring = true →
      ∃ u, exec .throttleRestoreStep s = .next u ∧
        (s.clock.current = s.power.restoreLevel → u.power.restoring = false ∧ u.now = s.now) ∧
        (s.clock.current ≠ s.power.restoreLevel → u.now = max s.now (s.power.stepAt + 1000000) ∧ u.power.stepAt = u.now)) ∧
    (s.detRefresh = true → s.frame.inFrame = true →
      ∀ at', at' = (s.frame.refreshes + 1) * bits (s.live 0x0E 0x100) 5 4 →
      (at' < s.period + (if s.tickSrc = 0 then 0 else s.windowUs) →
        ∃ u, exec .dramRefresh s = .next u ∧ u.now = max s.now (s.frame.tickAt + at') ∧
          u.frame.refreshes = s.frame.refreshes + 1 ∧
          (s.nothingDue (max s.now (s.frame.tickAt + at')) →
            u.frame = { s.frame with refreshes := s.frame.refreshes + 1 } ∧ u.dram = s.dram)) ∧
      (s.period + (if s.tickSrc = 0 then 0 else s.windowUs) ≤ at' → exec .dramRefresh s = .next (settle s))) ∧
    (∃ u, exec .v3p3Loss s = .next u ∧ u.power.v3p3 = false ∧ u.frame = { s.frame with safeDriven := false }) ∧
    (∃ u, exec .v3p3Return s = .next u ∧ u.power.v3p3 = true ∧ u.frame = { s.frame with safeDriven := true })

/-! ### Clocks, the meter and the trim (16) -/

/-- A level requested by the control port is TARGET, and with the root PLL in lock starts a relock at once, or waits where D_6 is at most
400 µs away (16 R616, R620, R621); a domain's switch ends on the clock it was bound for (16 R612), with the cycles of the cores' LOAD and
the time on the holding clock counted up to a switch of the core domain (10 R400; 16 R619); the watchdog forces it and counts it (16 R613,
R614), and lock detect and PLL_STABLE carry the relock on, or start the root at the boot (16 R611, R616). A source becomes stable or fails
where it may (16 R610), the root PLL of a relock having no start timeout (DEDUCED, log 140); a write of SRC_EN that would stop a source in
use is refused (16 R611), and REF_LOST is a package fault that takes the domains off the root (16 R622). The control port starts the meter,
and its end latches the count, 0 of a stopped target (16 R623); it starts the trim, whose iteration takes its code within ten bits and ends
after eight iterations or with a code that stands (16 R625), and whose reference may time out (16 R626). That a running trim restarts is
DEDUCED, log 105. -/
def Obligations.ClocksSwitchMeterAndTrim : Prop :=
  (∀ s : State, s.held = false →
    (∀ w v, s.isCtl w = true → s.lynx.pinned = false → s.adaptive = false → s.power.throttle = false → s.clock.relock = none →
      s.clock.rootLocked = true → v ≠ s.clock.current →
      ∃ t, exec (.levelChangeRequest w v) s = .next t ∧ t.clock.target = v ∧ t.clock.current = s.clock.current ∧
        (s.frame.inFrame = true → s.deadlineAt 6 ≤ s.now + 400 → t.clock.deferred = some v ∧ t.clock.relock = none) ∧
        (s.frame.inFrame = false ∨ s.now + 400 < s.deadlineAt 6 → t.clock.relock = some ⟨v, .toHolding, s.now⟩ ∧
          ∀ d v', (d, v') ∈ t.clock.switches → v' = 2)) ∧
    (∀ d v, (s.clock.switches.find? fun x => x.1 = d) = some (d, v) → s.clock.relock = none →
      (∃ t, exec (.muxSwitch d) s = .next t ∧
        (d ≠ .core → t.clock = s.clock.endSwitch d v ∧ t.cores = s.cores) ∧
        (d = .core → t.clock = (s.clock.endSwitch d v).noteHold s.now v ∧ t.cores = s.cores.map s.accrueCore)) ∧
      ∀ toggled, ∃ t, exec (.muxWatchdog d toggled) s = .next t ∧
        t.clock.sel.at' (domainIx d) = (if toggled then v else 2) ∧ t.clock.stuckCount = min 65535 (s.clock.stuckCount + 1) ∧
        t.clock.stuck = s.clock.stuck ||| BitVec.ofNat 5 (2 ^ (domainIx d).val)) ∧
    (∀ r, s.clock.refLost = false → s.mayStart 4 = true → s.clock.relock = some r →
      (r.step = .locking → ∃ t, exec .pllLockDetect s = .next t ∧
        t.clock = { s.clock with relock := some { r with step := .locked }, lockSeen := true }) ∧
      (r.step = .locked → s.clock.lockSeen = true → ∃ t, exec (.pllStable .root) s = .next t ∧ t.clock.rootLocked = true ∧
        (t.clock.relock = some { r with step := .returning } ∨ t.clock.current = r.target))) ∧
    (s.clock.refLost = false → s.clock.relock = none → s.mayStart 4 = true → s.clock.lockSeen = true →
      ∃ t, exec (.pllStable .root) s = .next t ∧ t.clock.current = s.clock.target ∧ t.clock.rootLocked = true) ∧
    (∀ x, s.mayStart (sourceIx x) = true → ∃ t, exec (.sourceStable x) s = .next t ∧
      t.clock = { s.clock with stable := s.clock.stable ||| BitVec.ofNat 7 (2 ^ sourceIx x) }) ∧
    (∀ b : Fin 7, s.mayStart b = true → ∃ t, exec (.sourceStartTimeout b) s = .next t ∧
      (b.val ≠ 4 ∨ s.clock.relock = none → t.clock = { s.clock with fail := s.clock.fail ||| BitVec.ofNat 7 (2 ^ b.val) }) ∧
      (b.val = 4 → s.clock.relock ≠ none → t = settle s)) ∧
    (∀ w (v : Word), s.isCtl w = true → ∀ off, off = (List.range 7).filter (fun b => s.sourceOn b && ! bit v.toNat (enableBit b)) →
      ∃ t, exec (.srcEnWrite w v) s = .next t ∧
        (off.any s.sourceInUse = true → t.clock = s.clock ∧ t.live 0x01 0x108 = s.live 0x01 0x108) ∧
        (off.any s.sourceInUse = false → keysRise s.regs → t.live 0x01 0x108 = v.toNat % 128 ∧
          ∀ b ∈ off, t.clock.stable.getLsbD b = false ∧ t.clock.fail.getLsbD b = false)) ∧
    (s.clock.refLost = false → s.sourceOn 4 = true → ∃ t, exec .refLost s = .next t ∧ t.clock.refLost = true ∧
      t.fault.refLost = true ∧ t.clock.stable = s.clock.stable &&& 0x0F ∧ t.clock.lockSeen = false ∧
      ∀ d v, (d, v) ∈ t.clock.switches → v = 2)) ∧
  (∀ s : State, s.held = false →
    (∀ w (v : Word), s.isCtl w = true → 8 ≤ bits v.toNat 4 0 → bits v.toNat 4 0 ≤ 24 → bits v.toNat 11 8 ≤ 10 →
      bits v.toNat 13 12 ≠ 3 → s.refOnly = false →
      ∃ t, exec (.meterStart w v) s = .next t ∧ t.clock = { s.clock with
        meterN := bits v.toNat 4 0, meterTarget := bits v.toNat 11 8, meterRef := bits v.toNat 13 12, meterBusy := true,
        meterDone := false }) ∧
    (∀ n, s.clock.meterBusy = true → ∃ t, exec (.meterDone n) s = .next t ∧ t.clock.meterBusy = false ∧ t.clock.meterDone = true ∧
      t.clock.meterCount = if s.targetStopped s.clock.meterTarget then 0 else min 0xFFFFFFFF n) ∧
    (∀ w (v : Word), s.isCtl w = true → bits v.toNat 1 0 ≠ 3 →
      ∃ t, exec (.trimStart w v) s = .next t ∧ t.clock.trimBusy = true ∧ t.clock.trimIters = 0 ∧ t.clock.trimFail = false ∧
        t.clock.trimConverged = false ∧ t.clock.trimRef.toNat = bits v.toNat 1 0 ∧ t.clock.trimCode = s.clock.trimCode) ∧
    (∀ n, s.clock.trimBusy = true → n ≠ 0 →
      ∃ t, exec (.trimIteration n) s = .next t ∧ t.clock.trimCode ≤ 1023 ∧ t.clock.trimIters = s.clock.trimIters + 1 ∧
        t.clock.trimConverged = decide (t.clock.trimCode = s.clock.trimCode) ∧
        (t.clock.trimBusy = true ↔ t.clock.trimCode ≠ s.clock.trimCode ∧ s.clock.trimIters + 1 < 8) ∧
        (t.clock.trimFail = true ↔ t.clock.trimCode ≠ s.clock.trimCode ∧ 8 ≤ s.clock.trimIters + 1)) ∧
    (s.clock.trimBusy = true → ∃ t, exec .trimRefTimeout s = .next t ∧ t.clock.trimBusy = false ∧ t.clock.trimFail = true ∧
      (mget 0 t.attn.latch 0x01).getLsbD 4 = true))

/-! ### Owl and the calendar (18) -/

/-- A second of the real-time clock advances the seconds counter and, but at its end, the calendar (18 R702); the source's loss takes VALID
and holds the calendar, which its return lets go on (18 R673). A CAL_SET of a valid date takes it with its seconds counter, and any other
is refused with INVALID_DATE and leaves the calendar, the counter, VALID and CAL_END (18 R703, R704). What the island and the firmware do
of their own (18 R672, R680, R682, R686, R688): SMBus reads answer the response or the time, the log goes to flash with V3P3, the counters
go to the journal at most once in 10 s, and a sample takes the power and the rails
and stacks the grade has. -/
def Obligations.TheCalendarLogsAndSamplesGoOn : Prop :=
  (∀ s : State,
    (s.power.vaon = true → s.cal.lost = false → ∃ t, exec .rtcSecond s = .next t ∧ t.cal.seconds = s.cal.seconds + 1 ∧
      (s.cal.atEnd = true → t.cal.ended = true ∧ (t.cal.year, t.cal.month, t.cal.day, t.cal.hour, t.cal.minute, t.cal.second) =
        (2399, 12, 31, 23, 59, 59)) ∧
      (s.cal.atEnd = false → s.cal.second < 59 → t.cal.second = s.cal.second + 1 ∧ t.cal.minute = s.cal.minute) ∧
      (s.cal.atEnd = false → s.cal.second = 59 → t.cal.second = 0) ∧ t.cal.valid = s.cal.valid) ∧
    (s.cal.lost = true → ∃ t, exec .rtcSecond s = .next t ∧ t.cal = s.cal) ∧
    (∃ t, exec .rtcSourceLost s = .next t ∧ t.cal = { s.cal with lost := true, valid := false }) ∧
    (∃ t, exec .rtcSourceReturn s = .next t ∧ t.cal = { s.cal with lost := false }) ∧
    ∀ p, s.isCtl (.port p) = true → ∃ t, exec (.calSet p) s = .next t ∧
      (∀ d c, d = s.live 0x10 0x100 → c = s.live 0x10 0x104 →
        (stagedOk d c = false → t.cal = { s.cal with result := codeDate } ∧ bits (t.cfg p).result.toNat 7 0 = codeDate.toNat) ∧
        (stagedOk d c = true → t.cal.year = bits d 15 0 ∧ t.cal.month = bits d 23 16 ∧ t.cal.day = bits d 31 24 ∧
          t.cal.hour = bits c 23 16 ∧ t.cal.minute = bits c 15 8 ∧ t.cal.second = bits c 7 0 ∧ t.cal.valid = true ∧
          t.cal.seconds.toNat = secondsOf (bits d 15 0) (bits d 23 16) (bits d 31 24) (bits c 23 16) (bits c 15 8) (bits c 7 0)))) ∧
  (∀ s : State, s.held = false →
    (∀ cmd, ∃ t, exec (.smbResponseRead cmd) s = .next t ∧
      (cmd = 2 → t.owl.smbData = some ((padTo 256 (s.box .smbus).response).take 128)) ∧
      (cmd = 3 → t.owl.smbData = some ((padTo 256 (s.box .smbus).response).drop 128)) ∧
      (cmd ≠ 2 → cmd ≠ 3 → t.owl.smbData = none) ∧ t.owl.boxes = s.owl.boxes) ∧
    (s.power.vaon = true → ∃ t, exec .smbTimeRead s = .next t ∧
      t.owl.smbData = some (leBytes 8 s.cal.seconds.toNat ++ [s.cal.statusByte, 0, 0, 0]) ∧ t.cal = s.cal) ∧
    (s.power.v3p3 = true → s.owl.buffer ≠ [] → ∃ t, exec .logFlush s = .next t ∧
      t.owl.flashLog = s.owl.buffer.foldl logPut s.owl.flashLog ∧ (s.owl.dropsPending = 0 → t.owl.buffer = []) ∧
      t.owl.dropsPending = 0) ∧
    (s.owl.journal = [] ∨ 10 ≤ s.owl.sinceCheckpoint → ∃ t, exec .counterCheckpoint s = .next t ∧
      t.owl.journal.getLast? = some s.owl.counters.toList ∧ t.owl.sinceCheckpoint = 0 ∧ t.owl.counters = s.owl.counters) ∧
    ∀ rails current temps power, ∃ t, exec (.railSample rails current temps power) s = .next t ∧
      t.owl.rails = presentOnly (7 + 2 * s.chip.nSites) rails ∧
      t.owl.current = current ∧ t.owl.stackTemps = presentOnly s.chip.nSites temps ∧ t.owl.powerNow = power ∧
      t.owl.railBad = (s.badRail rails).isSome ∧
      t.power.samples = if s.frame.inFrame then s.power.samples ++ [power.toNat] else s.power.samples)

/-- A well-formed request on an idle channel is answered at once with what Owl holds (18 R674 to R678): versions and banks (18 R706), the
sensors (18 R682), the lifetime counters (18 R687), log records (18 R686), the identity (18 R696), a signature over the nonce (18 R697),
the verdict on a token (18 R697) and the board's record (18 R699). A request of an unassigned opcode is refused (18 R676), a frame whose
check fails is discarded, and GO while BUSY only sets MB_ERR (18 R675, R680, R681). The requests that change what Owl keeps (18 R676 to
R678): a pairing needs the current token and stores the new one's hash (18 R695), IDENT_ACK clears CHANGED (18 R698), FENCE and UNFENCE
name a unit of the grade (18 R679), and SET_BOARD_CFG stores a record in range for the next package reset (18 R699). -/
def Obligations.MailboxRequestsTakeEffect : Prop :=
  (∀ (s : State) (ch : Channel) (r : List Byte), s.held = false → s.power.stage = 5 → s.owl.order = [] → (s.box ch).busy = false →
    s.chanUp ch = true →
    (s.reqFlaw ch r = none →
      (reqOp r = 0x01 → ∃ t, exec (.getInfo ch r) s = .next t ∧ Replied t ch codeOk s.infoBytes) ∧
      (reqOp r = 0x02 → ∃ t, exec (.readSensors ch r) s = .next t ∧ Replied t ch codeOk s.owl.sensorBytes) ∧
      (reqOp r = 0x03 → ∃ t, exec (.readCounters ch r) s = .next t ∧
        Replied t ch codeOk (s.owl.counters.toList.flatMap fun w => leBytes 4 w.toNat)) ∧
      (reqOp r = 0x04 → ∃ t, exec (.readLog ch r) s = .next t ∧ Replied t ch codeOk (s.owl.logBytes (u64At (reqData r) 0))) ∧
      (reqOp r = 0x05 → ∃ t, exec (.getIdentity ch r) s = .next t ∧ Replied t ch codeOk identityBytes) ∧
      (reqOp r = 0x06 → ∃ t, exec (.challenge ch r) s = .next t ∧ Replied t ch codeOk (s.challengeBytes (reqData r))) ∧
      (reqOp r = 0x07 → ∃ t, exec (.verify ch r) s = .next t ∧ Replied t ch
        (match s.owl.pairing with | none => codeUnpaired | some h => if sha256 (reqData r) = h then codeOk else codeToken) []) ∧
      (reqOp r = 0x11 → ∃ t, exec (.getBoardCfg ch r) s = .next t ∧
        Replied t ch codeOk (s.owl.boardStored.getD BoardCfg.default).bytes)) ∧
    (reqOp r = 0 ∨ 0x11 < reqOp r → reqLen r ≤ 240 →
      ∃ t, exec (.unassignedMailboxOpcode ch r) s = .next t ∧ Replied t ch codeBad []) ∧
    exec (.mailboxFrameDiscarded ch) s = .next (settle s) ∧
    ∀ p, s.portUp p = true → (s.box (portChan p)).busy = true →
      ∃ t, exec (.mbGoWhileBusy p) s = .next t ∧ t.box (portChan p) = { s.box (portChan p) with err := true } ∧
        t.owl.order = s.owl.order) ∧
  (∀ (s : State) (ch : Channel) (r : List Byte), s.held = false → s.power.stage = 5 → s.owl.order = [] → (s.box ch).busy = false →
    s.chanUp ch = true → s.reqFlaw ch r = none → ∀ d, d = reqData r →
    (reqOp r = 0x08 → ∃ t, exec (.pair ch r) s = .next t ∧
      ((s.owl.pairing = none ∨ s.owl.pairing = some (sha256 (d.drop 16))) → Replied t ch codeOk [] ∧
        t.owl.pairing = if allZero (d.take 16) then none else some (sha256 (d.take 16))) ∧
      (∀ h, s.owl.pairing = some h → sha256 (d.drop 16) ≠ h → Replied t ch codeToken [] ∧ t.owl.pairing = s.owl.pairing ∧
        t.owl.changed = s.owl.changed)) ∧
    (reqOp r = 0x09 → ∃ t, exec (.identAck ch r) s = .next t ∧ Replied t ch codeOk [] ∧ t.owl.changed = false) ∧
    (∀ i ∈ [Instr.fence ch r, .unfence ch r], (i = .fence ch r → reqOp r = 0x0A) → (i = .unfence ch r → reqOp r = 0x0B) →
      ∃ t, exec i s = .next t ∧
        (∀ k, kindOf (byteAt d 0) = some k → byteAt d 1 < s.unitCount k → Replied t ch codeOk [] ∧
          ((k, byteAt d 1) ∈ t.owl.fences ↔ i = .fence ch r)) ∧
        ((∀ k, kindOf (byteAt d 0) = some k → s.unitCount k ≤ byteAt d 1) → Replied t ch codeBad [] ∧
          t.owl.fences = s.owl.fences)) ∧
    (reqOp r = 0x10 → ∃ t, exec (.setBoardCfg ch r) s = .next t ∧
      (∀ b, boardOf d = some b → Replied t ch codeOk [] ∧ t.owl.boardStored = some b) ∧
      (boardOf d = none → Replied t ch codeBad [] ∧ t.owl.boardStored = s.owl.boardStored) ∧ t.owl.board = s.owl.board))

/-- A firmware update (18 R689 to R693): FW_BEGIN opens a session on the inactive bank, whose erase starts; a chunk must come at the offset
written so far, and waits for the erase; FW_FINISH authenticates the image and makes its bank active and TRIAL, or refuses it and leaves
the banks; FW_CONFIRM ends TRIAL and raises the rollback counter, which never falls. -/
def Obligations.FirmwareUpdatesKeepTheirOrder : Prop :=
  ∀ (s : State) (ch : Channel) (r : List Byte), s.held = false → s.power.stage = 5 → s.owl.order = [] → (s.box ch).busy = false →
    s.chanUp ch = true → s.reqFlaw ch r = none → ∀ d, d = reqData r →
    (reqOp r = 0x0C → ∃ t, exec (.fwBegin ch r) s = .next t ∧
      (u32At d 0 ≤ 8388608 → s.owl.session = none → Replied t ch codeOk [] ∧
        t.owl.session = some ⟨u32At d 0, [], true, false, []⟩ ∧
        (if s.owl.activeB then t.owl.bankA.valid = false ∧ t.owl.bankB = s.owl.bankB
         else t.owl.bankB.valid = false ∧ t.owl.bankA = s.owl.bankA)) ∧
      (u32At d 0 ≤ 8388608 → s.owl.session ≠ none → Replied t ch codeBusy [] ∧ t.owl.session = s.owl.session) ∧
      (8388608 < u32At d 0 → Replied t ch codeLength [] ∧ t.owl.session = s.owl.session)) ∧
    (∀ x, reqOp r = 0x0D → s.owl.session = some x → ∃ t, exec (.fwChunk ch r) s = .next t ∧
      (u32At d 0 ≠ x.written.length → Replied t ch codeBad [] ∧ t.owl.session = some x) ∧
      (u32At d 0 = x.written.length → x.written.length + (d.length - 4) ≤ x.total →
        (x.erasing = false → Replied t ch codeOk [] ∧ t.owl.session = some { x with written := x.written ++ d.drop 4 }) ∧
        (x.erasing = true → (t.box ch).busy = true ∧ t.owl.session = some { x with held := x.held ++ [(ch, r)] }))) ∧
    (∀ x, reqOp r = 0x0E → s.owl.session = some x → x.sram = false → ∃ t, exec (.fwFinish ch r) s = .next t ∧ t.owl.session = none ∧
      (∀ code, s.owl.imageFlaw x s.draws = some code → Replied t ch codeUpdate [code] ∧ t.owl.bankA = s.owl.bankA ∧
        t.owl.bankB = s.owl.bankB ∧ t.owl.activeB = s.owl.activeB) ∧
      (s.owl.imageFlaw x s.draws = none → Replied t ch codeOk [] ∧ t.owl.activeB = (! s.owl.activeB) ∧ t.owl.trial = true ∧
        (if s.owl.activeB then t.owl.bankA else t.owl.bankB).bytes = x.written ∧
        (if s.owl.activeB then t.owl.bankA else t.owl.bankB).valid = true)) ∧
    (reqOp r = 0x0F → ∃ t, exec (.fwConfirm ch r) s = .next t ∧
      (s.owl.trial = true → s.power.bank = s.owl.activeB → s.owl.trialBooted = true → Replied t ch codeOk [] ∧
        t.owl.trial = false ∧ t.owl.rollback = max s.owl.rollback (min 64 s.owl.runningRollback)) ∧
      (s.owl.trial = false → Replied t ch codeBad [] ∧ t.owl.rollback = s.owl.rollback)) ∧
    ∀ x, s.owl.session = some x → x.erasing = true → x.held = [] →
      ∃ t, exec .flashEraseDone s = .next t ∧ t.owl.session = some { x with erasing := false }

/-! ### Storage errors and JTAG (19 R723 to R728; 20 R763 to R766) -/

/-- A corrected error of SRAM only counts on its page (19 R723, R733). An uncorrectable one is contained where it lies (19 R724): an engine
unit is DOWN for Beaver, and at its fourth error fenced (19 R725); a Burrow tile is uniform OCCUPIED in the store and in the sealed view;
a word of a CLEAR bitmap reads as clear for the tenants it serves; the shared storages are a package fault; and Owl's own restarts its
domain. A corrected DRAM error counts in its site's D_ECC and puts its block among those the guard writes back, 64 at most; an
uncorrectable one counts there too, poisons its block and raises the site's event (19 R727, R728). Neither changes a byte. -/
def Obligations.StorageErrorsStayWhereTheyLie : Prop :=
  (∀ s : State, s.held = false →
    (∀ x, s.hasStorage x = true → keysRise s.attn.errCount → ∃ a, exec (.sramCorrected x) s = .next (settle a) ∧
      a = { s with attn := { s.attn with errCount := a.attn.errCount } } ∧
      mget 0 a.attn.errCount (storagePage x) = min 65535 (mget 0 s.attn.errCount (storagePage x) + 1)) ∧
    (∀ x k n v, (∀ e w, x ≠ .badgerBitmap e w) → storageUnit x = some (k, n) → s.view k n = some v →
      ∃ t v', exec (.sramUe x) s = .next t ∧ t.view k n = some v' ∧ v'.beaverUp = false ∧ v'.ueCount = v.ueCount + 1 ∧
        (v.ueCount = 3 → v'.owl = .fenced ∧ (k, n) ∈ t.owl.fences)) ∧
    (∀ k i, ∃ t, exec (.sramUe (.burrowTile k none i)) s = .next t ∧ ((t.tenant k).world.tile i.val).body = .uniform .occupied ∧
      ∀ v, (s.tenant k).world.view = some v → ∃ v', (t.tenant k).world.view = some v' ∧
        (mget Tile.default v'.stat i.val).body = .uniform .occupied) ∧
    (∀ e w, ∃ t, exec (.sramUe (.badgerBitmap e w)) s = .next t ∧ ∀ k, (s.tenant k).exists' = true → 0 < s.candQuota k →
      s.candBase k / 16 / 64 ≤ w → w ≤ (s.candBase k + s.candQuota k - 1) / 16 / 64 → (e.val, w) ∈ (t.tenant k).table.lost) ∧
    (∀ x ∈ [Storage.burrowDirectory, .beaver, .lynx, .spoor, .fabric], ∃ t, exec (.sramUe x) s = .next t ∧ t.fault.sram = true ∧
      (x = .fabric → t.fault.fabric = true)) ∧
    ∃ t, exec (.sramUe .owlSram) s = .next t ∧ t.power.cause = s.power.cause ||| 16 ∧ ∀ ch, t.owl.boxes.at' ch = Mailbox.reset) ∧
  (∀ (s : State) (a : Nat), s.held = false → a < s.chip.capacity → keysRise s.regs → ∀ d, d = siteOf s.chip a →
    (∃ t, exec (.dramCorrected a) s = .next t ∧ t.dram.bytes = s.dram.bytes ∧ t.dram.poison = s.dram.poison ∧
      bits (t.live (sitePage d) 0x104) 15 0 = min 65535 (bits (s.live (sitePage d) 0x104) 15 0 + 1) ∧
      bits (t.live (sitePage d) 0x104) 31 16 = bits (s.live (sitePage d) 0x104) 31 16 ∧
      bget [] t.dram.writeBack d = (if 64 ≤ (bget [] s.dram.writeBack d).length then bget [] s.dram.writeBack d
        else bget [] s.dram.writeBack d ++ [a / 32])) ∧
    ∃ t, exec (.dramUe a) s = .next t ∧ t.dram.bytes = s.dram.bytes ∧ (∀ b, b ∈ t.dram.poison ↔ b = a / 32 ∨ b ∈ s.dram.poison) ∧
      t.dram.writeBack = s.dram.writeBack ∧
      bits (t.live (sitePage d) 0x104) 31 16 = min 65535 (bits (s.live (sitePage d) 0x104) 31 16 + 1) ∧
      bits (t.live (sitePage d) 0x104) 15 0 = bits (s.live (sitePage d) 0x104) 15 0 ∧
      (mget 0 t.attn.latch (sitePage d)).getLsbD 1 = true)

/-- EXTEST, CLAMP, HIGHZ, EXTEST_PULSE and EXTEST_TRAIN hold the device in package reset with cause SYS_RST; IDCODE, SAMPLE/PRELOAD and
BYPASS do not, and complete the reset that a test instruction held (20 R764, R766). Each selects its data register: IDCODE's reads
0x15B3_00A7 for stepping A1, and the bypass register captures 0. The cells of pins the model does not hold are free, log 75. -/
def Obligations.JtagInstructionsSelectAndHold : Prop :=
  ∀ s : State,
    (∀ x ∈ [(Instr.extest, (0x00 : Byte)), (.clamp, 0x04), (.highz, 0x05), (.extestPulse, 0x06), (.extestTrain, 0x07)],
      ∃ t, exec x.1 s = .next t ∧ t.jtag.ir = x.2 ∧
        t.jtag.captured.length = (if x.1 = .clamp ∨ x.1 = .highz then 1 else if s.chip.nLinks = 8 then 188 else 140) ∧
        (s.held = false → t.power.jtagHold = true ∧ t.power.cause = 2 ∧ PackageCleared s t)) ∧
    (∃ t, exec .idcode s = .next t ∧ t.jtag.ir = 0x01 ∧
      (s.chip.stepLetter = 1 → s.chip.stepDigit = 1 → t.jtag.captured = (List.range 32).map fun i => bit 0x15B300A7 i)) ∧
    (∃ t, exec .samplePreload s = .next t ∧ t.jtag.ir = 0x02 ∧ t.jtag.captured[4]? = some s.power.pwrGood ∧
      t.jtag.captured[9]? = some s.frame.safePin) ∧
    (∃ t, exec .bypass s = .next t ∧ t.jtag = { ir := 0xFF, captured := [false] }) ∧
    ∀ i ∈ [Instr.idcode, .samplePreload, .bypass],
      ∃ t, exec i s = .next t ∧ t.power.jtagHold = false ∧
        (s.power.jtagHold = false → t.power = s.power ∧ t.owl = s.owl ∧ t.regs = s.regs) ∧
        (s.power.jtagHold = true → s.power.pwrGood = true → s.power.sysRst = false → s.power.vaon = true →
          t.power.bootStarted = true ∧ t.power.stage = 0)

/-! ### The cascade and Lynx (14, 15) -/

/-- A link's life (15 R556 to R558, R563, R593): EN starts training and the trained link is UP with its partner, with 64 credits in every
channel where it held none from before; a replay counts, and more than 8 failed ones retrain the link, as RETRAIN does, counted and raised;
a link that is lost is DOWN and holds no credits, and one not UP for 100 µs gives up the frames that waited for it. A credit comes back up
to 64, on a link that has its credits (DEDUCED, log 134). ROUTE_DATA sets the route of ROUTE_ADDR's package (15 R565), and a malformed
frame is discarded and counted (15 R560). A well-formed routed frame on a link that is UP (15 R564 to R574): one of this package's own is
discarded and raised; one for another package goes on with its TTL one less where it has a route. One for this package has its effect
here: WRITE and READ through an open window, answered OK; DOORBELL latches the detectors of its link; ACK and READ_DATA free their tag and
a stale response is counted; COLL_PART and COLL_RESULT reach their collective, a foreign one being refused or stale; and WITNESS from the
twin over link 0 fills its slot of the ring, with a record already counted missed (log 135) and one of any other package left out (13 R510,
R513). That a twin's link 0 carries no routed frame but WITNESS (noRoute) is DEDUCED, log 133. -/
def Obligations.LinksCarryFramesToTheirDestination : Prop :=
  (∀ s : State, s.held = false → ∀ l : Fin 8, l.val < s.chip.nLinks → ∀ k, k = s.links.at' l →
    (∀ w, s.ctlReaches w (linkPage l) = true → k.enabled = false →
      ∃ t, exec (.linkEnable w l) s = .next t ∧ t.links.at' l = { k with enabled := true, st := .training }) ∧
    (∀ peer, k.enabled = true → k.st ≠ .up → ∃ t, exec (.linkTrained l peer) s = .next t ∧ (t.links.at' l).st = .up ∧
      (t.links.at' l).peer = peer ∧ (t.links.at' l).dead = false ∧ (t.links.at' l).failed = 0 ∧ (t.links.at' l).granted = true ∧
      ∀ j, j ≠ l → t.links.at' j = s.links.at' j) ∧
    (k.st = .up →
      (∀ w, s.ctlReaches w (linkPage l) = true → ∃ t, exec (.retrain w l) s = .next t ∧
        t.links.at' l = { k with st := .training, failed := 0, retrains := min 65535 (k.retrains + 1) } ∧
        (mget 0 t.attn.latch (linkPage l)).getLsbD 1 = true) ∧
      (∃ t, exec (.linkReplay l) s = .next t ∧
        t.links.at' l = { k with failed := k.failed + 1, replays := min 65535 (k.replays + 1) }) ∧
      (∃ t, exec (.replayRetrain l) s = .next t ∧ t.links.at' l =
        if 9 ≤ k.failed then { k with st := .training, failed := 0, retrains := min 65535 (k.retrains + 1) } else k) ∧
      (∃ t, exec (.linkDown l) s = .next t ∧ t.links.at' l =
        { k with st := .down, failed := 0, granted := false, credits := Vector.replicate 3 0 }) ∧
      ∀ f : LinkFrame, f.valid = false → ∃ t, exec (.invalidFrame l f) s = .next t ∧
        t.cascade = { s.cascade with routeDrops := min 65535 (s.cascade.routeDrops + 1) } ∧ t.links = s.links) ∧
    (k.st ≠ .up → k.dead = false → (∀ v, k.waiting.at' v = []) →
      ∃ t, exec (.linkDownTimeout l) s = .next t ∧ (t.links.at' l).dead = true ∧ (t.links.at' l).st = k.st) ∧
    (∀ v, k.granted = false → exec (.creditReturn l v) s = .next (settle s)) ∧
    (∀ v, k.granted = true → (∀ c, k.waiting.at' c = []) → ∃ t, exec (.creditReturn l v) s = .next t ∧
      (t.links.at' l).credits.at' v = min 64 (k.credits.at' v + 1) ∧ (t.links.at' l).sent = k.sent) ∧
    ∀ w (v : Word), s.ctlReaches w 0x0D = true → keysRise s.cascade.routes → (bits v.toNat 3 0 = 15 ∨ bits v.toNat 3 0 < s.chip.nLinks) →
      ∃ t, exec (.routeDataWrite w v) s = .next t ∧ t.route (BitVec.ofNat 16 (bits (s.live 0x0D 0x118) 15 0)) = bits v.toNat 3 0 ∧
        ∀ d : BitVec 16, d.toNat ≠ bits (s.live 0x0D 0x118) 15 0 → t.route d = s.route d) ∧
  (∀ (s : State) (l : Fin 8) (f : LinkFrame), s.held = false → (s.links.at' l).st = .up → f.valid = true →
    (∀ i, (i, f.kind) ∈ [(Instr.write l f, (0x01 : Byte)), (.read l f, 0x02), (.doorbell l f, 0x03), (.collPart l f, 0x04),
        (.ack l f, 0x11), (.readData l f, 0x12), (.collResult l f, 0x14), (.witness l f, 0x15)] →
      (f.src = s.pkgId → ∃ t, exec i s = .next t ∧
        t.cascade = { s.cascade with routeDrops := min 65535 (s.cascade.routeDrops + 1) } ∧ t.dram = s.dram) ∧
      (f.src ≠ s.pkgId → f.dest ≠ s.pkgId → s.noRoute f.dest = false → 1 < f.ttl.toNat →
        exec i s = .next (settle (s.transmit (s.route f.dest) { f with ttl := f.ttl - 1 })))) ∧
    (f.src ≠ s.pkgId → f.dest = s.pkgId →
      (f.kind = 0x01 → s.windowOpen f.addr.toNat f.payload.length true = true → s.inFault = false →
        ∃ t, exec (.write l f) s = .next t ∧ t.dram = (s.dramWrite f.addr.toNat f.payload).dram) ∧
      (f.kind = 0x02 → s.windowOpen f.addr.toNat f.aux.toNat false = true → s.inFault = false →
        s.dram.poisoned f.addr.toNat f.aux.toNat = false →
        exec (.read l f) s = .next (settle (s.sendResponse (s.answer f codeOk (s.dramRead f.addr.toNat f.aux.toNat))))) ∧
      (∀ k : Fin 16, f.kind = 0x03 → f.aux.toNat = k.val → (s.tenant k).state = .active → ∃ t, exec (.doorbell l f) s = .next t ∧
        ∀ j : Fin 32, detSource ((s.tenant k).sched.detectors.at' j).cfg = 3 → detSelect ((s.tenant k).sched.detectors.at' j).cfg = l.val →
          detPolarity ((s.tenant k).sched.detectors.at' j).cfg ≠ 0 → ((t.tenant k).sched.detectors.at' j).latched = true) ∧
      (f.kind = 0x04 → s.groupEntry (bits f.aux.toNat 15 0) = none →
        exec (.collPart l f) s = .next (settle (s.sendResponse (s.answer f codeBad [])))) ∧
      (∀ i ∈ [Instr.ack l f, .readData l f, .collResult l f],
        (f.kind = 0x11 ∧ i = .ack l f ∨ f.kind = 0x12 ∧ i = .readData l f ∨ f.kind = 0x14 ∧ i = .collResult l f) →
        ((∀ g ∈ s.cascade.tags, g.tag ≠ f.tag.toNat) → s.halted = true →
          ∃ t, exec i s = .next t ∧ t.cascade = { s.cascade with stale := min 65535 (s.cascade.stale + 1) } ∧
            (t.links.at' l).peerStat = f.stat ∧ (t.links.at' l).peerSeq = f.attnSeq) ∧
        (∀ g, (s.cascade.tags.find? fun g => g.tag = f.tag.toNat) = some g → g.kind ≠ 4 → f.stat.setWidth 8 = codeOk →
          f.kind ≠ 0x14 → ∃ t, exec i s = .next t ∧ (∀ x ∈ t.cascade.tags, x.tag ≠ g.tag))) ∧
      (∀ w : Fin 16, f.kind = 0x15 → f.aux.toNat = w.val → bit (s.lease w 0x134) 7 = true → bit (s.lease w 0x134) 4 = true →
        (s.tenant w).exists' = true → s.writesStopped = false → ∃ t, exec (.witness l f) s = .next t ∧
          (t.links.at' l).peerStat = f.stat ∧ (t.links.at' l).peerSeq = f.attnSeq ∧
          (s.owl.board.twin = true → l = 0 → f.src = (s.links.at' 0).peer →
            (s.tenant w).witnessMissed.contains (u64At f.payload 176) = false → (t.tenant w).witnessed = true ∧
            mfind (t.tenant w).witnessRing (f.addr.toNat % 2 ^ bits (s.lease w 0x140) 2 0) = some f.payload) ∧
          (s.owl.board.twin = false ∨ l ≠ 0 ∨ f.src ≠ (s.links.at' 0).peer ∨
            (s.tenant w).witnessMissed.contains (u64At f.payload 176) = true →
            (t.tenant w).witnessRing = (s.tenant w).witnessRing ∧ (t.tenant w).witnessed = (s.tenant w).witnessed))))

/-- The cascade's clock (15 R576 to R579, R583, R584, R589 to R591). A TICK, MARK or CAL is taken on a link that is UP: from anyone but the
master a TICK or MARK is discarded and counted; an accepted TICK fixes the boundary's time and number, ends MASTER_LOST, from which the
count of missing marks starts over (DEDUCED, log 139), and waits to be forwarded; a MARK ends the count of missing marks. What waits is
forwarded to the child links, the master sends its marks there, and 16 edges without one declare the master lost. A CAL is echoed, and its
echo gives the delay from the next tick on. Lynx of a lock-step pair (14 R541 to R545): a window's end keeps its signatures and offsets,
clears the running ones and moves to the next window; the partner's signatures of a kept window agree or diverge, and those of another frame
diverge; a notice diverges; and signatures still missing when window w + 8 has ended declare the partner lost. Each divergence counts, and
the first is held until DIV_CLEAR; with a record held a notice counts and does no more, also where the package has frozen (14 R543, R551).
What a divergence of FRAME, NOTICE or MISSING records of stream and signatures is free, log 69. -/
def Obligations.TicksMarksAndLynxTakeEffect : Prop :=
  (∀ s : State, s.held = false →
    (∀ (l : Fin 8) (f : LinkFrame), (s.links.at' l).st = .up → f.valid = true →
      (∀ i ∈ [Instr.tick l f, .mark l f], (f.kind = 0x21 ∧ i = .tick l f ∨ f.kind = 0x22 ∧ i = .mark l f) → s.fromMaster l.val f = false →
        ∃ t, exec i s = .next t ∧ t.cascade = { s.cascade with foreign := min 65535 (s.cascade.foreign + 1) } ∧ t.frame = s.frame) ∧
      (f.kind = 0x21 → s.fromMaster l.val f = true → s.tickSrc = 2 → ∀ a T, a = f.aux.toNat + (s.links.at' l).delay.toNat →
        T = s.now + (bits (s.live 0x0D 0x110) 15 0 - a) / s.coreMhz → s.judgeArrival T = .accepted → ∃ t, exec (.tick l f) s = .next t ∧
          t.frame.aligned = some (T, some f.addr) ∧ t.cascade.masterLost = false ∧
          t.cascade.noMark = (if s.cascade.masterLost then 0 else s.cascade.noMark) ∧
          t.cascade.masterPeriod = some (u32At f.payload 0) ∧
          t.cascade.tickForward.length = s.cascade.tickForward.length + 1 ∧ t.cascade.lastA = min 65535 a) ∧
      (f.kind = 0x22 → s.fromMaster l.val f = true → ∃ t, exec (.mark l f) s = .next t ∧ t.cascade =
        { s.cascade with noMark := 0, markForward := s.cascade.markForward ++ [{ f with ttl := BitVec.ofNat 8 (f.ttl.toNat - 1) }] }) ∧
      (f.kind = 0x23 → ∃ t, exec (.cal l f) s = .next t ∧
        t.links.at' l = { s.links.at' l with echoDue := (s.links.at' l).echoDue + 1 }) ∧
      (f.kind = 0x24 → ∀ r, ∃ t, exec (.calEcho l f r) s = .next t ∧ t.links.at' l = { s.links.at' l with
        delayNext := some (BitVec.ofNat 16 (min 0xFFFF ((r - 512) / 2))), roundTrip := BitVec.ofNat 16 (min 0xFFFF r), calibrated := true })) ∧
    (∀ l : Fin 8, (s.links.at' l).st = .up → 0 < (s.links.at' l).echoDue → ∃ t, exec (.calEchoSend l) s = .next t ∧
      (t.links.at' l).echoDue = (s.links.at' l).echoDue - 1) ∧
    (∀ f r, s.cascade.tickForward = f :: r → ∃ t, exec .tickForward s = .next t ∧ t.cascade = { s.cascade with tickForward := r } ∧
      (s.cascade.masterLost = true → t.links = s.links)) ∧
    (∀ f r, s.cascade.markForward = f :: r → ∃ t, exec .markForward s = .next t ∧ t.cascade = { s.cascade with markForward := r } ∧
      (s.cascade.masterLost = true → t.links = s.links)) ∧
    (s.role = 1 → s.frame.run = true → exec .markSend s = .next (settle (s.forEach s.childLinks fun u l =>
      u.transmit l (s.localFrame 0x22 (if s.frame.inFrame then s.now - s.frame.tickAt else 0) 0 [])))) ∧
    (s.role = 2 → s.frame.run = true → s.cascade.masterLost = false → ∃ t, exec .masterLost s = .next t ∧
      t.cascade.masterLost = true ∧ t.cascade.colls = [] ∧ t.now = s.now + (16 - s.cascade.noMark) ∧
      (s.frame.inFrame = true → t.frame.masterLost = true))) ∧
  (∀ (s : State) (f : LinkFrame), s.held = false → (s.links.at' 0).st = .up → f.valid = true → f.kind = 0x26 → s.lynx.held = true →
    ∃ t, exec (.lynxNotice f) s = .next t ∧ t.lynx = { s.lynx with divCount := min 65535 (s.lynx.divCount + 1) } ∧
      (mget 0 t.attn.latch 0x0B).getLsbD 0 = (mget 0 s.attn.latch 0x0B).getLsbD 0 ∧ t.links = s.links) ∧
  (∀ s : State, s.lynxOn = true →
    (s.frame.inFrame = true → s.windowAt s.lynx.window < s.deadlineAt 7 → ∃ t, exec .lynxWindowEnd s = .next t ∧
      t.lynx.window = s.lynx.window + 1 ∧ t.lynx.kept = s.lynx.kept ++ [(s.lynx.window, s.lynx.sigs.toList, s.lynx.bytesBefore.toList, [])] ∧
      t.lynx.sigs = Vector.replicate 76 0 ∧ t.lynx.bytesBefore = s.lynx.bytesNow ∧
      t.now = max s.now (min (s.windowAt (s.lynx.window + 1)) (s.deadlineAt 7))) ∧
    (∀ f : LinkFrame, (s.links.at' 0).st = .up → f.valid = true →
      (f.kind = 0x25 → f.addr ≠ s.frame.number → ∃ t, exec (.lynxSig f) s = .next t ∧
        t.lynx.divCount = min 65535 (s.lynx.divCount + 1) ∧ t.lynx.held = true ∧ (s.lynx.held = false → t.lynx.divKind = 3)) ∧
      (f.kind = 0x25 → f.addr = s.frame.number → (∀ k ∈ s.lynx.kept, k.1 % 4096 ≠ bits f.aux.toNat 11 0) →
        bits f.aux.toNat 11 0 ≠ s.lynx.window % 4096 → ∃ t, exec (.lynxSig f) s = .next t ∧ t.lynx = s.lynx) ∧
      (∀ k, f.kind = 0x25 → f.addr = s.frame.number → s.lynx.kept = [k] → k.1 % 4096 = bits f.aux.toNat 11 0 →
        bits f.aux.toNat 11 0 ≠ s.lynx.window % 4096 → ∃ t, exec (.lynxSig f) s = .next t ∧
        ((∀ x ∈ sigsOf f, x.2 = lget 0 k.2.1 x.1) → t.lynx.divCount = s.lynx.divCount) ∧
        ((∃ x ∈ sigsOf f, x.2 ≠ lget 0 k.2.1 x.1) → t.lynx.divCount = min 65535 (s.lynx.divCount + 1) ∧ t.lynx.kept = [])) ∧
      (f.kind = 0x26 → ∃ t, exec (.lynxNotice f) s = .next t ∧ t.lynx.divCount = min 65535 (s.lynx.divCount + 1) ∧
        (s.lynx.held = false → t.lynx.divKind = 4 ∧ t.lynx.divFrame = s.frame.number ∧
          (mget 0 t.attn.latch 0x0B).getLsbD 0 = true))) ∧
    (∀ w, w + 9 ≤ s.lynx.window → (s.lynx.kept.any fun k => k.1 = w) = true → ∃ t, exec (.lynxMissing w) s = .next t ∧
      t.lynx.partnerLost = true ∧ t.lynx.comparing = false ∧ t.lynx.kept = [] ∧
      t.lynx.divCount = min 65535 (s.lynx.divCount + 1)) ∧
    ∀ w, s.ctlReaches w 0x0B = true → ∃ t, exec (.divClear w) s = .next t ∧ t.lynx.held = false ∧ t.lynx.divKind = 0 ∧
      t.lynx.divStream = 0 ∧ t.lynx.divCount = s.lynx.divCount)

/-! ### Beaver (10) -/

/-- Tasks start and retire (10 R379 to R385). A fetch comes to the tenant whose turn it is and takes its next record into the lowest free
slot, ready where no predecessor is pending, and ended with PHASE_CUT where its phase has passed (DEDUCED, log 26); a cancelled task takes no
slot. An idle usable core starts the first part of its list, its store zeroed for another tenant's first task (08 R304). An ENGINE task's
request is read from device DRAM, a range outside the lease or poisoned being a program fault (08 R326), and goes to its engine; a SIGNAL
task retires at once, and a complete task retires when its group is free, which frees its slot and releases its successors, and is held
otherwise. -/
def Obligations.TasksStartAndRetire : Prop :=
  ∀ (s : State) (k : Fin 16) (d : Sched), s.Inv → s.held = false → s.halted = false → d = (s.tenant k).sched →
    (s.fetchNext ≠ some k → exec (.taskFetch k) s = .next (settle s)) ∧
    (∀ i, i = d.nextFetch → s.fetchNext = some k → ∃ t, exec (.taskFetch k) s = .next t ∧ t.frame.fetchTurn = (k.val + 1) % 16 ∧
      (i ∈ d.cancelled → (t.tenant k).sched.nextFetch = i + 1 ∧ (t.tenant k).sched.tasks = d.tasks) ∧
      (i ∉ d.cancelled → (t.tenant k).sched.nextFetch = i + 1) ∧
      (i ∉ d.cancelled → d.pendingPreds i ≠ 0 →
        (t.tenant k).sched.tasks.map (·.index) = d.tasks.map (·.index) ++ [i] ∧
        ∃ x ∈ (t.tenant k).sched.tasks, x.index = i ∧ x.st = .blocked ∧ x.slot = s.freeSlot) ∧
      (i ∉ d.cancelled → d.pendingPreds i = 0 → s.phasePassed (trPhase (d.rec' i)) = true →
        ∀ x ∈ (t.tenant k).sched.tasks, x.index = i → x.st = .complete ∧ x.status = codePhaseCut) ∧
      (i ∉ d.cancelled → d.pendingPreds i = 0 → s.phasePassed (trPhase (d.rec' i)) = false → trKind (d.rec' i) ≠ 0 →
        ∀ x ∈ (t.tenant k).sched.tasks, x.index = i → x.st = .ready ∧ x.readyAt = s.now) ∧
      (i ∉ d.cancelled → d.pendingPreds i = 0 → s.phasePassed (trPhase (d.rec' i)) = false → trKind (d.rec' i) = 0 → s.served k →
        s.unitsOfTask k i ≠ [] → (t.tenant k).sched.tasks.map (·.index) = d.tasks.map (·.index) ++ [i] ∧
        ∀ x ∈ (t.tenant k).sched.tasks, x.index = i → x.st = .ready ∧ x.partsLeft = (s.unitsOfTask k i).length)) ∧
    (∀ (c : Fin 48) p rest, s.frame.inFrame = true → s.frame.opening = false → s.usable .core c.val = true → (s.core c.val).run = none →
      (s.core c.val).ready = p :: rest → ∃ t, exec (.computePartStart c) s = .next t ∧
        (t.core c.val).owner = some p.tenant ∧ (t.core c.val).parts = min 65535 ((s.core c.val).parts + 1) ∧
        (s.listFault c.val p = none → (t.core c.val).ready = rest ∧
          (t.core c.val).run = some (startRun p s.now (s.unitAddrs c.val p) (s.bandShape p).1 (s.bandShape p).2) ∧
          (t.core c.val).store = (if (s.core c.val).owner = some p.tenant then (s.core c.val).store else []) ∧
          ∀ x ∈ (t.tenant p.tenant).sched.tasks, x.index = p.task → x.st = .started) ∧
        (s.listFault c.val p ≠ none → (t.core c.val).run = none ∧ (t.tenant p.tenant).sched.tasks = [] ∧
          (t.tenant p.tenant).out.aborted = true)) ∧
    (∀ i e, s.readyTask k i 1 = true → s.readRequest k i = .error e → ∃ t, exec (.engineTaskIssue k i) s = .next t ∧
      (t.tenant k).sched.tasks = [] ∧ (t.tenant k).out.aborted = true ∧ (t.tenant k).faults = min 255 ((s.tenant k).faults + 1)) ∧
    (∀ i b home, s.readyTask k i 1 = true → s.readRequest k i = .ok b → home = trHome (d.rec' i) % 8 →
      ∃ t, exec (.engineTaskIssue k i) s = .next t ∧
        (home = 0 → (s.tenant k).search.front = .notRun → (s.tenant k).search.ended = none →
          (t.tenant k).search.front = .requested ∧ (t.tenant k).search.frontTask = i) ∧
        (home = 1 → (t.tenant k).sel.issued = (s.tenant k).sel.issued ++ [(i, trPhase (d.rec' i), b)]) ∧
        (home = 2 → (t.tenant k).solver.issued = (s.tenant k).solver.issued ++ [(i, b)]) ∧
        (home = 1 ∨ home = 2 → ∀ x ∈ (t.tenant k).sched.tasks, x.index = i → x.st = .started ∧ x.startAt = s.now) ∧
        (home = 3 → s.served k → d.groupFree i = true → (∀ c ∈ (s.tenant k).table.cands.map (·.1), u32At b 8 ≤ c → c ≤ u32At b 12 →
          s.inBadger k c = false) → i ∈ (t.tenant k).sched.retired) ∧
        (3 < home → d.groupFree i = true → linkRequestBad (padTo 32 b) = true → i ∈ (t.tenant k).sched.retired) ∧
        (3 < home → linkRequestBad (padTo 32 b) = false → byteAt (padTo 32 b) 0 = 2 →
          s.inLease k (u64At (padTo 32 b) 8) (u32At (padTo 32 b) 4) = true →
          t.cascade.nextTag = s.cascade.nextTag + cdiv (u32At (padTo 32 b) 4) 256)) ∧
    (∀ i, s.readyTask k i 4 = true → d.groupFree i = true → ∃ t, exec (.signalTask k i) s = .next t ∧
      i ∈ (t.tenant k).sched.retired ∧ ∀ x ∈ (t.tenant k).sched.tasks, x.index ≠ i) ∧
    ∀ i x, d.task i = some x → x.st = .complete → ∃ t, exec (.taskRetire k i) s = .next t ∧
      (d.groupFree i = true → i ∈ (t.tenant k).sched.retired ∧ i ∈ (t.tenant k).sched.released ∧
        ∀ y ∈ (t.tenant k).sched.tasks, y.index ≠ i) ∧
      (d.groupFree i = false → d.firstSatisfied = none →
        (t.tenant k).sched.tasks = d.tasks ∧ (t.tenant k).sched.retired = d.retired)

/-- Waits, timers, edges and the deadlock (10 R387 to R393, R398, R399). A WAIT that its flags satisfy ends at once, retiring where its group
is free, and otherwise waits until the earlier of its time-out and its phase's deadline, with a full delay list holding it ready. At a
time-out of its own time comes to it, it retires with WAIT_TIMEOUT and CANCEL cancels all that depend on it; one that is its phase's deadline
passes with the deadline. A TIMER task arms, re-arms or cancels its timer; time comes to a due timer before D_7 and it fires, a periodic one
re-arming from its due time; a latched detector is delivered as its flag; and at the 64th edge of a deadlock every task is aborted. What else
would fall due meanwhile comes first, so a premise of the statements about time says that nothing does. -/
def Obligations.WaitsTimersAndEdgesFire : Prop :=
  ∀ (s : State) (k : Fin 16) (d : Sched), s.Inv → s.held = false → s.halted = false → d = (s.tenant k).sched →
    (∀ i w, s.readyTask k i 2 = true → w = d.rec' i →
      (trTimeout w ≠ 0 → 512 ≤ d.delayUsed → exec (.waitStart k i) s = .next (settle s)) ∧
      ((trTimeout w = 0 ∨ d.delayUsed < 512) → d.firstSatisfied = none → ∃ t, exec (.waitStart k i) s = .next t ∧
        (satisfied d.flags w = false → ∀ x ∈ (t.tenant k).sched.tasks, x.index = i → x.st = .waiting ∧ x.deadlineUs =
          if trTimeout w = 0 then s.deadlineAt (trPhase w) else min (s.now + trTimeout w) (s.deadlineAt (trPhase w))) ∧
        (satisfied d.flags w = true → d.groupFree i = true → i ∈ (t.tenant k).sched.retired) ∧
        (satisfied d.flags w = true → d.groupFree i = false → ∀ x ∈ (t.tenant k).sched.tasks, x.index = i →
          x.st = .complete ∧ x.status = codeOk ∧ x.took = consumed d.flags w))) ∧
    (∀ i x, d.task i = some x → x.st = .waiting → (s.delayRuns k = false → exec (.waitTimeout k i) s = .next (settle s)) ∧
      (∀ T, T = max s.now x.deadlineUs → s.delayRuns k = true → s.mayExpire k x = true → x.deadlineUs < s.deadlineAt 7 →
        d.firstSatisfied = none → s.othersLater k T → (∀ y ∈ d.timers, T < s.now + (y.due - s.schedTime)) →
        (∀ y ∈ d.tasks, s.mayExpire k y = true → y ≠ x → T < y.deadlineUs ∧ y.index ≠ i) →
        (s.deadTest k = true ∨ 64 ≤ d.deadEdges → T < s.now + (64 - d.deadEdges)) →
        ∃ t, exec (.waitTimeout k i) s = .next t ∧ t.now = T ∧ (t.tenant k).sched.waitTimeouts = min 65535 (d.waitTimeouts + 1) ∧
          (d.groupFree i = true → i ∈ (t.tenant k).sched.retired) ∧
          (trCancel (d.rec' i) = true →
            ∀ j ∈ d.dependants (d.succs i), j ∈ (t.tenant k).sched.cancelled ∨ j ∈ (t.tenant k).sched.retired)) ∧
      (∀ ph, ph = trPhase (d.rec' i) → s.delayRuns k = true → s.mayExpire k x = false → ∃ t, exec (.waitTimeout k i) s = .next t ∧
        t.frame.passed = ph + 1 ∧
        (ph = s.frame.passed → (∀ y ∈ d.tasks, y.index = i → y.deadlineUs = s.deadlineAt ph) →
          ∀ y ∈ (t.tenant k).sched.tasks, y.index = i → y.st ≠ .waiting))) ∧
    (∀ i w id, s.readyTask k i 3 = true → w = d.rec' i → id = bits (trWork w) 5 0 →
      (trTimeout w = 0 ∨ (d.timers.any fun y => y.id = id) = true ∨ d.delayUsed < 512) → ∃ t, exec (.timerTask k i) s = .next t ∧
        (d.groupFree i = true → i ∈ (t.tenant k).sched.retired) ∧
        (t.tenant k).sched.timers = (d.timers.filter fun y => y.id ≠ id) ++ (if trTimeout w = 0 then [] else
          [⟨id, s.schedTime + trTimeout w, trTimerFlag w, trPeriod w, d.timerSeq, s.frame.seq⟩])) ∧
    (∀ (id : Fin 64) x T, (d.timers.find? fun y => y.id = id.val) = some x → T = s.now + (x.due - s.schedTime) →
      (s.delayRuns k = false ∨ s.deadlineAt 7 ≤ T → exec (.timerFire k id) s = .next (settle s)) ∧
      (s.delayRuns k = true → T < s.deadlineAt 7 → s.schedTime ≤ x.due → d.deadEdges < 64 → s.othersLater k T →
        (∀ y ∈ d.timers, y ≠ x → y.id ≠ id.val ∧ T < s.now + (y.due - s.schedTime)) →
        (∀ y ∈ d.tasks, s.mayExpire k y = true → T < y.deadlineUs) → d.unawaited x.flag →
        ∃ t, exec (.timerFire k id) s = .next t ∧ t.now = T ∧ x.flag ∈ (t.tenant k).sched.flags ∧
          (t.tenant k).sched.timers = (d.timers.filter fun y => y.id ≠ id.val) ++
            (if x.period = 0 then [] else [{ x with due := x.due + x.period, seq := d.timerSeq }]))) ∧
    (∀ e : Fin 32, d.running = true → s.frame.inFrame = true → s.frame.opening = false → s.frame.passed < 8 →
      (d.detectors.at' e).latched = true → ∃ t, exec (.edgeDeliver k e) s = .next t ∧
        (detSource (d.detectors.at' e).cfg ≠ 2 → detSource (d.detectors.at' e).cfg ≠ 4 →
          (t.tenant k).sched.detectors.at' e = { d.detectors.at' e with latched := false }) ∧
        (d.unawaited (detFlag (d.detectors.at' e).cfg) → detFlag (d.detectors.at' e).cfg ∈ (t.tenant k).sched.flags)) ∧
    (∀ T, (64 ≤ d.deadEdges ∧ T = s.now ∧ s.frame.passed < 8 ∨ d.deadEdges < 64 ∧ T = s.now + (64 - d.deadEdges) ∧
        s.delayRuns k = true ∧ s.deadTest k = true ∧ d.firstSatisfied = none ∧ s.othersLater k T ∧
        ∀ y ∈ d.tasks, s.mayExpire k y = true → T < y.deadlineUs) → T < s.deadlineAt 7 →
      ∃ t, exec (.deadlock k) s = .next t ∧ t.now = T ∧ (t.tenant k).sched.tasks = [] ∧ (t.tenant k).sched.running = false ∧
        (t.tenant k).sched.abortCode = codeDeadlock ∧ (t.tenant k).out.aborted = true ∧ (t.tenant k).sched.timers = d.timers ∧
        (mget 0 t.attn.latch (tenantPage k)).getLsbD 2 = true)

/-! ### Bear, Jay and the cores (06, 07, 08, 09) -/

/-- Bear (06). SMOOTH refuses a request that is short or has a bad field, and otherwise queues its slots to the usable units in their order,
or reports them UNIT_FENCED where there is none (06 R230 to R232, R263). A unit that is not stalled starts its next slot, assembling the
problem of a CLEAR plan, refusing any other source with BAD_DESCRIPTOR and faulting on a poisoned record (05 R214; 06 R233; 19 R729); each
iteration moves the iterate or finds it ill-posed, at its cost in cycles (06 R249, R251, R255), and is the last of a solve that its deadline
has stopped (06 R256); and the end frees the unit, finishes the slot, counts it and puts a converged plan into the table (06 R253, R254,
R257). The binary values are the model's reading of the formulas, logs 41 and 45. Jay (07). SELECT refuses a request with short lengths or a
bad field and counts it, deals others to the usable units in turn, counting a FINAL and a group's instance, waits while the unit's queue
holds 16, and ends with UNIT_FENCED where no unit is usable (07 R267, R271, R290; 15 R586); a free unit takes the head of its queue and
begins its snapshot, or takes up the one a lost unit had begun (07 R268, R290); each pass takes a piece or a tile, and one past its deadline
ends the request (07 R284); and the result of a finished selection is counted, a FINAL's first entry kept (07 R282, R287, R288). -/
def Obligations.SolverAndSelectionTakeTheirSteps : Prop :=
  (∀ s : State, s.Inv → s.held = false → s.halted = false →
    (∀ k task b rest, (s.tenant k).solver.issued = (task, b) :: rest → ∃ t, exec (.smooth k) s = .next t ∧
      (s.smoothShort k b = true ∨ s.smoothBad k b = true →
        (s.served k → (t.tenant k).solver = { (s.tenant k).solver with issued := rest }) ∧
        ∀ x, (s.tenant k).sched.task task = some x →
          ((s.tenant k).sched.groupFree task = true → task ∈ (t.tenant k).sched.retired) ∧
          ((s.tenant k).sched.groupFree task = false → ∀ y ∈ (t.tenant k).sched.tasks, y.index = task →
            y.st = .complete ∧ y.status = if s.smoothShort k b then codeLength else codeBad)) ∧
      (s.smoothShort k b = false → s.smoothBad k b = false → ∀ us, us = s.usableOf k .bear →
        (us = [] → (t.tenant k).solver.other = (s.tenant k).solver.other + smCount b) ∧
        (us ≠ [] → (t.tenant k).solver.issued = rest ∧
          (t.tenant k).solver.slots.map (fun x => (x.slot, x.source, x.report, x.task, x.unit.val, x.st)) =
            (s.tenant k).solver.slots.map (fun x => (x.slot, x.source, x.report, x.task, x.unit.val, x.st)) ++
              (List.range (smCount b)).map fun i => (smStart b + i, u32At b (32 + 4 * i), u64At b 8 + i * s.reportSize k, task,
                lget 0 us ((smStart b + i) % us.length) % 2, .queued)))) ∧
    (∀ (u : Fin 2) k x, s.frame.inFrame = true → s.frame.opening = false → s.phasePassed 5 = false → (s.bear u).view.serves = true →
      (s.bear u).solve = none → s.bearStalled u = false → s.nextSlot u = some (k, x) → ∃ t, exec (.solveStart u) s = .next t ∧
        ((∀ c, (s.tenant k).table.cand x.source = some c → (s.tenant k).table.isClear (s.candBase k) x.source = false ∨
            s.candQuota k ≤ x.source ∨ c.kind = 2 ∨ c.mode = 3) →
          (t.bear u).solve = none ∧ (t.tenant k).solver.other = (s.tenant k).solver.other + 1 ∧
          ∀ y ∈ (t.tenant k).solver.slots, y.slot = x.slot → y.st = .finished) ∧
        ∀ c, (s.tenant k).table.cand x.source = some c → (s.tenant k).table.isClear (s.candBase k) x.source = true →
          x.source < s.candQuota k → c.kind ≠ 2 → c.mode ≠ 3 →
          (s.candPoisoned k x.source = true → (t.bear u).solve = none ∧ (t.tenant k).out.aborted = true) ∧
          (s.candPoisoned k x.source = false →
            (t.bear u).solve = some (s.assemble k x c) ∧ (∀ y ∈ (t.tenant k).solver.slots, y.slot = x.slot → y.st = .running) ∧
            (t.tenant k).solver.cycles = (s.tenant k).solver.cycles + (1000 + 16 * (s.assemble k x c).z.length))) ∧
    (∀ (u : Fin 2) v, (s.bear u).solve = some v → v.illPosed = false → v.done < v.iters →
      ∃ t, exec (.solveIteration u) s = .next t ∧
        (v.stop = false ∨ v.iterate.illPosed = true → (t.bear u).solve = some v.iterate ∧
          (t.tenant v.tenant).solver.cycles = (s.tenant v.tenant).solver.cycles + (if v.fp64 then
            400 + 12 * v.z.length + 4 * (17 * v.stages + 5) else
            400 + 6 * v.z.length + 2 * (17 * v.stages + 5) + (v.iterate.refines - v.refines) * (100 + v.z.length))) ∧
        (v.stop = true → v.iterate.illPosed = false → (t.bear u).solve = none ∧ ∀ x, s.slotOfSolve v = some x →
          (t.tenant v.tenant).solver.other = (s.tenant v.tenant).solver.other + 1 ∧
          ∀ y ∈ (t.tenant v.tenant).solver.slots, y.slot = v.slot → y.st = .finished)) ∧
    ∀ (u : Fin 2) v, (s.bear u).solve = some v →
      (v.illPosed = false → v.stop = false → v.done < v.iters → exec (.solveEnd u) s = .next (settle s)) ∧
      (v.illPosed = true ∨ v.stop = true ∨ v.iters ≤ v.done → ∃ t, exec (.solveEnd u) s = .next t ∧ (t.bear u).solve = none ∧
        ∀ x, s.slotOfSolve v = some x → (∀ y ∈ (t.tenant v.tenant).solver.slots, y.slot = v.slot → y.st = .finished) ∧
          (v.illPosed = true → (t.tenant v.tenant).solver.illPosed = (s.tenant v.tenant).solver.illPosed + 1) ∧
          (v.illPosed = false → v.stop = true → (t.tenant v.tenant).solver.other = (s.tenant v.tenant).solver.other + 1) ∧
          (v.illPosed = false → v.stop = false →
            (t.tenant v.tenant).solver.solved + (t.tenant v.tenant).solver.notConverged + (t.tenant v.tenant).solver.illPosed =
              (s.tenant v.tenant).solver.solved + (s.tenant v.tenant).solver.notConverged + (s.tenant v.tenant).solver.illPosed + 1) ∧
          ∀ md, md = (s.tenant v.tenant).solver.model → v.illPosed = false → v.stop = false → v.stuck (md.field v.fmt 10) = false →
            fpLe v.fmt (normInf v.fmt v.rp) (md.field v.fmt 10) = true → fpLe v.fmt (normInf v.fmt v.rd) (md.field v.fmt 11) = true →
            fpLe v.fmt v.mu (md.field v.fmt 12) = true →
            (t.tenant v.tenant).solver.solved = (s.tenant v.tenant).solver.solved + 1 ∧
            ∀ c, (s.tenant v.tenant).table.cand v.source = some c → (t.tenant v.tenant).table.cand (64 + v.slot) =
              some (s.smoothedCand v c (fpConv v.fmt fp32 v.objective)))) ∧
  (∀ s : State, s.Inv → s.held = false → s.halted = false →
    (∀ k task ph b rest w, (s.tenant k).sel.issued = (task, ph, b) :: rest → w = BitVec.ofNat 512 (leNat (padTo 64 b)) →
      ∃ t, exec (.select k) s = .next t ∧
        (selectShort w = true ∨ s.selectBad k ph w = true → (s.served k → (t.tenant k).sel.issued = rest) ∧
          (t.tenant k).sel.other = (s.tenant k).sel.other + 1 ∧ (t.tenant k).sel.finalIssued = (s.tenant k).sel.finalIssued ∧
          ∀ x, (s.tenant k).sched.task task = some x →
            (s.tenant k).sched.groupFree task = true → task ∈ (t.tenant k).sched.retired) ∧
        (selectShort w = false → s.selectBad k ph w = false → ∀ us u, us = s.usableOf k .jay →
          u = lget 0 us ((s.tenant k).sel.dealt % us.length) →
          (us = [] → s.inLease k (sqOut w) 32 = true → (t.tenant k).sel.other = (s.tenant k).sel.other + 1 ∧
            (sqFinal w = true → (t.tenant k).sel.finalResult = some none)) ∧
          (us ≠ [] → 16 ≤ (s.jay u).queue.length → t = settle s) ∧
          (us ≠ [] → (s.jay u).queue.length < 16 → (t.tenant k).sel.issued = rest ∧
            (t.tenant k).sel.dealt = (s.tenant k).sel.dealt + 1 ∧
            (t.tenant k).sel.finalIssued = ((s.tenant k).sel.finalIssued || sqFinal w) ∧
            (sqGroup w ≠ 0 → (t.tenant k).sel.collCount (sqGroup w) = (s.tenant k).sel.collCount (sqGroup w) + 1) ∧
            (t.jay u).queue = (s.jay u).queue ++ [⟨k, task, ph, w, (s.tenant k).sel.collCount (sqGroup w), none⟩]))) ∧
    (∀ (u : Fin 4) q rest, s.frame.inFrame = true → s.frame.opening = false → (s.jay u).view.serves = true → (s.jay u).run = none →
      (s.jay u).queue = q :: rest → ∃ t, exec (.selectStart u) s = .next t ∧
        (sqGroup q.word ≠ 0 → s.cascade.masterLost = true → (t.jay u).run = none) ∧
        (sqGroup q.word = 0 ∨ s.cascade.masterLost = false →
          (∀ n es, q.snap = some (n, es) → (t.jay u).queue = rest ∧ ∃ r, (t.jay u).run = some r ∧ r.req = q ∧ r.tiles = 0 ∧
            r.failed = none ∧ r.snapped = n ∧ r.entries = es) ∧
          (q.snap = none → s.selPoisoned q.tenant q.word 0 = true → (t.jay u).run = none ∧ (t.tenant q.tenant).out.aborted = true) ∧
          (q.snap = none → s.selPoisoned q.tenant q.word 0 = false → (t.jay u).queue = rest ∧
            ∃ r, (t.jay u).run = some r ∧ r.req = q ∧ r.tiles = 0 ∧ r.failed = none ∧ r.v = s.segmentsFor q.tenant (sqRow q.word) ∧
              r.snapped = (if sqTensor q.word then sqRow q.word else min (sqRow q.word) 65536) ∧
              r.entries = if sqTensor q.word then s.tensorRow q.word else s.snapshotPiece q.tenant q.word 0))) ∧
    (∀ (u : Fin 4) r, (s.jay u).view.serves = true → (s.jay u).run = some r → ∃ t, exec (.selectPass u) s = .next t ∧
      (r.stop = true ∨ r.failed.isSome = true → (t.jay u).run = none) ∧
      (r.stop = false → r.failed = none → sqGroup r.req.word = 0 →
        (r.complete = true → t = settle s) ∧
        (∀ i, r.snapDone = true → r.pass = some i → r.tiles < (i + 1) * r.perPass →
          (t.jay u).run = some { r with tiles := r.tiles + 1 }) ∧
        (r.snapDone = false → sqTensor r.req.word = false → s.selPoisoned r.req.tenant r.req.word r.snapped = false →
          (t.jay u).run = some { r with
            snapped := min (sqRow r.req.word) (r.snapped + 65536),
            entries := r.entries ++ s.snapshotPiece r.req.tenant r.req.word r.snapped }))) ∧
    ∀ (u : Fin 4) r, (s.jay u).run = some r → ∃ t, exec (.selectResult u) s = .next t ∧
      (r.failed.isSome = true ∨ r.complete = true → (t.jay u).run = none) ∧
      (r.failed = none → r.complete = false → t = settle s) ∧
      (r.failed = none → r.complete = true → r.stop = true → s.inLease r.req.tenant (sqOut r.req.word) 32 = true →
        (t.tenant r.req.tenant).sel.cut = (s.tenant r.req.tenant).sel.cut + 1 ∧
        (t.tenant r.req.tenant).sel.finalResult = (s.tenant r.req.tenant).sel.finalResult) ∧
      ∀ x, x = (if sqGroup r.req.word = 0 then r.localResult else r.groupResult) → r.failed = none → r.complete = true → r.stop = false →
        s.inLease r.req.tenant (sqOut r.req.word) x.2.2.2.2.length = true →
        (t.tenant r.req.tenant).sel.ok = (s.tenant r.req.tenant).sel.ok + 1 ∧
        (t.tenant r.req.tenant).sel.approx = (s.tenant r.req.tenant).sel.approx + (if x.2.2.1 = 0 then 0 else 1) ∧
        (sqFinal r.req.word = true → (t.tenant r.req.tenant).sel.finalResult = some x.2.2.2.1))

/-- A core's part (08 R297, R303, R309, R311, R324; 09 R343, R349, R351, R356, R368), a step at a time. A reduction step without a fault adds
its products, in ascending order, to the tile's accumulators, here and in the core store, and counts; the epilogue of a complete tile stores
it, keeps it as a band or hands it on to be sent, and the next tile takes the other accumulator half; a score-tile step and the final division
carry a SOFTMAX chain on; a GEMM without a column goes on with the second GEMM of its chain or ends; a part that is no GEMM ends whole; and a
range outside the lease, poisoned data, a bad pointer-list entry or a bad gather index faults the part (08 R317, R326; 09 R340; 19 R728). A
part that its deadline has stopped ends at the next boundary with its tile discarded (08 R331). A finished tile goes to its peer in its turn:
into the ring of a core, setting the flag, into the converter unless it stalls, or piece by piece over a link that accepts it (09 R356 to
R361). The accumulators' places in the store are a DESIGN CHOICE, log 128. -/
def Obligations.CoresStepAndSend : Prop :=
  ∀ (s : State) (c : Fin 48) (r : Run) (d : Sched) (p : ProgramImage), s.Inv → s.held = false → s.halted = false →
    (s.core c).run = some r → d = (s.tenant r.part.tenant).sched → d.image = some p →
    (r.outgoing.isSome = true → exec (.gemmTileStep c) s = .next (settle s)) ∧
    (r.outgoing = none → r.finished = true → s.answered r.part → ∃ t, exec (.gemmTileStep c) s = .next t ∧ (t.core c).run = none) ∧
    (r.outgoing = none → r.finished = false → p.gemms[trWork (d.rec' r.part.task)]? = none →
      ∃ t, exec (.gemmTileStep c) s = .next t ∧ (t.core c).run = none ∧ (t.core c).steps = (s.core c).steps + 1) ∧
    (∀ w g g2 h soft tile, r.outgoing = none → r.finished = false → p.gemms[trWork (d.rec' r.part.task)]? = some w →
      g = d.gemmCtx p w r.addrs r.part.unit → g2 = d.chainCtx p g → h = (if r.second then g2 else g) → soft = decide (fuChain g.f = 2) →
      tile = s.outTile h h.fmt r.col r.acc →
      (∀ n rd acc, r.second = false ∨ soft = false → r.closing = false → r.col < h.tiles → n = h.cols r.col →
        rd = s.operandRanges h r.col r.kStep (! r.second) ++ (if h.accInit && h.stores && r.kStep = 0 then
          (List.range h.rows).map fun i => (h.c + (h.row0 + i) * h.ldc + 4 * h.col0 r.col, 4 * n) else []) →
        acc = s.reduceTile h r.col r.kStep (fun i k => if r.second then operand h.fmt (lget 0 r.band (i * h.k + k)).toNat else
          s.aVal h (h.row0 + i) k) (if r.kStep = 0 then s.accStart h h.stores r.col else r.acc) →
        ∃ t, exec (.gemmTileStep c) s = .next t ∧
          (s.entryFault r.part.tenant h = true ∨ r.second = false ∧ s.gatherFault h = true ∨
            s.rangeFault r.part.tenant rd [] ≠ none → PartFaulted t c r.part) ∧
          (s.entryFault r.part.tenant h = false → (r.second = true ∨ s.gatherFault h = false) → s.rangeFault r.part.tenant rd [] = none →
            (t.core c).steps = (s.core c).steps + 1 ∧ (t.core c).busy = (s.core c).busy + h.stepCycles r.col r.kStep ∧
            (t.core c).store = ((s.core c).putAcc h r.half n acc).store ∧
            (r.stop = false → t.dram = s.dram ∧ (t.core c).run =
              some { r with kStep := r.kStep + 1, acc := acc, closing := decide (h.steps ≤ r.kStep + 1) }) ∧
            (r.stop = true → s.answered r.part → (t.core c).run = none))) ∧
      (∀ o, soft = false → r.closing = true → r.col < h.tiles → o = h.outRanges r.col h.stores → ∃ t, exec (.gemmTileStep c) s = .next t ∧
        (s.rangeFault r.part.tenant o.1 o.2 ≠ none → PartFaulted t c r.part) ∧
        (s.rangeFault r.part.tenant o.1 o.2 = none → r.stop = false → r.col + 1 < h.tiles →
          t.dram = (if h.stores then (s.storeTile c r.part h r.col tile).dram else s.dram) ∧
          (t.core c).run = some { r.nextTile with
            outgoing := s.toSend r h tile
            band := if ! r.second && fuChain h.f = 1 then bandPut h.rows (h.col0 r.col) (h.cols r.col) r.band tile else r.band }) ∧
        (s.rangeFault r.part.tenant o.1 o.2 = none → h.tiles ≤ r.col + 1 → r.second = true ∨ fuChain h.f ≠ 1 →
          s.toSend r h tile = none → s.answered r.part → (t.core c).run = none)) ∧
      (∀ o n sc, soft = true → r.second = false → r.closing = true → r.stop = false → r.col < g.tiles → n = g.cols r.col →
        sc = ((List.range (g.rows * n)).map fun x =>
          s.epilogue g g.fmt (lget 0 r.acc x) (g.row0 + x / n) (g.col0 r.col + x % n)) →
        o = (g.outRanges r.col false).1 ++ s.operandRanges g2 0 r.col false → s.rangeFault r.part.tenant o [] = none →
        ∃ t, exec (.gemmTileStep c) s = .next t ∧ t.dram = s.dram ∧ (t.core c).run = some (if g.tiles ≤ r.col + 1 then
          (s.softTile g2 g.rows n (g.col0 r.col) sc r).nextTile.beginSecond g2 true else
          (s.softTile g2 g.rows n (g.col0 r.col) sc r).nextTile)) ∧
      (soft = true → r.second = true → ∃ t, exec (.gemmTileStep c) s = .next t ∧
        (r.closing = false → r.stop = false → (t.core c).run = some { r with oAcc := softResult g2.rows g2.n r, closing := true }) ∧
        (∀ o x, r.closing = true → o = g2.outRanges 0 g2.stores → x = s.outTile g2 1 0 r.oAcc →
          s.rangeFault r.part.tenant o.1 o.2 = none →
          (∀ y, s.toSend r g2 x = some y → (t.core c).run = some { r with closing := false, outgoing := some y, finished := true } ∧
            t.dram = (if g2.stores then (s.storeTile c r.part g2 0 x).dram else s.dram)) ∧
          (s.toSend r g2 x = none → s.answered r.part → (t.core c).run = none))) ∧
      (r.second = false ∨ soft = false → h.tiles ≤ r.col → ∃ t, exec (.gemmTileStep c) s = .next t ∧
        (r.second = false → fuChain g.f ≠ 0 → (soft = true ∨ r.from' < g2.tiles) → r.stop = false →
          (t.core c).run = some (r.beginSecond g2 soft)) ∧
        (r.second = true ∨ fuChain g.f = 0 → s.answered r.part → (t.core c).run = none))) ∧
    ∀ o gi w f turn, r.outgoing = some o → gi = d.senderOf p r.part.task o.second → w = lget 0 p.gemms gi → f = fusionOf p w →
      turn = s.sendTurn (s.sendOrder r.part.tenant r.part.task (cdiv (extentOf d.dims (gdField w 8 4)) (gdField w 54 2))) (d.ring gi)
        r.part.task o.q (if fuPeer f = 1 then max 1 (fuField f 74 2) else 0) →
      (turn = false → exec (.peerSend c) s = .next (settle s)) ∧
      (∀ v, turn = true → fuPeer f = 1 → v = s.hostOf r.part.tenant (bits (fuField f 73 1) 5 0) → ∃ t, exec (.peerSend c) s = .next t ∧
        (s.usable .core v = false → PartFaulted t c r.part) ∧
        (s.usable .core v = true → d.unawaited (bits (fuField f 82 2) 9 0) → r.stop = false → r.finished = false →
          (t.core c).run = some { r with outgoing := none } ∧ bits (fuField f 82 2) 9 0 ∈ (t.tenant r.part.tenant).sched.flags ∧
          (t.core v).store = ((s.core v).putSlot (fuField f 76 4) (fuField f 74 2) (gdField w 52 2) (gdField w 54 2)
            (outSize (fuOut f)) o).store ∧
          (t.tenant r.part.tenant).sched.ring gi = { d.ring gi with
            sent := (d.ring gi).sent ++ [(r.part.task, o.q)]
            held := (d.ring gi).held ++ [(o.q, o.elems)] })) ∧
      (turn = true → fuPeer f = 2 →
        ((s.tenant r.part.tenant).table.stalls 1152 5248 = true → exec (.peerSend c) s = .next (settle s)) ∧
        ((s.tenant r.part.tenant).table.stalls 1152 5248 = false → r.stop = false → r.finished = false →
          ∃ t, exec (.peerSend c) s = .next t ∧ (t.core c).run = some { r with outgoing := none } ∧
            (t.tenant r.part.tenant).sched.ring gi = { d.ring gi with sent := (d.ring gi).sent ++ [(r.part.task, o.q)] } ∧
            (t.tenant r.part.tenant).search.fox = (s.tenant r.part.tenant).search.fox ++
              (List.range o.rows).map fun i => (o.row0 + i, (o.elems.drop (i * o.cols)).take o.cols))) ∧
      (∀ dest l, turn = true → fuPeer f = 3 → dest = BitVec.ofNat 16 (fuField f 80 2) →
        l = linkPieces f (gdField w 48 4) (outSize (fuOut f)) o →
        (s.reachable dest = false → ∃ t, exec (.peerSend c) s = .next t ∧ PartFaulted t c r.part) ∧
        (s.reachable dest = true → s.accepts dest = false → o.sent < l.length → exec (.peerSend c) s = .next (settle s)) ∧
        (s.reachable dest = true → dest ≠ s.pkgId → s.accepts dest = true → s.coreDma c < 32 → o.sent + 1 = l.length → r.stop = false →
          r.finished = false → ∃ t, exec (.peerSend c) s = .next t ∧ (t.core c).run = some { r with outgoing := none } ∧
            t.cascade.tags.length = s.cascade.tags.length + 1 ∧
            (t.tenant r.part.tenant).sched.ring gi = { d.ring gi with sent := (d.ring gi).sent ++ [(r.part.task, o.q)] }))
end

