-- ==== Sys2Proof/Laws/Maps.lean ====
section
/-! SUPPORT. What the named operations over maps, memory, clocks, Owl and the calendar keep. -/
namespace Sys2Proof.Machine
open Sys2Proof

variable {β : Type}

/-! ### Maps: a read after a write, and canonical forms -/

theorem mfind_mput_self (m : List (Nat × β)) (k : Nat) (v : β) : mfind (mput m k v) k = some v := by
  induction m with
  | nil => simp [mput, mfind]
  | cons x r ih =>
    obtain ⟨a, w⟩ := x
    simp only [mput]
    split
    · simp [mfind]
    · split
      · simp [mfind]
      · simp [mfind, *]

theorem mfind_mput_ne (m : List (Nat × β)) {k j : Nat} (h : j ≠ k) (v : β) : mfind (mput m k v) j = mfind m j := by
  induction m with
  | nil => simp [mput, mfind, h]
  | cons x r ih =>
    obtain ⟨a, w⟩ := x
    simp only [mput]
    split
    · rename_i hk
      simp only [mfind, if_neg h]
      by_cases hj : j < k
      · have h1 : j ≠ a := by omega
        have h2 : j < a := by omega
        simp [hj, h1, h2]
      · simp [hj]
    · split
      · rename_i hk
        subst hk
        simp [mfind, h]
      · simp only [mfind, ih]

theorem mfind_above (m : List (Nat × β)) (k : Nat) (h : ∀ x ∈ m, k < x.1) : mfind m k = none := by
  cases m with
  | nil => rfl
  | cons x r =>
    have := h x (by simp)
    obtain ⟨a, w⟩ := x
    simp only [mfind]
    have h1 : k ≠ a := by simp at this; omega
    simp_all

theorem mfind_mdel_self (m : List (Nat × β)) (k : Nat) : mfind (mdel m k) k = none := by
  induction m with
  | nil => rfl
  | cons x r ih =>
    obtain ⟨a, w⟩ := x
    unfold mdel at ih ⊢
    by_cases ha : a = k
    · simpa [ha] using ih
    · have h1 : k ≠ a := fun e => ha e.symm
      simp [ha, mfind, h1, ih]

theorem mfind_mdel_ne (m : List (Nat × β)) (hm : keysRise m) {k j : Nat} (h : j ≠ k) : mfind (mdel m k) j = mfind m j := by
  induction m with
  | nil => rfl
  | cons x r ih =>
    obtain ⟨a, w⟩ := x
    obtain ⟨ha, hr⟩ := List.pairwise_cons.mp hm
    have ih := ih hr
    unfold mdel at ih ⊢
    by_cases hk : a = k
    · subst hk
      simp only [List.filter_cons, bne_self_eq_false, Bool.false_eq_true, if_false, ih, mfind, if_neg h]
      split
      · exact mfind_above r j fun x hx => Nat.lt_trans ‹_› (ha x hx)
      · rfl
    · simp [hk, mfind, ih]

theorem mem_mput {m : List (Nat × β)} {k : Nat} {v : β} {x : Nat × β} (h : x ∈ mput m k v) : x = (k, v) ∨ x ∈ m := by
  induction m with
  | nil => simpa [mput] using h
  | cons y r ih =>
    obtain ⟨a, w⟩ := y
    simp only [mput] at h
    split at h
    · simpa using h
    · split at h
      · rcases List.mem_cons.mp h with h | h
        · exact .inl h
        · exact .inr (List.mem_cons_of_mem _ h)
      · rcases List.mem_cons.mp h with h | h
        · exact .inr (h ▸ List.mem_cons_self)
        · exact (ih h).imp id (List.mem_cons_of_mem _)

theorem keysRise_mput {m : List (Nat × β)} (h : keysRise m) (k : Nat) (v : β) : keysRise (mput m k v) := by
  induction m with
  | nil => simp [mput]
  | cons y r ih =>
    obtain ⟨a, w⟩ := y
    obtain ⟨ha, hr⟩ := List.pairwise_cons.mp h
    simp only [mput]
    split
    · refine List.pairwise_cons.mpr ⟨fun x hx => ?_, h⟩
      rcases List.mem_cons.mp hx with rfl | hx
      · assumption
      · exact Nat.lt_trans ‹_› (ha x hx)
    · split
      · rename_i hk
        subst hk
        exact List.pairwise_cons.mpr ⟨ha, hr⟩
      · refine List.pairwise_cons.mpr ⟨fun x hx => ?_, ih hr⟩
        rcases mem_mput hx with rfl | hx
        · simp only; omega
        · exact ha x hx

theorem keysRise_mdel {m : List (Nat × β)} (h : keysRise m) (k : Nat) : keysRise (mdel m k) := h.filter _

theorem mem_mset [DecidableEq β] {d : β} {m : List (Nat × β)} {k : Nat} {v : β} {x : Nat × β} (h : x ∈ mset d m k v) :
    x = (k, v) ∧ v ≠ d ∨ x ∈ m := by
  induction m with
  | nil =>
    simp only [mset] at h
    split at h
    · cases h
    · simp at h; exact .inl ⟨h, ‹_›⟩
  | cons y r ih =>
    obtain ⟨a, w⟩ := y
    simp only [mset] at h
    split at h
    · split at h
      · exact .inr h
      · rcases List.mem_cons.mp h with h | h
        · exact .inl ⟨h, ‹_›⟩
        · exact .inr h
    · split at h
      · split at h
        · exact .inr (List.mem_cons_of_mem _ h)
        · rcases List.mem_cons.mp h with h | h
          · exact .inl ⟨h, ‹_›⟩
          · exact .inr (List.mem_cons_of_mem _ h)
      · rcases List.mem_cons.mp h with h | h
        · exact .inr (h ▸ List.mem_cons_self)
        · exact (ih h).imp id (List.mem_cons_of_mem _)

theorem keysRise_mset [DecidableEq β] {d : β} {m : List (Nat × β)} (h : keysRise m) (k : Nat) (v : β) :
    keysRise (mset d m k v) := by
  induction m with
  | nil => simp only [mset]; split <;> simp
  | cons y r ih =>
    obtain ⟨a, w⟩ := y
    obtain ⟨ha, hr⟩ := List.pairwise_cons.mp h
    simp only [mset]
    split
    · split
      · exact h
      · refine List.pairwise_cons.mpr ⟨fun x hx => ?_, h⟩
        rcases List.mem_cons.mp hx with rfl | hx
        · assumption
        · exact Nat.lt_trans ‹_› (ha x hx)
    · split
      · rename_i hk
        subst hk
        split
        · exact hr
        · exact List.pairwise_cons.mpr ⟨ha, hr⟩
      · refine List.pairwise_cons.mpr ⟨fun x hx => ?_, ih hr⟩
        rcases mem_mset hx with ⟨rfl, -⟩ | hx
        · simp only; omega
        · exact ha x hx

theorem mget_above (d : β) (m : List (Nat × β)) (k : Nat) (h : ∀ x ∈ m, k < x.1) : mget d m k = d := by
  cases m with
  | nil => rfl
  | cons x r =>
    have := h x (by simp)
    obtain ⟨a, w⟩ := x
    simp only [mget]
    have h1 : k ≠ a := by simp at this; omega
    simp_all

/-- A read after a write to the same key. -/
theorem mget_mset_self [DecidableEq β] (d : β) {m : List (Nat × β)} (h : keysRise m) (k : Nat) (v : β) :
    mget d (mset d m k v) k = v := by
  induction m with
  | nil => simp only [mset]; split <;> simp_all [mget]
  | cons y r ih =>
    obtain ⟨a, w⟩ := y
    obtain ⟨ha, hr⟩ := List.pairwise_cons.mp h
    simp only [mset]
    split
    · split
      · subst v
        exact mget_above d _ k fun x hx => by
          rcases List.mem_cons.mp hx with rfl | hx
          · assumption
          · exact Nat.lt_trans ‹_› (ha x hx)
      · simp [mget]
    · split
      · rename_i hk
        subst hk
        split
        · subst v; exact mget_above d _ _ ha
        · simp [mget]
      · simp [mget, *]

/-- A read after a write to another key. -/
theorem mget_mset_ne [DecidableEq β] (d : β) {m : List (Nat × β)} (h : keysRise m) {k j : Nat} (hj : j ≠ k) (v : β) :
    mget d (mset d m k v) j = mget d m j := by
  induction m with
  | nil => simp only [mset]; split <;> simp [mget, hj]
  | cons y r ih =>
    obtain ⟨a, w⟩ := y
    obtain ⟨ha, hr⟩ := List.pairwise_cons.mp h
    simp only [mset]
    split
    · split
      · rfl
      · rename_i hk _
        simp only [mget, if_neg hj]
        by_cases h1 : j < k
        · have h2 : j ≠ a := by omega
          have h3 : j < a := by omega
          simp [h1, h2, h3]
        · simp [h1]
    · split
      · rename_i hk
        subst hk
        split
        · simp only [mget, if_neg hj]
          split
          · exact mget_above d r j fun x hx => Nat.lt_trans ‹_› (ha x hx)
          · rfl
        · simp [mget, hj]
      · simp only [mget, ih hr]

/-! ### Rising lists of indices -/

theorem mem_sinsert {l : List Nat} {k x : Nat} : x ∈ sinsert l k ↔ x = k ∨ x ∈ l := by
  induction l with
  | nil => simp [sinsert]
  | cons a r ih =>
    simp only [sinsert]
    split
    · simp
    · split
      · subst k; simp
      · simp only [List.mem_cons, ih]; tauto

theorem rise_sinsert {l : List Nat} (h : l.Pairwise (· < ·)) (k : Nat) : (sinsert l k).Pairwise (· < ·) := by
  induction l with
  | nil => simp [sinsert]
  | cons a r ih =>
    obtain ⟨ha, hr⟩ := List.pairwise_cons.mp h
    simp only [sinsert]
    split
    · refine List.pairwise_cons.mpr ⟨fun x hx => ?_, h⟩
      rcases List.mem_cons.mp hx with rfl | hx
      · assumption
      · exact Nat.lt_trans ‹_› (ha x hx)
    · split
      · exact h
      · refine List.pairwise_cons.mpr ⟨fun x hx => ?_, ih hr⟩
        rcases mem_sinsert.mp hx with rfl | hx
        · omega
        · exact ha x hx

theorem rise_sunion {l : List Nat} (h : l.Pairwise (· < ·)) (m : List Nat) : (sunion l m).Pairwise (· < ·) := by
  unfold sunion
  induction m generalizing l with
  | nil => exact h
  | cons a r ih => exact ih (rise_sinsert h a)

theorem mem_sunion {l m : List Nat} {x : Nat} : x ∈ sunion l m ↔ x ∈ l ∨ x ∈ m := by
  unfold sunion
  induction m generalizing l with
  | nil => simp
  | cons a r ih => simp only [List.foldl_cons, ih, mem_sinsert, List.mem_cons]; tauto

/-! ### The register files -/

theorem keysRise_filePut (c : Chip) {m : SMap Word} (h : keysRise m) (page off v : Nat) :
    keysRise (filePut c m page off v) := by
  unfold filePut
  split
  · exact keysRise_mdel h _
  · exact keysRise_mput h _ _

theorem keysRise_fileDrop {m : List (Nat × β)} (h : keysRise m) (page lo hi : Nat) : keysRise (fileDrop m page lo hi) :=
  h.filter _

theorem keysRise_changes (c : Chip) {m : SMap Word} (h : keysRise m) (l : List (Nat × Word)) :
    keysRise (l.foldl (fun m x => filePut c m (x.1 / 4096) (x.1 % 4096) x.2.toNat) m) := by
  induction l generalizing m with
  | nil => exact h
  | cons x r ih => exact ih (keysRise_filePut c h _ _ _)

/-- A register reads what was written to it, as a word. -/
@[simp] theorem State.live_setLive_self (s : State) (page off v : Nat) :
    (s.setLive page off v).live page off = v % 2 ^ 32 := by
  unfold State.setLive State.live filePut
  by_cases h : v % 2 ^ 32 = regReset s.chip page off
  · simp only [if_pos h, mfind_mdel_self]
    exact h.symm
  · simp only [if_neg h, mfind_mput_self, BitVec.toNat_ofNat]

/-- A write of one register leaves every other as it was. -/
theorem State.live_setLive_ne (s : State) (h : keysRise s.regs) {page off p o : Nat} (hk : regKey p o ≠ regKey page off)
    (v : Nat) : (s.setLive page off v).live p o = s.live p o := by
  unfold State.setLive State.live filePut
  by_cases e : v % 2 ^ 32 = regReset s.chip page off
  · simp only [if_pos e, mfind_mdel_ne _ h hk]
  · simp only [if_neg e, mfind_mput_ne _ hk]

/-! ### Device DRAM -/

theorem Memory.wf_mset {m : List Host.Cell} (h : Memory.wf m) (a : Nat) (b : Byte) : Memory.wf (mset 0 m a b) :=
  ⟨keysRise_mset h.1 a b, fun c hc => by
    rcases mem_mset hc with ⟨rfl, hb⟩ | hc
    · exact hb
    · exact h.2 c hc⟩

/-- Every write of memory keeps its canonical form. -/
theorem Memory.wf_bytesPut {m : List Host.Cell} (h : Memory.wf m) (a : Nat) (bs : List Byte) :
    Memory.wf (bytesPut m a bs) := by
  induction bs generalizing m a with
  | nil => exact h
  | cons b r ih => exact ih (Memory.wf_mset h a b) _

/-- A byte outside a write reads as before. -/
theorem mget_bytesPut_out {m : List Host.Cell} (h : Memory.wf m) (a : Nat) (bs : List Byte) {x : Nat}
    (hx : x < a ∨ a + bs.length ≤ x) : mget 0 (bytesPut m a bs) x = mget 0 m x := by
  induction bs generalizing m a with
  | nil => rfl
  | cons b r ih =>
    have hne : x ≠ a := by simp at hx; omega
    show mget 0 (bytesPut (mset 0 m a b) (a + 1) r) x = _
    rw [ih (Memory.wf_mset h a b) (a + 1) (by simp at hx; omega), mget_mset_ne 0 h.1 hne]

/-- A byte inside a write reads the byte written. -/
theorem mget_bytesPut_in {m : List Host.Cell} (h : Memory.wf m) (a : Nat) (bs : List Byte) (i : Nat) (hi : i < bs.length) :
    mget 0 (bytesPut m a bs) (a + i) = bs[i] := by
  induction bs generalizing m a i with
  | nil => cases hi
  | cons b r ih =>
    show mget 0 (bytesPut (mset 0 m a b) (a + 1) r) (a + i) = _
    cases i with
    | zero =>
      rw [mget_bytesPut_out (Memory.wf_mset h a b) (a + 1) r (by omega)]
      exact mget_mset_self 0 h.1 a b
    | succ i =>
      have := ih (Memory.wf_mset h a b) (a + 1) i (by simpa using hi)
      rw [show a + (i + 1) = a + 1 + i by omega, this]
      rfl

theorem Dram.ok_write {d : Dram} (a : Nat) (bs : List Byte) (h : d.ok) : (d.write a bs).ok :=
  ⟨Memory.wf_bytesPut h.1 a bs, h.2.1.filter _, h.2.2⟩

theorem Dram.ok_heal {d : Dram} (f : Nat → Bool) (h : d.ok) :
    Dram.ok { bytes := d.bytes, poison := d.poison.filter f, writeBack := d.writeBack, selfRefresh := d.selfRefresh } :=
  ⟨h.1, h.2.1.filter _, h.2.2⟩

theorem Dram.ok_poison {d : Dram} (k : Nat) (h : d.ok) :
    Dram.ok { bytes := d.bytes, poison := sinsert d.poison k, writeBack := d.writeBack, selfRefresh := d.selfRefresh } :=
  ⟨h.1, rise_sinsert h.2.1 k, h.2.2⟩

theorem Dram.ok_written {d : Dram} (h : d.ok) :
    Dram.ok { bytes := d.bytes, poison := d.poison, writeBack := Vector.replicate 4 [], selfRefresh := d.selfRefresh } :=
  ⟨h.1, h.2.1, fun k => by simp [Bank.at']⟩

theorem Dram.ok_queued {d : Dram} (k b : Nat) (h : d.ok) :
    Dram.ok { bytes := d.bytes, poison := d.poison,
              writeBack := bupd d.writeBack k fun l => if 64 ≤ l.length then l else l ++ [b], selfRefresh := d.selfRefresh } := by
  refine ⟨h.1, h.2.1, fun j => ?_⟩
  show ((bupd d.writeBack k _).at' j).length ≤ 64
  unfold bupd
  split
  · rename_i hk
    by_cases e : (⟨k, hk⟩ : Fin 4) = j
    · subst e
      rw [Bank.at'_upd_self]
      have := h.2.2 ⟨k, hk⟩
      split
      · exact this
      · simp; omega
    · rw [Bank.at'_upd_ne _ e]
      exact h.2.2 j
  · exact h.2.2 j

theorem Dram.ok_reset : Dram.reset.ok := ⟨⟨by decide, by decide⟩, by decide, by decide⟩

/-! ### Clocks, Owl and the calendar -/

theorem Clock.switchAll_trimCode (c : Clock) (v : BitVec 2) : (c.switchAll v).trimCode = c.trimCode := rfl
theorem Clock.endSwitch_trimCode (c : Clock) (d : Domain) (v : BitVec 2) : (c.endSwitch d v).trimCode = c.trimCode := rfl
theorem Clock.offer_trimCode (c : Clock) (b : Nat) : (c.offer b).trimCode = c.trimCode := rfl
theorem Clock.startTrim_trimCode (c : Clock) : c.startTrim.trimCode = c.trimCode := rfl

theorem Owl.record_rollback (o : Owl) (secs : BitVec 64) (page : Nat) (event severity : Nat) (result : Byte) (unit : Nat)
    (data : List Byte) : (o.record secs page event severity result unit data).rollback = o.rollback := by
  unfold Owl.record
  split <;> rfl

theorem Owl.updBank_rollback (o : Owl) (b : Bool) (f : FwBank → FwBank) : (o.updBank b f).rollback = o.rollback := by
  unfold Owl.updBank
  split <;> rfl

theorem monthDays_pos (y m : Nat) : 1 ≤ monthDays y m := by
  unfold monthDays
  split <;> first | (split <;> omega) | omega

theorem Calendar.legal_tick {c : Calendar} (h : c.legal) : c.tick.legal := by
  obtain ⟨y, mo, d, hh, mi, se, secs, v, e, r, l⟩ := c
  simp only [Calendar.legal] at h
  unfold Calendar.tick Calendar.atEnd
  split
  · simpa [Calendar.legal] using h
  · rename_i hn
    simp only [Calendar.advance, Calendar.legal]
    simp only [Bool.and_eq_true, decide_eq_true_eq, not_and] at hn
    have m1 := monthDays_pos y (mo + 1)
    have m2 := monthDays_pos (y + 1) 1
    have m3 : monthDays y 12 = 31 := rfl
    split_ifs <;> simp only <;> (try (refine ⟨?_, ?_, ?_, ?_, ?_, ?_, ?_, ?_, ?_⟩)) <;> try omega
    by_cases hy : y = 2399
    · have : mo = 12 := by omega
      subst this
      have := hn ⟨⟨⟨⟨hy, rfl⟩, by omega⟩, by omega⟩, by omega⟩
      omega
    · omega

theorem Calendar.legal_reset : Calendar.reset.legal := by decide

theorem Calendar.legal_set {c : Calendar} {d t : Nat} (h : stagedOk d t = true) : (c.set d t).legal := by
  simp only [stagedOk, Bool.and_eq_true, decide_eq_true_eq] at h
  simp only [Calendar.set, Calendar.legal]
  omega

/-- Writing a value other than the default at one key leaves what every other key reads as, whatever the order of the keys. -/
theorem mget_mset_other {β : Type} [DecidableEq β] (d : β) (m : List (Nat × β)) {k j : Nat} (hj : j ≠ k) {v : β} (hv : v ≠ d) :
    mget d (mset d m k v) j = mget d m j := by
  induction m with
  | nil => simp [mset, mget, hv, hj]
  | cons x r ih =>
    obtain ⟨a, w⟩ := x
    simp only [mset, if_neg hv]
    split_ifs <;> simp only [mget] <;> split_ifs <;> first | omega | rfl

/-- A value other than the default is read back, whatever the order of the keys. -/
theorem mget_mset_same {β : Type} [DecidableEq β] (d : β) (m : List (Nat × β)) (k : Nat) {v : β} (hv : v ≠ d) :
    mget d (mset d m k v) k = v := by
  induction m with
  | nil => simp [mset, mget, hv]
  | cons x r ih =>
    obtain ⟨a, w⟩ := x
    simp only [mset, if_neg hv]
    split_ifs <;> simp only [mget] <;> split_ifs <;> first | omega | rfl

end Sys2Proof.Machine
end

