-- ==== Sys2Proof/Laws/Touches.lean ====
section
/-! SUPPORT. Which parts of the state every operation may change, and what it keeps of the ones it changes: one lemma per
operation, from the updates up to the commands. -/
set_option linter.unreachableTactic false
set_option linter.unusedTactic false
set_option linter.unusedVariables false
set_option linter.unusedSimpArgs false
namespace Sys2Proof.Machine
open Sys2Proof

/-- What an operation keeps of a part it may change: time, the draws, the doorbells and the rollback counter never fall, and the
clauses of the invariant stay. -/
def Part.kept (p : Part) (s t : State) : Prop :=
  match p with
  | .now => s.now ≤ t.now
  | .draws => s.draws ≤ t.draws
  | .doorbells => s.doorbells ≤ t.doorbells
  | .regs => keysRise s.regs → keysRise t.regs
  | .shadow => keysRise s.shadow → keysRise t.shadow
  | .dirty => s.dirty.Pairwise (· < ·) → t.dirty.Pairwise (· < ·)
  | .passed => s.frame.passed ≤ 8 → t.frame.passed ≤ 8
  | .dram => s.dram.ok → t.dram.ok
  | .clock => s.clock.trimCode ≤ 1023 → t.clock.trimCode ≤ 1023
  | .power => s.power.stage ≤ 7 → t.power.stage ≤ 7
  | .firmware => s.owl.rollback ≤ t.owl.rollback
  | .cal => s.cal.legal → t.cal.legal
  | _ => True

/-- Every part of one list is in the other. -/
abbrev Within (m l : List Part) : Prop := (m.all fun p => l.contains p) = true

/-- At most the parts listed differ, and what is to be kept of them is kept. -/
def Touches (l : List Part) (s t : State) : Prop := ∀ p, (l.contains p = false → p.same s t) ∧ p.kept s t

theorem Part.sameT_refl (p : Part) (n : Tenant) : p.sameT n n := by cases p <;> simp [Part.sameT]
theorem Part.sameF_refl (p : Part) (n : Frame) : p.sameF n n := by cases p <;> simp [Part.sameF]
theorem Part.sameO_refl (p : Part) (n : Owl) : p.sameO n n := by cases p <;> simp [Part.sameO]

theorem Part.sameT_trans {p : Part} {n m o : Tenant} (h : p.sameT n m) (k : p.sameT m o) : p.sameT n o := by
  cases p <;> simp_all [Part.sameT]

theorem Part.sameF_trans {p : Part} {n m o : Frame} (h : p.sameF n m) (k : p.sameF m o) : p.sameF n o := by
  cases p <;> simp_all [Part.sameF]

theorem Part.sameO_trans {p : Part} {n m o : Owl} (h : p.sameO n m) (k : p.sameO m o) : p.sameO n o := by
  cases p <;> simp_all [Part.sameO]

theorem Part.sameS_refl (p : Part) (s : State) : p.sameS s s := by cases p <;> first | rfl | trivial

theorem Part.sameS_trans {p : Part} {s t u : State} (h : p.sameS s t) (k : p.sameS t u) : p.sameS s u := by
  cases p <;> first | exact Eq.trans k h | trivial

theorem Part.same_refl (p : Part) (s : State) : p.same s s :=
  ⟨p.sameS_refl s, fun _ => p.sameT_refl _, p.sameF_refl _, p.sameO_refl _⟩

theorem Part.same_trans {p : Part} {s t u : State} (h : p.same s t) (k : p.same t u) : p.same s u :=
  ⟨Part.sameS_trans h.1 k.1, fun i => Part.sameT_trans (h.2.1 i) (k.2.1 i), Part.sameF_trans h.2.2.1 k.2.2.1,
    Part.sameO_trans h.2.2.2 k.2.2.2⟩

theorem Part.kept_refl (p : Part) (s : State) : p.kept s s := by
  cases p <;> first | trivial | exact Nat.le_refl _ | exact id

theorem Part.kept_trans {p : Part} {s t u : State} (h : p.kept s t) (k : p.kept t u) : p.kept s u := by
  cases p <;> first | trivial | exact Nat.le_trans h k | exact k ∘ h

theorem Touches.refl (l : List Part) (s : State) : Touches l s s := fun p => ⟨fun _ => p.same_refl s, p.kept_refl s⟩

theorem Touches.step {l m : List Part} {s t u : State} (h : Touches m t u) (i : Within m l)
    (k : Touches l s t) : Touches l s u := fun p =>
  ⟨fun hp => Part.same_trans ((k p).1 hp) ((h p).1 (by
    cases hm : m.contains p with
    | false => rfl
    | true =>
      have := List.all_eq_true.mp i p (by simpa using hm)
      simp_all)), Part.kept_trans (k p).2 (h p).2⟩

theorem Touches.updTenant {L : List Part} {s0 : State} (s : State) (t : Fin 16) (f : Tenant → Tenant) (h : Touches L s0 s)
    (hk : ∀ p : Part, L.contains p = false → p.sameT (s.tenant t) (f (s.tenant t))) : Touches L s0 (s.updTenant t f) := by
  have key : ∀ p : Part, L.contains p = false → ∀ k, p.sameT (s.tenant k) ((s.updTenant t f).tenant k) := fun p hp k => by
    by_cases e : t = k
    · subst e
      have : (s.updTenant t f).tenant t = f (s.tenant t) := Bank.at'_upd_self _ _ _
      rw [this]
      exact hk p hp
    · have : (s.updTenant t f).tenant k = s.tenant k := Bank.at'_upd_ne _ e _
      rw [this]
      exact Part.sameT_refl _ _
  intro p
  refine ⟨fun hp => Part.same_trans ((h p).1 hp) ⟨p.sameS_refl s, key p hp, p.sameF_refl _, p.sameO_refl _⟩,
    Part.kept_trans (h p).2 ?_⟩
  cases p <;> first | trivial | exact Nat.le_refl _ | exact id

theorem Touches.updFrame {L : List Part} {s0 : State} (s : State) (f : Frame → Frame) (h : Touches L s0 s)
    (hk : ∀ p : Part, L.contains p = false → p.sameF s.frame (f s.frame))
    (hp : s.frame.passed ≤ 8 → (f s.frame).passed ≤ 8) : Touches L s0 (s.updFrame f) := by
  intro p
  refine ⟨fun hc => Part.same_trans ((h p).1 hc) ⟨p.sameS_refl s, fun _ => p.sameT_refl _, hk p hc, p.sameO_refl _⟩,
    Part.kept_trans (h p).2 ?_⟩
  cases p <;> first | exact hp | trivial | exact Nat.le_refl _ | exact id

theorem Touches.updOwl {L : List Part} {s0 : State} (s : State) (f : Owl → Owl) (h : Touches L s0 s)
    (hk : ∀ p : Part, L.contains p = false → p.sameO s.owl (f s.owl))
    (hr : s.owl.rollback ≤ (f s.owl).rollback) : Touches L s0 (s.updOwl f) := by
  intro p
  refine ⟨fun hc => Part.same_trans ((h p).1 hc) ⟨p.sameS_refl s, fun _ => p.sameT_refl _, p.sameF_refl _, hk p hc⟩,
    Part.kept_trans (h p).2 ?_⟩
  cases p <;> first | exact hr | trivial | exact Nat.le_refl _ | exact id

theorem Touches.forEach {α : Type} {l : List Part} {s t : State} {xs : List α} {f : State → α → State} (h : Touches l s t)
    (k : ∀ u a, Touches l s u → Touches l s (f u a)) : Touches l s (t.forEach xs f) := by
  unfold State.forEach
  induction xs generalizing t with
  | nil => exact h
  | cons a r ih => exact ih (k t a h)

theorem Touches.forEachMem {α : Type} {l : List Part} {s t : State} {xs : List α} {f : State → α → State}
    (h : Touches l s t) (k : ∀ u, ∀ a ∈ xs, Touches l s u → Touches l s (f u a)) : Touches l s (t.forEach xs f) := by
  unfold State.forEach
  induction xs generalizing t with
  | nil => exact h
  | cons a r ih =>
    exact ih (k t a List.mem_cons_self h) fun u b hb => k u b (List.mem_cons_of_mem _ hb)

theorem Touches.forTenants {l : List Part} {s t : State} {f : State → Fin 16 → State} (h : Touches l s t)
    (k : ∀ u a, Touches l s u → Touches l s (f u a)) : Touches l s (t.forTenants f) := Touches.forEach h k

/-- A record changes only the log. -/
theorem Owl.record_same (p : Part) (hp : p ≠ .log) (o : Owl) (secs : BitVec 64) (page : Nat) (event severity : Nat) (result : Byte)
    (unit : Nat) (data : List Byte) : p.sameO o (o.record secs page event severity result unit data) := by
  unfold Owl.record
  split <;> cases p <;> first | exact absurd rfl hp | exact True.intro | ((repeat' apply And.intro) <;> exact rfl)

/-- A bank's content is firmware. -/
theorem Owl.updBank_same (p : Part) (hp : p ≠ .firmware) (o : Owl) (b : Bool) (f : FwBank → FwBank) : p.sameO o (o.updBank b f) := by
  unfold Owl.updBank
  split <;> cases p <;> first | exact absurd rfl hp | exact True.intro | ((repeat' apply And.intro) <;> exact rfl)

/-- Taking a delivery back moves only what waits to be delivered. -/
theorem Tenant.undeliver_same (p : Part) (hp : p ≠ .tDone) (n : Tenant) : p.sameT n n.undeliver := by
  unfold Tenant.undeliver
  split <;> cases p <;> first | exact absurd rfl hp | exact True.intro | ((repeat' apply And.intro) <;> exact rfl)

theorem Touches.set_attn {L : List Part} {s0 : State} (s : State) (v0 : Attn) (hL : Within [.attn] L) (h : Touches L s0 s)  :
    Touches L s0 { s with attn := v0 } := by
  refine Touches.step ?_ hL h; intro p; refine ⟨fun hp => ⟨?_, fun _ => p.sameT_refl _, p.sameF_refl _, p.sameO_refl _⟩, ?_⟩ <;> cases p <;> first | exact absurd hp (by decide) | rfl | trivial | exact Nat.le_refl _ | exact id

theorem Touches.set_bears {L : List Part} {s0 : State} (s : State) (v0 : Bank BearUnit 2) (hL : Within [.bears] L) (h : Touches L s0 s)  :
    Touches L s0 { s with bears := v0 } := by
  refine Touches.step ?_ hL h; intro p; refine ⟨fun hp => ⟨?_, fun _ => p.sameT_refl _, p.sameF_refl _, p.sameO_refl _⟩, ?_⟩ <;> cases p <;> first | exact absurd hp (by decide) | rfl | trivial | exact Nat.le_refl _ | exact id

theorem Touches.set_cal {L : List Part} {s0 : State} (s : State) (v0 : Calendar) (hL : Within [.cal] L) (h : Touches L s0 s) (hk0 : s.cal.legal → v0.legal) :
    Touches L s0 { s with cal := v0 } := by
  refine Touches.step ?_ hL h; intro p; refine ⟨fun hp => ⟨?_, fun _ => p.sameT_refl _, p.sameF_refl _, p.sameO_refl _⟩, ?_⟩ <;> cases p <;> first | exact hk0 | exact absurd hp (by decide) | rfl | trivial | exact Nat.le_refl _ | exact id

theorem Touches.set_cascade {L : List Part} {s0 : State} (s : State) (v0 : Cascade) (hL : Within [.cascade] L) (h : Touches L s0 s)  :
    Touches L s0 { s with cascade := v0 } := by
  refine Touches.step ?_ hL h; intro p; refine ⟨fun hp => ⟨?_, fun _ => p.sameT_refl _, p.sameF_refl _, p.sameO_refl _⟩, ?_⟩ <;> cases p <;> first | exact absurd hp (by decide) | rfl | trivial | exact Nat.le_refl _ | exact id

theorem Touches.set_cfgA {L : List Part} {s0 : State} (s : State) (v0 : PortCfg) (hL : Within [.cfgA] L) (h : Touches L s0 s)  :
    Touches L s0 { s with cfgA := v0 } := by
  refine Touches.step ?_ hL h; intro p; refine ⟨fun hp => ⟨?_, fun _ => p.sameT_refl _, p.sameF_refl _, p.sameO_refl _⟩, ?_⟩ <;> cases p <;> first | exact absurd hp (by decide) | rfl | trivial | exact Nat.le_refl _ | exact id

theorem Touches.set_cfgB {L : List Part} {s0 : State} (s : State) (v0 : PortCfg) (hL : Within [.cfgB] L) (h : Touches L s0 s)  :
    Touches L s0 { s with cfgB := v0 } := by
  refine Touches.step ?_ hL h; intro p; refine ⟨fun hp => ⟨?_, fun _ => p.sameT_refl _, p.sameF_refl _, p.sameO_refl _⟩, ?_⟩ <;> cases p <;> first | exact absurd hp (by decide) | rfl | trivial | exact Nat.le_refl _ | exact id

theorem Touches.set_clock {L : List Part} {s0 : State} (s : State) (v0 : Clock) (hL : Within [.clock] L) (h : Touches L s0 s) (hk0 : s.clock.trimCode ≤ 1023 → v0.trimCode ≤ 1023) :
    Touches L s0 { s with clock := v0 } := by
  refine Touches.step ?_ hL h; intro p; refine ⟨fun hp => ⟨?_, fun _ => p.sameT_refl _, p.sameF_refl _, p.sameO_refl _⟩, ?_⟩ <;> cases p <;> first | exact hk0 | exact absurd hp (by decide) | rfl | trivial | exact Nat.le_refl _ | exact id

theorem Touches.set_cores {L : List Part} {s0 : State} (s : State) (v0 : Bank Core 48) (hL : Within [.cores] L) (h : Touches L s0 s)  :
    Touches L s0 { s with cores := v0 } := by
  refine Touches.step ?_ hL h; intro p; refine ⟨fun hp => ⟨?_, fun _ => p.sameT_refl _, p.sameF_refl _, p.sameO_refl _⟩, ?_⟩ <;> cases p <;> first | exact absurd hp (by decide) | rfl | trivial | exact Nat.le_refl _ | exact id

theorem Touches.set_cores_bears_jays {L : List Part} {s0 : State} (s : State) (v0 : Bank Core 48) (v1 : Bank BearUnit 2) (v2 : Bank JayUnit 4) (hL : Within [.cores, .bears, .jays] L) (h : Touches L s0 s)  :
    Touches L s0 { s with cores := v0, bears := v1, jays := v2 } := by
  refine Touches.step ?_ hL h; intro p; refine ⟨fun hp => ⟨?_, fun _ => p.sameT_refl _, p.sameF_refl _, p.sameO_refl _⟩, ?_⟩ <;> cases p <;> first | exact absurd hp (by decide) | rfl | trivial | exact Nat.le_refl _ | exact id

theorem Touches.set_dirty {L : List Part} {s0 : State} (s : State) (v0 : List Nat) (hL : Within [.dirty] L) (h : Touches L s0 s) (hk0 : s.dirty.Pairwise (· < ·) → v0.Pairwise (· < ·)) :
    Touches L s0 { s with dirty := v0 } := by
  refine Touches.step ?_ hL h; intro p; refine ⟨fun hp => ⟨?_, fun _ => p.sameT_refl _, p.sameF_refl _, p.sameO_refl _⟩, ?_⟩ <;> cases p <;> first | exact hk0 | exact absurd hp (by decide) | rfl | trivial | exact Nat.le_refl _ | exact id

theorem Touches.set_dirty_setOrder {L : List Part} {s0 : State} (s : State) (v0 : List Nat) (v1 : Nat) (hL : Within [.dirty, .setOrder] L) (h : Touches L s0 s) (hk0 : s.dirty.Pairwise (· < ·) → v0.Pairwise (· < ·)) :
    Touches L s0 { s with dirty := v0, setOrder := v1 } := by
  refine Touches.step ?_ hL h; intro p; refine ⟨fun hp => ⟨?_, fun _ => p.sameT_refl _, p.sameF_refl _, p.sameO_refl _⟩, ?_⟩ <;> cases p <;> first | exact hk0 | exact absurd hp (by decide) | rfl | trivial | exact Nat.le_refl _ | exact id

theorem Touches.set_doorbells {L : List Part} {s0 : State} (s : State) (v0 : Nat) (hL : Within [.doorbells] L) (h : Touches L s0 s) (hk0 : s.doorbells ≤ v0) :
    Touches L s0 { s with doorbells := v0 } := by
  refine Touches.step ?_ hL h; intro p; refine ⟨fun hp => ⟨?_, fun _ => p.sameT_refl _, p.sameF_refl _, p.sameO_refl _⟩, ?_⟩ <;> cases p <;> first | exact hk0 | exact absurd hp (by decide) | rfl | trivial | exact Nat.le_refl _ | exact id

theorem Touches.set_dram {L : List Part} {s0 : State} (s : State) (v0 : Dram) (hL : Within [.dram] L) (h : Touches L s0 s) (hk0 : s.dram.ok → v0.ok) :
    Touches L s0 { s with dram := v0 } := by
  refine Touches.step ?_ hL h; intro p; refine ⟨fun hp => ⟨?_, fun _ => p.sameT_refl _, p.sameF_refl _, p.sameO_refl _⟩, ?_⟩ <;> cases p <;> first | exact hk0 | exact absurd hp (by decide) | rfl | trivial | exact Nat.le_refl _ | exact id

theorem Touches.set_draws {L : List Part} {s0 : State} (s : State) (v0 : Nat) (hL : Within [.draws] L) (h : Touches L s0 s) (hk0 : s.draws ≤ v0) :
    Touches L s0 { s with draws := v0 } := by
  refine Touches.step ?_ hL h; intro p; refine ⟨fun hp => ⟨?_, fun _ => p.sameT_refl _, p.sameF_refl _, p.sameO_refl _⟩, ?_⟩ <;> cases p <;> first | exact hk0 | exact absurd hp (by decide) | rfl | trivial | exact Nat.le_refl _ | exact id

theorem Touches.set_engines {L : List Part} {s0 : State} (s : State) (v0 : Bank Engine 16) (hL : Within [.engines] L) (h : Touches L s0 s)  :
    Touches L s0 { s with engines := v0 } := by
  refine Touches.step ?_ hL h; intro p; refine ⟨fun hp => ⟨?_, fun _ => p.sameT_refl _, p.sameF_refl _, p.sameO_refl _⟩, ?_⟩ <;> cases p <;> first | exact absurd hp (by decide) | rfl | trivial | exact Nat.le_refl _ | exact id

theorem Touches.set_engines_bears_jays {L : List Part} {s0 : State} (s : State) (v0 : Bank Engine 16) (v1 : Bank BearUnit 2) (v2 : Bank JayUnit 4) (hL : Within [.engines, .bears, .jays] L) (h : Touches L s0 s)  :
    Touches L s0 { s with engines := v0, bears := v1, jays := v2 } := by
  refine Touches.step ?_ hL h; intro p; refine ⟨fun hp => ⟨?_, fun _ => p.sameT_refl _, p.sameF_refl _, p.sameO_refl _⟩, ?_⟩ <;> cases p <;> first | exact absurd hp (by decide) | rfl | trivial | exact Nat.le_refl _ | exact id

theorem Touches.set_engines_bears_jays_fronts_cores {L : List Part} {s0 : State} (s : State) (v0 : Bank Engine 16) (v1 : Bank BearUnit 2) (v2 : Bank JayUnit 4) (v3 : Bank FrontUnit 4) (v4 : Bank Core 48) (hL : Within [.engines, .bears, .jays, .fronts, .cores] L) (h : Touches L s0 s)  :
    Touches L s0 { s with engines := v0, bears := v1, jays := v2, fronts := v3, cores := v4 } := by
  refine Touches.step ?_ hL h; intro p; refine ⟨fun hp => ⟨?_, fun _ => p.sameT_refl _, p.sameF_refl _, p.sameO_refl _⟩, ?_⟩ <;> cases p <;> first | exact absurd hp (by decide) | rfl | trivial | exact Nat.le_refl _ | exact id

theorem Touches.set_fault {L : List Part} {s0 : State} (s : State) (v0 : PkgFault) (hL : Within [.fault] L) (h : Touches L s0 s)  :
    Touches L s0 { s with fault := v0 } := by
  refine Touches.step ?_ hL h; intro p; refine ⟨fun hp => ⟨?_, fun _ => p.sameT_refl _, p.sameF_refl _, p.sameO_refl _⟩, ?_⟩ <;> cases p <;> first | exact absurd hp (by decide) | rfl | trivial | exact Nat.le_refl _ | exact id

theorem Touches.set_fronts {L : List Part} {s0 : State} (s : State) (v0 : Bank FrontUnit 4) (hL : Within [.fronts] L) (h : Touches L s0 s)  :
    Touches L s0 { s with fronts := v0 } := by
  refine Touches.step ?_ hL h; intro p; refine ⟨fun hp => ⟨?_, fun _ => p.sameT_refl _, p.sameF_refl _, p.sameO_refl _⟩, ?_⟩ <;> cases p <;> first | exact absurd hp (by decide) | rfl | trivial | exact Nat.le_refl _ | exact id

theorem Touches.set_jays {L : List Part} {s0 : State} (s : State) (v0 : Bank JayUnit 4) (hL : Within [.jays] L) (h : Touches L s0 s)  :
    Touches L s0 { s with jays := v0 } := by
  refine Touches.step ?_ hL h; intro p; refine ⟨fun hp => ⟨?_, fun _ => p.sameT_refl _, p.sameF_refl _, p.sameO_refl _⟩, ?_⟩ <;> cases p <;> first | exact absurd hp (by decide) | rfl | trivial | exact Nat.le_refl _ | exact id

theorem Touches.set_jtag {L : List Part} {s0 : State} (s : State) (v0 : Jtag) (hL : Within [.jtag] L) (h : Touches L s0 s)  :
    Touches L s0 { s with jtag := v0 } := by
  refine Touches.step ?_ hL h; intro p; refine ⟨fun hp => ⟨?_, fun _ => p.sameT_refl _, p.sameF_refl _, p.sameO_refl _⟩, ?_⟩ <;> cases p <;> first | exact absurd hp (by decide) | rfl | trivial | exact Nat.le_refl _ | exact id

theorem Touches.set_jtag_draws {L : List Part} {s0 : State} (s : State) (v0 : Jtag) (v1 : Nat) (hL : Within [.jtag, .draws] L) (h : Touches L s0 s) (hk1 : s.draws ≤ v1) :
    Touches L s0 { s with jtag := v0, draws := v1 } := by
  refine Touches.step ?_ hL h; intro p; refine ⟨fun hp => ⟨?_, fun _ => p.sameT_refl _, p.sameF_refl _, p.sameO_refl _⟩, ?_⟩ <;> cases p <;> first | exact hk1 | exact absurd hp (by decide) | rfl | trivial | exact Nat.le_refl _ | exact id

theorem Touches.set_links {L : List Part} {s0 : State} (s : State) (v0 : Bank Link 8) (hL : Within [.links] L) (h : Touches L s0 s)  :
    Touches L s0 { s with links := v0 } := by
  refine Touches.step ?_ hL h; intro p; refine ⟨fun hp => ⟨?_, fun _ => p.sameT_refl _, p.sameF_refl _, p.sameO_refl _⟩, ?_⟩ <;> cases p <;> first | exact absurd hp (by decide) | rfl | trivial | exact Nat.le_refl _ | exact id

theorem Touches.set_lynx {L : List Part} {s0 : State} (s : State) (v0 : Lynx) (hL : Within [.lynx] L) (h : Touches L s0 s)  :
    Touches L s0 { s with lynx := v0 } := by
  refine Touches.step ?_ hL h; intro p; refine ⟨fun hp => ⟨?_, fun _ => p.sameT_refl _, p.sameF_refl _, p.sameO_refl _⟩, ?_⟩ <;> cases p <;> first | exact absurd hp (by decide) | rfl | trivial | exact Nat.le_refl _ | exact id

theorem Touches.set_now {L : List Part} {s0 : State} (s : State) (v0 : Nat) (hL : Within [.now] L) (h : Touches L s0 s) (hk0 : s.now ≤ v0) :
    Touches L s0 { s with now := v0 } := by
  refine Touches.step ?_ hL h; intro p; refine ⟨fun hp => ⟨?_, fun _ => p.sameT_refl _, p.sameF_refl _, p.sameO_refl _⟩, ?_⟩ <;> cases p <;> first | exact hk0 | exact absurd hp (by decide) | rfl | trivial | exact Nat.le_refl _ | exact id

theorem Touches.set_power {L : List Part} {s0 : State} (s : State) (v0 : Power) (hL : Within [.power] L) (h : Touches L s0 s) (hk0 : s.power.stage ≤ 7 → v0.stage ≤ 7) :
    Touches L s0 { s with power := v0 } := by
  refine Touches.step ?_ hL h; intro p; refine ⟨fun hp => ⟨?_, fun _ => p.sameT_refl _, p.sameF_refl _, p.sameO_refl _⟩, ?_⟩ <;> cases p <;> first | exact hk0 | exact absurd hp (by decide) | rfl | trivial | exact Nat.le_refl _ | exact id

theorem Touches.set_regs {L : List Part} {s0 : State} (s : State) (v0 : SMap Word) (hL : Within [.regs] L) (h : Touches L s0 s) (hk0 : keysRise s.regs → keysRise v0) :
    Touches L s0 { s with regs := v0 } := by
  refine Touches.step ?_ hL h; intro p; refine ⟨fun hp => ⟨?_, fun _ => p.sameT_refl _, p.sameF_refl _, p.sameO_refl _⟩, ?_⟩ <;> cases p <;> first | exact hk0 | exact absurd hp (by decide) | rfl | trivial | exact Nat.le_refl _ | exact id

theorem Touches.set_regs_shadow_dirty {L : List Part} {s0 : State} (s : State) (v0 : SMap Word) (v1 : SMap Word) (v2 : List Nat) (hL : Within [.regs, .shadow, .dirty] L) (h : Touches L s0 s) (hk0 : keysRise s.regs → keysRise v0) (hk1 : keysRise s.shadow → keysRise v1) (hk2 : s.dirty.Pairwise (· < ·) → v2.Pairwise (· < ·)) :
    Touches L s0 { s with regs := v0, shadow := v1, dirty := v2 } := by
  refine Touches.step ?_ hL h; intro p; refine ⟨fun hp => ⟨?_, fun _ => p.sameT_refl _, p.sameF_refl _, p.sameO_refl _⟩, ?_⟩ <;> cases p <;> first | exact hk0 | exact hk1 | exact hk2 | exact absurd hp (by decide) | rfl | trivial | exact Nat.le_refl _ | exact id

theorem Touches.set_shadow {L : List Part} {s0 : State} (s : State) (v0 : SMap Word) (hL : Within [.shadow] L) (h : Touches L s0 s) (hk0 : keysRise s.shadow → keysRise v0) :
    Touches L s0 { s with shadow := v0 } := by
  refine Touches.step ?_ hL h; intro p; refine ⟨fun hp => ⟨?_, fun _ => p.sameT_refl _, p.sameF_refl _, p.sameO_refl _⟩, ?_⟩ <;> cases p <;> first | exact hk0 | exact absurd hp (by decide) | rfl | trivial | exact Nat.le_refl _ | exact id

theorem Touches.set_slotsPeak {L : List Part} {s0 : State} (s : State) (v0 : Nat) (hL : Within [.slotsPeak] L) (h : Touches L s0 s)  :
    Touches L s0 { s with slotsPeak := v0 } := by
  refine Touches.step ?_ hL h; intro p; refine ⟨fun hp => ⟨?_, fun _ => p.sameT_refl _, p.sameF_refl _, p.sameO_refl _⟩, ?_⟩ <;> cases p <;> first | exact absurd hp (by decide) | rfl | trivial | exact Nat.le_refl _ | exact id

theorem State.setLive_touches {L : List Part} {s0 : State} (s : State) (page off v : Nat) (hL : Within [.regs] L) (h : Touches L s0 s) :
    Touches L s0 (State.setLive s page off v) := by
  refine Touches.step ?_ hL h
  unfold State.setLive
  try dsimp only
  with_reducible repeat' first
    | exact Touches.refl _ _
    | assumption
    | exact Nat.le_refl _
    | exact Nat.le_add_right _ _
    | exact id
    | exact fun h => keysRise_filePut _ h _ _ _
    | split
    | (apply Touches.set_regs; on_goal 1 => decide)

theorem State.setShadow_touches {L : List Part} {s0 : State} (s : State) (page off v : Nat) (hL : Within [.shadow] L) (h : Touches L s0 s) :
    Touches L s0 (State.setShadow s page off v) := by
  refine Touches.step ?_ hL h
  unfold State.setShadow
  try dsimp only
  with_reducible repeat' first
    | exact Touches.refl _ _
    | assumption
    | exact Nat.le_refl _
    | exact Nat.le_add_right _ _
    | exact id
    | exact fun h => keysRise_filePut _ h _ _ _
    | split
    | (apply Touches.set_shadow; on_goal 1 => decide)

theorem State.updQueue_touches {L : List Part} {s0 : State} (s : State) (t : Fin 16) (q : Fin 8) (f : Queue → Queue) (hL : Within [.tQueues] L) (h : Touches L s0 s) :
    Touches L s0 (State.updQueue s t q f) := by
  refine Touches.step ?_ hL h
  unfold State.updQueue
  try dsimp only
  with_reducible repeat' first
    | exact Touches.refl _ _
    | assumption
    | exact Nat.le_refl _
    | exact Nat.le_add_right _ _
    | exact id
    | apply Touches.updTenant
    | (intro p hp; cases p <;> first | exact absurd hp (by decide) | (simp only [Part.sameT, Part.sameF, Part.sameO, Tenant.cleared, Tenant.discardFrame, Tenant.startFrame, Tenant.turn, Tenant.reset, and_self]; done))
    | split

theorem State.updWorld_touches {L : List Part} {s0 : State} (s : State) (t : Fin 16) (f : World → World) (hL : Within [.tWorld] L) (h : Touches L s0 s) :
    Touches L s0 (State.updWorld s t f) := by
  refine Touches.step ?_ hL h
  unfold State.updWorld
  try dsimp only
  with_reducible repeat' first
    | exact Touches.refl _ _
    | assumption
    | exact Nat.le_refl _
    | exact Nat.le_add_right _ _
    | exact id
    | apply Touches.updTenant
    | (intro p hp; cases p <;> first | exact absurd hp (by decide) | (simp only [Part.sameT, Part.sameF, Part.sameO, Tenant.cleared, Tenant.discardFrame, Tenant.startFrame, Tenant.turn, Tenant.reset, and_self]; done))
    | split

theorem State.updSearch_touches {L : List Part} {s0 : State} (s : State) (t : Fin 16) (f : Search → Search) (hL : Within [.tSearch] L) (h : Touches L s0 s) :
    Touches L s0 (State.updSearch s t f) := by
  refine Touches.step ?_ hL h
  unfold State.updSearch
  try dsimp only
  with_reducible repeat' first
    | exact Touches.refl _ _
    | assumption
    | exact Nat.le_refl _
    | exact Nat.le_add_right _ _
    | exact id
    | apply Touches.updTenant
    | (intro p hp; cases p <;> first | exact absurd hp (by decide) | (simp only [Part.sameT, Part.sameF, Part.sameO, Tenant.cleared, Tenant.discardFrame, Tenant.startFrame, Tenant.turn, Tenant.reset, and_self]; done))
    | split

theorem State.updTable_touches {L : List Part} {s0 : State} (s : State) (t : Fin 16) (f : Table → Table) (hL : Within [.tTable] L) (h : Touches L s0 s) :
    Touches L s0 (State.updTable s t f) := by
  refine Touches.step ?_ hL h
  unfold State.updTable
  try dsimp only
  with_reducible repeat' first
    | exact Touches.refl _ _
    | assumption
    | exact Nat.le_refl _
    | exact Nat.le_add_right _ _
    | exact id
    | apply Touches.updTenant
    | (intro p hp; cases p <;> first | exact absurd hp (by decide) | (simp only [Part.sameT, Part.sameF, Part.sameO, Tenant.cleared, Tenant.discardFrame, Tenant.startFrame, Tenant.turn, Tenant.reset, and_self]; done))
    | split

theorem State.updSolver_touches {L : List Part} {s0 : State} (s : State) (t : Fin 16) (f : Solver → Solver) (hL : Within [.tSolver] L) (h : Touches L s0 s) :
    Touches L s0 (State.updSolver s t f) := by
  refine Touches.step ?_ hL h
  unfold State.updSolver
  try dsimp only
  with_reducible repeat' first
    | exact Touches.refl _ _
    | assumption
    | exact Nat.le_refl _
    | exact Nat.le_add_right _ _
    | exact id
    | apply Touches.updTenant
    | (intro p hp; cases p <;> first | exact absurd hp (by decide) | (simp only [Part.sameT, Part.sameF, Part.sameO, Tenant.cleared, Tenant.discardFrame, Tenant.startFrame, Tenant.turn, Tenant.reset, and_self]; done))
    | split

theorem State.updSel_touches {L : List Part} {s0 : State} (s : State) (t : Fin 16) (f : Selection → Selection) (hL : Within [.tSel] L) (h : Touches L s0 s) :
    Touches L s0 (State.updSel s t f) := by
  refine Touches.step ?_ hL h
  unfold State.updSel
  try dsimp only
  with_reducible repeat' first
    | exact Touches.refl _ _
    | assumption
    | exact Nat.le_refl _
    | exact Nat.le_add_right _ _
    | exact id
    | apply Touches.updTenant
    | (intro p hp; cases p <;> first | exact absurd hp (by decide) | (simp only [Part.sameT, Part.sameF, Part.sameO, Tenant.cleared, Tenant.discardFrame, Tenant.startFrame, Tenant.turn, Tenant.reset, and_self]; done))
    | split

theorem State.updSched_touches {L : List Part} {s0 : State} (s : State) (t : Fin 16) (f : Sched → Sched) (hL : Within [.tSched] L) (h : Touches L s0 s) :
    Touches L s0 (State.updSched s t f) := by
  refine Touches.step ?_ hL h
  unfold State.updSched
  try dsimp only
  with_reducible repeat' first
    | exact Touches.refl _ _
    | assumption
    | exact Nat.le_refl _
    | exact Nat.le_add_right _ _
    | exact id
    | apply Touches.updTenant
    | (intro p hp; cases p <;> first | exact absurd hp (by decide) | (simp only [Part.sameT, Part.sameF, Part.sameO, Tenant.cleared, Tenant.discardFrame, Tenant.startFrame, Tenant.turn, Tenant.reset, and_self]; done))
    | split

theorem State.updOut_touches {L : List Part} {s0 : State} (s : State) (t : Fin 16) (f : Outcome → Outcome) (hL : Within [.tOut] L) (h : Touches L s0 s) :
    Touches L s0 (State.updOut s t f) := by
  refine Touches.step ?_ hL h
  unfold State.updOut
  try dsimp only
  with_reducible repeat' first
    | exact Touches.refl _ _
    | assumption
    | exact Nat.le_refl _
    | exact Nat.le_add_right _ _
    | exact id
    | apply Touches.updTenant
    | (intro p hp; cases p <;> first | exact absurd hp (by decide) | (simp only [Part.sameT, Part.sameF, Part.sameO, Tenant.cleared, Tenant.discardFrame, Tenant.startFrame, Tenant.turn, Tenant.reset, and_self]; done))
    | split

theorem State.updSpoor_touches {L : List Part} {s0 : State} (s : State) (t : Fin 16) (f : Spoor → Spoor) (hL : Within [.tSpoor] L) (h : Touches L s0 s) :
    Touches L s0 (State.updSpoor s t f) := by
  refine Touches.step ?_ hL h
  unfold State.updSpoor
  try dsimp only
  with_reducible repeat' first
    | exact Touches.refl _ _
    | assumption
    | exact Nat.le_refl _
    | exact Nat.le_add_right _ _
    | exact id
    | apply Touches.updTenant
    | (intro p hp; cases p <;> first | exact absurd hp (by decide) | (simp only [Part.sameT, Part.sameF, Part.sameO, Tenant.cleared, Tenant.discardFrame, Tenant.startFrame, Tenant.turn, Tenant.reset, and_self]; done))
    | split

theorem State.updCore_touches {L : List Part} {s0 : State} (s : State) (c : Nat) (f : Core → Core) (hL : Within [.cores] L) (h : Touches L s0 s) :
    Touches L s0 (State.updCore s c f) := by
  refine Touches.step ?_ hL h
  unfold State.updCore
  try dsimp only
  with_reducible repeat' first
    | exact Touches.refl _ _
    | assumption
    | exact Nat.le_refl _
    | exact Nat.le_add_right _ _
    | exact id
    | split
    | (apply Touches.set_cores; on_goal 1 => decide)

theorem State.updEngine_touches {L : List Part} {s0 : State} (s : State) (e : Nat) (f : Engine → Engine) (hL : Within [.engines] L) (h : Touches L s0 s) :
    Touches L s0 (State.updEngine s e f) := by
  refine Touches.step ?_ hL h
  unfold State.updEngine
  try dsimp only
  with_reducible repeat' first
    | exact Touches.refl _ _
    | assumption
    | exact Nat.le_refl _
    | exact Nat.le_add_right _ _
    | exact id
    | split
    | (apply Touches.set_engines; on_goal 1 => decide)

theorem State.updBear_touches {L : List Part} {s0 : State} (s : State) (u : Nat) (f : BearUnit → BearUnit) (hL : Within [.bears] L) (h : Touches L s0 s) :
    Touches L s0 (State.updBear s u f) := by
  refine Touches.step ?_ hL h
  unfold State.updBear
  try dsimp only
  with_reducible repeat' first
    | exact Touches.refl _ _
    | assumption
    | exact Nat.le_refl _
    | exact Nat.le_add_right _ _
    | exact id
    | split
    | (apply Touches.set_bears; on_goal 1 => decide)

theorem State.updJay_touches {L : List Part} {s0 : State} (s : State) (u : Nat) (f : JayUnit → JayUnit) (hL : Within [.jays] L) (h : Touches L s0 s) :
    Touches L s0 (State.updJay s u f) := by
  refine Touches.step ?_ hL h
  unfold State.updJay
  try dsimp only
  with_reducible repeat' first
    | exact Touches.refl _ _
    | assumption
    | exact Nat.le_refl _
    | exact Nat.le_add_right _ _
    | exact id
    | split
    | (apply Touches.set_jays; on_goal 1 => decide)

theorem State.updFront_touches {L : List Part} {s0 : State} (s : State) (u : Nat) (f : FrontUnit → FrontUnit) (hL : Within [.fronts] L) (h : Touches L s0 s) :
    Touches L s0 (State.updFront s u f) := by
  refine Touches.step ?_ hL h
  unfold State.updFront
  try dsimp only
  with_reducible repeat' first
    | exact Touches.refl _ _
    | assumption
    | exact Nat.le_refl _
    | exact Nat.le_add_right _ _
    | exact id
    | split
    | (apply Touches.set_fronts; on_goal 1 => decide)

theorem State.updLink_touches {L : List Part} {s0 : State} (s : State) (l : Nat) (f : Link → Link) (hL : Within [.links] L) (h : Touches L s0 s) :
    Touches L s0 (State.updLink s l f) := by
  refine Touches.step ?_ hL h
  unfold State.updLink
  try dsimp only
  with_reducible repeat' first
    | exact Touches.refl _ _
    | assumption
    | exact Nat.le_refl _
    | exact Nat.le_add_right _ _
    | exact id
    | split
    | (apply Touches.set_links; on_goal 1 => decide)

theorem State.updClock_touches {L : List Part} {s0 : State} (s : State) (f : Clock → Clock) (hL : Within [.clock] L) (h : Touches L s0 s) (hk : s.clock.trimCode ≤ 1023 → (f s.clock).trimCode ≤ 1023) :
    Touches L s0 (State.updClock s f) := by
  refine Touches.step ?_ hL h
  unfold State.updClock
  try dsimp only
  with_reducible repeat' first
    | exact Touches.refl _ _
    | assumption
    | exact Nat.le_refl _
    | exact Nat.le_add_right _ _
    | exact id
    | split
    | (apply Touches.set_clock; on_goal 1 => decide)

theorem State.updPower_touches {L : List Part} {s0 : State} (s : State) (f : Power → Power) (hL : Within [.power] L) (h : Touches L s0 s) (hk : s.power.stage ≤ 7 → (f s.power).stage ≤ 7) :
    Touches L s0 (State.updPower s f) := by
  refine Touches.step ?_ hL h
  unfold State.updPower
  try dsimp only
  with_reducible repeat' first
    | exact Touches.refl _ _
    | assumption
    | exact Nat.le_refl _
    | exact Nat.le_add_right _ _
    | exact id
    | split
    | (apply Touches.set_power; on_goal 1 => decide)

theorem State.updLynx_touches {L : List Part} {s0 : State} (s : State) (f : Lynx → Lynx) (hL : Within [.lynx] L) (h : Touches L s0 s) :
    Touches L s0 (State.updLynx s f) := by
  refine Touches.step ?_ hL h
  unfold State.updLynx
  try dsimp only
  with_reducible repeat' first
    | exact Touches.refl _ _
    | assumption
    | exact Nat.le_refl _
    | exact Nat.le_add_right _ _
    | exact id
    | split
    | (apply Touches.set_lynx; on_goal 1 => decide)

theorem State.updCascade_touches {L : List Part} {s0 : State} (s : State) (f : Cascade → Cascade) (hL : Within [.cascade] L) (h : Touches L s0 s) :
    Touches L s0 (State.updCascade s f) := by
  refine Touches.step ?_ hL h
  unfold State.updCascade
  try dsimp only
  with_reducible repeat' first
    | exact Touches.refl _ _
    | assumption
    | exact Nat.le_refl _
    | exact Nat.le_add_right _ _
    | exact id
    | split
    | (apply Touches.set_cascade; on_goal 1 => decide)

theorem State.updCal_touches {L : List Part} {s0 : State} (s : State) (f : Calendar → Calendar) (hL : Within [.cal] L) (h : Touches L s0 s) (hk : s.cal.legal → (f s.cal).legal) :
    Touches L s0 (State.updCal s f) := by
  refine Touches.step ?_ hL h
  unfold State.updCal
  try dsimp only
  with_reducible repeat' first
    | exact Touches.refl _ _
    | assumption
    | exact Nat.le_refl _
    | exact Nat.le_add_right _ _
    | exact id
    | split
    | (apply Touches.set_cal; on_goal 1 => decide)

theorem State.updFault_touches {L : List Part} {s0 : State} (s : State) (f : PkgFault → PkgFault) (hL : Within [.fault] L) (h : Touches L s0 s) :
    Touches L s0 (State.updFault s f) := by
  refine Touches.step ?_ hL h
  unfold State.updFault
  try dsimp only
  with_reducible repeat' first
    | exact Touches.refl _ _
    | assumption
    | exact Nat.le_refl _
    | exact Nat.le_add_right _ _
    | exact id
    | split
    | (apply Touches.set_fault; on_goal 1 => decide)

theorem State.updDram_touches {L : List Part} {s0 : State} (s : State) (f : Dram → Dram) (hL : Within [.dram] L) (h : Touches L s0 s) (hk : s.dram.ok → (f s.dram).ok) :
    Touches L s0 (State.updDram s f) := by
  refine Touches.step ?_ hL h
  unfold State.updDram
  try dsimp only
  with_reducible repeat' first
    | exact Touches.refl _ _
    | assumption
    | exact Nat.le_refl _
    | exact Nat.le_add_right _ _
    | exact id
    | split
    | (apply Touches.set_dram; on_goal 1 => decide)

theorem State.updAttn_touches {L : List Part} {s0 : State} (s : State) (f : Attn → Attn) (hL : Within [.attn] L) (h : Touches L s0 s) :
    Touches L s0 (State.updAttn s f) := by
  refine Touches.step ?_ hL h
  unfold State.updAttn
  try dsimp only
  with_reducible repeat' first
    | exact Touches.refl _ _
    | assumption
    | exact Nat.le_refl _
    | exact Nat.le_add_right _ _
    | exact id
    | split
    | (apply Touches.set_attn; on_goal 1 => decide)

theorem State.updCfg_touches {L : List Part} {s0 : State} (s : State) (p : Port) (f : PortCfg → PortCfg) (hL : Within [.cfgA, .cfgB] L) (h : Touches L s0 s) :
    Touches L s0 (State.updCfg s p f) := by
  refine Touches.step ?_ hL h
  unfold State.updCfg
  try dsimp only
  with_reducible repeat' first
    | exact Touches.refl _ _
    | assumption
    | exact Nat.le_refl _
    | exact Nat.le_add_right _ _
    | exact id
    | split
    | (apply Touches.set_cfgA; on_goal 1 => decide)
    | (apply Touches.set_cfgB; on_goal 1 => decide)

theorem State.draw_touches {L : List Part} {s0 : State} (s : State) (hL : Within [.draws] L) (h : Touches L s0 s) :
    Touches L s0 (State.draw s) := by
  refine Touches.step ?_ hL h
  unfold State.draw
  try dsimp only
  with_reducible repeat' first
    | exact Touches.refl _ _
    | assumption
    | exact Nat.le_refl _
    | exact Nat.le_add_right _ _
    | exact id
    | split
    | (apply Touches.set_draws; on_goal 1 => decide)

theorem State.noteTiming_touches {L : List Part} {s0 : State} (s : State) (t : Fin 16) (k : Nat) (hL : Within [.tOut] L) (h : Touches L s0 s) :
    Touches L s0 (State.noteTiming s t k) := by
  refine Touches.step ?_ hL h
  unfold State.noteTiming
  try dsimp only
  with_reducible repeat' first
    | exact Touches.refl _ _
    | assumption
    | exact Nat.le_refl _
    | exact Nat.le_add_right _ _
    | exact id
    | (apply State.updOut_touches; on_goal 1 => decide)
    | split

theorem State.updView_touches {L : List Part} {s0 : State} (s : State) (k : UnitKind) (n : Nat) (f : View → View) (hL : Within [.engines, .bears, .jays, .fronts, .cores] L) (h : Touches L s0 s) :
    Touches L s0 (State.updView s k n f) := by
  refine Touches.step ?_ hL h
  unfold State.updView
  try dsimp only
  with_reducible repeat' first
    | exact Touches.refl _ _
    | assumption
    | exact Nat.le_refl _
    | exact Nat.le_add_right _ _
    | exact id
    | (apply State.updCore_touches; on_goal 1 => decide)
    | (apply State.updEngine_touches; on_goal 1 => decide)
    | (apply State.updBear_touches; on_goal 1 => decide)
    | (apply State.updJay_touches; on_goal 1 => decide)
    | (apply State.updFront_touches; on_goal 1 => decide)
    | split

theorem State.raise_touches {L : List Part} {s0 : State} (s : State) (page bit : Nat) (hL : Within [.attn] L) (h : Touches L s0 s) :
    Touches L s0 (State.raise s page bit) := by
  refine Touches.step ?_ hL h
  unfold State.raise
  try dsimp only
  with_reducible repeat' first
    | exact Touches.refl _ _
    | assumption
    | exact Nat.le_refl _
    | exact Nat.le_add_right _ _
    | exact id
    | (apply State.updAttn_touches; on_goal 1 => decide)
    | split

theorem State.bumpErr_touches {L : List Part} {s0 : State} (s : State) (page : Nat) (hL : Within [.attn] L) (h : Touches L s0 s) :
    Touches L s0 (State.bumpErr s page) := by
  refine Touches.step ?_ hL h
  unfold State.bumpErr
  try dsimp only
  with_reducible repeat' first
    | exact Touches.refl _ _
    | assumption
    | exact Nat.le_refl _
    | exact Nat.le_add_right _ _
    | exact id
    | (apply State.updAttn_touches; on_goal 1 => decide)
    | split

theorem State.resetRegs_touches {L : List Part} {s0 : State} (s : State) (page lo hi : Nat) (hL : Within [.regs, .shadow, .dirty] L) (h : Touches L s0 s) :
    Touches L s0 (State.resetRegs s page lo hi) := by
  refine Touches.step ?_ hL h
  unfold State.resetRegs
  try dsimp only
  with_reducible repeat' first
    | exact Touches.refl _ _
    | assumption
    | exact Nat.le_refl _
    | exact Nat.le_add_right _ _
    | exact id
    | exact fun h => keysRise_fileDrop h _ _ _
    | exact fun h => List.Pairwise.filter _ h
    | exact fun h => rise_sunion h _
    | exact fun h => rise_sinsert h _
    | split
    | (apply Touches.set_regs_shadow_dirty; on_goal 1 => decide)

theorem State.resetPage_touches {L : List Part} {s0 : State} (s : State) (page : Nat) (hL : Within [.regs, .shadow, .dirty, .attn] L) (h : Touches L s0 s) :
    Touches L s0 (State.resetPage s page) := by
  refine Touches.step ?_ hL h
  unfold State.resetPage
  try dsimp only
  with_reducible repeat' first
    | exact Touches.refl _ _
    | assumption
    | exact Nat.le_refl _
    | exact Nat.le_add_right _ _
    | exact id
    | (apply State.updAttn_touches; on_goal 1 => decide)
    | (apply State.resetRegs_touches; on_goal 1 => decide)
    | split

theorem State.resetQueue_touches {L : List Part} {s0 : State} (s : State) (t : Fin 16) (q : Fin 8) (hL : Within [.regs, .shadow, .dirty, .attn, .tQueues] L) (h : Touches L s0 s) :
    Touches L s0 (State.resetQueue s t q) := by
  refine Touches.step ?_ hL h
  unfold State.resetQueue
  try dsimp only
  with_reducible repeat' first
    | exact Touches.refl _ _
    | assumption
    | exact Nat.le_refl _
    | exact Nat.le_add_right _ _
    | exact id
    | (apply State.updQueue_touches; on_goal 1 => decide)
    | (apply State.resetPage_touches; on_goal 1 => decide)
    | split

theorem State.bumpCounter_touches {L : List Part} {s0 : State} (s : State) (i : Nat) (hL : Within [.owl] L) (h : Touches L s0 s) :
    Touches L s0 (State.bumpCounter s i) := by
  refine Touches.step ?_ hL h
  unfold State.bumpCounter
  try dsimp only
  with_reducible repeat' first
    | exact Touches.refl _ _
    | assumption
    | exact Nat.le_refl _
    | exact Nat.le_add_right _ _
    | exact id
    | apply Touches.updOwl
    | (intro p hp; cases p <;> first | exact absurd hp (by decide) | (simp only [Part.sameT, Part.sameF, Part.sameO, Tenant.cleared, Tenant.discardFrame, Tenant.startFrame, Tenant.turn, Tenant.reset, and_self]; done))
    | split

theorem State.logEvent_touches {L : List Part} {s0 : State} (s : State) (page event severity : Nat) (result : Byte) (unit : Nat) (data : List Byte) (hL : Within [.attn, .log] L) (h : Touches L s0 s) :
    Touches L s0 (State.logEvent s page event severity result unit data) := by
  refine Touches.step ?_ hL h
  unfold State.logEvent
  try dsimp only
  with_reducible repeat' first
    | exact Touches.refl _ _
    | assumption
    | exact Nat.le_refl _
    | exact Nat.le_add_right _ _
    | exact id
    | exact Nat.le_of_eq (Owl.record_rollback _ _ _ _ _ _ _ _).symm
    | exact fun p hp => Owl.record_same p (fun e => by subst e; exact absurd hp (by decide)) _ _ _ _ _ _ _ _
    | (apply State.raise_touches; on_goal 1 => decide)
    | apply Touches.updOwl
    | (intro p hp; cases p <;> first | exact absurd hp (by decide) | (simp only [Part.sameT, Part.sameF, Part.sameO, Tenant.cleared, Tenant.discardFrame, Tenant.startFrame, Tenant.turn, Tenant.reset, and_self]; done))
    | split

theorem State.dramWrite_touches {L : List Part} {s0 : State} (s : State) (a : Nat) (bs : List Byte) (hL : Within [.dram] L) (h : Touches L s0 s) :
    Touches L s0 (State.dramWrite s a bs) := by
  refine Touches.step ?_ hL h
  unfold State.dramWrite
  try dsimp only
  with_reducible repeat' first
    | exact Touches.refl _ _
    | assumption
    | exact Nat.le_refl _
    | exact Nat.le_add_right _ _
    | exact id
    | exact Dram.ok_write _ _
    | (apply State.updDram_touches; on_goal 1 => decide)
    | split

theorem State.streamBeats_touches {L : List Part} {s0 : State} (s : State) (k target dest : Nat) (l : List (Nat × Nat × List Byte)) (n : Nat) (hL : Within [.lynx] L) (h : Touches L s0 s) :
    Touches L s0 (State.streamBeats s k target dest l n) := by
  refine Touches.step ?_ hL h
  unfold State.streamBeats
  try dsimp only
  with_reducible repeat' first
    | exact Touches.refl _ _
    | assumption
    | exact Nat.le_refl _
    | exact Nat.le_add_right _ _
    | exact id
    | (apply State.updLynx_touches; on_goal 1 => decide)
    | split

theorem State.streamWrite_touches {L : List Part} {s0 : State} (s : State) (k target dest a : Nat) (d : List Byte) (hL : Within [.lynx] L) (h : Touches L s0 s) :
    Touches L s0 (State.streamWrite s k target dest a d) := by
  refine Touches.step ?_ hL h
  unfold State.streamWrite
  try dsimp only
  with_reducible repeat' first
    | exact Touches.refl _ _
    | assumption
    | exact Nat.le_refl _
    | exact Nat.le_add_right _ _
    | exact id
    | (apply State.streamBeats_touches; on_goal 1 => decide)
    | split

theorem State.streamFree_touches {L : List Part} {s0 : State} (s : State) (k n : Nat) (hL : Within [.draws, .lynx] L) (h : Touches L s0 s) :
    Touches L s0 (s.streamFree k n) := by
  refine Touches.step ?_ hL h
  unfold State.streamFree
  try dsimp only
  with_reducible repeat' first
    | exact Touches.refl _ _
    | assumption
    | exact Nat.le_refl _
    | exact Nat.le_add_right _ _
    | exact id
    | (apply State.draw_touches; on_goal 1 => decide)
    | (apply State.updLynx_touches; on_goal 1 => decide)
    | (apply State.updLynx_touches; on_goal 1 => decide)
    | (apply State.draw_touches; on_goal 1 => decide)
    | split

theorem State.streamRecord_touches {L : List Part} {s0 : State} (s : State) (slot : Nat) (d : List Byte) (hL : Within [.lynx] L) (h : Touches L s0 s) :
    Touches L s0 (State.streamRecord s slot d) := by
  refine Touches.step ?_ hL h
  unfold State.streamRecord
  try dsimp only
  with_reducible repeat' first
    | exact Touches.refl _ _
    | assumption
    | exact Nat.le_refl _
    | exact Nat.le_add_right _ _
    | exact id
    | (apply State.streamBeats_touches; on_goal 1 => decide)
    | split

theorem settle_touches {L : List Part} {s0 : State} (s : State) (hL : Within [.attn, .tSched] L) (h : Touches L s0 s) : Touches L s0 (settle s) := by
  refine Touches.step ?_ hL h
  have hk : ∀ k, (settle s).tenant k = { s.tenant k with sched := (s.tenant k).sched.watch s.attn s.settledAttn } := fun k => by
    simp [settle, State.tenant, Bank.at']
  intro p
  refine ⟨fun hp => ⟨?_, fun k => ?_, p.sameF_refl _, p.sameO_refl _⟩, ?_⟩
  · cases p <;> first | exact absurd hp (by decide) | rfl | trivial
  · rw [hk]
    cases p <;> first | exact absurd hp (by decide) | exact True.intro | ((repeat' apply And.intro) <;> exact rfl)
  · cases p <;> first | trivial | exact Nat.le_refl _ | exact id

theorem State.sendMsix_touches {L : List Part} {s0 : State} (s : State) (p : Port) (v : Nat) (hL : Within [.regs, .cfgA, .cfgB] L) (h : Touches L s0 s) :
    Touches L s0 (State.sendMsix s p v) := by
  refine Touches.step ?_ hL h
  unfold State.sendMsix
  try dsimp only
  with_reducible repeat' first
    | exact Touches.refl _ _
    | assumption
    | exact Nat.le_refl _
    | exact Nat.le_add_right _ _
    | exact id
    | (apply State.setLive_touches; on_goal 1 => decide)
    | (apply State.updCfg_touches; on_goal 1 => decide)
    | split

theorem State.reserveFrame_touches {L : List Part} {s0 : State} (s : State) (t : Fin 16) (hL : Within [.tQueues] L) (h : Touches L s0 s) :
    Touches L s0 (State.reserveFrame s t) := by
  refine Touches.step ?_ hL h
  unfold State.reserveFrame
  try dsimp only
  with_reducible repeat' first
    | exact Touches.refl _ _
    | assumption
    | exact Nat.le_refl _
    | exact Nat.le_add_right _ _
    | exact id
    | (apply State.updQueue_touches; on_goal 1 => decide)
    | split

theorem State.refreshActive_touches {L : List Part} {s0 : State} (s : State) (t : Fin 16) (q : Fin 8) (hL : Within [.tQueues] L) (h : Touches L s0 s) :
    Touches L s0 (State.refreshActive s t q) := by
  refine Touches.step ?_ hL h
  unfold State.refreshActive
  try dsimp only
  with_reducible repeat' first
    | exact Touches.refl _ _
    | assumption
    | exact Nat.le_refl _
    | exact Nat.le_add_right _ _
    | exact id
    | (apply State.updQueue_touches; on_goal 1 => decide)
    | split

theorem State.reapQueue_touches {L : List Part} {s0 : State} (s : State) (t : Fin 16) (q : Fin 8) (hL : Within [.regs, .shadow, .dirty, .attn, .tQueues] L) (h : Touches L s0 s) :
    Touches L s0 (State.reapQueue s t q) := by
  refine Touches.step ?_ hL h
  unfold State.reapQueue
  try dsimp only
  with_reducible repeat' first
    | exact Touches.refl _ _
    | assumption
    | exact Nat.le_refl _
    | exact Nat.le_add_right _ _
    | exact id
    | (apply State.resetQueue_touches; on_goal 1 => decide)
    | split

theorem State.completeCmd_touches {L : List Part} {s0 : State} (s : State) (t : Fin 16) (c : Cmd) (result : Byte) (detail : BitVec 160) (hL : Within [.regs, .shadow, .dirty, .attn, .tQueues, .tCmds] L) (h : Touches L s0 s) :
    Touches L s0 (State.completeCmd s t c result detail) := by
  refine Touches.step ?_ hL h
  unfold State.completeCmd
  try dsimp only
  with_reducible repeat' first
    | exact Touches.refl _ _
    | assumption
    | exact Nat.le_refl _
    | exact Nat.le_add_right _ _
    | exact id
    | (apply State.reapQueue_touches; on_goal 1 => decide)
    | (apply State.updQueue_touches; on_goal 1 => decide)
    | apply Touches.updTenant
    | (intro p hp; cases p <;> first | exact absurd hp (by decide) | (simp only [Part.sameT, Part.sameF, Part.sameO, Tenant.cleared, Tenant.discardFrame, Tenant.startFrame, Tenant.turn, Tenant.reset, and_self]; done))
    | split

theorem State.holdCmd_touches {L : List Part} {s0 : State} (s : State) (t : Fin 16) (c : Cmd) (data : List Byte) (hL : Within [.tCmds] L) (h : Touches L s0 s) :
    Touches L s0 (State.holdCmd s t c data) := by
  refine Touches.step ?_ hL h
  unfold State.holdCmd
  try dsimp only
  with_reducible repeat' first
    | exact Touches.refl _ _
    | assumption
    | exact Nat.le_refl _
    | exact Nat.le_add_right _ _
    | exact id
    | apply Touches.updTenant
    | (intro p hp; cases p <;> first | exact absurd hp (by decide) | (simp only [Part.sameT, Part.sameF, Part.sameO, Tenant.cleared, Tenant.discardFrame, Tenant.startFrame, Tenant.turn, Tenant.reset, and_self]; done))
    | split

theorem State.refuseCmd_touches {L : List Part} {s0 : State} (s : State) (t : Fin 16) (c : Cmd) (code : Byte) (off : Nat) (inBuffer : Bool) (hL : Within [.regs, .shadow, .dirty, .attn, .tQueues, .tCmds] L) (h : Touches L s0 s) :
    Touches L s0 (State.refuseCmd s t c code off inBuffer) := by
  refine Touches.step ?_ hL h
  unfold State.refuseCmd
  try dsimp only
  with_reducible repeat' first
    | exact Touches.refl _ _
    | assumption
    | exact Nat.le_refl _
    | exact Nat.le_add_right _ _
    | exact id
    | (apply State.completeCmd_touches; on_goal 1 => decide)
    | split

theorem State.completeAll_touches {L : List Part} {s0 : State} (s : State) (t : Fin 16) (l : List Cmd) (result : Byte) (hL : Within [.regs, .shadow, .dirty, .attn, .tQueues, .tCmds] L) (h : Touches L s0 s) :
    Touches L s0 (State.completeAll s t l result) := by
  refine Touches.step ?_ hL h
  unfold State.completeAll
  try dsimp only
  with_reducible repeat' first
    | exact Touches.refl _ _
    | assumption
    | exact Nat.le_refl _
    | exact Nat.le_add_right _ _
    | exact id
    | refine Touches.forEach ?_ (fun _ _ _ => ?_)
    | (apply State.completeCmd_touches; on_goal 1 => decide)
    | split

theorem State.passTurn_touches {L : List Part} {s0 : State} (s : State) (t : Fin 16) (q : Fin 8) (hL : Within [.cfgA, .cfgB, .tQueues] L) (h : Touches L s0 s) :
    Touches L s0 (s.passTurn t q) := by
  refine Touches.step ?_ hL h
  unfold State.passTurn
  try dsimp only
  with_reducible repeat' first
    | exact Touches.refl _ _
    | assumption
    | exact Nat.le_refl _
    | exact Nat.le_add_right _ _
    | exact id
    | (apply State.updCfg_touches; on_goal 1 => decide)
    | (apply State.updCfg_touches; on_goal 1 => decide)
    | apply Touches.updTenant
    | (intro p hp; cases p <;> first | exact absurd hp (by decide) | (simp only [Part.sameT, Part.sameF, Part.sameO, Tenant.cleared, Tenant.discardFrame, Tenant.startFrame, Tenant.turn, Tenant.reset, and_self]; done))
    | split

theorem State.fetchCommand_touches {L : List Part} {s0 : State} (s : State) (t : Fin 16) (q : Fin 8) (w : BitVec 512) (hL : Within [.regs, .shadow, .dirty, .cfgA, .cfgB, .attn, .tOut, .tQueues, .tCmds] L) (h : Touches L s0 s) :
    Touches L s0 (s.fetchCommand t q w) := by
  refine Touches.step ?_ hL h
  unfold State.fetchCommand
  try dsimp only
  with_reducible repeat' first
    | exact Touches.refl _ _
    | assumption
    | exact Nat.le_refl _
    | exact Nat.le_add_right _ _
    | exact id
    | (apply State.passTurn_touches; on_goal 1 => decide)
    | (apply State.updQueue_touches; on_goal 1 => decide)
    | (apply State.noteTiming_touches; on_goal 1 => decide)
    | (apply State.refuseCmd_touches; on_goal 1 => decide)
    | (apply State.updQueue_touches; on_goal 1 => decide)
    | apply Touches.updTenant
    | (intro p hp; cases p <;> first | exact absurd hp (by decide) | (simp only [Part.sameT, Part.sameF, Part.sameO, Tenant.cleared, Tenant.discardFrame, Tenant.startFrame, Tenant.turn, Tenant.reset, and_self]; done))
    | split

theorem State.ringSq_touches {L : List Part} {s0 : State} (s : State) (p : Port) (t : Fin 16) (q : Fin 8) (v : Word)
    (hL : Within [.doorbells, .tQueues] L) (h : Touches L s0 s) : Touches L s0 (s.ringSq p t q v) := by
  refine Touches.step ?_ hL h
  unfold State.ringSq
  dsimp only
  split
  · exact Touches.refl _ _
  · split
    · exact State.updQueue_touches _ _ _ _ (by decide) (Touches.refl _ _)
    · refine Touches.set_doorbells _ _ (by decide) (State.updQueue_touches _ _ _ _ (by decide) (Touches.refl _ _)) ?_
      exact Nat.le_add_right _ _

theorem State.ringCq_touches {L : List Part} {s0 : State} (s : State) (p : Port) (t : Fin 16) (q : Fin 8) (v : Word) (hL : Within [.tQueues] L) (h : Touches L s0 s) :
    Touches L s0 (State.ringCq s p t q v) := by
  refine Touches.step ?_ hL h
  unfold State.ringCq
  try dsimp only
  with_reducible repeat' first
    | exact Touches.refl _ _
    | assumption
    | exact Nat.le_refl _
    | exact Nat.le_add_right _ _
    | exact id
    | (apply State.updQueue_touches; on_goal 1 => decide)
    | (apply State.reserveFrame_touches; on_goal 1 => decide)
    | split

theorem State.irq_touches {L : List Part} {s0 : State} (s : State) (t : Fin 16) (q : Fin 8) (hL : Within [.regs, .cfgA, .cfgB] L) (h : Touches L s0 s) :
    Touches L s0 (State.irq s t q) := by
  refine Touches.step ?_ hL h
  unfold State.irq
  try dsimp only
  with_reducible repeat' first
    | exact Touches.refl _ _
    | assumption
    | exact Nat.le_refl _
    | exact Nat.le_add_right _ _
    | exact id
    | (apply State.sendMsix_touches; on_goal 1 => decide)
    | split

theorem State.writeCompletion_touches {L : List Part} {s0 : State} (s : State) (t : Fin 16) (q : Fin 8) (hL : Within [.regs, .cfgA, .cfgB, .tQueues] L) (h : Touches L s0 s) :
    Touches L s0 (State.writeCompletion s t q) := by
  refine Touches.step ?_ hL h
  unfold State.writeCompletion
  try dsimp only
  with_reducible repeat' first
    | exact Touches.refl _ _
    | assumption
    | exact Nat.le_refl _
    | exact Nat.le_add_right _ _
    | exact id
    | (apply State.updQueue_touches; on_goal 1 => decide)
    | (apply State.refreshActive_touches; on_goal 1 => decide)
    | (apply State.reserveFrame_touches; on_goal 1 => decide)
    | (apply State.irq_touches; on_goal 1 => decide)
    | split

theorem State.writeFrame_touches {L : List Part} {s0 : State} (s : State) (t : Fin 16) (d : FrameDone) (backlog : Nat) (hL : Within [.regs, .cfgA, .cfgB, .tQueues, .tRings, .lynx] L) (h : Touches L s0 s) :
    Touches L s0 (s.writeFrame t d backlog) := by
  refine Touches.step ?_ hL h
  unfold State.writeFrame
  try dsimp only
  with_reducible repeat' first
    | exact Touches.refl _ _
    | assumption
    | exact Nat.le_refl _
    | exact Nat.le_add_right _ _
    | exact id
    | (apply State.streamRecord_touches; on_goal 1 => decide)
    | (apply State.updQueue_touches; on_goal 1 => decide)
    | (apply State.irq_touches; on_goal 1 => decide)
    | (apply State.updQueue_touches; on_goal 1 => decide)
    | apply Touches.updTenant
    | (intro p hp; cases p <;> first | exact absurd hp (by decide) | (simp only [Part.sameT, Part.sameF, Part.sameO, Tenant.cleared, Tenant.discardFrame, Tenant.startFrame, Tenant.turn, Tenant.reset, and_self]; done))
    | split

theorem State.writeFrameCompletion_touches {L : List Part} {s0 : State} (s : State) (t : Fin 16) (hL : Within [.regs, .cfgA, .cfgB, .tQueues, .tDone, .tRings, .lynx] L) (h : Touches L s0 s) :
    Touches L s0 (State.writeFrameCompletion s t) := by
  refine Touches.step ?_ hL h
  unfold State.writeFrameCompletion
  try dsimp only
  with_reducible repeat' first
    | exact Touches.refl _ _
    | assumption
    | exact Nat.le_refl _
    | exact Nat.le_add_right _ _
    | exact id
    | (apply State.writeFrame_touches; on_goal 1 => decide)
    | (apply State.refreshActive_touches; on_goal 1 => decide)
    | (apply State.reserveFrame_touches; on_goal 1 => decide)
    | (apply State.updQueue_touches; on_goal 1 => decide)
    | apply Touches.updTenant
    | (intro p hp; cases p <;> first | exact absurd hp (by decide) | (simp only [Part.sameT, Part.sameF, Part.sameO, Tenant.cleared, Tenant.discardFrame, Tenant.startFrame, Tenant.turn, Tenant.reset, and_self]; done))
    | split

theorem State.fixDone_touches {L : List Part} {s0 : State} (s : State) (t : Fin 16) (d : FrameDone) (hL : Within [.tDone] L) (h : Touches L s0 s) :
    Touches L s0 (State.fixDone s t d) := by
  refine Touches.step ?_ hL h
  unfold State.fixDone
  try dsimp only
  with_reducible repeat' first
    | exact Touches.refl _ _
    | assumption
    | exact Nat.le_refl _
    | exact Nat.le_add_right _ _
    | exact id
    | apply Touches.updTenant
    | (intro p hp; cases p <;> first | exact absurd hp (by decide) | (simp only [Part.sameT, Part.sameF, Part.sameO, Tenant.cleared, Tenant.discardFrame, Tenant.startFrame, Tenant.turn, Tenant.reset, and_self]; done))
    | split

theorem State.clearDmaErr_touches {L : List Part} {s0 : State} (s : State) (p : Port) (t : Fin 16) (q : Fin 8) (hL : Within [.tQueues] L) (h : Touches L s0 s) :
    Touches L s0 (State.clearDmaErr s p t q) := by
  refine Touches.step ?_ hL h
  unfold State.clearDmaErr
  try dsimp only
  with_reducible repeat' first
    | exact Touches.refl _ _
    | assumption
    | exact Nat.le_refl _
    | exact Nat.le_add_right _ _
    | exact id
    | (apply State.updQueue_touches; on_goal 1 => decide)
    | split

theorem State.setDmaErr_touches {L : List Part} {s0 : State} (s : State) (t : Fin 16) (q : Fin 8) (_what : DmaFailure) (hL : Within [.attn, .tOut, .tQueues] L) (h : Touches L s0 s) :
    Touches L s0 (State.setDmaErr s t q _what) := by
  refine Touches.step ?_ hL h
  unfold State.setDmaErr
  try dsimp only
  with_reducible repeat' first
    | exact Touches.refl _ _
    | assumption
    | exact Nat.le_refl _
    | exact Nat.le_add_right _ _
    | exact id
    | (apply State.noteTiming_touches; on_goal 1 => decide)
    | (apply State.bumpErr_touches; on_goal 1 => decide)
    | (apply State.updQueue_touches; on_goal 1 => decide)
    | split

theorem State.nopCmd_touches {L : List Part} {s0 : State} (s : State) (t : Fin 16) (tag : Nat) (hL : Within [.regs, .shadow, .dirty, .attn, .tQueues, .tCmds] L) (h : Touches L s0 s) :
    Touches L s0 (State.nopCmd s t tag) := by
  refine Touches.step ?_ hL h
  unfold State.nopCmd
  try dsimp only
  with_reducible repeat' first
    | exact Touches.refl _ _
    | assumption
    | exact Nat.le_refl _
    | exact Nat.le_add_right _ _
    | exact id
    | (apply State.completeCmd_touches; on_goal 1 => decide)
    | split

theorem State.writeResult_touches {L : List Part} {s0 : State} (s : State) (t : Fin 16) (a : Nat) (d : List Byte) (hL : Within [.tSched, .dram] L) (h : Touches L s0 s) :
    Touches L s0 (s.writeResult t a d) := by
  refine Touches.step ?_ hL h
  unfold State.writeResult
  try dsimp only
  with_reducible repeat' first
    | exact Touches.refl _ _
    | assumption
    | exact Nat.le_refl _
    | exact Nat.le_add_right _ _
    | exact id
    | (apply State.dramWrite_touches; on_goal 1 => decide)
    | (apply State.updSched_touches; on_goal 1 => decide)
    | (apply State.updSched_touches; on_goal 1 => decide)
    | split

theorem State.trace_touches {L : List Part} {s0 : State} (s : State) (kind : Nat) (t : Fin 16) (i : TraceInfo) (hL : Within [.draws, .regs, .dram] L) (h : Touches L s0 s) :
    Touches L s0 (State.trace s kind t i) := by
  refine Touches.step ?_ hL h
  unfold State.trace
  try dsimp only
  with_reducible repeat' first
    | exact Touches.refl _ _
    | assumption
    | exact Nat.le_refl _
    | exact Nat.le_add_right _ _
    | exact id
    | (apply State.setLive_touches; on_goal 1 => decide)
    | (apply State.dramWrite_touches; on_goal 1 => decide)
    | (apply State.draw_touches; on_goal 1 => decide)
    | split

theorem State.traceTask_touches {L : List Part} {s0 : State} (s : State) (kind : Nat) (t : Fin 16) (i vcore ident arg : Nat) (hL : Within [.draws, .regs, .dram] L) (h : Touches L s0 s) :
    Touches L s0 (State.traceTask s kind t i vcore ident arg) := by
  refine Touches.step ?_ hL h
  unfold State.traceTask
  try dsimp only
  with_reducible repeat' first
    | exact Touches.refl _ _
    | assumption
    | exact Nat.le_refl _
    | exact Nat.le_add_right _ _
    | exact id
    | (apply State.trace_touches; on_goal 1 => decide)
    | split

theorem State.notePeak_touches {L : List Part} {s0 : State} (s : State) (c : Nat) (hL : Within [.regs] L) (h : Touches L s0 s) :
    Touches L s0 (State.notePeak s c) := by
  refine Touches.step ?_ hL h
  unfold State.notePeak
  try dsimp only
  with_reducible repeat' first
    | exact Touches.refl _ _
    | assumption
    | exact Nat.le_refl _
    | exact Nat.le_add_right _ _
    | exact id
    | (apply State.setLive_touches; on_goal 1 => decide)
    | split

theorem State.putPart_touches {L : List Part} {s0 : State} (s : State) (p : PartRef) (hL : Within [.regs, .cores] L) (h : Touches L s0 s) :
    Touches L s0 (State.putPart s p) := by
  refine Touches.step ?_ hL h
  unfold State.putPart
  try dsimp only
  with_reducible repeat' first
    | exact Touches.refl _ _
    | assumption
    | exact Nat.le_refl _
    | exact Nat.le_add_right _ _
    | exact id
    | (apply State.notePeak_touches; on_goal 1 => decide)
    | (apply State.updCore_touches; on_goal 1 => decide)
    | split

theorem State.dropParts_touches {L : List Part} {s0 : State} (s : State) (t : Fin 16) (keep : PartRef → Bool) (hL : Within [.cores] L) (h : Touches L s0 s) :
    Touches L s0 (State.dropParts s t keep) := by
  refine Touches.step ?_ hL h
  unfold State.dropParts
  try dsimp only
  with_reducible repeat' first
    | exact Touches.refl _ _
    | assumption
    | exact Nat.le_refl _
    | exact Nat.le_add_right _ _
    | exact id
    | split
    | (apply Touches.set_cores; on_goal 1 => decide)

theorem State.cut_touches {L : List Part} {s0 : State} (s : State) (t : Fin 16) (k : Nat) (hL : Within [.tOut] L) (h : Touches L s0 s) :
    Touches L s0 (State.cut s t k) := by
  refine Touches.step ?_ hL h
  unfold State.cut
  try dsimp only
  with_reducible repeat' first
    | exact Touches.refl _ _
    | assumption
    | exact Nat.le_refl _
    | exact Nat.le_add_right _ _
    | exact id
    | (apply State.updOut_touches; on_goal 1 => decide)
    | split

theorem State.noteCut_touches {L : List Part} {s0 : State} (s : State) (t : Fin 16) (k i : Nat) (hL : Within [.draws, .regs, .tOut, .dram] L) (h : Touches L s0 s) :
    Touches L s0 (s.noteCut t k i) := by
  refine Touches.step ?_ hL h
  unfold State.noteCut
  try dsimp only
  with_reducible repeat' first
    | exact Touches.refl _ _
    | assumption
    | exact Nat.le_refl _
    | exact Nat.le_add_right _ _
    | exact id
    | (apply State.cut_touches; on_goal 1 => decide)
    | (apply State.traceTask_touches; on_goal 1 => decide)
    | split

theorem State.endTask_touches {L : List Part} {s0 : State} (s : State) (t : Fin 16) (i : Nat) (status : Byte) (hL : Within [.tSched] L) (h : Touches L s0 s) :
    Touches L s0 (State.endTask s t i status) := by
  refine Touches.step ?_ hL h
  unfold State.endTask
  try dsimp only
  with_reducible repeat' first
    | exact Touches.refl _ _
    | assumption
    | exact Nat.le_refl _
    | exact Nat.le_add_right _ _
    | exact id
    | (apply State.updSched_touches; on_goal 1 => decide)
    | split

theorem State.accrue_touches {L : List Part} {s0 : State} (s : State) (hL : Within [.cores] L) (h : Touches L s0 s) :
    Touches L s0 (s.accrue) := by
  refine Touches.step ?_ hL h
  unfold State.accrue
  try dsimp only
  with_reducible repeat' first
    | exact Touches.refl _ _
    | assumption
    | exact Nat.le_refl _
    | exact Nat.le_add_right _ _
    | exact id
    | (apply Touches.set_cores; on_goal 1 => decide)
    | split

theorem State.dropWork_touches {L : List Part} {s0 : State} (s : State) (t : Fin 16) (hL : Within [.tSearch, .tSolver, .tSel, .bears, .jays, .cores] L) (h : Touches L s0 s) :
    Touches L s0 (State.dropWork s t) := by
  refine Touches.step ?_ hL h
  unfold State.dropWork
  try dsimp only
  with_reducible repeat' first
    | exact Touches.refl _ _
    | assumption
    | exact Nat.le_refl _
    | exact Nat.le_add_right _ _
    | exact id
    | (apply State.dropParts_touches; on_goal 1 => decide)
    | (apply State.updSearch_touches; on_goal 1 => decide)
    | (apply State.updSolver_touches; on_goal 1 => decide)
    | (apply State.updSel_touches; on_goal 1 => decide)
    | split
    | (apply Touches.set_cores_bears_jays; on_goal 1 => decide)

theorem State.abortTasks_touches {L : List Part} {s0 : State} (s : State) (t : Fin 16) (code : Byte) (hL : Within [.draws, .regs, .tSearch, .tSolver, .tSel, .tSched, .bears, .jays, .cores, .dram, .cascade] L) (h : Touches L s0 s) :
    Touches L s0 (State.abortTasks s t code) := by
  refine Touches.step ?_ hL h
  unfold State.abortTasks
  try dsimp only
  with_reducible repeat' first
    | exact Touches.refl _ _
    | assumption
    | exact Nat.le_refl _
    | exact Nat.le_add_right _ _
    | exact id
    | refine Touches.forEach ?_ (fun _ _ _ => ?_)
    | (apply State.traceTask_touches; on_goal 1 => decide)
    | (apply State.dropWork_touches; on_goal 1 => decide)
    | (apply State.updCascade_touches; on_goal 1 => decide)
    | (apply State.updSched_touches; on_goal 1 => decide)
    | split

theorem State.assertSafe_touches {L : List Part} {s0 : State} (s : State) (hL : Within [.safe] L) (h : Touches L s0 s) :
    Touches L s0 (State.assertSafe s) := by
  refine Touches.step ?_ hL h
  unfold State.assertSafe
  try dsimp only
  with_reducible repeat' first
    | exact Touches.refl _ _
    | assumption
    | exact Nat.le_refl _
    | exact Nat.le_add_right _ _
    | exact id
    | apply Touches.updFrame
    | (intro p hp; cases p <;> first | exact absurd hp (by decide) | (simp only [Part.sameT, Part.sameF, Part.sameO, Tenant.cleared, Tenant.discardFrame, Tenant.startFrame, Tenant.turn, Tenant.reset, and_self]; done))
    | split

theorem State.judgeImminent_touches {L : List Part} {s0 : State} (s : State) (t : Fin 16) (hL : Within [.safe, .tOut] L) (h : Touches L s0 s) :
    Touches L s0 (s.judgeImminent t) := by
  refine Touches.step ?_ hL h
  unfold State.judgeImminent
  try dsimp only
  with_reducible repeat' first
    | exact Touches.refl _ _
    | assumption
    | exact Nat.le_refl _
    | exact Nat.le_add_right _ _
    | exact id
    | (apply State.updOut_touches; on_goal 1 => decide)
    | (apply State.assertSafe_touches; on_goal 1 => decide)
    | (apply State.updOut_touches; on_goal 1 => decide)
    | split

theorem State.failFrame_touches {L : List Part} {s0 : State} (s : State) (t : Fin 16) (code : Byte) (hL : Within [.draws, .regs, .safe, .tSearch, .tSolver, .tSel, .tSched, .tOut, .bears, .jays, .cores, .dram, .cascade] L) (h : Touches L s0 s) :
    Touches L s0 (s.failFrame t code) := by
  refine Touches.step ?_ hL h
  unfold State.failFrame
  try dsimp only
  with_reducible repeat' first
    | exact Touches.refl _ _
    | assumption
    | exact Nat.le_refl _
    | exact Nat.le_add_right _ _
    | exact id
    | (apply State.abortTasks_touches; on_goal 1 => decide)
    | (apply State.updOut_touches; on_goal 1 => decide)
    | (apply State.judgeImminent_touches; on_goal 1 => decide)
    | (apply State.updOut_touches; on_goal 1 => decide)
    | split

theorem State.programFault_touches {L : List Part} {s0 : State} (s : State) (t : Fin 16) (code : Byte) (hL : Within [.draws, .regs, .attn, .safe, .tState, .tSearch, .tSolver, .tSel, .tSched, .tOut, .bears, .jays, .cores, .dram, .cascade] L) (h : Touches L s0 s) :
    Touches L s0 (State.programFault s t code) := by
  refine Touches.step ?_ hL h
  unfold State.programFault
  try dsimp only
  with_reducible repeat' first
    | exact Touches.refl _ _
    | assumption
    | exact Nat.le_refl _
    | exact Nat.le_add_right _ _
    | exact id
    | (apply State.failFrame_touches; on_goal 1 => decide)
    | (apply State.bumpErr_touches; on_goal 1 => decide)
    | (apply State.raise_touches; on_goal 1 => decide)
    | apply Touches.updTenant
    | (intro p hp; cases p <;> first | exact absurd hp (by decide) | (simp only [Part.sameT, Part.sameF, Part.sameO, Tenant.cleared, Tenant.discardFrame, Tenant.startFrame, Tenant.turn, Tenant.reset, and_self]; done))
    | split

theorem State.makeReady_touches {L : List Part} {s0 : State} (s : State) (t : Fin 16) (i : Nat) (hL : Within [.draws, .regs, .safe, .tSearch, .tSolver, .tSel, .tSched, .tOut, .bears, .jays, .cores, .dram, .cascade] L) (h : Touches L s0 s) :
    Touches L s0 (s.makeReady t i) := by
  refine Touches.step ?_ hL h
  unfold State.makeReady
  try dsimp only
  with_reducible repeat' first
    | exact Touches.refl _ _
    | assumption
    | exact Nat.le_refl _
    | exact Nat.le_add_right _ _
    | exact id
    | (apply State.updSched_touches; on_goal 1 => decide)
    | (apply State.traceTask_touches; on_goal 1 => decide)
    | (apply State.noteCut_touches; on_goal 1 => decide)
    | (apply State.endTask_touches; on_goal 1 => decide)
    | (apply State.failFrame_touches; on_goal 1 => decide)
    | (apply State.putPart_touches; on_goal 1 => decide)
    | refine Touches.forEach ?_ (fun _ _ _ => ?_)
    | (apply State.updSched_touches; on_goal 1 => decide)
    | split

theorem State.wakeBlocked_touches {L : List Part} {s0 : State} (s : State) (t : Fin 16) (hL : Within [.draws, .regs, .safe, .tSearch, .tSolver, .tSel, .tSched, .tOut, .bears, .jays, .cores, .dram, .cascade] L) (h : Touches L s0 s) :
    Touches L s0 (State.wakeBlocked s t) := by
  refine Touches.step ?_ hL h
  unfold State.wakeBlocked
  try dsimp only
  with_reducible repeat' first
    | exact Touches.refl _ _
    | assumption
    | exact Nat.le_refl _
    | exact Nat.le_add_right _ _
    | exact id
    | refine Touches.forEach ?_ (fun _ _ _ => ?_)
    | (apply State.makeReady_touches; on_goal 1 => decide)
    | split

theorem State.retireTask_touches {L : List Part} {s0 : State} (s : State) (t : Fin 16) (i : Nat) (status : Byte) (flag : Bool) (hL : Within [.draws, .regs, .safe, .tSearch, .tSolver, .tSel, .tSched, .tOut, .bears, .jays, .cores, .dram, .cascade] L) (h : Touches L s0 s) :
    Touches L s0 (s.retireTask t i status flag) := by
  refine Touches.step ?_ hL h
  unfold State.retireTask
  try dsimp only
  with_reducible repeat' first
    | exact Touches.refl _ _
    | assumption
    | exact Nat.le_refl _
    | exact Nat.le_add_right _ _
    | exact id
    | (apply State.traceTask_touches; on_goal 1 => decide)
    | (apply State.updCascade_touches; on_goal 1 => decide)
    | (apply State.updSched_touches; on_goal 1 => decide)
    | (apply State.wakeBlocked_touches; on_goal 1 => decide)
    | (apply State.updSched_touches; on_goal 1 => decide)
    | (apply State.updCascade_touches; on_goal 1 => decide)
    | split

theorem State.wakeWaits_touches {L : List Part} {s0 : State} (s : State) (t : Fin 16) (n : Nat) (hL : Within [.draws, .regs, .safe, .tSearch, .tSolver, .tSel, .tSched, .tOut, .bears, .jays, .cores, .dram, .cascade] L)
    (h : Touches L s0 s) : Touches L s0 (s.wakeWaits t n) := by
  induction n generalizing s with
  | zero => exact h
  | succ n ih =>
    unfold State.wakeWaits
    dsimp only
    split
    · exact h
    · refine ih _ ?_
      refine Touches.step ?_ hL h
      with_reducible repeat' first
        | exact Touches.refl _ _
        | assumption
        | (apply State.retireTask_touches; on_goal 1 => decide)
        | (apply State.updSched_touches; on_goal 1 => decide)
        | (apply State.traceTask_touches; on_goal 1 => decide)
        | split

theorem State.evalWaits_touches {L : List Part} {s0 : State} (s : State) (t : Fin 16) (hL : Within [.draws, .regs, .safe, .tSearch, .tSolver, .tSel, .tSched, .tOut, .bears, .jays, .cores, .dram, .cascade] L) (h : Touches L s0 s) :
    Touches L s0 (s.evalWaits t) := by
  refine Touches.step ?_ hL h
  unfold State.evalWaits
  try dsimp only
  with_reducible repeat' first
    | exact Touches.refl _ _
    | assumption
    | exact Nat.le_refl _
    | exact Nat.le_add_right _ _
    | exact id
    | (apply State.wakeWaits_touches; on_goal 1 => decide)
    | split

theorem State.hold_touches {L : List Part} {s0 : State} (s : State) (hL : Within [.frame] L) (h : Touches L s0 s) :
    Touches L s0 (s.hold) := by
  refine Touches.step ?_ hL h
  unfold State.hold
  try dsimp only
  with_reducible repeat' first
    | exact Touches.refl _ _
    | assumption
    | exact Nat.le_refl _
    | exact Nat.le_add_right _ _
    | exact id
    | apply Touches.updFrame
    | (intro p hp; cases p <;> first | exact absurd hp (by decide) | (simp only [Part.sameT, Part.sameF, Part.sameO, Tenant.cleared, Tenant.discardFrame, Tenant.startFrame, Tenant.turn, Tenant.reset, and_self]; done))
    | split

theorem State.unhold_touches {L : List Part} {s0 : State} (s : State) (hL : Within [.draws, .regs, .safe, .frame, .tSearch, .tSolver, .tSel, .tSched, .tOut, .bears, .jays, .cores, .dram, .cascade] L) (h : Touches L s0 s) :
    Touches L s0 (s.unhold) := by
  refine Touches.step ?_ hL h
  unfold State.unhold
  try dsimp only
  with_reducible repeat' first
    | exact Touches.refl _ _
    | assumption
    | exact Nat.le_refl _
    | exact Nat.le_add_right _ _
    | exact id
    | (apply State.evalWaits_touches; on_goal 1 => decide)
    | refine Touches.forTenants ?_ (fun _ _ _ => ?_)
    | apply Touches.updFrame
    | (intro p hp; cases p <;> first | exact absurd hp (by decide) | (simp only [Part.sameT, Part.sameF, Part.sameO, Tenant.cleared, Tenant.discardFrame, Tenant.startFrame, Tenant.turn, Tenant.reset, and_self]; done))
    | split

theorem State.setFlag_touches {L : List Part} {s0 : State} (s : State) (t : Fin 16) (f : Nat) (hL : Within [.draws, .regs, .safe, .tSearch, .tSolver, .tSel, .tSched, .tOut, .bears, .jays, .cores, .dram, .cascade] L) (h : Touches L s0 s) :
    Touches L s0 (State.setFlag s t f) := by
  refine Touches.step ?_ hL h
  unfold State.setFlag
  try dsimp only
  with_reducible repeat' first
    | exact Touches.refl _ _
    | assumption
    | exact Nat.le_refl _
    | exact Nat.le_add_right _ _
    | exact id
    | (apply State.evalWaits_touches; on_goal 1 => decide)
    | (apply State.updSched_touches; on_goal 1 => decide)
    | split

theorem State.retireFree_touches {L : List Part} {s0 : State} (s : State) (t : Fin 16) (i : Nat) (hL : Within [.draws, .regs, .safe, .tSearch, .tSolver, .tSel, .tSched, .tOut, .bears, .jays, .cores, .dram, .cascade] L) (h : Touches L s0 s) :
    Touches L s0 (s.retireFree t i) := by
  refine Touches.step ?_ hL h
  unfold State.retireFree
  try dsimp only
  with_reducible repeat' first
    | exact Touches.refl _ _
    | assumption
    | exact Nat.le_refl _
    | exact Nat.le_add_right _ _
    | exact id
    | (apply State.retireTask_touches; on_goal 1 => decide)
    | split

theorem State.tryRetire_touches {L : List Part} {s0 : State} (s : State) (t : Fin 16) (i : Nat) (hL : Within [.draws, .regs, .safe, .tSearch, .tSolver, .tSel, .tSched, .tOut, .bears, .jays, .cores, .dram, .cascade] L) (h : Touches L s0 s) :
    Touches L s0 (s.tryRetire t i) := by
  refine Touches.step ?_ hL h
  unfold State.tryRetire
  try dsimp only
  with_reducible repeat' first
    | exact Touches.refl _ _
    | assumption
    | exact Nat.le_refl _
    | exact Nat.le_add_right _ _
    | exact id
    | (apply State.retireFree_touches; on_goal 1 => decide)
    | (apply State.evalWaits_touches; on_goal 1 => decide)
    | split

theorem State.finishTask_touches {L : List Part} {s0 : State} (s : State) (t : Fin 16) (i : Nat) (status : Byte) (hL : Within [.draws, .regs, .safe, .tSearch, .tSolver, .tSel, .tSched, .tOut, .bears, .jays, .cores, .dram, .cascade] L) (h : Touches L s0 s) :
    Touches L s0 (State.finishTask s t i status) := by
  refine Touches.step ?_ hL h
  unfold State.finishTask
  try dsimp only
  with_reducible repeat' first
    | exact Touches.refl _ _
    | assumption
    | exact Nat.le_refl _
    | exact Nat.le_add_right _ _
    | exact id
    | (apply State.tryRetire_touches; on_goal 1 => decide)
    | (apply State.endTask_touches; on_goal 1 => decide)
    | split

theorem State.cancelTasks_touches {L : List Part} {s0 : State} (s : State) (t : Fin 16) (l : List Nat) (hL : Within [.draws, .regs, .tSched, .cores, .dram] L) (h : Touches L s0 s) :
    Touches L s0 (State.cancelTasks s t l) := by
  refine Touches.step ?_ hL h
  unfold State.cancelTasks
  try dsimp only
  with_reducible repeat' first
    | exact Touches.refl _ _
    | assumption
    | exact Nat.le_refl _
    | exact Nat.le_add_right _ _
    | exact id
    | refine Touches.forEach ?_ (fun _ _ _ => ?_)
    | (apply State.traceTask_touches; on_goal 1 => decide)
    | (apply State.updSched_touches; on_goal 1 => decide)
    | (apply State.dropParts_touches; on_goal 1 => decide)
    | split

theorem State.takeSlot_touches {L : List Part} {s0 : State} (s : State) (t : Fin 16) (i : Nat) (hL : Within [.draws, .regs, .safe, .tSearch, .tSolver, .tSel, .tSched, .tOut, .bears, .jays, .cores, .slotsPeak, .dram, .cascade] L)
    (h : Touches L s0 s) : Touches L s0 (s.takeSlot t i) := by
  refine Touches.step ?_ hL h
  unfold State.takeSlot
  extract_lets k s2 s3 s4
  have h2 : Touches [.draws, .regs, .safe, .tSearch, .tSolver, .tSel, .tSched, .tOut, .bears, .jays, .cores, .slotsPeak, .dram, .cascade] s s2 := State.updSched_touches _ _ _ (by decide) (Touches.refl _ _)
  have h3 : Touches [.draws, .regs, .safe, .tSearch, .tSolver, .tSel, .tSched, .tOut, .bears, .jays, .cores, .slotsPeak, .dram, .cascade] s s3 := Touches.set_slotsPeak _ _ (by decide) h2
  have h4 : Touches [.draws, .regs, .safe, .tSearch, .tSolver, .tSel, .tSched, .tOut, .bears, .jays, .cores, .slotsPeak, .dram, .cascade] s s4 := State.traceTask_touches _ _ _ _ _ _ _ (by decide) h3
  split
  · exact State.makeReady_touches _ _ _ (by decide) h4
  · exact h4

theorem State.fetchTask_touches {L : List Part} {s0 : State} (s : State) (t : Fin 16) (hL : Within [.draws, .regs, .safe, .frame, .tSearch, .tSolver, .tSel, .tSched, .tOut, .bears, .jays, .cores, .slotsPeak, .dram, .cascade] L) (h : Touches L s0 s) :
    Touches L s0 (s.fetchTask t) := by
  refine Touches.step ?_ hL h
  unfold State.fetchTask
  try dsimp only
  with_reducible repeat' first
    | exact Touches.refl _ _
    | assumption
    | exact Nat.le_refl _
    | exact Nat.le_add_right _ _
    | exact id
    | (apply State.updSched_touches; on_goal 1 => decide)
    | (apply State.takeSlot_touches; on_goal 1 => decide)
    | (apply State.updSched_touches; on_goal 1 => decide)
    | apply Touches.updFrame
    | (intro p hp; cases p <;> first | exact absurd hp (by decide) | (simp only [Part.sameT, Part.sameF, Part.sameO, Tenant.cleared, Tenant.discardFrame, Tenant.startFrame, Tenant.turn, Tenant.reset, and_self]; done))
    | split

theorem State.startWait_touches {L : List Part} {s0 : State} (s : State) (t : Fin 16) (i : Nat) (hL : Within [.draws, .regs, .safe, .tSearch, .tSolver, .tSel, .tSched, .tOut, .bears, .jays, .cores, .dram, .cascade] L) (h : Touches L s0 s) :
    Touches L s0 (s.startWait t i) := by
  refine Touches.step ?_ hL h
  unfold State.startWait
  try dsimp only
  with_reducible repeat' first
    | exact Touches.refl _ _
    | assumption
    | exact Nat.le_refl _
    | exact Nat.le_add_right _ _
    | exact id
    | (apply State.traceTask_touches; on_goal 1 => decide)
    | (apply State.updSched_touches; on_goal 1 => decide)
    | (apply State.notePeak_touches; on_goal 1 => decide)
    | (apply State.evalWaits_touches; on_goal 1 => decide)
    | (apply State.updSched_touches; on_goal 1 => decide)
    | split

theorem State.runTimerTask_touches {L : List Part} {s0 : State} (s : State) (t : Fin 16) (i : Nat) (hL : Within [.draws, .regs, .safe, .tSearch, .tSolver, .tSel, .tSched, .tOut, .bears, .jays, .cores, .dram, .cascade] L) (h : Touches L s0 s) :
    Touches L s0 (State.runTimerTask s t i) := by
  refine Touches.step ?_ hL h
  unfold State.runTimerTask
  try dsimp only
  with_reducible repeat' first
    | exact Touches.refl _ _
    | assumption
    | exact Nat.le_refl _
    | exact Nat.le_add_right _ _
    | exact id
    | (apply State.updSched_touches; on_goal 1 => decide)
    | (apply State.finishTask_touches; on_goal 1 => decide)
    | (apply State.traceTask_touches; on_goal 1 => decide)
    | split

theorem State.runSignalTask_touches {L : List Part} {s0 : State} (s : State) (t : Fin 16) (i : Nat) (hL : Within [.draws, .regs, .safe, .tSearch, .tSolver, .tSel, .tSched, .tOut, .bears, .jays, .cores, .dram, .cascade] L) (h : Touches L s0 s) :
    Touches L s0 (State.runSignalTask s t i) := by
  refine Touches.step ?_ hL h
  unfold State.runSignalTask
  try dsimp only
  with_reducible repeat' first
    | exact Touches.refl _ _
    | assumption
    | exact Nat.le_refl _
    | exact Nat.le_add_right _ _
    | exact id
    | (apply State.finishTask_touches; on_goal 1 => decide)
    | (apply State.traceTask_touches; on_goal 1 => decide)
    | split

theorem State.fireTimer_touches {L : List Part} {s0 : State} (s : State) (t : Fin 16) (x : Timer) (hL : Within [.draws, .regs, .safe, .tSearch, .tSolver, .tSel, .tSched, .tOut, .bears, .jays, .cores, .dram, .cascade] L) (h : Touches L s0 s) :
    Touches L s0 (State.fireTimer s t x) := by
  refine Touches.step ?_ hL h
  unfold State.fireTimer
  try dsimp only
  with_reducible repeat' first
    | exact Touches.refl _ _
    | assumption
    | exact Nat.le_refl _
    | exact Nat.le_add_right _ _
    | exact id
    | (apply State.trace_touches; on_goal 1 => decide)
    | (apply State.noteTiming_touches; on_goal 1 => decide)
    | (apply State.updSched_touches; on_goal 1 => decide)
    | (apply State.setFlag_touches; on_goal 1 => decide)
    | split

theorem State.deliverEdge_touches {L : List Part} {s0 : State} (s : State) (t : Fin 16) (k : Fin 32) (hL : Within [.draws, .regs, .safe, .tSearch, .tSolver, .tSel, .tSched, .tOut, .bears, .jays, .cores, .dram, .cascade] L) (h : Touches L s0 s) :
    Touches L s0 (State.deliverEdge s t k) := by
  refine Touches.step ?_ hL h
  unfold State.deliverEdge
  try dsimp only
  with_reducible repeat' first
    | exact Touches.refl _ _
    | assumption
    | exact Nat.le_refl _
    | exact Nat.le_add_right _ _
    | exact id
    | (apply State.trace_touches; on_goal 1 => decide)
    | (apply State.noteTiming_touches; on_goal 1 => decide)
    | (apply State.updSched_touches; on_goal 1 => decide)
    | (apply State.setFlag_touches; on_goal 1 => decide)
    | split

theorem State.setSignal_touches {L : List Part} {s0 : State} (s : State) (t : Fin 16) (w : Word) (hL : Within [.tSched] L) (h : Touches L s0 s) :
    Touches L s0 (State.setSignal s t w) := by
  refine Touches.step ?_ hL h
  unfold State.setSignal
  try dsimp only
  with_reducible repeat' first
    | exact Touches.refl _ _
    | assumption
    | exact Nat.le_refl _
    | exact Nat.le_add_right _ _
    | exact id
    | (apply State.updSched_touches; on_goal 1 => decide)
    | split

theorem State.linkDoorbell_touches {L : List Part} {s0 : State} (s : State) (t : Fin 16) (l : Nat) (hL : Within [.tSched] L) (h : Touches L s0 s) :
    Touches L s0 (State.linkDoorbell s t l) := by
  refine Touches.step ?_ hL h
  unfold State.linkDoorbell
  try dsimp only
  with_reducible repeat' first
    | exact Touches.refl _ _
    | assumption
    | exact Nat.le_refl _
    | exact Nat.le_add_right _ _
    | exact id
    | (apply State.updSched_touches; on_goal 1 => decide)
    | split

theorem State.declareDeadlock_touches {L : List Part} {s0 : State} (s : State) (t : Fin 16) (hL : Within [.draws, .regs, .attn, .safe, .tSearch, .tSolver, .tSel, .tSched, .tOut, .bears, .jays, .cores, .dram, .cascade] L) (h : Touches L s0 s) :
    Touches L s0 (s.declareDeadlock t) := by
  refine Touches.step ?_ hL h
  unfold State.declareDeadlock
  try dsimp only
  with_reducible repeat' first
    | exact Touches.refl _ _
    | assumption
    | exact Nat.le_refl _
    | exact Nat.le_add_right _ _
    | exact id
    | (apply State.trace_touches; on_goal 1 => decide)
    | (apply State.setLive_touches; on_goal 1 => decide)
    | (apply State.failFrame_touches; on_goal 1 => decide)
    | (apply State.raise_touches; on_goal 1 => decide)
    | split

theorem State.fireDue_touches {L : List Part} {s0 : State} (s : State) (t : Fin 16) (T n : Nat) (hL : Within [.draws, .regs, .safe, .tSearch, .tSolver, .tSel, .tSched, .tOut, .bears, .jays, .cores, .dram, .cascade] L)
    (h : Touches L s0 s) : Touches L s0 (s.fireDue t T n) := by
  induction n generalizing s with
  | zero => exact h
  | succ n ih =>
    unfold State.fireDue
    dsimp only
    split
    · exact h
    · exact ih _ (Touches.step (State.fireTimer_touches _ _ _ (by decide) (Touches.refl _ _)) hL h)

theorem State.expireWait_touches {L : List Part} {s0 : State} (s : State) (t : Fin 16) (i : Nat) (hL : Within [.draws, .regs, .safe, .tSearch, .tSolver, .tSel, .tSched, .tOut, .bears, .jays, .cores, .dram, .cascade] L) (h : Touches L s0 s) :
    Touches L s0 (s.expireWait t i) := by
  refine Touches.step ?_ hL h
  unfold State.expireWait
  try dsimp only
  with_reducible repeat' first
    | exact Touches.refl _ _
    | assumption
    | exact Nat.le_refl _
    | exact Nat.le_add_right _ _
    | exact id
    | (apply State.traceTask_touches; on_goal 1 => decide)
    | (apply State.updSched_touches; on_goal 1 => decide)
    | (apply State.cancelTasks_touches; on_goal 1 => decide)
    | (apply State.finishTask_touches; on_goal 1 => decide)
    | (apply State.updSched_touches; on_goal 1 => decide)
    | split

theorem State.expireWaits_touches {L : List Part} {s0 : State} (s : State) (t : Fin 16) (T n : Nat) (hL : Within [.draws, .regs, .safe, .tSearch, .tSolver, .tSel, .tSched, .tOut, .bears, .jays, .cores, .dram, .cascade] L)
    (h : Touches L s0 s) : Touches L s0 (s.expireWaits t T n) := by
  induction n generalizing s with
  | zero => exact h
  | succ n ih =>
    unfold State.expireWaits
    split
    · exact h
    · exact ih _ (Touches.step (State.expireWait_touches _ _ _ (by decide) (Touches.refl _ _)) hL h)

theorem State.elapse_touches {L : List Part} {s0 : State} (s : State) (k : Nat) (hL : Within [.now, .tSched, .cascade] L)
    (h : Touches L s0 s) : Touches L s0 (s.elapse k) := by
  refine Touches.step ?_ hL h
  unfold State.elapse
  dsimp only
  split
  · exact Touches.refl _ _
  · generalize hu : (s.forTenants _) = u
    have h1 : Touches [.now, .tSched, .cascade] s u := by
      subst hu
      exact Touches.forTenants (Touches.refl _ _) fun _ _ k => State.updSched_touches _ _ _ (by decide) k
    refine Touches.set_now _ _ (by decide) (State.updCascade_touches _ _ (by decide) h1) ?_
    exact Nat.le_add_right _ _

theorem State.fallDue_touches {L : List Part} {s0 : State} (s : State) (t : Fin 16) (hL : Within [.draws, .regs, .attn, .safe, .frame, .tSearch, .tSolver, .tSel, .tSched, .tOut, .bears, .jays, .cores, .dram, .cascade] L) (h : Touches L s0 s) :
    Touches L s0 (s.fallDue t) := by
  refine Touches.step ?_ hL h
  unfold State.fallDue
  try dsimp only
  with_reducible repeat' first
    | exact Touches.refl _ _
    | assumption
    | exact Nat.le_refl _
    | exact Nat.le_add_right _ _
    | exact id
    | (apply State.hold_touches; on_goal 1 => decide)
    | (apply State.fireDue_touches; on_goal 1 => decide)
    | (apply State.unhold_touches; on_goal 1 => decide)
    | (apply State.expireWaits_touches; on_goal 1 => decide)
    | (apply State.declareDeadlock_touches; on_goal 1 => decide)
    | split

theorem State.passTime_touches {L : List Part} {s0 : State} (s : State) (T n : Nat) (hL : Within [.now, .draws, .regs, .attn, .safe, .frame, .tSearch, .tSolver, .tSel, .tSched, .tOut, .bears, .jays, .cores, .dram, .cascade] L)
    (h : Touches L s0 s) : Touches L s0 (s.passTime T n) := by
  induction n generalizing s with
  | zero => exact Touches.step (State.elapse_touches _ _ (by decide) (Touches.refl _ _)) hL h
  | succ n ih =>
    unfold State.passTime
    split
    · exact Touches.step (State.elapse_touches _ _ (by decide) (Touches.refl _ _)) hL h
    · refine ih _ (Touches.step ?_ hL h)
      exact Touches.forTenants (State.elapse_touches _ _ (by decide) (Touches.refl _ _)) fun _ _ k =>
        State.fallDue_touches _ _ (by decide) k

theorem State.advanceTo_touches {L : List Part} {s0 : State} (s : State) (T : Nat) (hL : Within [.now, .draws, .regs, .attn, .safe, .frame, .tSearch, .tSolver, .tSel, .tSched, .tOut, .bears, .jays, .cores, .dram, .cascade] L) (h : Touches L s0 s) :
    Touches L s0 (s.advanceTo T) := by
  refine Touches.step ?_ hL h
  unfold State.advanceTo
  try dsimp only
  with_reducible repeat' first
    | exact Touches.refl _ _
    | assumption
    | exact Nat.le_refl _
    | exact Nat.le_add_right _ _
    | exact id
    | (apply State.passTime_touches; on_goal 1 => decide)
    | split

theorem State.idle_touches {L : List Part} {s0 : State} (s : State) (hL : Within [.now, .draws, .regs, .attn, .safe, .frame, .tSearch, .tSolver, .tSel, .tSched, .tOut, .bears, .jays, .cores, .dram, .cascade] L) (h : Touches L s0 s) :
    Touches L s0 (s.idle) := by
  refine Touches.step ?_ hL h
  unfold State.idle
  try dsimp only
  with_reducible repeat' first
    | exact Touches.refl _ _
    | assumption
    | exact Nat.le_refl _
    | exact Nat.le_add_right _ _
    | exact id
    | (apply State.advanceTo_touches; on_goal 1 => decide)
    | split

theorem State.timerFire_touches {L : List Part} {s0 : State} (s : State) (t : Fin 16) (id : Fin 64) (hL : Within [.now, .draws, .regs, .attn, .safe, .frame, .tSearch, .tSolver, .tSel, .tSched, .tOut, .bears, .jays, .cores, .dram, .cascade] L) (h : Touches L s0 s) :
    Touches L s0 (s.timerFire t id) := by
  refine Touches.step ?_ hL h
  unfold State.timerFire
  try dsimp only
  with_reducible repeat' first
    | exact Touches.refl _ _
    | assumption
    | exact Nat.le_refl _
    | exact Nat.le_add_right _ _
    | exact id
    | (apply State.advanceTo_touches; on_goal 1 => decide)
    | split

theorem State.reachDeadlock_touches {L : List Part} {s0 : State} (s : State) (t : Fin 16) (hL : Within [.now, .draws, .regs, .attn, .safe, .frame, .tSearch, .tSolver, .tSel, .tSched, .tOut, .bears, .jays, .cores, .dram, .cascade] L) (h : Touches L s0 s) :
    Touches L s0 (s.reachDeadlock t) := by
  refine Touches.step ?_ hL h
  unfold State.reachDeadlock
  try dsimp only
  with_reducible repeat' first
    | exact Touches.refl _ _
    | assumption
    | exact Nat.le_refl _
    | exact Nat.le_add_right _ _
    | exact id
    | (apply State.declareDeadlock_touches; on_goal 1 => decide)
    | (apply State.advanceTo_touches; on_goal 1 => decide)
    | split

theorem State.countDrops_touches {L : List Part} {s0 : State} (s : State) (t : Fin 16) (edges timers : Nat) (hL : Within [.regs] L) (h : Touches L s0 s) :
    Touches L s0 (State.countDrops s t edges timers) := by
  refine Touches.step ?_ hL h
  unfold State.countDrops
  try dsimp only
  with_reducible repeat' first
    | exact Touches.refl _ _
    | assumption
    | exact Nat.le_refl _
    | exact Nat.le_add_right _ _
    | exact id
    | (apply State.setLive_touches; on_goal 1 => decide)
    | split

theorem State.applyActivate_touches {L : List Part} {s0 : State} (s : State) (t : Fin 16) (hL : Within [.draws, .regs, .tTable, .tSched, .dram] L) (h : Touches L s0 s) :
    Touches L s0 (s.applyActivate t) := by
  refine Touches.step ?_ hL h
  unfold State.applyActivate
  try dsimp only
  with_reducible repeat' first
    | exact Touches.refl _ _
    | assumption
    | exact Nat.le_refl _
    | exact Nat.le_add_right _ _
    | exact id
    | (apply State.updTable_touches; on_goal 1 => decide)
    | (apply State.updSched_touches; on_goal 1 => decide)
    | (apply State.trace_touches; on_goal 1 => decide)
    | (apply State.updTable_touches; on_goal 1 => decide)
    | (apply State.updSched_touches; on_goal 1 => decide)
    | split

theorem State.exchange_touches {L : List Part} {s0 : State} (s : State) (t : Fin 16) (hL : Within [.draws, .regs, .safe, .tSearch, .tTable, .tSolver, .tSel, .tSched, .tOut, .bears, .jays, .cores, .dram, .cascade] L)
    (h : Touches L s0 s) : Touches L s0 (s.exchange t) := by
  refine Touches.step ?_ hL h
  unfold State.exchange
  dsimp only
  apply State.fireDue_touches; on_goal 1 => decide
  apply State.updSched_touches; on_goal 1 => decide
  apply State.countDrops_touches; on_goal 1 => decide
  refine Touches.forEach (Touches.forEach ?_ fun _ _ k => State.trace_touches _ _ _ _ (by decide) k) fun _ _ k =>
    State.trace_touches _ _ _ _ (by decide) k
  exact State.applyActivate_touches _ _ (by decide) (Touches.refl _ _)

theorem State.noteDepth_touches {L : List Part} {s0 : State} (s : State) (e : Nat) (hL : Within [.regs] L) (h : Touches L s0 s) :
    Touches L s0 (State.noteDepth s e) := by
  refine Touches.step ?_ hL h
  unfold State.noteDepth
  try dsimp only
  with_reducible repeat' first
    | exact Touches.refl _ _
    | assumption
    | exact Nat.le_refl _
    | exact Nat.le_add_right _ _
    | exact id
    | (apply State.setLive_touches; on_goal 1 => decide)
    | split

theorem State.queueCand_touches {L : List Part} {s0 : State} (s : State) (t : Fin 16) (id : Nat) (hL : Within [.regs, .tTable, .engines] L) (h : Touches L s0 s) :
    Touches L s0 (s.queueCand t id) := by
  refine Touches.step ?_ hL h
  unfold State.queueCand
  try dsimp only
  with_reducible repeat' first
    | exact Touches.refl _ _
    | assumption
    | exact Nat.le_refl _
    | exact Nat.le_add_right _ _
    | exact id
    | (apply State.updTable_touches; on_goal 1 => decide)
    | (apply State.updEngine_touches; on_goal 1 => decide)
    | (apply State.noteDepth_touches; on_goal 1 => decide)
    | (apply State.updTable_touches; on_goal 1 => decide)
    | (apply State.updEngine_touches; on_goal 1 => decide)
    | split

theorem State.retryStalled_touches {L : List Part} {s0 : State} (s : State) (hL : Within [.regs, .tTable, .engines] L) (h : Touches L s0 s) :
    Touches L s0 (State.retryStalled s) := by
  refine Touches.step ?_ hL h
  unfold State.retryStalled
  try dsimp only
  with_reducible repeat' first
    | exact Touches.refl _ _
    | assumption
    | exact Nat.le_refl _
    | exact Nat.le_add_right _ _
    | exact id
    | refine Touches.forTenants ?_ (fun _ _ _ => ?_)
    | refine Touches.forEach ?_ (fun _ _ _ => ?_)
    | (apply State.updTable_touches; on_goal 1 => decide)
    | (apply State.queueCand_touches; on_goal 1 => decide)
    | split

theorem State.putCand_touches {L : List Part} {s0 : State} (s : State) (t : Fin 16) (c : Cand) (hL : Within [.regs, .tTable, .engines, .dram] L) (h : Touches L s0 s) :
    Touches L s0 (State.putCand s t c) := by
  refine Touches.step ?_ hL h
  unfold State.putCand
  try dsimp only
  with_reducible repeat' first
    | exact Touches.refl _ _
    | assumption
    | exact Nat.le_refl _
    | exact Nat.le_add_right _ _
    | exact id
    | exact Dram.ok_heal _
    | (apply State.updDram_touches; on_goal 1 => decide)
    | (apply State.queueCand_touches; on_goal 1 => decide)
    | (apply State.updTable_touches; on_goal 1 => decide)
    | split

theorem State.putCandBy_touches {L : List Part} {s0 : State} (s : State) (k : Nat) (t : Fin 16) (c : Cand) (hL : Within [.regs, .tTable, .engines, .dram, .lynx] L) (h : Touches L s0 s) :
    Touches L s0 (State.putCandBy s k t c) := by
  refine Touches.step ?_ hL h
  unfold State.putCandBy
  try dsimp only
  with_reducible repeat' first
    | exact Touches.refl _ _
    | assumption
    | exact Nat.le_refl _
    | exact Nat.le_add_right _ _
    | exact id
    | (apply State.putCand_touches; on_goal 1 => decide)
    | (apply State.streamWrite_touches; on_goal 1 => decide)
    | split

theorem State.updCand_touches {L : List Part} {s0 : State} (s : State) (t : Fin 16) (id : Nat) (f : Cand → Cand) (hL : Within [.tTable] L) (h : Touches L s0 s) :
    Touches L s0 (State.updCand s t id f) := by
  refine Touches.step ?_ hL h
  unfold State.updCand
  try dsimp only
  with_reducible repeat' first
    | exact Touches.refl _ _
    | assumption
    | exact Nat.le_refl _
    | exact Nat.le_add_right _ _
    | exact id
    | (apply State.updTable_touches; on_goal 1 => decide)
    | split

theorem State.noteInput_touches {L : List Part} {s0 : State} (s : State) (t : Fin 16) (frame order op : Nat) (data : List Byte) (hL : Within [.tSpoor] L) (h : Touches L s0 s) :
    Touches L s0 (s.noteInput t frame order op data) := by
  refine Touches.step ?_ hL h
  unfold State.noteInput
  try dsimp only
  with_reducible repeat' first
    | exact Touches.refl _ _
    | assumption
    | exact Nat.le_refl _
    | exact Nat.le_add_right _ _
    | exact id
    | (apply State.updSpoor_touches; on_goal 1 => decide)
    | (apply State.updSpoor_touches; on_goal 1 => decide)
    | split

theorem State.hostCand_touches {L : List Part} {s0 : State} (s : State) (t : Fin 16) (tag : Nat) (buf : List Byte) (hL : Within [.regs, .shadow, .dirty, .attn, .tQueues, .tCmds] L) (h : Touches L s0 s) :
    Touches L s0 (s.hostCand t tag buf) := by
  refine Touches.step ?_ hL h
  unfold State.hostCand
  try dsimp only
  with_reducible repeat' first
    | exact Touches.refl _ _
    | assumption
    | exact Nat.le_refl _
    | exact Nat.le_add_right _ _
    | exact id
    | (apply State.completeCmd_touches; on_goal 1 => decide)
    | (apply State.holdCmd_touches; on_goal 1 => decide)
    | split

theorem State.deliverHost_touches {L : List Part} {s0 : State} (s : State) (t : Fin 16) (c : Cmd) (first n : Nat) (hL : Within [.tCmds] L) (h : Touches L s0 s) :
    Touches L s0 (State.deliverHost s t c first n) := by
  refine Touches.step ?_ hL h
  unfold State.deliverHost
  try dsimp only
  with_reducible repeat' first
    | exact Touches.refl _ _
    | assumption
    | exact Nat.le_refl _
    | exact Nat.le_add_right _ _
    | exact id
    | apply Touches.updTenant
    | (intro p hp; cases p <;> first | exact absurd hp (by decide) | (simp only [Part.sameT, Part.sameF, Part.sameO, Tenant.cleared, Tenant.discardFrame, Tenant.startFrame, Tenant.turn, Tenant.reset, and_self]; done))
    | split

theorem State.putHost_touches {L : List Part} {s0 : State} (s : State) (t : Fin 16) (lo hi : Nat) (l : List Cand)
    (hL : Within [.regs, .tTable, .engines, .dram] L) (h : Touches L s0 s) : Touches L s0 (s.putHost t lo hi l).1 := by
  induction l generalizing s with
  | nil => exact h
  | cons k r ih =>
    unfold State.putHost
    split
    · exact h
    · exact ih _ (Touches.step (State.putCand_touches _ _ _ (by decide) (Touches.refl _ _)) hL h)

theorem State.goOnHost_touches {L : List Part} {s0 : State} (s : State) (t : Fin 16) (c : Cmd) (first at' : Nat) (hL : Within [.regs, .shadow, .dirty, .attn, .tTable, .tQueues, .tCmds, .engines, .dram] L) (h : Touches L s0 s) :
    Touches L s0 (s.goOnHost t c first at') := by
  refine Touches.step ?_ hL h
  unfold State.goOnHost
  try dsimp only
  with_reducible repeat' first
    | exact Touches.refl _ _
    | assumption
    | exact Nat.le_refl _
    | exact Nat.le_add_right _ _
    | exact id
    | (apply State.completeCmd_touches; on_goal 1 => decide)
    | (apply State.putHost_touches; on_goal 1 => decide)
    | (apply State.deliverHost_touches; on_goal 1 => decide)
    | split

theorem State.judgeHost_touches {L : List Part} {s0 : State} (s : State) (t : Fin 16) (tag : Nat) (hL : Within [.regs, .shadow, .dirty, .attn, .tSearch, .tTable, .tSpoor, .tQueues, .tCmds, .engines, .dram] L) (h : Touches L s0 s) :
    Touches L s0 (s.judgeHost t tag) := by
  refine Touches.step ?_ hL h
  unfold State.judgeHost
  try dsimp only
  with_reducible repeat' first
    | exact Touches.refl _ _
    | assumption
    | exact Nat.le_refl _
    | exact Nat.le_add_right _ _
    | exact id
    | (apply State.goOnHost_touches; on_goal 1 => decide)
    | (apply State.completeCmd_touches; on_goal 1 => decide)
    | (apply State.refuseCmd_touches; on_goal 1 => decide)
    | (apply State.updSearch_touches; on_goal 1 => decide)
    | (apply State.noteInput_touches; on_goal 1 => decide)
    | (apply State.updSearch_touches; on_goal 1 => decide)
    | split

theorem State.buildStops_touches {L : List Part} {s0 : State} (s : State) (t : Fin 16) (hL : Within [.regs, .tTable, .engines, .dram] L) (h : Touches L s0 s) :
    Touches L s0 (s.buildStops t) := by
  refine Touches.step ?_ hL h
  unfold State.buildStops
  try dsimp only
  with_reducible repeat' first
    | exact Touches.refl _ _
    | assumption
    | exact Nat.le_refl _
    | exact Nat.le_add_right _ _
    | exact id
    | (apply State.updTable_touches; on_goal 1 => decide)
    | (apply State.putCand_touches; on_goal 1 => decide)
    | (apply State.updTable_touches; on_goal 1 => decide)
    | split

theorem State.remeasureStops_touches {L : List Part} {s0 : State} (s : State) (t : Fin 16) (hL : Within [.tTable] L) (h : Touches L s0 s) :
    Touches L s0 (State.remeasureStops s t) := by
  refine Touches.step ?_ hL h
  unfold State.remeasureStops
  try dsimp only
  with_reducible repeat' first
    | exact Touches.refl _ _
    | assumption
    | exact Nat.le_refl _
    | exact Nat.le_add_right _ _
    | exact id
    | (apply State.updTable_touches; on_goal 1 => decide)
    | (apply State.updCand_touches; on_goal 1 => decide)
    | split

theorem State.ingest_touches {L : List Part} {s0 : State} (s : State) (t : Fin 16) (tag : Nat) (buf : List Byte) (hL : Within [.regs, .shadow, .dirty, .attn, .tWorld, .tSpoor, .tQueues, .tCmds] L) (h : Touches L s0 s) :
    Touches L s0 (State.ingest s t tag buf) := by
  refine Touches.step ?_ hL h
  unfold State.ingest
  try dsimp only
  with_reducible repeat' first
    | exact Touches.refl _ _
    | assumption
    | exact Nat.le_refl _
    | exact Nat.le_add_right _ _
    | exact id
    | (apply State.refuseCmd_touches; on_goal 1 => decide)
    | (apply State.completeCmd_touches; on_goal 1 => decide)
    | (apply State.noteInput_touches; on_goal 1 => decide)
    | (apply State.updWorld_touches; on_goal 1 => decide)
    | (apply State.holdCmd_touches; on_goal 1 => decide)
    | split

theorem State.popRecord_touches {L : List Part} {s0 : State} (s : State) (t : Fin 16) (hL : Within [.regs, .shadow, .dirty, .attn, .tWorld, .tQueues, .tCmds] L) (h : Touches L s0 s) :
    Touches L s0 (State.popRecord s t) := by
  refine Touches.step ?_ hL h
  unfold State.popRecord
  try dsimp only
  with_reducible repeat' first
    | exact Touches.refl _ _
    | assumption
    | exact Nat.le_refl _
    | exact Nat.le_add_right _ _
    | exact id
    | (apply State.updWorld_touches; on_goal 1 => decide)
    | (apply State.completeCmd_touches; on_goal 1 => decide)
    | split

theorem State.applyMixedTile_touches {L : List Part} {s0 : State} (s : State) (t : Fin 16) (hL : Within [.regs, .shadow, .dirty, .attn, .tWorld, .tQueues, .tCmds] L) (h : Touches L s0 s) :
    Touches L s0 (State.applyMixedTile s t) := by
  refine Touches.step ?_ hL h
  unfold State.applyMixedTile
  try dsimp only
  with_reducible repeat' first
    | exact Touches.refl _ _
    | assumption
    | exact Nat.le_refl _
    | exact Nat.le_add_right _ _
    | exact id
    | (apply State.popRecord_touches; on_goal 1 => decide)
    | (apply State.updWorld_touches; on_goal 1 => decide)
    | split

theorem State.applyUniformTiles_touches {L : List Part} {s0 : State} (s : State) (t : Fin 16) (hL : Within [.regs, .shadow, .dirty, .attn, .tWorld, .tQueues, .tCmds] L) (h : Touches L s0 s) :
    Touches L s0 (State.applyUniformTiles s t) := by
  refine Touches.step ?_ hL h
  unfold State.applyUniformTiles
  try dsimp only
  with_reducible repeat' first
    | exact Touches.refl _ _
    | assumption
    | exact Nat.le_refl _
    | exact Nat.le_add_right _ _
    | exact id
    | (apply State.popRecord_touches; on_goal 1 => decide)
    | (apply State.updWorld_touches; on_goal 1 => decide)
    | split

theorem State.applyScroll_touches {L : List Part} {s0 : State} (s : State) (t : Fin 16) (hL : Within [.regs, .shadow, .dirty, .attn, .tWorld, .tQueues, .tCmds] L) (h : Touches L s0 s) :
    Touches L s0 (State.applyScroll s t) := by
  refine Touches.step ?_ hL h
  unfold State.applyScroll
  try dsimp only
  with_reducible repeat' first
    | exact Touches.refl _ _
    | assumption
    | exact Nat.le_refl _
    | exact Nat.le_add_right _ _
    | exact id
    | (apply State.popRecord_touches; on_goal 1 => decide)
    | (apply State.updWorld_touches; on_goal 1 => decide)
    | split

theorem State.applyRegion_touches {L : List Part} {s0 : State} (s : State) (t : Fin 16) (hL : Within [.regs, .shadow, .dirty, .attn, .tWorld, .tQueues, .tCmds] L) (h : Touches L s0 s) :
    Touches L s0 (State.applyRegion s t) := by
  refine Touches.step ?_ hL h
  unfold State.applyRegion
  try dsimp only
  with_reducible repeat' first
    | exact Touches.refl _ _
    | assumption
    | exact Nat.le_refl _
    | exact Nat.le_add_right _ _
    | exact id
    | (apply State.popRecord_touches; on_goal 1 => decide)
    | (apply State.updWorld_touches; on_goal 1 => decide)
    | split

theorem State.applyAgentList_touches {L : List Part} {s0 : State} (s : State) (t : Fin 16) (hL : Within [.regs, .shadow, .dirty, .attn, .tWorld, .tQueues, .tCmds] L) (h : Touches L s0 s) :
    Touches L s0 (State.applyAgentList s t) := by
  refine Touches.step ?_ hL h
  unfold State.applyAgentList
  try dsimp only
  with_reducible repeat' first
    | exact Touches.refl _ _
    | assumption
    | exact Nat.le_refl _
    | exact Nat.le_add_right _ _
    | exact id
    | (apply State.popRecord_touches; on_goal 1 => decide)
    | (apply State.updWorld_touches; on_goal 1 => decide)
    | split

theorem State.rasteriseAgent_touches {L : List Part} {s0 : State} (s : State) (t : Fin 16) (hL : Within [.tWorld] L) (h : Touches L s0 s) :
    Touches L s0 (State.rasteriseAgent s t) := by
  refine Touches.step ?_ hL h
  unfold State.rasteriseAgent
  try dsimp only
  with_reducible repeat' first
    | exact Touches.refl _ _
    | assumption
    | exact Nat.le_refl _
    | exact Nat.le_add_right _ _
    | exact id
    | (apply State.updWorld_touches; on_goal 1 => decide)
    | split

theorem State.sealWorld_touches {L : List Part} {s0 : State} (s : State) (t : Fin 16) (hL : Within [.draws, .regs, .attn, .safe, .tState, .tWorld, .tSearch, .tTable, .tSolver, .tSel, .tSched, .tOut, .bears, .jays, .cores, .dram, .cascade] L) (h : Touches L s0 s) :
    Touches L s0 (s.sealWorld t) := by
  refine Touches.step ?_ hL h
  unfold State.sealWorld
  try dsimp only
  with_reducible repeat' first
    | exact Touches.refl _ _
    | assumption
    | exact Nat.le_refl _
    | exact Nat.le_add_right _ _
    | exact id
    | (apply State.setLive_touches; on_goal 1 => decide)
    | (apply State.updWorld_touches; on_goal 1 => decide)
    | (apply State.updTable_touches; on_goal 1 => decide)
    | (apply State.programFault_touches; on_goal 1 => decide)
    | (apply State.updWorld_touches; on_goal 1 => decide)
    | (apply State.updTable_touches; on_goal 1 => decide)
    | split

theorem State.coreFault_touches {L : List Part} {s0 : State} (s : State) (c : Nat) (t : Fin 16) (slot : Nat) (code : Byte) (hL : Within [.regs] L) (h : Touches L s0 s) :
    Touches L s0 (State.coreFault s c t slot code) := by
  refine Touches.step ?_ hL h
  unfold State.coreFault
  try dsimp only
  with_reducible repeat' first
    | exact Touches.refl _ _
    | assumption
    | exact Nat.le_refl _
    | exact Nat.le_add_right _ _
    | exact id
    | (apply State.setLive_touches; on_goal 1 => decide)
    | split

theorem State.faultPart_touches {L : List Part} {s0 : State} (s : State) (c : Nat) (r : Run) (code : Byte) (hL : Within [.draws, .regs, .attn, .safe, .tState, .tSearch, .tSolver, .tSel, .tSched, .tOut, .bears, .jays, .cores, .dram, .cascade] L) (h : Touches L s0 s) :
    Touches L s0 (State.faultPart s c r code) := by
  refine Touches.step ?_ hL h
  unfold State.faultPart
  try dsimp only
  with_reducible repeat' first
    | exact Touches.refl _ _
    | assumption
    | exact Nat.le_refl _
    | exact Nat.le_add_right _ _
    | exact id
    | (apply State.programFault_touches; on_goal 1 => decide)
    | (apply State.coreFault_touches; on_goal 1 => decide)
    | split

theorem State.endPart_touches {L : List Part} {s0 : State} (s : State) (c : Nat) (hL : Within [.draws, .regs, .safe, .tSearch, .tSolver, .tSel, .tSched, .tOut, .bears, .jays, .cores, .dram, .cascade] L) (h : Touches L s0 s) :
    Touches L s0 (State.endPart s c) := by
  refine Touches.step ?_ hL h
  unfold State.endPart
  try dsimp only
  with_reducible repeat' first
    | exact Touches.refl _ _
    | assumption
    | exact Nat.le_refl _
    | exact Nat.le_add_right _ _
    | exact id
    | (apply State.updCore_touches; on_goal 1 => decide)
    | (apply State.updSched_touches; on_goal 1 => decide)
    | (apply State.finishTask_touches; on_goal 1 => decide)
    | split

theorem State.beginPart_touches {L : List Part} {s0 : State} (s : State) (c : Nat) (p : PartRef) (hL : Within [.draws, .regs, .attn, .safe, .tState, .tSearch, .tSolver, .tSel, .tSched, .tOut, .bears, .jays, .cores, .dram, .cascade] L) (h : Touches L s0 s) :
    Touches L s0 (s.beginPart c p) := by
  refine Touches.step ?_ hL h
  unfold State.beginPart
  try dsimp only
  with_reducible repeat' first
    | exact Touches.refl _ _
    | assumption
    | exact Nat.le_refl _
    | exact Nat.le_add_right _ _
    | exact id
    | (apply State.draw_touches; on_goal 1 => decide)
    | (apply State.setLive_touches; on_goal 1 => decide)
    | (apply State.updCore_touches; on_goal 1 => decide)
    | (apply State.updSched_touches; on_goal 1 => decide)
    | (apply State.traceTask_touches; on_goal 1 => decide)
    | (apply State.faultPart_touches; on_goal 1 => decide)
    | (apply State.updSched_touches; on_goal 1 => decide)
    | (apply State.updCore_touches; on_goal 1 => decide)
    | (apply State.draw_touches; on_goal 1 => decide)
    | split

theorem State.stealPart_touches {L : List Part} {s0 : State} (s : State) (c : Nat) (hL : Within [.draws, .regs, .attn, .safe, .tState, .tSearch, .tSolver, .tSel, .tSched, .tOut, .bears, .jays, .cores, .dram, .cascade] L)
    (h : Touches L s0 s) : Touches L s0 (s.stealPart c) := by
  refine Touches.step ?_ hL h
  unfold State.stealPart
  cases s.coreTenant c with
  | none => exact Touches.refl _ _
  | some t =>
    show Touches _ _ (if _ then _ else _)
    split
    · exact Touches.refl _ _
    · cases s.victim t c with
      | none => exact Touches.refl _ _
      | some v =>
        show Touches _ _ (match (s.core v).ready.getLast? with | none => s | some p => _)
        cases (s.core v).ready.getLast? with
        | none => exact Touches.refl _ _
        | some p =>
          show Touches _ _ (State.beginPart _ _ _)
          apply State.beginPart_touches; on_goal 1 => decide
          apply State.traceTask_touches; on_goal 1 => decide
          apply State.updCore_touches; on_goal 1 => decide
          apply State.updCore_touches; on_goal 1 => decide
          exact Touches.refl _ _

theorem State.startPart_touches {L : List Part} {s0 : State} (s : State) (c : Nat) (hL : Within [.draws, .regs, .attn, .safe, .tState, .tSearch, .tSolver, .tSel, .tSched, .tOut, .bears, .jays, .cores, .dram, .cascade] L) (h : Touches L s0 s) :
    Touches L s0 (State.startPart s c) := by
  refine Touches.step ?_ hL h
  unfold State.startPart
  try dsimp only
  with_reducible repeat' first
    | exact Touches.refl _ _
    | assumption
    | exact Nat.le_refl _
    | exact Nat.le_add_right _ _
    | exact id
    | (apply State.beginPart_touches; on_goal 1 => decide)
    | (apply State.updCore_touches; on_goal 1 => decide)
    | (apply State.stealPart_touches; on_goal 1 => decide)
    | split

theorem State.coreLost_touches {L : List Part} {s0 : State} (s : State) (c : Nat) (hL : Within [.draws, .regs, .safe, .tSearch, .tSolver, .tSel, .tSched, .tOut, .bears, .jays, .cores, .dram, .cascade] L) (h : Touches L s0 s) :
    Touches L s0 (s.coreLost c) := by
  refine Touches.step ?_ hL h
  unfold State.coreLost
  try dsimp only
  with_reducible repeat' first
    | exact Touches.refl _ _
    | assumption
    | exact Nat.le_refl _
    | exact Nat.le_add_right _ _
    | exact id
    | (apply State.updCore_touches; on_goal 1 => decide)
    | (apply State.notePeak_touches; on_goal 1 => decide)
    | (apply State.finishTask_touches; on_goal 1 => decide)
    | (apply State.failFrame_touches; on_goal 1 => decide)
    | refine Touches.forEach ?_ (fun _ _ _ => ?_)
    | (apply State.updCore_touches; on_goal 1 => decide)
    | split

theorem State.dropRoute_touches {L : List Part} {s0 : State} (s : State) (hL : Within [.attn, .cascade] L) (h : Touches L s0 s) :
    Touches L s0 (State.dropRoute s) := by
  refine Touches.step ?_ hL h
  unfold State.dropRoute
  try dsimp only
  with_reducible repeat' first
    | exact Touches.refl _ _
    | assumption
    | exact Nat.le_refl _
    | exact Nat.le_add_right _ _
    | exact id
    | (apply State.raise_touches; on_goal 1 => decide)
    | (apply State.updCascade_touches; on_goal 1 => decide)
    | split

theorem State.dropFrame_touches {L : List Part} {s0 : State} (s : State) (hL : Within [.cascade] L) (h : Touches L s0 s) :
    Touches L s0 (State.dropFrame s) := by
  refine Touches.step ?_ hL h
  unfold State.dropFrame
  try dsimp only
  with_reducible repeat' first
    | exact Touches.refl _ _
    | assumption
    | exact Nat.le_refl _
    | exact Nat.le_add_right _ _
    | exact id
    | (apply State.updCascade_touches; on_goal 1 => decide)
    | split

theorem State.dropStale_touches {L : List Part} {s0 : State} (s : State) (hL : Within [.cascade] L) (h : Touches L s0 s) :
    Touches L s0 (State.dropStale s) := by
  refine Touches.step ?_ hL h
  unfold State.dropStale
  try dsimp only
  with_reducible repeat' first
    | exact Touches.refl _ _
    | assumption
    | exact Nat.le_refl _
    | exact Nat.le_add_right _ _
    | exact id
    | (apply State.updCascade_touches; on_goal 1 => decide)
    | split

theorem State.transmit_touches {L : List Part} {s0 : State} (s : State) (l : Nat) (f : LinkFrame) (hL : Within [.links] L) (h : Touches L s0 s) :
    Touches L s0 (State.transmit s l f) := by
  refine Touches.step ?_ hL h
  unfold State.transmit
  try dsimp only
  with_reducible repeat' first
    | exact Touches.refl _ _
    | assumption
    | exact Nat.le_refl _
    | exact Nat.le_add_right _ _
    | exact id
    | (apply State.updLink_touches; on_goal 1 => decide)
    | split

theorem State.perform_touches {L : List Part} {s0 : State} (s : State) (l : Option Nat) (f : LinkFrame) (hL : Within [.tSched, .dram] L) (h : Touches L s0 s) :
    Touches L s0 (State.perform s l f).1 := by
  refine Touches.step ?_ hL h
  unfold State.perform
  try dsimp only
  with_reducible repeat' first
    | exact Touches.refl _ _
    | assumption
    | exact Nat.le_refl _
    | exact Nat.le_add_right _ _
    | exact id
    | (apply State.dramWrite_touches; on_goal 1 => decide)
    | (apply State.linkDoorbell_touches; on_goal 1 => decide)
    | split

theorem State.updSelRun_touches {L : List Part} {s0 : State} (s : State) (t : Fin 16) (task : Nat) (f : SelRun → SelRun) (hL : Within [.jays] L) (h : Touches L s0 s) :
    Touches L s0 (State.updSelRun s t task f) := by
  refine Touches.step ?_ hL h
  unfold State.updSelRun
  try dsimp only
  with_reducible repeat' first
    | exact Touches.refl _ _
    | assumption
    | exact Nat.le_refl _
    | exact Nat.le_add_right _ _
    | exact id
    | split
    | (apply Touches.set_jays; on_goal 1 => decide)

theorem State.collResponse_touches {L : List Part} {s0 : State} (s : State) (g : OutTag) (f : LinkFrame) (hL : Within [.jays, .cascade] L) (h : Touches L s0 s) :
    Touches L s0 (State.collResponse s g f) := by
  refine Touches.step ?_ hL h
  unfold State.collResponse
  try dsimp only
  with_reducible repeat' first
    | exact Touches.refl _ _
    | assumption
    | exact Nat.le_refl _
    | exact Nat.le_add_right _ _
    | exact id
    | (apply State.updCascade_touches; on_goal 1 => decide)
    | (apply State.updSelRun_touches; on_goal 1 => decide)
    | split

theorem State.noteHeld_touches {L : List Part} {s0 : State} (s : State) (t : Fin 16) (task : Nat) (hL : Within [.tOut] L) (h : Touches L s0 s) :
    Touches L s0 (s.noteHeld t task) := by
  refine Touches.step ?_ hL h
  unfold State.noteHeld
  try dsimp only
  with_reducible repeat' first
    | exact Touches.refl _ _
    | assumption
    | exact Nat.le_refl _
    | exact Nat.le_add_right _ _
    | exact id
    | (apply State.noteTiming_touches; on_goal 1 => decide)
    | split

theorem State.endLinkWork_touches {L : List Part} {s0 : State} (s : State) (g : OutTag) (hL : Within [.draws, .regs, .safe, .tSearch, .tSolver, .tSel, .tSched, .tOut, .bears, .jays, .cores, .dram, .cascade] L) (h : Touches L s0 s) :
    Touches L s0 (s.endLinkWork g) := by
  refine Touches.step ?_ hL h
  unfold State.endLinkWork
  try dsimp only
  with_reducible repeat' first
    | exact Touches.refl _ _
    | assumption
    | exact Nat.le_refl _
    | exact Nat.le_add_right _ _
    | exact id
    | (apply State.noteHeld_touches; on_goal 1 => decide)
    | (apply State.finishTask_touches; on_goal 1 => decide)
    | (apply State.endPart_touches; on_goal 1 => decide)
    | split

theorem State.notePeer_touches {L : List Part} {s0 : State} (s : State) (l : Option Nat) (f : LinkFrame) (hL : Within [.links] L) (h : Touches L s0 s) :
    Touches L s0 (s.notePeer l f) := by
  refine Touches.step ?_ hL h
  unfold State.notePeer
  try dsimp only
  with_reducible repeat' first
    | exact Touches.refl _ _
    | assumption
    | exact Nat.le_refl _
    | exact Nat.le_add_right _ _
    | exact id
    | (apply State.updLink_touches; on_goal 1 => decide)
    | (apply State.updLink_touches; on_goal 1 => decide)
    | split

theorem State.deliverResponse_touches {L : List Part} {s0 : State} (s : State) (l : Option Nat) (f : LinkFrame) (hL : Within [.draws, .regs, .attn, .safe, .tState, .tSearch, .tSolver, .tSel, .tSched, .tOut, .bears, .jays, .cores, .dram, .links, .cascade] L) (h : Touches L s0 s) :
    Touches L s0 (s.deliverResponse l f) := by
  refine Touches.step ?_ hL h
  unfold State.deliverResponse
  try dsimp only
  with_reducible repeat' first
    | exact Touches.refl _ _
    | assumption
    | exact Nat.le_refl _
    | exact Nat.le_add_right _ _
    | exact id
    | (apply State.notePeer_touches; on_goal 1 => decide)
    | (apply State.dropStale_touches; on_goal 1 => decide)
    | (apply State.collResponse_touches; on_goal 1 => decide)
    | (apply State.updCascade_touches; on_goal 1 => decide)
    | (apply State.writeResult_touches; on_goal 1 => decide)
    | (apply State.endLinkWork_touches; on_goal 1 => decide)
    | (apply State.coreFault_touches; on_goal 1 => decide)
    | (apply State.programFault_touches; on_goal 1 => decide)
    | (apply State.updCascade_touches; on_goal 1 => decide)
    | split

theorem State.sendResponse_touches {L : List Part} {s0 : State} (s : State) (f : LinkFrame) (hL : Within [.draws, .regs, .attn, .safe, .tState, .tSearch, .tSolver, .tSel, .tSched, .tOut, .bears, .jays, .cores, .dram, .links, .cascade] L) (h : Touches L s0 s) :
    Touches L s0 (s.sendResponse f) := by
  refine Touches.step ?_ hL h
  unfold State.sendResponse
  try dsimp only
  with_reducible repeat' first
    | exact Touches.refl _ _
    | assumption
    | exact Nat.le_refl _
    | exact Nat.le_add_right _ _
    | exact id
    | (apply State.deliverResponse_touches; on_goal 1 => decide)
    | (apply State.dropRoute_touches; on_goal 1 => decide)
    | (apply State.transmit_touches; on_goal 1 => decide)
    | split

theorem State.sendRequest_touches {L : List Part} {s0 : State} (s : State) (f : LinkFrame) (hL : Within [.draws, .regs, .attn, .safe, .tState, .tSearch, .tSolver, .tSel, .tSched, .tOut, .bears, .jays, .cores, .dram, .links, .cascade] L) (h : Touches L s0 s) :
    Touches L s0 (s.sendRequest f) := by
  refine Touches.step ?_ hL h
  unfold State.sendRequest
  try dsimp only
  with_reducible repeat' first
    | exact Touches.refl _ _
    | assumption
    | exact Nat.le_refl _
    | exact Nat.le_add_right _ _
    | exact id
    | (apply State.perform_touches; on_goal 1 => decide)
    | (apply State.deliverResponse_touches; on_goal 1 => decide)
    | (apply State.transmit_touches; on_goal 1 => decide)
    | split

theorem State.issueRequest_touches {L : List Part} {s0 : State} (s : State) (t : Fin 16) (task : Nat) (core : Option (Fin 48)) (unit : Nat) (kind : Byte) (dest : BitVec 16) (addr aux loc : Nat) (data : List Byte) (hL : Within [.draws, .regs, .attn, .safe, .tState, .tSearch, .tSolver, .tSel, .tSched, .tOut, .bears, .jays, .cores, .dram, .links, .cascade] L) (h : Touches L s0 s) :
    Touches L s0 (s.issueRequest t task core unit kind dest addr aux loc data) := by
  refine Touches.step ?_ hL h
  unfold State.issueRequest
  try dsimp only
  with_reducible repeat' first
    | exact Touches.refl _ _
    | assumption
    | exact Nat.le_refl _
    | exact Nat.le_add_right _ _
    | exact id
    | (apply State.updCascade_touches; on_goal 1 => decide)
    | (apply State.sendRequest_touches; on_goal 1 => decide)
    | (apply State.updCascade_touches; on_goal 1 => decide)
    | split

theorem State.writeInOrder_touches {L : List Part} {s0 : State} (s : State) (r : PartRef) (a : Nat) (d : List Byte) (hL : Within [.tSched, .dram] L) (h : Touches L s0 s) :
    Touches L s0 (s.writeInOrder r a d) := by
  refine Touches.step ?_ hL h
  unfold State.writeInOrder
  try dsimp only
  with_reducible repeat' first
    | exact Touches.refl _ _
    | assumption
    | exact Nat.le_refl _
    | exact Nat.le_add_right _ _
    | exact id
    | (apply State.writeResult_touches; on_goal 1 => decide)
    | (apply State.updSched_touches; on_goal 1 => decide)
    | refine Touches.forEach ?_ (fun _ _ _ => ?_)
    | (apply State.updSched_touches; on_goal 1 => decide)
    | split

theorem State.storeTile_touches {L : List Part} {s0 : State} (s : State) (c : Nat) (r : PartRef) (g : GemmCtx) (col : Nat) (tile : List Word) (hL : Within [.tSched, .dram, .lynx] L) (h : Touches L s0 s) :
    Touches L s0 (s.storeTile c r g col tile) := by
  refine Touches.step ?_ hL h
  unfold State.storeTile
  try dsimp only
  with_reducible repeat' first
    | exact Touches.refl _ _
    | assumption
    | exact Nat.le_refl _
    | exact Nat.le_add_right _ _
    | exact id
    | (apply State.writeInOrder_touches; on_goal 1 => decide)
    | (apply State.writeResult_touches; on_goal 1 => decide)
    | (apply State.streamWrite_touches; on_goal 1 => decide)
    | refine Touches.forEach ?_ (fun _ _ _ => ?_)
    | split

theorem State.countStep_touches {L : List Part} {s0 : State} (s : State) (c cycles : Nat) (hL : Within [.cores] L) (h : Touches L s0 s) :
    Touches L s0 (State.countStep s c cycles) := by
  refine Touches.step ?_ hL h
  unfold State.countStep
  try dsimp only
  with_reducible repeat' first
    | exact Touches.refl _ _
    | assumption
    | exact Nat.le_refl _
    | exact Nat.le_add_right _ _
    | exact id
    | (apply State.updCore_touches; on_goal 1 => decide)
    | split

theorem State.setRun_touches {L : List Part} {s0 : State} (s : State) (c : Nat) (r : Run) (hL : Within [.cores] L) (h : Touches L s0 s) :
    Touches L s0 (State.setRun s c r) := by
  refine Touches.step ?_ hL h
  unfold State.setRun
  try dsimp only
  with_reducible repeat' first
    | exact Touches.refl _ _
    | assumption
    | exact Nat.le_refl _
    | exact Nat.le_add_right _ _
    | exact id
    | (apply State.updCore_touches; on_goal 1 => decide)
    | split

theorem State.atBoundary_touches {L : List Part} {s0 : State} (s : State) (c : Nat) (r : Run) (hL : Within [.draws, .regs, .safe, .tSearch, .tSolver, .tSel, .tSched, .tOut, .bears, .jays, .cores, .dram, .cascade] L) (h : Touches L s0 s) :
    Touches L s0 (s.atBoundary c r) := by
  refine Touches.step ?_ hL h
  unfold State.atBoundary
  try dsimp only
  with_reducible repeat' first
    | exact Touches.refl _ _
    | assumption
    | exact Nat.le_refl _
    | exact Nat.le_add_right _ _
    | exact id
    | (apply State.setRun_touches; on_goal 1 => decide)
    | (apply State.endPart_touches; on_goal 1 => decide)
    | split

theorem State.checked_touches {L : List Part} {s0 : State} (s : State) (c : Nat) (r : Run) (rd wr : List (Nat × Nat)) (k : State)
    (hL : Within [.draws, .regs, .attn, .safe, .tState, .tSearch, .tSolver, .tSel, .tSched, .tOut, .bears, .jays, .cores, .dram, .cascade] L) (h : Touches L s0 s) (hk : Touches L s0 k) : Touches L s0 (s.checked c r rd wr k) := by
  unfold State.checked
  split
  · exact Touches.step (State.faultPart_touches _ _ _ _ (by decide) (Touches.refl _ _)) hL h
  · exact hk

theorem State.closeTile_touches {L : List Part} {s0 : State} (s : State) (c : Nat) (r : Run) (g g2 : GemmCtx) (hL : Within [.draws, .regs, .attn, .safe, .tState, .tSearch, .tSolver, .tSel, .tSched, .tOut, .bears, .jays, .cores, .dram, .cascade, .lynx] L) (h : Touches L s0 s) :
    Touches L s0 (s.closeTile c r g g2) := by
  refine Touches.step ?_ hL h
  unfold State.closeTile
  try dsimp only
  with_reducible repeat' first
    | exact Touches.refl _ _
    | assumption
    | exact Nat.le_refl _
    | exact Nat.le_add_right _ _
    | exact id
    | (apply State.checked_touches; on_goal 1 => decide)
    | (apply State.storeTile_touches; on_goal 1 => decide)
    | (apply State.countStep_touches; on_goal 1 => decide)
    | (apply State.atBoundary_touches; on_goal 1 => decide)
    | split

theorem State.closeScores_touches {L : List Part} {s0 : State} (s : State) (c : Nat) (r : Run) (g g2 : GemmCtx) (hL : Within [.draws, .regs, .attn, .safe, .tState, .tSearch, .tSolver, .tSel, .tSched, .tOut, .bears, .jays, .cores, .dram, .cascade] L) (h : Touches L s0 s) :
    Touches L s0 (s.closeScores c r g g2) := by
  refine Touches.step ?_ hL h
  unfold State.closeScores
  try dsimp only
  with_reducible repeat' first
    | exact Touches.refl _ _
    | assumption
    | exact Nat.le_refl _
    | exact Nat.le_add_right _ _
    | exact id
    | (apply State.checked_touches; on_goal 1 => decide)
    | (apply State.countStep_touches; on_goal 1 => decide)
    | (apply State.atBoundary_touches; on_goal 1 => decide)
    | split

theorem State.closeSoftmax_touches {L : List Part} {s0 : State} (s : State) (c : Nat) (r : Run) (g2 : GemmCtx) (hL : Within [.draws, .regs, .attn, .safe, .tState, .tSearch, .tSolver, .tSel, .tSched, .tOut, .bears, .jays, .cores, .dram, .cascade, .lynx] L) (h : Touches L s0 s) :
    Touches L s0 (s.closeSoftmax c r g2) := by
  refine Touches.step ?_ hL h
  unfold State.closeSoftmax
  try dsimp only
  with_reducible repeat' first
    | exact Touches.refl _ _
    | assumption
    | exact Nat.le_refl _
    | exact Nat.le_add_right _ _
    | exact id
    | (apply State.countStep_touches; on_goal 1 => decide)
    | (apply State.atBoundary_touches; on_goal 1 => decide)
    | (apply State.checked_touches; on_goal 1 => decide)
    | (apply State.storeTile_touches; on_goal 1 => decide)
    | split

theorem State.reduceStep_touches {L : List Part} {s0 : State} (s : State) (c : Nat) (r : Run) (g : GemmCtx) (hL : Within [.draws, .regs, .attn, .safe, .tState, .tSearch, .tSolver, .tSel, .tSched, .tOut, .bears, .jays, .cores, .dram, .cascade, .lynx] L) (h : Touches L s0 s) :
    Touches L s0 (s.reduceStep c r g) := by
  refine Touches.step ?_ hL h
  unfold State.reduceStep
  try dsimp only
  with_reducible repeat' first
    | exact Touches.refl _ _
    | assumption
    | exact Nat.le_refl _
    | exact Nat.le_add_right _ _
    | exact id
    | (apply State.faultPart_touches; on_goal 1 => decide)
    | (apply State.checked_touches; on_goal 1 => decide)
    | (apply State.countStep_touches; on_goal 1 => decide)
    | (apply State.updCore_touches; on_goal 1 => decide)
    | (apply State.atBoundary_touches; on_goal 1 => decide)
    | (apply State.updCore_touches; on_goal 1 => decide)
    | split

theorem State.stepGemm_touches {L : List Part} {s0 : State} (s : State) (c : Nat) (r : Run) (g g2 : GemmCtx) (hL : Within [.draws, .regs, .attn, .safe, .tState, .tSearch, .tSolver, .tSel, .tSched, .tOut, .bears, .jays, .cores, .dram, .cascade, .lynx] L) (h : Touches L s0 s) :
    Touches L s0 (s.stepGemm c r g g2) := by
  refine Touches.step ?_ hL h
  unfold State.stepGemm
  try dsimp only
  with_reducible repeat' first
    | exact Touches.refl _ _
    | assumption
    | exact Nat.le_refl _
    | exact Nat.le_add_right _ _
    | exact id
    | (apply State.closeSoftmax_touches; on_goal 1 => decide)
    | (apply State.atBoundary_touches; on_goal 1 => decide)
    | (apply State.reduceStep_touches; on_goal 1 => decide)
    | (apply State.closeScores_touches; on_goal 1 => decide)
    | (apply State.closeTile_touches; on_goal 1 => decide)
    | split

theorem State.stepTile_touches {L : List Part} {s0 : State} (s : State) (c : Nat) (hL : Within [.draws, .regs, .attn, .safe, .tState, .tSearch, .tSolver, .tSel, .tSched, .tOut, .bears, .jays, .cores, .dram, .cascade, .lynx] L) (h : Touches L s0 s) :
    Touches L s0 (s.stepTile c) := by
  refine Touches.step ?_ hL h
  unfold State.stepTile
  try dsimp only
  with_reducible repeat' first
    | exact Touches.refl _ _
    | assumption
    | exact Nat.le_refl _
    | exact Nat.le_add_right _ _
    | exact id
    | (apply State.atBoundary_touches; on_goal 1 => decide)
    | (apply State.endPart_touches; on_goal 1 => decide)
    | (apply State.countStep_touches; on_goal 1 => decide)
    | (apply State.stepGemm_touches; on_goal 1 => decide)
    | split

theorem State.forceCut_touches {L : List Part} {s0 : State} (s : State) (c : Nat) (hL : Within [.now, .draws, .regs, .attn, .safe, .frame, .tSearch, .tSolver, .tSel, .tSched, .tOut, .bears, .jays, .cores, .dram, .cascade] L) (h : Touches L s0 s) :
    Touches L s0 (s.forceCut c) := by
  refine Touches.step ?_ hL h
  unfold State.forceCut
  try dsimp only
  with_reducible repeat' first
    | exact Touches.refl _ _
    | assumption
    | exact Nat.le_refl _
    | exact Nat.le_add_right _ _
    | exact id
    | (apply State.advanceTo_touches; on_goal 1 => decide)
    | (apply State.updOut_touches; on_goal 1 => decide)
    | (apply State.endPart_touches; on_goal 1 => decide)
    | (apply State.updOut_touches; on_goal 1 => decide)
    | split

theorem State.noteSent_touches {L : List Part} {s0 : State} (s : State) (c : Nat) (r : Run) (gemm q : Nat) (held : List (Nat × List Word)) (hL : Within [.draws, .regs, .safe, .tSearch, .tSolver, .tSel, .tSched, .tOut, .bears, .jays, .cores, .dram, .cascade] L) (h : Touches L s0 s) :
    Touches L s0 (s.noteSent c r gemm q held) := by
  refine Touches.step ?_ hL h
  unfold State.noteSent
  try dsimp only
  with_reducible repeat' first
    | exact Touches.refl _ _
    | assumption
    | exact Nat.le_refl _
    | exact Nat.le_add_right _ _
    | exact id
    | (apply State.updSched_touches; on_goal 1 => decide)
    | (apply State.atBoundary_touches; on_goal 1 => decide)
    | (apply State.updSched_touches; on_goal 1 => decide)
    | split

theorem State.sendPiece_touches {L : List Part} {s0 : State} (s : State) (c : Fin 48) (dest : BitVec 16) (x : Nat × Nat × List Byte) (hL : Within [.draws, .regs, .attn, .safe, .tState, .tSearch, .tSolver, .tSel, .tSched, .tOut, .bears, .jays, .cores, .dram, .links, .cascade, .lynx] L) (h : Touches L s0 s) :
    Touches L s0 (s.sendPiece c dest x) := by
  refine Touches.step ?_ hL h
  unfold State.sendPiece
  try dsimp only
  with_reducible repeat' first
    | exact Touches.refl _ _
    | assumption
    | exact Nat.le_refl _
    | exact Nat.le_add_right _ _
    | exact id
    | (apply State.setRun_touches; on_goal 1 => decide)
    | (apply State.streamWrite_touches; on_goal 1 => decide)
    | (apply State.issueRequest_touches; on_goal 1 => decide)
    | split

theorem State.sendLink_touches {L : List Part} {s0 : State} (s : State) (c : Fin 48) (gemm : Nat) (dest : BitVec 16) (l : List (Nat × List Byte)) (hL : Within [.draws, .regs, .attn, .safe, .tState, .tSearch, .tSolver, .tSel, .tSched, .tOut, .bears, .jays, .cores, .dram, .links, .cascade, .lynx] L) (h : Touches L s0 s) :
    Touches L s0 (s.sendLink c gemm dest l) := by
  refine Touches.step ?_ hL h
  unfold State.sendLink
  try dsimp only
  with_reducible repeat' first
    | exact Touches.refl _ _
    | assumption
    | exact Nat.le_refl _
    | exact Nat.le_add_right _ _
    | exact id
    | (apply State.sendPiece_touches; on_goal 1 => decide)
    | (apply State.noteSent_touches; on_goal 1 => decide)
    | refine Touches.forEach ?_ (fun _ _ _ => ?_)
    | split

theorem State.peerSend_touches {L : List Part} {s0 : State} (s : State) (c : Fin 48) (hL : Within [.draws, .regs, .attn, .safe, .tState, .tSearch, .tSolver, .tSel, .tSched, .tOut, .bears, .jays, .cores, .dram, .links, .cascade, .lynx] L) (h : Touches L s0 s) :
    Touches L s0 (s.peerSend c) := by
  refine Touches.step ?_ hL h
  unfold State.peerSend
  try dsimp only
  with_reducible repeat' first
    | exact Touches.refl _ _
    | assumption
    | exact Nat.le_refl _
    | exact Nat.le_add_right _ _
    | exact id
    | (apply State.faultPart_touches; on_goal 1 => decide)
    | (apply State.streamWrite_touches; on_goal 1 => decide)
    | (apply State.updCore_touches; on_goal 1 => decide)
    | (apply State.noteSent_touches; on_goal 1 => decide)
    | (apply State.setFlag_touches; on_goal 1 => decide)
    | (apply State.updSearch_touches; on_goal 1 => decide)
    | (apply State.sendLink_touches; on_goal 1 => decide)
    | refine Touches.forEach ?_ (fun _ _ _ => ?_)
    | (apply State.updSearch_touches; on_goal 1 => decide)
    | (apply State.updCore_touches; on_goal 1 => decide)
    | split

theorem State.applyMeasure_touches {L : List Part} {s0 : State} (s : State) (t : Fin 16) (c : Cmd) (hL : Within [.regs, .shadow, .dirty, .attn, .tTable, .tSolver, .tSpoor, .tQueues, .tCmds] L) (h : Touches L s0 s) :
    Touches L s0 (State.applyMeasure s t c) := by
  refine Touches.step ?_ hL h
  unfold State.applyMeasure
  try dsimp only
  with_reducible repeat' first
    | exact Touches.refl _ _
    | assumption
    | exact Nat.le_refl _
    | exact Nat.le_add_right _ _
    | exact id
    | (apply State.updSolver_touches; on_goal 1 => decide)
    | (apply State.remeasureStops_touches; on_goal 1 => decide)
    | (apply State.completeCmd_touches; on_goal 1 => decide)
    | (apply State.noteInput_touches; on_goal 1 => decide)
    | split

theorem State.measureCmd_touches {L : List Part} {s0 : State} (s : State) (t : Fin 16) (tag : Nat) (hL : Within [.regs, .shadow, .dirty, .attn, .tTable, .tSolver, .tSpoor, .tQueues, .tCmds] L) (h : Touches L s0 s) :
    Touches L s0 (s.measureCmd t tag) := by
  refine Touches.step ?_ hL h
  unfold State.measureCmd
  try dsimp only
  with_reducible repeat' first
    | exact Touches.refl _ _
    | assumption
    | exact Nat.le_refl _
    | exact Nat.le_add_right _ _
    | exact id
    | (apply State.refuseCmd_touches; on_goal 1 => decide)
    | (apply State.completeCmd_touches; on_goal 1 => decide)
    | (apply State.holdCmd_touches; on_goal 1 => decide)
    | (apply State.applyMeasure_touches; on_goal 1 => decide)
    | split

theorem State.loadModel_touches {L : List Part} {s0 : State} (s : State) (t : Fin 16) (tag : Nat) (buf : List Byte) (hL : Within [.regs, .shadow, .dirty, .attn, .tSolver, .tQueues, .tCmds] L) (h : Touches L s0 s) :
    Touches L s0 (State.loadModel s t tag buf) := by
  refine Touches.step ?_ hL h
  unfold State.loadModel
  try dsimp only
  with_reducible repeat' first
    | exact Touches.refl _ _
    | assumption
    | exact Nat.le_refl _
    | exact Nat.le_add_right _ _
    | exact id
    | (apply State.completeCmd_touches; on_goal 1 => decide)
    | (apply State.refuseCmd_touches; on_goal 1 => decide)
    | (apply State.updSolver_touches; on_goal 1 => decide)
    | split

theorem State.applyShape_touches {L : List Part} {s0 : State} (s : State) (t : Fin 16) (c : Cmd) (hL : Within [.regs, .shadow, .dirty, .attn, .tSched, .tSpoor, .tQueues, .tCmds] L) (h : Touches L s0 s) :
    Touches L s0 (State.applyShape s t c) := by
  refine Touches.step ?_ hL h
  unfold State.applyShape
  try dsimp only
  with_reducible repeat' first
    | exact Touches.refl _ _
    | assumption
    | exact Nat.le_refl _
    | exact Nat.le_add_right _ _
    | exact id
    | (apply State.completeCmd_touches; on_goal 1 => decide)
    | (apply State.updSched_touches; on_goal 1 => decide)
    | (apply State.noteInput_touches; on_goal 1 => decide)
    | split

theorem State.shapeCmd_touches {L : List Part} {s0 : State} (s : State) (t : Fin 16) (tag : Nat) (hL : Within [.regs, .shadow, .dirty, .attn, .tSched, .tSpoor, .tQueues, .tCmds] L) (h : Touches L s0 s) :
    Touches L s0 (s.shapeCmd t tag) := by
  refine Touches.step ?_ hL h
  unfold State.shapeCmd
  try dsimp only
  with_reducible repeat' first
    | exact Touches.refl _ _
    | assumption
    | exact Nat.le_refl _
    | exact Nat.le_add_right _ _
    | exact id
    | (apply State.completeCmd_touches; on_goal 1 => decide)
    | (apply State.holdCmd_touches; on_goal 1 => decide)
    | (apply State.applyShape_touches; on_goal 1 => decide)
    | split

theorem State.applySignal_touches {L : List Part} {s0 : State} (s : State) (t : Fin 16) (c : Cmd) (hL : Within [.regs, .shadow, .dirty, .attn, .tSched, .tSpoor, .tQueues, .tCmds] L) (h : Touches L s0 s) :
    Touches L s0 (State.applySignal s t c) := by
  refine Touches.step ?_ hL h
  unfold State.applySignal
  try dsimp only
  with_reducible repeat' first
    | exact Touches.refl _ _
    | assumption
    | exact Nat.le_refl _
    | exact Nat.le_add_right _ _
    | exact id
    | (apply State.completeCmd_touches; on_goal 1 => decide)
    | (apply State.noteInput_touches; on_goal 1 => decide)
    | (apply State.setSignal_touches; on_goal 1 => decide)
    | split

theorem State.signalCmd_touches {L : List Part} {s0 : State} (s : State) (t : Fin 16) (tag : Nat) (hL : Within [.regs, .shadow, .dirty, .attn, .tSched, .tSpoor, .tQueues, .tCmds] L) (h : Touches L s0 s) :
    Touches L s0 (s.signalCmd t tag) := by
  refine Touches.step ?_ hL h
  unfold State.signalCmd
  try dsimp only
  with_reducible repeat' first
    | exact Touches.refl _ _
    | assumption
    | exact Nat.le_refl _
    | exact Nat.le_add_right _ _
    | exact id
    | (apply State.holdCmd_touches; on_goal 1 => decide)
    | (apply State.applySignal_touches; on_goal 1 => decide)
    | split

theorem State.freeSignal_touches {L : List Part} {s0 : State} (s : State) (t : Fin 16) (c : Cmd) (hL : Within [.tCmds] L) (h : Touches L s0 s) :
    Touches L s0 (s.freeSignal t c) := by
  refine Touches.step ?_ hL h
  unfold State.freeSignal
  try dsimp only
  with_reducible repeat' first
    | exact Touches.refl _ _
    | assumption
    | exact Nat.le_refl _
    | exact Nat.le_add_right _ _
    | exact id
    | apply Touches.updTenant
    | (intro p hp; cases p <;> first | exact absurd hp (by decide) | (simp only [Part.sameT, Part.sameF, Part.sameO, Tenant.cleared, Tenant.discardFrame, Tenant.startFrame, Tenant.turn, Tenant.reset, and_self]; done))
    | split

theorem State.applyWaiting_touches {L : List Part} {s0 : State} (s : State) (t : Fin 16) (hL : Within [.regs, .shadow, .dirty, .attn, .tTable, .tSolver, .tSched, .tSpoor, .tQueues, .tCmds] L) (h : Touches L s0 s) :
    Touches L s0 (s.applyWaiting t) := by
  refine Touches.step ?_ hL h
  unfold State.applyWaiting
  try dsimp only
  with_reducible repeat' first
    | exact Touches.refl _ _
    | assumption
    | exact Nat.le_refl _
    | exact Nat.le_add_right _ _
    | exact id
    | (apply State.applyMeasure_touches; on_goal 1 => decide)
    | (apply State.applyShape_touches; on_goal 1 => decide)
    | (apply State.applySignal_touches; on_goal 1 => decide)
    | (apply State.freeSignal_touches; on_goal 1 => decide)
    | refine Touches.forEach ?_ (fun _ _ _ => ?_)
    | split

theorem State.activateCmd_touches {L : List Part} {s0 : State} (s : State) (t : Fin 16) (tag : Nat) (hL : Within [.regs, .shadow, .dirty, .attn, .tSched, .tQueues, .tCmds] L) (h : Touches L s0 s) :
    Touches L s0 (State.activateCmd s t tag) := by
  refine Touches.step ?_ hL h
  unfold State.activateCmd
  try dsimp only
  with_reducible repeat' first
    | exact Touches.refl _ _
    | assumption
    | exact Nat.le_refl _
    | exact Nat.le_add_right _ _
    | exact id
    | (apply State.completeCmd_touches; on_goal 1 => decide)
    | (apply State.updSched_touches; on_goal 1 => decide)
    | split

theorem State.placeRequests_touches {L : List Part} {s0 : State} (s : State) (t : Fin 16) (p : ProgramImage) (hL : Within [.dram] L) (h : Touches L s0 s) :
    Touches L s0 (s.placeRequests t p) := by
  refine Touches.step ?_ hL h
  unfold State.placeRequests
  try dsimp only
  with_reducible repeat' first
    | exact Touches.refl _ _
    | assumption
    | exact Nat.le_refl _
    | exact Nat.le_add_right _ _
    | exact id
    | (apply State.dramWrite_touches; on_goal 1 => decide)
    | refine Touches.forEach ?_ (fun _ _ _ => ?_)
    | split

theorem State.loadProgram_touches {L : List Part} {s0 : State} (s : State) (t : Fin 16) (tag : Nat) (p : ProgramImage) (hL : Within [.draws, .regs, .shadow, .dirty, .attn, .tSched, .tQueues, .tCmds, .dram] L) (h : Touches L s0 s) :
    Touches L s0 (s.loadProgram t tag p) := by
  refine Touches.step ?_ hL h
  unfold State.loadProgram
  try dsimp only
  with_reducible repeat' first
    | exact Touches.refl _ _
    | assumption
    | exact Nat.le_refl _
    | exact Nat.le_add_right _ _
    | exact id
    | (apply State.completeCmd_touches; on_goal 1 => decide)
    | (apply State.refuseCmd_touches; on_goal 1 => decide)
    | (apply State.draw_touches; on_goal 1 => decide)
    | (apply State.placeRequests_touches; on_goal 1 => decide)
    | (apply State.updSched_touches; on_goal 1 => decide)
    | (apply State.updSched_touches; on_goal 1 => decide)
    | (apply State.draw_touches; on_goal 1 => decide)
    | split

theorem State.loadLattice_touches {L : List Part} {s0 : State} (s : State) (t : Fin 16) (tag : Nat) (buf : List Byte) (hL : Within [.regs, .shadow, .dirty, .attn, .tSearch, .tQueues, .tCmds] L) (h : Touches L s0 s) :
    Touches L s0 (State.loadLattice s t tag buf) := by
  refine Touches.step ?_ hL h
  unfold State.loadLattice
  try dsimp only
  with_reducible repeat' first
    | exact Touches.refl _ _
    | assumption
    | exact Nat.le_refl _
    | exact Nat.le_add_right _ _
    | exact id
    | (apply State.completeCmd_touches; on_goal 1 => decide)
    | (apply State.refuseCmd_touches; on_goal 1 => decide)
    | (apply State.updSearch_touches; on_goal 1 => decide)
    | split

theorem State.endExpansion_touches {L : List Part} {s0 : State} (s : State) (t : Fin 16) (reason : Nat) (frontDone : Bool) (hL : Within [.regs, .tSearch] L) (h : Touches L s0 s) :
    Touches L s0 (State.endExpansion s t reason frontDone) := by
  refine Touches.step ?_ hL h
  unfold State.endExpansion
  try dsimp only
  with_reducible repeat' first
    | exact Touches.refl _ _
    | assumption
    | exact Nat.le_refl _
    | exact Nat.le_add_right _ _
    | exact id
    | (apply State.setLive_touches; on_goal 1 => decide)
    | (apply State.updSearch_touches; on_goal 1 => decide)
    | split

theorem State.finishFront_touches {L : List Part} {s0 : State} (s : State) (t : Fin 16) (reason : Nat) (hL : Within [.regs, .tSearch, .tSched] L) (h : Touches L s0 s) :
    Touches L s0 (State.finishFront s t reason) := by
  refine Touches.step ?_ hL h
  unfold State.finishFront
  try dsimp only
  with_reducible repeat' first
    | exact Touches.refl _ _
    | assumption
    | exact Nat.le_refl _
    | exact Nat.le_add_right _ _
    | exact id
    | (apply State.endTask_touches; on_goal 1 => decide)
    | (apply State.endExpansion_touches; on_goal 1 => decide)
    | split

theorem State.buildField_touches {L : List Part} {s0 : State} (s : State) (t : Fin 16) (hL : Within [.draws, .regs, .tSearch, .tSched, .lynx] L) (h : Touches L s0 s) :
    Touches L s0 (s.buildField t) := by
  refine Touches.step ?_ hL h
  unfold State.buildField
  try dsimp only
  with_reducible repeat' first
    | exact Touches.refl _ _
    | assumption
    | exact Nat.le_refl _
    | exact Nat.le_add_right _ _
    | exact id
    | (apply State.updSearch_touches; on_goal 1 => decide)
    | (apply State.streamFree_touches; on_goal 1 => decide)
    | (apply State.setLive_touches; on_goal 1 => decide)
    | (apply State.finishFront_touches; on_goal 1 => decide)
    | (apply State.updSearch_touches; on_goal 1 => decide)
    | split

theorem State.successor_touches {L : List Part} {s0 : State} (s : State) (t : Fin 16) (k : Start) (n : Node) (x : Nat × Prim) (hL : Within [.regs, .tSearch, .tTable, .tSched, .engines, .dram, .lynx] L) (h : Touches L s0 s) :
    Touches L s0 (State.successor s t k n x) := by
  refine Touches.step ?_ hL h
  unfold State.successor
  try dsimp only
  with_reducible repeat' first
    | exact Touches.refl _ _
    | assumption
    | exact Nat.le_refl _
    | exact Nat.le_add_right _ _
    | exact id
    | (apply State.updSearch_touches; on_goal 1 => decide)
    | (apply State.putCandBy_touches; on_goal 1 => decide)
    | (apply State.finishFront_touches; on_goal 1 => decide)
    | split

theorem State.successors_touches {L : List Part} {s0 : State} (s : State) (t : Fin 16) (k : Start) (n : Node) (l : List (Nat × Prim))
    (hL : Within [.regs, .tSearch, .tTable, .tSched, .engines, .dram, .lynx] L) (h : Touches L s0 s) : Touches L s0 (s.successors t k n l) := by
  induction l generalizing s with
  | nil => exact h
  | cons x r ih =>
    unfold State.successors
    split
    · exact Touches.step (State.updSearch_touches _ _ _ (by decide) (Touches.refl _ _)) hL h
    · exact ih _ (Touches.step (State.successor_touches _ _ _ _ _ (by decide) (Touches.refl _ _)) hL h)

theorem State.afterNode_touches {L : List Part} {s0 : State} (s : State) (t : Fin 16) (hL : Within [.regs, .tSearch, .tSched] L) (h : Touches L s0 s) :
    Touches L s0 (s.afterNode t) := by
  refine Touches.step ?_ hL h
  unfold State.afterNode
  try dsimp only
  with_reducible repeat' first
    | exact Touches.refl _ _
    | assumption
    | exact Nat.le_refl _
    | exact Nat.le_add_right _ _
    | exact id
    | (apply State.finishFront_touches; on_goal 1 => decide)
    | split

theorem State.expandNode_touches {L : List Part} {s0 : State} (s : State) (t : Fin 16) (hL : Within [.regs, .tSearch, .tTable, .tSched, .engines, .dram, .lynx] L) (h : Touches L s0 s) :
    Touches L s0 (s.expandNode t) := by
  refine Touches.step ?_ hL h
  unfold State.expandNode
  try dsimp only
  with_reducible repeat' first
    | exact Touches.refl _ _
    | assumption
    | exact Nat.le_refl _
    | exact Nat.le_add_right _ _
    | exact id
    | (apply State.updSearch_touches; on_goal 1 => decide)
    | (apply State.successors_touches; on_goal 1 => decide)
    | (apply State.afterNode_touches; on_goal 1 => decide)
    | (apply State.finishFront_touches; on_goal 1 => decide)
    | (apply State.updSearch_touches; on_goal 1 => decide)
    | split

theorem State.convertProposal_touches {L : List Part} {s0 : State} (s : State) (t : Fin 16) (hL : Within [.regs, .tSearch, .tTable, .engines, .dram, .lynx] L) (h : Touches L s0 s) :
    Touches L s0 (State.convertProposal s t) := by
  refine Touches.step ?_ hL h
  unfold State.convertProposal
  try dsimp only
  with_reducible repeat' first
    | exact Touches.refl _ _
    | assumption
    | exact Nat.le_refl _
    | exact Nat.le_add_right _ _
    | exact id
    | (apply State.updSearch_touches; on_goal 1 => decide)
    | (apply State.putCandBy_touches; on_goal 1 => decide)
    | split

theorem State.startCheck_touches {L : List Part} {s0 : State} (s : State) (e : Fin 16) (hL : Within [.regs, .tTable, .engines] L) (h : Touches L s0 s) :
    Touches L s0 (State.startCheck s e) := by
  refine Touches.step ?_ hL h
  unfold State.startCheck
  try dsimp only
  with_reducible repeat' first
    | exact Touches.refl _ _
    | assumption
    | exact Nat.le_refl _
    | exact Nat.le_add_right _ _
    | exact id
    | (apply State.retryStalled_touches; on_goal 1 => decide)
    | (apply State.updEngine_touches; on_goal 1 => decide)
    | split

theorem State.writeVerdict_touches {L : List Part} {s0 : State} (s : State) (e : Nat) (t : Fin 16) (id : Nat) (v : BitVec 2) (hit : Byte) (agent : Word) (hL : Within [.tTable, .lynx] L) (h : Touches L s0 s) :
    Touches L s0 (State.writeVerdict s e t id v hit agent) := by
  refine Touches.step ?_ hL h
  unfold State.writeVerdict
  try dsimp only
  with_reducible repeat' first
    | exact Touches.refl _ _
    | assumption
    | exact Nat.le_refl _
    | exact Nat.le_add_right _ _
    | exact id
    | (apply State.streamWrite_touches; on_goal 1 => decide)
    | (apply State.updCand_touches; on_goal 1 => decide)
    | (apply State.updTable_touches; on_goal 1 => decide)
    | split

theorem State.pollDrains_touches {L : List Part} {s0 : State} (s : State) (t : Fin 16) (hL : Within [.draws, .regs, .safe, .tSearch, .tSolver, .tSel, .tSched, .tOut, .bears, .jays, .cores, .dram, .cascade] L) (h : Touches L s0 s) :
    Touches L s0 (State.pollDrains s t) := by
  refine Touches.step ?_ hL h
  unfold State.pollDrains
  try dsimp only
  with_reducible repeat' first
    | exact Touches.refl _ _
    | assumption
    | exact Nat.le_refl _
    | exact Nat.le_add_right _ _
    | exact id
    | (apply State.updSched_touches; on_goal 1 => decide)
    | refine Touches.forEach ?_ (fun _ _ _ => ?_)
    | (apply State.finishTask_touches; on_goal 1 => decide)
    | split

theorem State.releaseStop_touches {L : List Part} {s0 : State} (s : State) (t : Fin 16) (hL : Within [.regs, .tTable, .engines] L) (h : Touches L s0 s) :
    Touches L s0 (State.releaseStop s t) := by
  refine Touches.step ?_ hL h
  unfold State.releaseStop
  try dsimp only
  with_reducible repeat' first
    | exact Touches.refl _ _
    | assumption
    | exact Nat.le_refl _
    | exact Nat.le_add_right _ _
    | exact id
    | (apply State.retryStalled_touches; on_goal 1 => decide)
    | (apply State.updTable_touches; on_goal 1 => decide)
    | split
    | (apply Touches.set_engines; on_goal 1 => decide)

theorem State.endCheck_touches {L : List Part} {s0 : State} (s : State) (e : Fin 16) (hL : Within [.draws, .regs, .attn, .safe, .tState, .tSearch, .tTable, .tSolver, .tSel, .tSched, .tOut, .engines, .bears, .jays, .cores, .dram, .cascade, .lynx] L) (h : Touches L s0 s) :
    Touches L s0 (State.endCheck s e) := by
  refine Touches.step ?_ hL h
  unfold State.endCheck
  try dsimp only
  with_reducible repeat' first
    | exact Touches.refl _ _
    | assumption
    | exact Nat.le_refl _
    | exact Nat.le_add_right _ _
    | exact id
    | (apply State.updEngine_touches; on_goal 1 => decide)
    | (apply State.pollDrains_touches; on_goal 1 => decide)
    | (apply State.programFault_touches; on_goal 1 => decide)
    | (apply State.draw_touches; on_goal 1 => decide)
    | (apply State.writeVerdict_touches; on_goal 1 => decide)
    | (apply State.judgeImminent_touches; on_goal 1 => decide)
    | (apply State.releaseStop_touches; on_goal 1 => decide)
    | split

theorem State.engineLost_touches {L : List Part} {s0 : State} (s : State) (e : Nat) (hL : Within [.draws, .regs, .safe, .tSearch, .tTable, .tSolver, .tSel, .tSched, .tOut, .engines, .bears, .jays, .cores, .dram, .cascade] L) (h : Touches L s0 s) :
    Touches L s0 (s.engineLost e) := by
  refine Touches.step ?_ hL h
  unfold State.engineLost
  try dsimp only
  with_reducible repeat' first
    | exact Touches.refl _ _
    | assumption
    | exact Nat.le_refl _
    | exact Nat.le_add_right _ _
    | exact id
    | (apply State.updEngine_touches; on_goal 1 => decide)
    | (apply State.noteDepth_touches; on_goal 1 => decide)
    | (apply State.retryStalled_touches; on_goal 1 => decide)
    | (apply State.pollDrains_touches; on_goal 1 => decide)
    | refine Touches.forTenants ?_ (fun _ _ _ => ?_)
    | refine Touches.forEach ?_ (fun _ _ _ => ?_)
    | (apply State.updEngine_touches; on_goal 1 => decide)
    | split

theorem State.markStarted_touches {L : List Part} {s0 : State} (s : State) (t : Fin 16) (i : Nat) (hL : Within [.draws, .regs, .tSched, .dram] L) (h : Touches L s0 s) :
    Touches L s0 (State.markStarted s t i) := by
  refine Touches.step ?_ hL h
  unfold State.markStarted
  try dsimp only
  with_reducible repeat' first
    | exact Touches.refl _ _
    | assumption
    | exact Nat.le_refl _
    | exact Nat.le_add_right _ _
    | exact id
    | (apply State.traceTask_touches; on_goal 1 => decide)
    | (apply State.updSched_touches; on_goal 1 => decide)
    | split

theorem State.issueDrain_touches {L : List Part} {s0 : State} (s : State) (t : Fin 16) (i : Nat) (b : List Byte) (hL : Within [.draws, .regs, .safe, .tSearch, .tSolver, .tSel, .tSched, .tOut, .bears, .jays, .cores, .dram, .cascade] L) (h : Touches L s0 s) :
    Touches L s0 (State.issueDrain s t i b) := by
  refine Touches.step ?_ hL h
  unfold State.issueDrain
  try dsimp only
  with_reducible repeat' first
    | exact Touches.refl _ _
    | assumption
    | exact Nat.le_refl _
    | exact Nat.le_add_right _ _
    | exact id
    | (apply State.pollDrains_touches; on_goal 1 => decide)
    | (apply State.updSched_touches; on_goal 1 => decide)
    | split

theorem State.issueDma_touches {L : List Part} {s0 : State} (s : State) (t : Fin 16) (i : Nat) (b : List Byte) (hL : Within [.draws, .regs, .attn, .safe, .tState, .tSearch, .tSolver, .tSel, .tSched, .tOut, .bears, .jays, .cores, .dram, .links, .cascade] L) (h : Touches L s0 s) :
    Touches L s0 (s.issueDma t i b) := by
  refine Touches.step ?_ hL h
  unfold State.issueDma
  try dsimp only
  with_reducible repeat' first
    | exact Touches.refl _ _
    | assumption
    | exact Nat.le_refl _
    | exact Nat.le_add_right _ _
    | exact id
    | (apply State.finishTask_touches; on_goal 1 => decide)
    | (apply State.issueRequest_touches; on_goal 1 => decide)
    | (apply State.programFault_touches; on_goal 1 => decide)
    | (apply State.updCascade_touches; on_goal 1 => decide)
    | (apply State.sendRequest_touches; on_goal 1 => decide)
    | refine Touches.forEach ?_ (fun _ _ _ => ?_)
    | (apply State.updCascade_touches; on_goal 1 => decide)
    | split

theorem State.issueEngine_touches {L : List Part} {s0 : State} (s : State) (t : Fin 16) (i : Nat) (hL : Within [.draws, .regs, .attn, .safe, .tState, .tSearch, .tSolver, .tSel, .tSched, .tOut, .bears, .jays, .cores, .dram, .links, .cascade] L) (h : Touches L s0 s) :
    Touches L s0 (s.issueEngine t i) := by
  refine Touches.step ?_ hL h
  unfold State.issueEngine
  try dsimp only
  with_reducible repeat' first
    | exact Touches.refl _ _
    | assumption
    | exact Nat.le_refl _
    | exact Nat.le_add_right _ _
    | exact id
    | (apply State.markStarted_touches; on_goal 1 => decide)
    | (apply State.programFault_touches; on_goal 1 => decide)
    | (apply State.updSearch_touches; on_goal 1 => decide)
    | (apply State.finishTask_touches; on_goal 1 => decide)
    | (apply State.updSel_touches; on_goal 1 => decide)
    | (apply State.updSolver_touches; on_goal 1 => decide)
    | (apply State.issueDrain_touches; on_goal 1 => decide)
    | (apply State.issueDma_touches; on_goal 1 => decide)
    | (apply State.updSearch_touches; on_goal 1 => decide)
    | (apply State.updSolver_touches; on_goal 1 => decide)
    | (apply State.updSel_touches; on_goal 1 => decide)
    | split

theorem State.writeSel_touches {L : List Part} {s0 : State} (s : State) (u : Nat) (q : SelReq) (status : Byte) (count bound : Nat) (first : Option Nat) (bs : List Byte) (hL : Within [.draws, .regs, .attn, .safe, .tState, .tSearch, .tSolver, .tSel, .tSched, .tOut, .bears, .jays, .cores, .dram, .cascade, .lynx] L) (h : Touches L s0 s) :
    Touches L s0 (s.writeSel u q status count bound first bs) := by
  refine Touches.step ?_ hL h
  unfold State.writeSel
  try dsimp only
  with_reducible repeat' first
    | exact Touches.refl _ _
    | assumption
    | exact Nat.le_refl _
    | exact Nat.le_add_right _ _
    | exact id
    | (apply State.programFault_touches; on_goal 1 => decide)
    | (apply State.writeResult_touches; on_goal 1 => decide)
    | (apply State.streamWrite_touches; on_goal 1 => decide)
    | (apply State.setLive_touches; on_goal 1 => decide)
    | (apply State.updSel_touches; on_goal 1 => decide)
    | (apply State.finishTask_touches; on_goal 1 => decide)
    | (apply State.updSel_touches; on_goal 1 => decide)
    | split

theorem State.failSel_touches {L : List Part} {s0 : State} (s : State) (u : Nat) (q : SelReq) (status : Byte) (hL : Within [.draws, .regs, .attn, .safe, .tState, .tSearch, .tSolver, .tSel, .tSched, .tOut, .bears, .jays, .cores, .dram, .cascade, .lynx] L) (h : Touches L s0 s) :
    Touches L s0 (s.failSel u q status) := by
  refine Touches.step ?_ hL h
  unfold State.failSel
  try dsimp only
  with_reducible repeat' first
    | exact Touches.refl _ _
    | assumption
    | exact Nat.le_refl _
    | exact Nat.le_add_right _ _
    | exact id
    | (apply State.writeSel_touches; on_goal 1 => decide)
    | split

theorem State.noteGroup_touches {L : List Part} {s0 : State} (s : State) (q : SelReq) (hL : Within [.tOut] L) (h : Touches L s0 s) :
    Touches L s0 (s.noteGroup q) := by
  refine Touches.step ?_ hL h
  unfold State.noteGroup
  try dsimp only
  with_reducible repeat' first
    | exact Touches.refl _ _
    | assumption
    | exact Nat.le_refl _
    | exact Nat.le_add_right _ _
    | exact id
    | (apply State.noteTiming_touches; on_goal 1 => decide)
    | split

theorem State.failRun_touches {L : List Part} {s0 : State} (s : State) (u : Nat) (status : Byte) (hL : Within [.draws, .regs, .attn, .safe, .tState, .tSearch, .tSolver, .tSel, .tSched, .tOut, .bears, .jays, .cores, .dram, .cascade, .lynx] L) (h : Touches L s0 s) :
    Touches L s0 (s.failRun u status) := by
  refine Touches.step ?_ hL h
  unfold State.failRun
  try dsimp only
  with_reducible repeat' first
    | exact Touches.refl _ _
    | assumption
    | exact Nat.le_refl _
    | exact Nat.le_add_right _ _
    | exact id
    | (apply State.updJay_touches; on_goal 1 => decide)
    | (apply State.noteGroup_touches; on_goal 1 => decide)
    | (apply State.failSel_touches; on_goal 1 => decide)
    | (apply State.updJay_touches; on_goal 1 => decide)
    | split

theorem State.refuseSelect_touches {L : List Part} {s0 : State} (s : State) (t : Fin 16) (task : Nat) (code : Byte) (hL : Within [.draws, .regs, .safe, .tSearch, .tSolver, .tSel, .tSched, .tOut, .bears, .jays, .cores, .dram, .cascade] L) (h : Touches L s0 s) :
    Touches L s0 (s.refuseSelect t task code) := by
  refine Touches.step ?_ hL h
  unfold State.refuseSelect
  try dsimp only
  with_reducible repeat' first
    | exact Touches.refl _ _
    | assumption
    | exact Nat.le_refl _
    | exact Nat.le_add_right _ _
    | exact id
    | (apply State.updSel_touches; on_goal 1 => decide)
    | (apply State.finishTask_touches; on_goal 1 => decide)
    | (apply State.updSel_touches; on_goal 1 => decide)
    | split

theorem State.noteSelect_touches {L : List Part} {s0 : State} (s : State) (t : Fin 16) (w : BitVec 512) (hL : Within [.tSel] L) (h : Touches L s0 s) :
    Touches L s0 (s.noteSelect t w) := by
  refine Touches.step ?_ hL h
  unfold State.noteSelect
  try dsimp only
  with_reducible repeat' first
    | exact Touches.refl _ _
    | assumption
    | exact Nat.le_refl _
    | exact Nat.le_add_right _ _
    | exact id
    | (apply State.updSel_touches; on_goal 1 => decide)
    | (apply State.updSel_touches; on_goal 1 => decide)
    | split

theorem State.receiveSelect_touches {L : List Part} {s0 : State} (s : State) (t : Fin 16) (hL : Within [.draws, .regs, .attn, .safe, .tState, .tSearch, .tSolver, .tSel, .tSched, .tOut, .bears, .jays, .cores, .dram, .cascade, .lynx] L) (h : Touches L s0 s) :
    Touches L s0 (s.receiveSelect t) := by
  refine Touches.step ?_ hL h
  unfold State.receiveSelect
  try dsimp only
  with_reducible repeat' first
    | exact Touches.refl _ _
    | assumption
    | exact Nat.le_refl _
    | exact Nat.le_add_right _ _
    | exact id
    | (apply State.updSel_touches; on_goal 1 => decide)
    | (apply State.refuseSelect_touches; on_goal 1 => decide)
    | (apply State.noteSelect_touches; on_goal 1 => decide)
    | (apply State.failSel_touches; on_goal 1 => decide)
    | (apply State.updJay_touches; on_goal 1 => decide)
    | (apply State.updSel_touches; on_goal 1 => decide)
    | (apply State.updJay_touches; on_goal 1 => decide)
    | split

theorem State.snap_touches {L : List Part} {s0 : State} (s : State) (u : Nat) (hL : Within [.draws, .regs, .attn, .safe, .tState, .tSearch, .tSolver, .tSel, .tSched, .tOut, .bears, .jays, .cores, .dram, .cascade] L) (h : Touches L s0 s) :
    Touches L s0 (State.snap s u) := by
  refine Touches.step ?_ hL h
  unfold State.snap
  try dsimp only
  with_reducible repeat' first
    | exact Touches.refl _ _
    | assumption
    | exact Nat.le_refl _
    | exact Nat.le_add_right _ _
    | exact id
    | (apply State.programFault_touches; on_goal 1 => decide)
    | (apply State.updJay_touches; on_goal 1 => decide)
    | split

theorem State.startSelect_touches {L : List Part} {s0 : State} (s : State) (u : Nat) (hL : Within [.draws, .regs, .attn, .safe, .tState, .tSearch, .tSolver, .tSel, .tSched, .tOut, .bears, .jays, .cores, .dram, .cascade, .lynx] L) (h : Touches L s0 s) :
    Touches L s0 (s.startSelect u) := by
  refine Touches.step ?_ hL h
  unfold State.startSelect
  try dsimp only
  with_reducible repeat' first
    | exact Touches.refl _ _
    | assumption
    | exact Nat.le_refl _
    | exact Nat.le_add_right _ _
    | exact id
    | (apply State.snap_touches; on_goal 1 => decide)
    | (apply State.updJay_touches; on_goal 1 => decide)
    | (apply State.failRun_touches; on_goal 1 => decide)
    | (apply State.updJay_touches; on_goal 1 => decide)
    | split

theorem State.returnColl_touches {L : List Part} {s0 : State} (s : State) (f : LinkFrame) (c : Coll) (hL : Within [.draws, .regs, .attn, .safe, .tState, .tSearch, .tSolver, .tSel, .tSched, .tOut, .bears, .jays, .cores, .dram, .links, .cascade] L) (h : Touches L s0 s) :
    Touches L s0 (State.returnColl s f c) := by
  refine Touches.step ?_ hL h
  unfold State.returnColl
  try dsimp only
  with_reducible repeat' first
    | exact Touches.refl _ _
    | assumption
    | exact Nat.le_refl _
    | exact Nat.le_add_right _ _
    | exact id
    | refine Touches.forEach ?_ (fun _ _ _ => ?_)
    | (apply State.sendResponse_touches; on_goal 1 => decide)
    | split

theorem State.masterPart_touches {L : List Part} {s0 : State} (s : State) (f : LinkFrame) (hL : Within [.draws, .regs, .attn, .safe, .tState, .tSearch, .tSolver, .tSel, .tSched, .tOut, .bears, .jays, .cores, .dram, .links, .cascade] L) (h : Touches L s0 s) :
    Touches L s0 (State.masterPart s f) := by
  refine Touches.step ?_ hL h
  unfold State.masterPart
  try dsimp only
  with_reducible repeat' first
    | exact Touches.refl _ _
    | assumption
    | exact Nat.le_refl _
    | exact Nat.le_add_right _ _
    | exact id
    | (apply State.sendResponse_touches; on_goal 1 => decide)
    | (apply State.updCascade_touches; on_goal 1 => decide)
    | (apply State.returnColl_touches; on_goal 1 => decide)
    | split

theorem State.sendPartial_touches {L : List Part} {s0 : State} (s : State) (u pass : Nat) (hL : Within [.draws, .regs, .attn, .safe, .tState, .tSearch, .tSolver, .tSel, .tSched, .tOut, .bears, .jays, .cores, .dram, .links, .cascade, .lynx] L) (h : Touches L s0 s) :
    Touches L s0 (s.sendPartial u pass) := by
  refine Touches.step ?_ hL h
  unfold State.sendPartial
  try dsimp only
  with_reducible repeat' first
    | exact Touches.refl _ _
    | assumption
    | exact Nat.le_refl _
    | exact Nat.le_add_right _ _
    | exact id
    | (apply State.failRun_touches; on_goal 1 => decide)
    | (apply State.updJay_touches; on_goal 1 => decide)
    | (apply State.updCascade_touches; on_goal 1 => decide)
    | (apply State.masterPart_touches; on_goal 1 => decide)
    | (apply State.sendRequest_touches; on_goal 1 => decide)
    | refine Touches.forEach ?_ (fun _ _ _ => ?_)
    | (apply State.updJay_touches; on_goal 1 => decide)
    | (apply State.updCascade_touches; on_goal 1 => decide)
    | split

theorem State.sendDue_touches {L : List Part} {s0 : State} (s : State) (u : Nat) (hL : Within [.draws, .regs, .attn, .safe, .tState, .tSearch, .tSolver, .tSel, .tSched, .tOut, .bears, .jays, .cores, .dram, .links, .cascade, .lynx] L) (h : Touches L s0 s) :
    Touches L s0 (State.sendDue s u) := by
  refine Touches.step ?_ hL h
  unfold State.sendDue
  try dsimp only
  with_reducible repeat' first
    | exact Touches.refl _ _
    | assumption
    | exact Nat.le_refl _
    | exact Nat.le_add_right _ _
    | exact id
    | (apply State.sendPartial_touches; on_goal 1 => decide)
    | split

theorem State.endFailed_touches {L : List Part} {s0 : State} (s : State) (u : Nat) (hL : Within [.draws, .regs, .attn, .safe, .tState, .tSearch, .tSolver, .tSel, .tSched, .tOut, .bears, .jays, .cores, .dram, .cascade, .lynx] L) (h : Touches L s0 s) :
    Touches L s0 (State.endFailed s u) := by
  refine Touches.step ?_ hL h
  unfold State.endFailed
  try dsimp only
  with_reducible repeat' first
    | exact Touches.refl _ _
    | assumption
    | exact Nat.le_refl _
    | exact Nat.le_add_right _ _
    | exact id
    | (apply State.failRun_touches; on_goal 1 => decide)
    | split

theorem State.passSelect_touches {L : List Part} {s0 : State} (s : State) (u : Nat) (hL : Within [.draws, .regs, .attn, .safe, .tState, .tSearch, .tSolver, .tSel, .tSched, .tOut, .bears, .jays, .cores, .dram, .links, .cascade, .lynx] L) (h : Touches L s0 s) :
    Touches L s0 (State.passSelect s u) := by
  refine Touches.step ?_ hL h
  unfold State.passSelect
  try dsimp only
  with_reducible repeat' first
    | exact Touches.refl _ _
    | assumption
    | exact Nat.le_refl _
    | exact Nat.le_add_right _ _
    | exact id
    | (apply State.snap_touches; on_goal 1 => decide)
    | (apply State.updJay_touches; on_goal 1 => decide)
    | (apply State.failRun_touches; on_goal 1 => decide)
    | (apply State.endFailed_touches; on_goal 1 => decide)
    | (apply State.sendDue_touches; on_goal 1 => decide)
    | split

theorem State.resultSelect_touches {L : List Part} {s0 : State} (s : State) (u : Nat) (hL : Within [.draws, .regs, .attn, .safe, .tState, .tSearch, .tSolver, .tSel, .tSched, .tOut, .bears, .jays, .cores, .dram, .cascade, .lynx] L) (h : Touches L s0 s) :
    Touches L s0 (s.resultSelect u) := by
  refine Touches.step ?_ hL h
  unfold State.resultSelect
  try dsimp only
  with_reducible repeat' first
    | exact Touches.refl _ _
    | assumption
    | exact Nat.le_refl _
    | exact Nat.le_add_right _ _
    | exact id
    | (apply State.failRun_touches; on_goal 1 => decide)
    | (apply State.updJay_touches; on_goal 1 => decide)
    | (apply State.noteGroup_touches; on_goal 1 => decide)
    | (apply State.writeSel_touches; on_goal 1 => decide)
    | (apply State.updJay_touches; on_goal 1 => decide)
    | split

theorem State.cutSelects_touches {L : List Part} {s0 : State} (s : State) (k : Nat) (hL : Within [.draws, .regs, .attn, .safe, .tState, .tSearch, .tSolver, .tSel, .tSched, .tOut, .bears, .jays, .cores, .dram, .cascade, .lynx] L) (h : Touches L s0 s) :
    Touches L s0 (s.cutSelects k) := by
  refine Touches.step ?_ hL h
  unfold State.cutSelects
  try dsimp only
  with_reducible repeat' first
    | exact Touches.refl _ _
    | assumption
    | exact Nat.le_refl _
    | exact Nat.le_add_right _ _
    | exact id
    | (apply State.updSel_touches; on_goal 1 => decide)
    | (apply State.noteCut_touches; on_goal 1 => decide)
    | (apply State.refuseSelect_touches; on_goal 1 => decide)
    | (apply State.noteSelect_touches; on_goal 1 => decide)
    | (apply State.failSel_touches; on_goal 1 => decide)
    | (apply State.updJay_touches; on_goal 1 => decide)
    | (apply State.failRun_touches; on_goal 1 => decide)
    | refine Touches.forTenants ?_ (fun _ _ _ => ?_)
    | refine Touches.forEach ?_ (fun _ _ _ => ?_)
    | (apply State.updSel_touches; on_goal 1 => decide)
    | (apply State.updJay_touches; on_goal 1 => decide)
    | split

theorem State.moveSelect_touches {L : List Part} {s0 : State} (s : State) (u : Nat) (q : SelReq) (hL : Within [.draws, .regs, .attn, .safe, .tState, .tSearch, .tSolver, .tSel, .tSched, .tOut, .bears, .jays, .cores, .dram, .cascade, .lynx] L) (h : Touches L s0 s) :
    Touches L s0 (s.moveSelect u q) := by
  refine Touches.step ?_ hL h
  unfold State.moveSelect
  try dsimp only
  with_reducible repeat' first
    | exact Touches.refl _ _
    | assumption
    | exact Nat.le_refl _
    | exact Nat.le_add_right _ _
    | exact id
    | (apply State.updJay_touches; on_goal 1 => decide)
    | (apply State.failSel_touches; on_goal 1 => decide)
    | (apply State.updJay_touches; on_goal 1 => decide)
    | split

theorem State.jayLost_touches {L : List Part} {s0 : State} (s : State) (u : Nat) (hL : Within [.draws, .regs, .attn, .safe, .tState, .tSearch, .tSolver, .tSel, .tSched, .tOut, .bears, .jays, .cores, .dram, .cascade, .lynx] L) (h : Touches L s0 s) :
    Touches L s0 (s.jayLost u) := by
  refine Touches.step ?_ hL h
  unfold State.jayLost
  try dsimp only
  with_reducible repeat' first
    | exact Touches.refl _ _
    | assumption
    | exact Nat.le_refl _
    | exact Nat.le_add_right _ _
    | exact id
    | (apply State.updJay_touches; on_goal 1 => decide)
    | (apply State.failSel_touches; on_goal 1 => decide)
    | (apply State.moveSelect_touches; on_goal 1 => decide)
    | refine Touches.forEach ?_ (fun _ _ _ => ?_)
    | (apply State.updJay_touches; on_goal 1 => decide)
    | split

theorem State.segmentsLost_touches {L : List Part} {s0 : State} (s : State) (c : Nat) (hL : Within [.draws, .regs, .attn, .safe, .tState, .tSearch, .tSolver, .tSel, .tSched, .tOut, .bears, .jays, .cores, .dram, .cascade, .lynx] L) (h : Touches L s0 s) :
    Touches L s0 (s.segmentsLost c) := by
  refine Touches.step ?_ hL h
  unfold State.segmentsLost
  try dsimp only
  with_reducible repeat' first
    | exact Touches.refl _ _
    | assumption
    | exact Nat.le_refl _
    | exact Nat.le_add_right _ _
    | exact id
    | (apply State.failRun_touches; on_goal 1 => decide)
    | (apply State.updJay_touches; on_goal 1 => decide)
    | refine Touches.forEach ?_ (fun _ _ _ => ?_)
    | (apply State.updJay_touches; on_goal 1 => decide)
    | split

theorem State.latchSelect_touches {L : List Part} {s0 : State} (s : State) (t : Fin 16) (hL : Within [.regs] L) (h : Touches L s0 s) :
    Touches L s0 (State.latchSelect s t) := by
  refine Touches.step ?_ hL h
  unfold State.latchSelect
  try dsimp only
  with_reducible repeat' first
    | exact Touches.refl _ _
    | assumption
    | exact Nat.le_refl _
    | exact Nat.le_add_right _ _
    | exact id
    | (apply State.setLive_touches; on_goal 1 => decide)
    | split

theorem State.writeReport_touches {L : List Part} {s0 : State} (s : State) (t : Fin 16) (k : BearSlot) (status : Byte) (iters : Nat) (missing : Bool) (bs : List Byte) (hL : Within [.draws, .regs, .attn, .safe, .tState, .tSearch, .tSolver, .tSel, .tSched, .tOut, .bears, .jays, .cores, .dram, .cascade, .lynx] L) (h : Touches L s0 s) :
    Touches L s0 (s.writeReport t k status iters missing bs) := by
  refine Touches.step ?_ hL h
  unfold State.writeReport
  try dsimp only
  with_reducible repeat' first
    | exact Touches.refl _ _
    | assumption
    | exact Nat.le_refl _
    | exact Nat.le_add_right _ _
    | exact id
    | (apply State.setLive_touches; on_goal 1 => decide)
    | (apply State.updSolver_touches; on_goal 1 => decide)
    | (apply State.programFault_touches; on_goal 1 => decide)
    | (apply State.writeResult_touches; on_goal 1 => decide)
    | (apply State.streamWrite_touches; on_goal 1 => decide)
    | (apply State.updSched_touches; on_goal 1 => decide)
    | (apply State.finishTask_touches; on_goal 1 => decide)
    | (apply State.updSolver_touches; on_goal 1 => decide)
    | (apply State.updSched_touches; on_goal 1 => decide)
    | split

theorem State.emptyReport_touches {L : List Part} {s0 : State} (s : State) (t : Fin 16) (k : BearSlot) (status : Byte) (iters refines : Nat) (missing : Bool) (hL : Within [.draws, .regs, .attn, .safe, .tState, .tSearch, .tSolver, .tSel, .tSched, .tOut, .bears, .jays, .cores, .dram, .cascade, .lynx] L) (h : Touches L s0 s) :
    Touches L s0 (s.emptyReport t k status iters refines missing) := by
  refine Touches.step ?_ hL h
  unfold State.emptyReport
  try dsimp only
  with_reducible repeat' first
    | exact Touches.refl _ _
    | assumption
    | exact Nat.le_refl _
    | exact Nat.le_add_right _ _
    | exact id
    | exact Nat.le_add_right_of_le (Nat.le_add_right _ _)
    | (apply State.writeReport_touches; on_goal 1 => decide)
    | split

theorem State.receiveSmooth_touches {L : List Part} {s0 : State} (s : State) (t : Fin 16) (hL : Within [.draws, .regs, .attn, .safe, .tState, .tSearch, .tSolver, .tSel, .tSched, .tOut, .bears, .jays, .cores, .dram, .cascade, .lynx] L) (h : Touches L s0 s) :
    Touches L s0 (State.receiveSmooth s t) := by
  refine Touches.step ?_ hL h
  unfold State.receiveSmooth
  try dsimp only
  with_reducible repeat' first
    | exact Touches.refl _ _
    | assumption
    | exact Nat.le_refl _
    | exact Nat.le_add_right _ _
    | exact id
    | (apply State.updSolver_touches; on_goal 1 => decide)
    | (apply State.finishTask_touches; on_goal 1 => decide)
    | refine Touches.forEach ?_ (fun _ _ _ => ?_)
    | (apply State.emptyReport_touches; on_goal 1 => decide)
    | split

theorem State.bearCycles_touches {L : List Part} {s0 : State} (s : State) (t : Fin 16) (n : Nat) (hL : Within [.tSolver] L) (h : Touches L s0 s) :
    Touches L s0 (State.bearCycles s t n) := by
  refine Touches.step ?_ hL h
  unfold State.bearCycles
  try dsimp only
  with_reducible repeat' first
    | exact Touches.refl _ _
    | assumption
    | exact Nat.le_refl _
    | exact Nat.le_add_right _ _
    | exact id
    | (apply State.updSolver_touches; on_goal 1 => decide)
    | split

theorem State.startSolve_touches {L : List Part} {s0 : State} (s : State) (u : Nat) (hL : Within [.draws, .regs, .attn, .safe, .tState, .tSearch, .tSolver, .tSel, .tSched, .tOut, .bears, .jays, .cores, .dram, .cascade, .lynx] L) (h : Touches L s0 s) :
    Touches L s0 (s.startSolve u) := by
  refine Touches.step ?_ hL h
  unfold State.startSolve
  try dsimp only
  with_reducible repeat' first
    | exact Touches.refl _ _
    | assumption
    | exact Nat.le_refl _
    | exact Nat.le_add_right _ _
    | exact id
    | (apply State.emptyReport_touches; on_goal 1 => decide)
    | (apply State.programFault_touches; on_goal 1 => decide)
    | (apply State.updBear_touches; on_goal 1 => decide)
    | (apply State.updSolver_touches; on_goal 1 => decide)
    | (apply State.bearCycles_touches; on_goal 1 => decide)
    | (apply State.updSolver_touches; on_goal 1 => decide)
    | (apply State.updBear_touches; on_goal 1 => decide)
    | split

theorem State.cutSolve_touches {L : List Part} {s0 : State} (s : State) (u : Nat) (v : Solve) (hL : Within [.draws, .regs, .attn, .safe, .tState, .tSearch, .tSolver, .tSel, .tSched, .tOut, .bears, .jays, .cores, .dram, .cascade, .lynx] L) (h : Touches L s0 s) :
    Touches L s0 (State.cutSolve s u v) := by
  refine Touches.step ?_ hL h
  unfold State.cutSolve
  try dsimp only
  with_reducible repeat' first
    | exact Touches.refl _ _
    | assumption
    | exact Nat.le_refl _
    | exact Nat.le_add_right _ _
    | exact id
    | (apply State.bearCycles_touches; on_goal 1 => decide)
    | (apply State.updBear_touches; on_goal 1 => decide)
    | (apply State.emptyReport_touches; on_goal 1 => decide)
    | split

theorem State.iterateSolve_touches {L : List Part} {s0 : State} (s : State) (u : Nat) (hL : Within [.draws, .regs, .attn, .safe, .tState, .tSearch, .tSolver, .tSel, .tSched, .tOut, .bears, .jays, .cores, .dram, .cascade, .lynx] L) (h : Touches L s0 s) :
    Touches L s0 (s.iterateSolve u) := by
  refine Touches.step ?_ hL h
  unfold State.iterateSolve
  try dsimp only
  with_reducible repeat' first
    | exact Touches.refl _ _
    | assumption
    | exact Nat.le_refl _
    | exact Nat.le_add_right _ _
    | exact id
    | (apply State.updBear_touches; on_goal 1 => decide)
    | (apply State.bearCycles_touches; on_goal 1 => decide)
    | (apply State.cutSolve_touches; on_goal 1 => decide)
    | (apply State.updBear_touches; on_goal 1 => decide)
    | split

theorem State.endSolve_touches {L : List Part} {s0 : State} (s : State) (u : Nat) (hL : Within [.draws, .regs, .attn, .safe, .tState, .tSearch, .tTable, .tSolver, .tSel, .tSched, .tOut, .engines, .bears, .jays, .cores, .dram, .cascade, .lynx] L) (h : Touches L s0 s) :
    Touches L s0 (s.endSolve u) := by
  refine Touches.step ?_ hL h
  unfold State.endSolve
  try dsimp only
  with_reducible repeat' first
    | exact Touches.refl _ _
    | assumption
    | exact Nat.le_refl _
    | exact Nat.le_add_right _ _
    | exact id
    | (apply State.cutSolve_touches; on_goal 1 => decide)
    | (apply State.updBear_touches; on_goal 1 => decide)
    | (apply State.bearCycles_touches; on_goal 1 => decide)
    | (apply State.writeReport_touches; on_goal 1 => decide)
    | (apply State.putCandBy_touches; on_goal 1 => decide)
    | (apply State.updBear_touches; on_goal 1 => decide)
    | split

theorem State.cutSlots_touches {L : List Part} {s0 : State} (s : State) (t : Fin 16) (p : BearSlot → Bool) (hL : Within [.draws, .regs, .attn, .safe, .tState, .tSearch, .tSolver, .tSel, .tSched, .tOut, .bears, .jays, .cores, .dram, .cascade, .lynx] L) (h : Touches L s0 s) :
    Touches L s0 (State.cutSlots s t p) := by
  refine Touches.step ?_ hL h
  unfold State.cutSlots
  try dsimp only
  with_reducible repeat' first
    | exact Touches.refl _ _
    | assumption
    | exact Nat.le_refl _
    | exact Nat.le_add_right _ _
    | exact id
    | refine Touches.forEach ?_ (fun _ _ _ => ?_)
    | (apply State.emptyReport_touches; on_goal 1 => decide)
    | split

theorem State.cutSolves_touches {L : List Part} {s0 : State} (s : State) (k : Nat) (hL : Within [.draws, .regs, .attn, .safe, .tState, .tSearch, .tSolver, .tSel, .tSched, .tOut, .bears, .jays, .cores, .dram, .cascade, .lynx] L)
    (h : Touches L s0 s) : Touches L s0 (s.cutSolves k) := by
  refine Touches.step ?_ hL h
  unfold State.cutSolves
  refine Touches.forTenants (Touches.refl _ _) fun u t g => ?_
  extract_lets hit s1 queued running solving s2 stopIt s3
  have h1 : Touches [.draws, .regs, .attn, .safe, .tState, .tSearch, .tSolver, .tSel, .tSched, .tOut, .bears, .jays, .cores, .dram, .cascade, .lynx] s s1 := Touches.forEach g fun _ _ g => by
    split
    · exact State.receiveSmooth_touches _ _ (by decide) g
    · apply State.finishTask_touches; on_goal 1 => decide
      apply State.updSolver_touches; on_goal 1 => decide
      exact State.noteCut_touches _ _ _ _ (by decide) g
  clear_value s1 queued running solving
  have h2 : Touches [.draws, .regs, .attn, .safe, .tState, .tSearch, .tSolver, .tSel, .tSched, .tOut, .bears, .jays, .cores, .dram, .cascade, .lynx] s s2 := Touches.forEach h1 fun _ _ g => State.noteCut_touches _ _ _ _ (by decide) g
  clear_value s2 stopIt
  have h3 : Touches [.draws, .regs, .attn, .safe, .tState, .tSearch, .tSolver, .tSel, .tSched, .tOut, .bears, .jays, .cores, .dram, .cascade, .lynx] s s3 := Touches.set_bears _ _ (by decide) h2
  clear_value s3
  exact State.cutSlots_touches _ _ _ (by decide) h3

theorem State.bearLost_touches {L : List Part} {s0 : State} (s : State) (u : Nat) (hL : Within [.draws, .regs, .attn, .safe, .tState, .tSearch, .tSolver, .tSel, .tSched, .tOut, .bears, .jays, .cores, .dram, .cascade, .lynx] L) (h : Touches L s0 s) :
    Touches L s0 (s.bearLost u) := by
  refine Touches.step ?_ hL h
  unfold State.bearLost
  try dsimp only
  with_reducible repeat' first
    | exact Touches.refl _ _
    | assumption
    | exact Nat.le_refl _
    | exact Nat.le_add_right _ _
    | exact id
    | (apply State.updBear_touches; on_goal 1 => decide)
    | (apply State.emptyReport_touches; on_goal 1 => decide)
    | (apply State.updSolver_touches; on_goal 1 => decide)
    | refine Touches.forTenants ?_ (fun _ _ _ => ?_)
    | refine Touches.forEach ?_ (fun _ _ _ => ?_)
    | (apply State.updSolver_touches; on_goal 1 => decide)
    | (apply State.updBear_touches; on_goal 1 => decide)
    | split

theorem State.latchSolver_touches {L : List Part} {s0 : State} (s : State) (t : Fin 16) (hL : Within [.regs] L) (h : Touches L s0 s) :
    Touches L s0 (State.latchSolver s t) := by
  refine Touches.step ?_ hL h
  unfold State.latchSolver
  try dsimp only
  with_reducible repeat' first
    | exact Touches.refl _ _
    | assumption
    | exact Nat.le_refl _
    | exact Nat.le_add_right _ _
    | exact id
    | (apply State.setLive_touches; on_goal 1 => decide)
    | split

theorem State.refuseWrite_touches {L : List Part} {s0 : State} (s : State) (w : Writer) (page : Nat) (changes : Bool) (hL : Within [.attn] L) (h : Touches L s0 s) :
    Touches L s0 (State.refuseWrite s w page changes) := by
  refine Touches.step ?_ hL h
  unfold State.refuseWrite
  try dsimp only
  with_reducible repeat' first
    | exact Touches.refl _ _
    | assumption
    | exact Nat.le_refl _
    | exact Nat.le_add_right _ _
    | exact id
    | (apply State.bumpErr_touches; on_goal 1 => decide)
    | split

theorem State.clearRead_touches {L : List Part} {s0 : State} (s : State) (page off : Nat) (hL : Within [.regs, .attn, .slotsPeak, .links, .cascade, .lynx, .clock, .power] L)
    (h : Touches L s0 s) : Touches L s0 (s.clearRead page off) := by
  refine Touches.step ?_ hL h
  unfold State.clearRead
  split
  · exact State.updAttn_touches _ _ (by decide) (Touches.refl _ _)
  · split
    · exact State.updClock_touches _ _ (by decide) (Touches.refl _ _) fun h => h
    · exact State.updPower_touches _ _ (by decide) (Touches.refl _ _) fun h => h
    · exact Touches.set_slotsPeak _ _ (by decide) (Touches.refl _ _)
    · exact State.updLynx_touches _ _ (by decide) (Touches.refl _ _)
    · exact State.updCascade_touches _ _ (by decide) (Touches.refl _ _)
    · exact State.updCascade_touches _ _ (by decide) (Touches.refl _ _)
    · split
      · exact Touches.refl _ _
      · split
        · exact Touches.refl _ _
        · split
          · exact State.updLink_touches _ _ _ (by decide) (Touches.refl _ _)
          · exact State.setLive_touches _ _ _ _ (by decide) (Touches.refl _ _)

theorem State.bar0Read_touches {L : List Part} {s0 : State} (s : State) (p : Port) (page off : Nat) (hL : Within [.regs, .cfgA, .cfgB, .attn, .slotsPeak, .links, .cascade, .lynx, .clock, .power] L) (h : Touches L s0 s) :
    Touches L s0 (State.bar0Read s p page off) := by
  refine Touches.step ?_ hL h
  unfold State.bar0Read
  try dsimp only
  with_reducible repeat' first
    | exact Touches.refl _ _
    | assumption
    | exact Nat.le_refl _
    | exact Nat.le_add_right _ _
    | exact id
    | (apply State.updCfg_touches; on_goal 1 => decide)
    | (apply State.clearRead_touches; on_goal 1 => decide)
    | split

theorem State.bar2Drop_touches {L : List Part} {s0 : State} (s : State) (p : Port) (hL : Within [.regs, .attn] L) (h : Touches L s0 s) :
    Touches L s0 (State.bar2Drop s p) := by
  refine Touches.step ?_ hL h
  unfold State.bar2Drop
  try dsimp only
  with_reducible repeat' first
    | exact Touches.refl _ _
    | assumption
    | exact Nat.le_refl _
    | exact Nat.le_add_right _ _
    | exact id
    | (apply State.raise_touches; on_goal 1 => decide)
    | (apply State.setLive_touches; on_goal 1 => decide)
    | split

theorem State.bar2Read_touches {L : List Part} {s0 : State} (s : State) (p : Port) (a n : Nat) (hL : Within [.regs, .cfgA, .cfgB, .attn] L) (h : Touches L s0 s) :
    Touches L s0 (State.bar2Read s p a n) := by
  refine Touches.step ?_ hL h
  unfold State.bar2Read
  try dsimp only
  with_reducible repeat' first
    | exact Touches.refl _ _
    | assumption
    | exact Nat.le_refl _
    | exact Nat.le_add_right _ _
    | exact id
    | (apply State.updCfg_touches; on_goal 1 => decide)
    | (apply State.bar2Drop_touches; on_goal 1 => decide)
    | split

theorem State.bar2Write_touches {L : List Part} {s0 : State} (s : State) (p : Port) (a : Nat) (d : List Byte) (hL : Within [.regs, .attn, .dram] L) (h : Touches L s0 s) :
    Touches L s0 (State.bar2Write s p a d) := by
  refine Touches.step ?_ hL h
  unfold State.bar2Write
  try dsimp only
  with_reducible repeat' first
    | exact Touches.refl _ _
    | assumption
    | exact Nat.le_refl _
    | exact Nat.le_add_right _ _
    | exact id
    | (apply State.dramWrite_touches; on_goal 1 => decide)
    | (apply State.setLive_touches; on_goal 1 => decide)
    | (apply State.bar2Drop_touches; on_goal 1 => decide)
    | split

theorem State.configRequest_touches {L : List Part} {s0 : State} (s : State) (p : Port) (hL : Within [.draws, .cfgA, .cfgB] L) (h : Touches L s0 s) :
    Touches L s0 (State.configRequest s p) := by
  refine Touches.step ?_ hL h
  unfold State.configRequest
  try dsimp only
  with_reducible repeat' first
    | exact Touches.refl _ _
    | assumption
    | exact Nat.le_refl _
    | exact Nat.le_add_right _ _
    | exact id
    | (apply State.draw_touches; on_goal 1 => decide)
    | (apply State.updCfg_touches; on_goal 1 => decide)
    | split

theorem State.chainDigest_touches {L : List Part} {s0 : State} (s : State) (t : Fin 16) (d : Digest) (hL : Within [.regs, .tSpoor] L) (h : Touches L s0 s) :
    Touches L s0 (State.chainDigest s t d) := by
  refine Touches.step ?_ hL h
  unfold State.chainDigest
  try dsimp only
  with_reducible repeat' first
    | exact Touches.refl _ _
    | assumption
    | exact Nat.le_refl _
    | exact Nat.le_add_right _ _
    | exact id
    | (apply State.setLive_touches; on_goal 1 => decide)
    | (apply State.updSpoor_touches; on_goal 1 => decide)
    | split

theorem State.recordDirect_touches {L : List Part} {s0 : State} (s : State) (w : Writer) (page off : Nat) (code : Byte) (hL : Within [.cfgA, .cfgB, .attn] L) (h : Touches L s0 s) :
    Touches L s0 (State.recordDirect s w page off code) := by
  refine Touches.step ?_ hL h
  unfold State.recordDirect
  try dsimp only
  with_reducible repeat' first
    | exact Touches.refl _ _
    | assumption
    | exact Nat.le_refl _
    | exact Nat.le_add_right _ _
    | exact id
    | (apply State.updAttn_touches; on_goal 1 => decide)
    | (apply State.updCfg_touches; on_goal 1 => decide)
    | split

theorem State.dropEntries_touches {L : List Part} {s0 : State} (s : State) (t : Fin 16) (keep : Nat → Bool) (hL : Within [.regs, .tTable, .engines] L) (h : Touches L s0 s) :
    Touches L s0 (s.dropEntries t keep) := by
  refine Touches.step ?_ hL h
  unfold State.dropEntries
  try dsimp only
  with_reducible repeat' first
    | exact Touches.refl _ _
    | assumption
    | exact Nat.le_refl _
    | exact Nat.le_add_right _ _
    | exact id
    | (apply State.updTable_touches; on_goal 1 => decide)
    | (apply State.retryStalled_touches; on_goal 1 => decide)
    | (apply State.updTable_touches; on_goal 1 => decide)
    | (apply Touches.set_engines; on_goal 1 => decide)
    | split

theorem State.disown_touches {L : List Part} {s0 : State} (s : State) (t : Fin 16) (hL : Within [.cores] L) (h : Touches L s0 s) :
    Touches L s0 (s.disown t) := by
  refine Touches.step ?_ hL h
  unfold State.disown
  try dsimp only
  with_reducible repeat' first
    | exact Touches.refl _ _
    | assumption
    | exact Nat.le_refl _
    | exact Nat.le_add_right _ _
    | exact id
    | (apply Touches.set_cores; on_goal 1 => decide)
    | split

theorem State.resetTenant_touches {L : List Part} {s0 : State} (s : State) (t : Fin 16) (hL : Within [.regs, .shadow, .dirty, .attn, .tState, .tWorld, .tSearch, .tTable, .tSolver, .tSel, .tSched, .tSpoor, .tQueues, .tCmds, .engines, .bears, .jays, .cores, .cascade] L) (h : Touches L s0 s) :
    Touches L s0 (s.resetTenant t) := by
  refine Touches.step ?_ hL h
  unfold State.resetTenant
  try dsimp only
  with_reducible repeat' first
    | exact Touches.refl _ _
    | assumption
    | exact Nat.le_refl _
    | exact Nat.le_add_right _ _
    | exact id
    | (apply State.completeAll_touches; on_goal 1 => decide)
    | (apply State.dropWork_touches; on_goal 1 => decide)
    | (apply State.disown_touches; on_goal 1 => decide)
    | (apply State.dropEntries_touches; on_goal 1 => decide)
    | (apply State.updCascade_touches; on_goal 1 => decide)
    | (apply State.setLive_touches; on_goal 1 => decide)
    | (apply State.raise_touches; on_goal 1 => decide)
    | (apply State.updCascade_touches; on_goal 1 => decide)
    | apply Touches.updTenant
    | (intro p hp; cases p <;> first | exact absurd hp (by decide) | (simp only [Part.sameT, Part.sameF, Part.sameO, Tenant.cleared, Tenant.discardFrame, Tenant.startFrame, Tenant.turn, Tenant.reset, and_self]; done))
    | split

theorem State.extendGuard_touches {L : List Part} {s0 : State} (s : State) (hL : Within [.frame] L) (h : Touches L s0 s) :
    Touches L s0 (State.extendGuard s) := by
  refine Touches.step ?_ hL h
  unfold State.extendGuard
  try dsimp only
  with_reducible repeat' first
    | exact Touches.refl _ _
    | assumption
    | exact Nat.le_refl _
    | exact Nat.le_add_right _ _
    | exact id
    | apply Touches.updFrame
    | (intro p hp; cases p <;> first | exact absurd hp (by decide) | (simp only [Part.sameT, Part.sameF, Part.sameO, Tenant.cleared, Tenant.discardFrame, Tenant.startFrame, Tenant.turn, Tenant.reset, and_self]; done))
    | split

theorem State.requestReset_touches {L : List Part} {s0 : State} (s : State) (t : Fin 16) (cause : BitVec 4) (hL : Within [.draws, .regs, .shadow, .dirty, .attn, .safe, .frame, .tState, .tWorld, .tSearch, .tTable, .tSolver, .tSel, .tSched, .tOut, .tSpoor, .tQueues, .tCmds, .engines, .bears, .jays, .cores, .dram, .cascade] L) (h : Touches L s0 s) :
    Touches L s0 (s.requestReset t cause) := by
  refine Touches.step ?_ hL h
  unfold State.requestReset
  try dsimp only
  with_reducible repeat' first
    | exact Touches.refl _ _
    | assumption
    | exact Nat.le_refl _
    | exact Nat.le_add_right _ _
    | exact id
    | (apply State.resetTenant_touches; on_goal 1 => decide)
    | (apply State.extendGuard_touches; on_goal 1 => decide)
    | (apply State.failFrame_touches; on_goal 1 => decide)
    | (apply State.disown_touches; on_goal 1 => decide)
    | (apply State.dropEntries_touches; on_goal 1 => decide)
    | (apply State.noteTiming_touches; on_goal 1 => decide)
    | apply Touches.updTenant
    | (intro p hp; cases p <;> first | exact absurd hp (by decide) | (simp only [Part.sameT, Part.sameF, Part.sameO, Tenant.cleared, Tenant.discardFrame, Tenant.startFrame, Tenant.turn, Tenant.reset, and_self]; done))
    | split

theorem State.requestHold_touches {L : List Part} {s0 : State} (s : State) (t : Fin 16) (cause : BitVec 4) (hL : Within [.regs, .shadow, .dirty, .attn, .frame, .tState, .tWorld, .tSearch, .tTable, .tSolver, .tSel, .tSched, .tOut, .tSpoor, .tQueues, .tCmds, .engines, .bears, .jays, .cores, .cascade] L) (h : Touches L s0 s) :
    Touches L s0 (State.requestHold s t cause) := by
  refine Touches.step ?_ hL h
  unfold State.requestHold
  try dsimp only
  with_reducible repeat' first
    | exact Touches.refl _ _
    | assumption
    | exact Nat.le_refl _
    | exact Nat.le_add_right _ _
    | exact id
    | (apply State.resetTenant_touches; on_goal 1 => decide)
    | (apply State.extendGuard_touches; on_goal 1 => decide)
    | (apply State.noteTiming_touches; on_goal 1 => decide)
    | apply Touches.updTenant
    | (intro p hp; cases p <;> first | exact absurd hp (by decide) | (simp only [Part.sameT, Part.sameF, Part.sameO, Tenant.cleared, Tenant.discardFrame, Tenant.startFrame, Tenant.turn, Tenant.reset, and_self]; done))
    | split

theorem State.requestRelease_touches {L : List Part} {s0 : State} (s : State) (t : Fin 16) (hL : Within [.attn, .tState] L) (h : Touches L s0 s) :
    Touches L s0 (State.requestRelease s t) := by
  refine Touches.step ?_ hL h
  unfold State.requestRelease
  try dsimp only
  with_reducible repeat' first
    | exact Touches.refl _ _
    | assumption
    | exact Nat.le_refl _
    | exact Nat.le_add_right _ _
    | exact id
    | (apply State.raise_touches; on_goal 1 => decide)
    | apply Touches.updTenant
    | (intro p hp; cases p <;> first | exact absurd hp (by decide) | (simp only [Part.sameT, Part.sameF, Part.sameO, Tenant.cleared, Tenant.discardFrame, Tenant.startFrame, Tenant.turn, Tenant.reset, and_self]; done))
    | split

theorem State.createTenant_touches {L : List Part} {s0 : State} (s : State) (t : Fin 16) (hL : Within [.tState, .tWorld, .tSearch, .tTable, .tSolver, .tSel, .tSched, .tOut, .tSpoor, .tQueues, .tCmds, .tDone, .tRings] L) (h : Touches L s0 s) :
    Touches L s0 (s.createTenant t) := by
  refine Touches.step ?_ hL h
  unfold State.createTenant
  try dsimp only
  with_reducible repeat' first
    | exact Touches.refl _ _
    | assumption
    | exact Nat.le_refl _
    | exact Nat.le_add_right _ _
    | exact id
    | apply Touches.updTenant
    | (intro p hp; cases p <;> first | exact absurd hp (by decide) | (simp only [Part.sameT, Part.sameF, Part.sameO, Tenant.cleared, Tenant.discardFrame, Tenant.startFrame, Tenant.turn, Tenant.reset, and_self]; done))
    | split

theorem State.resetBlocks_touches {L : List Part} {s0 : State} (s : State) (t : Fin 16) (hL : Within [.regs, .shadow, .dirty] L) (h : Touches L s0 s) :
    Touches L s0 (State.resetBlocks s t) := by
  refine Touches.step ?_ hL h
  unfold State.resetBlocks
  try dsimp only
  with_reducible repeat' first
    | exact Touches.refl _ _
    | assumption
    | exact Nat.le_refl _
    | exact Nat.le_add_right _ _
    | exact id
    | refine Touches.forEach ?_ (fun _ _ _ => ?_)
    | (apply State.resetRegs_touches; on_goal 1 => decide)
    | split

theorem State.deleteTenant_touches {L : List Part} {s0 : State} (s : State) (t : Fin 16) (hL : Within [.regs, .shadow, .dirty, .attn, .tState, .tWorld, .tSearch, .tTable, .tSolver, .tSel, .tSched, .tOut, .tSpoor, .tQueues, .tCmds, .tDone, .tRings, .engines, .bears, .jays, .cores] L) (h : Touches L s0 s) :
    Touches L s0 (s.deleteTenant t) := by
  refine Touches.step ?_ hL h
  unfold State.deleteTenant
  try dsimp only
  with_reducible repeat' first
    | exact Touches.refl _ _
    | assumption
    | exact Nat.le_refl _
    | exact Nat.le_add_right _ _
    | exact id
    | (apply State.dropWork_touches; on_goal 1 => decide)
    | (apply State.disown_touches; on_goal 1 => decide)
    | (apply State.dropEntries_touches; on_goal 1 => decide)
    | (apply State.resetQueue_touches; on_goal 1 => decide)
    | (apply State.resetBlocks_touches; on_goal 1 => decide)
    | (apply State.resetRegs_touches; on_goal 1 => decide)
    | refine Touches.forEach ?_ (fun _ _ _ => ?_)
    | apply Touches.updTenant
    | (intro p hp; cases p <;> first | exact absurd hp (by decide) | (simp only [Part.sameT, Part.sameF, Part.sameO, Tenant.cleared, Tenant.discardFrame, Tenant.startFrame, Tenant.turn, Tenant.reset, and_self]; done))
    | split

theorem State.logMismatch_touches {L : List Part} {s0 : State} (s : State) (k : UnitKind) (n : Nat) (v : View) (hL : Within [.attn, .log] L) (h : Touches L s0 s) :
    Touches L s0 (State.logMismatch s k n v) := by
  refine Touches.step ?_ hL h
  unfold State.logMismatch
  try dsimp only
  with_reducible repeat' first
    | exact Touches.refl _ _
    | assumption
    | exact Nat.le_refl _
    | exact Nat.le_add_right _ _
    | exact id
    | (apply State.logEvent_touches; on_goal 1 => decide)
    | split

theorem State.frontLost_touches {L : List Part} {s0 : State} (s : State) (l : List (Fin 16)) (hL : Within [.regs, .tSearch, .tSched] L) (h : Touches L s0 s) :
    Touches L s0 (State.frontLost s l) := by
  refine Touches.step ?_ hL h
  unfold State.frontLost
  try dsimp only
  with_reducible repeat' first
    | exact Touches.refl _ _
    | assumption
    | exact Nat.le_refl _
    | exact Nat.le_add_right _ _
    | exact id
    | refine Touches.forEach ?_ (fun _ _ _ => ?_)
    | (apply State.endTask_touches; on_goal 1 => decide)
    | (apply State.endExpansion_touches; on_goal 1 => decide)
    | split

theorem State.workLost_touches {L : List Part} {s0 : State} (s : State) (k : UnitKind) (n : Nat) (users : List (Fin 16)) (hL : Within [.draws, .regs, .attn, .safe, .tState, .tSearch, .tTable, .tSolver, .tSel, .tSched, .tOut, .engines, .bears, .jays, .cores, .dram, .cascade, .lynx] L) (h : Touches L s0 s) :
    Touches L s0 (State.workLost s k n users) := by
  refine Touches.step ?_ hL h
  unfold State.workLost
  try dsimp only
  with_reducible repeat' first
    | exact Touches.refl _ _
    | assumption
    | exact Nat.le_refl _
    | exact Nat.le_add_right _ _
    | exact id
    | (apply State.segmentsLost_touches; on_goal 1 => decide)
    | (apply State.coreLost_touches; on_goal 1 => decide)
    | (apply State.engineLost_touches; on_goal 1 => decide)
    | (apply State.bearLost_touches; on_goal 1 => decide)
    | (apply State.jayLost_touches; on_goal 1 => decide)
    | (apply State.frontLost_touches; on_goal 1 => decide)
    | split

theorem State.setView_touches {L : List Part} {s0 : State} (s : State) (k : UnitKind) (n : Nat) (f : View → View) (hL : Within [.draws, .regs, .attn, .safe, .tState, .tSearch, .tTable, .tSolver, .tSel, .tSched, .tOut, .engines, .bears, .jays, .fronts, .cores, .dram, .cascade, .lynx, .log] L) (h : Touches L s0 s) :
    Touches L s0 (State.setView s k n f) := by
  refine Touches.step ?_ hL h
  unfold State.setView
  try dsimp only
  with_reducible repeat' first
    | exact Touches.refl _ _
    | assumption
    | exact Nat.le_refl _
    | exact Nat.le_add_right _ _
    | exact id
    | (apply State.updView_touches; on_goal 1 => decide)
    | refine Touches.forTenants ?_ (fun _ _ _ => ?_)
    | (apply State.noteTiming_touches; on_goal 1 => decide)
    | (apply State.raise_touches; on_goal 1 => decide)
    | (apply State.workLost_touches; on_goal 1 => decide)
    | (apply State.logMismatch_touches; on_goal 1 => decide)
    | split

theorem State.ackTimeout_touches {L : List Part} {s0 : State} (s : State) (k : UnitKind) (n : Nat) (hL : Within [.draws, .regs, .attn, .safe, .tState, .tSearch, .tTable, .tSolver, .tSel, .tSched, .tOut, .engines, .bears, .jays, .fronts, .cores, .dram, .cascade, .lynx, .log] L) (h : Touches L s0 s) :
    Touches L s0 (State.ackTimeout s k n) := by
  refine Touches.step ?_ hL h
  unfold State.ackTimeout
  try dsimp only
  with_reducible repeat' first
    | exact Touches.refl _ _
    | assumption
    | exact Nat.le_refl _
    | exact Nat.le_add_right _ _
    | exact id
    | (apply State.setView_touches; on_goal 1 => decide)
    | split

theorem State.clearWork_touches {L : List Part} {s0 : State} (s : State) (k : UnitKind) (n : Nat) (hL : Within [.engines, .bears, .jays, .cores] L) (h : Touches L s0 s) :
    Touches L s0 (s.clearWork k n) := by
  refine Touches.step ?_ hL h
  unfold State.clearWork
  try dsimp only
  with_reducible repeat' first
    | exact Touches.refl _ _
    | assumption
    | exact Nat.le_refl _
    | exact Nat.le_add_right _ _
    | exact id
    | (apply State.updCore_touches; on_goal 1 => decide)
    | (apply State.updEngine_touches; on_goal 1 => decide)
    | (apply State.updBear_touches; on_goal 1 => decide)
    | (apply State.updJay_touches; on_goal 1 => decide)
    | (apply State.updCore_touches; on_goal 1 => decide)
    | (apply State.updEngine_touches; on_goal 1 => decide)
    | (apply State.updBear_touches; on_goal 1 => decide)
    | (apply State.updJay_touches; on_goal 1 => decide)
    | split

theorem State.clearStore_touches {L : List Part} {s0 : State} (s : State) (k : UnitKind) (n : Nat) (hL : Within [.regs, .shadow, .dirty, .safe, .tTable, .tOut, .cores] L) (h : Touches L s0 s) :
    Touches L s0 (s.clearStore k n) := by
  refine Touches.step ?_ hL h
  unfold State.clearStore
  try dsimp only
  with_reducible repeat' first
    | exact Touches.refl _ _
    | assumption
    | exact Nat.le_refl _
    | exact Nat.le_add_right _ _
    | exact id
    | (apply State.updCore_touches; on_goal 1 => decide)
    | (apply State.resetRegs_touches; on_goal 1 => decide)
    | (apply State.updTable_touches; on_goal 1 => decide)
    | (apply State.judgeImminent_touches; on_goal 1 => decide)
    | refine Touches.forTenants ?_ (fun _ _ _ => ?_)
    | (apply State.updTable_touches; on_goal 1 => decide)
    | (apply State.updCore_touches; on_goal 1 => decide)
    | split

theorem State.beginUnitReset_touches {L : List Part} {s0 : State} (s : State) (k : UnitKind) (n : Nat) (hL : Within [.draws, .regs, .attn, .safe, .tState, .tSearch, .tTable, .tSolver, .tSel, .tSched, .tOut, .engines, .bears, .jays, .fronts, .cores, .dram, .cascade, .lynx, .power, .log] L) (h : Touches L s0 s) :
    Touches L s0 (State.beginUnitReset s k n) := by
  refine Touches.step ?_ hL h
  unfold State.beginUnitReset
  try dsimp only
  with_reducible repeat' first
    | exact Touches.refl _ _
    | assumption
    | exact Nat.le_refl _
    | exact Nat.le_add_right _ _
    | exact id
    | (apply State.setView_touches; on_goal 1 => decide)
    | (apply State.updPower_touches; on_goal 1 => decide)
    | (apply State.clearWork_touches; on_goal 1 => decide)
    | split

theorem State.unitReset_touches {L : List Part} {s0 : State} (s : State) (w : Writer) (kind index : Nat) (hL : Within [.draws, .regs, .cfgA, .cfgB, .attn, .safe, .tState, .tSearch, .tTable, .tSolver, .tSel, .tSched, .tOut, .engines, .bears, .jays, .fronts, .cores, .dram, .cascade, .lynx, .power, .log] L) (h : Touches L s0 s) :
    Touches L s0 (State.unitReset s w kind index) := by
  refine Touches.step ?_ hL h
  unfold State.unitReset
  try dsimp only
  with_reducible repeat' first
    | exact Touches.refl _ _
    | assumption
    | exact Nat.le_refl _
    | exact Nat.le_add_right _ _
    | exact id
    | (apply State.refuseWrite_touches; on_goal 1 => decide)
    | (apply State.beginUnitReset_touches; on_goal 1 => decide)
    | (apply State.recordDirect_touches; on_goal 1 => decide)
    | split

theorem State.owlUnitReset_touches {L : List Part} {s0 : State} (s : State) (k : UnitKind) (n : Nat) (hL : Within [.draws, .regs, .attn, .safe, .tState, .tSearch, .tTable, .tSolver, .tSel, .tSched, .tOut, .engines, .bears, .jays, .fronts, .cores, .dram, .cascade, .lynx, .power, .log] L) (h : Touches L s0 s) :
    Touches L s0 (State.owlUnitReset s k n) := by
  refine Touches.step ?_ hL h
  unfold State.owlUnitReset
  try dsimp only
  with_reducible repeat' first
    | exact Touches.refl _ _
    | assumption
    | exact Nat.le_refl _
    | exact Nat.le_add_right _ _
    | exact id
    | (apply State.beginUnitReset_touches; on_goal 1 => decide)
    | (apply State.updPower_touches; on_goal 1 => decide)
    | split

theorem State.unitResetDone_touches {L : List Part} {s0 : State} (s : State) (hL : Within [.draws, .regs, .shadow, .dirty, .attn, .safe, .tState, .tSearch, .tTable, .tSolver, .tSel, .tSched, .tOut, .engines, .bears, .jays, .fronts, .cores, .dram, .cascade, .lynx, .power, .log] L) (h : Touches L s0 s) :
    Touches L s0 (State.unitResetDone s) := by
  refine Touches.step ?_ hL h
  unfold State.unitResetDone
  try dsimp only
  with_reducible repeat' first
    | exact Touches.refl _ _
    | assumption
    | exact Nat.le_refl _
    | exact Nat.le_add_right _ _
    | exact id
    | (apply State.updView_touches; on_goal 1 => decide)
    | (apply State.clearStore_touches; on_goal 1 => decide)
    | (apply State.raise_touches; on_goal 1 => decide)
    | (apply State.updPower_touches; on_goal 1 => decide)
    | (apply State.beginUnitReset_touches; on_goal 1 => decide)
    | split

theorem State.withChanges_touches {L : List Part} {s0 : State} (s : State) (l : List (Nat × Word)) (hL : Within [.regs] L) (h : Touches L s0 s) :
    Touches L s0 (State.withChanges s l) := by
  refine Touches.step ?_ hL h
  unfold State.withChanges
  try dsimp only
  with_reducible repeat' first
    | exact Touches.refl _ _
    | assumption
    | exact Nat.le_refl _
    | exact Nat.le_add_right _ _
    | exact id
    | exact fun h => keysRise_changes _ h _
    | split
    | (apply Touches.set_regs; on_goal 1 => decide)

theorem State.newCellSize_touches {L : List Part} {s0 : State} (s : State) (hL : Within [.tWorld, .tSearch] L) (h : Touches L s0 s) :
    Touches L s0 (s.newCellSize) := by
  refine Touches.step ?_ hL h
  unfold State.newCellSize
  try dsimp only
  with_reducible repeat' first
    | exact Touches.refl _ _
    | assumption
    | exact Nat.le_refl _
    | exact Nat.le_add_right _ _
    | exact id
    | (apply State.updWorld_touches; on_goal 1 => decide)
    | (apply State.updSearch_touches; on_goal 1 => decide)
    | refine Touches.forTenants ?_ (fun _ _ _ => ?_)
    | (apply State.updWorld_touches; on_goal 1 => decide)
    | (apply State.updSearch_touches; on_goal 1 => decide)
    | split

theorem State.afterChanges_touches {L : List Part} {s0 : State} (old s : State) (keys : List Nat) (hL : Within [.regs, .shadow, .dirty, .attn, .tState, .tWorld, .tSearch, .tTable, .tSolver, .tSel, .tSched, .tOut, .tSpoor, .tQueues, .tCmds, .tDone, .tRings, .engines, .bears, .jays, .cores, .lynx] L) (h : Touches L s0 s) :
    Touches L s0 (State.afterChanges old s keys) := by
  refine Touches.step ?_ hL h
  unfold State.afterChanges
  try dsimp only
  with_reducible repeat' first
    | exact Touches.refl _ _
    | assumption
    | exact Nat.le_refl _
    | exact Nat.le_add_right _ _
    | exact id
    | (apply State.createTenant_touches; on_goal 1 => decide)
    | (apply State.deleteTenant_touches; on_goal 1 => decide)
    | (apply State.newCellSize_touches; on_goal 1 => decide)
    | (apply State.setLive_touches; on_goal 1 => decide)
    | (apply State.updSpoor_touches; on_goal 1 => decide)
    | (apply State.updLynx_touches; on_goal 1 => decide)
    | refine Touches.forTenants ?_ (fun _ _ _ => ?_)
    | (apply State.updSpoor_touches; on_goal 1 => decide)
    | (apply State.updLynx_touches; on_goal 1 => decide)
    | split

theorem State.applyChanges_touches {L : List Part} {s0 : State} (s : State) (l : List (Nat × Word)) (hL : Within [.regs, .shadow, .dirty, .attn, .tState, .tWorld, .tSearch, .tTable, .tSolver, .tSel, .tSched, .tOut, .tSpoor, .tQueues, .tCmds, .tDone, .tRings, .engines, .bears, .jays, .cores, .lynx] L) (h : Touches L s0 s) :
    Touches L s0 (State.applyChanges s l) := by
  refine Touches.step ?_ hL h
  unfold State.applyChanges
  try dsimp only
  with_reducible repeat' first
    | exact Touches.refl _ _
    | assumption
    | exact Nat.le_refl _
    | exact Nat.le_add_right _ _
    | exact id
    | (apply State.afterChanges_touches; on_goal 1 => decide)
    | (apply State.withChanges_touches; on_goal 1 => decide)
    | split

theorem State.recordSet_touches {L : List Part} {s0 : State} (s : State) (p : Port) (id : Nat) (seq : Byte) (pages : List Nat) (code : Byte) (place : Nat) (hL : Within [.cfgA, .cfgB, .attn] L) (h : Touches L s0 s) :
    Touches L s0 (State.recordSet s p id seq pages code place) := by
  refine Touches.step ?_ hL h
  unfold State.recordSet
  try dsimp only
  with_reducible repeat' first
    | exact Touches.refl _ _
    | assumption
    | exact Nat.le_refl _
    | exact Nat.le_add_right _ _
    | exact id
    | (apply State.updAttn_touches; on_goal 1 => decide)
    | (apply State.updCfg_touches; on_goal 1 => decide)
    | (apply State.raise_touches; on_goal 1 => decide)
    | split

theorem State.finishSet_touches {L : List Part} {s0 : State} (s : State) (p : Port) (c : CfgSet) (hL : Within [.regs, .shadow, .dirty, .cfgA, .cfgB, .attn, .tState, .tWorld, .tSearch, .tTable, .tSolver, .tSel, .tSched, .tOut, .tSpoor, .tQueues, .tCmds, .tDone, .tRings, .engines, .bears, .jays, .cores, .lynx] L)
    (h : Touches L s0 s) : Touches L s0 (s.finishSet p c) := by
  refine Touches.step ?_ hL h
  unfold State.finishSet
  extract_lets s1 j s2
  have h1 : Touches [.regs, .shadow, .dirty, .cfgA, .cfgB, .attn, .tState, .tWorld, .tSearch, .tTable, .tSolver, .tSel, .tSched, .tOut, .tSpoor, .tQueues, .tCmds, .tDone, .tRings, .engines, .bears, .jays, .cores, .lynx] s s1 := State.updCfg_touches _ _ _ (by decide) (Touches.refl _ _)
  clear_value s1 j
  have h2 : Touches [.regs, .shadow, .dirty, .cfgA, .cfgB, .attn, .tState, .tWorld, .tSearch, .tTable, .tSolver, .tSel, .tSched, .tOut, .tSpoor, .tQueues, .tCmds, .tDone, .tRings, .engines, .bears, .jays, .cores, .lynx] s s2 := by
    show Touches _ _ (if _ then _ else _)
    split
    · exact State.applyChanges_touches _ _ (by decide) h1
    · exact Touches.set_dirty _ _ (by decide) h1 fun h => rise_sunion h _
  clear_value s2
  exact State.recordSet_touches _ _ _ _ _ _ _ (by decide) h2

theorem State.finishSets_touches {L : List Part} {s0 : State} (s : State) (ok : CfgSet → Bool) (hL : Within [.regs, .shadow, .dirty, .cfgA, .cfgB, .attn, .tState, .tWorld, .tSearch, .tTable, .tSolver, .tSel, .tSched, .tOut, .tSpoor, .tQueues, .tCmds, .tDone, .tRings, .engines, .bears, .jays, .cores, .lynx] L) (h : Touches L s0 s) :
    Touches L s0 (State.finishSets s ok) := by
  refine Touches.step ?_ hL h
  unfold State.finishSets
  try dsimp only
  with_reducible repeat' first
    | exact Touches.refl _ _
    | assumption
    | exact Nat.le_refl _
    | exact Nat.le_add_right _ _
    | exact id
    | refine Touches.forEach ?_ (fun _ _ _ => ?_)
    | (apply State.finishSet_touches; on_goal 1 => decide)
    | split

theorem State.applyOldest_touches {L : List Part} {s0 : State} (s : State) (p : Port) (hL : Within [.regs, .shadow, .dirty, .cfgA, .cfgB, .attn, .tState, .tWorld, .tSearch, .tTable, .tSolver, .tSel, .tSched, .tOut, .tSpoor, .tQueues, .tCmds, .tDone, .tRings, .engines, .bears, .jays, .cores, .lynx] L) (h : Touches L s0 s) :
    Touches L s0 (State.applyOldest s p) := by
  refine Touches.step ?_ hL h
  unfold State.applyOldest
  try dsimp only
  with_reducible repeat' first
    | exact Touches.refl _ _
    | assumption
    | exact Nat.le_refl _
    | exact Nat.le_add_right _ _
    | exact id
    | (apply State.finishSet_touches; on_goal 1 => decide)
    | split

theorem State.nextSeq_touches {L : List Part} {s0 : State} (s : State) (p : Port) (hL : Within [.cfgA, .cfgB] L) (h : Touches L s0 s) :
    Touches L s0 (State.nextSeq s p).1 := by
  refine Touches.step ?_ hL h
  unfold State.nextSeq
  try dsimp only
  with_reducible repeat' first
    | exact Touches.refl _ _
    | assumption
    | exact Nat.le_refl _
    | exact Nat.le_add_right _ _
    | exact id
    | (apply State.updCfg_touches; on_goal 1 => decide)
    | split

theorem State.refuseSet_touches {L : List Part} {s0 : State} (s : State) (p : Port) (id : Nat) (pages : List Nat) (page : Nat) (hL : Within [.cfgA, .cfgB, .attn] L) (h : Touches L s0 s) :
    Touches L s0 (State.refuseSet s p id pages page) := by
  refine Touches.step ?_ hL h
  unfold State.refuseSet
  try dsimp only
  with_reducible repeat' first
    | exact Touches.refl _ _
    | assumption
    | exact Nat.le_refl _
    | exact Nat.le_add_right _ _
    | exact id
    | (apply State.nextSeq_touches; on_goal 1 => decide)
    | (apply State.recordSet_touches; on_goal 1 => decide)
    | split

theorem State.submitSet_touches {L : List Part} {s0 : State} (s : State) (p : Port) (id : Nat) (pages : List Nat) (hL : Within [.regs, .shadow, .dirty, .cfgA, .cfgB, .setOrder, .attn, .tState, .tWorld, .tSearch, .tTable, .tSolver, .tSel, .tSched, .tOut, .tSpoor, .tQueues, .tCmds, .tDone, .tRings, .engines, .bears, .jays, .cores, .lynx] L) (h : Touches L s0 s) :
    Touches L s0 (State.submitSet s p id pages) := by
  refine Touches.step ?_ hL h
  unfold State.submitSet
  try dsimp only
  with_reducible repeat' first
    | exact Touches.refl _ _
    | assumption
    | exact Nat.le_refl _
    | exact Nat.le_add_right _ _
    | exact id
    | exact fun h => List.Pairwise.filter _ h
    | exact fun h => rise_sunion h _
    | exact fun h => rise_sinsert h _
    | (apply State.refuseSet_touches; on_goal 1 => decide)
    | (apply State.nextSeq_touches; on_goal 1 => decide)
    | (apply State.updCfg_touches; on_goal 1 => decide)
    | (apply State.finishSet_touches; on_goal 1 => decide)
    | split
    | (apply Touches.set_dirty_setOrder; on_goal 1 => decide)

theorem State.commitWrite_touches {L : List Part} {s0 : State} (s : State) (p : Port) (page id : Nat) (submit : Bool) (hL : Within [.regs, .shadow, .dirty, .cfgA, .cfgB, .setOrder, .attn, .tState, .tWorld, .tSearch, .tTable, .tSolver, .tSel, .tSched, .tOut, .tSpoor, .tQueues, .tCmds, .tDone, .tRings, .engines, .bears, .jays, .cores, .lynx] L) (h : Touches L s0 s) :
    Touches L s0 (State.commitWrite s p page id submit) := by
  refine Touches.step ?_ hL h
  unfold State.commitWrite
  try dsimp only
  with_reducible repeat' first
    | exact Touches.refl _ _
    | assumption
    | exact Nat.le_refl _
    | exact Nat.le_add_right _ _
    | exact id
    | (apply State.submitSet_touches; on_goal 1 => decide)
    | (apply State.refuseSet_touches; on_goal 1 => decide)
    | (apply State.updCfg_touches; on_goal 1 => decide)
    | split

theorem State.reloadShadows_touches {L : List Part} {s0 : State} (s : State) (w : Writer) (page : Nat) (hL : Within [.shadow, .dirty] L) (h : Touches L s0 s) :
    Touches L s0 (State.reloadShadows s w page) := by
  refine Touches.step ?_ hL h
  unfold State.reloadShadows
  try dsimp only
  with_reducible repeat' first
    | exact Touches.refl _ _
    | assumption
    | exact Nat.le_refl _
    | exact Nat.le_add_right _ _
    | exact id
    | exact fun h => List.Pairwise.filter _ h
    | exact fun h => rise_sunion h _
    | exact fun h => rise_sinsert h _
    | refine Touches.forEach ?_ (fun _ _ _ => ?_)
    | (apply State.setShadow_touches; on_goal 1 => decide)
    | split
    | (apply Touches.set_dirty; on_goal 1 => decide)

theorem State.discardPage_touches {L : List Part} {s0 : State} (s : State) (p : Port) (page : Nat) (hL : Within [.shadow, .dirty, .cfgA, .cfgB] L) (h : Touches L s0 s) :
    Touches L s0 (State.discardPage s p page) := by
  refine Touches.step ?_ hL h
  unfold State.discardPage
  try dsimp only
  with_reducible repeat' first
    | exact Touches.refl _ _
    | assumption
    | exact Nat.le_refl _
    | exact Nat.le_add_right _ _
    | exact id
    | (apply State.updCfg_touches; on_goal 1 => decide)
    | (apply State.reloadShadows_touches; on_goal 1 => decide)
    | split

theorem State.packageFault_touches {L : List Part} {s0 : State} (s : State) (f : PkgFault → PkgFault) (hL : Within [.regs, .shadow, .dirty, .attn, .tWorld, .tQueues, .tCmds, .fault] L) (h : Touches L s0 s) :
    Touches L s0 (State.packageFault s f) := by
  refine Touches.step ?_ hL h
  unfold State.packageFault
  try dsimp only
  with_reducible repeat' first
    | exact Touches.refl _ _
    | assumption
    | exact Nat.le_refl _
    | exact Nat.le_add_right _ _
    | exact id
    | (apply State.updFault_touches; on_goal 1 => decide)
    | refine Touches.forTenants ?_ (fun _ _ _ => ?_)
    | (apply State.updWorld_touches; on_goal 1 => decide)
    | (apply State.completeAll_touches; on_goal 1 => decide)
    | split

theorem State.addCause_touches {L : List Part} {s0 : State} (s : State) (k : Nat) (hL : Within [.power] L) (h : Touches L s0 s) :
    Touches L s0 (State.addCause s k) := by
  refine Touches.step ?_ hL h
  unfold State.addCause
  try dsimp only
  with_reducible repeat' first
    | exact Touches.refl _ _
    | assumption
    | exact Nat.le_refl _
    | exact Nat.le_add_right _ _
    | exact id
    | (apply State.updPower_touches; on_goal 1 => decide)
    | split

theorem State.owlDomainReset_touches {L : List Part} {s0 : State} (s : State) (hL : Within [.attn, .power, .boxes, .firmware, .log] L) (h : Touches L s0 s) :
    Touches L s0 (State.owlDomainReset s) := by
  refine Touches.step ?_ hL h
  unfold State.owlDomainReset
  try dsimp only
  with_reducible repeat' first
    | exact Touches.refl _ _
    | assumption
    | exact Nat.le_refl _
    | exact Nat.le_add_right _ _
    | exact id
    | (apply State.addCause_touches; on_goal 1 => decide)
    | (apply State.updPower_touches; on_goal 1 => decide)
    | (apply State.logEvent_touches; on_goal 1 => decide)
    | apply Touches.updOwl
    | (intro p hp; cases p <;> first | exact absurd hp (by decide) | (simp only [Part.sameT, Part.sameF, Part.sameO, Tenant.cleared, Tenant.discardFrame, Tenant.startFrame, Tenant.turn, Tenant.reset, and_self]; done))
    | split

theorem State.clearDomain_touches {L : List Part} {s0 : State} (s : State) (d : Domain) (hL : Within [.regs, .shadow, .dirty, .tTable, .engines, .bears, .jays, .cores] L) (h : Touches L s0 s) :
    Touches L s0 (State.clearDomain s d) := by
  refine Touches.step ?_ hL h
  unfold State.clearDomain
  try dsimp only
  with_reducible repeat' first
    | exact Touches.refl _ _
    | assumption
    | exact Nat.le_refl _
    | exact Nat.le_add_right _ _
    | exact id
    | refine Touches.forEach ?_ (fun _ _ _ => ?_)
    | (apply State.resetRegs_touches; on_goal 1 => decide)
    | refine Touches.forTenants ?_ (fun _ _ _ => ?_)
    | (apply State.updTable_touches; on_goal 1 => decide)
    | split
    | (apply Touches.set_cores_bears_jays; on_goal 1 => decide)
    | (apply Touches.set_engines; on_goal 1 => decide)

theorem State.domainReset_touches {L : List Part} {s0 : State} (s : State) (d : Domain) (hL : Within [.regs, .shadow, .dirty, .attn, .tWorld, .tTable, .tQueues, .tCmds, .engines, .bears, .jays, .cores, .power, .fault, .boxes, .firmware, .log] L) (h : Touches L s0 s) :
    Touches L s0 (State.domainReset s d) := by
  refine Touches.step ?_ hL h
  unfold State.domainReset
  try dsimp only
  with_reducible repeat' first
    | exact Touches.refl _ _
    | assumption
    | exact Nat.le_refl _
    | exact Nat.le_add_right _ _
    | exact id
    | (apply State.owlDomainReset_touches; on_goal 1 => decide)
    | (apply State.addCause_touches; on_goal 1 => decide)
    | (apply State.clearDomain_touches; on_goal 1 => decide)
    | (apply State.packageFault_touches; on_goal 1 => decide)
    | split

theorem State.fenceUnit_touches {L : List Part} {s0 : State} (s : State) (k : UnitKind) (n channel : Nat) (hL : Within [.draws, .regs, .attn, .safe, .tState, .tSearch, .tTable, .tSolver, .tSel, .tSched, .tOut, .engines, .bears, .jays, .fronts, .cores, .dram, .cascade, .lynx, .identity, .log] L) (h : Touches L s0 s) :
    Touches L s0 (State.fenceUnit s k n channel) := by
  refine Touches.step ?_ hL h
  unfold State.fenceUnit
  try dsimp only
  with_reducible repeat' first
    | exact Touches.refl _ _
    | assumption
    | exact Nat.le_refl _
    | exact Nat.le_add_right _ _
    | exact id
    | (apply State.setView_touches; on_goal 1 => decide)
    | (apply State.logEvent_touches; on_goal 1 => decide)
    | (apply State.raise_touches; on_goal 1 => decide)
    | apply Touches.updOwl
    | (intro p hp; cases p <;> first | exact absurd hp (by decide) | (simp only [Part.sameT, Part.sameF, Part.sameO, Tenant.cleared, Tenant.discardFrame, Tenant.startFrame, Tenant.turn, Tenant.reset, and_self]; done))
    | split

theorem State.unfenceUnit_touches {L : List Part} {s0 : State} (s : State) (k : UnitKind) (n channel : Nat) (hL : Within [.draws, .regs, .attn, .safe, .tState, .tSearch, .tTable, .tSolver, .tSel, .tSched, .tOut, .engines, .bears, .jays, .fronts, .cores, .dram, .cascade, .lynx, .identity, .log] L) (h : Touches L s0 s) :
    Touches L s0 (s.unfenceUnit k n channel) := by
  refine Touches.step ?_ hL h
  unfold State.unfenceUnit
  try dsimp only
  with_reducible repeat' first
    | exact Touches.refl _ _
    | assumption
    | exact Nat.le_refl _
    | exact Nat.le_add_right _ _
    | exact id
    | (apply State.setView_touches; on_goal 1 => decide)
    | (apply State.logEvent_touches; on_goal 1 => decide)
    | (apply State.raise_touches; on_goal 1 => decide)
    | apply Touches.updOwl
    | (intro p hp; cases p <;> first | exact absurd hp (by decide) | (simp only [Part.sameT, Part.sameF, Part.sameO, Tenant.cleared, Tenant.discardFrame, Tenant.startFrame, Tenant.turn, Tenant.reset, and_self]; done))
    | split

theorem State.endSwitch_touches {L : List Part} {s0 : State} (s : State) (d : Domain) (v : BitVec 2) (hL : Within [.cores, .clock] L)
    (h : Touches L s0 s) : Touches L s0 (s.endSwitch d v) := by
  refine Touches.step ?_ hL h
  unfold State.endSwitch
  split
  · exact State.updClock_touches _ _ (by decide) (State.accrue_touches _ (by decide) (Touches.refl _ _)) fun h => h
  · exact State.updClock_touches _ _ (by decide) (Touches.refl _ _) fun h => h

theorem State.beginRelock_touches {L : List Part} {s0 : State} (s : State) (v : BitVec 2) (hL : Within [.frame, .clock] L) (h : Touches L s0 s) :
    Touches L s0 (State.beginRelock s v) := by
  refine Touches.step ?_ hL h
  unfold State.beginRelock
  try dsimp only
  with_reducible repeat' first
    | exact Touches.refl _ _
    | assumption
    | exact Nat.le_refl _
    | exact Nat.le_add_right _ _
    | exact id
    | (intro hk; simpa only [Clock.switchAll_trimCode, Clock.endSwitch_trimCode, Clock.offer_trimCode, Clock.startTrim_trimCode] using hk)
    | (apply State.updClock_touches; on_goal 1 => decide)
    | apply Touches.updFrame
    | (intro p hp; cases p <;> first | exact absurd hp (by decide) | (simp only [Part.sameT, Part.sameF, Part.sameO, Tenant.cleared, Tenant.discardFrame, Tenant.startFrame, Tenant.turn, Tenant.reset, and_self]; done))
    | split

theorem State.requestLevel_touches {L : List Part} {s0 : State} (s : State) (v : BitVec 2) (hL : Within [.frame, .clock] L) (h : Touches L s0 s) :
    Touches L s0 (State.requestLevel s v) := by
  refine Touches.step ?_ hL h
  unfold State.requestLevel
  try dsimp only
  with_reducible repeat' first
    | exact Touches.refl _ _
    | assumption
    | exact Nat.le_refl _
    | exact Nat.le_add_right _ _
    | exact id
    | (apply State.updClock_touches; on_goal 1 => decide)
    | (apply State.beginRelock_touches; on_goal 1 => decide)
    | split

theorem State.endRelock_touches {L : List Part} {s0 : State} (s : State) (r : Relock) (hL : Within [.attn, .frame, .clock] L) (h : Touches L s0 s) :
    Touches L s0 (State.endRelock s r) := by
  refine Touches.step ?_ hL h
  unfold State.endRelock
  try dsimp only
  with_reducible repeat' first
    | exact Touches.refl _ _
    | assumption
    | exact Nat.le_refl _
    | exact Nat.le_add_right _ _
    | exact id
    | (apply State.updClock_touches; on_goal 1 => decide)
    | (apply State.raise_touches; on_goal 1 => decide)
    | apply Touches.updFrame
    | (intro p hp; cases p <;> first | exact absurd hp (by decide) | (simp only [Part.sameT, Part.sameF, Part.sameO, Tenant.cleared, Tenant.discardFrame, Tenant.startFrame, Tenant.turn, Tenant.reset, and_self]; done))
    | split

theorem State.stepRelock_touches {L : List Part} {s0 : State} (s : State) (hL : Within [.attn, .frame, .clock] L) (h : Touches L s0 s) :
    Touches L s0 (State.stepRelock s) := by
  refine Touches.step ?_ hL h
  unfold State.stepRelock
  try dsimp only
  with_reducible repeat' first
    | exact Touches.refl _ _
    | assumption
    | exact Nat.le_refl _
    | exact Nat.le_add_right _ _
    | exact id
    | (apply State.updClock_touches; on_goal 1 => decide)
    | (apply State.endRelock_touches; on_goal 1 => decide)
    | (apply State.requestLevel_touches; on_goal 1 => decide)
    | split

theorem State.writeTarget_touches {L : List Part} {s0 : State} (s : State) (w : Writer) (v : BitVec 2) (hL : Within [.cfgA, .cfgB, .attn, .frame, .clock] L) (h : Touches L s0 s) :
    Touches L s0 (State.writeTarget s w v) := by
  refine Touches.step ?_ hL h
  unfold State.writeTarget
  try dsimp only
  with_reducible repeat' first
    | exact Touches.refl _ _
    | assumption
    | exact Nat.le_refl _
    | exact Nat.le_add_right _ _
    | exact id
    | (apply State.refuseWrite_touches; on_goal 1 => decide)
    | (apply State.recordDirect_touches; on_goal 1 => decide)
    | (apply State.requestLevel_touches; on_goal 1 => decide)
    | split

theorem State.muxSwitch_touches {L : List Part} {s0 : State} (s : State) (d : Domain) (hL : Within [.attn, .frame, .cores, .clock] L) (h : Touches L s0 s) :
    Touches L s0 (s.muxSwitch d) := by
  refine Touches.step ?_ hL h
  unfold State.muxSwitch
  try dsimp only
  with_reducible repeat' first
    | exact Touches.refl _ _
    | assumption
    | exact Nat.le_refl _
    | exact Nat.le_add_right _ _
    | exact id
    | (intro hk; simpa only [Clock.switchAll_trimCode, Clock.endSwitch_trimCode, Clock.offer_trimCode, Clock.startTrim_trimCode] using hk)
    | (apply State.endSwitch_touches; on_goal 1 => decide)
    | (apply State.stepRelock_touches; on_goal 1 => decide)
    | split

theorem State.muxWatchdog_touches {L : List Part} {s0 : State} (s : State) (d : Domain) (toggled : Bool) (hL : Within [.regs, .shadow, .dirty, .attn, .frame, .tWorld, .tTable, .tQueues, .tCmds, .engines, .bears, .jays, .cores, .clock, .power, .fault, .boxes, .firmware, .log] L) (h : Touches L s0 s) :
    Touches L s0 (s.muxWatchdog d toggled) := by
  refine Touches.step ?_ hL h
  unfold State.muxWatchdog
  try dsimp only
  with_reducible repeat' first
    | exact Touches.refl _ _
    | assumption
    | exact Nat.le_refl _
    | exact Nat.le_add_right _ _
    | exact id
    | (intro hk; simpa only [Clock.switchAll_trimCode, Clock.endSwitch_trimCode, Clock.offer_trimCode, Clock.startTrim_trimCode] using hk)
    | (apply State.endSwitch_touches; on_goal 1 => decide)
    | (apply State.updClock_touches; on_goal 1 => decide)
    | (apply State.raise_touches; on_goal 1 => decide)
    | (apply State.logEvent_touches; on_goal 1 => decide)
    | (apply State.domainReset_touches; on_goal 1 => decide)
    | (apply State.stepRelock_touches; on_goal 1 => decide)
    | (apply State.updClock_touches; on_goal 1 => decide)
    | split

theorem State.lockDetect_touches {L : List Part} {s0 : State} (s : State) (hL : Within [.clock] L) (h : Touches L s0 s) :
    Touches L s0 (State.lockDetect s) := by
  refine Touches.step ?_ hL h
  unfold State.lockDetect
  try dsimp only
  with_reducible repeat' first
    | exact Touches.refl _ _
    | assumption
    | exact Nat.le_refl _
    | exact Nat.le_add_right _ _
    | exact id
    | (apply State.updClock_touches; on_goal 1 => decide)
    | split

theorem State.rootStable_touches {L : List Part} {s0 : State} (s : State) (hL : Within [.attn, .frame, .clock] L) (h : Touches L s0 s) :
    Touches L s0 (State.rootStable s) := by
  refine Touches.step ?_ hL h
  unfold State.rootStable
  try dsimp only
  with_reducible repeat' first
    | exact Touches.refl _ _
    | assumption
    | exact Nat.le_refl _
    | exact Nat.le_add_right _ _
    | exact id
    | (intro hk; simpa only [Clock.switchAll_trimCode, Clock.endSwitch_trimCode, Clock.offer_trimCode, Clock.startTrim_trimCode] using hk)
    | (apply State.stepRelock_touches; on_goal 1 => decide)
    | (apply State.updClock_touches; on_goal 1 => decide)
    | split

theorem State.pllStable_touches {L : List Part} {s0 : State} (s : State) (p : Pll) (hL : Within [.attn, .frame, .clock] L) (h : Touches L s0 s) :
    Touches L s0 (State.pllStable s p) := by
  refine Touches.step ?_ hL h
  unfold State.pllStable
  try dsimp only
  with_reducible repeat' first
    | exact Touches.refl _ _
    | assumption
    | exact Nat.le_refl _
    | exact Nat.le_add_right _ _
    | exact id
    | (intro hk; simpa only [Clock.switchAll_trimCode, Clock.endSwitch_trimCode, Clock.offer_trimCode, Clock.startTrim_trimCode] using hk)
    | (apply State.rootStable_touches; on_goal 1 => decide)
    | (apply State.updClock_touches; on_goal 1 => decide)
    | split

theorem State.sourceStable_touches {L : List Part} {s0 : State} (s : State) (x : ClockSource) (hL : Within [.clock] L) (h : Touches L s0 s) :
    Touches L s0 (State.sourceStable s x) := by
  refine Touches.step ?_ hL h
  unfold State.sourceStable
  try dsimp only
  with_reducible repeat' first
    | exact Touches.refl _ _
    | assumption
    | exact Nat.le_refl _
    | exact Nat.le_add_right _ _
    | exact id
    | (intro hk; simpa only [Clock.switchAll_trimCode, Clock.endSwitch_trimCode, Clock.offer_trimCode, Clock.startTrim_trimCode] using hk)
    | (apply State.updClock_touches; on_goal 1 => decide)
    | split

theorem State.startTimeout_touches {L : List Part} {s0 : State} (s : State) (b : Nat) (hL : Within [.clock] L) (h : Touches L s0 s) :
    Touches L s0 (s.startTimeout b) := by
  refine Touches.step ?_ hL h
  unfold State.startTimeout
  try dsimp only
  with_reducible repeat' first
    | exact Touches.refl _ _
    | assumption
    | exact Nat.le_refl _
    | exact Nat.le_add_right _ _
    | exact id
    | (apply State.updClock_touches; on_goal 1 => decide)
    | (apply State.updClock_touches; on_goal 1 => decide)
    | split

theorem State.writeSrcEn_touches {L : List Part} {s0 : State} (s : State) (w : Writer) (v : Nat) (hL : Within [.regs, .cfgA, .cfgB, .attn, .clock] L) (h : Touches L s0 s) :
    Touches L s0 (State.writeSrcEn s w v) := by
  refine Touches.step ?_ hL h
  unfold State.writeSrcEn
  try dsimp only
  with_reducible repeat' first
    | exact Touches.refl _ _
    | assumption
    | exact Nat.le_refl _
    | exact Nat.le_add_right _ _
    | exact id
    | (apply State.refuseWrite_touches; on_goal 1 => decide)
    | (apply State.recordDirect_touches; on_goal 1 => decide)
    | (apply State.updClock_touches; on_goal 1 => decide)
    | (apply State.setLive_touches; on_goal 1 => decide)
    | split

theorem State.loseReference_touches {L : List Part} {s0 : State} (s : State) (hL : Within [.regs, .shadow, .dirty, .attn, .tWorld, .tQueues, .tCmds, .clock, .fault, .log] L) (h : Touches L s0 s) :
    Touches L s0 (State.loseReference s) := by
  refine Touches.step ?_ hL h
  unfold State.loseReference
  try dsimp only
  with_reducible repeat' first
    | exact Touches.refl _ _
    | assumption
    | exact Nat.le_refl _
    | exact Nat.le_add_right _ _
    | exact id
    | (intro hk; simpa only [Clock.switchAll_trimCode, Clock.endSwitch_trimCode, Clock.offer_trimCode, Clock.startTrim_trimCode] using hk)
    | (apply State.updClock_touches; on_goal 1 => decide)
    | (apply State.packageFault_touches; on_goal 1 => decide)
    | (apply State.logEvent_touches; on_goal 1 => decide)
    | split

theorem State.writeMeter_touches {L : List Part} {s0 : State} (s : State) (w : Writer) (v : Nat) (hL : Within [.cfgA, .cfgB, .attn, .clock] L) (h : Touches L s0 s) :
    Touches L s0 (State.writeMeter s w v) := by
  refine Touches.step ?_ hL h
  unfold State.writeMeter
  try dsimp only
  with_reducible repeat' first
    | exact Touches.refl _ _
    | assumption
    | exact Nat.le_refl _
    | exact Nat.le_add_right _ _
    | exact id
    | (apply State.refuseWrite_touches; on_goal 1 => decide)
    | (apply State.recordDirect_touches; on_goal 1 => decide)
    | (apply State.updClock_touches; on_goal 1 => decide)
    | split

theorem State.endMeter_touches {L : List Part} {s0 : State} (s : State) (n : Nat) (hL : Within [.clock] L) (h : Touches L s0 s) :
    Touches L s0 (State.endMeter s n) := by
  refine Touches.step ?_ hL h
  unfold State.endMeter
  try dsimp only
  with_reducible repeat' first
    | exact Touches.refl _ _
    | assumption
    | exact Nat.le_refl _
    | exact Nat.le_add_right _ _
    | exact id
    | (apply State.updClock_touches; on_goal 1 => decide)
    | split

theorem State.writeTrimCtrl_touches {L : List Part} {s0 : State} (s : State) (w : Writer) (v : Nat) (hL : Within [.cfgA, .cfgB, .attn, .clock] L) (h : Touches L s0 s) :
    Touches L s0 (State.writeTrimCtrl s w v) := by
  refine Touches.step ?_ hL h
  unfold State.writeTrimCtrl
  try dsimp only
  with_reducible repeat' first
    | exact Touches.refl _ _
    | assumption
    | exact Nat.le_refl _
    | exact Nat.le_add_right _ _
    | exact id
    | (intro hk; simpa only [Clock.switchAll_trimCode, Clock.endSwitch_trimCode, Clock.offer_trimCode, Clock.startTrim_trimCode] using hk)
    | (apply State.refuseWrite_touches; on_goal 1 => decide)
    | (apply State.recordDirect_touches; on_goal 1 => decide)
    | (apply State.updClock_touches; on_goal 1 => decide)
    | split

theorem State.trimStep_touches {L : List Part} {s0 : State} (s : State) (n : Nat) (hL : Within [.clock] L)
    (h : Touches L s0 s) : Touches L s0 (s.trimStep n) := by
  refine Touches.step ?_ hL h
  unfold State.trimStep
  dsimp only
  split
  · exact Touches.refl _ _
  · refine State.updClock_touches _ _ (by decide) (Touches.refl _ _) fun _ => ?_
    dsimp only
    split <;> omega

theorem State.trimTimeout_touches {L : List Part} {s0 : State} (s : State) (hL : Within [.attn, .clock] L) (h : Touches L s0 s) :
    Touches L s0 (State.trimTimeout s) := by
  refine Touches.step ?_ hL h
  unfold State.trimTimeout
  try dsimp only
  with_reducible repeat' first
    | exact Touches.refl _ _
    | assumption
    | exact Nat.le_refl _
    | exact Nat.le_add_right _ _
    | exact id
    | (apply State.raise_touches; on_goal 1 => decide)
    | (apply State.updClock_touches; on_goal 1 => decide)
    | split

theorem State.cutOff_touches {L : List Part} {s0 : State} (s : State) (t : Fin 16) (k i : Nat) (hL : Within [.draws, .regs, .safe, .tSearch, .tSolver, .tSel, .tSched, .tOut, .bears, .jays, .cores, .dram, .cascade] L) (h : Touches L s0 s) :
    Touches L s0 (s.cutOff t k i) := by
  refine Touches.step ?_ hL h
  unfold State.cutOff
  try dsimp only
  with_reducible repeat' first
    | exact Touches.refl _ _
    | assumption
    | exact Nat.le_refl _
    | exact Nat.le_add_right _ _
    | exact id
    | (apply State.noteCut_touches; on_goal 1 => decide)
    | (apply State.finishTask_touches; on_goal 1 => decide)
    | split

theorem State.cutCompute_touches {L : List Part} {s0 : State} (s : State) (t : Fin 16) (k i : Nat) (hL : Within [.draws, .regs, .safe, .tSearch, .tSolver, .tSel, .tSched, .tOut, .bears, .jays, .cores, .dram, .cascade] L) (h : Touches L s0 s) :
    Touches L s0 (s.cutCompute t k i) := by
  refine Touches.step ?_ hL h
  unfold State.cutCompute
  try dsimp only
  with_reducible repeat' first
    | exact Touches.refl _ _
    | assumption
    | exact Nat.le_refl _
    | exact Nat.le_add_right _ _
    | exact id
    | (apply State.dropParts_touches; on_goal 1 => decide)
    | (apply State.cutOff_touches; on_goal 1 => decide)
    | (apply State.noteCut_touches; on_goal 1 => decide)
    | (apply State.updSched_touches; on_goal 1 => decide)
    | (apply State.updCore_touches; on_goal 1 => decide)
    | refine Touches.forEach ?_ (fun _ _ _ => ?_)
    | (apply State.updSched_touches; on_goal 1 => decide)
    | (apply State.updCore_touches; on_goal 1 => decide)
    | split

theorem State.cutEngineTask_touches {L : List Part} {s0 : State} (s : State) (t : Fin 16) (k : Nat) (x : Task) (hL : Within [.draws, .regs, .safe, .tSearch, .tSolver, .tSel, .tSched, .tOut, .bears, .jays, .cores, .dram, .cascade] L) (h : Touches L s0 s) :
    Touches L s0 (State.cutEngineTask s t k x) := by
  refine Touches.step ?_ hL h
  unfold State.cutEngineTask
  try dsimp only
  with_reducible repeat' first
    | exact Touches.refl _ _
    | assumption
    | exact Nat.le_refl _
    | exact Nat.le_add_right _ _
    | exact id
    | (apply State.endExpansion_touches; on_goal 1 => decide)
    | (apply State.updSearch_touches; on_goal 1 => decide)
    | (apply State.cutOff_touches; on_goal 1 => decide)
    | split

theorem State.cutTask_touches {L : List Part} {s0 : State} (s : State) (t : Fin 16) (k : Nat) (x : Task) (hL : Within [.draws, .regs, .safe, .tSearch, .tSolver, .tSel, .tSched, .tOut, .bears, .jays, .cores, .dram, .cascade] L) (h : Touches L s0 s) :
    Touches L s0 (State.cutTask s t k x) := by
  refine Touches.step ?_ hL h
  unfold State.cutTask
  try dsimp only
  with_reducible repeat' first
    | exact Touches.refl _ _
    | assumption
    | exact Nat.le_refl _
    | exact Nat.le_add_right _ _
    | exact id
    | (apply State.cutCompute_touches; on_goal 1 => decide)
    | (apply State.cutOff_touches; on_goal 1 => decide)
    | (apply State.cutEngineTask_touches; on_goal 1 => decide)
    | split

theorem State.cutTasks_touches {L : List Part} {s0 : State} (s : State) (k : Nat) (hL : Within [.draws, .regs, .safe, .tSearch, .tSolver, .tSel, .tSched, .tOut, .bears, .jays, .cores, .dram, .cascade] L) (h : Touches L s0 s) :
    Touches L s0 (State.cutTasks s k) := by
  refine Touches.step ?_ hL h
  unfold State.cutTasks
  try dsimp only
  with_reducible repeat' first
    | exact Touches.refl _ _
    | assumption
    | exact Nat.le_refl _
    | exact Nat.le_add_right _ _
    | exact id
    | refine Touches.forTenants ?_ (fun _ _ _ => ?_)
    | (apply State.pollDrains_touches; on_goal 1 => decide)
    | refine Touches.forEach ?_ (fun _ _ _ => ?_)
    | (apply State.cutTask_touches; on_goal 1 => decide)
    | split

theorem State.cutChecks_touches {L : List Part} {s0 : State} (s : State) (k : Nat) (hL : Within [.draws, .regs, .safe, .tSearch, .tTable, .tSolver, .tSel, .tSched, .tOut, .engines, .bears, .jays, .cores, .dram, .cascade] L)
    (h : Touches L s0 s) : Touches L s0 (s.cutChecks k) := by
  refine Touches.step ?_ hL h
  unfold State.cutChecks
  extract_lets keep s1 engines s2
  have h1 : Touches [.draws, .regs, .safe, .tSearch, .tTable, .tSolver, .tSel, .tSched, .tOut, .engines, .bears, .jays, .cores, .dram, .cascade] s s1 := by
    show Touches _ _ (if _ then _ else _)
    split
    · exact Touches.refl _ _
    · refine Touches.forTenants (Touches.refl _ _) fun _ _ g => ?_
      split
      · exact State.cut_touches _ _ _ (by decide) g
      · exact g
  clear_value s1 engines
  have h2 : Touches [.draws, .regs, .safe, .tSearch, .tTable, .tSolver, .tSel, .tSched, .tOut, .engines, .bears, .jays, .cores, .dram, .cascade] s s2 := Touches.set_engines _ _ (by decide) h1
  clear_value s2
  exact Touches.forTenants (State.retryStalled_touches _ (by decide) h2) fun _ _ g => State.pollDrains_touches _ _ (by decide) g

theorem State.latchFox_touches {L : List Part} {s0 : State} (s : State) (t : Fin 16) (hL : Within [.regs] L) (h : Touches L s0 s) :
    Touches L s0 (State.latchFox s t) := by
  refine Touches.step ?_ hL h
  unfold State.latchFox
  try dsimp only
  with_reducible repeat' first
    | exact Touches.refl _ _
    | assumption
    | exact Nat.le_refl _
    | exact Nat.le_add_right _ _
    | exact id
    | (apply State.setLive_touches; on_goal 1 => decide)
    | split

theorem State.endSearch_touches {L : List Part} {s0 : State} (s : State) (t : Fin 16) (hL : Within [.regs, .tSearch] L) (h : Touches L s0 s) :
    Touches L s0 (State.endSearch s t) := by
  refine Touches.step ?_ hL h
  unfold State.endSearch
  try dsimp only
  with_reducible repeat' first
    | exact Touches.refl _ _
    | assumption
    | exact Nat.le_refl _
    | exact Nat.le_add_right _ _
    | exact id
    | (apply State.endExpansion_touches; on_goal 1 => decide)
    | split

theorem State.latchExhausted_touches {L : List Part} {s0 : State} (s : State) (t : Fin 16) (hL : Within [.regs, .tSearch] L) (h : Touches L s0 s) :
    Touches L s0 (State.latchExhausted s t) := by
  refine Touches.step ?_ hL h
  unfold State.latchExhausted
  try dsimp only
  with_reducible repeat' first
    | exact Touches.refl _ _
    | assumption
    | exact Nat.le_refl _
    | exact Nat.le_add_right _ _
    | exact id
    | (apply State.updSearch_touches; on_goal 1 => decide)
    | (apply State.setLive_touches; on_goal 1 => decide)
    | split

theorem State.latchChecks_touches {L : List Part} {s0 : State} (s : State) (t : Fin 16) (hL : Within [.regs] L) (h : Touches L s0 s) :
    Touches L s0 (State.latchChecks s t) := by
  refine Touches.step ?_ hL h
  unfold State.latchChecks
  try dsimp only
  with_reducible repeat' first
    | exact Touches.refl _ _
    | assumption
    | exact Nat.le_refl _
    | exact Nat.le_add_right _ _
    | exact id
    | (apply State.setLive_touches; on_goal 1 => decide)
    | split

theorem State.latchEngines_touches {L : List Part} {s0 : State} (s : State) (hL : Within [.regs, .engines] L) (h : Touches L s0 s) :
    Touches L s0 (State.latchEngines s) := by
  refine Touches.step ?_ hL h
  unfold State.latchEngines
  try dsimp only
  with_reducible repeat' first
    | exact Touches.refl _ _
    | assumption
    | exact Nat.le_refl _
    | exact Nat.le_add_right _ _
    | exact id
    | refine Touches.forEach ?_ (fun _ _ _ => ?_)
    | (apply State.setLive_touches; on_goal 1 => decide)
    | (apply State.updEngine_touches; on_goal 1 => decide)
    | split

theorem State.latchCore_touches {L : List Part} {s0 : State} (s : State) (c : Nat) (hL : Within [.regs, .cores] L) (h : Touches L s0 s) :
    Touches L s0 (State.latchCore s c) := by
  refine Touches.step ?_ hL h
  unfold State.latchCore
  try dsimp only
  with_reducible repeat' first
    | exact Touches.refl _ _
    | assumption
    | exact Nat.le_refl _
    | exact Nat.le_add_right _ _
    | exact id
    | (apply State.setLive_touches; on_goal 1 => decide)
    | refine Touches.forEach ?_ (fun _ _ _ => ?_)
    | (apply State.updCore_touches; on_goal 1 => decide)
    | split

theorem State.latchCores_touches {L : List Part} {s0 : State} (s : State) (hL : Within [.regs, .cores] L) (h : Touches L s0 s) :
    Touches L s0 (State.latchCores s) := by
  refine Touches.step ?_ hL h
  unfold State.latchCores
  try dsimp only
  with_reducible repeat' first
    | exact Touches.refl _ _
    | assumption
    | exact Nat.le_refl _
    | exact Nat.le_add_right _ _
    | exact id
    | refine Touches.forEach ?_ (fun _ _ _ => ?_)
    | (apply State.latchCore_touches; on_goal 1 => decide)
    | split

theorem State.latchWaits_touches {L : List Part} {s0 : State} (s : State) (t : Fin 16) (hL : Within [.regs] L) (h : Touches L s0 s) :
    Touches L s0 (State.latchWaits s t) := by
  refine Touches.step ?_ hL h
  unfold State.latchWaits
  try dsimp only
  with_reducible repeat' first
    | exact Touches.refl _ _
    | assumption
    | exact Nat.le_refl _
    | exact Nat.le_add_right _ _
    | exact id
    | (apply State.setLive_touches; on_goal 1 => decide)
    | split

theorem State.readPlan_touches {L : List Part} {s0 : State} (s : State) (t : Fin 16) (hL : Within [.draws, .regs, .attn, .safe, .tState, .tSearch, .tSolver, .tSel, .tSched, .tOut, .bears, .jays, .cores, .dram, .cascade] L) (h : Touches L s0 s) :
    Touches L s0 (s.readPlan t) := by
  refine Touches.step ?_ hL h
  unfold State.readPlan
  try dsimp only
  with_reducible repeat' first
    | exact Touches.refl _ _
    | assumption
    | exact Nat.le_refl _
    | exact Nat.le_add_right _ _
    | exact id
    | (apply State.updSel_touches; on_goal 1 => decide)
    | (apply State.programFault_touches; on_goal 1 => decide)
    | (apply State.updSel_touches; on_goal 1 => decide)
    | split

theorem State.publish_touches {L : List Part} {s0 : State} (s : State) (t : Fin 16) (hL : Within [.draws, .regs, .attn, .safe, .tState, .tSearch, .tSolver, .tSel, .tSched, .tOut, .bears, .jays, .cores, .dram, .cascade] L) (h : Touches L s0 s) :
    Touches L s0 (State.publish s t) := by
  refine Touches.step ?_ hL h
  unfold State.publish
  try dsimp only
  with_reducible repeat' first
    | exact Touches.refl _ _
    | assumption
    | exact Nat.le_refl _
    | exact Nat.le_add_right _ _
    | exact id
    | (apply State.readPlan_touches; on_goal 1 => decide)
    | (apply State.updOut_touches; on_goal 1 => decide)
    | split

theorem State.writeWitness_touches {L : List Part} {s0 : State} (s : State) (t : Fin 16) (d : FrameDone) (hL : Within [.tRings, .lynx] L) (h : Touches L s0 s) :
    Touches L s0 (s.writeWitness t d) := by
  refine Touches.step ?_ hL h
  unfold State.writeWitness
  try dsimp only
  with_reducible repeat' first
    | exact Touches.refl _ _
    | assumption
    | exact Nat.le_refl _
    | exact Nat.le_add_right _ _
    | exact id
    | (apply State.streamRecord_touches; on_goal 1 => decide)
    | refine Touches.forTenants ?_ (fun _ _ _ => ?_)
    | apply Touches.updTenant
    | (intro p hp; cases p <;> first | exact absurd hp (by decide) | (simp only [Part.sameT, Part.sameF, Part.sameO, Tenant.cleared, Tenant.discardFrame, Tenant.startFrame, Tenant.turn, Tenant.reset, and_self]; done))
    | split

theorem State.sendWitness_touches {L : List Part} {s0 : State} (s : State) (d : FrameDone) (hL : Within [.draws, .attn, .links, .cascade, .lynx] L) (h : Touches L s0 s) :
    Touches L s0 (s.sendWitness d) := by
  refine Touches.step ?_ hL h
  unfold State.sendWitness
  try dsimp only
  with_reducible repeat' first
    | exact Touches.refl _ _
    | assumption
    | exact Nat.le_refl _
    | exact Nat.le_add_right _ _
    | exact id
    | (apply State.draw_touches; on_goal 1 => decide)
    | (apply State.streamRecord_touches; on_goal 1 => decide)
    | (apply State.dropRoute_touches; on_goal 1 => decide)
    | (apply State.transmit_touches; on_goal 1 => decide)
    | refine Touches.forTenants ?_ (fun _ _ _ => ?_)
    | (apply State.draw_touches; on_goal 1 => decide)
    | split

theorem State.fixFrame_touches {L : List Part} {s0 : State} (s : State) (t : Fin 16) (hL : Within [.draws, .regs, .attn, .safe, .tState, .tSearch, .tTable, .tSolver, .tSel, .tSched, .tOut, .tSpoor, .tDone, .tRings, .bears, .jays, .cores, .dram, .links, .cascade, .lynx] L) (h : Touches L s0 s) :
    Touches L s0 (s.fixFrame t) := by
  refine Touches.step ?_ hL h
  unfold State.fixFrame
  try dsimp only
  with_reducible repeat' first
    | exact Touches.refl _ _
    | assumption
    | exact Nat.le_refl _
    | exact Nat.le_add_right _ _
    | exact id
    | (apply State.chainDigest_touches; on_goal 1 => decide)
    | (apply State.updTable_touches; on_goal 1 => decide)
    | (apply State.updOut_touches; on_goal 1 => decide)
    | (apply State.fixDone_touches; on_goal 1 => decide)
    | (apply State.writeWitness_touches; on_goal 1 => decide)
    | (apply State.sendWitness_touches; on_goal 1 => decide)
    | (apply State.updTable_touches; on_goal 1 => decide)
    | (apply State.updOut_touches; on_goal 1 => decide)
    | split

theorem State.cannotFix_touches {L : List Part} {s0 : State} (s : State) (t : Fin 16) (hL : Within [.safe] L) (h : Touches L s0 s) :
    Touches L s0 (State.cannotFix s t) := by
  refine Touches.step ?_ hL h
  unfold State.cannotFix
  try dsimp only
  with_reducible repeat' first
    | exact Touches.refl _ _
    | assumption
    | exact Nat.le_refl _
    | exact Nat.le_add_right _ _
    | exact id
    | (apply State.assertSafe_touches; on_goal 1 => decide)
    | split

theorem State.overflow_touches {L : List Part} {s0 : State} (s : State) (t : Fin 16) (hL : Within [.regs, .shadow, .dirty, .attn, .safe, .tState, .tWorld, .tSearch, .tTable, .tSolver, .tSel, .tSched, .tSpoor, .tQueues, .tCmds, .engines, .bears, .jays, .cores, .cascade] L) (h : Touches L s0 s) :
    Touches L s0 (s.overflow t) := by
  refine Touches.step ?_ hL h
  unfold State.overflow
  try dsimp only
  with_reducible repeat' first
    | exact Touches.refl _ _
    | assumption
    | exact Nat.le_refl _
    | exact Nat.le_add_right _ _
    | exact id
    | (apply State.resetTenant_touches; on_goal 1 => decide)
    | apply Touches.updTenant
    | (intro p hp; cases p <;> first | exact absurd hp (by decide) | (simp only [Part.sameT, Part.sameF, Part.sameO, Tenant.cleared, Tenant.discardFrame, Tenant.startFrame, Tenant.turn, Tenant.reset, and_self]; done))
    | split

theorem State.beforeFix_touches {L : List Part} {s0 : State} (s : State) (t : Fin 16) (hL : Within [.draws, .regs, .attn, .safe, .tState, .tSearch, .tSolver, .tSel, .tSched, .tOut, .bears, .jays, .cores, .dram, .cascade] L) (h : Touches L s0 s) :
    Touches L s0 (s.beforeFix t) := by
  refine Touches.step ?_ hL h
  unfold State.beforeFix
  try dsimp only
  with_reducible repeat' first
    | exact Touches.refl _ _
    | assumption
    | exact Nat.le_refl _
    | exact Nat.le_add_right _ _
    | exact id
    | (apply State.cannotFix_touches; on_goal 1 => decide)
    | (apply State.readPlan_touches; on_goal 1 => decide)
    | split

theorem State.endTenantFrame_touches {L : List Part} {s0 : State} (s : State) (t : Fin 16) (hL : Within [.draws, .regs, .shadow, .dirty, .attn, .safe, .tState, .tWorld, .tSearch, .tTable, .tSolver, .tSel, .tSched, .tOut, .tSpoor, .tQueues, .tCmds, .tDone, .tRings, .engines, .bears, .jays, .cores, .dram, .links, .cascade, .lynx] L) (h : Touches L s0 s) :
    Touches L s0 (s.endTenantFrame t) := by
  refine Touches.step ?_ hL h
  unfold State.endTenantFrame
  try dsimp only
  with_reducible repeat' first
    | exact Touches.refl _ _
    | assumption
    | exact Nat.le_refl _
    | exact Nat.le_add_right _ _
    | exact id
    | (apply State.overflow_touches; on_goal 1 => decide)
    | (apply State.fixFrame_touches; on_goal 1 => decide)
    | split

theorem State.endTasks_touches {L : List Part} {s0 : State} (s : State) (t : Fin 16) (hL : Within [.draws, .regs, .tSearch, .tSolver, .tSel, .tSched, .bears, .jays, .cores, .dram, .cascade] L) (h : Touches L s0 s) :
    Touches L s0 (State.endTasks s t) := by
  refine Touches.step ?_ hL h
  unfold State.endTasks
  try dsimp only
  with_reducible repeat' first
    | exact Touches.refl _ _
    | assumption
    | exact Nat.le_refl _
    | exact Nat.le_add_right _ _
    | exact id
    | (apply State.updSched_touches; on_goal 1 => decide)
    | (apply State.dropWork_touches; on_goal 1 => decide)
    | (apply State.abortTasks_touches; on_goal 1 => decide)
    | split

theorem State.discardResults_touches {L : List Part} {s0 : State} (s : State) (t : Fin 16) (hL : Within [.draws, .tSched, .dram] L) (h : Touches L s0 s) :
    Touches L s0 (s.discardResults t) := by
  refine Touches.step ?_ hL h
  unfold State.discardResults
  try dsimp only
  with_reducible repeat' first
    | exact Touches.refl _ _
    | assumption
    | exact Nat.le_refl _
    | exact Nat.le_add_right _ _
    | exact id
    | (apply State.dramWrite_touches; on_goal 1 => decide)
    | (apply State.draw_touches; on_goal 1 => decide)
    | (apply State.updSched_touches; on_goal 1 => decide)
    | refine Touches.forEach ?_ (fun _ _ _ => ?_)
    | (apply State.updSched_touches; on_goal 1 => decide)
    | (apply State.draw_touches; on_goal 1 => decide)
    | split

theorem State.guardReset_touches {L : List Part} {s0 : State} (s : State) (t : Fin 16) (hL : Within [.regs, .shadow, .dirty, .attn, .tState, .tWorld, .tSearch, .tTable, .tSolver, .tSel, .tSched, .tSpoor, .tQueues, .tCmds, .engines, .bears, .jays, .cores, .cascade] L) (h : Touches L s0 s) :
    Touches L s0 (State.guardReset s t) := by
  refine Touches.step ?_ hL h
  unfold State.guardReset
  try dsimp only
  with_reducible repeat' first
    | exact Touches.refl _ _
    | assumption
    | exact Nat.le_refl _
    | exact Nat.le_add_right _ _
    | exact id
    | (apply State.resetTenant_touches; on_goal 1 => decide)
    | split

theorem State.missWitness_touches {L : List Part} {s0 : State} (s : State) (t : Fin 16) (hL : Within [.draws, .regs, .attn, .tRings] L) (h : Touches L s0 s) :
    Touches L s0 (s.missWitness t) := by
  refine Touches.step ?_ hL h
  unfold State.missWitness
  try dsimp only
  with_reducible repeat' first
    | exact Touches.refl _ _
    | assumption
    | exact Nat.le_refl _
    | exact Nat.le_add_right _ _
    | exact id
    | (apply State.draw_touches; on_goal 1 => decide)
    | (apply State.setLive_touches; on_goal 1 => decide)
    | (apply State.raise_touches; on_goal 1 => decide)
    | (apply State.draw_touches; on_goal 1 => decide)
    | apply Touches.updTenant
    | (intro p hp; cases p <;> first | exact absurd hp (by decide) | (simp only [Part.sameT, Part.sameF, Part.sameO, Tenant.cleared, Tenant.discardFrame, Tenant.startFrame, Tenant.turn, Tenant.reset, and_self]; done))
    | split

theorem State.sendCal_touches {L : List Part} {s0 : State} (s : State) (l : Nat) (hL : Within [.links] L) (h : Touches L s0 s) :
    Touches L s0 (State.sendCal s l) := by
  refine Touches.step ?_ hL h
  unfold State.sendCal
  try dsimp only
  with_reducible repeat' first
    | exact Touches.refl _ _
    | assumption
    | exact Nat.le_refl _
    | exact Nat.le_add_right _ _
    | exact id
    | (apply State.transmit_touches; on_goal 1 => decide)
    | split

theorem State.guardActions_touches {L : List Part} {s0 : State} (s : State) (hL : Within [.draws, .regs, .shadow, .dirty, .attn, .frame, .tState, .tWorld, .tSearch, .tTable, .tSolver, .tSel, .tSched, .tSpoor, .tQueues, .tCmds, .engines, .bears, .jays, .cores, .dram, .links, .cascade] L)
    (h : Touches L s0 s) : Touches L s0 s.guardActions := by
  refine Touches.step ?_ hL h
  unfold State.guardActions
  extract_lets s1 s2 s3 engines bears jays s4 s5 s6 s7
  have h1 : Touches [.draws, .regs, .shadow, .dirty, .attn, .frame, .tState, .tWorld, .tSearch, .tTable, .tSolver, .tSel, .tSched, .tSpoor, .tQueues, .tCmds, .engines, .bears, .jays, .cores, .dram, .links, .cascade] s s1 :=
    Touches.forTenants (Touches.forTenants (Touches.refl _ _) fun _ _ g => State.endTasks_touches _ _ (by decide) g) fun _ _ g =>
      State.discardResults_touches _ _ (by decide) g
  clear_value s1
  have h2 : Touches [.draws, .regs, .shadow, .dirty, .attn, .frame, .tState, .tWorld, .tSearch, .tTable, .tSolver, .tSel, .tSched, .tSpoor, .tQueues, .tCmds, .engines, .bears, .jays, .cores, .dram, .links, .cascade] s s2 := Touches.forTenants h1 fun _ _ g => State.guardReset_touches _ _ (by decide) g
  clear_value s2
  have h3 : Touches [.draws, .regs, .shadow, .dirty, .attn, .frame, .tState, .tWorld, .tSearch, .tTable, .tSolver, .tSel, .tSched, .tSpoor, .tQueues, .tCmds, .engines, .bears, .jays, .cores, .dram, .links, .cascade] s s3 := Touches.forTenants h2 fun _ _ g => by
    apply Touches.updTenant _ _ _ g
    intro p hp; cases p <;> first | exact absurd hp (by decide) | (simp only [Part.sameT, Tenant.discardFrame, and_self]; done)
  clear_value s3 engines bears jays
  have h4 : Touches [.draws, .regs, .shadow, .dirty, .attn, .frame, .tState, .tWorld, .tSearch, .tTable, .tSolver, .tSel, .tSched, .tSpoor, .tQueues, .tCmds, .engines, .bears, .jays, .cores, .dram, .links, .cascade] s s4 := Touches.set_engines_bears_jays _ _ _ _ (by decide) h3
  clear_value s4
  have h5 : Touches [.draws, .regs, .shadow, .dirty, .attn, .frame, .tState, .tWorld, .tSearch, .tTable, .tSolver, .tSel, .tSched, .tSpoor, .tQueues, .tCmds, .engines, .bears, .jays, .cores, .dram, .links, .cascade] s s5 := State.updCascade_touches _ _ (by decide) h4
  clear_value s5
  have h6 : Touches [.draws, .regs, .shadow, .dirty, .attn, .frame, .tState, .tWorld, .tSearch, .tTable, .tSolver, .tSel, .tSched, .tSpoor, .tQueues, .tCmds, .engines, .bears, .jays, .cores, .dram, .links, .cascade] s s6 := State.updDram_touches _ _ (by decide) h5 fun hd => Dram.ok_written hd
  clear_value s6
  have h7 : Touches [.draws, .regs, .shadow, .dirty, .attn, .frame, .tState, .tWorld, .tSearch, .tTable, .tSolver, .tSel, .tSched, .tSpoor, .tQueues, .tCmds, .engines, .bears, .jays, .cores, .dram, .links, .cascade] s s7 := Touches.forEach h6 fun _ _ g => State.sendCal_touches _ _ (by decide) g
  clear_value s7
  apply Touches.updFrame _ _ h7
  · intro p hp; cases p <;> first | exact absurd hp (by decide) | exact True.intro | ((repeat' apply And.intro) <;> exact rfl)
  · exact id

theorem State.endFrame_touches {L : List Part} {s0 : State} (s : State) (hL : Within [.draws, .regs, .shadow, .dirty, .attn, .safe, .frame, .tState, .tWorld, .tSearch, .tTable, .tSolver, .tSel, .tSched, .tOut, .tSpoor, .tQueues, .tCmds, .tDone, .tRings, .engines, .bears, .jays, .cores, .dram, .links, .cascade, .lynx] L)
    (h : Touches L s0 s) : Touches L s0 s.endFrame := by
  refine Touches.step ?_ hL h
  unfold State.endFrame
  extract_lets s1 s2
  have h1 : Touches [.draws, .regs, .shadow, .dirty, .attn, .safe, .frame, .tState, .tWorld, .tSearch, .tTable, .tSolver, .tSel, .tSched, .tOut, .tSpoor, .tQueues, .tCmds, .tDone, .tRings, .engines, .bears, .jays, .cores, .dram, .links, .cascade, .lynx] s s1 :=
    Touches.forTenants (Touches.forTenants (Touches.refl _ _) fun _ _ g => State.beforeFix_touches _ _ (by decide) g) fun _ _ g =>
      State.endTenantFrame_touches _ _ (by decide) g
  clear_value s1
  have h2 : Touches [.draws, .regs, .shadow, .dirty, .attn, .safe, .frame, .tState, .tWorld, .tSearch, .tTable, .tSolver, .tSel, .tSched, .tOut, .tSpoor, .tQueues, .tCmds, .tDone, .tRings, .engines, .bears, .jays, .cores, .dram, .links, .cascade, .lynx] s s2 := by
    apply Touches.updFrame _ _ h1
    · intro p hp; cases p <;> first | exact absurd hp (by decide) | exact True.intro | ((repeat' apply And.intro) <;> exact rfl)
    · exact id
  clear_value s2
  split
  · exact h2
  · rename_i s3 s4 cores s5 hc
    have h3 : Touches [.draws, .regs, .shadow, .dirty, .attn, .safe, .frame, .tState, .tWorld, .tSearch, .tTable, .tSolver, .tSel, .tSched, .tOut, .tSpoor, .tQueues, .tCmds, .tDone, .tRings, .engines, .bears, .jays, .cores, .dram, .links, .cascade, .lynx] s s3 := Touches.forTenants h2 fun _ _ g => State.missWitness_touches _ _ (by decide) g
    clear_value s3
    have h4 : Touches [.draws, .regs, .shadow, .dirty, .attn, .safe, .frame, .tState, .tWorld, .tSearch, .tTable, .tSolver, .tSel, .tSched, .tOut, .tSpoor, .tQueues, .tCmds, .tDone, .tRings, .engines, .bears, .jays, .cores, .dram, .links, .cascade, .lynx] s s4 := Touches.forTenants h3 fun _ _ g => State.latchWaits_touches _ _ (by decide) g
    clear_value s4 cores
    have h5 : Touches [.draws, .regs, .shadow, .dirty, .attn, .safe, .frame, .tState, .tWorld, .tSearch, .tTable, .tSolver, .tSel, .tSched, .tOut, .tSpoor, .tQueues, .tCmds, .tDone, .tRings, .engines, .bears, .jays, .cores, .dram, .links, .cascade, .lynx] s s5 := Touches.set_cores _ _ (by decide) h4
    clear_value s5
    exact State.guardActions_touches _ (by decide) (settle_touches _ (by decide) (State.latchCores_touches _ (by decide) h5))

theorem State.atDeadline_touches {L : List Part} {s0 : State} (s : State) (k : Nat) (hL : Within [.draws, .regs, .shadow, .dirty, .attn, .safe, .frame, .tState, .tWorld, .tSearch, .tTable, .tSolver, .tSel, .tSched, .tOut, .tSpoor, .tQueues, .tCmds, .tDone, .tRings, .engines, .bears, .jays, .cores, .dram, .links, .cascade, .lynx] L) (h : Touches L s0 s) :
    Touches L s0 (State.atDeadline s k) := by
  refine Touches.step ?_ hL h
  unfold State.atDeadline
  try dsimp only
  with_reducible repeat' first
    | exact Touches.refl _ _
    | assumption
    | exact Nat.le_refl _
    | exact Nat.le_add_right _ _
    | exact id
    | refine Touches.forTenants ?_ (fun _ _ _ => ?_)
    | (apply State.applyWaiting_touches; on_goal 1 => decide)
    | (apply State.sealWorld_touches; on_goal 1 => decide)
    | (apply State.latchFox_touches; on_goal 1 => decide)
    | (apply State.endSearch_touches; on_goal 1 => decide)
    | (apply State.cutChecks_touches; on_goal 1 => decide)
    | (apply State.latchSolver_touches; on_goal 1 => decide)
    | (apply State.latchSelect_touches; on_goal 1 => decide)
    | (apply State.latchChecks_touches; on_goal 1 => decide)
    | (apply State.latchExhausted_touches; on_goal 1 => decide)
    | (apply State.latchEngines_touches; on_goal 1 => decide)
    | (apply State.judgeImminent_touches; on_goal 1 => decide)
    | (apply State.endFrame_touches; on_goal 1 => decide)
    | split

theorem State.cutPhase_touches {L : List Part} {s0 : State} (s : State) (k : Nat) (hL : Within [.draws, .regs, .attn, .safe, .frame, .tState, .tSearch, .tSolver, .tSel, .tSched, .tOut, .bears, .jays, .cores, .dram, .cascade, .lynx] L) (h : Touches L s0 s) :
    Touches L s0 (s.cutPhase k) := by
  refine Touches.step ?_ hL h
  unfold State.cutPhase
  try dsimp only
  with_reducible repeat' first
    | exact Touches.refl _ _
    | assumption
    | exact Nat.le_refl _
    | exact Nat.le_add_right _ _
    | exact id
    | (apply State.hold_touches; on_goal 1 => decide)
    | (apply State.cutTasks_touches; on_goal 1 => decide)
    | (apply State.cutSelects_touches; on_goal 1 => decide)
    | (apply State.cutSolves_touches; on_goal 1 => decide)
    | (apply State.unhold_touches; on_goal 1 => decide)
    | (apply State.expireWaits_touches; on_goal 1 => decide)
    | refine Touches.forTenants ?_ (fun _ _ _ => ?_)
    | split

theorem State.passDeadline_touches {L : List Part} {s0 : State} (s : State) (k : Nat) (hk : k ≤ 7) (hL : Within [.now, .draws, .regs, .shadow, .dirty, .attn, .passed, .safe, .frame, .tState, .tWorld, .tSearch, .tTable, .tSolver, .tSel, .tSched, .tOut, .tSpoor, .tQueues, .tCmds, .tDone, .tRings, .engines, .bears, .jays, .cores, .dram, .links, .cascade, .lynx] L)
    (h : Touches L s0 s) : Touches L s0 (s.passDeadline k) := by
  refine Touches.step ?_ hL h
  unfold State.passDeadline
  dsimp only
  have h1 : Touches [.now, .draws, .regs, .shadow, .dirty, .attn, .passed, .safe, .frame, .tState, .tWorld, .tSearch, .tTable, .tSolver, .tSel, .tSched, .tOut, .tSpoor, .tQueues, .tCmds, .tDone, .tRings, .engines, .bears, .jays, .cores, .dram, .links, .cascade, .lynx] s (((settle s).advanceTo (s.deadlineAt k)).updFrame fun f => { f with passed := k + 1 }) := by
    have h0 : Touches [.now, .draws, .regs, .shadow, .dirty, .attn, .passed, .safe, .frame, .tState, .tWorld, .tSearch, .tTable, .tSolver, .tSel, .tSched, .tOut, .tSpoor, .tQueues, .tCmds, .tDone, .tRings, .engines, .bears, .jays, .cores, .dram, .links, .cascade, .lynx] s ((settle s).advanceTo (s.deadlineAt k)) :=
      State.advanceTo_touches _ _ (by decide) (settle_touches _ (by decide) (Touches.refl _ _))
    refine Touches.updFrame _ _ h0 ?_ fun _ => Nat.succ_le_succ hk
    intro p hp
    cases p <;> first | exact absurd hp (by decide) | exact True.intro | ((repeat' apply And.intro) <;> exact rfl)
  split
  · split
    · exact State.endFrame_touches _ (by decide) h1
    · exact h1
  · apply settle_touches; on_goal 1 => decide
    apply State.atDeadline_touches; on_goal 1 => decide
    exact State.cutPhase_touches _ _ (by decide) h1

theorem State.startDeferred_touches {L : List Part} {s0 : State} (s : State) (hL : Within [.frame, .clock, .power] L) (h : Touches L s0 s) :
    Touches L s0 (State.startDeferred s) := by
  refine Touches.step ?_ hL h
  unfold State.startDeferred
  try dsimp only
  with_reducible repeat' first
    | exact Touches.refl _ _
    | assumption
    | exact Nat.le_refl _
    | exact Nat.le_add_right _ _
    | exact id
    | (apply State.updClock_touches; on_goal 1 => decide)
    | (apply State.updPower_touches; on_goal 1 => decide)
    | (apply State.beginRelock_touches; on_goal 1 => decide)
    | split

theorem State.adapt_touches {L : List Part} {s0 : State} (s : State) (hL : Within [.attn, .frame, .clock] L) (h : Touches L s0 s) :
    Touches L s0 (State.adapt s) := by
  refine Touches.step ?_ hL h
  unfold State.adapt
  try dsimp only
  with_reducible repeat' first
    | exact Touches.refl _ _
    | assumption
    | exact Nat.le_refl _
    | exact Nat.le_add_right _ _
    | exact id
    | (apply State.requestLevel_touches; on_goal 1 => decide)
    | (apply State.raise_touches; on_goal 1 => decide)
    | split

theorem State.closePower_touches {L : List Part} {s0 : State} (s : State) (hL : Within [.power] L) (h : Touches L s0 s) :
    Touches L s0 (State.closePower s) := by
  refine Touches.step ?_ hL h
  unfold State.closePower
  try dsimp only
  with_reducible repeat' first
    | exact Touches.refl _ _
    | assumption
    | exact Nat.le_refl _
    | exact Nat.le_add_right _ _
    | exact id
    | (apply State.updPower_touches; on_goal 1 => decide)
    | split

theorem State.startTenant_touches {L : List Part} {s0 : State} (s : State) (t : Fin 16) (hL : Within [.tState, .tSearch, .tTable, .tSolver, .tSel, .tSched, .tOut, .tSpoor] L) (h : Touches L s0 s) :
    Touches L s0 (State.startTenant s t) := by
  refine Touches.step ?_ hL h
  unfold State.startTenant
  try dsimp only
  with_reducible repeat' first
    | exact Touches.refl _ _
    | assumption
    | exact Nat.le_refl _
    | exact Nat.le_add_right _ _
    | exact id
    | apply Touches.updTenant
    | (intro p hp; cases p <;> first | exact absurd hp (by decide) | (simp only [Part.sameT, Part.sameF, Part.sameO, Tenant.cleared, Tenant.discardFrame, Tenant.startFrame, Tenant.turn, Tenant.reset, and_self]; done))
    | split

theorem State.turnUnits_touches {L : List Part} {s0 : State} (s : State) (hL : Within [.engines, .bears, .jays, .fronts, .cores] L) (h : Touches L s0 s) :
    Touches L s0 (State.turnUnits s) := by
  refine Touches.step ?_ hL h
  unfold State.turnUnits
  try dsimp only
  with_reducible repeat' first
    | exact Touches.refl _ _
    | assumption
    | exact Nat.le_refl _
    | exact Nat.le_add_right _ _
    | exact id
    | refine Touches.forEach ?_ (fun _ _ _ => ?_)
    | (apply State.updView_touches; on_goal 1 => decide)
    | split

theorem State.turnTenants_touches {L : List Part} {s0 : State} (s : State) (was : List (Fin 16)) (hL : Within [.tState] L) (h : Touches L s0 s) :
    Touches L s0 (State.turnTenants s was) := by
  refine Touches.step ?_ hL h
  unfold State.turnTenants
  try dsimp only
  with_reducible repeat' first
    | exact Touches.refl _ _
    | assumption
    | exact Nat.le_refl _
    | exact Nat.le_add_right _ _
    | exact id
    | refine Touches.forTenants ?_ (fun _ _ _ => ?_)
    | apply Touches.updTenant
    | (intro p hp; cases p <;> first | exact absurd hp (by decide) | (simp only [Part.sameT, Part.sameF, Part.sameO, Tenant.cleared, Tenant.discardFrame, Tenant.startFrame, Tenant.turn, Tenant.reset, and_self]; done))
    | split

theorem State.turnLinks_touches {L : List Part} {s0 : State} (s : State) (hL : Within [.links] L) (h : Touches L s0 s) :
    Touches L s0 (State.turnLinks s) := by
  refine Touches.step ?_ hL h
  unfold State.turnLinks
  try dsimp only
  with_reducible repeat' first
    | exact Touches.refl _ _
    | assumption
    | exact Nat.le_refl _
    | exact Nat.le_add_right _ _
    | exact id
    | split
    | (apply Touches.set_links; on_goal 1 => decide)

theorem State.openFrame_touches {L : List Part} {s0 : State} (s : State) (hL : Within [.draws, .regs, .shadow, .dirty, .cfgA, .cfgB, .attn, .safe, .frame, .tState, .tWorld, .tSearch, .tTable, .tSolver, .tSel, .tSched, .tOut, .tSpoor, .tQueues, .tCmds, .tDone, .tRings, .engines, .bears, .jays, .fronts, .cores, .dram, .links, .cascade, .lynx, .clock, .power] L) (h : Touches L s0 s) :
    Touches L s0 (s.openFrame) := by
  refine Touches.step ?_ hL h
  unfold State.openFrame
  try dsimp only
  with_reducible repeat' first
    | exact Touches.refl _ _
    | assumption
    | exact Nat.le_refl _
    | exact Nat.le_add_right _ _
    | exact id
    | (apply State.finishSets_touches; on_goal 1 => decide)
    | (apply State.startDeferred_touches; on_goal 1 => decide)
    | (apply State.adapt_touches; on_goal 1 => decide)
    | (apply State.turnTenants_touches; on_goal 1 => decide)
    | (apply State.turnUnits_touches; on_goal 1 => decide)
    | (apply State.turnLinks_touches; on_goal 1 => decide)
    | (apply State.startTenant_touches; on_goal 1 => decide)
    | (apply State.exchange_touches; on_goal 1 => decide)
    | (apply State.applyWaiting_touches; on_goal 1 => decide)
    | (apply State.updSpoor_touches; on_goal 1 => decide)
    | (apply State.buildStops_touches; on_goal 1 => decide)
    | (apply settle_touches; on_goal 1 => decide)
    | refine Touches.forTenants ?_ (fun _ _ _ => ?_)
    | (apply State.updSpoor_touches; on_goal 1 => decide)
    | apply Touches.updFrame
    | (intro p hp; cases p <;> first | exact absurd hp (by decide) | (simp only [Part.sameT, Part.sameF, Part.sameO, Tenant.cleared, Tenant.discardFrame, Tenant.startFrame, Tenant.turn, Tenant.reset, and_self]; done))
    | split

theorem State.startRun_touches {L : List Part} {s0 : State} (s : State) (hL : Within [.tSpoor, .lynx] L) (h : Touches L s0 s) :
    Touches L s0 (State.startRun s) := by
  refine Touches.step ?_ hL h
  unfold State.startRun
  try dsimp only
  with_reducible repeat' first
    | exact Touches.refl _ _
    | assumption
    | exact Nat.le_refl _
    | exact Nat.le_add_right _ _
    | exact id
    | refine Touches.forTenants ?_ (fun _ _ _ => ?_)
    | (apply State.updSpoor_touches; on_goal 1 => decide)
    | (apply State.updLynx_touches; on_goal 1 => decide)
    | split

theorem State.beginFrame_touches {L : List Part} {s0 : State} (s : State) (subst : Bool) (number : Option (BitVec 64)) (hL : Within [.draws, .regs, .shadow, .dirty, .cfgA, .cfgB, .attn, .tick, .passed, .running, .safe, .frame, .tState, .tWorld, .tSearch, .tTable, .tSolver, .tSel, .tSched, .tOut, .tSpoor, .tQueues, .tCmds, .tDone, .tRings, .engines, .bears, .jays, .fronts, .cores, .dram, .links, .cascade, .lynx, .clock, .power] L) (h : Touches L s0 s) :
    Touches L s0 (s.beginFrame subst number) := by
  refine Touches.step ?_ hL h
  unfold State.beginFrame
  try dsimp only
  with_reducible repeat' first
    | exact Touches.refl _ _
    | assumption
    | exact Nat.le_refl _
    | exact Nat.le_add_right _ _
    | exact id
    | exact fun _ => Nat.le_of_ble_eq_true rfl
    | (apply State.startRun_touches; on_goal 1 => decide)
    | (apply State.updLynx_touches; on_goal 1 => decide)
    | (apply State.updClock_touches; on_goal 1 => decide)
    | (apply State.closePower_touches; on_goal 1 => decide)
    | (apply State.openFrame_touches; on_goal 1 => decide)
    | refine Touches.forTenants ?_ (fun _ _ _ => ?_)
    | (apply State.updClock_touches; on_goal 1 => decide)
    | (apply State.updLynx_touches; on_goal 1 => decide)
    | apply Touches.updTenant
    | apply Touches.updFrame
    | (intro p hp; cases p <;> first | exact absurd hp (by decide) | (simp only [Part.sameT, Part.sameF, Part.sameO, Tenant.cleared, Tenant.discardFrame, Tenant.startFrame, Tenant.turn, Tenant.reset, and_self]; done))
    | split

theorem State.finishOpening_touches {L : List Part} {s0 : State} (s : State) (hL : Within [.now, .draws, .regs, .shadow, .dirty, .cfgA, .cfgB, .attn, .safe, .frame, .tState, .tWorld, .tSearch, .tTable, .tSolver, .tSel, .tSched, .tOut, .tSpoor, .tQueues, .tCmds, .tDone, .tRings, .engines, .bears, .jays, .fronts, .cores, .dram, .links, .cascade, .lynx, .clock, .power] L) (h : Touches L s0 s) :
    Touches L s0 (State.finishOpening s) := by
  refine Touches.step ?_ hL h
  unfold State.finishOpening
  try dsimp only
  with_reducible repeat' first
    | exact Touches.refl _ _
    | assumption
    | exact Nat.le_refl _
    | exact Nat.le_add_right _ _
    | exact id
    | (apply State.openFrame_touches; on_goal 1 => decide)
    | (apply State.advanceTo_touches; on_goal 1 => decide)
    | refine Touches.forTenants ?_ (fun _ _ _ => ?_)
    | (apply State.noteTiming_touches; on_goal 1 => decide)
    | split

theorem State.passUpTo_touches {L : List Part} {s0 : State} (s : State) (k : Nat) (hk : k ≤ 7) (hL : Within [.now, .draws, .regs, .shadow, .dirty, .cfgA, .cfgB, .attn, .passed, .safe, .frame, .tState, .tWorld, .tSearch, .tTable, .tSolver, .tSel, .tSched, .tOut, .tSpoor, .tQueues, .tCmds, .tDone, .tRings, .engines, .bears, .jays, .fronts, .cores, .dram, .links, .cascade, .lynx, .clock, .power] L)
    (h : Touches L s0 s) : Touches L s0 (s.passUpTo k) := by
  refine Touches.step ?_ hL h
  unfold State.passUpTo
  dsimp only
  refine Touches.forEachMem ?_ fun u a ha g => ?_
  · split
    · exact State.finishOpening_touches _ (by decide) (Touches.refl _ _)
    · exact Touches.refl _ _
  · split
    · exact State.passDeadline_touches _ _ (by have := List.mem_range.mp ha; omega) (by decide) g
    · exact g

theorem State.reachDeadline_touches {L : List Part} {s0 : State} (s : State) (k : Nat) (hk : k ≤ 7) (hL : Within [.now, .draws, .regs, .shadow, .dirty, .cfgA, .cfgB, .attn, .passed, .safe, .frame, .tState, .tWorld, .tSearch, .tTable, .tSolver, .tSel, .tSched, .tOut, .tSpoor, .tQueues, .tCmds, .tDone, .tRings, .engines, .bears, .jays, .fronts, .cores, .dram, .links, .cascade, .lynx, .clock, .power] L)
    (h : Touches L s0 s) : Touches L s0 (s.reachDeadline k) := by
  unfold State.reachDeadline
  split
  · exact h
  · exact State.passUpTo_touches _ _ hk hL h

theorem State.timeoutWait_touches {L : List Part} {s0 : State} (s : State) (t : Fin 16) (i : Nat) (hL : Within [.now, .draws, .regs, .shadow, .dirty, .cfgA, .cfgB, .attn, .passed, .safe, .frame, .tState, .tWorld, .tSearch, .tTable, .tSolver, .tSel, .tSched, .tOut, .tSpoor, .tQueues, .tCmds, .tDone, .tRings, .engines, .bears, .jays, .fronts, .cores, .dram, .links, .cascade, .lynx, .clock, .power] L)
    (h : Touches L s0 s) : Touches L s0 (s.timeoutWait t i) := by
  refine Touches.step ?_ hL h
  unfold State.timeoutWait
  dsimp only
  have hp : ∀ w, trPhase w ≤ 7 := fun w => by
    have : trPhase w < 8 := Nat.mod_lt _ (by decide)
    omega
  with_reducible repeat' first
    | exact Touches.refl _ _
    | assumption
    | exact hp _
    | (apply State.reachDeadline_touches; on_goal 2 => decide)
    | (apply State.advanceTo_touches; on_goal 1 => decide)
    | split

theorem State.completeGuard_touches {L : List Part} {s0 : State} (s : State) (hL : Within [.now, .draws, .regs, .shadow, .dirty, .cfgA, .cfgB, .attn, .safe, .frame, .tState, .tWorld, .tSearch, .tTable, .tSolver, .tSel, .tSched, .tOut, .tSpoor, .tQueues, .tCmds, .tDone, .tRings, .engines, .bears, .jays, .fronts, .cores, .dram, .links, .cascade, .lynx, .clock, .power] L) (h : Touches L s0 s) :
    Touches L s0 (State.completeGuard s) := by
  refine Touches.step ?_ hL h
  unfold State.completeGuard
  try dsimp only
  with_reducible repeat' first
    | exact Touches.refl _ _
    | assumption
    | exact Nat.le_refl _
    | exact Nat.le_add_right _ _
    | exact id
    | (apply State.finishOpening_touches; on_goal 1 => decide)
    | (apply State.advanceTo_touches; on_goal 1 => decide)
    | split

theorem State.closeFrame_touches {L : List Part} {s0 : State} (s : State) (hL : Within [.now, .draws, .regs, .shadow, .dirty, .cfgA, .cfgB, .attn, .passed, .safe, .frame, .tState, .tWorld, .tSearch, .tTable, .tSolver, .tSel, .tSched, .tOut, .tSpoor, .tQueues, .tCmds, .tDone, .tRings, .engines, .bears, .jays, .fronts, .cores, .dram, .links, .cascade, .lynx, .clock, .power] L) (h : Touches L s0 s) :
    Touches L s0 s.closeFrame := by
  unfold State.closeFrame
  split
  · exact State.passUpTo_touches _ _ (Nat.le_refl 7) hL h
  · exact h

theorem State.tickEdge_touches {L : List Part} {s0 : State} (s : State) (subst : Bool) (hL : Within [.now, .draws, .regs, .shadow, .dirty, .cfgA, .cfgB, .attn, .tick, .passed, .running, .safe, .frame, .tState, .tWorld, .tSearch, .tTable, .tSolver, .tSel, .tSched, .tOut, .tSpoor, .tQueues, .tCmds, .tDone, .tRings, .engines, .bears, .jays, .fronts, .cores, .dram, .links, .cascade, .lynx, .clock, .power] L) (h : Touches L s0 s) :
    Touches L s0 (State.tickEdge s subst) := by
  refine Touches.step ?_ hL h
  unfold State.tickEdge
  try dsimp only
  with_reducible repeat' first
    | exact Touches.refl _ _
    | assumption
    | exact Nat.le_refl _
    | exact Nat.le_add_right _ _
    | exact id
    | refine Touches.forEach ?_ (fun _ _ _ => ?_)
    | (apply State.transmit_touches; on_goal 1 => decide)
    | (apply State.beginFrame_touches; on_goal 1 => decide)
    | (apply State.closeFrame_touches; on_goal 1 => decide)
    | apply Touches.updFrame
    | (intro p hp; cases p <;> first | exact absurd hp (by decide) | (simp only [Part.sameT, Part.sameF, Part.sameO, Tenant.cleared, Tenant.discardFrame, Tenant.startFrame, Tenant.turn, Tenant.reset, and_self]; done))
    | split

theorem State.timerTick_touches {L : List Part} {s0 : State} (s : State) (hL : Within [.now, .draws, .regs, .shadow, .dirty, .cfgA, .cfgB, .attn, .tick, .passed, .running, .safe, .frame, .tState, .tWorld, .tSearch, .tTable, .tSolver, .tSel, .tSched, .tOut, .tSpoor, .tQueues, .tCmds, .tDone, .tRings, .engines, .bears, .jays, .fronts, .cores, .dram, .links, .cascade, .lynx, .clock, .power] L) (h : Touches L s0 s) :
    Touches L s0 (State.timerTick s) := by
  refine Touches.step ?_ hL h
  unfold State.timerTick
  try dsimp only
  with_reducible repeat' first
    | exact Touches.refl _ _
    | assumption
    | exact Nat.le_refl _
    | exact Nat.le_add_right _ _
    | exact id
    | (apply State.closeFrame_touches; on_goal 1 => decide)
    | (apply State.tickEdge_touches; on_goal 1 => decide)
    | (apply State.advanceTo_touches; on_goal 1 => decide)
    | split

theorem State.countEarly_touches {L : List Part} {s0 : State} (s : State) (hL : Within [.regs] L) (h : Touches L s0 s) :
    Touches L s0 (State.countEarly s) := by
  refine Touches.step ?_ hL h
  unfold State.countEarly
  try dsimp only
  with_reducible repeat' first
    | exact Touches.refl _ _
    | assumption
    | exact Nat.le_refl _
    | exact Nat.le_add_right _ _
    | exact id
    | (apply State.setLive_touches; on_goal 1 => decide)
    | split

theorem State.useResync_touches {L : List Part} {s0 : State} (s : State) (T : Nat) (hL : Within [.running] L) (h : Touches L s0 s) :
    Touches L s0 (State.useResync s T) := by
  refine Touches.step ?_ hL h
  unfold State.useResync
  try dsimp only
  with_reducible repeat' first
    | exact Touches.refl _ _
    | assumption
    | exact Nat.le_refl _
    | exact Nat.le_add_right _ _
    | exact id
    | apply Touches.updFrame
    | (intro p hp; cases p <;> first | exact absurd hp (by decide) | (simp only [Part.sameT, Part.sameF, Part.sameO, Tenant.cleared, Tenant.discardFrame, Tenant.startFrame, Tenant.turn, Tenant.reset, and_self]; done))
    | split

theorem State.ftickIn_touches {L : List Part} {s0 : State} (s : State) (hL : Within [.now, .draws, .regs, .shadow, .dirty, .cfgA, .cfgB, .attn, .tick, .passed, .running, .safe, .frame, .tState, .tWorld, .tSearch, .tTable, .tSolver, .tSel, .tSched, .tOut, .tSpoor, .tQueues, .tCmds, .tDone, .tRings, .engines, .bears, .jays, .fronts, .cores, .dram, .links, .cascade, .lynx, .clock, .power] L) (h : Touches L s0 s) :
    Touches L s0 (State.ftickIn s) := by
  refine Touches.step ?_ hL h
  unfold State.ftickIn
  try dsimp only
  with_reducible repeat' first
    | exact Touches.refl _ _
    | assumption
    | exact Nat.le_refl _
    | exact Nat.le_add_right _ _
    | exact id
    | (apply State.tickEdge_touches; on_goal 1 => decide)
    | (apply State.useResync_touches; on_goal 1 => decide)
    | (apply State.countEarly_touches; on_goal 1 => decide)
    | split

theorem State.declareLost_touches {L : List Part} {s0 : State} (s : State) (hL : Within [.draws, .regs, .attn, .safe, .frame, .tState, .tSearch, .tSolver, .tSel, .tSched, .tOut, .bears, .jays, .cores, .dram, .cascade, .lynx] L) (h : Touches L s0 s) :
    Touches L s0 (State.declareLost s) := by
  refine Touches.step ?_ hL h
  unfold State.declareLost
  try dsimp only
  with_reducible repeat' first
    | exact Touches.refl _ _
    | assumption
    | exact Nat.le_refl _
    | exact Nat.le_add_right _ _
    | exact id
    | (apply State.updCascade_touches; on_goal 1 => decide)
    | refine Touches.forEach ?_ (fun _ _ _ => ?_)
    | (apply State.failRun_touches; on_goal 1 => decide)
    | apply Touches.updFrame
    | (intro p hp; cases p <;> first | exact absurd hp (by decide) | (simp only [Part.sameT, Part.sameF, Part.sameO, Tenant.cleared, Tenant.discardFrame, Tenant.startFrame, Tenant.turn, Tenant.reset, and_self]; done))
    | split

theorem State.substituteTick_touches {L : List Part} {s0 : State} (s : State) (hL : Within [.now, .draws, .regs, .shadow, .dirty, .cfgA, .cfgB, .attn, .tick, .passed, .running, .safe, .frame, .tState, .tWorld, .tSearch, .tTable, .tSolver, .tSel, .tSched, .tOut, .tSpoor, .tQueues, .tCmds, .tDone, .tRings, .engines, .bears, .jays, .fronts, .cores, .dram, .links, .cascade, .lynx, .clock, .power] L) (h : Touches L s0 s) :
    Touches L s0 (State.substituteTick s) := by
  refine Touches.step ?_ hL h
  unfold State.substituteTick
  try dsimp only
  with_reducible repeat' first
    | exact Touches.refl _ _
    | assumption
    | exact Nat.le_refl _
    | exact Nat.le_add_right _ _
    | exact id
    | (apply State.closeFrame_touches; on_goal 1 => decide)
    | (apply State.advanceTo_touches; on_goal 1 => decide)
    | (apply State.raise_touches; on_goal 1 => decide)
    | (apply State.setLive_touches; on_goal 1 => decide)
    | (apply State.declareLost_touches; on_goal 1 => decide)
    | (apply State.tickEdge_touches; on_goal 1 => decide)
    | split

theorem State.alignedBoundary_touches {L : List Part} {s0 : State} (s : State) (hL : Within [.now, .draws, .regs, .shadow, .dirty, .cfgA, .cfgB, .attn, .tick, .passed, .running, .safe, .frame, .tState, .tWorld, .tSearch, .tTable, .tSolver, .tSel, .tSched, .tOut, .tSpoor, .tQueues, .tCmds, .tDone, .tRings, .engines, .bears, .jays, .fronts, .cores, .dram, .links, .cascade, .lynx, .clock, .power] L) (h : Touches L s0 s) :
    Touches L s0 (State.alignedBoundary s) := by
  refine Touches.step ?_ hL h
  unfold State.alignedBoundary
  try dsimp only
  with_reducible repeat' first
    | exact Touches.refl _ _
    | assumption
    | exact Nat.le_refl _
    | exact Nat.le_add_right _ _
    | exact id
    | (apply State.beginFrame_touches; on_goal 1 => decide)
    | (apply State.advanceTo_touches; on_goal 1 => decide)
    | (apply State.closeFrame_touches; on_goal 1 => decide)
    | split

theorem State.ftickOutFall_touches {L : List Part} {s0 : State} (s : State) (hL : Within [.now, .draws, .regs, .attn, .safe, .frame, .tSearch, .tSolver, .tSel, .tSched, .tOut, .bears, .jays, .cores, .dram, .cascade] L) (h : Touches L s0 s) :
    Touches L s0 (State.ftickOutFall s) := by
  refine Touches.step ?_ hL h
  unfold State.ftickOutFall
  try dsimp only
  with_reducible repeat' first
    | exact Touches.refl _ _
    | assumption
    | exact Nat.le_refl _
    | exact Nat.le_add_right _ _
    | exact id
    | (apply State.advanceTo_touches; on_goal 1 => decide)
    | apply Touches.updFrame
    | (intro p hp; cases p <;> first | exact absurd hp (by decide) | (simp only [Part.sameT, Part.sameF, Part.sameO, Tenant.cleared, Tenant.discardFrame, Tenant.startFrame, Tenant.turn, Tenant.reset, and_self]; done))
    | split

theorem State.setRunning_touches {L : List Part} {s0 : State} (s : State) (on : Bool) (hL : Within [.tick, .running, .frame, .cascade, .lynx] L) (h : Touches L s0 s) :
    Touches L s0 (s.setRunning on) := by
  refine Touches.step ?_ hL h
  unfold State.setRunning
  try dsimp only
  with_reducible repeat' first
    | exact Touches.refl _ _
    | assumption
    | exact Nat.le_refl _
    | exact Nat.le_add_right _ _
    | exact id
    | (apply State.updCascade_touches; on_goal 1 => decide)
    | (apply State.updLynx_touches; on_goal 1 => decide)
    | (apply State.updLynx_touches; on_goal 1 => decide)
    | (apply State.updCascade_touches; on_goal 1 => decide)
    | apply Touches.updFrame
    | (intro p hp; cases p <;> first | exact absurd hp (by decide) | (simp only [Part.sameT, Part.sameF, Part.sameO, Tenant.cleared, Tenant.discardFrame, Tenant.startFrame, Tenant.turn, Tenant.reset, and_self]; done))
    | split

theorem State.armResync_touches {L : List Part} {s0 : State} (s : State) (hL : Within [.running] L) (h : Touches L s0 s) :
    Touches L s0 (State.armResync s) := by
  refine Touches.step ?_ hL h
  unfold State.armResync
  try dsimp only
  with_reducible repeat' first
    | exact Touches.refl _ _
    | assumption
    | exact Nat.le_refl _
    | exact Nat.le_add_right _ _
    | exact id
    | apply Touches.updFrame
    | (intro p hp; cases p <;> first | exact absurd hp (by decide) | (simp only [Part.sameT, Part.sameF, Part.sameO, Tenant.cleared, Tenant.discardFrame, Tenant.startFrame, Tenant.turn, Tenant.reset, and_self]; done))
    | split

theorem State.endLastFrame_touches {L : List Part} {s0 : State} (s : State) (hL : Within [.now, .draws, .regs, .shadow, .dirty, .cfgA, .cfgB, .attn, .tick, .passed, .safe, .frame, .tState, .tWorld, .tSearch, .tTable, .tSolver, .tSel, .tSched, .tOut, .tSpoor, .tQueues, .tCmds, .tDone, .tRings, .engines, .bears, .jays, .fronts, .cores, .dram, .links, .cascade, .lynx, .clock, .power] L) (h : Touches L s0 s) :
    Touches L s0 (State.endLastFrame s) := by
  refine Touches.step ?_ hL h
  unfold State.endLastFrame
  try dsimp only
  with_reducible repeat' first
    | exact Touches.refl _ _
    | assumption
    | exact Nat.le_refl _
    | exact Nat.le_add_right _ _
    | exact id
    | (apply State.closeFrame_touches; on_goal 1 => decide)
    | (apply State.advanceTo_touches; on_goal 1 => decide)
    | (apply State.turnTenants_touches; on_goal 1 => decide)
    | (apply State.finishSets_touches; on_goal 1 => decide)
    | apply Touches.updFrame
    | (intro p hp; cases p <;> first | exact absurd hp (by decide) | (simp only [Part.sameT, Part.sameF, Part.sameO, Tenant.cleared, Tenant.discardFrame, Tenant.startFrame, Tenant.turn, Tenant.reset, and_self]; done))
    | split

theorem State.releaseSafe_touches {L : List Part} {s0 : State} (s : State) (hL : Within [.regs, .attn, .safe] L) (h : Touches L s0 s) :
    Touches L s0 (State.releaseSafe s) := by
  refine Touches.step ?_ hL h
  unfold State.releaseSafe
  try dsimp only
  with_reducible repeat' first
    | exact Touches.refl _ _
    | assumption
    | exact Nat.le_refl _
    | exact Nat.le_add_right _ _
    | exact id
    | (apply State.raise_touches; on_goal 1 => decide)
    | (apply State.setLive_touches; on_goal 1 => decide)
    | apply Touches.updFrame
    | (intro p hp; cases p <;> first | exact absurd hp (by decide) | (simp only [Part.sameT, Part.sameF, Part.sameO, Tenant.cleared, Tenant.discardFrame, Tenant.startFrame, Tenant.turn, Tenant.reset, and_self]; done))
    | split

theorem State.raiseUnits_touches {L : List Part} {s0 : State} (s : State) (hL : Within [.engines, .bears, .jays, .fronts, .cores] L) (h : Touches L s0 s) :
    Touches L s0 (s.raiseUnits) := by
  refine Touches.step ?_ hL h
  unfold State.raiseUnits
  try dsimp only
  with_reducible repeat' first
    | exact Touches.refl _ _
    | assumption
    | exact Nat.le_refl _
    | exact Nat.le_add_right _ _
    | exact id
    | (apply State.updView_touches; on_goal 1 => decide)
    | refine Touches.forEach ?_ (fun _ _ _ => ?_)
    | split

theorem State.resetUnits_touches {L : List Part} {s0 : State} (s : State) (hL : Within [.engines, .bears, .jays, .fronts, .cores] L) (h : Touches L s0 s) :
    Touches L s0 (State.resetUnits s) := by
  refine Touches.step ?_ hL h
  unfold State.resetUnits
  try dsimp only
  with_reducible repeat' first
    | exact Touches.refl _ _
    | assumption
    | exact Nat.le_refl _
    | exact Nat.le_add_right _ _
    | exact id
    | split
    | (apply Touches.set_engines_bears_jays_fronts_cores; on_goal 1 => decide)

theorem State.clearPackage_touches {L : List Part} {s0 : State} (s : State) (cause : Nat) (hL : Within [.regs, .shadow, .dirty, .cfgA, .cfgB, .setOrder, .attn, .tick, .passed, .running, .safe, .frame, .tState, .tWorld, .tSearch, .tTable, .tSolver, .tSel, .tSched, .tOut, .tSpoor, .tQueues, .tCmds, .tDone, .tRings, .engines, .bears, .jays, .fronts, .cores, .slotsPeak, .dram, .links, .cascade, .lynx, .clock, .power, .fault, .boxes, .firmware, .board, .identity, .log, .owl] L)
    (h : Touches L s0 s) : Touches L s0 (s.clearPackage cause) := by
  refine Touches.step ?_ hL h
  unfold State.clearPackage
  dsimp only
  apply State.resetUnits_touches; on_goal 1 => decide
  intro p
  refine ⟨fun hp => ?_, ?_⟩
  · cases p <;> first | exact absurd hp (by decide) | exact ⟨rfl, fun _ => trivial, trivial, trivial⟩
  · cases p <;> first
      | trivial | exact Nat.le_refl _ | exact id | exact fun _ => List.Pairwise.nil | exact fun h => List.Pairwise.filter _ h
      | exact fun _ => Dram.ok_reset | exact fun _ => Nat.le_of_ble_eq_true rfl

theorem State.endTrial_touches {L : List Part} {s0 : State} (s : State) (hL : Within [.attn, .power, .firmware, .log] L) (h : Touches L s0 s) :
    Touches L s0 (State.endTrial s) := by
  refine Touches.step ?_ hL h
  unfold State.endTrial
  try dsimp only
  with_reducible repeat' first
    | exact Touches.refl _ _
    | assumption
    | exact Nat.le_refl _
    | exact Nat.le_add_right _ _
    | exact id
    | (apply State.updPower_touches; on_goal 1 => decide)
    | (apply State.logEvent_touches; on_goal 1 => decide)
    | apply Touches.updOwl
    | (intro p hp; cases p <;> first | exact absurd hp (by decide) | (simp only [Part.sameT, Part.sameF, Part.sameO, Tenant.cleared, Tenant.discardFrame, Tenant.startFrame, Tenant.turn, Tenant.reset, and_self]; done))
    | split

theorem State.startBoot_touches {L : List Part} {s0 : State} (s : State) (hL : Within [.attn, .cascade, .power, .firmware, .log, .owl] L) (h : Touches L s0 s) :
    Touches L s0 (State.startBoot s) := by
  refine Touches.step ?_ hL h
  unfold State.startBoot
  try dsimp only
  with_reducible repeat' first
    | exact Touches.refl _ _
    | assumption
    | exact Nat.le_refl _
    | exact Nat.le_add_right _ _
    | exact id
    | exact fun _ => Nat.le_of_ble_eq_true rfl
    | (apply State.updPower_touches; on_goal 1 => decide)
    | (apply State.updCascade_touches; on_goal 1 => decide)
    | (apply State.bumpCounter_touches; on_goal 1 => decide)
    | (apply State.logEvent_touches; on_goal 1 => decide)
    | (apply State.endTrial_touches; on_goal 1 => decide)
    | split

theorem State.clearPackage_rollback (s : State) (cause : Nat) : (s.clearPackage cause).owl.rollback = s.owl.rollback := by
  have h : ∀ u : State, u.resetUnits.owl = u.owl := fun u =>
    rfl
  unfold State.clearPackage
  dsimp only
  rw [h]
  rfl

theorem State.packageReset_touches {L : List Part} {s0 : State} (s : State) (cause : Nat) (hL : Within [.regs, .shadow, .dirty, .cfgA, .cfgB, .setOrder, .attn, .tick, .passed, .running, .safe, .frame, .tState, .tWorld, .tSearch, .tTable, .tSolver, .tSel, .tSched, .tOut, .tSpoor, .tQueues, .tCmds, .tDone, .tRings, .engines, .bears, .jays, .fronts, .cores, .slotsPeak, .dram, .links, .cascade, .lynx, .clock, .power, .fault, .boxes, .firmware, .board, .identity, .log, .owl] L) (h : Touches L s0 s) :
    Touches L s0 (State.packageReset s cause) := by
  refine Touches.step ?_ hL h
  unfold State.packageReset
  try dsimp only
  with_reducible repeat' first
    | exact Touches.refl _ _
    | assumption
    | exact Nat.le_refl _
    | exact Nat.le_add_right _ _
    | exact id
    | (apply State.addCause_touches; on_goal 1 => decide)
    | (apply State.clearPackage_touches; on_goal 1 => decide)
    | split

theorem State.pkgRst_touches {L : List Part} {s0 : State} (s : State) (w : Writer) (hL : Within [.regs, .shadow, .dirty, .cfgA, .cfgB, .setOrder, .attn, .tick, .passed, .running, .safe, .frame, .tState, .tWorld, .tSearch, .tTable, .tSolver, .tSel, .tSched, .tOut, .tSpoor, .tQueues, .tCmds, .tDone, .tRings, .engines, .bears, .jays, .fronts, .cores, .slotsPeak, .dram, .links, .cascade, .lynx, .clock, .power, .fault, .boxes, .firmware, .board, .identity, .log, .owl] L) (h : Touches L s0 s) :
    Touches L s0 (State.pkgRst s w) := by
  refine Touches.step ?_ hL h
  unfold State.pkgRst
  try dsimp only
  with_reducible repeat' first
    | exact Touches.refl _ _
    | assumption
    | exact Nat.le_refl _
    | exact Nat.le_add_right _ _
    | exact id
    | (apply State.startBoot_touches; on_goal 1 => decide)
    | (apply State.packageReset_touches; on_goal 1 => decide)
    | (apply State.refuseWrite_touches; on_goal 1 => decide)
    | split

theorem State.powerFalls_touches {L : List Part} {s0 : State} (s : State) (hL : Within [.regs, .shadow, .dirty, .cfgA, .cfgB, .setOrder, .attn, .tick, .passed, .running, .safe, .frame, .tState, .tWorld, .tSearch, .tTable, .tSolver, .tSel, .tSched, .tOut, .tSpoor, .tQueues, .tCmds, .tDone, .tRings, .engines, .bears, .jays, .fronts, .cores, .slotsPeak, .dram, .links, .cascade, .lynx, .clock, .power, .fault, .boxes, .firmware, .board, .identity, .log, .owl] L) (h : Touches L s0 s) :
    Touches L s0 (State.powerFalls s) := by
  refine Touches.step ?_ hL h
  unfold State.powerFalls
  try dsimp only
  with_reducible repeat' first
    | exact Touches.refl _ _
    | assumption
    | exact Nat.le_refl _
    | exact Nat.le_add_right _ _
    | exact id
    | (apply State.updPower_touches; on_goal 1 => decide)
    | (apply State.packageReset_touches; on_goal 1 => decide)
    | split

theorem State.powerRises_touches {L : List Part} {s0 : State} (s : State) (hL : Within [.attn, .cascade, .power, .firmware, .log, .owl] L) (h : Touches L s0 s) :
    Touches L s0 (State.powerRises s) := by
  refine Touches.step ?_ hL h
  unfold State.powerRises
  try dsimp only
  with_reducible repeat' first
    | exact Touches.refl _ _
    | assumption
    | exact Nat.le_refl _
    | exact Nat.le_add_right _ _
    | exact id
    | (apply State.startBoot_touches; on_goal 1 => decide)
    | (apply State.updPower_touches; on_goal 1 => decide)
    | split

theorem State.sysResetLow_touches {L : List Part} {s0 : State} (s : State) (us : Nat) (hL : Within [.regs, .shadow, .dirty, .cfgA, .cfgB, .setOrder, .attn, .tick, .passed, .running, .safe, .frame, .tState, .tWorld, .tSearch, .tTable, .tSolver, .tSel, .tSched, .tOut, .tSpoor, .tQueues, .tCmds, .tDone, .tRings, .engines, .bears, .jays, .fronts, .cores, .slotsPeak, .dram, .links, .cascade, .lynx, .clock, .power, .fault, .boxes, .firmware, .board, .identity, .log, .owl] L) (h : Touches L s0 s) :
    Touches L s0 (State.sysResetLow s us) := by
  refine Touches.step ?_ hL h
  unfold State.sysResetLow
  try dsimp only
  with_reducible repeat' first
    | exact Touches.refl _ _
    | assumption
    | exact Nat.le_refl _
    | exact Nat.le_add_right _ _
    | exact id
    | (apply State.updPower_touches; on_goal 1 => decide)
    | (apply State.packageReset_touches; on_goal 1 => decide)
    | split

theorem State.sysResetRises_touches {L : List Part} {s0 : State} (s : State) (hL : Within [.attn, .cascade, .power, .firmware, .log, .owl] L) (h : Touches L s0 s) :
    Touches L s0 (State.sysResetRises s) := by
  refine Touches.step ?_ hL h
  unfold State.sysResetRises
  try dsimp only
  with_reducible repeat' first
    | exact Touches.refl _ _
    | assumption
    | exact Nat.le_refl _
    | exact Nat.le_add_right _ _
    | exact id
    | (apply State.startBoot_touches; on_goal 1 => decide)
    | (apply State.updPower_touches; on_goal 1 => decide)
    | split

theorem State.coldReset_touches {L : List Part} {s0 : State} (s : State) (hL : Within [.regs, .shadow, .dirty, .cfgA, .cfgB, .setOrder, .attn, .tick, .passed, .running, .safe, .frame, .tState, .tWorld, .tSearch, .tTable, .tSolver, .tSel, .tSched, .tOut, .tSpoor, .tQueues, .tCmds, .tDone, .tRings, .engines, .bears, .jays, .fronts, .cores, .slotsPeak, .dram, .links, .cascade, .lynx, .clock, .power, .fault, .boxes, .firmware, .board, .identity, .log, .owl, .cal] L) (h : Touches L s0 s) :
    Touches L s0 s.coldReset := by
  refine Touches.step ?_ hL h
  unfold State.coldReset
  dsimp only
  apply State.startBoot_touches; on_goal 1 => decide
  apply State.bumpCounter_touches; on_goal 1 => decide
  apply State.resetUnits_touches; on_goal 1 => decide
  apply Touches.set_cascade; on_goal 1 => decide
  refine Touches.updFrame _ _ ?_ (fun p hp => by cases p <;> first | exact absurd hp (by decide) | trivial) id
  have h1 := State.clearPackage_touches (L := [.regs, .shadow, .dirty, .cfgA, .cfgB, .setOrder, .attn, .tick, .passed, .running, .safe, .frame, .tState, .tWorld, .tSearch, .tTable, .tSolver, .tSel, .tSched, .tOut, .tSpoor, .tQueues, .tCmds, .tDone, .tRings, .engines, .bears, .jays, .fronts, .cores, .slotsPeak, .dram, .links, .cascade, .lynx, .clock, .power, .fault, .boxes, .firmware, .board, .identity, .log, .owl, .cal]) s 0 (by decide) (Touches.refl _ s)
  intro p
  refine ⟨fun hp => ?_, ?_⟩
  · have := (h1 p).1 hp
    cases p <;> first | exact absurd hp (by decide) | exact ⟨this.1, fun _ => trivial, trivial, trivial⟩
  · have := (h1 p).2
    cases p <;> first
      | exact this | exact Nat.le_refl _ | exact fun _ => Calendar.legal_reset | exact fun _ => List.Pairwise.nil

theorem State.owlWatchdog_touches {L : List Part} {s0 : State} (s : State) (hL : Within [.attn, .power, .boxes, .firmware, .log] L) (h : Touches L s0 s) :
    Touches L s0 (State.owlWatchdog s) := by
  refine Touches.step ?_ hL h
  unfold State.owlWatchdog
  try dsimp only
  with_reducible repeat' first
    | exact Touches.refl _ _
    | assumption
    | exact Nat.le_refl _
    | exact Nat.le_add_right _ _
    | exact id
    | (apply State.owlDomainReset_touches; on_goal 1 => decide)
    | split

theorem State.logBoot_touches {L : List Part} {s0 : State} (s : State) (hL : Within [.attn, .log] L) (h : Touches L s0 s) :
    Touches L s0 (State.logBoot s) := by
  refine Touches.step ?_ hL h
  unfold State.logBoot
  try dsimp only
  with_reducible repeat' first
    | exact Touches.refl _ _
    | assumption
    | exact Nat.le_refl _
    | exact Nat.le_add_right _ _
    | exact id
    | (apply State.logEvent_touches; on_goal 1 => decide)
    | split

theorem State.enterRecovery_touches {L : List Part} {s0 : State} (s : State) (code : Byte) (hL : Within [.attn, .power, .log] L) (h : Touches L s0 s) :
    Touches L s0 (State.enterRecovery s code) := by
  refine Touches.step ?_ hL h
  unfold State.enterRecovery
  try dsimp only
  with_reducible repeat' first
    | exact Touches.refl _ _
    | assumption
    | exact Nat.le_refl _
    | exact Nat.le_add_right _ _
    | exact id
    | exact fun _ => Nat.le_of_ble_eq_true rfl
    | (apply State.logBoot_touches; on_goal 1 => decide)
    | (apply State.updPower_touches; on_goal 1 => decide)
    | split

theorem State.runBank_touches {L : List Part} {s0 : State} (s : State) (b fallback : Bool) (hL : Within [.power, .firmware] L) (h : Touches L s0 s) :
    Touches L s0 (State.runBank s b fallback) := by
  refine Touches.step ?_ hL h
  unfold State.runBank
  try dsimp only
  with_reducible repeat' first
    | exact Touches.refl _ _
    | assumption
    | exact Nat.le_refl _
    | exact Nat.le_add_right _ _
    | exact id
    | exact fun _ => Nat.le_of_ble_eq_true rfl
    | (apply State.updPower_touches; on_goal 1 => decide)
    | apply Touches.updOwl
    | (intro p hp; cases p <;> first | exact absurd hp (by decide) | (simp only [Part.sameT, Part.sameF, Part.sameO, Tenant.cleared, Tenant.discardFrame, Tenant.startFrame, Tenant.turn, Tenant.reset, and_self]; done))
    | split

theorem State.bootRom_touches {L : List Part} {s0 : State} (s : State) (hL : Within [.attn, .power, .firmware, .log] L) (h : Touches L s0 s) :
    Touches L s0 (State.bootRom s) := by
  refine Touches.step ?_ hL h
  unfold State.bootRom
  try dsimp only
  with_reducible repeat' first
    | exact Touches.refl _ _
    | assumption
    | exact Nat.le_refl _
    | exact Nat.le_add_right _ _
    | exact id
    | exact fun _ => Nat.le_of_ble_eq_true rfl
    | (apply State.logBoot_touches; on_goal 1 => decide)
    | (apply State.updPower_touches; on_goal 1 => decide)
    | (apply State.runBank_touches; on_goal 1 => decide)
    | (apply State.enterRecovery_touches; on_goal 1 => decide)
    | apply Touches.updOwl
    | (intro p hp; cases p <;> first | exact absurd hp (by decide) | (simp only [Part.sameT, Part.sameF, Part.sameO, Tenant.cleared, Tenant.discardFrame, Tenant.startFrame, Tenant.turn, Tenant.reset, and_self]; done))
    | split

theorem State.bootClocks_touches {L : List Part} {s0 : State} (s : State) (hL : Within [.regs, .shadow, .power, .board] L) (h : Touches L s0 s) :
    Touches L s0 (State.bootClocks s) := by
  refine Touches.step ?_ hL h
  unfold State.bootClocks
  try dsimp only
  with_reducible repeat' first
    | exact Touches.refl _ _
    | assumption
    | exact Nat.le_refl _
    | exact Nat.le_add_right _ _
    | exact id
    | exact fun _ => Nat.le_of_ble_eq_true rfl
    | (apply State.setLive_touches; on_goal 1 => decide)
    | (apply State.setShadow_touches; on_goal 1 => decide)
    | (apply State.updPower_touches; on_goal 1 => decide)
    | apply Touches.updOwl
    | (intro p hp; cases p <;> first | exact absurd hp (by decide) | (simp only [Part.sameT, Part.sameF, Part.sameO, Tenant.cleared, Tenant.discardFrame, Tenant.startFrame, Tenant.turn, Tenant.reset, and_self]; done))
    | split

theorem State.bootNext_touches {L : List Part} {s0 : State} (s : State) (hL : Within [.regs, .shadow, .attn, .engines, .bears, .jays, .fronts, .cores, .dram, .power, .firmware, .board, .log] L) (h : Touches L s0 s) :
    Touches L s0 (s.bootNext) := by
  refine Touches.step ?_ hL h
  unfold State.bootNext
  try dsimp only
  with_reducible repeat' first
    | exact Touches.refl _ _
    | assumption
    | exact Nat.le_refl _
    | exact Nat.le_add_right _ _
    | exact id
    | exact fun _ => Dram.ok_reset
    | exact fun _ => Nat.le_of_ble_eq_true rfl
    | (apply State.bootRom_touches; on_goal 1 => decide)
    | (apply State.bootClocks_touches; on_goal 1 => decide)
    | (apply State.updPower_touches; on_goal 1 => decide)
    | (apply State.updDram_touches; on_goal 1 => decide)
    | (apply State.raiseUnits_touches; on_goal 1 => decide)
    | (apply State.logBoot_touches; on_goal 1 => decide)
    | (apply State.updPower_touches; on_goal 1 => decide)
    | (apply State.updDram_touches; on_goal 1 => decide)
    | split

theorem State.bootFails_touches {L : List Part} {s0 : State} (s : State) (hL : Within [.draws, .attn, .power, .log] L) (h : Touches L s0 s) :
    Touches L s0 (State.bootFails s) := by
  refine Touches.step ?_ hL h
  unfold State.bootFails
  try dsimp only
  with_reducible repeat' first
    | exact Touches.refl _ _
    | assumption
    | exact Nat.le_refl _
    | exact Nat.le_add_right _ _
    | exact id
    | (apply State.enterRecovery_touches; on_goal 1 => decide)
    | (apply State.updPower_touches; on_goal 1 => decide)
    | (apply State.draw_touches; on_goal 1 => decide)
    | split

theorem State.endBootStage_touches {L : List Part} {s0 : State} (s : State) (o : StageOutcome) (hL : Within [.draws, .regs, .shadow, .attn, .engines, .bears, .jays, .fronts, .cores, .dram, .power, .firmware, .board, .log] L) (h : Touches L s0 s) :
    Touches L s0 (State.endBootStage s o) := by
  refine Touches.step ?_ hL h
  unfold State.endBootStage
  try dsimp only
  with_reducible repeat' first
    | exact Touches.refl _ _
    | assumption
    | exact Nat.le_refl _
    | exact Nat.le_add_right _ _
    | exact id
    | (apply State.bootNext_touches; on_goal 1 => decide)
    | (apply State.enterRecovery_touches; on_goal 1 => decide)
    | (apply State.bootFails_touches; on_goal 1 => decide)
    | split

theorem State.portReady_touches {L : List Part} {s0 : State} (s : State) (p : Port) (hL : Within [.draws, .cfgA, .cfgB] L) (h : Touches L s0 s) :
    Touches L s0 (s.portReady p) := by
  refine Touches.step ?_ hL h
  unfold State.portReady
  try dsimp only
  with_reducible repeat' first
    | exact Touches.refl _ _
    | assumption
    | exact Nat.le_refl _
    | exact Nat.le_add_right _ _
    | exact id
    | (apply State.draw_touches; on_goal 1 => decide)
    | (apply State.updCfg_touches; on_goal 1 => decide)
    | (apply State.updCfg_touches; on_goal 1 => decide)
    | (apply State.draw_touches; on_goal 1 => decide)
    | split

theorem State.dropQueue_touches {L : List Part} {s0 : State} (s : State) (t : Fin 16) (q : Fin 8) (hL : Within [.regs, .shadow, .dirty, .attn, .tQueues] L) (h : Touches L s0 s) :
    Touches L s0 (State.dropQueue s t q) := by
  refine Touches.step ?_ hL h
  unfold State.dropQueue
  try dsimp only
  with_reducible repeat' first
    | exact Touches.refl _ _
    | assumption
    | exact Nat.le_refl _
    | exact Nat.le_add_right _ _
    | exact id
    | (apply State.reapQueue_touches; on_goal 1 => decide)
    | (apply State.updQueue_touches; on_goal 1 => decide)
    | split

theorem State.portLost_touches {L : List Part} {s0 : State} (s : State) (t : Fin 16) (hL : Within [.regs, .shadow, .dirty, .attn, .frame, .tState, .tWorld, .tSearch, .tTable, .tSolver, .tSel, .tSched, .tOut, .tSpoor, .tQueues, .tCmds, .tDone, .engines, .bears, .jays, .cores, .cascade] L) (h : Touches L s0 s) :
    Touches L s0 (State.portLost s t) := by
  refine Touches.step ?_ hL h
  unfold State.portLost
  try dsimp only
  with_reducible repeat' first
    | exact Touches.refl _ _
    | assumption
    | exact Nat.le_refl _
    | exact Nat.le_add_right _ _
    | exact id
    | exact fun p hp => Tenant.undeliver_same p (fun e => by subst e; exact absurd hp (by decide)) _
    | refine Touches.forEach ?_ (fun _ _ _ => ?_)
    | (apply State.dropQueue_touches; on_goal 1 => decide)
    | (apply State.requestHold_touches; on_goal 1 => decide)
    | apply Touches.updTenant
    | (intro p hp; cases p <;> first | exact absurd hp (by decide) | (simp only [Part.sameT, Part.sameF, Part.sameO, Tenant.cleared, Tenant.discardFrame, Tenant.startFrame, Tenant.turn, Tenant.reset, and_self]; done))
    | split

theorem State.portReset_touches {L : List Part} {s0 : State} (s : State) (p : Port) (c : PortResetCause) (hL : Within [.regs, .shadow, .dirty, .cfgA, .cfgB, .attn, .frame, .tState, .tWorld, .tSearch, .tTable, .tSolver, .tSel, .tSched, .tOut, .tSpoor, .tQueues, .tCmds, .tDone, .engines, .bears, .jays, .cores, .cascade, .power] L) (h : Touches L s0 s) :
    Touches L s0 (s.portReset p c) := by
  refine Touches.step ?_ hL h
  unfold State.portReset
  try dsimp only
  with_reducible repeat' first
    | exact Touches.refl _ _
    | assumption
    | exact Nat.le_refl _
    | exact Nat.le_add_right _ _
    | exact id
    | (apply State.addCause_touches; on_goal 1 => decide)
    | (apply State.updCfg_touches; on_goal 1 => decide)
    | (apply State.resetRegs_touches; on_goal 1 => decide)
    | (apply State.setLive_touches; on_goal 1 => decide)
    | (apply State.portLost_touches; on_goal 1 => decide)
    | refine Touches.forTenants ?_ (fun _ _ _ => ?_)
    | (apply State.updCfg_touches; on_goal 1 => decide)
    | split

theorem State.judgeAlert_touches {L : List Part} {s0 : State} (s : State) (hL : Within [.attn, .power, .log, .owl] L) (h : Touches L s0 s) :
    Touches L s0 (State.judgeAlert s) := by
  refine Touches.step ?_ hL h
  unfold State.judgeAlert
  try dsimp only
  with_reducible repeat' first
    | exact Touches.refl _ _
    | assumption
    | exact Nat.le_refl _
    | exact Nat.le_add_right _ _
    | exact id
    | (apply State.logEvent_touches; on_goal 1 => decide)
    | (apply State.updPower_touches; on_goal 1 => decide)
    | apply Touches.updOwl
    | (intro p hp; cases p <;> first | exact absurd hp (by decide) | (simp only [Part.sameT, Part.sameF, Part.sameO, Tenant.cleared, Tenant.discardFrame, Tenant.startFrame, Tenant.turn, Tenant.reset, and_self]; done))
    | split

theorem State.logHeat_touches {L : List Part} {s0 : State} (s : State) (event severity : Nat) (hL : Within [.attn, .log] L) (h : Touches L s0 s) :
    Touches L s0 (State.logHeat s event severity) := by
  refine Touches.step ?_ hL h
  unfold State.logHeat
  try dsimp only
  with_reducible repeat' first
    | exact Touches.refl _ _
    | assumption
    | exact Nat.le_refl _
    | exact Nat.le_add_right _ _
    | exact id
    | (apply State.logEvent_touches; on_goal 1 => decide)
    | split

theorem State.slowDown_touches {L : List Part} {s0 : State} (s : State) (hL : Within [.frame, .clock, .power] L) (h : Touches L s0 s) :
    Touches L s0 (State.slowDown s) := by
  refine Touches.step ?_ hL h
  unfold State.slowDown
  try dsimp only
  with_reducible repeat' first
    | exact Touches.refl _ _
    | assumption
    | exact Nat.le_refl _
    | exact Nat.le_add_right _ _
    | exact id
    | (apply State.requestLevel_touches; on_goal 1 => decide)
    | (apply State.updPower_touches; on_goal 1 => decide)
    | apply Touches.updFrame
    | (intro p hp; cases p <;> first | exact absurd hp (by decide) | (simp only [Part.sameT, Part.sameF, Part.sameO, Tenant.cleared, Tenant.discardFrame, Tenant.startFrame, Tenant.turn, Tenant.reset, and_self]; done))
    | split

theorem State.beginThrottle_touches {L : List Part} {s0 : State} (s : State) (hL : Within [.attn, .frame, .clock, .power, .log, .owl] L) (h : Touches L s0 s) :
    Touches L s0 (State.beginThrottle s) := by
  refine Touches.step ?_ hL h
  unfold State.beginThrottle
  try dsimp only
  with_reducible repeat' first
    | exact Touches.refl _ _
    | assumption
    | exact Nat.le_refl _
    | exact Nat.le_add_right _ _
    | exact id
    | (apply State.updPower_touches; on_goal 1 => decide)
    | (apply State.slowDown_touches; on_goal 1 => decide)
    | (apply State.logHeat_touches; on_goal 1 => decide)
    | (apply State.bumpCounter_touches; on_goal 1 => decide)
    | split

theorem State.watchThrottle_touches {L : List Part} {s0 : State} (s : State) (hL : Within [.attn, .frame, .clock, .power, .log, .owl] L) (h : Touches L s0 s) :
    Touches L s0 (State.watchThrottle s) := by
  refine Touches.step ?_ hL h
  unfold State.watchThrottle
  try dsimp only
  with_reducible repeat' first
    | exact Touches.refl _ _
    | assumption
    | exact Nat.le_refl _
    | exact Nat.le_add_right _ _
    | exact id
    | (apply State.updPower_touches; on_goal 1 => decide)
    | (apply State.beginThrottle_touches; on_goal 1 => decide)
    | split

theorem State.watchTrip_touches {L : List Part} {s0 : State} (s : State) (hL : Within [.regs, .shadow, .dirty, .attn, .tWorld, .tQueues, .tCmds, .dram, .fault, .log, .owl] L) (h : Touches L s0 s) :
    Touches L s0 (State.watchTrip s) := by
  refine Touches.step ?_ hL h
  unfold State.watchTrip
  try dsimp only
  with_reducible repeat' first
    | exact Touches.refl _ _
    | assumption
    | exact Nat.le_refl _
    | exact Nat.le_add_right _ _
    | exact id
    | (apply State.logHeat_touches; on_goal 1 => decide)
    | (apply State.bumpCounter_touches; on_goal 1 => decide)
    | (apply State.packageFault_touches; on_goal 1 => decide)
    | (apply State.updDram_touches; on_goal 1 => decide)
    | split

theorem State.tempSample_touches {L : List Part} {s0 : State} (s : State) (js : Bank (BitVec 16) 12) (hL : Within [.regs, .shadow, .dirty, .attn, .frame, .tWorld, .tQueues, .tCmds, .dram, .clock, .power, .fault, .log, .owl] L) (h : Touches L s0 s) :
    Touches L s0 (State.tempSample s js) := by
  refine Touches.step ?_ hL h
  unfold State.tempSample
  try dsimp only
  with_reducible repeat' first
    | exact Touches.refl _ _
    | assumption
    | exact Nat.le_refl _
    | exact Nat.le_add_right _ _
    | exact id
    | (apply State.updPower_touches; on_goal 1 => decide)
    | (apply State.watchTrip_touches; on_goal 1 => decide)
    | (apply State.watchThrottle_touches; on_goal 1 => decide)
    | (apply State.judgeAlert_touches; on_goal 1 => decide)
    | apply Touches.updOwl
    | (intro p hp; cases p <;> first | exact absurd hp (by decide) | (simp only [Part.sameT, Part.sameF, Part.sameO, Tenant.cleared, Tenant.discardFrame, Tenant.startFrame, Tenant.turn, Tenant.reset, and_self]; done))
    | split

theorem State.throttleStep_touches {L : List Part} {s0 : State} (s : State) (hL : Within [.now, .draws, .regs, .attn, .safe, .frame, .tSearch, .tSolver, .tSel, .tSched, .tOut, .bears, .jays, .cores, .dram, .cascade, .clock, .power] L) (h : Touches L s0 s) :
    Touches L s0 (State.throttleStep s) := by
  refine Touches.step ?_ hL h
  unfold State.throttleStep
  try dsimp only
  with_reducible repeat' first
    | exact Touches.refl _ _
    | assumption
    | exact Nat.le_refl _
    | exact Nat.le_add_right _ _
    | exact id
    | (apply State.slowDown_touches; on_goal 1 => decide)
    | (apply State.advanceTo_touches; on_goal 1 => decide)
    | split

theorem State.restoreOne_touches {L : List Part} {s0 : State} (s : State) (hL : Within [.frame, .clock, .power] L) (h : Touches L s0 s) :
    Touches L s0 (State.restoreOne s) := by
  refine Touches.step ?_ hL h
  unfold State.restoreOne
  try dsimp only
  with_reducible repeat' first
    | exact Touches.refl _ _
    | assumption
    | exact Nat.le_refl _
    | exact Nat.le_add_right _ _
    | exact id
    | (apply State.updPower_touches; on_goal 1 => decide)
    | (apply State.requestLevel_touches; on_goal 1 => decide)
    | split

theorem State.throttleEnd_touches {L : List Part} {s0 : State} (s : State) (hL : Within [.now, .draws, .regs, .attn, .safe, .frame, .tSearch, .tSolver, .tSel, .tSched, .tOut, .bears, .jays, .cores, .dram, .cascade, .clock, .power] L) (h : Touches L s0 s) :
    Touches L s0 (State.throttleEnd s) := by
  refine Touches.step ?_ hL h
  unfold State.throttleEnd
  try dsimp only
  with_reducible repeat' first
    | exact Touches.refl _ _
    | assumption
    | exact Nat.le_refl _
    | exact Nat.le_add_right _ _
    | exact id
    | (apply State.advanceTo_touches; on_goal 1 => decide)
    | (apply State.updPower_touches; on_goal 1 => decide)
    | (apply State.restoreOne_touches; on_goal 1 => decide)
    | apply Touches.updFrame
    | (intro p hp; cases p <;> first | exact absurd hp (by decide) | (simp only [Part.sameT, Part.sameF, Part.sameO, Tenant.cleared, Tenant.discardFrame, Tenant.startFrame, Tenant.turn, Tenant.reset, and_self]; done))
    | split

theorem State.restoreStep_touches {L : List Part} {s0 : State} (s : State) (hL : Within [.now, .draws, .regs, .attn, .safe, .frame, .tSearch, .tSolver, .tSel, .tSched, .tOut, .bears, .jays, .cores, .dram, .cascade, .clock, .power] L) (h : Touches L s0 s) :
    Touches L s0 (State.restoreStep s) := by
  refine Touches.step ?_ hL h
  unfold State.restoreStep
  try dsimp only
  with_reducible repeat' first
    | exact Touches.refl _ _
    | assumption
    | exact Nat.le_refl _
    | exact Nat.le_add_right _ _
    | exact id
    | (apply State.restoreOne_touches; on_goal 1 => decide)
    | (apply State.advanceTo_touches; on_goal 1 => decide)
    | (apply State.updPower_touches; on_goal 1 => decide)
    | split

theorem State.dramRefresh_touches {L : List Part} {s0 : State} (s : State) (hL : Within [.now, .draws, .regs, .attn, .safe, .frame, .tSearch, .tSolver, .tSel, .tSched, .tOut, .bears, .jays, .cores, .dram, .cascade] L) (h : Touches L s0 s) :
    Touches L s0 (s.dramRefresh) := by
  refine Touches.step ?_ hL h
  unfold State.dramRefresh
  try dsimp only
  with_reducible repeat' first
    | exact Touches.refl _ _
    | assumption
    | exact Nat.le_refl _
    | exact Nat.le_add_right _ _
    | exact id
    | (apply State.advanceTo_touches; on_goal 1 => decide)
    | apply Touches.updFrame
    | (intro p hp; cases p <;> first | exact absurd hp (by decide) | (simp only [Part.sameT, Part.sameF, Part.sameO, Tenant.cleared, Tenant.discardFrame, Tenant.startFrame, Tenant.turn, Tenant.reset, and_self]; done))
    | split

theorem State.enableLink_touches {L : List Part} {s0 : State} (s : State) (w : Writer) (l : Nat) (on : Bool) (hL : Within [.attn, .links] L) (h : Touches L s0 s) :
    Touches L s0 (State.enableLink s w l on) := by
  refine Touches.step ?_ hL h
  unfold State.enableLink
  try dsimp only
  with_reducible repeat' first
    | exact Touches.refl _ _
    | assumption
    | exact Nat.le_refl _
    | exact Nat.le_add_right _ _
    | exact id
    | (apply State.updLink_touches; on_goal 1 => decide)
    | (apply State.refuseWrite_touches; on_goal 1 => decide)
    | split

theorem State.linkUp_touches {L : List Part} {s0 : State} (s : State) (l : Nat) (peer : BitVec 16) (hL : Within [.links] L) (h : Touches L s0 s) :
    Touches L s0 (s.linkUp l peer) := by
  refine Touches.step ?_ hL h
  unfold State.linkUp
  try dsimp only
  with_reducible repeat' first
    | exact Touches.refl _ _
    | assumption
    | exact Nat.le_refl _
    | exact Nat.le_add_right _ _
    | exact id
    | (apply State.updLink_touches; on_goal 1 => decide)
    | (apply State.sendCal_touches; on_goal 1 => decide)
    | (apply State.updLink_touches; on_goal 1 => decide)
    | split

theorem State.retrainLink_touches {L : List Part} {s0 : State} (s : State) (l : Nat) (hL : Within [.attn, .links, .log, .owl] L) (h : Touches L s0 s) :
    Touches L s0 (State.retrainLink s l) := by
  refine Touches.step ?_ hL h
  unfold State.retrainLink
  try dsimp only
  with_reducible repeat' first
    | exact Touches.refl _ _
    | assumption
    | exact Nat.le_refl _
    | exact Nat.le_add_right _ _
    | exact id
    | (apply State.updLink_touches; on_goal 1 => decide)
    | (apply State.raise_touches; on_goal 1 => decide)
    | (apply State.logEvent_touches; on_goal 1 => decide)
    | (apply State.bumpCounter_touches; on_goal 1 => decide)
    | split

theorem State.replay_touches {L : List Part} {s0 : State} (s : State) (l : Nat) (hL : Within [.links] L) (h : Touches L s0 s) :
    Touches L s0 (State.replay s l) := by
  refine Touches.step ?_ hL h
  unfold State.replay
  try dsimp only
  with_reducible repeat' first
    | exact Touches.refl _ _
    | assumption
    | exact Nat.le_refl _
    | exact Nat.le_add_right _ _
    | exact id
    | (apply State.updLink_touches; on_goal 1 => decide)
    | split

theorem State.loseLink_touches {L : List Part} {s0 : State} (s : State) (l : Nat) (hL : Within [.links] L) (h : Touches L s0 s) :
    Touches L s0 (s.loseLink l) := by
  refine Touches.step ?_ hL h
  unfold State.loseLink
  try dsimp only
  with_reducible repeat' first
    | exact Touches.refl _ _
    | assumption
    | exact Nat.le_refl _
    | exact Nat.le_add_right _ _
    | exact id
    | (apply State.updLink_touches; on_goal 1 => decide)
    | (apply State.updLink_touches; on_goal 1 => decide)
    | split

theorem State.unroutable_touches {L : List Part} {s0 : State} (s : State) (f : LinkFrame) (hL : Within [.draws, .regs, .attn, .safe, .tState, .tSearch, .tSolver, .tSel, .tSched, .tOut, .bears, .jays, .cores, .dram, .links, .cascade] L) (h : Touches L s0 s) :
    Touches L s0 (State.unroutable s f) := by
  refine Touches.step ?_ hL h
  unfold State.unroutable
  try dsimp only
  with_reducible repeat' first
    | exact Touches.refl _ _
    | assumption
    | exact Nat.le_refl _
    | exact Nat.le_add_right _ _
    | exact id
    | (apply State.sendResponse_touches; on_goal 1 => decide)
    | (apply State.dropRoute_touches; on_goal 1 => decide)
    | split

theorem State.killLink_touches {L : List Part} {s0 : State} (s : State) (l : Nat) (hL : Within [.draws, .regs, .attn, .safe, .tState, .tSearch, .tSolver, .tSel, .tSched, .tOut, .bears, .jays, .cores, .dram, .links, .cascade] L) (h : Touches L s0 s) :
    Touches L s0 (State.killLink s l) := by
  refine Touches.step ?_ hL h
  unfold State.killLink
  try dsimp only
  with_reducible repeat' first
    | exact Touches.refl _ _
    | assumption
    | exact Nat.le_refl _
    | exact Nat.le_add_right _ _
    | exact id
    | (apply State.updLink_touches; on_goal 1 => decide)
    | refine Touches.forEach ?_ (fun _ _ _ => ?_)
    | (apply State.unroutable_touches; on_goal 1 => decide)
    | split

theorem State.returnCredit_touches {L : List Part} {s0 : State} (s : State) (l : Nat) (v : Fin 3) (hL : Within [.links] L) (h : Touches L s0 s) :
    Touches L s0 (s.returnCredit l v) := by
  refine Touches.step ?_ hL h
  unfold State.returnCredit
  try dsimp only
  with_reducible repeat' first
    | exact Touches.refl _ _
    | assumption
    | exact Nat.le_refl _
    | exact Nat.le_add_right _ _
    | exact id
    | (apply State.updLink_touches; on_goal 1 => decide)
    | (apply State.updLink_touches; on_goal 1 => decide)
    | split

theorem State.writeRoute_touches {L : List Part} {s0 : State} (s : State) (w : Writer) (v : Nat) (hL : Within [.cfgA, .cfgB, .attn, .cascade] L) (h : Touches L s0 s) :
    Touches L s0 (State.writeRoute s w v) := by
  refine Touches.step ?_ hL h
  unfold State.writeRoute
  try dsimp only
  with_reducible repeat' first
    | exact Touches.refl _ _
    | assumption
    | exact Nat.le_refl _
    | exact Nat.le_add_right _ _
    | exact id
    | (apply State.refuseWrite_touches; on_goal 1 => decide)
    | (apply State.recordDirect_touches; on_goal 1 => decide)
    | (apply State.updCascade_touches; on_goal 1 => decide)
    | split

theorem State.receive_touches {L : List Part} {s0 : State} (s : State) (l : Nat) (f : LinkFrame) (kind : Nat)
    (body : State → State) (hL : Within [.cascade] L) (h : Touches L s0 s) (hb : Touches L s0 (body s)) :
    Touches L s0 (s.receive l f kind body) := by
  unfold State.receive
  split
  · exact h
  · split
    · exact Touches.step (State.dropFrame_touches _ (by decide) (Touches.refl _ _)) hL h
    · exact hb

theorem State.receiveInvalid_touches {L : List Part} {s0 : State} (s : State) (l : Nat) (f : LinkFrame) (hL : Within [.cascade] L) (h : Touches L s0 s) :
    Touches L s0 (State.receiveInvalid s l f) := by
  refine Touches.step ?_ hL h
  unfold State.receiveInvalid
  try dsimp only
  with_reducible repeat' first
    | exact Touches.refl _ _
    | assumption
    | exact Nat.le_refl _
    | exact Nat.le_add_right _ _
    | exact id
    | (apply State.dropFrame_touches; on_goal 1 => decide)
    | split

theorem State.forwardFrame_touches {L : List Part} {s0 : State} (s : State) (f : LinkFrame) (hL : Within [.draws, .regs, .attn, .safe, .tState, .tSearch, .tSolver, .tSel, .tSched, .tOut, .bears, .jays, .cores, .dram, .links, .cascade] L) (h : Touches L s0 s) :
    Touches L s0 (s.forwardFrame f) := by
  refine Touches.step ?_ hL h
  unfold State.forwardFrame
  try dsimp only
  with_reducible repeat' first
    | exact Touches.refl _ _
    | assumption
    | exact Nat.le_refl _
    | exact Nat.le_add_right _ _
    | exact id
    | (apply State.unroutable_touches; on_goal 1 => decide)
    | (apply State.transmit_touches; on_goal 1 => decide)
    | split

theorem State.routeFrame_touches {L : List Part} {s0 : State} (s : State) (l : Nat) (f : LinkFrame) (kind : Nat)
    (deliver : State → State) (hL : Within [.draws, .regs, .attn, .safe, .tState, .tSearch, .tSolver, .tSel, .tSched, .tOut, .bears, .jays, .cores, .dram, .links, .cascade] L) (h : Touches L s0 s) (hb : Touches L s0 (deliver s)) :
    Touches L s0 (s.routeFrame l f kind deliver) := by
  unfold State.routeFrame State.receive
  dsimp only
  split
  · exact h
  · split
    · exact Touches.step (State.dropFrame_touches _ (by decide) (Touches.refl _ _)) hL h
    · split
      · refine Touches.step ?_ hL h
        apply State.raise_touches; on_goal 1 => decide
        exact State.dropFrame_touches _ (by decide) (Touches.refl _ _)
      · split
        · exact hb
        · exact Touches.step (State.forwardFrame_touches _ _ (by decide) (Touches.refl _ _)) hL h

theorem State.serve_touches {L : List Part} {s0 : State} (s : State) (l : Nat) (f : LinkFrame) (hL : Within [.draws, .regs, .attn, .safe, .tState, .tSearch, .tSolver, .tSel, .tSched, .tOut, .bears, .jays, .cores, .dram, .links, .cascade] L) (h : Touches L s0 s) :
    Touches L s0 (State.serve s l f) := by
  refine Touches.step ?_ hL h
  unfold State.serve
  try dsimp only
  with_reducible repeat' first
    | exact Touches.refl _ _
    | assumption
    | exact Nat.le_refl _
    | exact Nat.le_add_right _ _
    | exact id
    | (apply State.perform_touches; on_goal 1 => decide)
    | (apply State.sendResponse_touches; on_goal 1 => decide)
    | split

theorem State.collResult_touches {L : List Part} {s0 : State} (s : State) (l : Nat) (f : LinkFrame) (hL : Within [.draws, .regs, .attn, .safe, .tState, .tSearch, .tSolver, .tSel, .tSched, .tOut, .bears, .jays, .cores, .dram, .links, .cascade, .lynx] L) (h : Touches L s0 s) :
    Touches L s0 (State.collResult s l f) := by
  refine Touches.step ?_ hL h
  unfold State.collResult
  try dsimp only
  with_reducible repeat' first
    | exact Touches.refl _ _
    | assumption
    | exact Nat.le_refl _
    | exact Nat.le_add_right _ _
    | exact id
    | (apply State.deliverResponse_touches; on_goal 1 => decide)
    | refine Touches.forEach ?_ (fun _ _ _ => ?_)
    | (apply State.endFailed_touches; on_goal 1 => decide)
    | split

theorem State.takeWitness_touches {L : List Part} {s0 : State} (s : State) (l : Nat) (f : LinkFrame) (hL : Within [.tRings] L) (h : Touches L s0 s) :
    Touches L s0 (s.takeWitness l f) := by
  refine Touches.step ?_ hL h
  unfold State.takeWitness
  try dsimp only
  with_reducible repeat' first
    | exact Touches.refl _ _
    | assumption
    | exact Nat.le_refl _
    | exact Nat.le_add_right _ _
    | exact id
    | apply Touches.updTenant
    | (intro p hp; cases p <;> first | exact absurd hp (by decide) | (simp only [Part.sameT, Part.sameF, Part.sameO, Tenant.cleared, Tenant.discardFrame, Tenant.startFrame, Tenant.turn, Tenant.reset, and_self]; done))
    | split

theorem State.countForeign_touches {L : List Part} {s0 : State} (s : State) (hL : Within [.attn, .cascade] L) (h : Touches L s0 s) :
    Touches L s0 (State.countForeign s) := by
  refine Touches.step ?_ hL h
  unfold State.countForeign
  try dsimp only
  with_reducible repeat' first
    | exact Touches.refl _ _
    | assumption
    | exact Nat.le_refl _
    | exact Nat.le_add_right _ _
    | exact id
    | (apply State.raise_touches; on_goal 1 => decide)
    | (apply State.updCascade_touches; on_goal 1 => decide)
    | split

theorem State.noteTick_touches {L : List Part} {s0 : State} (s : State) (f : LinkFrame) (a : Nat) (hL : Within [.cascade] L) (h : Touches L s0 s) :
    Touches L s0 (s.noteTick f a) := by
  refine Touches.step ?_ hL h
  unfold State.noteTick
  try dsimp only
  with_reducible repeat' first
    | exact Touches.refl _ _
    | assumption
    | exact Nat.le_refl _
    | exact Nat.le_add_right _ _
    | exact id
    | (apply State.updCascade_touches; on_goal 1 => decide)
    | (apply State.updCascade_touches; on_goal 1 => decide)
    | split

theorem State.acceptTick_touches {L : List Part} {s0 : State} (s : State) (f : LinkFrame) (a T : Nat) (hL : Within [.running, .frame, .cascade] L) (h : Touches L s0 s) :
    Touches L s0 (s.acceptTick f a T) := by
  refine Touches.step ?_ hL h
  unfold State.acceptTick
  try dsimp only
  with_reducible repeat' first
    | exact Touches.refl _ _
    | assumption
    | exact Nat.le_refl _
    | exact Nat.le_add_right _ _
    | exact id
    | (apply State.useResync_touches; on_goal 1 => decide)
    | (apply State.updCascade_touches; on_goal 1 => decide)
    | (apply State.updCascade_touches; on_goal 1 => decide)
    | apply Touches.updFrame
    | (intro p hp; cases p <;> first | exact absurd hp (by decide) | (simp only [Part.sameT, Part.sameF, Part.sameO, Tenant.cleared, Tenant.discardFrame, Tenant.startFrame, Tenant.turn, Tenant.reset, and_self]; done))
    | split

theorem State.takeTick_touches {L : List Part} {s0 : State} (s : State) (l : Nat) (f : LinkFrame) (hL : Within [.regs, .attn, .running, .frame, .cascade] L) (h : Touches L s0 s) :
    Touches L s0 (State.takeTick s l f) := by
  refine Touches.step ?_ hL h
  unfold State.takeTick
  try dsimp only
  with_reducible repeat' first
    | exact Touches.refl _ _
    | assumption
    | exact Nat.le_refl _
    | exact Nat.le_add_right _ _
    | exact id
    | (apply State.receive_touches; on_goal 1 => decide)
    | (apply State.countForeign_touches; on_goal 1 => decide)
    | (apply State.noteTick_touches; on_goal 1 => decide)
    | (apply State.raise_touches; on_goal 1 => decide)
    | (apply State.acceptTick_touches; on_goal 1 => decide)
    | (apply State.countEarly_touches; on_goal 1 => decide)
    | split

theorem State.forwardTick_touches {L : List Part} {s0 : State} (s : State) (hL : Within [.links, .cascade] L) (h : Touches L s0 s) :
    Touches L s0 (State.forwardTick s) := by
  refine Touches.step ?_ hL h
  unfold State.forwardTick
  try dsimp only
  with_reducible repeat' first
    | exact Touches.refl _ _
    | assumption
    | exact Nat.le_refl _
    | exact Nat.le_add_right _ _
    | exact id
    | (apply State.updCascade_touches; on_goal 1 => decide)
    | refine Touches.forEach ?_ (fun _ _ _ => ?_)
    | (apply State.transmit_touches; on_goal 1 => decide)
    | split

theorem State.takeMark_touches {L : List Part} {s0 : State} (s : State) (l : Nat) (f : LinkFrame) (hL : Within [.attn, .cascade] L) (h : Touches L s0 s) :
    Touches L s0 (State.takeMark s l f) := by
  refine Touches.step ?_ hL h
  unfold State.takeMark
  try dsimp only
  with_reducible repeat' first
    | exact Touches.refl _ _
    | assumption
    | exact Nat.le_refl _
    | exact Nat.le_add_right _ _
    | exact id
    | (apply State.receive_touches; on_goal 1 => decide)
    | (apply State.countForeign_touches; on_goal 1 => decide)
    | (apply State.updCascade_touches; on_goal 1 => decide)
    | split

theorem State.sendMark_touches {L : List Part} {s0 : State} (s : State) (hL : Within [.links] L) (h : Touches L s0 s) :
    Touches L s0 (State.sendMark s) := by
  refine Touches.step ?_ hL h
  unfold State.sendMark
  try dsimp only
  with_reducible repeat' first
    | exact Touches.refl _ _
    | assumption
    | exact Nat.le_refl _
    | exact Nat.le_add_right _ _
    | exact id
    | refine Touches.forEach ?_ (fun _ _ _ => ?_)
    | (apply State.transmit_touches; on_goal 1 => decide)
    | split

theorem State.forwardMark_touches {L : List Part} {s0 : State} (s : State) (hL : Within [.links, .cascade] L) (h : Touches L s0 s) :
    Touches L s0 (State.forwardMark s) := by
  refine Touches.step ?_ hL h
  unfold State.forwardMark
  try dsimp only
  with_reducible repeat' first
    | exact Touches.refl _ _
    | assumption
    | exact Nat.le_refl _
    | exact Nat.le_add_right _ _
    | exact id
    | (apply State.updCascade_touches; on_goal 1 => decide)
    | refine Touches.forEach ?_ (fun _ _ _ => ?_)
    | (apply State.transmit_touches; on_goal 1 => decide)
    | split

theorem State.loseMaster_touches {L : List Part} {s0 : State} (s : State) (hL : Within [.now, .draws, .regs, .attn, .safe, .frame, .tState, .tSearch, .tSolver, .tSel, .tSched, .tOut, .bears, .jays, .cores, .dram, .cascade, .lynx] L) (h : Touches L s0 s) :
    Touches L s0 (State.loseMaster s) := by
  refine Touches.step ?_ hL h
  unfold State.loseMaster
  try dsimp only
  with_reducible repeat' first
    | exact Touches.refl _ _
    | assumption
    | exact Nat.le_refl _
    | exact Nat.le_add_right _ _
    | exact id
    | (apply State.declareLost_touches; on_goal 1 => decide)
    | (apply State.advanceTo_touches; on_goal 1 => decide)
    | split

theorem State.echoCal_touches {L : List Part} {s0 : State} (s : State) (l : Nat) (hL : Within [.links] L) (h : Touches L s0 s) :
    Touches L s0 (State.echoCal s l) := by
  refine Touches.step ?_ hL h
  unfold State.echoCal
  try dsimp only
  with_reducible repeat' first
    | exact Touches.refl _ _
    | assumption
    | exact Nat.le_refl _
    | exact Nat.le_add_right _ _
    | exact id
    | (apply State.transmit_touches; on_goal 1 => decide)
    | (apply State.updLink_touches; on_goal 1 => decide)
    | split

theorem State.takeEcho_touches {L : List Part} {s0 : State} (s : State) (l : Nat) (f : LinkFrame) (r : Nat) (hL : Within [.links, .cascade] L) (h : Touches L s0 s) :
    Touches L s0 (State.takeEcho s l f r) := by
  refine Touches.step ?_ hL h
  unfold State.takeEcho
  try dsimp only
  with_reducible repeat' first
    | exact Touches.refl _ _
    | assumption
    | exact Nat.le_refl _
    | exact Nat.le_add_right _ _
    | exact id
    | (apply State.receive_touches; on_goal 1 => decide)
    | (apply State.updLink_touches; on_goal 1 => decide)
    | split

theorem State.endWindow_touches {L : List Part} {s0 : State} (s : State) (hL : Within [.now, .draws, .regs, .attn, .safe, .frame, .tSearch, .tSolver, .tSel, .tSched, .tOut, .bears, .jays, .cores, .dram, .links, .cascade, .lynx] L) (h : Touches L s0 s) :
    Touches L s0 (State.endWindow s) := by
  refine Touches.step ?_ hL h
  unfold State.endWindow
  try dsimp only
  with_reducible repeat' first
    | exact Touches.refl _ _
    | assumption
    | exact Nat.le_refl _
    | exact Nat.le_add_right _ _
    | exact id
    | (apply State.advanceTo_touches; on_goal 1 => decide)
    | (apply State.updLynx_touches; on_goal 1 => decide)
    | refine Touches.forEach ?_ (fun _ _ _ => ?_)
    | (apply State.transmit_touches; on_goal 1 => decide)
    | split

theorem State.freeze_touches {L : List Part} {s0 : State} (s : State) (hL : Within [.draws, .regs, .shadow, .dirty, .attn, .tWorld, .tQueues, .tCmds, .lynx, .fault, .log] L) (h : Touches L s0 s) :
    Touches L s0 (State.freeze s) := by
  refine Touches.step ?_ hL h
  unfold State.freeze
  try dsimp only
  with_reducible repeat' first
    | exact Touches.refl _ _
    | assumption
    | exact Nat.le_refl _
    | exact Nat.le_add_right _ _
    | exact id
    | (apply State.logEvent_touches; on_goal 1 => decide)
    | (apply State.draw_touches; on_goal 1 => decide)
    | (apply State.packageFault_touches; on_goal 1 => decide)
    | (apply State.updLynx_touches; on_goal 1 => decide)
    | split

theorem State.countDiv_touches {L : List Part} {s0 : State} (s : State) (hL : Within [.lynx] L) (h : Touches L s0 s) :
    Touches L s0 (s.countDiv) := by
  refine Touches.step ?_ hL h
  unfold State.countDiv
  try dsimp only
  with_reducible repeat' first
    | exact Touches.refl _ _
    | assumption
    | exact Nat.le_refl _
    | exact Nat.le_add_right _ _
    | exact id
    | (apply State.updLynx_touches; on_goal 1 => decide)
    | (apply State.updLynx_touches; on_goal 1 => decide)
    | split

theorem State.diverge_touches {L : List Part} {s0 : State} (s : State) (kind window stream offset : Nat) (own other : BitVec 64) (hL : Within [.draws, .regs, .shadow, .dirty, .attn, .tWorld, .tQueues, .tCmds, .links, .lynx, .fault, .log] L) (h : Touches L s0 s) :
    Touches L s0 (s.diverge kind window stream offset own other) := by
  refine Touches.step ?_ hL h
  unfold State.diverge
  try dsimp only
  with_reducible repeat' first
    | exact Touches.refl _ _
    | assumption
    | exact Nat.le_refl _
    | exact Nat.le_add_right _ _
    | exact id
    | (apply State.countDiv_touches; on_goal 1 => decide)
    | (apply State.raise_touches; on_goal 1 => decide)
    | (apply State.updLynx_touches; on_goal 1 => decide)
    | (apply State.transmit_touches; on_goal 1 => decide)
    | (apply State.freeze_touches; on_goal 1 => decide)
    | (apply State.updLynx_touches; on_goal 1 => decide)
    | split

theorem State.divergeFree_touches {L : List Part} {s0 : State} (s : State) (kind window : Nat) (hL : Within [.draws, .regs, .shadow, .dirty, .attn, .tWorld, .tQueues, .tCmds, .links, .lynx, .fault, .log] L) (h : Touches L s0 s) :
    Touches L s0 (State.divergeFree s kind window) := by
  refine Touches.step ?_ hL h
  unfold State.divergeFree
  try dsimp only
  with_reducible repeat' first
    | exact Touches.refl _ _
    | assumption
    | exact Nat.le_refl _
    | exact Nat.le_add_right _ _
    | exact id
    | (apply State.diverge_touches; on_goal 1 => decide)
    | split
    | (apply Touches.set_draws; on_goal 1 => decide)

theorem State.compareSigs_touches {L : List Part} {s0 : State} (s : State) (f : LinkFrame) (hL : Within [.draws, .regs, .shadow, .dirty, .attn, .tWorld, .tQueues, .tCmds, .links, .lynx, .fault, .log] L) (h : Touches L s0 s) :
    Touches L s0 (State.compareSigs s f) := by
  refine Touches.step ?_ hL h
  unfold State.compareSigs
  try dsimp only
  with_reducible repeat' first
    | exact Touches.refl _ _
    | assumption
    | exact Nat.le_refl _
    | exact Nat.le_add_right _ _
    | exact id
    | (apply State.diverge_touches; on_goal 1 => decide)
    | (apply State.updLynx_touches; on_goal 1 => decide)
    | split

theorem State.takeSig_touches {L : List Part} {s0 : State} (s : State) (f : LinkFrame) (hL : Within [.now, .draws, .regs, .shadow, .dirty, .attn, .safe, .frame, .tWorld, .tSearch, .tSolver, .tSel, .tSched, .tOut, .tQueues, .tCmds, .bears, .jays, .cores, .dram, .links, .cascade, .lynx, .fault, .log] L) (h : Touches L s0 s) :
    Touches L s0 (State.takeSig s f) := by
  refine Touches.step ?_ hL h
  unfold State.takeSig
  try dsimp only
  with_reducible repeat' first
    | exact Touches.refl _ _
    | assumption
    | exact Nat.le_refl _
    | exact Nat.le_add_right _ _
    | exact id
    | (apply State.receive_touches; on_goal 1 => decide)
    | (apply State.divergeFree_touches; on_goal 1 => decide)
    | (apply State.endWindow_touches; on_goal 1 => decide)
    | (apply State.compareSigs_touches; on_goal 1 => decide)
    | split

theorem State.takeNotice_touches {L : List Part} {s0 : State} (s : State) (f : LinkFrame) (hL : Within [.draws, .regs, .shadow, .dirty, .attn, .tWorld, .tQueues, .tCmds, .links, .cascade, .lynx, .fault, .log] L) (h : Touches L s0 s) :
    Touches L s0 (s.takeNotice f) := by
  refine Touches.step ?_ hL h
  unfold State.takeNotice
  try dsimp only
  with_reducible repeat' first
    | exact Touches.refl _ _
    | assumption
    | exact Nat.le_refl _
    | exact Nat.le_add_right _ _
    | exact id
    | (apply State.receive_touches; on_goal 1 => decide)
    | (apply State.countDiv_touches; on_goal 1 => decide)
    | (apply State.divergeFree_touches; on_goal 1 => decide)
    | split

theorem State.missSigs_touches {L : List Part} {s0 : State} (s : State) (w : Nat) (hL : Within [.draws, .regs, .shadow, .dirty, .attn, .tWorld, .tQueues, .tCmds, .links, .lynx, .fault, .log] L) (h : Touches L s0 s) :
    Touches L s0 (State.missSigs s w) := by
  refine Touches.step ?_ hL h
  unfold State.missSigs
  try dsimp only
  with_reducible repeat' first
    | exact Touches.refl _ _
    | assumption
    | exact Nat.le_refl _
    | exact Nat.le_add_right _ _
    | exact id
    | (apply State.divergeFree_touches; on_goal 1 => decide)
    | (apply State.updLynx_touches; on_goal 1 => decide)
    | split

theorem State.updBox_touches {L : List Part} {s0 : State} (s : State) (ch : Channel) (f : Mailbox → Mailbox) (hL : Within [.boxes] L) (h : Touches L s0 s) :
    Touches L s0 (State.updBox s ch f) := by
  refine Touches.step ?_ hL h
  unfold State.updBox
  try dsimp only
  with_reducible repeat' first
    | exact Touches.refl _ _
    | assumption
    | exact Nat.le_refl _
    | exact Nat.le_add_right _ _
    | exact id
    | apply Touches.updOwl
    | (intro p hp; cases p <;> first | exact absurd hp (by decide) | (simp only [Part.sameT, Part.sameF, Part.sameO, Tenant.cleared, Tenant.discardFrame, Tenant.startFrame, Tenant.turn, Tenant.reset, and_self]; done))
    | split

theorem State.arriveRequest_touches {L : List Part} {s0 : State} (s : State) (ch : Channel) (req : List Byte) (hL : Within [.boxes] L) (h : Touches L s0 s) :
    Touches L s0 (State.arriveRequest s ch req) := by
  refine Touches.step ?_ hL h
  unfold State.arriveRequest
  try dsimp only
  with_reducible repeat' first
    | exact Touches.refl _ _
    | assumption
    | exact Nat.le_refl _
    | exact Nat.le_add_right _ _
    | exact id
    | (apply State.updBox_touches; on_goal 1 => decide)
    | apply Touches.updOwl
    | (intro p hp; cases p <;> first | exact absurd hp (by decide) | (simp only [Part.sameT, Part.sameF, Part.sameO, Tenant.cleared, Tenant.discardFrame, Tenant.startFrame, Tenant.turn, Tenant.reset, and_self]; done))
    | split

theorem State.setReqBytes_touches {L : List Part} {s0 : State} (s : State) (p : Port) (r : List Byte) (hL : Within [.regs] L) (h : Touches L s0 s) :
    Touches L s0 (State.setReqBytes s p r) := by
  refine Touches.step ?_ hL h
  unfold State.setReqBytes
  try dsimp only
  with_reducible repeat' first
    | exact Touches.refl _ _
    | assumption
    | exact Nat.le_refl _
    | exact Nat.le_add_right _ _
    | exact id
    | refine Touches.forEach ?_ (fun _ _ _ => ?_)
    | (apply State.setLive_touches; on_goal 1 => decide)
    | split

theorem State.respond_touches {L : List Part} {s0 : State} (s : State) (ch : Channel) (code : Byte) (data : List Byte) (hL : Within [.regs, .cfgA, .cfgB, .boxes, .owl] L) (h : Touches L s0 s) :
    Touches L s0 (State.respond s ch code data) := by
  refine Touches.step ?_ hL h
  unfold State.respond
  try dsimp only
  with_reducible repeat' first
    | exact Touches.refl _ _
    | assumption
    | exact Nat.le_refl _
    | exact Nat.le_add_right _ _
    | exact id
    | (apply State.updBox_touches; on_goal 1 => decide)
    | (apply State.sendMsix_touches; on_goal 1 => decide)
    | apply Touches.updOwl
    | (intro p hp; cases p <;> first | exact absurd hp (by decide) | (simp only [Part.sameT, Part.sameF, Part.sameO, Tenant.cleared, Tenant.discardFrame, Tenant.startFrame, Tenant.turn, Tenant.reset, and_self]; done))
    | split

theorem State.pairWith.go_touches {L : List Part} {s0 : State} (new : List Byte) (s : State) (old : Option Digest)
    (hL : Within [.attn, .identity, .log] L) (h : Touches L s0 s) : Touches L s0 (State.pairWith.go new s old).1 := by
  refine Touches.step ?_ hL h
  unfold State.pairWith.go
  dsimp only
  generalize (if allZero new then none else some (sha256 new)) = r
  split
  · exact Touches.refl _ _
  · apply State.logEvent_touches; on_goal 1 => decide
    (refine Touches.updOwl _ _ (Touches.refl _ _) ?_ (Nat.le_refl _); intro p hp; cases p <;> first | exact absurd hp (by decide) | exact True.intro | ((repeat' apply And.intro) <;> exact rfl))

theorem State.pairWith_touches {L : List Part} {s0 : State} (s : State) (new cur : List Byte) (hL : Within [.attn, .identity, .log] L) (h : Touches L s0 s) :
    Touches L s0 (State.pairWith s new cur).1 := by
  refine Touches.step ?_ hL h
  unfold State.pairWith
  try dsimp only
  with_reducible repeat' first
    | exact Touches.refl _ _
    | assumption
    | exact Nat.le_refl _
    | exact Nat.le_add_right _ _
    | exact id
    | (apply State.pairWith.go_touches; on_goal 1 => decide)
    | split

theorem State.fenceReq_touches {L : List Part} {s0 : State} (s : State) (ch : Channel) (d : List Byte) (on : Bool) (hL : Within [.draws, .regs, .attn, .safe, .tState, .tSearch, .tTable, .tSolver, .tSel, .tSched, .tOut, .engines, .bears, .jays, .fronts, .cores, .dram, .cascade, .lynx, .identity, .log] L) (h : Touches L s0 s) :
    Touches L s0 (State.fenceReq s ch d on).1 := by
  refine Touches.step ?_ hL h
  unfold State.fenceReq
  try dsimp only
  with_reducible repeat' first
    | exact Touches.refl _ _
    | assumption
    | exact Nat.le_refl _
    | exact Nat.le_add_right _ _
    | exact id
    | (apply State.fenceUnit_touches; on_goal 1 => decide)
    | (apply State.unfenceUnit_touches; on_goal 1 => decide)
    | split

theorem State.fwOpen_touches {L : List Part} {s0 : State} (s : State) (total : Nat) (hL : Within [.firmware] L) (h : Touches L s0 s) :
    Touches L s0 (State.fwOpen s total).1 := by
  refine Touches.step ?_ hL h
  unfold State.fwOpen
  try dsimp only
  with_reducible repeat' first
    | exact Touches.refl _ _
    | assumption
    | exact Nat.le_refl _
    | exact Nat.le_add_right _ _
    | exact id
    | (simp only [Owl.updBank_rollback]; exact Nat.le_refl _)
    | exact fun p hp => Owl.updBank_same p (fun e => by subst e; exact absurd hp (by decide)) _ _ _
    | exact fun p hp => Part.sameO_trans (Owl.updBank_same p (fun e => by subst e; exact absurd hp (by decide)) _ _ _) (by cases p <;> first | exact absurd hp (by decide) | exact True.intro | exact ⟨rfl, rfl⟩ | exact ⟨rfl, rfl, rfl⟩ | ((repeat' apply And.intro) <;> exact rfl))
    | apply Touches.updOwl
    | (intro p hp; cases p <;> first | exact absurd hp (by decide) | (simp only [Part.sameT, Part.sameF, Part.sameO, Tenant.cleared, Tenant.discardFrame, Tenant.startFrame, Tenant.turn, Tenant.reset, and_self]; done))
    | split

theorem State.fwWrite_touches {L : List Part} {s0 : State} (s : State) (d : List Byte) (hL : Within [.firmware] L) (h : Touches L s0 s) :
    Touches L s0 (State.fwWrite s d).1 := by
  refine Touches.step ?_ hL h
  unfold State.fwWrite
  try dsimp only
  with_reducible repeat' first
    | exact Touches.refl _ _
    | assumption
    | exact Nat.le_refl _
    | exact Nat.le_add_right _ _
    | exact id
    | apply Touches.updOwl
    | (intro p hp; cases p <;> first | exact absurd hp (by decide) | (simp only [Part.sameT, Part.sameF, Part.sameO, Tenant.cleared, Tenant.discardFrame, Tenant.startFrame, Tenant.turn, Tenant.reset, and_self]; done))
    | split

theorem State.fwEnd_touches {L : List Part} {s0 : State} (s : State) (code reason : Byte) (bank : Bool) (w : List Byte) (hL : Within [.attn, .firmware, .log] L) (h : Touches L s0 s) :
    Touches L s0 (State.fwEnd s code reason bank w) := by
  refine Touches.step ?_ hL h
  unfold State.fwEnd
  try dsimp only
  with_reducible repeat' first
    | exact Touches.refl _ _
    | assumption
    | exact Nat.le_refl _
    | exact Nat.le_add_right _ _
    | exact id
    | (apply State.raise_touches; on_goal 1 => decide)
    | (apply State.logEvent_touches; on_goal 1 => decide)
    | apply Touches.updOwl
    | (intro p hp; cases p <;> first | exact absurd hp (by decide) | (simp only [Part.sameT, Part.sameF, Part.sameO, Tenant.cleared, Tenant.discardFrame, Tenant.startFrame, Tenant.turn, Tenant.reset, and_self]; done))
    | split

theorem State.fwFinish_touches {L : List Part} {s0 : State} (s : State) (hL : Within [.draws, .attn, .firmware, .log, .owl] L) (h : Touches L s0 s) :
    Touches L s0 (State.fwFinish s).1 := by
  refine Touches.step ?_ hL h
  unfold State.fwFinish
  try dsimp only
  with_reducible repeat' first
    | exact Touches.refl _ _
    | assumption
    | exact Nat.le_refl _
    | exact Nat.le_add_right _ _
    | exact id
    | (simp only [Owl.updBank_rollback]; exact Nat.le_refl _)
    | exact fun p hp => Owl.updBank_same p (fun e => by subst e; exact absurd hp (by decide)) _ _ _
    | exact fun p hp => Part.sameO_trans (Owl.updBank_same p (fun e => by subst e; exact absurd hp (by decide)) _ _ _) (by cases p <;> first | exact absurd hp (by decide) | exact True.intro | exact ⟨rfl, rfl⟩ | exact ⟨rfl, rfl, rfl⟩ | ((repeat' apply And.intro) <;> exact rfl))
    | (intro p hp; have e := fun (g : FwBank → FwBank) => Owl.updBank_same p (fun e => by subst e; exact absurd hp (by decide)) s.owl (! s.owl.activeB) g; cases p <;> first | exact absurd hp (by decide) | with_unfolding_all exact True.intro | with_unfolding_all exact e _)
    | (apply State.fwEnd_touches; on_goal 1 => decide)
    | (apply State.draw_touches; on_goal 1 => decide)
    | (apply State.bumpCounter_touches; on_goal 1 => decide)
    | apply Touches.updOwl
    | (intro p hp; cases p <;> first | exact absurd hp (by decide) | (simp only [Part.sameT, Part.sameF, Part.sameO, Tenant.cleared, Tenant.discardFrame, Tenant.startFrame, Tenant.turn, Tenant.reset, and_self]; done))
    | split

theorem State.fwConfirm_touches {L : List Part} {s0 : State} (s : State) (hL : Within [.firmware] L) (h : Touches L s0 s) :
    Touches L s0 (State.fwConfirm s).1 := by
  refine Touches.step ?_ hL h
  unfold State.fwConfirm
  try dsimp only
  with_reducible repeat' first
    | exact Touches.refl _ _
    | assumption
    | exact Nat.le_refl _
    | exact Nat.le_add_right _ _
    | exact id
    | exact Nat.le_max_left _ _
    | apply Touches.updOwl
    | (intro p hp; cases p <;> first | exact absurd hp (by decide) | (simp only [Part.sameT, Part.sameF, Part.sameO, Tenant.cleared, Tenant.discardFrame, Tenant.startFrame, Tenant.turn, Tenant.reset, and_self]; done))
    | split

theorem State.setBoard_touches {L : List Part} {s0 : State} (s : State) (d : List Byte) (hL : Within [.board] L) (h : Touches L s0 s) :
    Touches L s0 (State.setBoard s d).1 := by
  refine Touches.step ?_ hL h
  unfold State.setBoard
  try dsimp only
  with_reducible repeat' first
    | exact Touches.refl _ _
    | assumption
    | exact Nat.le_refl _
    | exact Nat.le_add_right _ _
    | exact id
    | apply Touches.updOwl
    | (intro p hp; cases p <;> first | exact absurd hp (by decide) | (simp only [Part.sameT, Part.sameF, Part.sameO, Tenant.cleared, Tenant.discardFrame, Tenant.startFrame, Tenant.turn, Tenant.reset, and_self]; done))
    | split

theorem State.serveOp_touches {L : List Part} {s0 : State} (s : State) (ch : Channel) (op : Nat) (d : List Byte)
    (hL : Within [.draws, .regs, .attn, .safe, .tState, .tSearch, .tTable, .tSolver, .tSel, .tSched, .tOut, .engines, .bears, .jays, .fronts, .cores, .dram, .cascade, .lynx, .firmware, .board, .identity, .log, .owl] L) (h : Touches L s0 s) : ∀ y, s.serveOp ch op d = some y → Touches L s0 y.1 := by
  intro y hy
  refine Touches.step ?_ hL h
  unfold State.serveOp at hy
  dsimp only at hy
  split at hy
  case h_13 =>
    split at hy
    · split at hy
      · cases hy
      · cases hy; exact State.fwWrite_touches _ _ (by decide) (Touches.refl _ _)
    · cases hy; exact State.fwWrite_touches _ _ (by decide) (Touches.refl _ _)
  all_goals cases hy
  with_reducible all_goals first
    | exact Touches.refl _ _
    | (apply State.draw_touches; on_goal 1 => decide)
    | (apply State.pairWith_touches; on_goal 1 => decide)
    | (refine Touches.updOwl _ _ (Touches.refl _ _) ?_ (Nat.le_refl _); intro p hp; cases p <;> first | exact absurd hp (by decide) | (simp only [Part.sameO, and_self]; done))
    | (apply State.fenceReq_touches; on_goal 1 => decide)
    | (apply State.fwOpen_touches; on_goal 1 => decide)
    | (apply State.fwFinish_touches; on_goal 1 => decide)
    | (apply State.fwConfirm_touches; on_goal 1 => decide)
    | (apply State.setBoard_touches; on_goal 1 => decide)
  all_goals first | exact Touches.refl _ _ | exact Nat.le_refl _

theorem State.holdChunk_touches {L : List Part} {s0 : State} (s : State) (ch : Channel) (r : List Byte) (hL : Within [.firmware] L) (h : Touches L s0 s) :
    Touches L s0 (State.holdChunk s ch r) := by
  refine Touches.step ?_ hL h
  unfold State.holdChunk
  try dsimp only
  with_reducible repeat' first
    | exact Touches.refl _ _
    | assumption
    | exact Nat.le_refl _
    | exact Nat.le_add_right _ _
    | exact id
    | apply Touches.updOwl
    | (intro p hp; cases p <;> first | exact absurd hp (by decide) | (simp only [Part.sameT, Part.sameF, Part.sameO, Tenant.cleared, Tenant.discardFrame, Tenant.startFrame, Tenant.turn, Tenant.reset, and_self]; done))
    | split

theorem State.serveRequest_touches {L : List Part} {s0 : State} (s : State) (ch : Channel) (hL : Within [.draws, .regs, .cfgA, .cfgB, .attn, .safe, .tState, .tSearch, .tTable, .tSolver, .tSel, .tSched, .tOut, .engines, .bears, .jays, .fronts, .cores, .dram, .cascade, .lynx, .boxes, .firmware, .board, .identity, .log, .owl] L)
    (h : Touches L s0 s) : Touches L s0 (s.serveRequest ch) := by
  refine Touches.step ?_ hL h
  unfold State.serveRequest
  dsimp only
  split
  · apply State.respond_touches; on_goal 1 => decide
    (refine Touches.updOwl _ _ (Touches.refl _ _) ?_ (Nat.le_refl _); intro p hp; cases p <;> first | exact absurd hp (by decide) | exact True.intro | ((repeat' apply And.intro) <;> exact rfl))
  · split
    · apply State.respond_touches; on_goal 1 => decide
      refine State.serveOp_touches _ _ _ _ (by decide) ?_ _ ‹_›
      (refine Touches.updOwl _ _ (Touches.refl _ _) ?_ (Nat.le_refl _); intro p hp; cases p <;> first | exact absurd hp (by decide) | exact True.intro | ((repeat' apply And.intro) <;> exact rfl))
    · apply State.holdChunk_touches; on_goal 1 => decide
      (refine Touches.updOwl _ _ (Touches.refl _ _) ?_ (Nat.le_refl _); intro p hp; cases p <;> first | exact absurd hp (by decide) | exact True.intro | ((repeat' apply And.intro) <;> exact rfl))

theorem State.serveUpTo_touches {L : List Part} {s0 : State} (s : State) (ch : Channel) (hL : Within [.draws, .regs, .cfgA, .cfgB, .attn, .safe, .tState, .tSearch, .tTable, .tSolver, .tSel, .tSched, .tOut, .engines, .bears, .jays, .fronts, .cores, .dram, .cascade, .lynx, .boxes, .firmware, .board, .identity, .log, .owl] L) (h : Touches L s0 s) :
    Touches L s0 (State.serveUpTo s ch) := by
  refine Touches.step ?_ hL h
  unfold State.serveUpTo
  try dsimp only
  with_reducible repeat' first
    | exact Touches.refl _ _
    | assumption
    | exact Nat.le_refl _
    | exact Nat.le_add_right _ _
    | exact id
    | refine Touches.forEach ?_ (fun _ _ _ => ?_)
    | (apply State.serveRequest_touches; on_goal 1 => decide)
    | split

theorem State.mailRow_touches {L : List Part} {s0 : State} (s : State) (isOp : Nat → Bool) (ch : Channel) (req : List Byte) (hL : Within [.draws, .regs, .cfgA, .cfgB, .attn, .safe, .tState, .tSearch, .tTable, .tSolver, .tSel, .tSched, .tOut, .engines, .bears, .jays, .fronts, .cores, .dram, .cascade, .lynx, .boxes, .firmware, .board, .identity, .log, .owl] L) (h : Touches L s0 s) :
    Touches L s0 (State.mailRow s isOp ch req) := by
  refine Touches.step ?_ hL h
  unfold State.mailRow
  try dsimp only
  with_reducible repeat' first
    | exact Touches.refl _ _
    | assumption
    | exact Nat.le_refl _
    | exact Nat.le_add_right _ _
    | exact id
    | (apply State.arriveRequest_touches; on_goal 1 => decide)
    | (apply State.setReqBytes_touches; on_goal 1 => decide)
    | (apply State.serveUpTo_touches; on_goal 1 => decide)
    | split

theorem State.mailOp_touches {L : List Part} {s0 : State} (s : State) (op : Nat) (ch : Channel) (req : List Byte) (hL : Within [.draws, .regs, .cfgA, .cfgB, .attn, .safe, .tState, .tSearch, .tTable, .tSolver, .tSel, .tSched, .tOut, .engines, .bears, .jays, .fronts, .cores, .dram, .cascade, .lynx, .boxes, .firmware, .board, .identity, .log, .owl] L) (h : Touches L s0 s) :
    Touches L s0 (State.mailOp s op ch req) := by
  refine Touches.step ?_ hL h
  unfold State.mailOp
  try dsimp only
  with_reducible repeat' first
    | exact Touches.refl _ _
    | assumption
    | exact Nat.le_refl _
    | exact Nat.le_add_right _ _
    | exact id
    | (apply State.mailRow_touches; on_goal 1 => decide)
    | split

theorem State.mailGo_touches {L : List Part} {s0 : State} (s : State) (p : Port) (hL : Within [.boxes] L) (h : Touches L s0 s) :
    Touches L s0 (State.mailGo s p) := by
  refine Touches.step ?_ hL h
  unfold State.mailGo
  try dsimp only
  with_reducible repeat' first
    | exact Touches.refl _ _
    | assumption
    | exact Nat.le_refl _
    | exact Nat.le_add_right _ _
    | exact id
    | (apply State.updBox_touches; on_goal 1 => decide)
    | (apply State.arriveRequest_touches; on_goal 1 => decide)
    | split

theorem State.eraseDone_touches {L : List Part} {s0 : State} (s : State) (hL : Within [.draws, .regs, .cfgA, .cfgB, .attn, .safe, .tState, .tSearch, .tTable, .tSolver, .tSel, .tSched, .tOut, .engines, .bears, .jays, .fronts, .cores, .dram, .cascade, .lynx, .boxes, .firmware, .board, .identity, .log, .owl] L) (h : Touches L s0 s) :
    Touches L s0 s.eraseDone := by
  refine Touches.step ?_ hL h
  unfold State.eraseDone
  dsimp only
  split
  · exact Touches.refl _ _
  · split
    · exact Touches.refl _ _
    · refine Touches.forEach (Touches.updOwl _ _ (Touches.refl _ _) (by intro p hp; cases p <;> first | exact absurd hp (by decide) | exact True.intro | exact rfl | ((repeat' apply And.intro) <;> exact rfl)) (Nat.le_refl _)) fun u a k => ?_
      split
      · apply State.respond_touches; on_goal 1 => decide
        exact State.serveOp_touches _ _ _ _ (by decide) k _ ‹_›
      · exact k

theorem State.smbRead_touches {L : List Part} {s0 : State} (s : State) (cmd : Byte) (hL : Within [.owl] L) (h : Touches L s0 s) :
    Touches L s0 (State.smbRead s cmd) := by
  refine Touches.step ?_ hL h
  unfold State.smbRead
  try dsimp only
  with_reducible repeat' first
    | exact Touches.refl _ _
    | assumption
    | exact Nat.le_refl _
    | exact Nat.le_add_right _ _
    | exact id
    | apply Touches.updOwl
    | (intro p hp; cases p <;> first | exact absurd hp (by decide) | (simp only [Part.sameT, Part.sameF, Part.sameO, Tenant.cleared, Tenant.discardFrame, Tenant.startFrame, Tenant.turn, Tenant.reset, and_self]; done))
    | split

theorem State.smbTime_touches {L : List Part} {s0 : State} (s : State) (hL : Within [.owl] L) (h : Touches L s0 s) :
    Touches L s0 (State.smbTime s) := by
  refine Touches.step ?_ hL h
  unfold State.smbTime
  try dsimp only
  with_reducible repeat' first
    | exact Touches.refl _ _
    | assumption
    | exact Nat.le_refl _
    | exact Nat.le_add_right _ _
    | exact id
    | apply Touches.updOwl
    | (intro p hp; cases p <;> first | exact absurd hp (by decide) | (simp only [Part.sameT, Part.sameF, Part.sameO, Tenant.cleared, Tenant.discardFrame, Tenant.startFrame, Tenant.turn, Tenant.reset, and_self]; done))
    | split

theorem State.flushLog_touches {L : List Part} {s0 : State} (s : State) (hL : Within [.attn, .log] L) (h : Touches L s0 s) :
    Touches L s0 (State.flushLog s) := by
  refine Touches.step ?_ hL h
  unfold State.flushLog
  try dsimp only
  with_reducible repeat' first
    | exact Touches.refl _ _
    | assumption
    | exact Nat.le_refl _
    | exact Nat.le_add_right _ _
    | exact id
    | (apply State.logEvent_touches; on_goal 1 => decide)
    | apply Touches.updOwl
    | (intro p hp; cases p <;> first | exact absurd hp (by decide) | (simp only [Part.sameT, Part.sameF, Part.sameO, Tenant.cleared, Tenant.discardFrame, Tenant.startFrame, Tenant.turn, Tenant.reset, and_self]; done))
    | split

theorem State.checkpoint_touches {L : List Part} {s0 : State} (s : State) (hL : Within [.owl] L) (h : Touches L s0 s) :
    Touches L s0 (State.checkpoint s) := by
  refine Touches.step ?_ hL h
  unfold State.checkpoint
  try dsimp only
  with_reducible repeat' first
    | exact Touches.refl _ _
    | assumption
    | exact Nat.le_refl _
    | exact Nat.le_add_right _ _
    | exact id
    | apply Touches.updOwl
    | (intro p hp; cases p <;> first | exact absurd hp (by decide) | (simp only [Part.sameT, Part.sameF, Part.sameO, Tenant.cleared, Tenant.discardFrame, Tenant.startFrame, Tenant.turn, Tenant.reset, and_self]; done))
    | split

theorem State.railSample_touches {L : List Part} {s0 : State} (s : State) (rails : Bank (BitVec 16) 15) (current : BitVec 16) (stackTemps : Bank (BitVec 16) 4) (power : BitVec 16) (hL : Within [.attn, .power, .log, .owl] L) (h : Touches L s0 s) :
    Touches L s0 (s.railSample rails current stackTemps power) := by
  refine Touches.step ?_ hL h
  unfold State.railSample
  try dsimp only
  with_reducible repeat' first
    | exact Touches.refl _ _
    | assumption
    | exact Nat.le_refl _
    | exact Nat.le_add_right _ _
    | exact id
    | (apply State.updPower_touches; on_goal 1 => decide)
    | (apply State.judgeAlert_touches; on_goal 1 => decide)
    | (apply State.updPower_touches; on_goal 1 => decide)
    | apply Touches.updOwl
    | (intro p hp; cases p <;> first | exact absurd hp (by decide) | (simp only [Part.sameT, Part.sameF, Part.sameO, Tenant.cleared, Tenant.discardFrame, Tenant.startFrame, Tenant.turn, Tenant.reset, and_self]; done))
    | split

theorem State.owlSecond_touches {L : List Part} {s0 : State} (s : State) (hL : Within [.clock, .owl] L) (h : Touches L s0 s) :
    Touches L s0 (State.owlSecond s) := by
  refine Touches.step ?_ hL h
  unfold State.owlSecond
  try dsimp only
  with_reducible repeat' first
    | exact Touches.refl _ _
    | assumption
    | exact Nat.le_refl _
    | exact Nat.le_add_right _ _
    | exact id
    | (intro hk; simpa only [Clock.switchAll_trimCode, Clock.endSwitch_trimCode, Clock.offer_trimCode, Clock.startTrim_trimCode] using hk)
    | (apply State.bumpCounter_touches; on_goal 1 => decide)
    | (apply State.updClock_touches; on_goal 1 => decide)
    | apply Touches.updOwl
    | (intro p hp; cases p <;> first | exact absurd hp (by decide) | (simp only [Part.sameT, Part.sameF, Part.sameO, Tenant.cleared, Tenant.discardFrame, Tenant.startFrame, Tenant.turn, Tenant.reset, and_self]; done))
    | split

theorem State.rtcSecond_touches {L : List Part} {s0 : State} (s : State) (hL : Within [.clock, .owl, .cal] L) (h : Touches L s0 s) :
    Touches L s0 (State.rtcSecond s) := by
  refine Touches.step ?_ hL h
  unfold State.rtcSecond
  try dsimp only
  with_reducible repeat' first
    | exact Touches.refl _ _
    | assumption
    | exact Nat.le_refl _
    | exact Nat.le_add_right _ _
    | exact id
    | exact Calendar.legal_tick
    | (apply State.owlSecond_touches; on_goal 1 => decide)
    | (apply State.updCal_touches; on_goal 1 => decide)
    | split

theorem State.calSet_touches {L : List Part} {s0 : State} (s : State) (w : Writer) (hL : Within [.cfgA, .cfgB, .attn, .log, .cal] L) (h : Touches L s0 s) :
    Touches L s0 (State.calSet s w) := by
  refine Touches.step ?_ hL h
  unfold State.calSet
  try dsimp only
  with_reducible repeat' first
    | exact Touches.refl _ _
    | assumption
    | exact Nat.le_refl _
    | exact Nat.le_add_right _ _
    | exact id
    | (refine fun _ => Calendar.legal_set ?_; simp_all; done)
    | (apply State.refuseWrite_touches; on_goal 1 => decide)
    | (apply State.recordDirect_touches; on_goal 1 => decide)
    | (apply State.updCal_touches; on_goal 1 => decide)
    | (apply State.logEvent_touches; on_goal 1 => decide)
    | split

theorem State.sramCorrected_touches {L : List Part} {s0 : State} (s : State) (x : Storage) (hL : Within [.attn] L) (h : Touches L s0 s) :
    Touches L s0 (State.sramCorrected s x) := by
  refine Touches.step ?_ hL h
  unfold State.sramCorrected
  try dsimp only
  with_reducible repeat' first
    | exact Touches.refl _ _
    | assumption
    | exact Nat.le_refl _
    | exact Nat.le_add_right _ _
    | exact id
    | (apply State.bumpErr_touches; on_goal 1 => decide)
    | split

theorem State.countUe_touches {L : List Part} {s0 : State} (s : State) (k : UnitKind) (n : Nat) (hL : Within [.draws, .regs, .attn, .safe, .tState, .tSearch, .tTable, .tSolver, .tSel, .tSched, .tOut, .engines, .bears, .jays, .fronts, .cores, .dram, .cascade, .lynx, .identity, .log] L) (h : Touches L s0 s) :
    Touches L s0 (State.countUe s k n).1 := by
  refine Touches.step ?_ hL h
  unfold State.countUe
  try dsimp only
  with_reducible repeat' first
    | exact Touches.refl _ _
    | assumption
    | exact Nat.le_refl _
    | exact Nat.le_add_right _ _
    | exact id
    | (apply State.updView_touches; on_goal 1 => decide)
    | (apply State.fenceUnit_touches; on_goal 1 => decide)
    | split

theorem State.internalFault_touches {L : List Part} {s0 : State} (s : State) (k : UnitKind) (n : Nat) (hL : Within [.draws, .regs, .attn, .safe, .tState, .tSearch, .tTable, .tSolver, .tSel, .tSched, .tOut, .engines, .bears, .jays, .fronts, .cores, .dram, .cascade, .lynx, .power, .identity, .log] L) (h : Touches L s0 s) :
    Touches L s0 (State.internalFault s k n) := by
  refine Touches.step ?_ hL h
  unfold State.internalFault
  try dsimp only
  with_reducible repeat' first
    | exact Touches.refl _ _
    | assumption
    | exact Nat.le_refl _
    | exact Nat.le_add_right _ _
    | exact id
    | (apply State.setView_touches; on_goal 1 => decide)
    | (apply State.countUe_touches; on_goal 1 => decide)
    | (apply State.owlUnitReset_touches; on_goal 1 => decide)
    | split

theorem State.coreStoreFault_touches {L : List Part} {s0 : State} (s : State) (c : Nat) (hL : Within [.draws, .regs, .attn, .safe, .tState, .tSearch, .tTable, .tSolver, .tSel, .tSched, .tOut, .engines, .bears, .jays, .fronts, .cores, .dram, .cascade, .lynx, .power, .identity, .log] L) (h : Touches L s0 s) :
    Touches L s0 (State.coreStoreFault s c) := by
  refine Touches.step ?_ hL h
  unfold State.coreStoreFault
  try dsimp only
  with_reducible repeat' first
    | exact Touches.refl _ _
    | assumption
    | exact Nat.le_refl _
    | exact Nat.le_add_right _ _
    | exact id
    | (apply State.faultPart_touches; on_goal 1 => decide)
    | (apply State.internalFault_touches; on_goal 1 => decide)
    | split

theorem State.badgerFault_touches {L : List Part} {s0 : State} (s : State) (e : Fin 16) (hL : Within [.draws, .regs, .attn, .safe, .tState, .tSearch, .tTable, .tSolver, .tSel, .tSched, .tOut, .engines, .bears, .jays, .fronts, .cores, .dram, .cascade, .lynx, .power, .identity, .log] L) (h : Touches L s0 s) :
    Touches L s0 (State.badgerFault s e) := by
  refine Touches.step ?_ hL h
  unfold State.badgerFault
  try dsimp only
  with_reducible repeat' first
    | exact Touches.refl _ _
    | assumption
    | exact Nat.le_refl _
    | exact Nat.le_add_right _ _
    | exact id
    | (apply State.endCheck_touches; on_goal 1 => decide)
    | (apply State.updEngine_touches; on_goal 1 => decide)
    | (apply State.internalFault_touches; on_goal 1 => decide)
    | split

theorem State.bitmapFault_touches {L : List Part} {s0 : State} (s : State) (e : Fin 16) (word : Nat) (hL : Within [.draws, .regs, .attn, .safe, .tState, .tSearch, .tTable, .tSolver, .tSel, .tSched, .tOut, .engines, .bears, .jays, .fronts, .cores, .dram, .cascade, .lynx, .identity, .log] L) (h : Touches L s0 s) :
    Touches L s0 (s.bitmapFault e word) := by
  refine Touches.step ?_ hL h
  unfold State.bitmapFault
  try dsimp only
  with_reducible repeat' first
    | exact Touches.refl _ _
    | assumption
    | exact Nat.le_refl _
    | exact Nat.le_add_right _ _
    | exact id
    | (apply State.updTable_touches; on_goal 1 => decide)
    | (apply State.countUe_touches; on_goal 1 => decide)
    | (apply State.judgeImminent_touches; on_goal 1 => decide)
    | refine Touches.forTenants ?_ (fun _ _ _ => ?_)
    | (apply State.updTable_touches; on_goal 1 => decide)
    | split

theorem State.containUe_touches {L : List Part} {s0 : State} (s : State) (x : Storage) (hL : Within [.draws, .regs, .shadow, .dirty, .attn, .safe, .tState, .tWorld, .tSearch, .tTable, .tSolver, .tSel, .tSched, .tOut, .tQueues, .tCmds, .engines, .bears, .jays, .fronts, .cores, .dram, .cascade, .lynx, .power, .fault, .boxes, .firmware, .identity, .log] L) (h : Touches L s0 s) :
    Touches L s0 (State.containUe s x) := by
  refine Touches.step ?_ hL h
  unfold State.containUe
  try dsimp only
  with_reducible repeat' first
    | exact Touches.refl _ _
    | assumption
    | exact Nat.le_refl _
    | exact Nat.le_add_right _ _
    | exact id
    | (apply State.coreStoreFault_touches; on_goal 1 => decide)
    | (apply State.badgerFault_touches; on_goal 1 => decide)
    | (apply State.bitmapFault_touches; on_goal 1 => decide)
    | (apply State.internalFault_touches; on_goal 1 => decide)
    | (apply State.updWorld_touches; on_goal 1 => decide)
    | (apply State.packageFault_touches; on_goal 1 => decide)
    | (apply State.owlDomainReset_touches; on_goal 1 => decide)
    | split

theorem State.sramUe_touches {L : List Part} {s0 : State} (s : State) (x : Storage) (hL : Within [.draws, .regs, .shadow, .dirty, .attn, .safe, .tState, .tWorld, .tSearch, .tTable, .tSolver, .tSel, .tSched, .tOut, .tQueues, .tCmds, .engines, .bears, .jays, .fronts, .cores, .dram, .cascade, .lynx, .power, .fault, .boxes, .firmware, .identity, .log] L) (h : Touches L s0 s) :
    Touches L s0 (State.sramUe s x) := by
  refine Touches.step ?_ hL h
  unfold State.sramUe
  try dsimp only
  with_reducible repeat' first
    | exact Touches.refl _ _
    | assumption
    | exact Nat.le_refl _
    | exact Nat.le_add_right _ _
    | exact id
    | (apply State.logEvent_touches; on_goal 1 => decide)
    | (apply State.draw_touches; on_goal 1 => decide)
    | (apply State.bumpErr_touches; on_goal 1 => decide)
    | (apply State.containUe_touches; on_goal 1 => decide)
    | split

theorem State.dramCorrected_touches {L : List Part} {s0 : State} (s : State) (a : Nat) (hL : Within [.regs, .attn, .dram, .owl] L) (h : Touches L s0 s) :
    Touches L s0 (State.dramCorrected s a) := by
  refine Touches.step ?_ hL h
  unfold State.dramCorrected
  try dsimp only
  with_reducible repeat' first
    | exact Touches.refl _ _
    | assumption
    | exact Nat.le_refl _
    | exact Nat.le_add_right _ _
    | exact id
    | exact Dram.ok_queued _ _
    | (apply State.setLive_touches; on_goal 1 => decide)
    | (apply State.bumpCounter_touches; on_goal 1 => decide)
    | (apply State.bumpErr_touches; on_goal 1 => decide)
    | (apply State.updDram_touches; on_goal 1 => decide)
    | split

theorem State.dramUe_touches {L : List Part} {s0 : State} (s : State) (a : Nat) (hL : Within [.regs, .attn, .dram, .log] L) (h : Touches L s0 s) :
    Touches L s0 (State.dramUe s a) := by
  refine Touches.step ?_ hL h
  unfold State.dramUe
  try dsimp only
  with_reducible repeat' first
    | exact Touches.refl _ _
    | assumption
    | exact Nat.le_refl _
    | exact Nat.le_add_right _ _
    | exact id
    | exact Dram.ok_poison _
    | (apply State.setLive_touches; on_goal 1 => decide)
    | (apply State.logEvent_touches; on_goal 1 => decide)
    | (apply State.raise_touches; on_goal 1 => decide)
    | (apply State.bumpErr_touches; on_goal 1 => decide)
    | (apply State.updDram_touches; on_goal 1 => decide)
    | split

theorem State.loadJtag_touches {L : List Part} {s0 : State} (s : State) (ir : Byte) (d : List Bool) (hL : Within [.attn, .cascade, .power, .firmware, .log, .owl, .jtag] L) (h : Touches L s0 s) :
    Touches L s0 (State.loadJtag s ir d) := by
  refine Touches.step ?_ hL h
  unfold State.loadJtag
  try dsimp only
  with_reducible repeat' first
    | exact Touches.refl _ _
    | assumption
    | exact Nat.le_refl _
    | exact Nat.le_add_right _ _
    | exact id
    | (apply State.startBoot_touches; on_goal 1 => decide)
    | (apply State.updPower_touches; on_goal 1 => decide)
    | split
    | (apply Touches.set_jtag; on_goal 1 => decide)

theorem State.loadTest_touches {L : List Part} {s0 : State} (s : State) (ir : Byte) (d : List Bool) (hL : Within [.draws, .regs, .shadow, .dirty, .cfgA, .cfgB, .setOrder, .attn, .tick, .passed, .running, .safe, .frame, .tState, .tWorld, .tSearch, .tTable, .tSolver, .tSel, .tSched, .tOut, .tSpoor, .tQueues, .tCmds, .tDone, .tRings, .engines, .bears, .jays, .fronts, .cores, .slotsPeak, .dram, .links, .cascade, .lynx, .clock, .power, .fault, .boxes, .firmware, .board, .identity, .log, .owl, .jtag] L) (h : Touches L s0 s) :
    Touches L s0 (State.loadTest s ir d) := by
  refine Touches.step ?_ hL h
  unfold State.loadTest
  try dsimp only
  with_reducible repeat' first
    | exact Touches.refl _ _
    | assumption
    | exact Nat.le_refl _
    | exact Nat.le_add_right _ _
    | exact id
    | (apply State.updPower_touches; on_goal 1 => decide)
    | (apply State.packageReset_touches; on_goal 1 => decide)
    | split
    | (apply Touches.set_jtag_draws; on_goal 1 => decide)

theorem State.writePageCtrl_touches {L : List Part} {s0 : State} (s : State) (w : Writer) (page v : Nat) (hL : Within [.shadow, .dirty, .cfgA, .cfgB, .attn] L) (h : Touches L s0 s) :
    Touches L s0 (State.writePageCtrl s w page v) := by
  refine Touches.step ?_ hL h
  unfold State.writePageCtrl
  try dsimp only
  with_reducible repeat' first
    | exact Touches.refl _ _
    | assumption
    | exact Nat.le_refl _
    | exact Nat.le_add_right _ _
    | exact id
    | (apply State.updAttn_touches; on_goal 1 => decide)
    | (apply State.bumpErr_touches; on_goal 1 => decide)
    | (apply State.discardPage_touches; on_goal 1 => decide)
    | (apply State.reloadShadows_touches; on_goal 1 => decide)
    | split

theorem State.writeLatch_touches {L : List Part} {s0 : State} (s : State) (w : Writer) (page : Nat) (v : Word) (hL : Within [.attn] L) (h : Touches L s0 s) :
    Touches L s0 (State.writeLatch s w page v) := by
  refine Touches.step ?_ hL h
  unfold State.writeLatch
  try dsimp only
  with_reducible repeat' first
    | exact Touches.refl _ _
    | assumption
    | exact Nat.le_refl _
    | exact Nat.le_add_right _ _
    | exact id
    | (apply State.updAttn_touches; on_goal 1 => decide)
    | split

theorem State.writeMask_touches {L : List Part} {s0 : State} (s : State) (w : Writer) (page : Nat) (v : Word) (hL : Within [.attn] L) (h : Touches L s0 s) :
    Touches L s0 (s.writeMask w page v) := by
  refine Touches.step ?_ hL h
  unfold State.writeMask
  try dsimp only
  with_reducible repeat' first
    | exact Touches.refl _ _
    | assumption
    | exact Nat.le_refl _
    | exact Nat.le_add_right _ _
    | exact id
    | (apply State.updAttn_touches; on_goal 1 => decide)
    | (apply State.bumpErr_touches; on_goal 1 => decide)
    | (apply State.updAttn_touches; on_goal 1 => decide)
    | split

theorem State.writeCrossed_touches {L : List Part} {s0 : State} (s : State) (w : Writer) (page : Nat) (v : Word) (hL : Within [.attn] L) (h : Touches L s0 s) :
    Touches L s0 (State.writeCrossed s w page v) := by
  refine Touches.step ?_ hL h
  unfold State.writeCrossed
  try dsimp only
  with_reducible repeat' first
    | exact Touches.refl _ _
    | assumption
    | exact Nat.le_refl _
    | exact Nat.le_add_right _ _
    | exact id
    | (apply State.updAttn_touches; on_goal 1 => decide)
    | split

theorem State.writeCount_touches {L : List Part} {s0 : State} (s : State) (w : Writer) (page v : Nat) (hL : Within [.attn] L) (h : Touches L s0 s) :
    Touches L s0 (State.writeCount s w page v) := by
  refine Touches.step ?_ hL h
  unfold State.writeCount
  try dsimp only
  with_reducible repeat' first
    | exact Touches.refl _ _
    | assumption
    | exact Nat.le_refl _
    | exact Nat.le_add_right _ _
    | exact id
    | (apply State.updAttn_touches; on_goal 1 => decide)
    | (apply State.bumpErr_touches; on_goal 1 => decide)
    | split

theorem State.writeHeader_touches {L : List Part} {s0 : State} (s : State) (w : Writer) (page off v : Nat) (hL : Within [.regs, .shadow, .dirty, .cfgA, .cfgB, .setOrder, .attn, .tState, .tWorld, .tSearch, .tTable, .tSolver, .tSel, .tSched, .tOut, .tSpoor, .tQueues, .tCmds, .tDone, .tRings, .engines, .bears, .jays, .cores, .lynx] L) (h : Touches L s0 s) :
    Touches L s0 (State.writeHeader s w page off v) := by
  refine Touches.step ?_ hL h
  unfold State.writeHeader
  try dsimp only
  with_reducible repeat' first
    | exact Touches.refl _ _
    | assumption
    | exact Nat.le_refl _
    | exact Nat.le_add_right _ _
    | exact id
    | (apply State.writePageCtrl_touches; on_goal 1 => decide)
    | (apply State.writeLatch_touches; on_goal 1 => decide)
    | (apply State.writeMask_touches; on_goal 1 => decide)
    | (apply State.commitWrite_touches; on_goal 1 => decide)
    | (apply State.writeCrossed_touches; on_goal 1 => decide)
    | (apply State.writeCount_touches; on_goal 1 => decide)
    | split

theorem State.writeQCtrl_touches {L : List Part} {s0 : State} (s : State) (t : Fin 16) (q : Fin 8) (v : Nat) (hL : Within [.regs, .tQueues] L) (h : Touches L s0 s) :
    Touches L s0 (State.writeQCtrl s t q v) := by
  refine Touches.step ?_ hL h
  unfold State.writeQCtrl
  try dsimp only
  with_reducible repeat' first
    | exact Touches.refl _ _
    | assumption
    | exact Nat.le_refl _
    | exact Nat.le_add_right _ _
    | exact id
    | (apply State.setLive_touches; on_goal 1 => decide)
    | (apply State.updQueue_touches; on_goal 1 => decide)
    | (apply State.refreshActive_touches; on_goal 1 => decide)
    | (apply State.reserveFrame_touches; on_goal 1 => decide)
    | split

theorem State.writeQStatus_touches {L : List Part} {s0 : State} (s : State) (t : Fin 16) (q : Fin 8) (v : Nat) (hL : Within [.tQueues] L) (h : Touches L s0 s) :
    Touches L s0 (State.writeQStatus s t q v) := by
  refine Touches.step ?_ hL h
  unfold State.writeQStatus
  try dsimp only
  with_reducible repeat' first
    | exact Touches.refl _ _
    | assumption
    | exact Nat.le_refl _
    | exact Nat.le_add_right _ _
    | exact id
    | (apply State.updQueue_touches; on_goal 1 => decide)
    | split

theorem State.writeTCtrl_touches {L : List Part} {s0 : State} (s : State) (w : Writer) (t : Fin 16) (v : Nat) (hL : Within [.draws, .regs, .shadow, .dirty, .attn, .safe, .frame, .tState, .tWorld, .tSearch, .tTable, .tSolver, .tSel, .tSched, .tOut, .tSpoor, .tQueues, .tCmds, .engines, .bears, .jays, .cores, .dram, .cascade] L) (h : Touches L s0 s) :
    Touches L s0 (State.writeTCtrl s w t v) := by
  refine Touches.step ?_ hL h
  unfold State.writeTCtrl
  try dsimp only
  with_reducible repeat' first
    | exact Touches.refl _ _
    | assumption
    | exact Nat.le_refl _
    | exact Nat.le_add_right _ _
    | exact id
    | (apply State.requestReset_touches; on_goal 1 => decide)
    | (apply State.requestHold_touches; on_goal 1 => decide)
    | (apply State.requestRelease_touches; on_goal 1 => decide)
    | split

theorem State.writeTail_touches {L : List Part} {s0 : State} (s : State) (w : Writer) (v : Nat) (hL : Within [.regs, .cfgA, .cfgB, .attn] L) (h : Touches L s0 s) :
    Touches L s0 (State.writeTail s w v) := by
  refine Touches.step ?_ hL h
  unfold State.writeTail
  try dsimp only
  with_reducible repeat' first
    | exact Touches.refl _ _
    | assumption
    | exact Nat.le_refl _
    | exact Nat.le_add_right _ _
    | exact id
    | (apply State.recordDirect_touches; on_goal 1 => decide)
    | (apply State.setLive_touches; on_goal 1 => decide)
    | split

theorem State.writeMsix_touches {L : List Part} {s0 : State} (s : State) (p : Port) (off v : Nat) (hL : Within [.regs, .cfgA, .cfgB] L) (h : Touches L s0 s) :
    Touches L s0 (State.writeMsix s p off v) := by
  refine Touches.step ?_ hL h
  unfold State.writeMsix
  try dsimp only
  with_reducible repeat' first
    | exact Touches.refl _ _
    | assumption
    | exact Nat.le_refl _
    | exact Nat.le_add_right _ _
    | exact id
    | (apply State.setLive_touches; on_goal 1 => decide)
    | (apply State.sendMsix_touches; on_goal 1 => decide)
    | split

theorem State.writeAction_touches {L : List Part} {s0 : State} (s : State) (w : Writer) (page off v : Nat)
    (hL : Within [.draws, .doorbells, .regs, .shadow, .dirty, .cfgA, .cfgB, .setOrder, .attn, .tick, .passed, .running, .safe, .frame, .tState, .tWorld, .tSearch, .tTable, .tSolver, .tSel, .tSched, .tOut, .tSpoor, .tQueues, .tCmds, .tDone, .tRings, .engines, .bears, .jays, .fronts, .cores, .slotsPeak, .dram, .links, .cascade, .lynx, .clock, .power, .fault, .boxes, .firmware, .board, .identity, .log, .owl, .cal] L) (h : Touches L s0 s) : ∀ y, s.writeAction w page off v = some y → Touches L s0 y := by
  intro y hy
  refine Touches.step ?_ hL h
  unfold State.writeAction at hy
  dsimp only at hy
  with_reducible repeat' first
    | contradiction
    | (cases hy; done)
    | split at hy
  all_goals (obtain rfl : _ = y := Option.some.inj hy)
  with_reducible repeat' first
    | exact Touches.refl _ _
    | exact Nat.le_refl _
    | exact id
    | exact fun _ => Nat.le_of_lt_succ (Nat.mod_lt _ (by decide))
    | (apply State.writeTarget_touches; on_goal 1 => decide)
    | (apply State.writeSrcEn_touches; on_goal 1 => decide)
    | (apply State.updClock_touches; on_goal 1 => decide)
    | (apply State.writeTrimCtrl_touches; on_goal 1 => decide)
    | (apply State.writeMeter_touches; on_goal 1 => decide)
    | (apply State.pkgRst_touches; on_goal 1 => decide)
    | (apply State.unitReset_touches; on_goal 1 => decide)
    | (apply State.setRunning_touches; on_goal 1 => decide)
    | (apply State.armResync_touches; on_goal 1 => decide)
    | (apply State.releaseSafe_touches; on_goal 1 => decide)
    | (apply State.updLynx_touches; on_goal 1 => decide)
    | (apply State.writeRoute_touches; on_goal 1 => decide)
    | (apply State.mailGo_touches; on_goal 1 => decide)
    | (apply State.updBox_touches; on_goal 1 => decide)
    | (apply State.calSet_touches; on_goal 1 => decide)
    | (apply State.writeTail_touches; on_goal 1 => decide)
    | (apply State.writeMsix_touches; on_goal 1 => decide)
    | (apply State.writeQCtrl_touches; on_goal 1 => decide)
    | (apply State.ringSq_touches; on_goal 1 => decide)
    | (apply State.ringCq_touches; on_goal 1 => decide)
    | (apply State.writeQStatus_touches; on_goal 1 => decide)
    | (apply State.writeTCtrl_touches; on_goal 1 => decide)
    | (apply State.enableLink_touches; on_goal 1 => decide)
    | (apply State.retrainLink_touches; on_goal 1 => decide)
    | split

theorem State.writeA_touches {L : List Part} {s0 : State} (s : State) (w : Writer) (page off : Nat) (r : Reg)
    (mask v : Nat) (hL : Within [.draws, .doorbells, .regs, .shadow, .dirty, .cfgA, .cfgB, .setOrder, .attn, .tick, .passed, .running, .safe, .frame, .tState, .tWorld, .tSearch, .tTable, .tSolver, .tSel, .tSched, .tOut, .tSpoor, .tQueues, .tCmds, .tDone, .tRings, .engines, .bears, .jays, .fronts, .cores, .slotsPeak, .dram, .links, .cascade, .lynx, .clock, .power, .fault, .boxes, .firmware, .board, .identity, .log, .owl, .cal] L) (h : Touches L s0 s) : Touches L s0 (s.writeA w page off r mask v) := by
  refine Touches.step ?_ hL h
  unfold State.writeA
  dsimp only
  split
  · exact State.recordDirect_touches _ _ _ _ _ (by decide) (Touches.refl _ _)
  · split
    · exact State.writeAction_touches _ _ _ _ _ (by decide) (Touches.refl _ _) _ ‹_›
    · split
      · exact Touches.refl _ _
      · exact State.setLive_touches _ _ _ _ (by decide) (Touches.refl _ _)

theorem State.writeShadow_touches {L : List Part} {s0 : State} (s : State) (page off : Nat) (r : Reg) (mask v : Nat) (hL : Within [.shadow, .dirty] L) (h : Touches L s0 s) :
    Touches L s0 (State.writeShadow s page off r mask v) := by
  refine Touches.step ?_ hL h
  unfold State.writeShadow
  try dsimp only
  with_reducible repeat' first
    | exact Touches.refl _ _
    | assumption
    | exact Nat.le_refl _
    | exact Nat.le_add_right _ _
    | exact id
    | exact fun h => List.Pairwise.filter _ h
    | exact fun h => rise_sunion h _
    | exact fun h => rise_sinsert h _
    | (apply State.setShadow_touches; on_goal 1 => decide)
    | split
    | (apply Touches.set_dirty; on_goal 1 => decide)

theorem State.writeDirect_touches {L : List Part} {s0 : State} (s : State) (w : Writer) (page off : Nat) (r : Reg) (mask v : Nat) (hL : Within [.regs, .shadow, .dirty, .cfgA, .cfgB, .attn, .tState, .tWorld, .tSearch, .tTable, .tSolver, .tSel, .tSched, .tOut, .tSpoor, .tQueues, .tCmds, .tDone, .tRings, .engines, .bears, .jays, .cores, .lynx] L) (h : Touches L s0 s) :
    Touches L s0 (State.writeDirect s w page off r mask v) := by
  refine Touches.step ?_ hL h
  unfold State.writeDirect
  try dsimp only
  with_reducible repeat' first
    | exact Touches.refl _ _
    | assumption
    | exact Nat.le_refl _
    | exact Nat.le_add_right _ _
    | exact id
    | exact fun h => List.Pairwise.filter _ h
    | exact fun h => rise_sunion h _
    | exact fun h => rise_sinsert h _
    | (apply State.recordDirect_touches; on_goal 1 => decide)
    | (apply State.withChanges_touches; on_goal 1 => decide)
    | (apply State.setShadow_touches; on_goal 1 => decide)
    | (apply State.applyChanges_touches; on_goal 1 => decide)
    | split
    | (apply Touches.set_dirty; on_goal 1 => decide)

theorem State.writeBlock_touches {L : List Part} {s0 : State} (s : State) (w : Writer) (page off v : Nat) (hL : Within [.draws, .doorbells, .regs, .shadow, .dirty, .cfgA, .cfgB, .setOrder, .attn, .tick, .passed, .running, .safe, .frame, .tState, .tWorld, .tSearch, .tTable, .tSolver, .tSel, .tSched, .tOut, .tSpoor, .tQueues, .tCmds, .tDone, .tRings, .engines, .bears, .jays, .fronts, .cores, .slotsPeak, .dram, .links, .cascade, .lynx, .clock, .power, .fault, .boxes, .firmware, .board, .identity, .log, .owl, .cal] L) (h : Touches L s0 s) :
    Touches L s0 (State.writeBlock s w page off v) := by
  refine Touches.step ?_ hL h
  unfold State.writeBlock
  try dsimp only
  with_reducible repeat' first
    | exact Touches.refl _ _
    | assumption
    | exact Nat.le_refl _
    | exact Nat.le_add_right _ _
    | exact id
    | (apply State.bumpErr_touches; on_goal 1 => decide)
    | (apply State.writeA_touches; on_goal 1 => decide)
    | (apply State.writeShadow_touches; on_goal 1 => decide)
    | (apply State.writeDirect_touches; on_goal 1 => decide)
    | split

theorem State.writeReg_touches {L : List Part} {s0 : State} (s : State) (w : Writer) (page off v : Nat) (hL : Within [.draws, .doorbells, .regs, .shadow, .dirty, .cfgA, .cfgB, .setOrder, .attn, .tick, .passed, .running, .safe, .frame, .tState, .tWorld, .tSearch, .tTable, .tSolver, .tSel, .tSched, .tOut, .tSpoor, .tQueues, .tCmds, .tDone, .tRings, .engines, .bears, .jays, .fronts, .cores, .slotsPeak, .dram, .links, .cascade, .lynx, .clock, .power, .fault, .boxes, .firmware, .board, .identity, .log, .owl, .cal] L) (h : Touches L s0 s) :
    Touches L s0 (State.writeReg s w page off v) := by
  refine Touches.step ?_ hL h
  unfold State.writeReg
  try dsimp only
  with_reducible repeat' first
    | exact Touches.refl _ _
    | assumption
    | exact Nat.le_refl _
    | exact Nat.le_add_right _ _
    | exact id
    | (apply State.writeHeader_touches; on_goal 1 => decide)
    | (apply State.writeBlock_touches; on_goal 1 => decide)
    | split

end Sys2Proof.Machine
end

