-- ==== Sys2Proof/Laws/Commands.lean ====
section
/-! SUPPORT. Every command answers a next state, settled from a state in which at most the listed parts differ: one lemma per
command. -/
set_option linter.unreachableTactic false
set_option linter.unusedTactic false
set_option linter.unusedVariables false
set_option linter.unusedSimpArgs false
namespace Sys2Proof.Machine
open Sys2Proof

theorem execCommandFetch_effect (t : Fin 16) (q : Fin 8) (w : BitVec 512) (s : State) :
    ∃ after, execCommandFetch t q w s = .next (settle after) ∧ Touches [.regs, .shadow, .dirty, .cfgA, .cfgB, .attn, .tOut, .tQueues, .tCmds] s after := by
  refine ⟨_, rfl, ?_⟩
  with_reducible repeat' first
    | exact Touches.refl _ _
    | assumption
    | exact Nat.le_refl _
    | exact id
    | (apply State.fetchCommand_touches; on_goal 1 => decide)
    | split

theorem execSqDoorbell_effect (p : Port) (t : Fin 16) (q : Fin 8) (v : Word) (s : State) :
    ∃ after, execSqDoorbell p t q v s = .next (settle after) ∧ Touches [.doorbells, .tQueues] s after := by
  refine ⟨_, rfl, ?_⟩
  with_reducible repeat' first
    | exact Touches.refl _ _
    | assumption
    | exact Nat.le_refl _
    | exact id
    | (apply State.ringSq_touches; on_goal 1 => decide)
    | split

theorem execCqDoorbell_effect (p : Port) (t : Fin 16) (q : Fin 8) (v : Word) (s : State) :
    ∃ after, execCqDoorbell p t q v s = .next (settle after) ∧ Touches [.tQueues] s after := by
  refine ⟨_, rfl, ?_⟩
  with_reducible repeat' first
    | exact Touches.refl _ _
    | assumption
    | exact Nat.le_refl _
    | exact id
    | (apply State.ringCq_touches; on_goal 1 => decide)
    | split

theorem execCompletionWrite_effect (t : Fin 16) (q : Fin 8) (s : State) :
    ∃ after, execCompletionWrite t q s = .next (settle after) ∧ Touches [.regs, .cfgA, .cfgB, .tQueues] s after := by
  refine ⟨_, rfl, ?_⟩
  with_reducible repeat' first
    | exact Touches.refl _ _
    | assumption
    | exact Nat.le_refl _
    | exact id
    | (apply State.writeCompletion_touches; on_goal 1 => decide)
    | split

theorem execFrameCompletionWrite_effect (t : Fin 16) (s : State) :
    ∃ after, execFrameCompletionWrite t s = .next (settle after) ∧ Touches [.regs, .cfgA, .cfgB, .tQueues, .tDone, .tRings, .lynx] s after := by
  refine ⟨_, rfl, ?_⟩
  with_reducible repeat' first
    | exact Touches.refl _ _
    | assumption
    | exact Nat.le_refl _
    | exact id
    | (apply State.writeFrameCompletion_touches; on_goal 1 => decide)
    | split

theorem execQStatusDmaErrClear_effect (p : Port) (t : Fin 16) (q : Fin 8) (s : State) :
    ∃ after, execQStatusDmaErrClear p t q s = .next (settle after) ∧ Touches [.tQueues] s after := by
  refine ⟨_, rfl, ?_⟩
  with_reducible repeat' first
    | exact Touches.refl _ _
    | assumption
    | exact Nat.le_refl _
    | exact id
    | (apply State.clearDmaErr_touches; on_goal 1 => decide)
    | split

theorem execQueueDmaError_effect (t : Fin 16) (q : Fin 8) (what : DmaFailure) (s : State) :
    ∃ after, execQueueDmaError t q what s = .next (settle after) ∧ Touches [.attn, .tOut, .tQueues] s after := by
  refine ⟨_, rfl, ?_⟩
  with_reducible repeat' first
    | exact Touches.refl _ _
    | assumption
    | exact Nat.le_refl _
    | exact id
    | (apply State.setDmaErr_touches; on_goal 1 => decide)
    | split

theorem execNop_effect (t : Fin 16) (tag : Nat) (s : State) :
    ∃ after, execNop t tag s = .next (settle after) ∧ Touches [.regs, .shadow, .dirty, .attn, .tQueues, .tCmds] s after := by
  refine ⟨_, rfl, ?_⟩
  with_reducible repeat' first
    | exact Touches.refl _ _
    | assumption
    | exact Nat.le_refl _
    | exact id
    | (apply State.nopCmd_touches; on_goal 1 => decide)
    | split

theorem execTaskFetch_effect (t : Fin 16) (s : State) :
    ∃ after, execTaskFetch t s = .next (settle after) ∧ Touches [.draws, .regs, .safe, .frame, .tSearch, .tSolver, .tSel, .tSched, .tOut, .bears, .jays, .cores, .slotsPeak, .dram, .cascade] s after := by
  refine ⟨_, rfl, ?_⟩
  with_reducible repeat' first
    | exact Touches.refl _ _
    | assumption
    | exact Nat.le_refl _
    | exact id
    | (apply State.fetchTask_touches; on_goal 1 => decide)
    | split

theorem execWaitStart_effect (t : Fin 16) (i : Nat) (s : State) :
    ∃ after, execWaitStart t i s = .next (settle after) ∧ Touches [.draws, .regs, .safe, .tSearch, .tSolver, .tSel, .tSched, .tOut, .bears, .jays, .cores, .dram, .cascade] s after := by
  refine ⟨_, rfl, ?_⟩
  with_reducible repeat' first
    | exact Touches.refl _ _
    | assumption
    | exact Nat.le_refl _
    | exact id
    | (apply State.startWait_touches; on_goal 1 => decide)
    | split

theorem execTimerTask_effect (t : Fin 16) (i : Nat) (s : State) :
    ∃ after, execTimerTask t i s = .next (settle after) ∧ Touches [.draws, .regs, .safe, .tSearch, .tSolver, .tSel, .tSched, .tOut, .bears, .jays, .cores, .dram, .cascade] s after := by
  refine ⟨_, rfl, ?_⟩
  with_reducible repeat' first
    | exact Touches.refl _ _
    | assumption
    | exact Nat.le_refl _
    | exact id
    | (apply State.runTimerTask_touches; on_goal 1 => decide)
    | split

theorem execSignalTask_effect (t : Fin 16) (i : Nat) (s : State) :
    ∃ after, execSignalTask t i s = .next (settle after) ∧ Touches [.draws, .regs, .safe, .tSearch, .tSolver, .tSel, .tSched, .tOut, .bears, .jays, .cores, .dram, .cascade] s after := by
  refine ⟨_, rfl, ?_⟩
  with_reducible repeat' first
    | exact Touches.refl _ _
    | assumption
    | exact Nat.le_refl _
    | exact id
    | (apply State.runSignalTask_touches; on_goal 1 => decide)
    | split

theorem execTaskRetire_effect (t : Fin 16) (i : Nat) (s : State) :
    ∃ after, execTaskRetire t i s = .next (settle after) ∧ Touches [.draws, .regs, .safe, .tSearch, .tSolver, .tSel, .tSched, .tOut, .bears, .jays, .cores, .dram, .cascade] s after := by
  refine ⟨_, rfl, ?_⟩
  with_reducible repeat' first
    | exact Touches.refl _ _
    | assumption
    | exact Nat.le_refl _
    | exact id
    | (apply State.tryRetire_touches; on_goal 1 => decide)
    | split

theorem execWaitTimeout_effect (t : Fin 16) (i : Nat) (s : State) :
    ∃ after, execWaitTimeout t i s = .next (settle after) ∧ Touches [.now, .draws, .regs, .shadow, .dirty, .cfgA, .cfgB, .attn, .passed, .safe, .frame, .tState, .tWorld, .tSearch, .tTable, .tSolver, .tSel, .tSched, .tOut, .tSpoor, .tQueues, .tCmds, .tDone, .tRings, .engines, .bears, .jays, .fronts, .cores, .dram, .links, .cascade, .lynx, .clock, .power] s after := by
  refine ⟨_, rfl, ?_⟩
  with_reducible repeat' first
    | exact Touches.refl _ _
    | assumption
    | exact Nat.le_refl _
    | exact id
    | (apply State.timeoutWait_touches; on_goal 1 => decide)
    | split

theorem execTimerFire_effect (t : Fin 16) (id : Fin 64) (s : State) :
    ∃ after, execTimerFire t id s = .next (settle after) ∧ Touches [.now, .draws, .regs, .attn, .safe, .frame, .tSearch, .tSolver, .tSel, .tSched, .tOut, .bears, .jays, .cores, .dram, .cascade] s after := by
  refine ⟨_, rfl, ?_⟩
  with_reducible repeat' first
    | exact Touches.refl _ _
    | assumption
    | exact Nat.le_refl _
    | exact id
    | (apply State.timerFire_touches; on_goal 1 => decide)
    | split

theorem execEdgeDeliver_effect (t : Fin 16) (k : Fin 32) (s : State) :
    ∃ after, execEdgeDeliver t k s = .next (settle after) ∧ Touches [.draws, .regs, .safe, .tSearch, .tSolver, .tSel, .tSched, .tOut, .bears, .jays, .cores, .dram, .cascade] s after := by
  refine ⟨_, rfl, ?_⟩
  with_reducible repeat' first
    | exact Touches.refl _ _
    | assumption
    | exact Nat.le_refl _
    | exact id
    | (apply State.deliverEdge_touches; on_goal 1 => decide)
    | split

theorem execDeadlock_effect (t : Fin 16) (s : State) :
    ∃ after, execDeadlock t s = .next (settle after) ∧ Touches [.now, .draws, .regs, .attn, .safe, .frame, .tSearch, .tSolver, .tSel, .tSched, .tOut, .bears, .jays, .cores, .dram, .cascade] s after := by
  refine ⟨_, rfl, ?_⟩
  with_reducible repeat' first
    | exact Touches.refl _ _
    | assumption
    | exact Nat.le_refl _
    | exact id
    | (apply State.reachDeadlock_touches; on_goal 1 => decide)
    | split

theorem execComputePartStart_effect (c : Fin 48) (s : State) :
    ∃ after, execComputePartStart c s = .next (settle after) ∧ Touches [.draws, .regs, .attn, .safe, .tState, .tSearch, .tSolver, .tSel, .tSched, .tOut, .bears, .jays, .cores, .dram, .cascade] s after := by
  refine ⟨_, rfl, ?_⟩
  with_reducible repeat' first
    | exact Touches.refl _ _
    | assumption
    | exact Nat.le_refl _
    | exact id
    | (apply State.startPart_touches; on_goal 1 => decide)
    | split

theorem execHostCand_effect (t : Fin 16) (tag : Nat) (buf : List Byte) (s : State) :
    ∃ after, execHostCand t tag buf s = .next (settle after) ∧ Touches [.regs, .shadow, .dirty, .attn, .tQueues, .tCmds] s after := by
  refine ⟨_, rfl, ?_⟩
  with_reducible repeat' first
    | exact Touches.refl _ _
    | assumption
    | exact Nat.le_refl _
    | exact id
    | (apply State.hostCand_touches; on_goal 1 => decide)
    | split

theorem execHostCandJudge_effect (t : Fin 16) (tag : Nat) (s : State) :
    ∃ after, execHostCandJudge t tag s = .next (settle after) ∧ Touches [.regs, .shadow, .dirty, .attn, .tSearch, .tTable, .tSpoor, .tQueues, .tCmds, .engines, .dram] s after := by
  refine ⟨_, rfl, ?_⟩
  with_reducible repeat' first
    | exact Touches.refl _ _
    | assumption
    | exact Nat.le_refl _
    | exact id
    | (apply State.judgeHost_touches; on_goal 1 => decide)
    | split

theorem execCheckStart_effect (e : Fin 16) (s : State) :
    ∃ after, execCheckStart e s = .next (settle after) ∧ Touches [.regs, .tTable, .engines] s after := by
  refine ⟨_, rfl, ?_⟩
  with_reducible repeat' first
    | exact Touches.refl _ _
    | assumption
    | exact Nat.le_refl _
    | exact id
    | (apply State.startCheck_touches; on_goal 1 => decide)
    | split

theorem execCheckVerdict_effect (e : Fin 16) (s : State) :
    ∃ after, execCheckVerdict e s = .next (settle after) ∧ Touches [.draws, .regs, .attn, .safe, .tState, .tSearch, .tTable, .tSolver, .tSel, .tSched, .tOut, .engines, .bears, .jays, .cores, .dram, .cascade, .lynx] s after := by
  refine ⟨_, rfl, ?_⟩
  with_reducible repeat' first
    | exact Touches.refl _ _
    | assumption
    | exact Nat.le_refl _
    | exact id
    | (apply State.endCheck_touches; on_goal 1 => decide)
    | split

theorem execLoadLattice_effect (t : Fin 16) (tag : Nat) (buf : List Byte) (s : State) :
    ∃ after, execLoadLattice t tag buf s = .next (settle after) ∧ Touches [.regs, .shadow, .dirty, .attn, .tSearch, .tQueues, .tCmds] s after := by
  refine ⟨_, rfl, ?_⟩
  with_reducible repeat' first
    | exact Touches.refl _ _
    | assumption
    | exact Nat.le_refl _
    | exact id
    | (apply State.loadLattice_touches; on_goal 1 => decide)
    | split

theorem execFrontField_effect (t : Fin 16) (s : State) :
    ∃ after, execFrontField t s = .next (settle after) ∧ Touches [.draws, .regs, .tSearch, .tSched, .lynx] s after := by
  refine ⟨_, rfl, ?_⟩
  with_reducible repeat' first
    | exact Touches.refl _ _
    | assumption
    | exact Nat.le_refl _
    | exact id
    | (apply State.buildField_touches; on_goal 1 => decide)
    | split

theorem execExpandNode_effect (t : Fin 16) (s : State) :
    ∃ after, execExpandNode t s = .next (settle after) ∧ Touches [.regs, .tSearch, .tTable, .tSched, .engines, .dram, .lynx] s after := by
  refine ⟨_, rfl, ?_⟩
  with_reducible repeat' first
    | exact Touches.refl _ _
    | assumption
    | exact Nat.le_refl _
    | exact id
    | (apply State.expandNode_touches; on_goal 1 => decide)
    | split

theorem execProposalConvert_effect (t : Fin 16) (s : State) :
    ∃ after, execProposalConvert t s = .next (settle after) ∧ Touches [.regs, .tSearch, .tTable, .engines, .dram, .lynx] s after := by
  refine ⟨_, rfl, ?_⟩
  with_reducible repeat' first
    | exact Touches.refl _ _
    | assumption
    | exact Nat.le_refl _
    | exact id
    | (apply State.convertProposal_touches; on_goal 1 => decide)
    | split

theorem execIngest_effect (t : Fin 16) (tag : Nat) (buf : List Byte) (s : State) :
    ∃ after, execIngest t tag buf s = .next (settle after) ∧ Touches [.regs, .shadow, .dirty, .attn, .tWorld, .tSpoor, .tQueues, .tCmds] s after := by
  refine ⟨_, rfl, ?_⟩
  with_reducible repeat' first
    | exact Touches.refl _ _
    | assumption
    | exact Nat.le_refl _
    | exact id
    | (apply State.ingest_touches; on_goal 1 => decide)
    | split

theorem execMixedTile_effect (t : Fin 16) (s : State) :
    ∃ after, execMixedTile t s = .next (settle after) ∧ Touches [.regs, .shadow, .dirty, .attn, .tWorld, .tQueues, .tCmds] s after := by
  refine ⟨_, rfl, ?_⟩
  with_reducible repeat' first
    | exact Touches.refl _ _
    | assumption
    | exact Nat.le_refl _
    | exact id
    | (apply State.applyMixedTile_touches; on_goal 1 => decide)
    | split

theorem execUniformTiles_effect (t : Fin 16) (s : State) :
    ∃ after, execUniformTiles t s = .next (settle after) ∧ Touches [.regs, .shadow, .dirty, .attn, .tWorld, .tQueues, .tCmds] s after := by
  refine ⟨_, rfl, ?_⟩
  with_reducible repeat' first
    | exact Touches.refl _ _
    | assumption
    | exact Nat.le_refl _
    | exact id
    | (apply State.applyUniformTiles_touches; on_goal 1 => decide)
    | split

theorem execScroll_effect (t : Fin 16) (s : State) :
    ∃ after, execScroll t s = .next (settle after) ∧ Touches [.regs, .shadow, .dirty, .attn, .tWorld, .tQueues, .tCmds] s after := by
  refine ⟨_, rfl, ?_⟩
  with_reducible repeat' first
    | exact Touches.refl _ _
    | assumption
    | exact Nat.le_refl _
    | exact id
    | (apply State.applyScroll_touches; on_goal 1 => decide)
    | split

theorem execRegion_effect (t : Fin 16) (s : State) :
    ∃ after, execRegion t s = .next (settle after) ∧ Touches [.regs, .shadow, .dirty, .attn, .tWorld, .tQueues, .tCmds] s after := by
  refine ⟨_, rfl, ?_⟩
  with_reducible repeat' first
    | exact Touches.refl _ _
    | assumption
    | exact Nat.le_refl _
    | exact id
    | (apply State.applyRegion_touches; on_goal 1 => decide)
    | split

theorem execAgentList_effect (t : Fin 16) (s : State) :
    ∃ after, execAgentList t s = .next (settle after) ∧ Touches [.regs, .shadow, .dirty, .attn, .tWorld, .tQueues, .tCmds] s after := by
  refine ⟨_, rfl, ?_⟩
  with_reducible repeat' first
    | exact Touches.refl _ _
    | assumption
    | exact Nat.le_refl _
    | exact id
    | (apply State.applyAgentList_touches; on_goal 1 => decide)
    | split

theorem execAgentRasterise_effect (t : Fin 16) (s : State) :
    ∃ after, execAgentRasterise t s = .next (settle after) ∧ Touches [.tWorld] s after := by
  refine ⟨_, rfl, ?_⟩
  with_reducible repeat' first
    | exact Touches.refl _ _
    | assumption
    | exact Nat.le_refl _
    | exact id
    | (apply State.rasteriseAgent_touches; on_goal 1 => decide)
    | split

theorem execWorldSeal_effect (t : Fin 16) (s : State) :
    ∃ after, execWorldSeal t s = .next (settle after) ∧ Touches [.draws, .regs, .attn, .safe, .tState, .tWorld, .tSearch, .tTable, .tSolver, .tSel, .tSched, .tOut, .bears, .jays, .cores, .dram, .cascade] s after := by
  refine ⟨_, rfl, ?_⟩
  with_reducible repeat' first
    | exact Touches.refl _ _
    | assumption
    | exact Nat.le_refl _
    | exact id
    | (apply State.sealWorld_touches; on_goal 1 => decide)
    | split

theorem execGemmTileStep_effect (c : Fin 48) (s : State) :
    ∃ after, execGemmTileStep c s = .next (settle after) ∧ Touches [.draws, .regs, .attn, .safe, .tState, .tSearch, .tSolver, .tSel, .tSched, .tOut, .bears, .jays, .cores, .dram, .cascade, .lynx] s after := by
  refine ⟨_, rfl, ?_⟩
  with_reducible repeat' first
    | exact Touches.refl _ _
    | assumption
    | exact Nat.le_refl _
    | exact id
    | (apply State.stepTile_touches; on_goal 1 => decide)
    | split

theorem execCutForced_effect (c : Fin 48) (s : State) :
    ∃ after, execCutForced c s = .next (settle after) ∧ Touches [.now, .draws, .regs, .attn, .safe, .frame, .tSearch, .tSolver, .tSel, .tSched, .tOut, .bears, .jays, .cores, .dram, .cascade] s after := by
  refine ⟨_, rfl, ?_⟩
  with_reducible repeat' first
    | exact Touches.refl _ _
    | assumption
    | exact Nat.le_refl _
    | exact id
    | (apply State.forceCut_touches; on_goal 1 => decide)
    | split

theorem execPeerSend_effect (c : Fin 48) (s : State) :
    ∃ after, execPeerSend c s = .next (settle after) ∧ Touches [.draws, .regs, .attn, .safe, .tState, .tSearch, .tSolver, .tSel, .tSched, .tOut, .bears, .jays, .cores, .dram, .links, .cascade, .lynx] s after := by
  refine ⟨_, rfl, ?_⟩
  with_reducible repeat' first
    | exact Touches.refl _ _
    | assumption
    | exact Nat.le_refl _
    | exact id
    | (apply State.peerSend_touches; on_goal 1 => decide)
    | split

theorem execMeasure_effect (t : Fin 16) (tag : Nat) (s : State) :
    ∃ after, execMeasure t tag s = .next (settle after) ∧ Touches [.regs, .shadow, .dirty, .attn, .tTable, .tSolver, .tSpoor, .tQueues, .tCmds] s after := by
  refine ⟨_, rfl, ?_⟩
  with_reducible repeat' first
    | exact Touches.refl _ _
    | assumption
    | exact Nat.le_refl _
    | exact id
    | (apply State.measureCmd_touches; on_goal 1 => decide)
    | split

theorem execLoadModel_effect (t : Fin 16) (tag : Nat) (buf : List Byte) (s : State) :
    ∃ after, execLoadModel t tag buf s = .next (settle after) ∧ Touches [.regs, .shadow, .dirty, .attn, .tSolver, .tQueues, .tCmds] s after := by
  refine ⟨_, rfl, ?_⟩
  with_reducible repeat' first
    | exact Touches.refl _ _
    | assumption
    | exact Nat.le_refl _
    | exact id
    | (apply State.loadModel_touches; on_goal 1 => decide)
    | split

theorem execShape_effect (t : Fin 16) (tag : Nat) (s : State) :
    ∃ after, execShape t tag s = .next (settle after) ∧ Touches [.regs, .shadow, .dirty, .attn, .tSched, .tSpoor, .tQueues, .tCmds] s after := by
  refine ⟨_, rfl, ?_⟩
  with_reducible repeat' first
    | exact Touches.refl _ _
    | assumption
    | exact Nat.le_refl _
    | exact id
    | (apply State.shapeCmd_touches; on_goal 1 => decide)
    | split

theorem execSignal_effect (t : Fin 16) (tag : Nat) (s : State) :
    ∃ after, execSignal t tag s = .next (settle after) ∧ Touches [.regs, .shadow, .dirty, .attn, .tSched, .tSpoor, .tQueues, .tCmds] s after := by
  refine ⟨_, rfl, ?_⟩
  with_reducible repeat' first
    | exact Touches.refl _ _
    | assumption
    | exact Nat.le_refl _
    | exact id
    | (apply State.signalCmd_touches; on_goal 1 => decide)
    | split

theorem execActivate_effect (t : Fin 16) (tag : Nat) (s : State) :
    ∃ after, execActivate t tag s = .next (settle after) ∧ Touches [.regs, .shadow, .dirty, .attn, .tSched, .tQueues, .tCmds] s after := by
  refine ⟨_, rfl, ?_⟩
  with_reducible repeat' first
    | exact Touches.refl _ _
    | assumption
    | exact Nat.le_refl _
    | exact id
    | (apply State.activateCmd_touches; on_goal 1 => decide)
    | split

theorem execLoadProgram_effect (t : Fin 16) (tag : Nat) (p : ProgramImage) (s : State) :
    ∃ after, execLoadProgram t tag p s = .next (settle after) ∧ Touches [.draws, .regs, .shadow, .dirty, .attn, .tSched, .tQueues, .tCmds, .dram] s after := by
  refine ⟨_, rfl, ?_⟩
  with_reducible repeat' first
    | exact Touches.refl _ _
    | assumption
    | exact Nat.le_refl _
    | exact id
    | (apply State.loadProgram_touches; on_goal 1 => decide)
    | split

theorem execEngineTaskIssue_effect (t : Fin 16) (i : Nat) (s : State) :
    ∃ after, execEngineTaskIssue t i s = .next (settle after) ∧ Touches [.draws, .regs, .attn, .safe, .tState, .tSearch, .tSolver, .tSel, .tSched, .tOut, .bears, .jays, .cores, .dram, .links, .cascade] s after := by
  refine ⟨_, rfl, ?_⟩
  with_reducible repeat' first
    | exact Touches.refl _ _
    | assumption
    | exact Nat.le_refl _
    | exact id
    | (apply State.issueEngine_touches; on_goal 1 => decide)
    | split

theorem execSelect_effect (t : Fin 16) (s : State) :
    ∃ after, execSelect t s = .next (settle after) ∧ Touches [.draws, .regs, .attn, .safe, .tState, .tSearch, .tSolver, .tSel, .tSched, .tOut, .bears, .jays, .cores, .dram, .cascade, .lynx] s after := by
  refine ⟨_, rfl, ?_⟩
  with_reducible repeat' first
    | exact Touches.refl _ _
    | assumption
    | exact Nat.le_refl _
    | exact id
    | (apply State.receiveSelect_touches; on_goal 1 => decide)
    | split

theorem execSelectStart_effect (u : Fin 4) (s : State) :
    ∃ after, execSelectStart u s = .next (settle after) ∧ Touches [.draws, .regs, .attn, .safe, .tState, .tSearch, .tSolver, .tSel, .tSched, .tOut, .bears, .jays, .cores, .dram, .cascade, .lynx] s after := by
  refine ⟨_, rfl, ?_⟩
  with_reducible repeat' first
    | exact Touches.refl _ _
    | assumption
    | exact Nat.le_refl _
    | exact id
    | (apply State.startSelect_touches; on_goal 1 => decide)
    | split

theorem execSelectPass_effect (u : Fin 4) (s : State) :
    ∃ after, execSelectPass u s = .next (settle after) ∧ Touches [.draws, .regs, .attn, .safe, .tState, .tSearch, .tSolver, .tSel, .tSched, .tOut, .bears, .jays, .cores, .dram, .links, .cascade, .lynx] s after := by
  refine ⟨_, rfl, ?_⟩
  with_reducible repeat' first
    | exact Touches.refl _ _
    | assumption
    | exact Nat.le_refl _
    | exact id
    | (apply State.passSelect_touches; on_goal 1 => decide)
    | split

theorem execSelectResult_effect (u : Fin 4) (s : State) :
    ∃ after, execSelectResult u s = .next (settle after) ∧ Touches [.draws, .regs, .attn, .safe, .tState, .tSearch, .tSolver, .tSel, .tSched, .tOut, .bears, .jays, .cores, .dram, .cascade, .lynx] s after := by
  refine ⟨_, rfl, ?_⟩
  with_reducible repeat' first
    | exact Touches.refl _ _
    | assumption
    | exact Nat.le_refl _
    | exact id
    | (apply State.resultSelect_touches; on_goal 1 => decide)
    | split

theorem execSmooth_effect (t : Fin 16) (s : State) :
    ∃ after, execSmooth t s = .next (settle after) ∧ Touches [.draws, .regs, .attn, .safe, .tState, .tSearch, .tSolver, .tSel, .tSched, .tOut, .bears, .jays, .cores, .dram, .cascade, .lynx] s after := by
  refine ⟨_, rfl, ?_⟩
  with_reducible repeat' first
    | exact Touches.refl _ _
    | assumption
    | exact Nat.le_refl _
    | exact id
    | (apply State.receiveSmooth_touches; on_goal 1 => decide)
    | split

theorem execSolveStart_effect (u : Fin 2) (s : State) :
    ∃ after, execSolveStart u s = .next (settle after) ∧ Touches [.draws, .regs, .attn, .safe, .tState, .tSearch, .tSolver, .tSel, .tSched, .tOut, .bears, .jays, .cores, .dram, .cascade, .lynx] s after := by
  refine ⟨_, rfl, ?_⟩
  with_reducible repeat' first
    | exact Touches.refl _ _
    | assumption
    | exact Nat.le_refl _
    | exact id
    | (apply State.startSolve_touches; on_goal 1 => decide)
    | split

theorem execSolveIteration_effect (u : Fin 2) (s : State) :
    ∃ after, execSolveIteration u s = .next (settle after) ∧ Touches [.draws, .regs, .attn, .safe, .tState, .tSearch, .tSolver, .tSel, .tSched, .tOut, .bears, .jays, .cores, .dram, .cascade, .lynx] s after := by
  refine ⟨_, rfl, ?_⟩
  with_reducible repeat' first
    | exact Touches.refl _ _
    | assumption
    | exact Nat.le_refl _
    | exact id
    | (apply State.iterateSolve_touches; on_goal 1 => decide)
    | split

theorem execSolveEnd_effect (u : Fin 2) (s : State) :
    ∃ after, execSolveEnd u s = .next (settle after) ∧ Touches [.draws, .regs, .attn, .safe, .tState, .tSearch, .tTable, .tSolver, .tSel, .tSched, .tOut, .engines, .bears, .jays, .cores, .dram, .cascade, .lynx] s after := by
  refine ⟨_, rfl, ?_⟩
  with_reducible repeat' first
    | exact Touches.refl _ _
    | assumption
    | exact Nat.le_refl _
    | exact id
    | (apply State.endSolve_touches; on_goal 1 => decide)
    | split

theorem execLowWordRead_effect (p : Port) (page off : BitVec 12) (s : State) :
    ∃ after, execLowWordRead p page off s = .next (settle after) ∧ Touches [.regs, .cfgA, .cfgB, .attn, .slotsPeak, .links, .cascade, .lynx, .clock, .power] s after := by
  refine ⟨_, rfl, ?_⟩
  with_reducible repeat' first
    | exact Touches.refl _ _
    | assumption
    | exact Nat.le_refl _
    | exact id
    | (apply State.bar0Read_touches; on_goal 1 => decide)
    | split

theorem execNowDateRead_effect (p : Port) (s : State) :
    ∃ after, execNowDateRead p s = .next (settle after) ∧ Touches [.regs, .cfgA, .cfgB, .attn, .slotsPeak, .links, .cascade, .lynx, .clock, .power] s after := by
  refine ⟨_, rfl, ?_⟩
  with_reducible repeat' first
    | exact Touches.refl _ _
    | assumption
    | exact Nat.le_refl _
    | exact id
    | (apply State.bar0Read_touches; on_goal 1 => decide)
    | split

theorem execErrCountRead_effect (p : Port) (page : BitVec 12) (s : State) :
    ∃ after, execErrCountRead p page s = .next (settle after) ∧ Touches [.regs, .cfgA, .cfgB, .attn, .slotsPeak, .links, .cascade, .lynx, .clock, .power] s after := by
  refine ⟨_, rfl, ?_⟩
  with_reducible repeat' first
    | exact Touches.refl _ _
    | assumption
    | exact Nat.le_refl _
    | exact id
    | (apply State.bar0Read_touches; on_goal 1 => decide)
    | split

theorem execCFaultRead_effect (p : Port) (c : Fin 48) (s : State) :
    ∃ after, execCFaultRead p c s = .next (settle after) ∧ Touches [.regs, .cfgA, .cfgB, .attn, .slotsPeak, .links, .cascade, .lynx, .clock, .power] s after := by
  refine ⟨_, rfl, ?_⟩
  with_reducible repeat' first
    | exact Touches.refl _ _
    | assumption
    | exact Nat.le_refl _
    | exact id
    | (apply State.bar0Read_touches; on_goal 1 => decide)
    | split

theorem execCStorePeakRead_effect (p : Port) (c : Fin 48) (s : State) :
    ∃ after, execCStorePeakRead p c s = .next (settle after) ∧ Touches [.regs, .cfgA, .cfgB, .attn, .slotsPeak, .links, .cascade, .lynx, .clock, .power] s after := by
  refine ⟨_, rfl, ?_⟩
  with_reducible repeat' first
    | exact Touches.refl _ _
    | assumption
    | exact Nat.le_refl _
    | exact id
    | (apply State.bar0Read_touches; on_goal 1 => decide)
    | split

theorem execEQueuePeakRead_effect (p : Port) (e : Fin 16) (s : State) :
    ∃ after, execEQueuePeakRead p e s = .next (settle after) ∧ Touches [.regs, .cfgA, .cfgB, .attn, .slotsPeak, .links, .cascade, .lynx, .clock, .power] s after := by
  refine ⟨_, rfl, ?_⟩
  with_reducible repeat' first
    | exact Touches.refl _ _
    | assumption
    | exact Nat.le_refl _
    | exact id
    | (apply State.bar0Read_touches; on_goal 1 => decide)
    | split

theorem execSlotsPeakRead_effect (p : Port) (s : State) :
    ∃ after, execSlotsPeakRead p s = .next (settle after) ∧ Touches [.regs, .cfgA, .cfgB, .attn, .slotsPeak, .links, .cascade, .lynx, .clock, .power] s after := by
  refine ⟨_, rfl, ?_⟩
  with_reducible repeat' first
    | exact Touches.refl _ _
    | assumption
    | exact Nat.le_refl _
    | exact id
    | (apply State.bar0Read_touches; on_goal 1 => decide)
    | split

theorem execQPeakRead_effect (p : Port) (c : Fin 48) (s : State) :
    ∃ after, execQPeakRead p c s = .next (settle after) ∧ Touches [.regs, .cfgA, .cfgB, .attn, .slotsPeak, .links, .cascade, .lynx, .clock, .power] s after := by
  refine ⟨_, rfl, ?_⟩
  with_reducible repeat' first
    | exact Touches.refl _ _
    | assumption
    | exact Nat.le_refl _
    | exact id
    | (apply State.bar0Read_touches; on_goal 1 => decide)
    | split

theorem execBar2DropsRead_effect (p : Port) (s : State) :
    ∃ after, execBar2DropsRead p s = .next (settle after) ∧ Touches [.regs, .cfgA, .cfgB, .attn, .slotsPeak, .links, .cascade, .lynx, .clock, .power] s after := by
  refine ⟨_, rfl, ?_⟩
  with_reducible repeat' first
    | exact Touches.refl _ _
    | assumption
    | exact Nat.le_refl _
    | exact id
    | (apply State.bar0Read_touches; on_goal 1 => decide)
    | split

theorem execTraceDropsRead_effect (p : Port) (s : State) :
    ∃ after, execTraceDropsRead p s = .next (settle after) ∧ Touches [.regs, .cfgA, .cfgB, .attn, .slotsPeak, .links, .cascade, .lynx, .clock, .power] s after := by
  refine ⟨_, rfl, ?_⟩
  with_reducible repeat' first
    | exact Touches.refl _ _
    | assumption
    | exact Nat.le_refl _
    | exact id
    | (apply State.bar0Read_touches; on_goal 1 => decide)
    | split

theorem execDivCountRead_effect (p : Port) (s : State) :
    ∃ after, execDivCountRead p s = .next (settle after) ∧ Touches [.regs, .cfgA, .cfgB, .attn, .slotsPeak, .links, .cascade, .lynx, .clock, .power] s after := by
  refine ⟨_, rfl, ?_⟩
  with_reducible repeat' first
    | exact Touches.refl _ _
    | assumption
    | exact Nat.le_refl _
    | exact id
    | (apply State.bar0Read_touches; on_goal 1 => decide)
    | split

theorem execCascadeDropsRead_effect (p : Port) (s : State) :
    ∃ after, execCascadeDropsRead p s = .next (settle after) ∧ Touches [.regs, .cfgA, .cfgB, .attn, .slotsPeak, .links, .cascade, .lynx, .clock, .power] s after := by
  refine ⟨_, rfl, ?_⟩
  with_reducible repeat' first
    | exact Touches.refl _ _
    | assumption
    | exact Nat.le_refl _
    | exact id
    | (apply State.bar0Read_touches; on_goal 1 => decide)
    | split

theorem execForeignRead_effect (p : Port) (s : State) :
    ∃ after, execForeignRead p s = .next (settle after) ∧ Touches [.regs, .cfgA, .cfgB, .attn, .slotsPeak, .links, .cascade, .lynx, .clock, .power] s after := by
  refine ⟨_, rfl, ?_⟩
  with_reducible repeat' first
    | exact Touches.refl _ _
    | assumption
    | exact Nat.le_refl _
    | exact id
    | (apply State.bar0Read_touches; on_goal 1 => decide)
    | split

theorem execLErrRead_effect (p : Port) (l : Fin 8) (s : State) :
    ∃ after, execLErrRead p l s = .next (settle after) ∧ Touches [.regs, .cfgA, .cfgB, .attn, .slotsPeak, .links, .cascade, .lynx, .clock, .power] s after := by
  refine ⟨_, rfl, ?_⟩
  with_reducible repeat' first
    | exact Touches.refl _ _
    | assumption
    | exact Nat.le_refl _
    | exact id
    | (apply State.bar0Read_touches; on_goal 1 => decide)
    | split

theorem execResetCauseRead_effect (p : Port) (s : State) :
    ∃ after, execResetCauseRead p s = .next (settle after) ∧ Touches [.regs, .cfgA, .cfgB, .attn, .slotsPeak, .links, .cascade, .lynx, .clock, .power] s after := by
  refine ⟨_, rfl, ?_⟩
  with_reducible repeat' first
    | exact Touches.refl _ _
    | assumption
    | exact Nat.le_refl _
    | exact id
    | (apply State.bar0Read_touches; on_goal 1 => decide)
    | split

theorem execMuxStuckRead_effect (p : Port) (s : State) :
    ∃ after, execMuxStuckRead p s = .next (settle after) ∧ Touches [.regs, .cfgA, .cfgB, .attn, .slotsPeak, .links, .cascade, .lynx, .clock, .power] s after := by
  refine ⟨_, rfl, ?_⟩
  with_reducible repeat' first
    | exact Touches.refl _ _
    | assumption
    | exact Nat.le_refl _
    | exact id
    | (apply State.bar0Read_touches; on_goal 1 => decide)
    | split

theorem execDEccRead_effect (p : Port) (d : Fin 4) (s : State) :
    ∃ after, execDEccRead p d s = .next (settle after) ∧ Touches [.regs, .cfgA, .cfgB, .attn, .slotsPeak, .links, .cascade, .lynx, .clock, .power] s after := by
  refine ⟨_, rfl, ?_⟩
  with_reducible repeat' first
    | exact Touches.refl _ _
    | assumption
    | exact Nat.le_refl _
    | exact id
    | (apply State.bar0Read_touches; on_goal 1 => decide)
    | split

theorem execBar2Read_effect (p : Port) (a n : Nat) (s : State) :
    ∃ after, execBar2Read p a n s = .next (settle after) ∧ Touches [.regs, .cfgA, .cfgB, .attn] s after := by
  refine ⟨_, rfl, ?_⟩
  with_reducible repeat' first
    | exact Touches.refl _ _
    | assumption
    | exact Nat.le_refl _
    | exact id
    | (apply State.bar2Read_touches; on_goal 1 => decide)
    | split

theorem execBar2Write_effect (p : Port) (a : Nat) (d : List Byte) (s : State) :
    ∃ after, execBar2Write p a d s = .next (settle after) ∧ Touches [.regs, .attn, .dram] s after := by
  refine ⟨_, rfl, ?_⟩
  with_reducible repeat' first
    | exact Touches.refl _ _
    | assumption
    | exact Nat.le_refl _
    | exact id
    | (apply State.bar2Write_touches; on_goal 1 => decide)
    | split

theorem execConfigurationRequest_effect (p : Port) (s : State) :
    ∃ after, execConfigurationRequest p s = .next (settle after) ∧ Touches [.draws, .cfgA, .cfgB] s after := by
  refine ⟨_, rfl, ?_⟩
  with_reducible repeat' first
    | exact Touches.refl _ _
    | assumption
    | exact Nat.le_refl _
    | exact id
    | (apply State.configRequest_touches; on_goal 1 => decide)
    | split

theorem execTCtrlReset_effect (p : Port) (t : Fin 16) (s : State) :
    ∃ after, execTCtrlReset p t s = .next (settle after) ∧ Touches [.draws, .regs, .shadow, .dirty, .attn, .safe, .frame, .tState, .tWorld, .tSearch, .tTable, .tSolver, .tSel, .tSched, .tOut, .tSpoor, .tQueues, .tCmds, .engines, .bears, .jays, .cores, .dram, .cascade] s after := by
  refine ⟨_, rfl, ?_⟩
  with_reducible repeat' first
    | exact Touches.refl _ _
    | assumption
    | exact Nat.le_refl _
    | exact id
    | (apply State.requestReset_touches; on_goal 1 => decide)
    | (apply State.refuseWrite_touches; on_goal 1 => decide)
    | split

theorem execTCtrlHold_effect (p : Port) (t : Fin 16) (s : State) :
    ∃ after, execTCtrlHold p t s = .next (settle after) ∧ Touches [.regs, .shadow, .dirty, .attn, .frame, .tState, .tWorld, .tSearch, .tTable, .tSolver, .tSel, .tSched, .tOut, .tSpoor, .tQueues, .tCmds, .engines, .bears, .jays, .cores, .cascade] s after := by
  refine ⟨_, rfl, ?_⟩
  with_reducible repeat' first
    | exact Touches.refl _ _
    | assumption
    | exact Nat.le_refl _
    | exact id
    | (apply State.requestHold_touches; on_goal 1 => decide)
    | (apply State.refuseWrite_touches; on_goal 1 => decide)
    | split

theorem execTCtrlRelease_effect (p : Port) (t : Fin 16) (s : State) :
    ∃ after, execTCtrlRelease p t s = .next (settle after) ∧ Touches [.attn, .tState] s after := by
  refine ⟨_, rfl, ?_⟩
  with_reducible repeat' first
    | exact Touches.refl _ _
    | assumption
    | exact Nat.le_refl _
    | exact id
    | (apply State.requestRelease_touches; on_goal 1 => decide)
    | (apply State.refuseWrite_touches; on_goal 1 => decide)
    | split

theorem execDispatchAckTimeout_effect (k : UnitKind) (n : Nat) (s : State) :
    ∃ after, execDispatchAckTimeout k n s = .next (settle after) ∧ Touches [.draws, .regs, .attn, .safe, .tState, .tSearch, .tTable, .tSolver, .tSel, .tSched, .tOut, .engines, .bears, .jays, .fronts, .cores, .dram, .cascade, .lynx, .log] s after := by
  refine ⟨_, rfl, ?_⟩
  with_reducible repeat' first
    | exact Touches.refl _ _
    | assumption
    | exact Nat.le_refl _
    | exact id
    | (apply State.ackTimeout_touches; on_goal 1 => decide)
    | split

theorem execUnitRst_effect (w : Writer) (kind : BitVec 3) (index : BitVec 6) (s : State) :
    ∃ after, execUnitRst w kind index s = .next (settle after) ∧ Touches [.draws, .regs, .cfgA, .cfgB, .attn, .safe, .tState, .tSearch, .tTable, .tSolver, .tSel, .tSched, .tOut, .engines, .bears, .jays, .fronts, .cores, .dram, .cascade, .lynx, .power, .log] s after := by
  refine ⟨_, rfl, ?_⟩
  with_reducible repeat' first
    | exact Touches.refl _ _
    | assumption
    | exact Nat.le_refl _
    | exact id
    | (apply State.unitReset_touches; on_goal 1 => decide)
    | split

theorem execUnitRstDone_effect (s : State) :
    ∃ after, execUnitRstDone s = .next (settle after) ∧ Touches [.draws, .regs, .shadow, .dirty, .attn, .safe, .tState, .tSearch, .tTable, .tSolver, .tSel, .tSched, .tOut, .engines, .bears, .jays, .fronts, .cores, .dram, .cascade, .lynx, .power, .log] s after := by
  refine ⟨_, rfl, ?_⟩
  with_reducible repeat' first
    | exact Touches.refl _ _
    | assumption
    | exact Nat.le_refl _
    | exact id
    | (apply State.unitResetDone_touches; on_goal 1 => decide)
    | split

theorem execSetApply_effect (p : Port) (s : State) :
    ∃ after, execSetApply p s = .next (settle after) ∧ Touches [.regs, .shadow, .dirty, .cfgA, .cfgB, .attn, .tState, .tWorld, .tSearch, .tTable, .tSolver, .tSel, .tSched, .tOut, .tSpoor, .tQueues, .tCmds, .tDone, .tRings, .engines, .bears, .jays, .cores, .lynx] s after := by
  refine ⟨_, rfl, ?_⟩
  with_reducible repeat' first
    | exact Touches.refl _ _
    | assumption
    | exact Nat.le_refl _
    | exact id
    | (apply State.applyOldest_touches; on_goal 1 => decide)
    | split

theorem execCommitSingle_effect (p : Port) (page : BitVec 12) (s : State) :
    ∃ after, execCommitSingle p page s = .next (settle after) ∧ Touches [.regs, .shadow, .dirty, .cfgA, .cfgB, .setOrder, .attn, .tState, .tWorld, .tSearch, .tTable, .tSolver, .tSel, .tSched, .tOut, .tSpoor, .tQueues, .tCmds, .tDone, .tRings, .engines, .bears, .jays, .cores, .lynx] s after := by
  refine ⟨_, rfl, ?_⟩
  with_reducible repeat' first
    | exact Touches.refl _ _
    | assumption
    | exact Nat.le_refl _
    | exact id
    | (apply State.commitWrite_touches; on_goal 1 => decide)
    | split

theorem execCommitJoin_effect (p : Port) (page : BitVec 12) (id : BitVec 4) (s : State) :
    ∃ after, execCommitJoin p page id s = .next (settle after) ∧ Touches [.regs, .shadow, .dirty, .cfgA, .cfgB, .setOrder, .attn, .tState, .tWorld, .tSearch, .tTable, .tSolver, .tSel, .tSched, .tOut, .tSpoor, .tQueues, .tCmds, .tDone, .tRings, .engines, .bears, .jays, .cores, .lynx] s after := by
  refine ⟨_, rfl, ?_⟩
  with_reducible repeat' first
    | exact Touches.refl _ _
    | assumption
    | exact Nat.le_refl _
    | exact id
    | (apply State.commitWrite_touches; on_goal 1 => decide)
    | split

theorem execCommitSubmit_effect (p : Port) (page : BitVec 12) (id : BitVec 4) (s : State) :
    ∃ after, execCommitSubmit p page id s = .next (settle after) ∧ Touches [.regs, .shadow, .dirty, .cfgA, .cfgB, .setOrder, .attn, .tState, .tWorld, .tSearch, .tTable, .tSolver, .tSel, .tSched, .tOut, .tSpoor, .tQueues, .tCmds, .tDone, .tRings, .engines, .bears, .jays, .cores, .lynx] s after := by
  refine ⟨_, rfl, ?_⟩
  with_reducible repeat' first
    | exact Touches.refl _ _
    | assumption
    | exact Nat.le_refl _
    | exact id
    | (apply State.commitWrite_touches; on_goal 1 => decide)
    | split

theorem execDiscard_effect (p : Port) (page : BitVec 12) (s : State) :
    ∃ after, execDiscard p page s = .next (settle after) ∧ Touches [.shadow, .dirty, .cfgA, .cfgB] s after := by
  refine ⟨_, rfl, ?_⟩
  with_reducible repeat' first
    | exact Touches.refl _ _
    | assumption
    | exact Nat.le_refl _
    | exact id
    | (apply State.discardPage_touches; on_goal 1 => decide)
    | split

theorem execLevelChangeRequest_effect (w : Writer) (v : BitVec 2) (s : State) :
    ∃ after, execLevelChangeRequest w v s = .next (settle after) ∧ Touches [.cfgA, .cfgB, .attn, .frame, .clock] s after := by
  refine ⟨_, rfl, ?_⟩
  with_reducible repeat' first
    | exact Touches.refl _ _
    | assumption
    | exact Nat.le_refl _
    | exact id
    | (apply State.writeTarget_touches; on_goal 1 => decide)
    | split

theorem execMuxSwitch_effect (d : Domain) (s : State) :
    ∃ after, execMuxSwitch d s = .next (settle after) ∧ Touches [.attn, .frame, .cores, .clock] s after := by
  refine ⟨_, rfl, ?_⟩
  with_reducible repeat' first
    | exact Touches.refl _ _
    | assumption
    | exact Nat.le_refl _
    | exact id
    | (apply State.muxSwitch_touches; on_goal 1 => decide)
    | split

theorem execMuxWatchdog_effect (d : Domain) (toggled : Bool) (s : State) :
    ∃ after, execMuxWatchdog d toggled s = .next (settle after) ∧ Touches [.regs, .shadow, .dirty, .attn, .frame, .tWorld, .tTable, .tQueues, .tCmds, .engines, .bears, .jays, .cores, .clock, .power, .fault, .boxes, .firmware, .log] s after := by
  refine ⟨_, rfl, ?_⟩
  with_reducible repeat' first
    | exact Touches.refl _ _
    | assumption
    | exact Nat.le_refl _
    | exact id
    | (apply State.muxWatchdog_touches; on_goal 1 => decide)
    | split

theorem execPllLockDetect_effect (s : State) :
    ∃ after, execPllLockDetect s = .next (settle after) ∧ Touches [.clock] s after := by
  refine ⟨_, rfl, ?_⟩
  with_reducible repeat' first
    | exact Touches.refl _ _
    | assumption
    | exact Nat.le_refl _
    | exact id
    | (apply State.lockDetect_touches; on_goal 1 => decide)
    | split

theorem execPllStable_effect (p : Pll) (s : State) :
    ∃ after, execPllStable p s = .next (settle after) ∧ Touches [.attn, .frame, .clock] s after := by
  refine ⟨_, rfl, ?_⟩
  with_reducible repeat' first
    | exact Touches.refl _ _
    | assumption
    | exact Nat.le_refl _
    | exact id
    | (apply State.pllStable_touches; on_goal 1 => decide)
    | split

theorem execSourceStable_effect (x : ClockSource) (s : State) :
    ∃ after, execSourceStable x s = .next (settle after) ∧ Touches [.clock] s after := by
  refine ⟨_, rfl, ?_⟩
  with_reducible repeat' first
    | exact Touches.refl _ _
    | assumption
    | exact Nat.le_refl _
    | exact id
    | (apply State.sourceStable_touches; on_goal 1 => decide)
    | split

theorem execSourceStartTimeout_effect (b : Fin 7) (s : State) :
    ∃ after, execSourceStartTimeout b s = .next (settle after) ∧ Touches [.clock] s after := by
  refine ⟨_, rfl, ?_⟩
  with_reducible repeat' first
    | exact Touches.refl _ _
    | assumption
    | exact Nat.le_refl _
    | exact id
    | (apply State.startTimeout_touches; on_goal 1 => decide)
    | split

theorem execSrcEnWrite_effect (w : Writer) (v : Word) (s : State) :
    ∃ after, execSrcEnWrite w v s = .next (settle after) ∧ Touches [.regs, .cfgA, .cfgB, .attn, .clock] s after := by
  refine ⟨_, rfl, ?_⟩
  with_reducible repeat' first
    | exact Touches.refl _ _
    | assumption
    | exact Nat.le_refl _
    | exact id
    | (apply State.writeSrcEn_touches; on_goal 1 => decide)
    | split

theorem execRefLost_effect (s : State) :
    ∃ after, execRefLost s = .next (settle after) ∧ Touches [.regs, .shadow, .dirty, .attn, .tWorld, .tQueues, .tCmds, .clock, .fault, .log] s after := by
  refine ⟨_, rfl, ?_⟩
  with_reducible repeat' first
    | exact Touches.refl _ _
    | assumption
    | exact Nat.le_refl _
    | exact id
    | (apply State.loseReference_touches; on_goal 1 => decide)
    | split

theorem execMeterStart_effect (w : Writer) (v : Word) (s : State) :
    ∃ after, execMeterStart w v s = .next (settle after) ∧ Touches [.cfgA, .cfgB, .attn, .clock] s after := by
  refine ⟨_, rfl, ?_⟩
  with_reducible repeat' first
    | exact Touches.refl _ _
    | assumption
    | exact Nat.le_refl _
    | exact id
    | (apply State.writeMeter_touches; on_goal 1 => decide)
    | split

theorem execMeterDone_effect (n : Nat) (s : State) :
    ∃ after, execMeterDone n s = .next (settle after) ∧ Touches [.clock] s after := by
  refine ⟨_, rfl, ?_⟩
  with_reducible repeat' first
    | exact Touches.refl _ _
    | assumption
    | exact Nat.le_refl _
    | exact id
    | (apply State.endMeter_touches; on_goal 1 => decide)
    | split

theorem execTrimStart_effect (w : Writer) (v : Word) (s : State) :
    ∃ after, execTrimStart w v s = .next (settle after) ∧ Touches [.cfgA, .cfgB, .attn, .clock] s after := by
  refine ⟨_, rfl, ?_⟩
  with_reducible repeat' first
    | exact Touches.refl _ _
    | assumption
    | exact Nat.le_refl _
    | exact id
    | (apply State.writeTrimCtrl_touches; on_goal 1 => decide)
    | split

theorem execTrimIteration_effect (n : Nat) (s : State) :
    ∃ after, execTrimIteration n s = .next (settle after) ∧ Touches [.clock] s after := by
  refine ⟨_, rfl, ?_⟩
  with_reducible repeat' first
    | exact Touches.refl _ _
    | assumption
    | exact Nat.le_refl _
    | exact id
    | (apply State.trimStep_touches; on_goal 1 => decide)
    | split

theorem execTrimRefTimeout_effect (s : State) :
    ∃ after, execTrimRefTimeout s = .next (settle after) ∧ Touches [.attn, .clock] s after := by
  refine ⟨_, rfl, ?_⟩
  with_reducible repeat' first
    | exact Touches.refl _ _
    | assumption
    | exact Nat.le_refl _
    | exact id
    | (apply State.trimTimeout_touches; on_goal 1 => decide)
    | split

theorem execPublish_effect (t : Fin 16) (s : State) :
    ∃ after, execPublish t s = .next (settle after) ∧ Touches [.draws, .regs, .attn, .safe, .tState, .tSearch, .tSolver, .tSel, .tSched, .tOut, .bears, .jays, .cores, .dram, .cascade] s after := by
  refine ⟨_, rfl, ?_⟩
  with_reducible repeat' first
    | exact Touches.refl _ _
    | assumption
    | exact Nat.le_refl _
    | exact id
    | (apply State.publish_touches; on_goal 1 => decide)
    | split

theorem execPhaseDeadline_effect (k : Fin 8) (s : State) :
    ∃ after, execPhaseDeadline k s = .next (settle after) ∧ Touches [.now, .draws, .regs, .shadow, .dirty, .cfgA, .cfgB, .attn, .passed, .safe, .frame, .tState, .tWorld, .tSearch, .tTable, .tSolver, .tSel, .tSched, .tOut, .tSpoor, .tQueues, .tCmds, .tDone, .tRings, .engines, .bears, .jays, .fronts, .cores, .dram, .links, .cascade, .lynx, .clock, .power] s after := by
  exact ⟨_, rfl, State.reachDeadline_touches _ _ (Nat.le_of_lt_succ k.isLt) (by decide) (Touches.refl _ _)⟩

theorem execGuardActionsComplete_effect (s : State) :
    ∃ after, execGuardActionsComplete s = .next (settle after) ∧ Touches [.now, .draws, .regs, .shadow, .dirty, .cfgA, .cfgB, .attn, .safe, .frame, .tState, .tWorld, .tSearch, .tTable, .tSolver, .tSel, .tSched, .tOut, .tSpoor, .tQueues, .tCmds, .tDone, .tRings, .engines, .bears, .jays, .fronts, .cores, .dram, .links, .cascade, .lynx, .clock, .power] s after := by
  refine ⟨_, rfl, ?_⟩
  with_reducible repeat' first
    | exact Touches.refl _ _
    | assumption
    | exact Nat.le_refl _
    | exact id
    | (apply State.completeGuard_touches; on_goal 1 => decide)
    | split

theorem execFrameTimerTick_effect (s : State) :
    ∃ after, execFrameTimerTick s = .next (settle after) ∧ Touches [.now, .draws, .regs, .shadow, .dirty, .cfgA, .cfgB, .attn, .tick, .passed, .running, .safe, .frame, .tState, .tWorld, .tSearch, .tTable, .tSolver, .tSel, .tSched, .tOut, .tSpoor, .tQueues, .tCmds, .tDone, .tRings, .engines, .bears, .jays, .fronts, .cores, .dram, .links, .cascade, .lynx, .clock, .power] s after := by
  refine ⟨_, rfl, ?_⟩
  with_reducible repeat' first
    | exact Touches.refl _ _
    | assumption
    | exact Nat.le_refl _
    | exact id
    | (apply State.timerTick_touches; on_goal 1 => decide)
    | split

theorem execFtickIn_effect (s : State) :
    ∃ after, execFtickIn s = .next (settle after) ∧ Touches [.now, .draws, .regs, .shadow, .dirty, .cfgA, .cfgB, .attn, .tick, .passed, .running, .safe, .frame, .tState, .tWorld, .tSearch, .tTable, .tSolver, .tSel, .tSched, .tOut, .tSpoor, .tQueues, .tCmds, .tDone, .tRings, .engines, .bears, .jays, .fronts, .cores, .dram, .links, .cascade, .lynx, .clock, .power] s after := by
  refine ⟨_, rfl, ?_⟩
  with_reducible repeat' first
    | exact Touches.refl _ _
    | assumption
    | exact Nat.le_refl _
    | exact id
    | (apply State.ftickIn_touches; on_goal 1 => decide)
    | split

theorem execSubstituteTick_effect (s : State) :
    ∃ after, execSubstituteTick s = .next (settle after) ∧ Touches [.now, .draws, .regs, .shadow, .dirty, .cfgA, .cfgB, .attn, .tick, .passed, .running, .safe, .frame, .tState, .tWorld, .tSearch, .tTable, .tSolver, .tSel, .tSched, .tOut, .tSpoor, .tQueues, .tCmds, .tDone, .tRings, .engines, .bears, .jays, .fronts, .cores, .dram, .links, .cascade, .lynx, .clock, .power] s after := by
  refine ⟨_, rfl, ?_⟩
  with_reducible repeat' first
    | exact Touches.refl _ _
    | assumption
    | exact Nat.le_refl _
    | exact id
    | (apply State.substituteTick_touches; on_goal 1 => decide)
    | split

theorem execAlignedFrameBoundary_effect (s : State) :
    ∃ after, execAlignedFrameBoundary s = .next (settle after) ∧ Touches [.now, .draws, .regs, .shadow, .dirty, .cfgA, .cfgB, .attn, .tick, .passed, .running, .safe, .frame, .tState, .tWorld, .tSearch, .tTable, .tSolver, .tSel, .tSched, .tOut, .tSpoor, .tQueues, .tCmds, .tDone, .tRings, .engines, .bears, .jays, .fronts, .cores, .dram, .links, .cascade, .lynx, .clock, .power] s after := by
  refine ⟨_, rfl, ?_⟩
  with_reducible repeat' first
    | exact Touches.refl _ _
    | assumption
    | exact Nat.le_refl _
    | exact id
    | (apply State.alignedBoundary_touches; on_goal 1 => decide)
    | split

theorem execFtickOutFall_effect (s : State) :
    ∃ after, execFtickOutFall s = .next (settle after) ∧ Touches [.now, .draws, .regs, .attn, .safe, .frame, .tSearch, .tSolver, .tSel, .tSched, .tOut, .bears, .jays, .cores, .dram, .cascade] s after := by
  refine ⟨_, rfl, ?_⟩
  with_reducible repeat' first
    | exact Touches.refl _ _
    | assumption
    | exact Nat.le_refl _
    | exact id
    | (apply State.ftickOutFall_touches; on_goal 1 => decide)
    | split

theorem execRun_effect (w : Writer) (on : Bool) (s : State) :
    ∃ after, execRun w on s = .next (settle after) ∧ Touches [.attn, .tick, .running, .frame, .cascade, .lynx] s after := by
  refine ⟨_, rfl, ?_⟩
  with_reducible repeat' first
    | exact Touches.refl _ _
    | assumption
    | exact Nat.le_refl _
    | exact id
    | (apply State.setRunning_touches; on_goal 1 => decide)
    | (apply State.refuseWrite_touches; on_goal 1 => decide)
    | split

theorem execResync_effect (w : Writer) (s : State) :
    ∃ after, execResync w s = .next (settle after) ∧ Touches [.attn, .running] s after := by
  refine ⟨_, rfl, ?_⟩
  with_reducible repeat' first
    | exact Touches.refl _ _
    | assumption
    | exact Nat.le_refl _
    | exact id
    | (apply State.armResync_touches; on_goal 1 => decide)
    | (apply State.refuseWrite_touches; on_goal 1 => decide)
    | split

theorem execLastFrameEnd_effect (s : State) :
    ∃ after, execLastFrameEnd s = .next (settle after) ∧ Touches [.now, .draws, .regs, .shadow, .dirty, .cfgA, .cfgB, .attn, .tick, .passed, .safe, .frame, .tState, .tWorld, .tSearch, .tTable, .tSolver, .tSel, .tSched, .tOut, .tSpoor, .tQueues, .tCmds, .tDone, .tRings, .engines, .bears, .jays, .fronts, .cores, .dram, .links, .cascade, .lynx, .clock, .power] s after := by
  refine ⟨_, rfl, ?_⟩
  with_reducible repeat' first
    | exact Touches.refl _ _
    | assumption
    | exact Nat.le_refl _
    | exact id
    | (apply State.endLastFrame_touches; on_goal 1 => decide)
    | split

theorem execSafeCtrlRelease_effect (w : Writer) (s : State) :
    ∃ after, execSafeCtrlRelease w s = .next (settle after) ∧ Touches [.regs, .attn, .safe] s after := by
  refine ⟨_, rfl, ?_⟩
  with_reducible repeat' first
    | exact Touches.refl _ _
    | assumption
    | exact Nat.le_refl _
    | exact id
    | (apply State.releaseSafe_touches; on_goal 1 => decide)
    | (apply State.refuseWrite_touches; on_goal 1 => decide)
    | split

theorem execPkgRst_effect (w : Writer) (s : State) :
    ∃ after, execPkgRst w s = .next (settle after) ∧ Touches [.regs, .shadow, .dirty, .cfgA, .cfgB, .setOrder, .attn, .tick, .passed, .running, .safe, .frame, .tState, .tWorld, .tSearch, .tTable, .tSolver, .tSel, .tSched, .tOut, .tSpoor, .tQueues, .tCmds, .tDone, .tRings, .engines, .bears, .jays, .fronts, .cores, .slotsPeak, .dram, .links, .cascade, .lynx, .clock, .power, .fault, .boxes, .firmware, .board, .identity, .log, .owl] s after := by
  refine ⟨_, rfl, ?_⟩
  with_reducible repeat' first
    | exact Touches.refl _ _
    | assumption
    | exact Nat.le_refl _
    | exact id
    | (apply State.pkgRst_touches; on_goal 1 => decide)
    | split

theorem execPwrGoodFall_effect (s : State) :
    ∃ after, execPwrGoodFall s = .next (settle after) ∧ Touches [.regs, .shadow, .dirty, .cfgA, .cfgB, .setOrder, .attn, .tick, .passed, .running, .safe, .frame, .tState, .tWorld, .tSearch, .tTable, .tSolver, .tSel, .tSched, .tOut, .tSpoor, .tQueues, .tCmds, .tDone, .tRings, .engines, .bears, .jays, .fronts, .cores, .slotsPeak, .dram, .links, .cascade, .lynx, .clock, .power, .fault, .boxes, .firmware, .board, .identity, .log, .owl] s after := by
  refine ⟨_, rfl, ?_⟩
  with_reducible repeat' first
    | exact Touches.refl _ _
    | assumption
    | exact Nat.le_refl _
    | exact id
    | (apply State.powerFalls_touches; on_goal 1 => decide)
    | split

theorem execPwrGoodRise_effect (s : State) :
    ∃ after, execPwrGoodRise s = .next (settle after) ∧ Touches [.attn, .cascade, .power, .firmware, .log, .owl] s after := by
  refine ⟨_, rfl, ?_⟩
  with_reducible repeat' first
    | exact Touches.refl _ _
    | assumption
    | exact Nat.le_refl _
    | exact id
    | (apply State.powerRises_touches; on_goal 1 => decide)
    | split

theorem execSysRstNLow_effect (us : Nat) (s : State) :
    ∃ after, execSysRstNLow us s = .next (settle after) ∧ Touches [.regs, .shadow, .dirty, .cfgA, .cfgB, .setOrder, .attn, .tick, .passed, .running, .safe, .frame, .tState, .tWorld, .tSearch, .tTable, .tSolver, .tSel, .tSched, .tOut, .tSpoor, .tQueues, .tCmds, .tDone, .tRings, .engines, .bears, .jays, .fronts, .cores, .slotsPeak, .dram, .links, .cascade, .lynx, .clock, .power, .fault, .boxes, .firmware, .board, .identity, .log, .owl] s after := by
  refine ⟨_, rfl, ?_⟩
  with_reducible repeat' first
    | exact Touches.refl _ _
    | assumption
    | exact Nat.le_refl _
    | exact id
    | (apply State.sysResetLow_touches; on_goal 1 => decide)
    | split

theorem execSysRstNRise_effect (s : State) :
    ∃ after, execSysRstNRise s = .next (settle after) ∧ Touches [.attn, .cascade, .power, .firmware, .log, .owl] s after := by
  refine ⟨_, rfl, ?_⟩
  with_reducible repeat' first
    | exact Touches.refl _ _
    | assumption
    | exact Nat.le_refl _
    | exact id
    | (apply State.sysResetRises_touches; on_goal 1 => decide)
    | split

theorem execColdReset_effect (s : State) :
    ∃ after, execColdReset s = .next (settle after) ∧ Touches [.regs, .shadow, .dirty, .cfgA, .cfgB, .setOrder, .attn, .tick, .passed, .running, .safe, .frame, .tState, .tWorld, .tSearch, .tTable, .tSolver, .tSel, .tSched, .tOut, .tSpoor, .tQueues, .tCmds, .tDone, .tRings, .engines, .bears, .jays, .fronts, .cores, .slotsPeak, .dram, .links, .cascade, .lynx, .clock, .power, .fault, .boxes, .firmware, .board, .identity, .log, .owl, .cal] s after := by
  refine ⟨_, rfl, ?_⟩
  with_reducible repeat' first
    | exact Touches.refl _ _
    | assumption
    | exact Nat.le_refl _
    | exact id
    | (apply State.coldReset_touches; on_goal 1 => decide)
    | split

theorem execOwlWatchdog_effect (s : State) :
    ∃ after, execOwlWatchdog s = .next (settle after) ∧ Touches [.attn, .power, .boxes, .firmware, .log] s after := by
  refine ⟨_, rfl, ?_⟩
  with_reducible repeat' first
    | exact Touches.refl _ _
    | assumption
    | exact Nat.le_refl _
    | exact id
    | (apply State.owlWatchdog_touches; on_goal 1 => decide)
    | split

theorem execV3p3Loss_effect (s : State) :
    ∃ after, execV3p3Loss s = .next (settle after) ∧ Touches [.safe, .power] s after := by
  refine ⟨_, rfl, ?_⟩
  with_reducible repeat' first
    | exact Touches.refl _ _
    | assumption
    | exact Nat.le_refl _
    | exact id
    | (apply State.updPower_touches; on_goal 1 => decide)
    | apply Touches.updFrame
    | (intro p hp; cases p <;> first | exact absurd hp (by decide) | (simp only [Part.sameT, Part.sameF, Part.sameO, Tenant.cleared, Tenant.discardFrame, Tenant.startFrame, Tenant.turn, Tenant.reset, and_self]; done))
    | split

theorem execV3p3Return_effect (s : State) :
    ∃ after, execV3p3Return s = .next (settle after) ∧ Touches [.safe, .power] s after := by
  refine ⟨_, rfl, ?_⟩
  with_reducible repeat' first
    | exact Touches.refl _ _
    | assumption
    | exact Nat.le_refl _
    | exact id
    | (apply State.updPower_touches; on_goal 1 => decide)
    | apply Touches.updFrame
    | (intro p hp; cases p <;> first | exact absurd hp (by decide) | (simp only [Part.sameT, Part.sameF, Part.sameO, Tenant.cleared, Tenant.discardFrame, Tenant.startFrame, Tenant.turn, Tenant.reset, and_self]; done))
    | split

theorem execBootStageComplete_effect (o : StageOutcome) (s : State) :
    ∃ after, execBootStageComplete o s = .next (settle after) ∧ Touches [.draws, .regs, .shadow, .attn, .engines, .bears, .jays, .fronts, .cores, .dram, .power, .firmware, .board, .log] s after := by
  refine ⟨_, rfl, ?_⟩
  with_reducible repeat' first
    | exact Touches.refl _ _
    | assumption
    | exact Nat.le_refl _
    | exact id
    | (apply State.endBootStage_touches; on_goal 1 => decide)
    | split

theorem execPortReady_effect (p : Port) (s : State) :
    ∃ after, execPortReady p s = .next (settle after) ∧ Touches [.draws, .cfgA, .cfgB] s after := by
  refine ⟨_, rfl, ?_⟩
  with_reducible repeat' first
    | exact Touches.refl _ _
    | assumption
    | exact Nat.le_refl _
    | exact id
    | (apply State.portReady_touches; on_goal 1 => decide)
    | split

theorem execPortReset_effect (p : Port) (c : PortResetCause) (s : State) :
    ∃ after, execPortReset p c s = .next (settle after) ∧ Touches [.regs, .shadow, .dirty, .cfgA, .cfgB, .attn, .frame, .tState, .tWorld, .tSearch, .tTable, .tSolver, .tSel, .tSched, .tOut, .tSpoor, .tQueues, .tCmds, .tDone, .engines, .bears, .jays, .cores, .cascade, .power] s after := by
  refine ⟨_, rfl, ?_⟩
  with_reducible repeat' first
    | exact Touches.refl _ _
    | assumption
    | exact Nat.le_refl _
    | exact id
    | (apply State.portReset_touches; on_goal 1 => decide)
    | split

theorem execTempSample_effect (js : Bank (BitVec 16) 12) (s : State) :
    ∃ after, execTempSample js s = .next (settle after) ∧ Touches [.regs, .shadow, .dirty, .attn, .frame, .tWorld, .tQueues, .tCmds, .dram, .clock, .power, .fault, .log, .owl] s after := by
  refine ⟨_, rfl, ?_⟩
  with_reducible repeat' first
    | exact Touches.refl _ _
    | assumption
    | exact Nat.le_refl _
    | exact id
    | (apply State.tempSample_touches; on_goal 1 => decide)
    | split

theorem execThrottleStep_effect (s : State) :
    ∃ after, execThrottleStep s = .next (settle after) ∧ Touches [.now, .draws, .regs, .attn, .safe, .frame, .tSearch, .tSolver, .tSel, .tSched, .tOut, .bears, .jays, .cores, .dram, .cascade, .clock, .power] s after := by
  refine ⟨_, rfl, ?_⟩
  with_reducible repeat' first
    | exact Touches.refl _ _
    | assumption
    | exact Nat.le_refl _
    | exact id
    | (apply State.throttleStep_touches; on_goal 1 => decide)
    | split

theorem execThrottleEnd_effect (s : State) :
    ∃ after, execThrottleEnd s = .next (settle after) ∧ Touches [.now, .draws, .regs, .attn, .safe, .frame, .tSearch, .tSolver, .tSel, .tSched, .tOut, .bears, .jays, .cores, .dram, .cascade, .clock, .power] s after := by
  refine ⟨_, rfl, ?_⟩
  with_reducible repeat' first
    | exact Touches.refl _ _
    | assumption
    | exact Nat.le_refl _
    | exact id
    | (apply State.throttleEnd_touches; on_goal 1 => decide)
    | split

theorem execThrottleRestoreStep_effect (s : State) :
    ∃ after, execThrottleRestoreStep s = .next (settle after) ∧ Touches [.now, .draws, .regs, .attn, .safe, .frame, .tSearch, .tSolver, .tSel, .tSched, .tOut, .bears, .jays, .cores, .dram, .cascade, .clock, .power] s after := by
  refine ⟨_, rfl, ?_⟩
  with_reducible repeat' first
    | exact Touches.refl _ _
    | assumption
    | exact Nat.le_refl _
    | exact id
    | (apply State.restoreStep_touches; on_goal 1 => decide)
    | split

theorem execDramRefresh_effect (s : State) :
    ∃ after, execDramRefresh s = .next (settle after) ∧ Touches [.now, .draws, .regs, .attn, .safe, .frame, .tSearch, .tSolver, .tSel, .tSched, .tOut, .bears, .jays, .cores, .dram, .cascade] s after := by
  refine ⟨_, rfl, ?_⟩
  with_reducible repeat' first
    | exact Touches.refl _ _
    | assumption
    | exact Nat.le_refl _
    | exact id
    | (apply State.dramRefresh_touches; on_goal 1 => decide)
    | split

theorem execLinkEnable_effect (w : Writer) (l : Fin 8) (s : State) :
    ∃ after, execLinkEnable w l s = .next (settle after) ∧ Touches [.attn, .links] s after := by
  refine ⟨_, rfl, ?_⟩
  with_reducible repeat' first
    | exact Touches.refl _ _
    | assumption
    | exact Nat.le_refl _
    | exact id
    | (apply State.enableLink_touches; on_goal 1 => decide)
    | split

theorem execLinkTrained_effect (l : Fin 8) (peer : BitVec 16) (s : State) :
    ∃ after, execLinkTrained l peer s = .next (settle after) ∧ Touches [.links] s after := by
  refine ⟨_, rfl, ?_⟩
  with_reducible repeat' first
    | exact Touches.refl _ _
    | assumption
    | exact Nat.le_refl _
    | exact id
    | (apply State.linkUp_touches; on_goal 1 => decide)
    | split

theorem execRetrain_effect (w : Writer) (l : Fin 8) (s : State) :
    ∃ after, execRetrain w l s = .next (settle after) ∧ Touches [.attn, .links, .log, .owl] s after := by
  refine ⟨_, rfl, ?_⟩
  with_reducible repeat' first
    | exact Touches.refl _ _
    | assumption
    | exact Nat.le_refl _
    | exact id
    | (apply State.retrainLink_touches; on_goal 1 => decide)
    | (apply State.refuseWrite_touches; on_goal 1 => decide)
    | split

theorem execLinkReplay_effect (l : Fin 8) (s : State) :
    ∃ after, execLinkReplay l s = .next (settle after) ∧ Touches [.links] s after := by
  refine ⟨_, rfl, ?_⟩
  with_reducible repeat' first
    | exact Touches.refl _ _
    | assumption
    | exact Nat.le_refl _
    | exact id
    | (apply State.replay_touches; on_goal 1 => decide)
    | split

theorem execReplayRetrain_effect (l : Fin 8) (s : State) :
    ∃ after, execReplayRetrain l s = .next (settle after) ∧ Touches [.attn, .links, .log, .owl] s after := by
  refine ⟨_, rfl, ?_⟩
  with_reducible repeat' first
    | exact Touches.refl _ _
    | assumption
    | exact Nat.le_refl _
    | exact id
    | (apply State.retrainLink_touches; on_goal 1 => decide)
    | split

theorem execLinkDown_effect (l : Fin 8) (s : State) :
    ∃ after, execLinkDown l s = .next (settle after) ∧ Touches [.links] s after := by
  refine ⟨_, rfl, ?_⟩
  with_reducible repeat' first
    | exact Touches.refl _ _
    | assumption
    | exact Nat.le_refl _
    | exact id
    | (apply State.loseLink_touches; on_goal 1 => decide)
    | split

theorem execLinkDownTimeout_effect (l : Fin 8) (s : State) :
    ∃ after, execLinkDownTimeout l s = .next (settle after) ∧ Touches [.draws, .regs, .attn, .safe, .tState, .tSearch, .tSolver, .tSel, .tSched, .tOut, .bears, .jays, .cores, .dram, .links, .cascade] s after := by
  refine ⟨_, rfl, ?_⟩
  with_reducible repeat' first
    | exact Touches.refl _ _
    | assumption
    | exact Nat.le_refl _
    | exact id
    | (apply State.killLink_touches; on_goal 1 => decide)
    | split

theorem execCreditReturn_effect (l : Fin 8) (v : Fin 3) (s : State) :
    ∃ after, execCreditReturn l v s = .next (settle after) ∧ Touches [.links] s after := by
  refine ⟨_, rfl, ?_⟩
  with_reducible repeat' first
    | exact Touches.refl _ _
    | assumption
    | exact Nat.le_refl _
    | exact id
    | (apply State.returnCredit_touches; on_goal 1 => decide)
    | split

theorem execRouteDataWrite_effect (w : Writer) (v : Word) (s : State) :
    ∃ after, execRouteDataWrite w v s = .next (settle after) ∧ Touches [.cfgA, .cfgB, .attn, .cascade] s after := by
  refine ⟨_, rfl, ?_⟩
  with_reducible repeat' first
    | exact Touches.refl _ _
    | assumption
    | exact Nat.le_refl _
    | exact id
    | (apply State.writeRoute_touches; on_goal 1 => decide)
    | split

theorem execInvalidFrame_effect (l : Fin 8) (f : LinkFrame) (s : State) :
    ∃ after, execInvalidFrame l f s = .next (settle after) ∧ Touches [.cascade] s after := by
  refine ⟨_, rfl, ?_⟩
  with_reducible repeat' first
    | exact Touches.refl _ _
    | assumption
    | exact Nat.le_refl _
    | exact id
    | (apply State.receiveInvalid_touches; on_goal 1 => decide)
    | split

theorem execWrite_effect (l : Fin 8) (f : LinkFrame) (s : State) :
    ∃ after, execWrite l f s = .next (settle after) ∧ Touches [.draws, .regs, .attn, .safe, .tState, .tSearch, .tSolver, .tSel, .tSched, .tOut, .bears, .jays, .cores, .dram, .links, .cascade] s after := by
  refine ⟨_, rfl, ?_⟩
  with_reducible repeat' first
    | exact Touches.refl _ _
    | assumption
    | exact Nat.le_refl _
    | exact id
    | (apply State.routeFrame_touches; on_goal 1 => decide)
    | (apply State.serve_touches; on_goal 1 => decide)
    | split

theorem execRead_effect (l : Fin 8) (f : LinkFrame) (s : State) :
    ∃ after, execRead l f s = .next (settle after) ∧ Touches [.draws, .regs, .attn, .safe, .tState, .tSearch, .tSolver, .tSel, .tSched, .tOut, .bears, .jays, .cores, .dram, .links, .cascade] s after := by
  refine ⟨_, rfl, ?_⟩
  with_reducible repeat' first
    | exact Touches.refl _ _
    | assumption
    | exact Nat.le_refl _
    | exact id
    | (apply State.routeFrame_touches; on_goal 1 => decide)
    | (apply State.serve_touches; on_goal 1 => decide)
    | split

theorem execDoorbell_effect (l : Fin 8) (f : LinkFrame) (s : State) :
    ∃ after, execDoorbell l f s = .next (settle after) ∧ Touches [.draws, .regs, .attn, .safe, .tState, .tSearch, .tSolver, .tSel, .tSched, .tOut, .bears, .jays, .cores, .dram, .links, .cascade] s after := by
  refine ⟨_, rfl, ?_⟩
  with_reducible repeat' first
    | exact Touches.refl _ _
    | assumption
    | exact Nat.le_refl _
    | exact id
    | (apply State.routeFrame_touches; on_goal 1 => decide)
    | (apply State.serve_touches; on_goal 1 => decide)
    | split

theorem execCollPart_effect (l : Fin 8) (f : LinkFrame) (s : State) :
    ∃ after, execCollPart l f s = .next (settle after) ∧ Touches [.draws, .regs, .attn, .safe, .tState, .tSearch, .tSolver, .tSel, .tSched, .tOut, .bears, .jays, .cores, .dram, .links, .cascade] s after := by
  refine ⟨_, rfl, ?_⟩
  with_reducible repeat' first
    | exact Touches.refl _ _
    | assumption
    | exact Nat.le_refl _
    | exact id
    | (apply State.routeFrame_touches; on_goal 1 => decide)
    | (apply State.masterPart_touches; on_goal 1 => decide)
    | split

theorem execAck_effect (l : Fin 8) (f : LinkFrame) (s : State) :
    ∃ after, execAck l f s = .next (settle after) ∧ Touches [.draws, .regs, .attn, .safe, .tState, .tSearch, .tSolver, .tSel, .tSched, .tOut, .bears, .jays, .cores, .dram, .links, .cascade] s after := by
  refine ⟨_, rfl, ?_⟩
  with_reducible repeat' first
    | exact Touches.refl _ _
    | assumption
    | exact Nat.le_refl _
    | exact id
    | (apply State.routeFrame_touches; on_goal 1 => decide)
    | (apply State.deliverResponse_touches; on_goal 1 => decide)
    | split

theorem execReadData_effect (l : Fin 8) (f : LinkFrame) (s : State) :
    ∃ after, execReadData l f s = .next (settle after) ∧ Touches [.draws, .regs, .attn, .safe, .tState, .tSearch, .tSolver, .tSel, .tSched, .tOut, .bears, .jays, .cores, .dram, .links, .cascade] s after := by
  refine ⟨_, rfl, ?_⟩
  with_reducible repeat' first
    | exact Touches.refl _ _
    | assumption
    | exact Nat.le_refl _
    | exact id
    | (apply State.routeFrame_touches; on_goal 1 => decide)
    | (apply State.deliverResponse_touches; on_goal 1 => decide)
    | split

theorem execCollResult_effect (l : Fin 8) (f : LinkFrame) (s : State) :
    ∃ after, execCollResult l f s = .next (settle after) ∧ Touches [.draws, .regs, .attn, .safe, .tState, .tSearch, .tSolver, .tSel, .tSched, .tOut, .bears, .jays, .cores, .dram, .links, .cascade, .lynx] s after := by
  refine ⟨_, rfl, ?_⟩
  with_reducible repeat' first
    | exact Touches.refl _ _
    | assumption
    | exact Nat.le_refl _
    | exact id
    | (apply State.routeFrame_touches; on_goal 1 => decide)
    | (apply State.collResult_touches; on_goal 1 => decide)
    | split

theorem execWitness_effect (l : Fin 8) (f : LinkFrame) (s : State) :
    ∃ after, execWitness l f s = .next (settle after) ∧ Touches [.draws, .regs, .attn, .safe, .tState, .tSearch, .tSolver, .tSel, .tSched, .tOut, .tRings, .bears, .jays, .cores, .dram, .links, .cascade] s after := by
  refine ⟨_, rfl, ?_⟩
  with_reducible repeat' first
    | exact Touches.refl _ _
    | assumption
    | exact Nat.le_refl _
    | exact id
    | (apply State.routeFrame_touches; on_goal 1 => decide)
    | (apply State.notePeer_touches; on_goal 1 => decide)
    | (apply State.takeWitness_touches; on_goal 1 => decide)
    | split

theorem execTick_effect (l : Fin 8) (f : LinkFrame) (s : State) :
    ∃ after, execTick l f s = .next (settle after) ∧ Touches [.regs, .attn, .running, .frame, .cascade] s after := by
  refine ⟨_, rfl, ?_⟩
  with_reducible repeat' first
    | exact Touches.refl _ _
    | assumption
    | exact Nat.le_refl _
    | exact id
    | (apply State.takeTick_touches; on_goal 1 => decide)
    | split

theorem execTickForward_effect (s : State) :
    ∃ after, execTickForward s = .next (settle after) ∧ Touches [.links, .cascade] s after := by
  refine ⟨_, rfl, ?_⟩
  with_reducible repeat' first
    | exact Touches.refl _ _
    | assumption
    | exact Nat.le_refl _
    | exact id
    | (apply State.forwardTick_touches; on_goal 1 => decide)
    | split

theorem execMark_effect (l : Fin 8) (f : LinkFrame) (s : State) :
    ∃ after, execMark l f s = .next (settle after) ∧ Touches [.attn, .cascade] s after := by
  refine ⟨_, rfl, ?_⟩
  with_reducible repeat' first
    | exact Touches.refl _ _
    | assumption
    | exact Nat.le_refl _
    | exact id
    | (apply State.takeMark_touches; on_goal 1 => decide)
    | split

theorem execMarkSend_effect (s : State) :
    ∃ after, execMarkSend s = .next (settle after) ∧ Touches [.links] s after := by
  refine ⟨_, rfl, ?_⟩
  with_reducible repeat' first
    | exact Touches.refl _ _
    | assumption
    | exact Nat.le_refl _
    | exact id
    | (apply State.sendMark_touches; on_goal 1 => decide)
    | split

theorem execMarkForward_effect (s : State) :
    ∃ after, execMarkForward s = .next (settle after) ∧ Touches [.links, .cascade] s after := by
  refine ⟨_, rfl, ?_⟩
  with_reducible repeat' first
    | exact Touches.refl _ _
    | assumption
    | exact Nat.le_refl _
    | exact id
    | (apply State.forwardMark_touches; on_goal 1 => decide)
    | split

theorem execMasterLost_effect (s : State) :
    ∃ after, execMasterLost s = .next (settle after) ∧ Touches [.now, .draws, .regs, .attn, .safe, .frame, .tState, .tSearch, .tSolver, .tSel, .tSched, .tOut, .bears, .jays, .cores, .dram, .cascade, .lynx] s after := by
  refine ⟨_, rfl, ?_⟩
  with_reducible repeat' first
    | exact Touches.refl _ _
    | assumption
    | exact Nat.le_refl _
    | exact id
    | (apply State.loseMaster_touches; on_goal 1 => decide)
    | split

theorem execCal_effect (l : Fin 8) (f : LinkFrame) (s : State) :
    ∃ after, execCal l f s = .next (settle after) ∧ Touches [.links, .cascade] s after := by
  refine ⟨_, rfl, ?_⟩
  with_reducible repeat' first
    | exact Touches.refl _ _
    | assumption
    | exact Nat.le_refl _
    | exact id
    | (apply State.receive_touches; on_goal 1 => decide)
    | (apply State.updLink_touches; on_goal 1 => decide)
    | split

theorem execCalEchoSend_effect (l : Fin 8) (s : State) :
    ∃ after, execCalEchoSend l s = .next (settle after) ∧ Touches [.links] s after := by
  refine ⟨_, rfl, ?_⟩
  with_reducible repeat' first
    | exact Touches.refl _ _
    | assumption
    | exact Nat.le_refl _
    | exact id
    | (apply State.echoCal_touches; on_goal 1 => decide)
    | split

theorem execCalEcho_effect (l : Fin 8) (f : LinkFrame) (r : Nat) (s : State) :
    ∃ after, execCalEcho l f r s = .next (settle after) ∧ Touches [.links, .cascade] s after := by
  refine ⟨_, rfl, ?_⟩
  with_reducible repeat' first
    | exact Touches.refl _ _
    | assumption
    | exact Nat.le_refl _
    | exact id
    | (apply State.takeEcho_touches; on_goal 1 => decide)
    | split

theorem execLynxWindowEnd_effect (s : State) :
    ∃ after, execLynxWindowEnd s = .next (settle after) ∧ Touches [.now, .draws, .regs, .attn, .safe, .frame, .tSearch, .tSolver, .tSel, .tSched, .tOut, .bears, .jays, .cores, .dram, .links, .cascade, .lynx] s after := by
  refine ⟨_, rfl, ?_⟩
  with_reducible repeat' first
    | exact Touches.refl _ _
    | assumption
    | exact Nat.le_refl _
    | exact id
    | (apply State.endWindow_touches; on_goal 1 => decide)
    | split

theorem execLynxSig_effect (f : LinkFrame) (s : State) :
    ∃ after, execLynxSig f s = .next (settle after) ∧ Touches [.now, .draws, .regs, .shadow, .dirty, .attn, .safe, .frame, .tWorld, .tSearch, .tSolver, .tSel, .tSched, .tOut, .tQueues, .tCmds, .bears, .jays, .cores, .dram, .links, .cascade, .lynx, .fault, .log] s after := by
  refine ⟨_, rfl, ?_⟩
  with_reducible repeat' first
    | exact Touches.refl _ _
    | assumption
    | exact Nat.le_refl _
    | exact id
    | (apply State.takeSig_touches; on_goal 1 => decide)
    | split

theorem execLynxNotice_effect (f : LinkFrame) (s : State) :
    ∃ after, execLynxNotice f s = .next (settle after) ∧ Touches [.draws, .regs, .shadow, .dirty, .attn, .tWorld, .tQueues, .tCmds, .links, .cascade, .lynx, .fault, .log] s after := by
  refine ⟨_, rfl, ?_⟩
  with_reducible repeat' first
    | exact Touches.refl _ _
    | assumption
    | exact Nat.le_refl _
    | exact id
    | (apply State.takeNotice_touches; on_goal 1 => decide)
    | split

theorem execLynxMissing_effect (w : Nat) (s : State) :
    ∃ after, execLynxMissing w s = .next (settle after) ∧ Touches [.draws, .regs, .shadow, .dirty, .attn, .tWorld, .tQueues, .tCmds, .links, .lynx, .fault, .log] s after := by
  refine ⟨_, rfl, ?_⟩
  with_reducible repeat' first
    | exact Touches.refl _ _
    | assumption
    | exact Nat.le_refl _
    | exact id
    | (apply State.missSigs_touches; on_goal 1 => decide)
    | split

theorem execDivClear_effect (w : Writer) (s : State) :
    ∃ after, execDivClear w s = .next (settle after) ∧ Touches [.attn, .lynx] s after := by
  refine ⟨_, rfl, ?_⟩
  with_reducible repeat' first
    | exact Touches.refl _ _
    | assumption
    | exact Nat.le_refl _
    | exact id
    | (apply State.updLynx_touches; on_goal 1 => decide)
    | (apply State.refuseWrite_touches; on_goal 1 => decide)
    | split

theorem execGetInfo_effect (ch : Channel) (req : List Byte) (s : State) :
    ∃ after, execGetInfo ch req s = .next (settle after) ∧ Touches [.draws, .regs, .cfgA, .cfgB, .attn, .safe, .tState, .tSearch, .tTable, .tSolver, .tSel, .tSched, .tOut, .engines, .bears, .jays, .fronts, .cores, .dram, .cascade, .lynx, .boxes, .firmware, .board, .identity, .log, .owl] s after := by
  refine ⟨_, rfl, ?_⟩
  with_reducible repeat' first
    | exact Touches.refl _ _
    | assumption
    | exact Nat.le_refl _
    | exact id
    | (apply State.mailOp_touches; on_goal 1 => decide)
    | split

theorem execReadSensors_effect (ch : Channel) (req : List Byte) (s : State) :
    ∃ after, execReadSensors ch req s = .next (settle after) ∧ Touches [.draws, .regs, .cfgA, .cfgB, .attn, .safe, .tState, .tSearch, .tTable, .tSolver, .tSel, .tSched, .tOut, .engines, .bears, .jays, .fronts, .cores, .dram, .cascade, .lynx, .boxes, .firmware, .board, .identity, .log, .owl] s after := by
  refine ⟨_, rfl, ?_⟩
  with_reducible repeat' first
    | exact Touches.refl _ _
    | assumption
    | exact Nat.le_refl _
    | exact id
    | (apply State.mailOp_touches; on_goal 1 => decide)
    | split

theorem execReadCounters_effect (ch : Channel) (req : List Byte) (s : State) :
    ∃ after, execReadCounters ch req s = .next (settle after) ∧ Touches [.draws, .regs, .cfgA, .cfgB, .attn, .safe, .tState, .tSearch, .tTable, .tSolver, .tSel, .tSched, .tOut, .engines, .bears, .jays, .fronts, .cores, .dram, .cascade, .lynx, .boxes, .firmware, .board, .identity, .log, .owl] s after := by
  refine ⟨_, rfl, ?_⟩
  with_reducible repeat' first
    | exact Touches.refl _ _
    | assumption
    | exact Nat.le_refl _
    | exact id
    | (apply State.mailOp_touches; on_goal 1 => decide)
    | split

theorem execReadLog_effect (ch : Channel) (req : List Byte) (s : State) :
    ∃ after, execReadLog ch req s = .next (settle after) ∧ Touches [.draws, .regs, .cfgA, .cfgB, .attn, .safe, .tState, .tSearch, .tTable, .tSolver, .tSel, .tSched, .tOut, .engines, .bears, .jays, .fronts, .cores, .dram, .cascade, .lynx, .boxes, .firmware, .board, .identity, .log, .owl] s after := by
  refine ⟨_, rfl, ?_⟩
  with_reducible repeat' first
    | exact Touches.refl _ _
    | assumption
    | exact Nat.le_refl _
    | exact id
    | (apply State.mailOp_touches; on_goal 1 => decide)
    | split

theorem execGetIdentity_effect (ch : Channel) (req : List Byte) (s : State) :
    ∃ after, execGetIdentity ch req s = .next (settle after) ∧ Touches [.draws, .regs, .cfgA, .cfgB, .attn, .safe, .tState, .tSearch, .tTable, .tSolver, .tSel, .tSched, .tOut, .engines, .bears, .jays, .fronts, .cores, .dram, .cascade, .lynx, .boxes, .firmware, .board, .identity, .log, .owl] s after := by
  refine ⟨_, rfl, ?_⟩
  with_reducible repeat' first
    | exact Touches.refl _ _
    | assumption
    | exact Nat.le_refl _
    | exact id
    | (apply State.mailOp_touches; on_goal 1 => decide)
    | split

theorem execChallenge_effect (ch : Channel) (req : List Byte) (s : State) :
    ∃ after, execChallenge ch req s = .next (settle after) ∧ Touches [.draws, .regs, .cfgA, .cfgB, .attn, .safe, .tState, .tSearch, .tTable, .tSolver, .tSel, .tSched, .tOut, .engines, .bears, .jays, .fronts, .cores, .dram, .cascade, .lynx, .boxes, .firmware, .board, .identity, .log, .owl] s after := by
  refine ⟨_, rfl, ?_⟩
  with_reducible repeat' first
    | exact Touches.refl _ _
    | assumption
    | exact Nat.le_refl _
    | exact id
    | (apply State.mailOp_touches; on_goal 1 => decide)
    | split

theorem execVerify_effect (ch : Channel) (req : List Byte) (s : State) :
    ∃ after, execVerify ch req s = .next (settle after) ∧ Touches [.draws, .regs, .cfgA, .cfgB, .attn, .safe, .tState, .tSearch, .tTable, .tSolver, .tSel, .tSched, .tOut, .engines, .bears, .jays, .fronts, .cores, .dram, .cascade, .lynx, .boxes, .firmware, .board, .identity, .log, .owl] s after := by
  refine ⟨_, rfl, ?_⟩
  with_reducible repeat' first
    | exact Touches.refl _ _
    | assumption
    | exact Nat.le_refl _
    | exact id
    | (apply State.mailOp_touches; on_goal 1 => decide)
    | split

theorem execPair_effect (ch : Channel) (req : List Byte) (s : State) :
    ∃ after, execPair ch req s = .next (settle after) ∧ Touches [.draws, .regs, .cfgA, .cfgB, .attn, .safe, .tState, .tSearch, .tTable, .tSolver, .tSel, .tSched, .tOut, .engines, .bears, .jays, .fronts, .cores, .dram, .cascade, .lynx, .boxes, .firmware, .board, .identity, .log, .owl] s after := by
  refine ⟨_, rfl, ?_⟩
  with_reducible repeat' first
    | exact Touches.refl _ _
    | assumption
    | exact Nat.le_refl _
    | exact id
    | (apply State.mailOp_touches; on_goal 1 => decide)
    | split

theorem execIdentAck_effect (ch : Channel) (req : List Byte) (s : State) :
    ∃ after, execIdentAck ch req s = .next (settle after) ∧ Touches [.draws, .regs, .cfgA, .cfgB, .attn, .safe, .tState, .tSearch, .tTable, .tSolver, .tSel, .tSched, .tOut, .engines, .bears, .jays, .fronts, .cores, .dram, .cascade, .lynx, .boxes, .firmware, .board, .identity, .log, .owl] s after := by
  refine ⟨_, rfl, ?_⟩
  with_reducible repeat' first
    | exact Touches.refl _ _
    | assumption
    | exact Nat.le_refl _
    | exact id
    | (apply State.mailOp_touches; on_goal 1 => decide)
    | split

theorem execFence_effect (ch : Channel) (req : List Byte) (s : State) :
    ∃ after, execFence ch req s = .next (settle after) ∧ Touches [.draws, .regs, .cfgA, .cfgB, .attn, .safe, .tState, .tSearch, .tTable, .tSolver, .tSel, .tSched, .tOut, .engines, .bears, .jays, .fronts, .cores, .dram, .cascade, .lynx, .boxes, .firmware, .board, .identity, .log, .owl] s after := by
  refine ⟨_, rfl, ?_⟩
  with_reducible repeat' first
    | exact Touches.refl _ _
    | assumption
    | exact Nat.le_refl _
    | exact id
    | (apply State.mailOp_touches; on_goal 1 => decide)
    | split

theorem execUnfence_effect (ch : Channel) (req : List Byte) (s : State) :
    ∃ after, execUnfence ch req s = .next (settle after) ∧ Touches [.draws, .regs, .cfgA, .cfgB, .attn, .safe, .tState, .tSearch, .tTable, .tSolver, .tSel, .tSched, .tOut, .engines, .bears, .jays, .fronts, .cores, .dram, .cascade, .lynx, .boxes, .firmware, .board, .identity, .log, .owl] s after := by
  refine ⟨_, rfl, ?_⟩
  with_reducible repeat' first
    | exact Touches.refl _ _
    | assumption
    | exact Nat.le_refl _
    | exact id
    | (apply State.mailOp_touches; on_goal 1 => decide)
    | split

theorem execFwBegin_effect (ch : Channel) (req : List Byte) (s : State) :
    ∃ after, execFwBegin ch req s = .next (settle after) ∧ Touches [.draws, .regs, .cfgA, .cfgB, .attn, .safe, .tState, .tSearch, .tTable, .tSolver, .tSel, .tSched, .tOut, .engines, .bears, .jays, .fronts, .cores, .dram, .cascade, .lynx, .boxes, .firmware, .board, .identity, .log, .owl] s after := by
  refine ⟨_, rfl, ?_⟩
  with_reducible repeat' first
    | exact Touches.refl _ _
    | assumption
    | exact Nat.le_refl _
    | exact id
    | (apply State.mailOp_touches; on_goal 1 => decide)
    | split

theorem execFwChunk_effect (ch : Channel) (req : List Byte) (s : State) :
    ∃ after, execFwChunk ch req s = .next (settle after) ∧ Touches [.draws, .regs, .cfgA, .cfgB, .attn, .safe, .tState, .tSearch, .tTable, .tSolver, .tSel, .tSched, .tOut, .engines, .bears, .jays, .fronts, .cores, .dram, .cascade, .lynx, .boxes, .firmware, .board, .identity, .log, .owl] s after := by
  refine ⟨_, rfl, ?_⟩
  with_reducible repeat' first
    | exact Touches.refl _ _
    | assumption
    | exact Nat.le_refl _
    | exact id
    | (apply State.mailOp_touches; on_goal 1 => decide)
    | split

theorem execFwFinish_effect (ch : Channel) (req : List Byte) (s : State) :
    ∃ after, execFwFinish ch req s = .next (settle after) ∧ Touches [.draws, .regs, .cfgA, .cfgB, .attn, .safe, .tState, .tSearch, .tTable, .tSolver, .tSel, .tSched, .tOut, .engines, .bears, .jays, .fronts, .cores, .dram, .cascade, .lynx, .boxes, .firmware, .board, .identity, .log, .owl] s after := by
  refine ⟨_, rfl, ?_⟩
  with_reducible repeat' first
    | exact Touches.refl _ _
    | assumption
    | exact Nat.le_refl _
    | exact id
    | (apply State.mailOp_touches; on_goal 1 => decide)
    | split

theorem execFwConfirm_effect (ch : Channel) (req : List Byte) (s : State) :
    ∃ after, execFwConfirm ch req s = .next (settle after) ∧ Touches [.draws, .regs, .cfgA, .cfgB, .attn, .safe, .tState, .tSearch, .tTable, .tSolver, .tSel, .tSched, .tOut, .engines, .bears, .jays, .fronts, .cores, .dram, .cascade, .lynx, .boxes, .firmware, .board, .identity, .log, .owl] s after := by
  refine ⟨_, rfl, ?_⟩
  with_reducible repeat' first
    | exact Touches.refl _ _
    | assumption
    | exact Nat.le_refl _
    | exact id
    | (apply State.mailOp_touches; on_goal 1 => decide)
    | split

theorem execSetBoardCfg_effect (ch : Channel) (req : List Byte) (s : State) :
    ∃ after, execSetBoardCfg ch req s = .next (settle after) ∧ Touches [.draws, .regs, .cfgA, .cfgB, .attn, .safe, .tState, .tSearch, .tTable, .tSolver, .tSel, .tSched, .tOut, .engines, .bears, .jays, .fronts, .cores, .dram, .cascade, .lynx, .boxes, .firmware, .board, .identity, .log, .owl] s after := by
  refine ⟨_, rfl, ?_⟩
  with_reducible repeat' first
    | exact Touches.refl _ _
    | assumption
    | exact Nat.le_refl _
    | exact id
    | (apply State.mailOp_touches; on_goal 1 => decide)
    | split

theorem execGetBoardCfg_effect (ch : Channel) (req : List Byte) (s : State) :
    ∃ after, execGetBoardCfg ch req s = .next (settle after) ∧ Touches [.draws, .regs, .cfgA, .cfgB, .attn, .safe, .tState, .tSearch, .tTable, .tSolver, .tSel, .tSched, .tOut, .engines, .bears, .jays, .fronts, .cores, .dram, .cascade, .lynx, .boxes, .firmware, .board, .identity, .log, .owl] s after := by
  refine ⟨_, rfl, ?_⟩
  with_reducible repeat' first
    | exact Touches.refl _ _
    | assumption
    | exact Nat.le_refl _
    | exact id
    | (apply State.mailOp_touches; on_goal 1 => decide)
    | split

theorem execUnassignedMailboxOpcode_effect (ch : Channel) (req : List Byte) (s : State) :
    ∃ after, execUnassignedMailboxOpcode ch req s = .next (settle after) ∧ Touches [.draws, .regs, .cfgA, .cfgB, .attn, .safe, .tState, .tSearch, .tTable, .tSolver, .tSel, .tSched, .tOut, .engines, .bears, .jays, .fronts, .cores, .dram, .cascade, .lynx, .boxes, .firmware, .board, .identity, .log, .owl] s after := by
  refine ⟨_, rfl, ?_⟩
  with_reducible repeat' first
    | exact Touches.refl _ _
    | assumption
    | exact Nat.le_refl _
    | exact id
    | (apply State.mailRow_touches; on_goal 1 => decide)
    | split

theorem execMbGoWhileBusy_effect (p : Port) (s : State) :
    ∃ after, execMbGoWhileBusy p s = .next (settle after) ∧ Touches [.boxes] s after := by
  refine ⟨_, rfl, ?_⟩
  with_reducible repeat' first
    | exact Touches.refl _ _
    | assumption
    | exact Nat.le_refl _
    | exact id
    | (apply State.mailGo_touches; on_goal 1 => decide)
    | split

theorem execMailboxFrameDiscarded_effect (_ch : Channel) (s : State) :
    ∃ after, execMailboxFrameDiscarded _ch s = .next (settle after) ∧ Touches [] s after := by
  refine ⟨_, rfl, ?_⟩
  with_reducible repeat' first
    | exact Touches.refl _ _
    | assumption
    | exact Nat.le_refl _
    | exact id
    | split

theorem execFlashEraseDone_effect (s : State) :
    ∃ after, execFlashEraseDone s = .next (settle after) ∧ Touches [.draws, .regs, .cfgA, .cfgB, .attn, .safe, .tState, .tSearch, .tTable, .tSolver, .tSel, .tSched, .tOut, .engines, .bears, .jays, .fronts, .cores, .dram, .cascade, .lynx, .boxes, .firmware, .board, .identity, .log, .owl] s after := by
  refine ⟨_, rfl, ?_⟩
  with_reducible repeat' first
    | exact Touches.refl _ _
    | assumption
    | exact Nat.le_refl _
    | exact id
    | (apply State.eraseDone_touches; on_goal 1 => decide)
    | split

theorem execSmbResponseRead_effect (cmd : Byte) (s : State) :
    ∃ after, execSmbResponseRead cmd s = .next (settle after) ∧ Touches [.owl] s after := by
  refine ⟨_, rfl, ?_⟩
  with_reducible repeat' first
    | exact Touches.refl _ _
    | assumption
    | exact Nat.le_refl _
    | exact id
    | (apply State.smbRead_touches; on_goal 1 => decide)
    | split

theorem execSmbTimeRead_effect (s : State) :
    ∃ after, execSmbTimeRead s = .next (settle after) ∧ Touches [.owl] s after := by
  refine ⟨_, rfl, ?_⟩
  with_reducible repeat' first
    | exact Touches.refl _ _
    | assumption
    | exact Nat.le_refl _
    | exact id
    | (apply State.smbTime_touches; on_goal 1 => decide)
    | split

theorem execLogFlush_effect (s : State) :
    ∃ after, execLogFlush s = .next (settle after) ∧ Touches [.attn, .log] s after := by
  refine ⟨_, rfl, ?_⟩
  with_reducible repeat' first
    | exact Touches.refl _ _
    | assumption
    | exact Nat.le_refl _
    | exact id
    | (apply State.flushLog_touches; on_goal 1 => decide)
    | split

theorem execCounterCheckpoint_effect (s : State) :
    ∃ after, execCounterCheckpoint s = .next (settle after) ∧ Touches [.owl] s after := by
  refine ⟨_, rfl, ?_⟩
  with_reducible repeat' first
    | exact Touches.refl _ _
    | assumption
    | exact Nat.le_refl _
    | exact id
    | (apply State.checkpoint_touches; on_goal 1 => decide)
    | split

theorem execRailSample_effect (rails : Bank (BitVec 16) 15) (current : BitVec 16) (stackTemps : Bank (BitVec 16) 4) (power : BitVec 16) (s : State) :
    ∃ after, execRailSample rails current stackTemps power s = .next (settle after) ∧ Touches [.attn, .power, .log, .owl] s after := by
  refine ⟨_, rfl, ?_⟩
  with_reducible repeat' first
    | exact Touches.refl _ _
    | assumption
    | exact Nat.le_refl _
    | exact id
    | (apply State.railSample_touches; on_goal 1 => decide)
    | split

theorem execRtcSecond_effect (s : State) :
    ∃ after, execRtcSecond s = .next (settle after) ∧ Touches [.clock, .owl, .cal] s after := by
  refine ⟨_, rfl, ?_⟩
  with_reducible repeat' first
    | exact Touches.refl _ _
    | assumption
    | exact Nat.le_refl _
    | exact id
    | (apply State.rtcSecond_touches; on_goal 1 => decide)
    | split

theorem execRtcSourceLost_effect (s : State) :
    ∃ after, execRtcSourceLost s = .next (settle after) ∧ Touches [.cal] s after := by
  refine ⟨_, rfl, ?_⟩
  with_reducible repeat' first
    | exact Touches.refl _ _
    | assumption
    | exact Nat.le_refl _
    | exact id
    | (apply State.updCal_touches; on_goal 1 => decide)
    | split

theorem execRtcSourceReturn_effect (s : State) :
    ∃ after, execRtcSourceReturn s = .next (settle after) ∧ Touches [.cal] s after := by
  refine ⟨_, rfl, ?_⟩
  with_reducible repeat' first
    | exact Touches.refl _ _
    | assumption
    | exact Nat.le_refl _
    | exact id
    | (apply State.updCal_touches; on_goal 1 => decide)
    | split

theorem execCalSet_effect (p : Port) (s : State) :
    ∃ after, execCalSet p s = .next (settle after) ∧ Touches [.cfgA, .cfgB, .attn, .log, .cal] s after := by
  refine ⟨_, rfl, ?_⟩
  with_reducible repeat' first
    | exact Touches.refl _ _
    | assumption
    | exact Nat.le_refl _
    | exact id
    | (apply State.calSet_touches; on_goal 1 => decide)
    | split

theorem execSramCorrected_effect (x : Storage) (s : State) :
    ∃ after, execSramCorrected x s = .next (settle after) ∧ Touches [.attn] s after := by
  refine ⟨_, rfl, ?_⟩
  with_reducible repeat' first
    | exact Touches.refl _ _
    | assumption
    | exact Nat.le_refl _
    | exact id
    | (apply State.sramCorrected_touches; on_goal 1 => decide)
    | split

theorem execSramUe_effect (x : Storage) (s : State) :
    ∃ after, execSramUe x s = .next (settle after) ∧ Touches [.draws, .regs, .shadow, .dirty, .attn, .safe, .tState, .tWorld, .tSearch, .tTable, .tSolver, .tSel, .tSched, .tOut, .tQueues, .tCmds, .engines, .bears, .jays, .fronts, .cores, .dram, .cascade, .lynx, .power, .fault, .boxes, .firmware, .identity, .log] s after := by
  refine ⟨_, rfl, ?_⟩
  with_reducible repeat' first
    | exact Touches.refl _ _
    | assumption
    | exact Nat.le_refl _
    | exact id
    | (apply State.sramUe_touches; on_goal 1 => decide)
    | split

theorem execDramCorrected_effect (a : Nat) (s : State) :
    ∃ after, execDramCorrected a s = .next (settle after) ∧ Touches [.regs, .attn, .dram, .owl] s after := by
  refine ⟨_, rfl, ?_⟩
  with_reducible repeat' first
    | exact Touches.refl _ _
    | assumption
    | exact Nat.le_refl _
    | exact id
    | (apply State.dramCorrected_touches; on_goal 1 => decide)
    | split

theorem execDramUe_effect (a : Nat) (s : State) :
    ∃ after, execDramUe a s = .next (settle after) ∧ Touches [.regs, .attn, .dram, .log] s after := by
  refine ⟨_, rfl, ?_⟩
  with_reducible repeat' first
    | exact Touches.refl _ _
    | assumption
    | exact Nat.le_refl _
    | exact id
    | (apply State.dramUe_touches; on_goal 1 => decide)
    | split

theorem execExtest_effect (s : State) :
    ∃ after, execExtest s = .next (settle after) ∧ Touches [.draws, .regs, .shadow, .dirty, .cfgA, .cfgB, .setOrder, .attn, .tick, .passed, .running, .safe, .frame, .tState, .tWorld, .tSearch, .tTable, .tSolver, .tSel, .tSched, .tOut, .tSpoor, .tQueues, .tCmds, .tDone, .tRings, .engines, .bears, .jays, .fronts, .cores, .slotsPeak, .dram, .links, .cascade, .lynx, .clock, .power, .fault, .boxes, .firmware, .board, .identity, .log, .owl, .jtag] s after := by
  refine ⟨_, rfl, ?_⟩
  with_reducible repeat' first
    | exact Touches.refl _ _
    | assumption
    | exact Nat.le_refl _
    | exact id
    | (apply State.loadTest_touches; on_goal 1 => decide)
    | split

theorem execClamp_effect (s : State) :
    ∃ after, execClamp s = .next (settle after) ∧ Touches [.draws, .regs, .shadow, .dirty, .cfgA, .cfgB, .setOrder, .attn, .tick, .passed, .running, .safe, .frame, .tState, .tWorld, .tSearch, .tTable, .tSolver, .tSel, .tSched, .tOut, .tSpoor, .tQueues, .tCmds, .tDone, .tRings, .engines, .bears, .jays, .fronts, .cores, .slotsPeak, .dram, .links, .cascade, .lynx, .clock, .power, .fault, .boxes, .firmware, .board, .identity, .log, .owl, .jtag] s after := by
  refine ⟨_, rfl, ?_⟩
  with_reducible repeat' first
    | exact Touches.refl _ _
    | assumption
    | exact Nat.le_refl _
    | exact id
    | (apply State.loadTest_touches; on_goal 1 => decide)
    | split

theorem execHighz_effect (s : State) :
    ∃ after, execHighz s = .next (settle after) ∧ Touches [.draws, .regs, .shadow, .dirty, .cfgA, .cfgB, .setOrder, .attn, .tick, .passed, .running, .safe, .frame, .tState, .tWorld, .tSearch, .tTable, .tSolver, .tSel, .tSched, .tOut, .tSpoor, .tQueues, .tCmds, .tDone, .tRings, .engines, .bears, .jays, .fronts, .cores, .slotsPeak, .dram, .links, .cascade, .lynx, .clock, .power, .fault, .boxes, .firmware, .board, .identity, .log, .owl, .jtag] s after := by
  refine ⟨_, rfl, ?_⟩
  with_reducible repeat' first
    | exact Touches.refl _ _
    | assumption
    | exact Nat.le_refl _
    | exact id
    | (apply State.loadTest_touches; on_goal 1 => decide)
    | split

theorem execExtestPulse_effect (s : State) :
    ∃ after, execExtestPulse s = .next (settle after) ∧ Touches [.draws, .regs, .shadow, .dirty, .cfgA, .cfgB, .setOrder, .attn, .tick, .passed, .running, .safe, .frame, .tState, .tWorld, .tSearch, .tTable, .tSolver, .tSel, .tSched, .tOut, .tSpoor, .tQueues, .tCmds, .tDone, .tRings, .engines, .bears, .jays, .fronts, .cores, .slotsPeak, .dram, .links, .cascade, .lynx, .clock, .power, .fault, .boxes, .firmware, .board, .identity, .log, .owl, .jtag] s after := by
  refine ⟨_, rfl, ?_⟩
  with_reducible repeat' first
    | exact Touches.refl _ _
    | assumption
    | exact Nat.le_refl _
    | exact id
    | (apply State.loadTest_touches; on_goal 1 => decide)
    | split

theorem execExtestTrain_effect (s : State) :
    ∃ after, execExtestTrain s = .next (settle after) ∧ Touches [.draws, .regs, .shadow, .dirty, .cfgA, .cfgB, .setOrder, .attn, .tick, .passed, .running, .safe, .frame, .tState, .tWorld, .tSearch, .tTable, .tSolver, .tSel, .tSched, .tOut, .tSpoor, .tQueues, .tCmds, .tDone, .tRings, .engines, .bears, .jays, .fronts, .cores, .slotsPeak, .dram, .links, .cascade, .lynx, .clock, .power, .fault, .boxes, .firmware, .board, .identity, .log, .owl, .jtag] s after := by
  refine ⟨_, rfl, ?_⟩
  with_reducible repeat' first
    | exact Touches.refl _ _
    | assumption
    | exact Nat.le_refl _
    | exact id
    | (apply State.loadTest_touches; on_goal 1 => decide)
    | split

theorem execIdcode_effect (s : State) :
    ∃ after, execIdcode s = .next (settle after) ∧ Touches [.draws, .attn, .cascade, .power, .firmware, .log, .owl, .jtag] s after := by
  refine ⟨_, rfl, ?_⟩
  with_reducible repeat' first
    | exact Touches.refl _ _
    | assumption
    | exact Nat.le_refl _
    | exact id
    | (apply State.draw_touches; on_goal 1 => decide)
    | (apply State.loadJtag_touches; on_goal 1 => decide)
    | split

theorem execSamplePreload_effect (s : State) :
    ∃ after, execSamplePreload s = .next (settle after) ∧ Touches [.draws, .attn, .cascade, .power, .firmware, .log, .owl, .jtag] s after := by
  have h : Touches [.attn, .cascade, .power, .firmware, .log, .owl, .jtag] s (s.loadJtag 0x02 s.captureCells) :=
    State.loadJtag_touches _ _ _ (by decide) (Touches.refl _ _)
  refine ⟨_, rfl, Touches.set_draws _ _ (by decide) (Touches.step h (by decide) (Touches.refl _ _)) ?_⟩
  exact Nat.le_trans (Nat.le_of_eq (((h .draws).1 rfl).1)) (Nat.le_add_right _ _)

theorem execBypass_effect (s : State) :
    ∃ after, execBypass s = .next (settle after) ∧ Touches [.attn, .cascade, .power, .firmware, .log, .owl, .jtag] s after := by
  refine ⟨_, rfl, ?_⟩
  with_reducible repeat' first
    | exact Touches.refl _ _
    | assumption
    | exact Nat.le_refl _
    | exact id
    | (apply State.loadJtag_touches; on_goal 1 => decide)
    | split

theorem execAttnLatchClear_effect (p : Port) (page : BitVec 12) (v : Word) (s : State) :
    ∃ after, execAttnLatchClear p page v s = .next (settle after) ∧ Touches [.draws, .doorbells, .regs, .shadow, .dirty, .cfgA, .cfgB, .setOrder, .attn, .tick, .passed, .running, .safe, .frame, .tState, .tWorld, .tSearch, .tTable, .tSolver, .tSel, .tSched, .tOut, .tSpoor, .tQueues, .tCmds, .tDone, .tRings, .engines, .bears, .jays, .fronts, .cores, .slotsPeak, .dram, .links, .cascade, .lynx, .clock, .power, .fault, .boxes, .firmware, .board, .identity, .log, .owl, .cal] s after := by
  refine ⟨_, rfl, ?_⟩
  with_reducible repeat' first
    | exact Touches.refl _ _
    | assumption
    | exact Nat.le_refl _
    | exact id
    | (apply State.writeReg_touches; on_goal 1 => decide)
    | split

theorem execWmarkCrossedClear_effect (p : Port) (page : BitVec 12) (v : Word) (s : State) :
    ∃ after, execWmarkCrossedClear p page v s = .next (settle after) ∧ Touches [.draws, .doorbells, .regs, .shadow, .dirty, .cfgA, .cfgB, .setOrder, .attn, .tick, .passed, .running, .safe, .frame, .tState, .tWorld, .tSearch, .tTable, .tSolver, .tSel, .tSched, .tOut, .tSpoor, .tQueues, .tCmds, .tDone, .tRings, .engines, .bears, .jays, .fronts, .cores, .slotsPeak, .dram, .links, .cascade, .lynx, .clock, .power, .fault, .boxes, .firmware, .board, .identity, .log, .owl, .cal] s after := by
  refine ⟨_, rfl, ?_⟩
  with_reducible repeat' first
    | exact Touches.refl _ _
    | assumption
    | exact Nat.le_refl _
    | exact id
    | (apply State.writeReg_touches; on_goal 1 => decide)
    | split

theorem execAttnMaskWrite_effect (w : Writer) (page : BitVec 12) (v : Word) (s : State) :
    ∃ after, execAttnMaskWrite w page v s = .next (settle after) ∧ Touches [.draws, .doorbells, .regs, .shadow, .dirty, .cfgA, .cfgB, .setOrder, .attn, .tick, .passed, .running, .safe, .frame, .tState, .tWorld, .tSearch, .tTable, .tSolver, .tSel, .tSched, .tOut, .tSpoor, .tQueues, .tCmds, .tDone, .tRings, .engines, .bears, .jays, .fronts, .cores, .slotsPeak, .dram, .links, .cascade, .lynx, .clock, .power, .fault, .boxes, .firmware, .board, .identity, .log, .owl, .cal] s after := by
  refine ⟨_, rfl, ?_⟩
  with_reducible repeat' first
    | exact Touches.refl _ _
    | assumption
    | exact Nat.le_refl _
    | exact id
    | (apply State.writeReg_touches; on_goal 1 => decide)
    | split

theorem execRegisterWrite_effect (w : Writer) (page off : BitVec 12) (v : Word) (s : State) :
    ∃ after, execRegisterWrite w page off v s = .next (settle after) ∧ Touches [.draws, .doorbells, .regs, .shadow, .dirty, .cfgA, .cfgB, .setOrder, .attn, .tick, .passed, .running, .safe, .frame, .tState, .tWorld, .tSearch, .tTable, .tSolver, .tSel, .tSched, .tOut, .tSpoor, .tQueues, .tCmds, .tDone, .tRings, .engines, .bears, .jays, .fronts, .cores, .slotsPeak, .dram, .links, .cascade, .lynx, .clock, .power, .fault, .boxes, .firmware, .board, .identity, .log, .owl, .cal] s after := by
  refine ⟨_, rfl, ?_⟩
  with_reducible repeat' first
    | exact Touches.refl _ _
    | assumption
    | exact Nat.le_refl _
    | exact id
    | (apply State.writeReg_touches; on_goal 1 => decide)
    | split

theorem execTailWrite_effect (w : Writer) (v : Word) (s : State) :
    ∃ after, execTailWrite w v s = .next (settle after) ∧ Touches [.draws, .doorbells, .regs, .shadow, .dirty, .cfgA, .cfgB, .setOrder, .attn, .tick, .passed, .running, .safe, .frame, .tState, .tWorld, .tSearch, .tTable, .tSolver, .tSel, .tSched, .tOut, .tSpoor, .tQueues, .tCmds, .tDone, .tRings, .engines, .bears, .jays, .fronts, .cores, .slotsPeak, .dram, .links, .cascade, .lynx, .clock, .power, .fault, .boxes, .firmware, .board, .identity, .log, .owl, .cal] s after := by
  refine ⟨_, rfl, ?_⟩
  with_reducible repeat' first
    | exact Touches.refl _ _
    | assumption
    | exact Nat.le_refl _
    | exact id
    | (apply State.writeReg_touches; on_goal 1 => decide)
    | split

end Sys2Proof.Machine
end

