-- ==== Sys2Proof/Laws/State.lean ====
section
/-! SUPPORT. What every update of one part of the state leaves as it was, and what it makes of the part it changes. -/
namespace Sys2Proof.Machine
open Sys2Proof

/-! ### What an update leaves -/

@[simp] theorem State.updTenant_fields (s : State) (i : Fin 16) (f : Tenant → Tenant) :
    (s.updTenant i f).pending = s.pending ∧
    (s.updTenant i f).chip = s.chip ∧
    (s.updTenant i f).now = s.now ∧
    (s.updTenant i f).draws = s.draws ∧
    (s.updTenant i f).doorbells = s.doorbells ∧
    (s.updTenant i f).regs = s.regs ∧
    (s.updTenant i f).shadow = s.shadow ∧
    (s.updTenant i f).dirty = s.dirty ∧
    (s.updTenant i f).cfgA = s.cfgA ∧
    (s.updTenant i f).cfgB = s.cfgB ∧
    (s.updTenant i f).setOrder = s.setOrder ∧
    (s.updTenant i f).attn = s.attn ∧
    (s.updTenant i f).frame = s.frame ∧
    (s.updTenant i f).engines = s.engines ∧
    (s.updTenant i f).bears = s.bears ∧
    (s.updTenant i f).jays = s.jays ∧
    (s.updTenant i f).fronts = s.fronts ∧
    (s.updTenant i f).cores = s.cores ∧
    (s.updTenant i f).slotsPeak = s.slotsPeak ∧
    (s.updTenant i f).dram = s.dram ∧
    (s.updTenant i f).links = s.links ∧
    (s.updTenant i f).cascade = s.cascade ∧
    (s.updTenant i f).lynx = s.lynx ∧
    (s.updTenant i f).clock = s.clock ∧
    (s.updTenant i f).power = s.power ∧
    (s.updTenant i f).fault = s.fault ∧
    (s.updTenant i f).owl = s.owl ∧
    (s.updTenant i f).cal = s.cal ∧
    (s.updTenant i f).jtag = s.jtag :=
  ⟨rfl, rfl, rfl, rfl, rfl, rfl, rfl, rfl, rfl, rfl, rfl, rfl, rfl, rfl, rfl, rfl, rfl, rfl, rfl, rfl, rfl, rfl, rfl, rfl, rfl, rfl, rfl, rfl, rfl⟩

@[simp] theorem State.updTenant_reads (s : State) (i : Fin 16) (f : Tenant → Tenant) :
    (∀ (p o : Nat), (s.updTenant i f).live p o = s.live p o) ∧
    (∀ (p o : Nat), (s.updTenant i f).shadowOf p o = s.shadowOf p o) ∧
    (s.updTenant i f).held = s.held ∧
    (s.updTenant i f).isReady = s.isReady ∧
    (s.updTenant i f).inFault = s.inFault ∧
    (s.updTenant i f).halted = s.halted ∧
    (s.updTenant i f).stopped = s.stopped ∧
    (s.updTenant i f).det = s.det ∧
    (s.updTenant i f).role = s.role ∧
    (s.updTenant i f).period = s.period ∧
    (∀ (k : Nat), (s.updTenant i f).deadlineAt k = s.deadlineAt k) ∧
    (s.updTenant i f).ctrlPort = s.ctrlPort ∧
    (∀ (t : Fin 16), (s.updTenant i f).ownerOf t = s.ownerOf t) ∧
    (∀ (t : Fin 16), (s.updTenant i f).enabled t = s.enabled t) ∧
    (∀ (k : UnitKind) (n : Nat), (s.updTenant i f).usable k n = s.usable k n) ∧
    (∀ (n : Nat), (s.updTenant i f).core n = s.core n) ∧
    (∀ (n : Nat), (s.updTenant i f).link n = s.link n) ∧
    (∀ (n : Nat), (s.updTenant i f).bear n = s.bear n) ∧
    (∀ (n : Nat), (s.updTenant i f).jay n = s.jay n) ∧
    (∀ (x : Port), (s.updTenant i f).cfg x = s.cfg x) ∧
    (∀ (x : Port), (s.updTenant i f).portUp x = s.portUp x) ∧
    (∀ (w : Writer), (s.updTenant i f).isCtl w = s.isCtl w) ∧
    (∀ (c : Channel), (s.updTenant i f).box c = s.box c) ∧
    (s.updTenant i f).pkgId = s.pkgId :=
  ⟨fun _ _ => rfl, fun _ _ => rfl, rfl, rfl, rfl, rfl, rfl, rfl, rfl, rfl, fun _ => rfl, rfl, fun _ => rfl, fun _ => rfl, fun _ _ => rfl, fun _ => rfl, fun _ => rfl, fun _ => rfl, fun _ => rfl, fun _ => rfl, fun _ => rfl, fun _ => rfl, fun _ => rfl, rfl⟩

@[simp] theorem State.updQueue_fields (s : State) (i : Fin 16) (j : Fin 8) (f : Queue → Queue) :
    (s.updQueue i j f).pending = s.pending ∧
    (s.updQueue i j f).chip = s.chip ∧
    (s.updQueue i j f).now = s.now ∧
    (s.updQueue i j f).draws = s.draws ∧
    (s.updQueue i j f).doorbells = s.doorbells ∧
    (s.updQueue i j f).regs = s.regs ∧
    (s.updQueue i j f).shadow = s.shadow ∧
    (s.updQueue i j f).dirty = s.dirty ∧
    (s.updQueue i j f).cfgA = s.cfgA ∧
    (s.updQueue i j f).cfgB = s.cfgB ∧
    (s.updQueue i j f).setOrder = s.setOrder ∧
    (s.updQueue i j f).attn = s.attn ∧
    (s.updQueue i j f).frame = s.frame ∧
    (s.updQueue i j f).engines = s.engines ∧
    (s.updQueue i j f).bears = s.bears ∧
    (s.updQueue i j f).jays = s.jays ∧
    (s.updQueue i j f).fronts = s.fronts ∧
    (s.updQueue i j f).cores = s.cores ∧
    (s.updQueue i j f).slotsPeak = s.slotsPeak ∧
    (s.updQueue i j f).dram = s.dram ∧
    (s.updQueue i j f).links = s.links ∧
    (s.updQueue i j f).cascade = s.cascade ∧
    (s.updQueue i j f).lynx = s.lynx ∧
    (s.updQueue i j f).clock = s.clock ∧
    (s.updQueue i j f).power = s.power ∧
    (s.updQueue i j f).fault = s.fault ∧
    (s.updQueue i j f).owl = s.owl ∧
    (s.updQueue i j f).cal = s.cal ∧
    (s.updQueue i j f).jtag = s.jtag :=
  ⟨rfl, rfl, rfl, rfl, rfl, rfl, rfl, rfl, rfl, rfl, rfl, rfl, rfl, rfl, rfl, rfl, rfl, rfl, rfl, rfl, rfl, rfl, rfl, rfl, rfl, rfl, rfl, rfl, rfl⟩

@[simp] theorem State.updQueue_reads (s : State) (i : Fin 16) (j : Fin 8) (f : Queue → Queue) :
    (∀ (p o : Nat), (s.updQueue i j f).live p o = s.live p o) ∧
    (∀ (p o : Nat), (s.updQueue i j f).shadowOf p o = s.shadowOf p o) ∧
    (s.updQueue i j f).held = s.held ∧
    (s.updQueue i j f).isReady = s.isReady ∧
    (s.updQueue i j f).inFault = s.inFault ∧
    (s.updQueue i j f).halted = s.halted ∧
    (s.updQueue i j f).stopped = s.stopped ∧
    (s.updQueue i j f).det = s.det ∧
    (s.updQueue i j f).role = s.role ∧
    (s.updQueue i j f).period = s.period ∧
    (∀ (k : Nat), (s.updQueue i j f).deadlineAt k = s.deadlineAt k) ∧
    (s.updQueue i j f).ctrlPort = s.ctrlPort ∧
    (∀ (t : Fin 16), (s.updQueue i j f).ownerOf t = s.ownerOf t) ∧
    (∀ (t : Fin 16), (s.updQueue i j f).enabled t = s.enabled t) ∧
    (∀ (k : UnitKind) (n : Nat), (s.updQueue i j f).usable k n = s.usable k n) ∧
    (∀ (n : Nat), (s.updQueue i j f).core n = s.core n) ∧
    (∀ (n : Nat), (s.updQueue i j f).link n = s.link n) ∧
    (∀ (n : Nat), (s.updQueue i j f).bear n = s.bear n) ∧
    (∀ (n : Nat), (s.updQueue i j f).jay n = s.jay n) ∧
    (∀ (x : Port), (s.updQueue i j f).cfg x = s.cfg x) ∧
    (∀ (x : Port), (s.updQueue i j f).portUp x = s.portUp x) ∧
    (∀ (w : Writer), (s.updQueue i j f).isCtl w = s.isCtl w) ∧
    (∀ (c : Channel), (s.updQueue i j f).box c = s.box c) ∧
    (s.updQueue i j f).pkgId = s.pkgId :=
  ⟨fun _ _ => rfl, fun _ _ => rfl, rfl, rfl, rfl, rfl, rfl, rfl, rfl, rfl, fun _ => rfl, rfl, fun _ => rfl, fun _ => rfl, fun _ _ => rfl, fun _ => rfl, fun _ => rfl, fun _ => rfl, fun _ => rfl, fun _ => rfl, fun _ => rfl, fun _ => rfl, fun _ => rfl, rfl⟩

@[simp] theorem State.updWorld_fields (s : State) (i : Fin 16) (f : World → World) :
    (s.updWorld i f).pending = s.pending ∧
    (s.updWorld i f).chip = s.chip ∧
    (s.updWorld i f).now = s.now ∧
    (s.updWorld i f).draws = s.draws ∧
    (s.updWorld i f).doorbells = s.doorbells ∧
    (s.updWorld i f).regs = s.regs ∧
    (s.updWorld i f).shadow = s.shadow ∧
    (s.updWorld i f).dirty = s.dirty ∧
    (s.updWorld i f).cfgA = s.cfgA ∧
    (s.updWorld i f).cfgB = s.cfgB ∧
    (s.updWorld i f).setOrder = s.setOrder ∧
    (s.updWorld i f).attn = s.attn ∧
    (s.updWorld i f).frame = s.frame ∧
    (s.updWorld i f).engines = s.engines ∧
    (s.updWorld i f).bears = s.bears ∧
    (s.updWorld i f).jays = s.jays ∧
    (s.updWorld i f).fronts = s.fronts ∧
    (s.updWorld i f).cores = s.cores ∧
    (s.updWorld i f).slotsPeak = s.slotsPeak ∧
    (s.updWorld i f).dram = s.dram ∧
    (s.updWorld i f).links = s.links ∧
    (s.updWorld i f).cascade = s.cascade ∧
    (s.updWorld i f).lynx = s.lynx ∧
    (s.updWorld i f).clock = s.clock ∧
    (s.updWorld i f).power = s.power ∧
    (s.updWorld i f).fault = s.fault ∧
    (s.updWorld i f).owl = s.owl ∧
    (s.updWorld i f).cal = s.cal ∧
    (s.updWorld i f).jtag = s.jtag :=
  ⟨rfl, rfl, rfl, rfl, rfl, rfl, rfl, rfl, rfl, rfl, rfl, rfl, rfl, rfl, rfl, rfl, rfl, rfl, rfl, rfl, rfl, rfl, rfl, rfl, rfl, rfl, rfl, rfl, rfl⟩

@[simp] theorem State.updWorld_reads (s : State) (i : Fin 16) (f : World → World) :
    (∀ (p o : Nat), (s.updWorld i f).live p o = s.live p o) ∧
    (∀ (p o : Nat), (s.updWorld i f).shadowOf p o = s.shadowOf p o) ∧
    (s.updWorld i f).held = s.held ∧
    (s.updWorld i f).isReady = s.isReady ∧
    (s.updWorld i f).inFault = s.inFault ∧
    (s.updWorld i f).halted = s.halted ∧
    (s.updWorld i f).stopped = s.stopped ∧
    (s.updWorld i f).det = s.det ∧
    (s.updWorld i f).role = s.role ∧
    (s.updWorld i f).period = s.period ∧
    (∀ (k : Nat), (s.updWorld i f).deadlineAt k = s.deadlineAt k) ∧
    (s.updWorld i f).ctrlPort = s.ctrlPort ∧
    (∀ (t : Fin 16), (s.updWorld i f).ownerOf t = s.ownerOf t) ∧
    (∀ (t : Fin 16), (s.updWorld i f).enabled t = s.enabled t) ∧
    (∀ (k : UnitKind) (n : Nat), (s.updWorld i f).usable k n = s.usable k n) ∧
    (∀ (n : Nat), (s.updWorld i f).core n = s.core n) ∧
    (∀ (n : Nat), (s.updWorld i f).link n = s.link n) ∧
    (∀ (n : Nat), (s.updWorld i f).bear n = s.bear n) ∧
    (∀ (n : Nat), (s.updWorld i f).jay n = s.jay n) ∧
    (∀ (x : Port), (s.updWorld i f).cfg x = s.cfg x) ∧
    (∀ (x : Port), (s.updWorld i f).portUp x = s.portUp x) ∧
    (∀ (w : Writer), (s.updWorld i f).isCtl w = s.isCtl w) ∧
    (∀ (c : Channel), (s.updWorld i f).box c = s.box c) ∧
    (s.updWorld i f).pkgId = s.pkgId :=
  ⟨fun _ _ => rfl, fun _ _ => rfl, rfl, rfl, rfl, rfl, rfl, rfl, rfl, rfl, fun _ => rfl, rfl, fun _ => rfl, fun _ => rfl, fun _ _ => rfl, fun _ => rfl, fun _ => rfl, fun _ => rfl, fun _ => rfl, fun _ => rfl, fun _ => rfl, fun _ => rfl, fun _ => rfl, rfl⟩

@[simp] theorem State.updSearch_fields (s : State) (i : Fin 16) (f : Search → Search) :
    (s.updSearch i f).pending = s.pending ∧
    (s.updSearch i f).chip = s.chip ∧
    (s.updSearch i f).now = s.now ∧
    (s.updSearch i f).draws = s.draws ∧
    (s.updSearch i f).doorbells = s.doorbells ∧
    (s.updSearch i f).regs = s.regs ∧
    (s.updSearch i f).shadow = s.shadow ∧
    (s.updSearch i f).dirty = s.dirty ∧
    (s.updSearch i f).cfgA = s.cfgA ∧
    (s.updSearch i f).cfgB = s.cfgB ∧
    (s.updSearch i f).setOrder = s.setOrder ∧
    (s.updSearch i f).attn = s.attn ∧
    (s.updSearch i f).frame = s.frame ∧
    (s.updSearch i f).engines = s.engines ∧
    (s.updSearch i f).bears = s.bears ∧
    (s.updSearch i f).jays = s.jays ∧
    (s.updSearch i f).fronts = s.fronts ∧
    (s.updSearch i f).cores = s.cores ∧
    (s.updSearch i f).slotsPeak = s.slotsPeak ∧
    (s.updSearch i f).dram = s.dram ∧
    (s.updSearch i f).links = s.links ∧
    (s.updSearch i f).cascade = s.cascade ∧
    (s.updSearch i f).lynx = s.lynx ∧
    (s.updSearch i f).clock = s.clock ∧
    (s.updSearch i f).power = s.power ∧
    (s.updSearch i f).fault = s.fault ∧
    (s.updSearch i f).owl = s.owl ∧
    (s.updSearch i f).cal = s.cal ∧
    (s.updSearch i f).jtag = s.jtag :=
  ⟨rfl, rfl, rfl, rfl, rfl, rfl, rfl, rfl, rfl, rfl, rfl, rfl, rfl, rfl, rfl, rfl, rfl, rfl, rfl, rfl, rfl, rfl, rfl, rfl, rfl, rfl, rfl, rfl, rfl⟩

@[simp] theorem State.updSearch_reads (s : State) (i : Fin 16) (f : Search → Search) :
    (∀ (p o : Nat), (s.updSearch i f).live p o = s.live p o) ∧
    (∀ (p o : Nat), (s.updSearch i f).shadowOf p o = s.shadowOf p o) ∧
    (s.updSearch i f).held = s.held ∧
    (s.updSearch i f).isReady = s.isReady ∧
    (s.updSearch i f).inFault = s.inFault ∧
    (s.updSearch i f).halted = s.halted ∧
    (s.updSearch i f).stopped = s.stopped ∧
    (s.updSearch i f).det = s.det ∧
    (s.updSearch i f).role = s.role ∧
    (s.updSearch i f).period = s.period ∧
    (∀ (k : Nat), (s.updSearch i f).deadlineAt k = s.deadlineAt k) ∧
    (s.updSearch i f).ctrlPort = s.ctrlPort ∧
    (∀ (t : Fin 16), (s.updSearch i f).ownerOf t = s.ownerOf t) ∧
    (∀ (t : Fin 16), (s.updSearch i f).enabled t = s.enabled t) ∧
    (∀ (k : UnitKind) (n : Nat), (s.updSearch i f).usable k n = s.usable k n) ∧
    (∀ (n : Nat), (s.updSearch i f).core n = s.core n) ∧
    (∀ (n : Nat), (s.updSearch i f).link n = s.link n) ∧
    (∀ (n : Nat), (s.updSearch i f).bear n = s.bear n) ∧
    (∀ (n : Nat), (s.updSearch i f).jay n = s.jay n) ∧
    (∀ (x : Port), (s.updSearch i f).cfg x = s.cfg x) ∧
    (∀ (x : Port), (s.updSearch i f).portUp x = s.portUp x) ∧
    (∀ (w : Writer), (s.updSearch i f).isCtl w = s.isCtl w) ∧
    (∀ (c : Channel), (s.updSearch i f).box c = s.box c) ∧
    (s.updSearch i f).pkgId = s.pkgId :=
  ⟨fun _ _ => rfl, fun _ _ => rfl, rfl, rfl, rfl, rfl, rfl, rfl, rfl, rfl, fun _ => rfl, rfl, fun _ => rfl, fun _ => rfl, fun _ _ => rfl, fun _ => rfl, fun _ => rfl, fun _ => rfl, fun _ => rfl, fun _ => rfl, fun _ => rfl, fun _ => rfl, fun _ => rfl, rfl⟩

@[simp] theorem State.updTable_fields (s : State) (i : Fin 16) (f : Table → Table) :
    (s.updTable i f).pending = s.pending ∧
    (s.updTable i f).chip = s.chip ∧
    (s.updTable i f).now = s.now ∧
    (s.updTable i f).draws = s.draws ∧
    (s.updTable i f).doorbells = s.doorbells ∧
    (s.updTable i f).regs = s.regs ∧
    (s.updTable i f).shadow = s.shadow ∧
    (s.updTable i f).dirty = s.dirty ∧
    (s.updTable i f).cfgA = s.cfgA ∧
    (s.updTable i f).cfgB = s.cfgB ∧
    (s.updTable i f).setOrder = s.setOrder ∧
    (s.updTable i f).attn = s.attn ∧
    (s.updTable i f).frame = s.frame ∧
    (s.updTable i f).engines = s.engines ∧
    (s.updTable i f).bears = s.bears ∧
    (s.updTable i f).jays = s.jays ∧
    (s.updTable i f).fronts = s.fronts ∧
    (s.updTable i f).cores = s.cores ∧
    (s.updTable i f).slotsPeak = s.slotsPeak ∧
    (s.updTable i f).dram = s.dram ∧
    (s.updTable i f).links = s.links ∧
    (s.updTable i f).cascade = s.cascade ∧
    (s.updTable i f).lynx = s.lynx ∧
    (s.updTable i f).clock = s.clock ∧
    (s.updTable i f).power = s.power ∧
    (s.updTable i f).fault = s.fault ∧
    (s.updTable i f).owl = s.owl ∧
    (s.updTable i f).cal = s.cal ∧
    (s.updTable i f).jtag = s.jtag :=
  ⟨rfl, rfl, rfl, rfl, rfl, rfl, rfl, rfl, rfl, rfl, rfl, rfl, rfl, rfl, rfl, rfl, rfl, rfl, rfl, rfl, rfl, rfl, rfl, rfl, rfl, rfl, rfl, rfl, rfl⟩

@[simp] theorem State.updTable_reads (s : State) (i : Fin 16) (f : Table → Table) :
    (∀ (p o : Nat), (s.updTable i f).live p o = s.live p o) ∧
    (∀ (p o : Nat), (s.updTable i f).shadowOf p o = s.shadowOf p o) ∧
    (s.updTable i f).held = s.held ∧
    (s.updTable i f).isReady = s.isReady ∧
    (s.updTable i f).inFault = s.inFault ∧
    (s.updTable i f).halted = s.halted ∧
    (s.updTable i f).stopped = s.stopped ∧
    (s.updTable i f).det = s.det ∧
    (s.updTable i f).role = s.role ∧
    (s.updTable i f).period = s.period ∧
    (∀ (k : Nat), (s.updTable i f).deadlineAt k = s.deadlineAt k) ∧
    (s.updTable i f).ctrlPort = s.ctrlPort ∧
    (∀ (t : Fin 16), (s.updTable i f).ownerOf t = s.ownerOf t) ∧
    (∀ (t : Fin 16), (s.updTable i f).enabled t = s.enabled t) ∧
    (∀ (k : UnitKind) (n : Nat), (s.updTable i f).usable k n = s.usable k n) ∧
    (∀ (n : Nat), (s.updTable i f).core n = s.core n) ∧
    (∀ (n : Nat), (s.updTable i f).link n = s.link n) ∧
    (∀ (n : Nat), (s.updTable i f).bear n = s.bear n) ∧
    (∀ (n : Nat), (s.updTable i f).jay n = s.jay n) ∧
    (∀ (x : Port), (s.updTable i f).cfg x = s.cfg x) ∧
    (∀ (x : Port), (s.updTable i f).portUp x = s.portUp x) ∧
    (∀ (w : Writer), (s.updTable i f).isCtl w = s.isCtl w) ∧
    (∀ (c : Channel), (s.updTable i f).box c = s.box c) ∧
    (s.updTable i f).pkgId = s.pkgId :=
  ⟨fun _ _ => rfl, fun _ _ => rfl, rfl, rfl, rfl, rfl, rfl, rfl, rfl, rfl, fun _ => rfl, rfl, fun _ => rfl, fun _ => rfl, fun _ _ => rfl, fun _ => rfl, fun _ => rfl, fun _ => rfl, fun _ => rfl, fun _ => rfl, fun _ => rfl, fun _ => rfl, fun _ => rfl, rfl⟩

@[simp] theorem State.updSolver_fields (s : State) (i : Fin 16) (f : Solver → Solver) :
    (s.updSolver i f).pending = s.pending ∧
    (s.updSolver i f).chip = s.chip ∧
    (s.updSolver i f).now = s.now ∧
    (s.updSolver i f).draws = s.draws ∧
    (s.updSolver i f).doorbells = s.doorbells ∧
    (s.updSolver i f).regs = s.regs ∧
    (s.updSolver i f).shadow = s.shadow ∧
    (s.updSolver i f).dirty = s.dirty ∧
    (s.updSolver i f).cfgA = s.cfgA ∧
    (s.updSolver i f).cfgB = s.cfgB ∧
    (s.updSolver i f).setOrder = s.setOrder ∧
    (s.updSolver i f).attn = s.attn ∧
    (s.updSolver i f).frame = s.frame ∧
    (s.updSolver i f).engines = s.engines ∧
    (s.updSolver i f).bears = s.bears ∧
    (s.updSolver i f).jays = s.jays ∧
    (s.updSolver i f).fronts = s.fronts ∧
    (s.updSolver i f).cores = s.cores ∧
    (s.updSolver i f).slotsPeak = s.slotsPeak ∧
    (s.updSolver i f).dram = s.dram ∧
    (s.updSolver i f).links = s.links ∧
    (s.updSolver i f).cascade = s.cascade ∧
    (s.updSolver i f).lynx = s.lynx ∧
    (s.updSolver i f).clock = s.clock ∧
    (s.updSolver i f).power = s.power ∧
    (s.updSolver i f).fault = s.fault ∧
    (s.updSolver i f).owl = s.owl ∧
    (s.updSolver i f).cal = s.cal ∧
    (s.updSolver i f).jtag = s.jtag :=
  ⟨rfl, rfl, rfl, rfl, rfl, rfl, rfl, rfl, rfl, rfl, rfl, rfl, rfl, rfl, rfl, rfl, rfl, rfl, rfl, rfl, rfl, rfl, rfl, rfl, rfl, rfl, rfl, rfl, rfl⟩

@[simp] theorem State.updSolver_reads (s : State) (i : Fin 16) (f : Solver → Solver) :
    (∀ (p o : Nat), (s.updSolver i f).live p o = s.live p o) ∧
    (∀ (p o : Nat), (s.updSolver i f).shadowOf p o = s.shadowOf p o) ∧
    (s.updSolver i f).held = s.held ∧
    (s.updSolver i f).isReady = s.isReady ∧
    (s.updSolver i f).inFault = s.inFault ∧
    (s.updSolver i f).halted = s.halted ∧
    (s.updSolver i f).stopped = s.stopped ∧
    (s.updSolver i f).det = s.det ∧
    (s.updSolver i f).role = s.role ∧
    (s.updSolver i f).period = s.period ∧
    (∀ (k : Nat), (s.updSolver i f).deadlineAt k = s.deadlineAt k) ∧
    (s.updSolver i f).ctrlPort = s.ctrlPort ∧
    (∀ (t : Fin 16), (s.updSolver i f).ownerOf t = s.ownerOf t) ∧
    (∀ (t : Fin 16), (s.updSolver i f).enabled t = s.enabled t) ∧
    (∀ (k : UnitKind) (n : Nat), (s.updSolver i f).usable k n = s.usable k n) ∧
    (∀ (n : Nat), (s.updSolver i f).core n = s.core n) ∧
    (∀ (n : Nat), (s.updSolver i f).link n = s.link n) ∧
    (∀ (n : Nat), (s.updSolver i f).bear n = s.bear n) ∧
    (∀ (n : Nat), (s.updSolver i f).jay n = s.jay n) ∧
    (∀ (x : Port), (s.updSolver i f).cfg x = s.cfg x) ∧
    (∀ (x : Port), (s.updSolver i f).portUp x = s.portUp x) ∧
    (∀ (w : Writer), (s.updSolver i f).isCtl w = s.isCtl w) ∧
    (∀ (c : Channel), (s.updSolver i f).box c = s.box c) ∧
    (s.updSolver i f).pkgId = s.pkgId :=
  ⟨fun _ _ => rfl, fun _ _ => rfl, rfl, rfl, rfl, rfl, rfl, rfl, rfl, rfl, fun _ => rfl, rfl, fun _ => rfl, fun _ => rfl, fun _ _ => rfl, fun _ => rfl, fun _ => rfl, fun _ => rfl, fun _ => rfl, fun _ => rfl, fun _ => rfl, fun _ => rfl, fun _ => rfl, rfl⟩

@[simp] theorem State.updSel_fields (s : State) (i : Fin 16) (f : Selection → Selection) :
    (s.updSel i f).pending = s.pending ∧
    (s.updSel i f).chip = s.chip ∧
    (s.updSel i f).now = s.now ∧
    (s.updSel i f).draws = s.draws ∧
    (s.updSel i f).doorbells = s.doorbells ∧
    (s.updSel i f).regs = s.regs ∧
    (s.updSel i f).shadow = s.shadow ∧
    (s.updSel i f).dirty = s.dirty ∧
    (s.updSel i f).cfgA = s.cfgA ∧
    (s.updSel i f).cfgB = s.cfgB ∧
    (s.updSel i f).setOrder = s.setOrder ∧
    (s.updSel i f).attn = s.attn ∧
    (s.updSel i f).frame = s.frame ∧
    (s.updSel i f).engines = s.engines ∧
    (s.updSel i f).bears = s.bears ∧
    (s.updSel i f).jays = s.jays ∧
    (s.updSel i f).fronts = s.fronts ∧
    (s.updSel i f).cores = s.cores ∧
    (s.updSel i f).slotsPeak = s.slotsPeak ∧
    (s.updSel i f).dram = s.dram ∧
    (s.updSel i f).links = s.links ∧
    (s.updSel i f).cascade = s.cascade ∧
    (s.updSel i f).lynx = s.lynx ∧
    (s.updSel i f).clock = s.clock ∧
    (s.updSel i f).power = s.power ∧
    (s.updSel i f).fault = s.fault ∧
    (s.updSel i f).owl = s.owl ∧
    (s.updSel i f).cal = s.cal ∧
    (s.updSel i f).jtag = s.jtag :=
  ⟨rfl, rfl, rfl, rfl, rfl, rfl, rfl, rfl, rfl, rfl, rfl, rfl, rfl, rfl, rfl, rfl, rfl, rfl, rfl, rfl, rfl, rfl, rfl, rfl, rfl, rfl, rfl, rfl, rfl⟩

@[simp] theorem State.updSel_reads (s : State) (i : Fin 16) (f : Selection → Selection) :
    (∀ (p o : Nat), (s.updSel i f).live p o = s.live p o) ∧
    (∀ (p o : Nat), (s.updSel i f).shadowOf p o = s.shadowOf p o) ∧
    (s.updSel i f).held = s.held ∧
    (s.updSel i f).isReady = s.isReady ∧
    (s.updSel i f).inFault = s.inFault ∧
    (s.updSel i f).halted = s.halted ∧
    (s.updSel i f).stopped = s.stopped ∧
    (s.updSel i f).det = s.det ∧
    (s.updSel i f).role = s.role ∧
    (s.updSel i f).period = s.period ∧
    (∀ (k : Nat), (s.updSel i f).deadlineAt k = s.deadlineAt k) ∧
    (s.updSel i f).ctrlPort = s.ctrlPort ∧
    (∀ (t : Fin 16), (s.updSel i f).ownerOf t = s.ownerOf t) ∧
    (∀ (t : Fin 16), (s.updSel i f).enabled t = s.enabled t) ∧
    (∀ (k : UnitKind) (n : Nat), (s.updSel i f).usable k n = s.usable k n) ∧
    (∀ (n : Nat), (s.updSel i f).core n = s.core n) ∧
    (∀ (n : Nat), (s.updSel i f).link n = s.link n) ∧
    (∀ (n : Nat), (s.updSel i f).bear n = s.bear n) ∧
    (∀ (n : Nat), (s.updSel i f).jay n = s.jay n) ∧
    (∀ (x : Port), (s.updSel i f).cfg x = s.cfg x) ∧
    (∀ (x : Port), (s.updSel i f).portUp x = s.portUp x) ∧
    (∀ (w : Writer), (s.updSel i f).isCtl w = s.isCtl w) ∧
    (∀ (c : Channel), (s.updSel i f).box c = s.box c) ∧
    (s.updSel i f).pkgId = s.pkgId :=
  ⟨fun _ _ => rfl, fun _ _ => rfl, rfl, rfl, rfl, rfl, rfl, rfl, rfl, rfl, fun _ => rfl, rfl, fun _ => rfl, fun _ => rfl, fun _ _ => rfl, fun _ => rfl, fun _ => rfl, fun _ => rfl, fun _ => rfl, fun _ => rfl, fun _ => rfl, fun _ => rfl, fun _ => rfl, rfl⟩

@[simp] theorem State.updSched_fields (s : State) (i : Fin 16) (f : Sched → Sched) :
    (s.updSched i f).pending = s.pending ∧
    (s.updSched i f).chip = s.chip ∧
    (s.updSched i f).now = s.now ∧
    (s.updSched i f).draws = s.draws ∧
    (s.updSched i f).doorbells = s.doorbells ∧
    (s.updSched i f).regs = s.regs ∧
    (s.updSched i f).shadow = s.shadow ∧
    (s.updSched i f).dirty = s.dirty ∧
    (s.updSched i f).cfgA = s.cfgA ∧
    (s.updSched i f).cfgB = s.cfgB ∧
    (s.updSched i f).setOrder = s.setOrder ∧
    (s.updSched i f).attn = s.attn ∧
    (s.updSched i f).frame = s.frame ∧
    (s.updSched i f).engines = s.engines ∧
    (s.updSched i f).bears = s.bears ∧
    (s.updSched i f).jays = s.jays ∧
    (s.updSched i f).fronts = s.fronts ∧
    (s.updSched i f).cores = s.cores ∧
    (s.updSched i f).slotsPeak = s.slotsPeak ∧
    (s.updSched i f).dram = s.dram ∧
    (s.updSched i f).links = s.links ∧
    (s.updSched i f).cascade = s.cascade ∧
    (s.updSched i f).lynx = s.lynx ∧
    (s.updSched i f).clock = s.clock ∧
    (s.updSched i f).power = s.power ∧
    (s.updSched i f).fault = s.fault ∧
    (s.updSched i f).owl = s.owl ∧
    (s.updSched i f).cal = s.cal ∧
    (s.updSched i f).jtag = s.jtag :=
  ⟨rfl, rfl, rfl, rfl, rfl, rfl, rfl, rfl, rfl, rfl, rfl, rfl, rfl, rfl, rfl, rfl, rfl, rfl, rfl, rfl, rfl, rfl, rfl, rfl, rfl, rfl, rfl, rfl, rfl⟩

@[simp] theorem State.updSched_reads (s : State) (i : Fin 16) (f : Sched → Sched) :
    (∀ (p o : Nat), (s.updSched i f).live p o = s.live p o) ∧
    (∀ (p o : Nat), (s.updSched i f).shadowOf p o = s.shadowOf p o) ∧
    (s.updSched i f).held = s.held ∧
    (s.updSched i f).isReady = s.isReady ∧
    (s.updSched i f).inFault = s.inFault ∧
    (s.updSched i f).halted = s.halted ∧
    (s.updSched i f).stopped = s.stopped ∧
    (s.updSched i f).det = s.det ∧
    (s.updSched i f).role = s.role ∧
    (s.updSched i f).period = s.period ∧
    (∀ (k : Nat), (s.updSched i f).deadlineAt k = s.deadlineAt k) ∧
    (s.updSched i f).ctrlPort = s.ctrlPort ∧
    (∀ (t : Fin 16), (s.updSched i f).ownerOf t = s.ownerOf t) ∧
    (∀ (t : Fin 16), (s.updSched i f).enabled t = s.enabled t) ∧
    (∀ (k : UnitKind) (n : Nat), (s.updSched i f).usable k n = s.usable k n) ∧
    (∀ (n : Nat), (s.updSched i f).core n = s.core n) ∧
    (∀ (n : Nat), (s.updSched i f).link n = s.link n) ∧
    (∀ (n : Nat), (s.updSched i f).bear n = s.bear n) ∧
    (∀ (n : Nat), (s.updSched i f).jay n = s.jay n) ∧
    (∀ (x : Port), (s.updSched i f).cfg x = s.cfg x) ∧
    (∀ (x : Port), (s.updSched i f).portUp x = s.portUp x) ∧
    (∀ (w : Writer), (s.updSched i f).isCtl w = s.isCtl w) ∧
    (∀ (c : Channel), (s.updSched i f).box c = s.box c) ∧
    (s.updSched i f).pkgId = s.pkgId :=
  ⟨fun _ _ => rfl, fun _ _ => rfl, rfl, rfl, rfl, rfl, rfl, rfl, rfl, rfl, fun _ => rfl, rfl, fun _ => rfl, fun _ => rfl, fun _ _ => rfl, fun _ => rfl, fun _ => rfl, fun _ => rfl, fun _ => rfl, fun _ => rfl, fun _ => rfl, fun _ => rfl, fun _ => rfl, rfl⟩

@[simp] theorem State.updOut_fields (s : State) (i : Fin 16) (f : Outcome → Outcome) :
    (s.updOut i f).pending = s.pending ∧
    (s.updOut i f).chip = s.chip ∧
    (s.updOut i f).now = s.now ∧
    (s.updOut i f).draws = s.draws ∧
    (s.updOut i f).doorbells = s.doorbells ∧
    (s.updOut i f).regs = s.regs ∧
    (s.updOut i f).shadow = s.shadow ∧
    (s.updOut i f).dirty = s.dirty ∧
    (s.updOut i f).cfgA = s.cfgA ∧
    (s.updOut i f).cfgB = s.cfgB ∧
    (s.updOut i f).setOrder = s.setOrder ∧
    (s.updOut i f).attn = s.attn ∧
    (s.updOut i f).frame = s.frame ∧
    (s.updOut i f).engines = s.engines ∧
    (s.updOut i f).bears = s.bears ∧
    (s.updOut i f).jays = s.jays ∧
    (s.updOut i f).fronts = s.fronts ∧
    (s.updOut i f).cores = s.cores ∧
    (s.updOut i f).slotsPeak = s.slotsPeak ∧
    (s.updOut i f).dram = s.dram ∧
    (s.updOut i f).links = s.links ∧
    (s.updOut i f).cascade = s.cascade ∧
    (s.updOut i f).lynx = s.lynx ∧
    (s.updOut i f).clock = s.clock ∧
    (s.updOut i f).power = s.power ∧
    (s.updOut i f).fault = s.fault ∧
    (s.updOut i f).owl = s.owl ∧
    (s.updOut i f).cal = s.cal ∧
    (s.updOut i f).jtag = s.jtag :=
  ⟨rfl, rfl, rfl, rfl, rfl, rfl, rfl, rfl, rfl, rfl, rfl, rfl, rfl, rfl, rfl, rfl, rfl, rfl, rfl, rfl, rfl, rfl, rfl, rfl, rfl, rfl, rfl, rfl, rfl⟩

@[simp] theorem State.updOut_reads (s : State) (i : Fin 16) (f : Outcome → Outcome) :
    (∀ (p o : Nat), (s.updOut i f).live p o = s.live p o) ∧
    (∀ (p o : Nat), (s.updOut i f).shadowOf p o = s.shadowOf p o) ∧
    (s.updOut i f).held = s.held ∧
    (s.updOut i f).isReady = s.isReady ∧
    (s.updOut i f).inFault = s.inFault ∧
    (s.updOut i f).halted = s.halted ∧
    (s.updOut i f).stopped = s.stopped ∧
    (s.updOut i f).det = s.det ∧
    (s.updOut i f).role = s.role ∧
    (s.updOut i f).period = s.period ∧
    (∀ (k : Nat), (s.updOut i f).deadlineAt k = s.deadlineAt k) ∧
    (s.updOut i f).ctrlPort = s.ctrlPort ∧
    (∀ (t : Fin 16), (s.updOut i f).ownerOf t = s.ownerOf t) ∧
    (∀ (t : Fin 16), (s.updOut i f).enabled t = s.enabled t) ∧
    (∀ (k : UnitKind) (n : Nat), (s.updOut i f).usable k n = s.usable k n) ∧
    (∀ (n : Nat), (s.updOut i f).core n = s.core n) ∧
    (∀ (n : Nat), (s.updOut i f).link n = s.link n) ∧
    (∀ (n : Nat), (s.updOut i f).bear n = s.bear n) ∧
    (∀ (n : Nat), (s.updOut i f).jay n = s.jay n) ∧
    (∀ (x : Port), (s.updOut i f).cfg x = s.cfg x) ∧
    (∀ (x : Port), (s.updOut i f).portUp x = s.portUp x) ∧
    (∀ (w : Writer), (s.updOut i f).isCtl w = s.isCtl w) ∧
    (∀ (c : Channel), (s.updOut i f).box c = s.box c) ∧
    (s.updOut i f).pkgId = s.pkgId :=
  ⟨fun _ _ => rfl, fun _ _ => rfl, rfl, rfl, rfl, rfl, rfl, rfl, rfl, rfl, fun _ => rfl, rfl, fun _ => rfl, fun _ => rfl, fun _ _ => rfl, fun _ => rfl, fun _ => rfl, fun _ => rfl, fun _ => rfl, fun _ => rfl, fun _ => rfl, fun _ => rfl, fun _ => rfl, rfl⟩

@[simp] theorem State.updSpoor_fields (s : State) (i : Fin 16) (f : Spoor → Spoor) :
    (s.updSpoor i f).pending = s.pending ∧
    (s.updSpoor i f).chip = s.chip ∧
    (s.updSpoor i f).now = s.now ∧
    (s.updSpoor i f).draws = s.draws ∧
    (s.updSpoor i f).doorbells = s.doorbells ∧
    (s.updSpoor i f).regs = s.regs ∧
    (s.updSpoor i f).shadow = s.shadow ∧
    (s.updSpoor i f).dirty = s.dirty ∧
    (s.updSpoor i f).cfgA = s.cfgA ∧
    (s.updSpoor i f).cfgB = s.cfgB ∧
    (s.updSpoor i f).setOrder = s.setOrder ∧
    (s.updSpoor i f).attn = s.attn ∧
    (s.updSpoor i f).frame = s.frame ∧
    (s.updSpoor i f).engines = s.engines ∧
    (s.updSpoor i f).bears = s.bears ∧
    (s.updSpoor i f).jays = s.jays ∧
    (s.updSpoor i f).fronts = s.fronts ∧
    (s.updSpoor i f).cores = s.cores ∧
    (s.updSpoor i f).slotsPeak = s.slotsPeak ∧
    (s.updSpoor i f).dram = s.dram ∧
    (s.updSpoor i f).links = s.links ∧
    (s.updSpoor i f).cascade = s.cascade ∧
    (s.updSpoor i f).lynx = s.lynx ∧
    (s.updSpoor i f).clock = s.clock ∧
    (s.updSpoor i f).power = s.power ∧
    (s.updSpoor i f).fault = s.fault ∧
    (s.updSpoor i f).owl = s.owl ∧
    (s.updSpoor i f).cal = s.cal ∧
    (s.updSpoor i f).jtag = s.jtag :=
  ⟨rfl, rfl, rfl, rfl, rfl, rfl, rfl, rfl, rfl, rfl, rfl, rfl, rfl, rfl, rfl, rfl, rfl, rfl, rfl, rfl, rfl, rfl, rfl, rfl, rfl, rfl, rfl, rfl, rfl⟩

@[simp] theorem State.updSpoor_reads (s : State) (i : Fin 16) (f : Spoor → Spoor) :
    (∀ (p o : Nat), (s.updSpoor i f).live p o = s.live p o) ∧
    (∀ (p o : Nat), (s.updSpoor i f).shadowOf p o = s.shadowOf p o) ∧
    (s.updSpoor i f).held = s.held ∧
    (s.updSpoor i f).isReady = s.isReady ∧
    (s.updSpoor i f).inFault = s.inFault ∧
    (s.updSpoor i f).halted = s.halted ∧
    (s.updSpoor i f).stopped = s.stopped ∧
    (s.updSpoor i f).det = s.det ∧
    (s.updSpoor i f).role = s.role ∧
    (s.updSpoor i f).period = s.period ∧
    (∀ (k : Nat), (s.updSpoor i f).deadlineAt k = s.deadlineAt k) ∧
    (s.updSpoor i f).ctrlPort = s.ctrlPort ∧
    (∀ (t : Fin 16), (s.updSpoor i f).ownerOf t = s.ownerOf t) ∧
    (∀ (t : Fin 16), (s.updSpoor i f).enabled t = s.enabled t) ∧
    (∀ (k : UnitKind) (n : Nat), (s.updSpoor i f).usable k n = s.usable k n) ∧
    (∀ (n : Nat), (s.updSpoor i f).core n = s.core n) ∧
    (∀ (n : Nat), (s.updSpoor i f).link n = s.link n) ∧
    (∀ (n : Nat), (s.updSpoor i f).bear n = s.bear n) ∧
    (∀ (n : Nat), (s.updSpoor i f).jay n = s.jay n) ∧
    (∀ (x : Port), (s.updSpoor i f).cfg x = s.cfg x) ∧
    (∀ (x : Port), (s.updSpoor i f).portUp x = s.portUp x) ∧
    (∀ (w : Writer), (s.updSpoor i f).isCtl w = s.isCtl w) ∧
    (∀ (c : Channel), (s.updSpoor i f).box c = s.box c) ∧
    (s.updSpoor i f).pkgId = s.pkgId :=
  ⟨fun _ _ => rfl, fun _ _ => rfl, rfl, rfl, rfl, rfl, rfl, rfl, rfl, rfl, fun _ => rfl, rfl, fun _ => rfl, fun _ => rfl, fun _ _ => rfl, fun _ => rfl, fun _ => rfl, fun _ => rfl, fun _ => rfl, fun _ => rfl, fun _ => rfl, fun _ => rfl, fun _ => rfl, rfl⟩

@[simp] theorem State.updCore_fields (s : State) (i : Nat) (f : Core → Core) :
    (s.updCore i f).pending = s.pending ∧
    (s.updCore i f).chip = s.chip ∧
    (s.updCore i f).now = s.now ∧
    (s.updCore i f).draws = s.draws ∧
    (s.updCore i f).doorbells = s.doorbells ∧
    (s.updCore i f).regs = s.regs ∧
    (s.updCore i f).shadow = s.shadow ∧
    (s.updCore i f).dirty = s.dirty ∧
    (s.updCore i f).cfgA = s.cfgA ∧
    (s.updCore i f).cfgB = s.cfgB ∧
    (s.updCore i f).setOrder = s.setOrder ∧
    (s.updCore i f).attn = s.attn ∧
    (s.updCore i f).frame = s.frame ∧
    (s.updCore i f).tenants = s.tenants ∧
    (s.updCore i f).engines = s.engines ∧
    (s.updCore i f).bears = s.bears ∧
    (s.updCore i f).jays = s.jays ∧
    (s.updCore i f).fronts = s.fronts ∧
    (s.updCore i f).slotsPeak = s.slotsPeak ∧
    (s.updCore i f).dram = s.dram ∧
    (s.updCore i f).links = s.links ∧
    (s.updCore i f).cascade = s.cascade ∧
    (s.updCore i f).lynx = s.lynx ∧
    (s.updCore i f).clock = s.clock ∧
    (s.updCore i f).power = s.power ∧
    (s.updCore i f).fault = s.fault ∧
    (s.updCore i f).owl = s.owl ∧
    (s.updCore i f).cal = s.cal ∧
    (s.updCore i f).jtag = s.jtag :=
  ⟨rfl, rfl, rfl, rfl, rfl, rfl, rfl, rfl, rfl, rfl, rfl, rfl, rfl, rfl, rfl, rfl, rfl, rfl, rfl, rfl, rfl, rfl, rfl, rfl, rfl, rfl, rfl, rfl, rfl⟩

@[simp] theorem State.updCore_reads (s : State) (i : Nat) (f : Core → Core) :
    (∀ (t : Fin 16), (s.updCore i f).tenant t = s.tenant t) ∧
    (∀ (t : Fin 16) (q : Fin 8), (s.updCore i f).queue t q = s.queue t q) ∧
    (∀ (p o : Nat), (s.updCore i f).live p o = s.live p o) ∧
    (∀ (p o : Nat), (s.updCore i f).shadowOf p o = s.shadowOf p o) ∧
    (s.updCore i f).held = s.held ∧
    (s.updCore i f).isReady = s.isReady ∧
    (s.updCore i f).inFault = s.inFault ∧
    (s.updCore i f).halted = s.halted ∧
    (s.updCore i f).stopped = s.stopped ∧
    (s.updCore i f).det = s.det ∧
    (s.updCore i f).role = s.role ∧
    (s.updCore i f).period = s.period ∧
    (∀ (k : Nat), (s.updCore i f).deadlineAt k = s.deadlineAt k) ∧
    (s.updCore i f).ctrlPort = s.ctrlPort ∧
    (∀ (t : Fin 16), (s.updCore i f).ownerOf t = s.ownerOf t) ∧
    (∀ (t : Fin 16), (s.updCore i f).enabled t = s.enabled t) ∧
    (∀ (n : Nat), (s.updCore i f).link n = s.link n) ∧
    (∀ (n : Nat), (s.updCore i f).bear n = s.bear n) ∧
    (∀ (n : Nat), (s.updCore i f).jay n = s.jay n) ∧
    (∀ (x : Port), (s.updCore i f).cfg x = s.cfg x) ∧
    (∀ (x : Port), (s.updCore i f).portUp x = s.portUp x) ∧
    (∀ (w : Writer), (s.updCore i f).isCtl w = s.isCtl w) ∧
    (∀ (c : Channel), (s.updCore i f).box c = s.box c) ∧
    (s.updCore i f).pkgId = s.pkgId :=
  ⟨fun _ => rfl, fun _ _ => rfl, fun _ _ => rfl, fun _ _ => rfl, rfl, rfl, rfl, rfl, rfl, rfl, rfl, rfl, fun _ => rfl, rfl, fun _ => rfl, fun _ => rfl, fun _ => rfl, fun _ => rfl, fun _ => rfl, fun _ => rfl, fun _ => rfl, fun _ => rfl, fun _ => rfl, rfl⟩

@[simp] theorem State.updEngine_fields (s : State) (i : Nat) (f : Engine → Engine) :
    (s.updEngine i f).pending = s.pending ∧
    (s.updEngine i f).chip = s.chip ∧
    (s.updEngine i f).now = s.now ∧
    (s.updEngine i f).draws = s.draws ∧
    (s.updEngine i f).doorbells = s.doorbells ∧
    (s.updEngine i f).regs = s.regs ∧
    (s.updEngine i f).shadow = s.shadow ∧
    (s.updEngine i f).dirty = s.dirty ∧
    (s.updEngine i f).cfgA = s.cfgA ∧
    (s.updEngine i f).cfgB = s.cfgB ∧
    (s.updEngine i f).setOrder = s.setOrder ∧
    (s.updEngine i f).attn = s.attn ∧
    (s.updEngine i f).frame = s.frame ∧
    (s.updEngine i f).tenants = s.tenants ∧
    (s.updEngine i f).bears = s.bears ∧
    (s.updEngine i f).jays = s.jays ∧
    (s.updEngine i f).fronts = s.fronts ∧
    (s.updEngine i f).cores = s.cores ∧
    (s.updEngine i f).slotsPeak = s.slotsPeak ∧
    (s.updEngine i f).dram = s.dram ∧
    (s.updEngine i f).links = s.links ∧
    (s.updEngine i f).cascade = s.cascade ∧
    (s.updEngine i f).lynx = s.lynx ∧
    (s.updEngine i f).clock = s.clock ∧
    (s.updEngine i f).power = s.power ∧
    (s.updEngine i f).fault = s.fault ∧
    (s.updEngine i f).owl = s.owl ∧
    (s.updEngine i f).cal = s.cal ∧
    (s.updEngine i f).jtag = s.jtag :=
  ⟨rfl, rfl, rfl, rfl, rfl, rfl, rfl, rfl, rfl, rfl, rfl, rfl, rfl, rfl, rfl, rfl, rfl, rfl, rfl, rfl, rfl, rfl, rfl, rfl, rfl, rfl, rfl, rfl, rfl⟩

@[simp] theorem State.updEngine_reads (s : State) (i : Nat) (f : Engine → Engine) :
    (∀ (t : Fin 16), (s.updEngine i f).tenant t = s.tenant t) ∧
    (∀ (t : Fin 16) (q : Fin 8), (s.updEngine i f).queue t q = s.queue t q) ∧
    (∀ (p o : Nat), (s.updEngine i f).live p o = s.live p o) ∧
    (∀ (p o : Nat), (s.updEngine i f).shadowOf p o = s.shadowOf p o) ∧
    (s.updEngine i f).held = s.held ∧
    (s.updEngine i f).isReady = s.isReady ∧
    (s.updEngine i f).inFault = s.inFault ∧
    (s.updEngine i f).halted = s.halted ∧
    (s.updEngine i f).stopped = s.stopped ∧
    (s.updEngine i f).det = s.det ∧
    (s.updEngine i f).role = s.role ∧
    (s.updEngine i f).period = s.period ∧
    (∀ (k : Nat), (s.updEngine i f).deadlineAt k = s.deadlineAt k) ∧
    (s.updEngine i f).ctrlPort = s.ctrlPort ∧
    (∀ (t : Fin 16), (s.updEngine i f).ownerOf t = s.ownerOf t) ∧
    (∀ (t : Fin 16), (s.updEngine i f).enabled t = s.enabled t) ∧
    (∀ (n : Nat), (s.updEngine i f).core n = s.core n) ∧
    (∀ (n : Nat), (s.updEngine i f).link n = s.link n) ∧
    (∀ (n : Nat), (s.updEngine i f).bear n = s.bear n) ∧
    (∀ (n : Nat), (s.updEngine i f).jay n = s.jay n) ∧
    (∀ (x : Port), (s.updEngine i f).cfg x = s.cfg x) ∧
    (∀ (x : Port), (s.updEngine i f).portUp x = s.portUp x) ∧
    (∀ (w : Writer), (s.updEngine i f).isCtl w = s.isCtl w) ∧
    (∀ (c : Channel), (s.updEngine i f).box c = s.box c) ∧
    (s.updEngine i f).pkgId = s.pkgId :=
  ⟨fun _ => rfl, fun _ _ => rfl, fun _ _ => rfl, fun _ _ => rfl, rfl, rfl, rfl, rfl, rfl, rfl, rfl, rfl, fun _ => rfl, rfl, fun _ => rfl, fun _ => rfl, fun _ => rfl, fun _ => rfl, fun _ => rfl, fun _ => rfl, fun _ => rfl, fun _ => rfl, fun _ => rfl, fun _ => rfl, rfl⟩

@[simp] theorem State.updBear_fields (s : State) (i : Nat) (f : BearUnit → BearUnit) :
    (s.updBear i f).pending = s.pending ∧
    (s.updBear i f).chip = s.chip ∧
    (s.updBear i f).now = s.now ∧
    (s.updBear i f).draws = s.draws ∧
    (s.updBear i f).doorbells = s.doorbells ∧
    (s.updBear i f).regs = s.regs ∧
    (s.updBear i f).shadow = s.shadow ∧
    (s.updBear i f).dirty = s.dirty ∧
    (s.updBear i f).cfgA = s.cfgA ∧
    (s.updBear i f).cfgB = s.cfgB ∧
    (s.updBear i f).setOrder = s.setOrder ∧
    (s.updBear i f).attn = s.attn ∧
    (s.updBear i f).frame = s.frame ∧
    (s.updBear i f).tenants = s.tenants ∧
    (s.updBear i f).engines = s.engines ∧
    (s.updBear i f).jays = s.jays ∧
    (s.updBear i f).fronts = s.fronts ∧
    (s.updBear i f).cores = s.cores ∧
    (s.updBear i f).slotsPeak = s.slotsPeak ∧
    (s.updBear i f).dram = s.dram ∧
    (s.updBear i f).links = s.links ∧
    (s.updBear i f).cascade = s.cascade ∧
    (s.updBear i f).lynx = s.lynx ∧
    (s.updBear i f).clock = s.clock ∧
    (s.updBear i f).power = s.power ∧
    (s.updBear i f).fault = s.fault ∧
    (s.updBear i f).owl = s.owl ∧
    (s.updBear i f).cal = s.cal ∧
    (s.updBear i f).jtag = s.jtag :=
  ⟨rfl, rfl, rfl, rfl, rfl, rfl, rfl, rfl, rfl, rfl, rfl, rfl, rfl, rfl, rfl, rfl, rfl, rfl, rfl, rfl, rfl, rfl, rfl, rfl, rfl, rfl, rfl, rfl, rfl⟩

@[simp] theorem State.updBear_reads (s : State) (i : Nat) (f : BearUnit → BearUnit) :
    (∀ (t : Fin 16), (s.updBear i f).tenant t = s.tenant t) ∧
    (∀ (t : Fin 16) (q : Fin 8), (s.updBear i f).queue t q = s.queue t q) ∧
    (∀ (p o : Nat), (s.updBear i f).live p o = s.live p o) ∧
    (∀ (p o : Nat), (s.updBear i f).shadowOf p o = s.shadowOf p o) ∧
    (s.updBear i f).held = s.held ∧
    (s.updBear i f).isReady = s.isReady ∧
    (s.updBear i f).inFault = s.inFault ∧
    (s.updBear i f).halted = s.halted ∧
    (s.updBear i f).stopped = s.stopped ∧
    (s.updBear i f).det = s.det ∧
    (s.updBear i f).role = s.role ∧
    (s.updBear i f).period = s.period ∧
    (∀ (k : Nat), (s.updBear i f).deadlineAt k = s.deadlineAt k) ∧
    (s.updBear i f).ctrlPort = s.ctrlPort ∧
    (∀ (t : Fin 16), (s.updBear i f).ownerOf t = s.ownerOf t) ∧
    (∀ (t : Fin 16), (s.updBear i f).enabled t = s.enabled t) ∧
    (∀ (n : Nat), (s.updBear i f).core n = s.core n) ∧
    (∀ (n : Nat), (s.updBear i f).link n = s.link n) ∧
    (∀ (n : Nat), (s.updBear i f).jay n = s.jay n) ∧
    (∀ (x : Port), (s.updBear i f).cfg x = s.cfg x) ∧
    (∀ (x : Port), (s.updBear i f).portUp x = s.portUp x) ∧
    (∀ (w : Writer), (s.updBear i f).isCtl w = s.isCtl w) ∧
    (∀ (c : Channel), (s.updBear i f).box c = s.box c) ∧
    (s.updBear i f).pkgId = s.pkgId :=
  ⟨fun _ => rfl, fun _ _ => rfl, fun _ _ => rfl, fun _ _ => rfl, rfl, rfl, rfl, rfl, rfl, rfl, rfl, rfl, fun _ => rfl, rfl, fun _ => rfl, fun _ => rfl, fun _ => rfl, fun _ => rfl, fun _ => rfl, fun _ => rfl, fun _ => rfl, fun _ => rfl, fun _ => rfl, rfl⟩

@[simp] theorem State.updJay_fields (s : State) (i : Nat) (f : JayUnit → JayUnit) :
    (s.updJay i f).pending = s.pending ∧
    (s.updJay i f).chip = s.chip ∧
    (s.updJay i f).now = s.now ∧
    (s.updJay i f).draws = s.draws ∧
    (s.updJay i f).doorbells = s.doorbells ∧
    (s.updJay i f).regs = s.regs ∧
    (s.updJay i f).shadow = s.shadow ∧
    (s.updJay i f).dirty = s.dirty ∧
    (s.updJay i f).cfgA = s.cfgA ∧
    (s.updJay i f).cfgB = s.cfgB ∧
    (s.updJay i f).setOrder = s.setOrder ∧
    (s.updJay i f).attn = s.attn ∧
    (s.updJay i f).frame = s.frame ∧
    (s.updJay i f).tenants = s.tenants ∧
    (s.updJay i f).engines = s.engines ∧
    (s.updJay i f).bears = s.bears ∧
    (s.updJay i f).fronts = s.fronts ∧
    (s.updJay i f).cores = s.cores ∧
    (s.updJay i f).slotsPeak = s.slotsPeak ∧
    (s.updJay i f).dram = s.dram ∧
    (s.updJay i f).links = s.links ∧
    (s.updJay i f).cascade = s.cascade ∧
    (s.updJay i f).lynx = s.lynx ∧
    (s.updJay i f).clock = s.clock ∧
    (s.updJay i f).power = s.power ∧
    (s.updJay i f).fault = s.fault ∧
    (s.updJay i f).owl = s.owl ∧
    (s.updJay i f).cal = s.cal ∧
    (s.updJay i f).jtag = s.jtag :=
  ⟨rfl, rfl, rfl, rfl, rfl, rfl, rfl, rfl, rfl, rfl, rfl, rfl, rfl, rfl, rfl, rfl, rfl, rfl, rfl, rfl, rfl, rfl, rfl, rfl, rfl, rfl, rfl, rfl, rfl⟩

@[simp] theorem State.updJay_reads (s : State) (i : Nat) (f : JayUnit → JayUnit) :
    (∀ (t : Fin 16), (s.updJay i f).tenant t = s.tenant t) ∧
    (∀ (t : Fin 16) (q : Fin 8), (s.updJay i f).queue t q = s.queue t q) ∧
    (∀ (p o : Nat), (s.updJay i f).live p o = s.live p o) ∧
    (∀ (p o : Nat), (s.updJay i f).shadowOf p o = s.shadowOf p o) ∧
    (s.updJay i f).held = s.held ∧
    (s.updJay i f).isReady = s.isReady ∧
    (s.updJay i f).inFault = s.inFault ∧
    (s.updJay i f).halted = s.halted ∧
    (s.updJay i f).stopped = s.stopped ∧
    (s.updJay i f).det = s.det ∧
    (s.updJay i f).role = s.role ∧
    (s.updJay i f).period = s.period ∧
    (∀ (k : Nat), (s.updJay i f).deadlineAt k = s.deadlineAt k) ∧
    (s.updJay i f).ctrlPort = s.ctrlPort ∧
    (∀ (t : Fin 16), (s.updJay i f).ownerOf t = s.ownerOf t) ∧
    (∀ (t : Fin 16), (s.updJay i f).enabled t = s.enabled t) ∧
    (∀ (n : Nat), (s.updJay i f).core n = s.core n) ∧
    (∀ (n : Nat), (s.updJay i f).link n = s.link n) ∧
    (∀ (n : Nat), (s.updJay i f).bear n = s.bear n) ∧
    (∀ (x : Port), (s.updJay i f).cfg x = s.cfg x) ∧
    (∀ (x : Port), (s.updJay i f).portUp x = s.portUp x) ∧
    (∀ (w : Writer), (s.updJay i f).isCtl w = s.isCtl w) ∧
    (∀ (c : Channel), (s.updJay i f).box c = s.box c) ∧
    (s.updJay i f).pkgId = s.pkgId :=
  ⟨fun _ => rfl, fun _ _ => rfl, fun _ _ => rfl, fun _ _ => rfl, rfl, rfl, rfl, rfl, rfl, rfl, rfl, rfl, fun _ => rfl, rfl, fun _ => rfl, fun _ => rfl, fun _ => rfl, fun _ => rfl, fun _ => rfl, fun _ => rfl, fun _ => rfl, fun _ => rfl, fun _ => rfl, rfl⟩

@[simp] theorem State.updFront_fields (s : State) (i : Nat) (f : FrontUnit → FrontUnit) :
    (s.updFront i f).pending = s.pending ∧
    (s.updFront i f).chip = s.chip ∧
    (s.updFront i f).now = s.now ∧
    (s.updFront i f).draws = s.draws ∧
    (s.updFront i f).doorbells = s.doorbells ∧
    (s.updFront i f).regs = s.regs ∧
    (s.updFront i f).shadow = s.shadow ∧
    (s.updFront i f).dirty = s.dirty ∧
    (s.updFront i f).cfgA = s.cfgA ∧
    (s.updFront i f).cfgB = s.cfgB ∧
    (s.updFront i f).setOrder = s.setOrder ∧
    (s.updFront i f).attn = s.attn ∧
    (s.updFront i f).frame = s.frame ∧
    (s.updFront i f).tenants = s.tenants ∧
    (s.updFront i f).engines = s.engines ∧
    (s.updFront i f).bears = s.bears ∧
    (s.updFront i f).jays = s.jays ∧
    (s.updFront i f).cores = s.cores ∧
    (s.updFront i f).slotsPeak = s.slotsPeak ∧
    (s.updFront i f).dram = s.dram ∧
    (s.updFront i f).links = s.links ∧
    (s.updFront i f).cascade = s.cascade ∧
    (s.updFront i f).lynx = s.lynx ∧
    (s.updFront i f).clock = s.clock ∧
    (s.updFront i f).power = s.power ∧
    (s.updFront i f).fault = s.fault ∧
    (s.updFront i f).owl = s.owl ∧
    (s.updFront i f).cal = s.cal ∧
    (s.updFront i f).jtag = s.jtag :=
  ⟨rfl, rfl, rfl, rfl, rfl, rfl, rfl, rfl, rfl, rfl, rfl, rfl, rfl, rfl, rfl, rfl, rfl, rfl, rfl, rfl, rfl, rfl, rfl, rfl, rfl, rfl, rfl, rfl, rfl⟩

@[simp] theorem State.updFront_reads (s : State) (i : Nat) (f : FrontUnit → FrontUnit) :
    (∀ (t : Fin 16), (s.updFront i f).tenant t = s.tenant t) ∧
    (∀ (t : Fin 16) (q : Fin 8), (s.updFront i f).queue t q = s.queue t q) ∧
    (∀ (p o : Nat), (s.updFront i f).live p o = s.live p o) ∧
    (∀ (p o : Nat), (s.updFront i f).shadowOf p o = s.shadowOf p o) ∧
    (s.updFront i f).held = s.held ∧
    (s.updFront i f).isReady = s.isReady ∧
    (s.updFront i f).inFault = s.inFault ∧
    (s.updFront i f).halted = s.halted ∧
    (s.updFront i f).stopped = s.stopped ∧
    (s.updFront i f).det = s.det ∧
    (s.updFront i f).role = s.role ∧
    (s.updFront i f).period = s.period ∧
    (∀ (k : Nat), (s.updFront i f).deadlineAt k = s.deadlineAt k) ∧
    (s.updFront i f).ctrlPort = s.ctrlPort ∧
    (∀ (t : Fin 16), (s.updFront i f).ownerOf t = s.ownerOf t) ∧
    (∀ (t : Fin 16), (s.updFront i f).enabled t = s.enabled t) ∧
    (∀ (n : Nat), (s.updFront i f).core n = s.core n) ∧
    (∀ (n : Nat), (s.updFront i f).link n = s.link n) ∧
    (∀ (n : Nat), (s.updFront i f).bear n = s.bear n) ∧
    (∀ (n : Nat), (s.updFront i f).jay n = s.jay n) ∧
    (∀ (x : Port), (s.updFront i f).cfg x = s.cfg x) ∧
    (∀ (x : Port), (s.updFront i f).portUp x = s.portUp x) ∧
    (∀ (w : Writer), (s.updFront i f).isCtl w = s.isCtl w) ∧
    (∀ (c : Channel), (s.updFront i f).box c = s.box c) ∧
    (s.updFront i f).pkgId = s.pkgId :=
  ⟨fun _ => rfl, fun _ _ => rfl, fun _ _ => rfl, fun _ _ => rfl, rfl, rfl, rfl, rfl, rfl, rfl, rfl, rfl, fun _ => rfl, rfl, fun _ => rfl, fun _ => rfl, fun _ => rfl, fun _ => rfl, fun _ => rfl, fun _ => rfl, fun _ => rfl, fun _ => rfl, fun _ => rfl, fun _ => rfl, rfl⟩

@[simp] theorem State.updLink_fields (s : State) (i : Nat) (f : Link → Link) :
    (s.updLink i f).pending = s.pending ∧
    (s.updLink i f).chip = s.chip ∧
    (s.updLink i f).now = s.now ∧
    (s.updLink i f).draws = s.draws ∧
    (s.updLink i f).doorbells = s.doorbells ∧
    (s.updLink i f).regs = s.regs ∧
    (s.updLink i f).shadow = s.shadow ∧
    (s.updLink i f).dirty = s.dirty ∧
    (s.updLink i f).cfgA = s.cfgA ∧
    (s.updLink i f).cfgB = s.cfgB ∧
    (s.updLink i f).setOrder = s.setOrder ∧
    (s.updLink i f).attn = s.attn ∧
    (s.updLink i f).frame = s.frame ∧
    (s.updLink i f).tenants = s.tenants ∧
    (s.updLink i f).engines = s.engines ∧
    (s.updLink i f).bears = s.bears ∧
    (s.updLink i f).jays = s.jays ∧
    (s.updLink i f).fronts = s.fronts ∧
    (s.updLink i f).cores = s.cores ∧
    (s.updLink i f).slotsPeak = s.slotsPeak ∧
    (s.updLink i f).dram = s.dram ∧
    (s.updLink i f).cascade = s.cascade ∧
    (s.updLink i f).lynx = s.lynx ∧
    (s.updLink i f).clock = s.clock ∧
    (s.updLink i f).power = s.power ∧
    (s.updLink i f).fault = s.fault ∧
    (s.updLink i f).owl = s.owl ∧
    (s.updLink i f).cal = s.cal ∧
    (s.updLink i f).jtag = s.jtag :=
  ⟨rfl, rfl, rfl, rfl, rfl, rfl, rfl, rfl, rfl, rfl, rfl, rfl, rfl, rfl, rfl, rfl, rfl, rfl, rfl, rfl, rfl, rfl, rfl, rfl, rfl, rfl, rfl, rfl, rfl⟩

@[simp] theorem State.updLink_reads (s : State) (i : Nat) (f : Link → Link) :
    (∀ (t : Fin 16), (s.updLink i f).tenant t = s.tenant t) ∧
    (∀ (t : Fin 16) (q : Fin 8), (s.updLink i f).queue t q = s.queue t q) ∧
    (∀ (p o : Nat), (s.updLink i f).live p o = s.live p o) ∧
    (∀ (p o : Nat), (s.updLink i f).shadowOf p o = s.shadowOf p o) ∧
    (s.updLink i f).held = s.held ∧
    (s.updLink i f).isReady = s.isReady ∧
    (s.updLink i f).inFault = s.inFault ∧
    (s.updLink i f).halted = s.halted ∧
    (s.updLink i f).stopped = s.stopped ∧
    (s.updLink i f).det = s.det ∧
    (s.updLink i f).role = s.role ∧
    (s.updLink i f).period = s.period ∧
    (∀ (k : Nat), (s.updLink i f).deadlineAt k = s.deadlineAt k) ∧
    (s.updLink i f).ctrlPort = s.ctrlPort ∧
    (∀ (t : Fin 16), (s.updLink i f).ownerOf t = s.ownerOf t) ∧
    (∀ (t : Fin 16), (s.updLink i f).enabled t = s.enabled t) ∧
    (∀ (k : UnitKind) (n : Nat), (s.updLink i f).usable k n = s.usable k n) ∧
    (∀ (n : Nat), (s.updLink i f).core n = s.core n) ∧
    (∀ (n : Nat), (s.updLink i f).bear n = s.bear n) ∧
    (∀ (n : Nat), (s.updLink i f).jay n = s.jay n) ∧
    (∀ (x : Port), (s.updLink i f).cfg x = s.cfg x) ∧
    (∀ (x : Port), (s.updLink i f).portUp x = s.portUp x) ∧
    (∀ (w : Writer), (s.updLink i f).isCtl w = s.isCtl w) ∧
    (∀ (c : Channel), (s.updLink i f).box c = s.box c) ∧
    (s.updLink i f).pkgId = s.pkgId :=
  ⟨fun _ => rfl, fun _ _ => rfl, fun _ _ => rfl, fun _ _ => rfl, rfl, rfl, rfl, rfl, rfl, rfl, rfl, rfl, fun _ => rfl, rfl, fun _ => rfl, fun _ => rfl, fun _ _ => rfl, fun _ => rfl, fun _ => rfl, fun _ => rfl, fun _ => rfl, fun _ => rfl, fun _ => rfl, fun _ => rfl, rfl⟩

@[simp] theorem State.updFrame_fields (s : State) (f : Frame → Frame) :
    (s.updFrame f).pending = s.pending ∧
    (s.updFrame f).chip = s.chip ∧
    (s.updFrame f).now = s.now ∧
    (s.updFrame f).draws = s.draws ∧
    (s.updFrame f).doorbells = s.doorbells ∧
    (s.updFrame f).regs = s.regs ∧
    (s.updFrame f).shadow = s.shadow ∧
    (s.updFrame f).dirty = s.dirty ∧
    (s.updFrame f).cfgA = s.cfgA ∧
    (s.updFrame f).cfgB = s.cfgB ∧
    (s.updFrame f).setOrder = s.setOrder ∧
    (s.updFrame f).attn = s.attn ∧
    (s.updFrame f).tenants = s.tenants ∧
    (s.updFrame f).engines = s.engines ∧
    (s.updFrame f).bears = s.bears ∧
    (s.updFrame f).jays = s.jays ∧
    (s.updFrame f).fronts = s.fronts ∧
    (s.updFrame f).cores = s.cores ∧
    (s.updFrame f).slotsPeak = s.slotsPeak ∧
    (s.updFrame f).dram = s.dram ∧
    (s.updFrame f).links = s.links ∧
    (s.updFrame f).cascade = s.cascade ∧
    (s.updFrame f).lynx = s.lynx ∧
    (s.updFrame f).clock = s.clock ∧
    (s.updFrame f).power = s.power ∧
    (s.updFrame f).fault = s.fault ∧
    (s.updFrame f).owl = s.owl ∧
    (s.updFrame f).cal = s.cal ∧
    (s.updFrame f).jtag = s.jtag :=
  ⟨rfl, rfl, rfl, rfl, rfl, rfl, rfl, rfl, rfl, rfl, rfl, rfl, rfl, rfl, rfl, rfl, rfl, rfl, rfl, rfl, rfl, rfl, rfl, rfl, rfl, rfl, rfl, rfl, rfl⟩

@[simp] theorem State.updFrame_reads (s : State) (f : Frame → Frame) :
    (∀ (t : Fin 16), (s.updFrame f).tenant t = s.tenant t) ∧
    (∀ (t : Fin 16) (q : Fin 8), (s.updFrame f).queue t q = s.queue t q) ∧
    (∀ (p o : Nat), (s.updFrame f).live p o = s.live p o) ∧
    (∀ (p o : Nat), (s.updFrame f).shadowOf p o = s.shadowOf p o) ∧
    (s.updFrame f).held = s.held ∧
    (s.updFrame f).isReady = s.isReady ∧
    (s.updFrame f).inFault = s.inFault ∧
    (s.updFrame f).halted = s.halted ∧
    (s.updFrame f).det = s.det ∧
    (s.updFrame f).role = s.role ∧
    (s.updFrame f).period = s.period ∧
    (s.updFrame f).ctrlPort = s.ctrlPort ∧
    (∀ (t : Fin 16), (s.updFrame f).ownerOf t = s.ownerOf t) ∧
    (∀ (t : Fin 16), (s.updFrame f).enabled t = s.enabled t) ∧
    (∀ (k : UnitKind) (n : Nat), (s.updFrame f).usable k n = s.usable k n) ∧
    (∀ (n : Nat), (s.updFrame f).core n = s.core n) ∧
    (∀ (n : Nat), (s.updFrame f).link n = s.link n) ∧
    (∀ (n : Nat), (s.updFrame f).bear n = s.bear n) ∧
    (∀ (n : Nat), (s.updFrame f).jay n = s.jay n) ∧
    (∀ (x : Port), (s.updFrame f).cfg x = s.cfg x) ∧
    (∀ (x : Port), (s.updFrame f).portUp x = s.portUp x) ∧
    (∀ (w : Writer), (s.updFrame f).isCtl w = s.isCtl w) ∧
    (∀ (c : Channel), (s.updFrame f).box c = s.box c) ∧
    (s.updFrame f).pkgId = s.pkgId :=
  ⟨fun _ => rfl, fun _ _ => rfl, fun _ _ => rfl, fun _ _ => rfl, rfl, rfl, rfl, rfl, rfl, rfl, rfl, rfl, fun _ => rfl, fun _ => rfl, fun _ _ => rfl, fun _ => rfl, fun _ => rfl, fun _ => rfl, fun _ => rfl, fun _ => rfl, fun _ => rfl, fun _ => rfl, fun _ => rfl, rfl⟩

@[simp] theorem State.updClock_fields (s : State) (f : Clock → Clock) :
    (s.updClock f).pending = s.pending ∧
    (s.updClock f).chip = s.chip ∧
    (s.updClock f).now = s.now ∧
    (s.updClock f).draws = s.draws ∧
    (s.updClock f).doorbells = s.doorbells ∧
    (s.updClock f).regs = s.regs ∧
    (s.updClock f).shadow = s.shadow ∧
    (s.updClock f).dirty = s.dirty ∧
    (s.updClock f).cfgA = s.cfgA ∧
    (s.updClock f).cfgB = s.cfgB ∧
    (s.updClock f).setOrder = s.setOrder ∧
    (s.updClock f).attn = s.attn ∧
    (s.updClock f).frame = s.frame ∧
    (s.updClock f).tenants = s.tenants ∧
    (s.updClock f).engines = s.engines ∧
    (s.updClock f).bears = s.bears ∧
    (s.updClock f).jays = s.jays ∧
    (s.updClock f).fronts = s.fronts ∧
    (s.updClock f).cores = s.cores ∧
    (s.updClock f).slotsPeak = s.slotsPeak ∧
    (s.updClock f).dram = s.dram ∧
    (s.updClock f).links = s.links ∧
    (s.updClock f).cascade = s.cascade ∧
    (s.updClock f).lynx = s.lynx ∧
    (s.updClock f).power = s.power ∧
    (s.updClock f).fault = s.fault ∧
    (s.updClock f).owl = s.owl ∧
    (s.updClock f).cal = s.cal ∧
    (s.updClock f).jtag = s.jtag :=
  ⟨rfl, rfl, rfl, rfl, rfl, rfl, rfl, rfl, rfl, rfl, rfl, rfl, rfl, rfl, rfl, rfl, rfl, rfl, rfl, rfl, rfl, rfl, rfl, rfl, rfl, rfl, rfl, rfl, rfl⟩

@[simp] theorem State.updClock_reads (s : State) (f : Clock → Clock) :
    (∀ (t : Fin 16), (s.updClock f).tenant t = s.tenant t) ∧
    (∀ (t : Fin 16) (q : Fin 8), (s.updClock f).queue t q = s.queue t q) ∧
    (∀ (p o : Nat), (s.updClock f).live p o = s.live p o) ∧
    (∀ (p o : Nat), (s.updClock f).shadowOf p o = s.shadowOf p o) ∧
    (s.updClock f).held = s.held ∧
    (s.updClock f).isReady = s.isReady ∧
    (s.updClock f).inFault = s.inFault ∧
    (s.updClock f).halted = s.halted ∧
    (s.updClock f).stopped = s.stopped ∧
    (s.updClock f).det = s.det ∧
    (s.updClock f).role = s.role ∧
    (s.updClock f).period = s.period ∧
    (∀ (k : Nat), (s.updClock f).deadlineAt k = s.deadlineAt k) ∧
    (s.updClock f).ctrlPort = s.ctrlPort ∧
    (∀ (t : Fin 16), (s.updClock f).ownerOf t = s.ownerOf t) ∧
    (∀ (t : Fin 16), (s.updClock f).enabled t = s.enabled t) ∧
    (∀ (k : UnitKind) (n : Nat), (s.updClock f).usable k n = s.usable k n) ∧
    (∀ (n : Nat), (s.updClock f).core n = s.core n) ∧
    (∀ (n : Nat), (s.updClock f).link n = s.link n) ∧
    (∀ (n : Nat), (s.updClock f).bear n = s.bear n) ∧
    (∀ (n : Nat), (s.updClock f).jay n = s.jay n) ∧
    (∀ (x : Port), (s.updClock f).cfg x = s.cfg x) ∧
    (∀ (x : Port), (s.updClock f).portUp x = s.portUp x) ∧
    (∀ (w : Writer), (s.updClock f).isCtl w = s.isCtl w) ∧
    (∀ (c : Channel), (s.updClock f).box c = s.box c) ∧
    (s.updClock f).pkgId = s.pkgId :=
  ⟨fun _ => rfl, fun _ _ => rfl, fun _ _ => rfl, fun _ _ => rfl, rfl, rfl, rfl, rfl, rfl, rfl, rfl, rfl, fun _ => rfl, rfl, fun _ => rfl, fun _ => rfl, fun _ _ => rfl, fun _ => rfl, fun _ => rfl, fun _ => rfl, fun _ => rfl, fun _ => rfl, fun _ => rfl, fun _ => rfl, fun _ => rfl, rfl⟩

@[simp] theorem State.updPower_fields (s : State) (f : Power → Power) :
    (s.updPower f).pending = s.pending ∧
    (s.updPower f).chip = s.chip ∧
    (s.updPower f).now = s.now ∧
    (s.updPower f).draws = s.draws ∧
    (s.updPower f).doorbells = s.doorbells ∧
    (s.updPower f).regs = s.regs ∧
    (s.updPower f).shadow = s.shadow ∧
    (s.updPower f).dirty = s.dirty ∧
    (s.updPower f).cfgA = s.cfgA ∧
    (s.updPower f).cfgB = s.cfgB ∧
    (s.updPower f).setOrder = s.setOrder ∧
    (s.updPower f).attn = s.attn ∧
    (s.updPower f).frame = s.frame ∧
    (s.updPower f).tenants = s.tenants ∧
    (s.updPower f).engines = s.engines ∧
    (s.updPower f).bears = s.bears ∧
    (s.updPower f).jays = s.jays ∧
    (s.updPower f).fronts = s.fronts ∧
    (s.updPower f).cores = s.cores ∧
    (s.updPower f).slotsPeak = s.slotsPeak ∧
    (s.updPower f).dram = s.dram ∧
    (s.updPower f).links = s.links ∧
    (s.updPower f).cascade = s.cascade ∧
    (s.updPower f).lynx = s.lynx ∧
    (s.updPower f).clock = s.clock ∧
    (s.updPower f).fault = s.fault ∧
    (s.updPower f).owl = s.owl ∧
    (s.updPower f).cal = s.cal ∧
    (s.updPower f).jtag = s.jtag :=
  ⟨rfl, rfl, rfl, rfl, rfl, rfl, rfl, rfl, rfl, rfl, rfl, rfl, rfl, rfl, rfl, rfl, rfl, rfl, rfl, rfl, rfl, rfl, rfl, rfl, rfl, rfl, rfl, rfl, rfl⟩

@[simp] theorem State.updPower_reads (s : State) (f : Power → Power) :
    (∀ (t : Fin 16), (s.updPower f).tenant t = s.tenant t) ∧
    (∀ (t : Fin 16) (q : Fin 8), (s.updPower f).queue t q = s.queue t q) ∧
    (∀ (p o : Nat), (s.updPower f).live p o = s.live p o) ∧
    (∀ (p o : Nat), (s.updPower f).shadowOf p o = s.shadowOf p o) ∧
    (s.updPower f).inFault = s.inFault ∧
    (s.updPower f).halted = s.halted ∧
    (s.updPower f).stopped = s.stopped ∧
    (s.updPower f).det = s.det ∧
    (s.updPower f).role = s.role ∧
    (s.updPower f).period = s.period ∧
    (∀ (k : Nat), (s.updPower f).deadlineAt k = s.deadlineAt k) ∧
    (s.updPower f).ctrlPort = s.ctrlPort ∧
    (∀ (t : Fin 16), (s.updPower f).ownerOf t = s.ownerOf t) ∧
    (∀ (t : Fin 16), (s.updPower f).enabled t = s.enabled t) ∧
    (∀ (k : UnitKind) (n : Nat), (s.updPower f).usable k n = s.usable k n) ∧
    (∀ (n : Nat), (s.updPower f).core n = s.core n) ∧
    (∀ (n : Nat), (s.updPower f).link n = s.link n) ∧
    (∀ (n : Nat), (s.updPower f).bear n = s.bear n) ∧
    (∀ (n : Nat), (s.updPower f).jay n = s.jay n) ∧
    (∀ (x : Port), (s.updPower f).cfg x = s.cfg x) ∧
    (∀ (c : Channel), (s.updPower f).box c = s.box c) ∧
    (s.updPower f).pkgId = s.pkgId :=
  ⟨fun _ => rfl, fun _ _ => rfl, fun _ _ => rfl, fun _ _ => rfl, rfl, rfl, rfl, rfl, rfl, rfl, fun _ => rfl, rfl, fun _ => rfl, fun _ => rfl, fun _ _ => rfl, fun _ => rfl, fun _ => rfl, fun _ => rfl, fun _ => rfl, fun _ => rfl, fun _ => rfl, rfl⟩

@[simp] theorem State.updOwl_fields (s : State) (f : Owl → Owl) :
    (s.updOwl f).pending = s.pending ∧
    (s.updOwl f).chip = s.chip ∧
    (s.updOwl f).now = s.now ∧
    (s.updOwl f).draws = s.draws ∧
    (s.updOwl f).doorbells = s.doorbells ∧
    (s.updOwl f).regs = s.regs ∧
    (s.updOwl f).shadow = s.shadow ∧
    (s.updOwl f).dirty = s.dirty ∧
    (s.updOwl f).cfgA = s.cfgA ∧
    (s.updOwl f).cfgB = s.cfgB ∧
    (s.updOwl f).setOrder = s.setOrder ∧
    (s.updOwl f).attn = s.attn ∧
    (s.updOwl f).frame = s.frame ∧
    (s.updOwl f).tenants = s.tenants ∧
    (s.updOwl f).engines = s.engines ∧
    (s.updOwl f).bears = s.bears ∧
    (s.updOwl f).jays = s.jays ∧
    (s.updOwl f).fronts = s.fronts ∧
    (s.updOwl f).cores = s.cores ∧
    (s.updOwl f).slotsPeak = s.slotsPeak ∧
    (s.updOwl f).dram = s.dram ∧
    (s.updOwl f).links = s.links ∧
    (s.updOwl f).cascade = s.cascade ∧
    (s.updOwl f).lynx = s.lynx ∧
    (s.updOwl f).clock = s.clock ∧
    (s.updOwl f).power = s.power ∧
    (s.updOwl f).fault = s.fault ∧
    (s.updOwl f).cal = s.cal ∧
    (s.updOwl f).jtag = s.jtag :=
  ⟨rfl, rfl, rfl, rfl, rfl, rfl, rfl, rfl, rfl, rfl, rfl, rfl, rfl, rfl, rfl, rfl, rfl, rfl, rfl, rfl, rfl, rfl, rfl, rfl, rfl, rfl, rfl, rfl, rfl⟩

@[simp] theorem State.updOwl_reads (s : State) (f : Owl → Owl) :
    (∀ (t : Fin 16), (s.updOwl f).tenant t = s.tenant t) ∧
    (∀ (t : Fin 16) (q : Fin 8), (s.updOwl f).queue t q = s.queue t q) ∧
    (∀ (p o : Nat), (s.updOwl f).live p o = s.live p o) ∧
    (∀ (p o : Nat), (s.updOwl f).shadowOf p o = s.shadowOf p o) ∧
    (s.updOwl f).held = s.held ∧
    (s.updOwl f).isReady = s.isReady ∧
    (s.updOwl f).inFault = s.inFault ∧
    (s.updOwl f).halted = s.halted ∧
    (s.updOwl f).stopped = s.stopped ∧
    (s.updOwl f).det = s.det ∧
    (s.updOwl f).role = s.role ∧
    (s.updOwl f).period = s.period ∧
    (∀ (k : Nat), (s.updOwl f).deadlineAt k = s.deadlineAt k) ∧
    (∀ (t : Fin 16), (s.updOwl f).enabled t = s.enabled t) ∧
    (∀ (k : UnitKind) (n : Nat), (s.updOwl f).usable k n = s.usable k n) ∧
    (∀ (n : Nat), (s.updOwl f).core n = s.core n) ∧
    (∀ (n : Nat), (s.updOwl f).link n = s.link n) ∧
    (∀ (n : Nat), (s.updOwl f).bear n = s.bear n) ∧
    (∀ (n : Nat), (s.updOwl f).jay n = s.jay n) ∧
    (∀ (x : Port), (s.updOwl f).cfg x = s.cfg x) ∧
    (∀ (x : Port), (s.updOwl f).portUp x = s.portUp x) ∧
    (s.updOwl f).pkgId = s.pkgId :=
  ⟨fun _ => rfl, fun _ _ => rfl, fun _ _ => rfl, fun _ _ => rfl, rfl, rfl, rfl, rfl, rfl, rfl, rfl, rfl, fun _ => rfl, fun _ => rfl, fun _ _ => rfl, fun _ => rfl, fun _ => rfl, fun _ => rfl, fun _ => rfl, fun _ => rfl, fun _ => rfl, rfl⟩

@[simp] theorem State.updLynx_fields (s : State) (f : Lynx → Lynx) :
    (s.updLynx f).pending = s.pending ∧
    (s.updLynx f).chip = s.chip ∧
    (s.updLynx f).now = s.now ∧
    (s.updLynx f).draws = s.draws ∧
    (s.updLynx f).doorbells = s.doorbells ∧
    (s.updLynx f).regs = s.regs ∧
    (s.updLynx f).shadow = s.shadow ∧
    (s.updLynx f).dirty = s.dirty ∧
    (s.updLynx f).cfgA = s.cfgA ∧
    (s.updLynx f).cfgB = s.cfgB ∧
    (s.updLynx f).setOrder = s.setOrder ∧
    (s.updLynx f).attn = s.attn ∧
    (s.updLynx f).frame = s.frame ∧
    (s.updLynx f).tenants = s.tenants ∧
    (s.updLynx f).engines = s.engines ∧
    (s.updLynx f).bears = s.bears ∧
    (s.updLynx f).jays = s.jays ∧
    (s.updLynx f).fronts = s.fronts ∧
    (s.updLynx f).cores = s.cores ∧
    (s.updLynx f).slotsPeak = s.slotsPeak ∧
    (s.updLynx f).dram = s.dram ∧
    (s.updLynx f).links = s.links ∧
    (s.updLynx f).cascade = s.cascade ∧
    (s.updLynx f).clock = s.clock ∧
    (s.updLynx f).power = s.power ∧
    (s.updLynx f).fault = s.fault ∧
    (s.updLynx f).owl = s.owl ∧
    (s.updLynx f).cal = s.cal ∧
    (s.updLynx f).jtag = s.jtag :=
  ⟨rfl, rfl, rfl, rfl, rfl, rfl, rfl, rfl, rfl, rfl, rfl, rfl, rfl, rfl, rfl, rfl, rfl, rfl, rfl, rfl, rfl, rfl, rfl, rfl, rfl, rfl, rfl, rfl, rfl⟩

@[simp] theorem State.updLynx_reads (s : State) (f : Lynx → Lynx) :
    (∀ (t : Fin 16), (s.updLynx f).tenant t = s.tenant t) ∧
    (∀ (t : Fin 16) (q : Fin 8), (s.updLynx f).queue t q = s.queue t q) ∧
    (∀ (p o : Nat), (s.updLynx f).live p o = s.live p o) ∧
    (∀ (p o : Nat), (s.updLynx f).shadowOf p o = s.shadowOf p o) ∧
    (s.updLynx f).held = s.held ∧
    (s.updLynx f).isReady = s.isReady ∧
    (s.updLynx f).inFault = s.inFault ∧
    (s.updLynx f).halted = s.halted ∧
    (s.updLynx f).stopped = s.stopped ∧
    (s.updLynx f).det = s.det ∧
    (s.updLynx f).role = s.role ∧
    (s.updLynx f).period = s.period ∧
    (∀ (k : Nat), (s.updLynx f).deadlineAt k = s.deadlineAt k) ∧
    (s.updLynx f).ctrlPort = s.ctrlPort ∧
    (∀ (t : Fin 16), (s.updLynx f).ownerOf t = s.ownerOf t) ∧
    (∀ (t : Fin 16), (s.updLynx f).enabled t = s.enabled t) ∧
    (∀ (k : UnitKind) (n : Nat), (s.updLynx f).usable k n = s.usable k n) ∧
    (∀ (n : Nat), (s.updLynx f).core n = s.core n) ∧
    (∀ (n : Nat), (s.updLynx f).link n = s.link n) ∧
    (∀ (n : Nat), (s.updLynx f).bear n = s.bear n) ∧
    (∀ (n : Nat), (s.updLynx f).jay n = s.jay n) ∧
    (∀ (x : Port), (s.updLynx f).cfg x = s.cfg x) ∧
    (∀ (x : Port), (s.updLynx f).portUp x = s.portUp x) ∧
    (∀ (w : Writer), (s.updLynx f).isCtl w = s.isCtl w) ∧
    (∀ (c : Channel), (s.updLynx f).box c = s.box c) ∧
    (s.updLynx f).pkgId = s.pkgId :=
  ⟨fun _ => rfl, fun _ _ => rfl, fun _ _ => rfl, fun _ _ => rfl, rfl, rfl, rfl, rfl, rfl, rfl, rfl, rfl, fun _ => rfl, rfl, fun _ => rfl, fun _ => rfl, fun _ _ => rfl, fun _ => rfl, fun _ => rfl, fun _ => rfl, fun _ => rfl, fun _ => rfl, fun _ => rfl, fun _ => rfl, fun _ => rfl, rfl⟩

@[simp] theorem State.updCascade_fields (s : State) (f : Cascade → Cascade) :
    (s.updCascade f).pending = s.pending ∧
    (s.updCascade f).chip = s.chip ∧
    (s.updCascade f).now = s.now ∧
    (s.updCascade f).draws = s.draws ∧
    (s.updCascade f).doorbells = s.doorbells ∧
    (s.updCascade f).regs = s.regs ∧
    (s.updCascade f).shadow = s.shadow ∧
    (s.updCascade f).dirty = s.dirty ∧
    (s.updCascade f).cfgA = s.cfgA ∧
    (s.updCascade f).cfgB = s.cfgB ∧
    (s.updCascade f).setOrder = s.setOrder ∧
    (s.updCascade f).attn = s.attn ∧
    (s.updCascade f).frame = s.frame ∧
    (s.updCascade f).tenants = s.tenants ∧
    (s.updCascade f).engines = s.engines ∧
    (s.updCascade f).bears = s.bears ∧
    (s.updCascade f).jays = s.jays ∧
    (s.updCascade f).fronts = s.fronts ∧
    (s.updCascade f).cores = s.cores ∧
    (s.updCascade f).slotsPeak = s.slotsPeak ∧
    (s.updCascade f).dram = s.dram ∧
    (s.updCascade f).links = s.links ∧
    (s.updCascade f).lynx = s.lynx ∧
    (s.updCascade f).clock = s.clock ∧
    (s.updCascade f).power = s.power ∧
    (s.updCascade f).fault = s.fault ∧
    (s.updCascade f).owl = s.owl ∧
    (s.updCascade f).cal = s.cal ∧
    (s.updCascade f).jtag = s.jtag :=
  ⟨rfl, rfl, rfl, rfl, rfl, rfl, rfl, rfl, rfl, rfl, rfl, rfl, rfl, rfl, rfl, rfl, rfl, rfl, rfl, rfl, rfl, rfl, rfl, rfl, rfl, rfl, rfl, rfl, rfl⟩

@[simp] theorem State.updCascade_reads (s : State) (f : Cascade → Cascade) :
    (∀ (t : Fin 16), (s.updCascade f).tenant t = s.tenant t) ∧
    (∀ (t : Fin 16) (q : Fin 8), (s.updCascade f).queue t q = s.queue t q) ∧
    (∀ (p o : Nat), (s.updCascade f).live p o = s.live p o) ∧
    (∀ (p o : Nat), (s.updCascade f).shadowOf p o = s.shadowOf p o) ∧
    (s.updCascade f).held = s.held ∧
    (s.updCascade f).isReady = s.isReady ∧
    (s.updCascade f).inFault = s.inFault ∧
    (s.updCascade f).halted = s.halted ∧
    (s.updCascade f).stopped = s.stopped ∧
    (s.updCascade f).det = s.det ∧
    (s.updCascade f).role = s.role ∧
    (s.updCascade f).period = s.period ∧
    (∀ (k : Nat), (s.updCascade f).deadlineAt k = s.deadlineAt k) ∧
    (s.updCascade f).ctrlPort = s.ctrlPort ∧
    (∀ (t : Fin 16), (s.updCascade f).ownerOf t = s.ownerOf t) ∧
    (∀ (t : Fin 16), (s.updCascade f).enabled t = s.enabled t) ∧
    (∀ (k : UnitKind) (n : Nat), (s.updCascade f).usable k n = s.usable k n) ∧
    (∀ (n : Nat), (s.updCascade f).core n = s.core n) ∧
    (∀ (n : Nat), (s.updCascade f).link n = s.link n) ∧
    (∀ (n : Nat), (s.updCascade f).bear n = s.bear n) ∧
    (∀ (n : Nat), (s.updCascade f).jay n = s.jay n) ∧
    (∀ (x : Port), (s.updCascade f).cfg x = s.cfg x) ∧
    (∀ (x : Port), (s.updCascade f).portUp x = s.portUp x) ∧
    (∀ (w : Writer), (s.updCascade f).isCtl w = s.isCtl w) ∧
    (∀ (c : Channel), (s.updCascade f).box c = s.box c) ∧
    (s.updCascade f).pkgId = s.pkgId :=
  ⟨fun _ => rfl, fun _ _ => rfl, fun _ _ => rfl, fun _ _ => rfl, rfl, rfl, rfl, rfl, rfl, rfl, rfl, rfl, fun _ => rfl, rfl, fun _ => rfl, fun _ => rfl, fun _ _ => rfl, fun _ => rfl, fun _ => rfl, fun _ => rfl, fun _ => rfl, fun _ => rfl, fun _ => rfl, fun _ => rfl, fun _ => rfl, rfl⟩

@[simp] theorem State.updCal_fields (s : State) (f : Calendar → Calendar) :
    (s.updCal f).pending = s.pending ∧
    (s.updCal f).chip = s.chip ∧
    (s.updCal f).now = s.now ∧
    (s.updCal f).draws = s.draws ∧
    (s.updCal f).doorbells = s.doorbells ∧
    (s.updCal f).regs = s.regs ∧
    (s.updCal f).shadow = s.shadow ∧
    (s.updCal f).dirty = s.dirty ∧
    (s.updCal f).cfgA = s.cfgA ∧
    (s.updCal f).cfgB = s.cfgB ∧
    (s.updCal f).setOrder = s.setOrder ∧
    (s.updCal f).attn = s.attn ∧
    (s.updCal f).frame = s.frame ∧
    (s.updCal f).tenants = s.tenants ∧
    (s.updCal f).engines = s.engines ∧
    (s.updCal f).bears = s.bears ∧
    (s.updCal f).jays = s.jays ∧
    (s.updCal f).fronts = s.fronts ∧
    (s.updCal f).cores = s.cores ∧
    (s.updCal f).slotsPeak = s.slotsPeak ∧
    (s.updCal f).dram = s.dram ∧
    (s.updCal f).links = s.links ∧
    (s.updCal f).cascade = s.cascade ∧
    (s.updCal f).lynx = s.lynx ∧
    (s.updCal f).clock = s.clock ∧
    (s.updCal f).power = s.power ∧
    (s.updCal f).fault = s.fault ∧
    (s.updCal f).owl = s.owl ∧
    (s.updCal f).jtag = s.jtag :=
  ⟨rfl, rfl, rfl, rfl, rfl, rfl, rfl, rfl, rfl, rfl, rfl, rfl, rfl, rfl, rfl, rfl, rfl, rfl, rfl, rfl, rfl, rfl, rfl, rfl, rfl, rfl, rfl, rfl, rfl⟩

@[simp] theorem State.updCal_reads (s : State) (f : Calendar → Calendar) :
    (∀ (t : Fin 16), (s.updCal f).tenant t = s.tenant t) ∧
    (∀ (t : Fin 16) (q : Fin 8), (s.updCal f).queue t q = s.queue t q) ∧
    (∀ (p o : Nat), (s.updCal f).live p o = s.live p o) ∧
    (∀ (p o : Nat), (s.updCal f).shadowOf p o = s.shadowOf p o) ∧
    (s.updCal f).held = s.held ∧
    (s.updCal f).isReady = s.isReady ∧
    (s.updCal f).inFault = s.inFault ∧
    (s.updCal f).halted = s.halted ∧
    (s.updCal f).stopped = s.stopped ∧
    (s.updCal f).det = s.det ∧
    (s.updCal f).role = s.role ∧
    (s.updCal f).period = s.period ∧
    (∀ (k : Nat), (s.updCal f).deadlineAt k = s.deadlineAt k) ∧
    (s.updCal f).ctrlPort = s.ctrlPort ∧
    (∀ (t : Fin 16), (s.updCal f).ownerOf t = s.ownerOf t) ∧
    (∀ (t : Fin 16), (s.updCal f).enabled t = s.enabled t) ∧
    (∀ (k : UnitKind) (n : Nat), (s.updCal f).usable k n = s.usable k n) ∧
    (∀ (n : Nat), (s.updCal f).core n = s.core n) ∧
    (∀ (n : Nat), (s.updCal f).link n = s.link n) ∧
    (∀ (n : Nat), (s.updCal f).bear n = s.bear n) ∧
    (∀ (n : Nat), (s.updCal f).jay n = s.jay n) ∧
    (∀ (x : Port), (s.updCal f).cfg x = s.cfg x) ∧
    (∀ (x : Port), (s.updCal f).portUp x = s.portUp x) ∧
    (∀ (w : Writer), (s.updCal f).isCtl w = s.isCtl w) ∧
    (∀ (c : Channel), (s.updCal f).box c = s.box c) ∧
    (s.updCal f).pkgId = s.pkgId :=
  ⟨fun _ => rfl, fun _ _ => rfl, fun _ _ => rfl, fun _ _ => rfl, rfl, rfl, rfl, rfl, rfl, rfl, rfl, rfl, fun _ => rfl, rfl, fun _ => rfl, fun _ => rfl, fun _ _ => rfl, fun _ => rfl, fun _ => rfl, fun _ => rfl, fun _ => rfl, fun _ => rfl, fun _ => rfl, fun _ => rfl, fun _ => rfl, rfl⟩

@[simp] theorem State.updFault_fields (s : State) (f : PkgFault → PkgFault) :
    (s.updFault f).pending = s.pending ∧
    (s.updFault f).chip = s.chip ∧
    (s.updFault f).now = s.now ∧
    (s.updFault f).draws = s.draws ∧
    (s.updFault f).doorbells = s.doorbells ∧
    (s.updFault f).regs = s.regs ∧
    (s.updFault f).shadow = s.shadow ∧
    (s.updFault f).dirty = s.dirty ∧
    (s.updFault f).cfgA = s.cfgA ∧
    (s.updFault f).cfgB = s.cfgB ∧
    (s.updFault f).setOrder = s.setOrder ∧
    (s.updFault f).attn = s.attn ∧
    (s.updFault f).frame = s.frame ∧
    (s.updFault f).tenants = s.tenants ∧
    (s.updFault f).engines = s.engines ∧
    (s.updFault f).bears = s.bears ∧
    (s.updFault f).jays = s.jays ∧
    (s.updFault f).fronts = s.fronts ∧
    (s.updFault f).cores = s.cores ∧
    (s.updFault f).slotsPeak = s.slotsPeak ∧
    (s.updFault f).dram = s.dram ∧
    (s.updFault f).links = s.links ∧
    (s.updFault f).cascade = s.cascade ∧
    (s.updFault f).lynx = s.lynx ∧
    (s.updFault f).clock = s.clock ∧
    (s.updFault f).power = s.power ∧
    (s.updFault f).owl = s.owl ∧
    (s.updFault f).cal = s.cal ∧
    (s.updFault f).jtag = s.jtag :=
  ⟨rfl, rfl, rfl, rfl, rfl, rfl, rfl, rfl, rfl, rfl, rfl, rfl, rfl, rfl, rfl, rfl, rfl, rfl, rfl, rfl, rfl, rfl, rfl, rfl, rfl, rfl, rfl, rfl, rfl⟩

@[simp] theorem State.updFault_reads (s : State) (f : PkgFault → PkgFault) :
    (∀ (t : Fin 16), (s.updFault f).tenant t = s.tenant t) ∧
    (∀ (t : Fin 16) (q : Fin 8), (s.updFault f).queue t q = s.queue t q) ∧
    (∀ (p o : Nat), (s.updFault f).live p o = s.live p o) ∧
    (∀ (p o : Nat), (s.updFault f).shadowOf p o = s.shadowOf p o) ∧
    (s.updFault f).held = s.held ∧
    (s.updFault f).isReady = s.isReady ∧
    (s.updFault f).stopped = s.stopped ∧
    (s.updFault f).det = s.det ∧
    (s.updFault f).role = s.role ∧
    (s.updFault f).period = s.period ∧
    (∀ (k : Nat), (s.updFault f).deadlineAt k = s.deadlineAt k) ∧
    (s.updFault f).ctrlPort = s.ctrlPort ∧
    (∀ (t : Fin 16), (s.updFault f).ownerOf t = s.ownerOf t) ∧
    (∀ (t : Fin 16), (s.updFault f).enabled t = s.enabled t) ∧
    (∀ (k : UnitKind) (n : Nat), (s.updFault f).usable k n = s.usable k n) ∧
    (∀ (n : Nat), (s.updFault f).core n = s.core n) ∧
    (∀ (n : Nat), (s.updFault f).link n = s.link n) ∧
    (∀ (n : Nat), (s.updFault f).bear n = s.bear n) ∧
    (∀ (n : Nat), (s.updFault f).jay n = s.jay n) ∧
    (∀ (x : Port), (s.updFault f).cfg x = s.cfg x) ∧
    (∀ (x : Port), (s.updFault f).portUp x = s.portUp x) ∧
    (∀ (w : Writer), (s.updFault f).isCtl w = s.isCtl w) ∧
    (∀ (c : Channel), (s.updFault f).box c = s.box c) ∧
    (s.updFault f).pkgId = s.pkgId :=
  ⟨fun _ => rfl, fun _ _ => rfl, fun _ _ => rfl, fun _ _ => rfl, rfl, rfl, rfl, rfl, rfl, rfl, fun _ => rfl, rfl, fun _ => rfl, fun _ => rfl, fun _ _ => rfl, fun _ => rfl, fun _ => rfl, fun _ => rfl, fun _ => rfl, fun _ => rfl, fun _ => rfl, fun _ => rfl, fun _ => rfl, rfl⟩

@[simp] theorem State.updDram_fields (s : State) (f : Dram → Dram) :
    (s.updDram f).pending = s.pending ∧
    (s.updDram f).chip = s.chip ∧
    (s.updDram f).now = s.now ∧
    (s.updDram f).draws = s.draws ∧
    (s.updDram f).doorbells = s.doorbells ∧
    (s.updDram f).regs = s.regs ∧
    (s.updDram f).shadow = s.shadow ∧
    (s.updDram f).dirty = s.dirty ∧
    (s.updDram f).cfgA = s.cfgA ∧
    (s.updDram f).cfgB = s.cfgB ∧
    (s.updDram f).setOrder = s.setOrder ∧
    (s.updDram f).attn = s.attn ∧
    (s.updDram f).frame = s.frame ∧
    (s.updDram f).tenants = s.tenants ∧
    (s.updDram f).engines = s.engines ∧
    (s.updDram f).bears = s.bears ∧
    (s.updDram f).jays = s.jays ∧
    (s.updDram f).fronts = s.fronts ∧
    (s.updDram f).cores = s.cores ∧
    (s.updDram f).slotsPeak = s.slotsPeak ∧
    (s.updDram f).links = s.links ∧
    (s.updDram f).cascade = s.cascade ∧
    (s.updDram f).lynx = s.lynx ∧
    (s.updDram f).clock = s.clock ∧
    (s.updDram f).power = s.power ∧
    (s.updDram f).fault = s.fault ∧
    (s.updDram f).owl = s.owl ∧
    (s.updDram f).cal = s.cal ∧
    (s.updDram f).jtag = s.jtag :=
  ⟨rfl, rfl, rfl, rfl, rfl, rfl, rfl, rfl, rfl, rfl, rfl, rfl, rfl, rfl, rfl, rfl, rfl, rfl, rfl, rfl, rfl, rfl, rfl, rfl, rfl, rfl, rfl, rfl, rfl⟩

@[simp] theorem State.updDram_reads (s : State) (f : Dram → Dram) :
    (∀ (t : Fin 16), (s.updDram f).tenant t = s.tenant t) ∧
    (∀ (t : Fin 16) (q : Fin 8), (s.updDram f).queue t q = s.queue t q) ∧
    (∀ (p o : Nat), (s.updDram f).live p o = s.live p o) ∧
    (∀ (p o : Nat), (s.updDram f).shadowOf p o = s.shadowOf p o) ∧
    (s.updDram f).held = s.held ∧
    (s.updDram f).isReady = s.isReady ∧
    (s.updDram f).inFault = s.inFault ∧
    (s.updDram f).halted = s.halted ∧
    (s.updDram f).stopped = s.stopped ∧
    (s.updDram f).det = s.det ∧
    (s.updDram f).role = s.role ∧
    (s.updDram f).period = s.period ∧
    (∀ (k : Nat), (s.updDram f).deadlineAt k = s.deadlineAt k) ∧
    (s.updDram f).ctrlPort = s.ctrlPort ∧
    (∀ (t : Fin 16), (s.updDram f).ownerOf t = s.ownerOf t) ∧
    (∀ (t : Fin 16), (s.updDram f).enabled t = s.enabled t) ∧
    (∀ (k : UnitKind) (n : Nat), (s.updDram f).usable k n = s.usable k n) ∧
    (∀ (n : Nat), (s.updDram f).core n = s.core n) ∧
    (∀ (n : Nat), (s.updDram f).link n = s.link n) ∧
    (∀ (n : Nat), (s.updDram f).bear n = s.bear n) ∧
    (∀ (n : Nat), (s.updDram f).jay n = s.jay n) ∧
    (∀ (x : Port), (s.updDram f).cfg x = s.cfg x) ∧
    (∀ (x : Port), (s.updDram f).portUp x = s.portUp x) ∧
    (∀ (w : Writer), (s.updDram f).isCtl w = s.isCtl w) ∧
    (∀ (c : Channel), (s.updDram f).box c = s.box c) ∧
    (s.updDram f).pkgId = s.pkgId :=
  ⟨fun _ => rfl, fun _ _ => rfl, fun _ _ => rfl, fun _ _ => rfl, rfl, rfl, rfl, rfl, rfl, rfl, rfl, rfl, fun _ => rfl, rfl, fun _ => rfl, fun _ => rfl, fun _ _ => rfl, fun _ => rfl, fun _ => rfl, fun _ => rfl, fun _ => rfl, fun _ => rfl, fun _ => rfl, fun _ => rfl, fun _ => rfl, rfl⟩

@[simp] theorem State.updAttn_fields (s : State) (f : Attn → Attn) :
    (s.updAttn f).pending = s.pending ∧
    (s.updAttn f).chip = s.chip ∧
    (s.updAttn f).now = s.now ∧
    (s.updAttn f).draws = s.draws ∧
    (s.updAttn f).doorbells = s.doorbells ∧
    (s.updAttn f).regs = s.regs ∧
    (s.updAttn f).shadow = s.shadow ∧
    (s.updAttn f).dirty = s.dirty ∧
    (s.updAttn f).cfgA = s.cfgA ∧
    (s.updAttn f).cfgB = s.cfgB ∧
    (s.updAttn f).setOrder = s.setOrder ∧
    (s.updAttn f).frame = s.frame ∧
    (s.updAttn f).tenants = s.tenants ∧
    (s.updAttn f).engines = s.engines ∧
    (s.updAttn f).bears = s.bears ∧
    (s.updAttn f).jays = s.jays ∧
    (s.updAttn f).fronts = s.fronts ∧
    (s.updAttn f).cores = s.cores ∧
    (s.updAttn f).slotsPeak = s.slotsPeak ∧
    (s.updAttn f).dram = s.dram ∧
    (s.updAttn f).links = s.links ∧
    (s.updAttn f).cascade = s.cascade ∧
    (s.updAttn f).lynx = s.lynx ∧
    (s.updAttn f).clock = s.clock ∧
    (s.updAttn f).power = s.power ∧
    (s.updAttn f).fault = s.fault ∧
    (s.updAttn f).owl = s.owl ∧
    (s.updAttn f).cal = s.cal ∧
    (s.updAttn f).jtag = s.jtag :=
  ⟨rfl, rfl, rfl, rfl, rfl, rfl, rfl, rfl, rfl, rfl, rfl, rfl, rfl, rfl, rfl, rfl, rfl, rfl, rfl, rfl, rfl, rfl, rfl, rfl, rfl, rfl, rfl, rfl, rfl⟩

@[simp] theorem State.updAttn_reads (s : State) (f : Attn → Attn) :
    (∀ (t : Fin 16), (s.updAttn f).tenant t = s.tenant t) ∧
    (∀ (t : Fin 16) (q : Fin 8), (s.updAttn f).queue t q = s.queue t q) ∧
    (∀ (p o : Nat), (s.updAttn f).live p o = s.live p o) ∧
    (∀ (p o : Nat), (s.updAttn f).shadowOf p o = s.shadowOf p o) ∧
    (s.updAttn f).held = s.held ∧
    (s.updAttn f).isReady = s.isReady ∧
    (s.updAttn f).inFault = s.inFault ∧
    (s.updAttn f).halted = s.halted ∧
    (s.updAttn f).stopped = s.stopped ∧
    (s.updAttn f).det = s.det ∧
    (s.updAttn f).role = s.role ∧
    (s.updAttn f).period = s.period ∧
    (∀ (k : Nat), (s.updAttn f).deadlineAt k = s.deadlineAt k) ∧
    (s.updAttn f).ctrlPort = s.ctrlPort ∧
    (∀ (t : Fin 16), (s.updAttn f).ownerOf t = s.ownerOf t) ∧
    (∀ (t : Fin 16), (s.updAttn f).enabled t = s.enabled t) ∧
    (∀ (k : UnitKind) (n : Nat), (s.updAttn f).usable k n = s.usable k n) ∧
    (∀ (n : Nat), (s.updAttn f).core n = s.core n) ∧
    (∀ (n : Nat), (s.updAttn f).link n = s.link n) ∧
    (∀ (n : Nat), (s.updAttn f).bear n = s.bear n) ∧
    (∀ (n : Nat), (s.updAttn f).jay n = s.jay n) ∧
    (∀ (x : Port), (s.updAttn f).cfg x = s.cfg x) ∧
    (∀ (x : Port), (s.updAttn f).portUp x = s.portUp x) ∧
    (∀ (w : Writer), (s.updAttn f).isCtl w = s.isCtl w) ∧
    (∀ (c : Channel), (s.updAttn f).box c = s.box c) ∧
    (s.updAttn f).pkgId = s.pkgId :=
  ⟨fun _ => rfl, fun _ _ => rfl, fun _ _ => rfl, fun _ _ => rfl, rfl, rfl, rfl, rfl, rfl, rfl, rfl, rfl, fun _ => rfl, rfl, fun _ => rfl, fun _ => rfl, fun _ _ => rfl, fun _ => rfl, fun _ => rfl, fun _ => rfl, fun _ => rfl, fun _ => rfl, fun _ => rfl, fun _ => rfl, fun _ => rfl, rfl⟩

@[simp] theorem State.draw_fields (s : State) :
    (s.draw).pending = s.pending ∧
    (s.draw).chip = s.chip ∧
    (s.draw).now = s.now ∧
    (s.draw).doorbells = s.doorbells ∧
    (s.draw).regs = s.regs ∧
    (s.draw).shadow = s.shadow ∧
    (s.draw).dirty = s.dirty ∧
    (s.draw).cfgA = s.cfgA ∧
    (s.draw).cfgB = s.cfgB ∧
    (s.draw).setOrder = s.setOrder ∧
    (s.draw).attn = s.attn ∧
    (s.draw).frame = s.frame ∧
    (s.draw).tenants = s.tenants ∧
    (s.draw).engines = s.engines ∧
    (s.draw).bears = s.bears ∧
    (s.draw).jays = s.jays ∧
    (s.draw).fronts = s.fronts ∧
    (s.draw).cores = s.cores ∧
    (s.draw).slotsPeak = s.slotsPeak ∧
    (s.draw).dram = s.dram ∧
    (s.draw).links = s.links ∧
    (s.draw).cascade = s.cascade ∧
    (s.draw).lynx = s.lynx ∧
    (s.draw).clock = s.clock ∧
    (s.draw).power = s.power ∧
    (s.draw).fault = s.fault ∧
    (s.draw).owl = s.owl ∧
    (s.draw).cal = s.cal ∧
    (s.draw).jtag = s.jtag :=
  ⟨rfl, rfl, rfl, rfl, rfl, rfl, rfl, rfl, rfl, rfl, rfl, rfl, rfl, rfl, rfl, rfl, rfl, rfl, rfl, rfl, rfl, rfl, rfl, rfl, rfl, rfl, rfl, rfl, rfl⟩

@[simp] theorem State.draw_reads (s : State) :
    (∀ (t : Fin 16), (s.draw).tenant t = s.tenant t) ∧
    (∀ (t : Fin 16) (q : Fin 8), (s.draw).queue t q = s.queue t q) ∧
    (∀ (p o : Nat), (s.draw).live p o = s.live p o) ∧
    (∀ (p o : Nat), (s.draw).shadowOf p o = s.shadowOf p o) ∧
    (s.draw).held = s.held ∧
    (s.draw).isReady = s.isReady ∧
    (s.draw).inFault = s.inFault ∧
    (s.draw).halted = s.halted ∧
    (s.draw).stopped = s.stopped ∧
    (s.draw).det = s.det ∧
    (s.draw).role = s.role ∧
    (s.draw).period = s.period ∧
    (∀ (k : Nat), (s.draw).deadlineAt k = s.deadlineAt k) ∧
    (s.draw).ctrlPort = s.ctrlPort ∧
    (∀ (t : Fin 16), (s.draw).ownerOf t = s.ownerOf t) ∧
    (∀ (t : Fin 16), (s.draw).enabled t = s.enabled t) ∧
    (∀ (k : UnitKind) (n : Nat), (s.draw).usable k n = s.usable k n) ∧
    (∀ (n : Nat), (s.draw).core n = s.core n) ∧
    (∀ (n : Nat), (s.draw).link n = s.link n) ∧
    (∀ (n : Nat), (s.draw).bear n = s.bear n) ∧
    (∀ (n : Nat), (s.draw).jay n = s.jay n) ∧
    (∀ (x : Port), (s.draw).cfg x = s.cfg x) ∧
    (∀ (x : Port), (s.draw).portUp x = s.portUp x) ∧
    (∀ (w : Writer), (s.draw).isCtl w = s.isCtl w) ∧
    (∀ (c : Channel), (s.draw).box c = s.box c) ∧
    (s.draw).pkgId = s.pkgId :=
  ⟨fun _ => rfl, fun _ _ => rfl, fun _ _ => rfl, fun _ _ => rfl, rfl, rfl, rfl, rfl, rfl, rfl, rfl, rfl, fun _ => rfl, rfl, fun _ => rfl, fun _ => rfl, fun _ _ => rfl, fun _ => rfl, fun _ => rfl, fun _ => rfl, fun _ => rfl, fun _ => rfl, fun _ => rfl, fun _ => rfl, fun _ => rfl, rfl⟩

@[simp] theorem State.setLive_fields (s : State) (a b v : Nat) :
    (s.setLive a b v).pending = s.pending ∧
    (s.setLive a b v).chip = s.chip ∧
    (s.setLive a b v).now = s.now ∧
    (s.setLive a b v).draws = s.draws ∧
    (s.setLive a b v).doorbells = s.doorbells ∧
    (s.setLive a b v).shadow = s.shadow ∧
    (s.setLive a b v).dirty = s.dirty ∧
    (s.setLive a b v).cfgA = s.cfgA ∧
    (s.setLive a b v).cfgB = s.cfgB ∧
    (s.setLive a b v).setOrder = s.setOrder ∧
    (s.setLive a b v).attn = s.attn ∧
    (s.setLive a b v).frame = s.frame ∧
    (s.setLive a b v).tenants = s.tenants ∧
    (s.setLive a b v).engines = s.engines ∧
    (s.setLive a b v).bears = s.bears ∧
    (s.setLive a b v).jays = s.jays ∧
    (s.setLive a b v).fronts = s.fronts ∧
    (s.setLive a b v).cores = s.cores ∧
    (s.setLive a b v).slotsPeak = s.slotsPeak ∧
    (s.setLive a b v).dram = s.dram ∧
    (s.setLive a b v).links = s.links ∧
    (s.setLive a b v).cascade = s.cascade ∧
    (s.setLive a b v).lynx = s.lynx ∧
    (s.setLive a b v).clock = s.clock ∧
    (s.setLive a b v).power = s.power ∧
    (s.setLive a b v).fault = s.fault ∧
    (s.setLive a b v).owl = s.owl ∧
    (s.setLive a b v).cal = s.cal ∧
    (s.setLive a b v).jtag = s.jtag :=
  ⟨rfl, rfl, rfl, rfl, rfl, rfl, rfl, rfl, rfl, rfl, rfl, rfl, rfl, rfl, rfl, rfl, rfl, rfl, rfl, rfl, rfl, rfl, rfl, rfl, rfl, rfl, rfl, rfl, rfl⟩

@[simp] theorem State.setLive_reads (s : State) (a b v : Nat) :
    (∀ (t : Fin 16), (s.setLive a b v).tenant t = s.tenant t) ∧
    (∀ (t : Fin 16) (q : Fin 8), (s.setLive a b v).queue t q = s.queue t q) ∧
    (∀ (p o : Nat), (s.setLive a b v).shadowOf p o = s.shadowOf p o) ∧
    (s.setLive a b v).held = s.held ∧
    (s.setLive a b v).isReady = s.isReady ∧
    (s.setLive a b v).inFault = s.inFault ∧
    (s.setLive a b v).halted = s.halted ∧
    (s.setLive a b v).stopped = s.stopped ∧
    (s.setLive a b v).ctrlPort = s.ctrlPort ∧
    (∀ (t : Fin 16), (s.setLive a b v).ownerOf t = s.ownerOf t) ∧
    (∀ (k : UnitKind) (n : Nat), (s.setLive a b v).usable k n = s.usable k n) ∧
    (∀ (n : Nat), (s.setLive a b v).core n = s.core n) ∧
    (∀ (n : Nat), (s.setLive a b v).link n = s.link n) ∧
    (∀ (n : Nat), (s.setLive a b v).bear n = s.bear n) ∧
    (∀ (n : Nat), (s.setLive a b v).jay n = s.jay n) ∧
    (∀ (x : Port), (s.setLive a b v).cfg x = s.cfg x) ∧
    (∀ (x : Port), (s.setLive a b v).portUp x = s.portUp x) ∧
    (∀ (w : Writer), (s.setLive a b v).isCtl w = s.isCtl w) ∧
    (∀ (c : Channel), (s.setLive a b v).box c = s.box c) :=
  ⟨fun _ => rfl, fun _ _ => rfl, fun _ _ => rfl, rfl, rfl, rfl, rfl, rfl, rfl, fun _ => rfl, fun _ _ => rfl, fun _ => rfl, fun _ => rfl, fun _ => rfl, fun _ => rfl, fun _ => rfl, fun _ => rfl, fun _ => rfl, fun _ => rfl⟩

@[simp] theorem State.setShadow_fields (s : State) (a b v : Nat) :
    (s.setShadow a b v).pending = s.pending ∧
    (s.setShadow a b v).chip = s.chip ∧
    (s.setShadow a b v).now = s.now ∧
    (s.setShadow a b v).draws = s.draws ∧
    (s.setShadow a b v).doorbells = s.doorbells ∧
    (s.setShadow a b v).regs = s.regs ∧
    (s.setShadow a b v).dirty = s.dirty ∧
    (s.setShadow a b v).cfgA = s.cfgA ∧
    (s.setShadow a b v).cfgB = s.cfgB ∧
    (s.setShadow a b v).setOrder = s.setOrder ∧
    (s.setShadow a b v).attn = s.attn ∧
    (s.setShadow a b v).frame = s.frame ∧
    (s.setShadow a b v).tenants = s.tenants ∧
    (s.setShadow a b v).engines = s.engines ∧
    (s.setShadow a b v).bears = s.bears ∧
    (s.setShadow a b v).jays = s.jays ∧
    (s.setShadow a b v).fronts = s.fronts ∧
    (s.setShadow a b v).cores = s.cores ∧
    (s.setShadow a b v).slotsPeak = s.slotsPeak ∧
    (s.setShadow a b v).dram = s.dram ∧
    (s.setShadow a b v).links = s.links ∧
    (s.setShadow a b v).cascade = s.cascade ∧
    (s.setShadow a b v).lynx = s.lynx ∧
    (s.setShadow a b v).clock = s.clock ∧
    (s.setShadow a b v).power = s.power ∧
    (s.setShadow a b v).fault = s.fault ∧
    (s.setShadow a b v).owl = s.owl ∧
    (s.setShadow a b v).cal = s.cal ∧
    (s.setShadow a b v).jtag = s.jtag :=
  ⟨rfl, rfl, rfl, rfl, rfl, rfl, rfl, rfl, rfl, rfl, rfl, rfl, rfl, rfl, rfl, rfl, rfl, rfl, rfl, rfl, rfl, rfl, rfl, rfl, rfl, rfl, rfl, rfl, rfl⟩

@[simp] theorem State.setShadow_reads (s : State) (a b v : Nat) :
    (∀ (t : Fin 16), (s.setShadow a b v).tenant t = s.tenant t) ∧
    (∀ (t : Fin 16) (q : Fin 8), (s.setShadow a b v).queue t q = s.queue t q) ∧
    (∀ (p o : Nat), (s.setShadow a b v).live p o = s.live p o) ∧
    (s.setShadow a b v).held = s.held ∧
    (s.setShadow a b v).isReady = s.isReady ∧
    (s.setShadow a b v).inFault = s.inFault ∧
    (s.setShadow a b v).halted = s.halted ∧
    (s.setShadow a b v).stopped = s.stopped ∧
    (s.setShadow a b v).det = s.det ∧
    (s.setShadow a b v).role = s.role ∧
    (s.setShadow a b v).period = s.period ∧
    (∀ (k : Nat), (s.setShadow a b v).deadlineAt k = s.deadlineAt k) ∧
    (s.setShadow a b v).ctrlPort = s.ctrlPort ∧
    (∀ (t : Fin 16), (s.setShadow a b v).ownerOf t = s.ownerOf t) ∧
    (∀ (t : Fin 16), (s.setShadow a b v).enabled t = s.enabled t) ∧
    (∀ (k : UnitKind) (n : Nat), (s.setShadow a b v).usable k n = s.usable k n) ∧
    (∀ (n : Nat), (s.setShadow a b v).core n = s.core n) ∧
    (∀ (n : Nat), (s.setShadow a b v).link n = s.link n) ∧
    (∀ (n : Nat), (s.setShadow a b v).bear n = s.bear n) ∧
    (∀ (n : Nat), (s.setShadow a b v).jay n = s.jay n) ∧
    (∀ (x : Port), (s.setShadow a b v).cfg x = s.cfg x) ∧
    (∀ (x : Port), (s.setShadow a b v).portUp x = s.portUp x) ∧
    (∀ (w : Writer), (s.setShadow a b v).isCtl w = s.isCtl w) ∧
    (∀ (c : Channel), (s.setShadow a b v).box c = s.box c) ∧
    (s.setShadow a b v).pkgId = s.pkgId :=
  ⟨fun _ => rfl, fun _ _ => rfl, fun _ _ => rfl, rfl, rfl, rfl, rfl, rfl, rfl, rfl, rfl, fun _ => rfl, rfl, fun _ => rfl, fun _ => rfl, fun _ _ => rfl, fun _ => rfl, fun _ => rfl, fun _ => rfl, fun _ => rfl, fun _ => rfl, fun _ => rfl, fun _ => rfl, fun _ => rfl, rfl⟩

@[simp] theorem settle_fields (s : State) :
    (settle s).pending = s.pending ∧
    (settle s).chip = s.chip ∧
    (settle s).now = s.now ∧
    (settle s).draws = s.draws ∧
    (settle s).doorbells = s.doorbells ∧
    (settle s).regs = s.regs ∧
    (settle s).shadow = s.shadow ∧
    (settle s).dirty = s.dirty ∧
    (settle s).cfgA = s.cfgA ∧
    (settle s).cfgB = s.cfgB ∧
    (settle s).setOrder = s.setOrder ∧
    (settle s).frame = s.frame ∧
    (settle s).engines = s.engines ∧
    (settle s).bears = s.bears ∧
    (settle s).jays = s.jays ∧
    (settle s).fronts = s.fronts ∧
    (settle s).cores = s.cores ∧
    (settle s).slotsPeak = s.slotsPeak ∧
    (settle s).dram = s.dram ∧
    (settle s).links = s.links ∧
    (settle s).cascade = s.cascade ∧
    (settle s).lynx = s.lynx ∧
    (settle s).clock = s.clock ∧
    (settle s).power = s.power ∧
    (settle s).fault = s.fault ∧
    (settle s).owl = s.owl ∧
    (settle s).cal = s.cal ∧
    (settle s).jtag = s.jtag :=
  ⟨rfl, rfl, rfl, rfl, rfl, rfl, rfl, rfl, rfl, rfl, rfl, rfl, rfl, rfl, rfl, rfl, rfl, rfl, rfl, rfl, rfl, rfl, rfl, rfl, rfl, rfl, rfl, rfl⟩

@[simp] theorem settle_reads (s : State) :
    (∀ (p o : Nat), (settle s).live p o = s.live p o) ∧
    (∀ (p o : Nat), (settle s).shadowOf p o = s.shadowOf p o) ∧
    (settle s).held = s.held ∧
    (settle s).isReady = s.isReady ∧
    (settle s).inFault = s.inFault ∧
    (settle s).halted = s.halted ∧
    (settle s).stopped = s.stopped ∧
    (settle s).det = s.det ∧
    (settle s).role = s.role ∧
    (settle s).period = s.period ∧
    (∀ (k : Nat), (settle s).deadlineAt k = s.deadlineAt k) ∧
    (settle s).ctrlPort = s.ctrlPort ∧
    (∀ (t : Fin 16), (settle s).ownerOf t = s.ownerOf t) ∧
    (∀ (t : Fin 16), (settle s).enabled t = s.enabled t) ∧
    (∀ (k : UnitKind) (n : Nat), (settle s).usable k n = s.usable k n) ∧
    (∀ (n : Nat), (settle s).core n = s.core n) ∧
    (∀ (n : Nat), (settle s).link n = s.link n) ∧
    (∀ (n : Nat), (settle s).bear n = s.bear n) ∧
    (∀ (n : Nat), (settle s).jay n = s.jay n) ∧
    (∀ (x : Port), (settle s).cfg x = s.cfg x) ∧
    (∀ (x : Port), (settle s).portUp x = s.portUp x) ∧
    (∀ (w : Writer), (settle s).isCtl w = s.isCtl w) ∧
    (∀ (c : Channel), (settle s).box c = s.box c) ∧
    (settle s).pkgId = s.pkgId :=
  ⟨fun _ _ => rfl, fun _ _ => rfl, rfl, rfl, rfl, rfl, rfl, rfl, rfl, rfl, fun _ => rfl, rfl, fun _ => rfl, fun _ => rfl, fun _ _ => rfl, fun _ => rfl, fun _ => rfl, fun _ => rfl, fun _ => rfl, fun _ => rfl, fun _ => rfl, fun _ => rfl, fun _ => rfl, rfl⟩

/-! ### What an update makes of its part -/

@[simp] theorem State.updFrame_frame (s : State) (f : Frame → Frame) : (s.updFrame f).frame = f s.frame := rfl
@[simp] theorem State.updClock_clock (s : State) (f : Clock → Clock) : (s.updClock f).clock = f s.clock := rfl
@[simp] theorem State.updPower_power (s : State) (f : Power → Power) : (s.updPower f).power = f s.power := rfl
@[simp] theorem State.updOwl_owl (s : State) (f : Owl → Owl) : (s.updOwl f).owl = f s.owl := rfl
@[simp] theorem State.updLynx_lynx (s : State) (f : Lynx → Lynx) : (s.updLynx f).lynx = f s.lynx := rfl
@[simp] theorem State.updCascade_cascade (s : State) (f : Cascade → Cascade) : (s.updCascade f).cascade = f s.cascade := rfl
@[simp] theorem State.updCal_cal (s : State) (f : Calendar → Calendar) : (s.updCal f).cal = f s.cal := rfl
@[simp] theorem State.updFault_fault (s : State) (f : PkgFault → PkgFault) : (s.updFault f).fault = f s.fault := rfl
@[simp] theorem State.updDram_dram (s : State) (f : Dram → Dram) : (s.updDram f).dram = f s.dram := rfl
@[simp] theorem State.updAttn_attn (s : State) (f : Attn → Attn) : (s.updAttn f).attn = f s.attn := rfl
@[simp] theorem State.draw_draws (s : State) : s.draw.draws = s.draws + 1 := rfl

@[simp] theorem State.tenant_updTenant_self (s : State) (t : Fin 16) (f : Tenant → Tenant) :
    (s.updTenant t f).tenant t = f (s.tenant t) := Bank.at'_upd_self _ _ _

@[simp] theorem State.tenant_updTenant_ne (s : State) {t u : Fin 16} (h : t ≠ u) (f : Tenant → Tenant) :
    (s.updTenant t f).tenant u = s.tenant u := Bank.at'_upd_ne _ h _

@[simp] theorem State.tenant_updWorld_self (s : State) (t : Fin 16) (f : World → World) :
    (s.updWorld t f).tenant t = { s.tenant t with world := f (s.tenant t).world } := s.tenant_updTenant_self t _

@[simp] theorem State.tenant_updWorld_ne (s : State) {t u : Fin 16} (h : t ≠ u) (f : World → World) :
    (s.updWorld t f).tenant u = s.tenant u := s.tenant_updTenant_ne h _

@[simp] theorem State.tenant_updSearch_self (s : State) (t : Fin 16) (f : Search → Search) :
    (s.updSearch t f).tenant t = { s.tenant t with search := f (s.tenant t).search } := s.tenant_updTenant_self t _

@[simp] theorem State.tenant_updSearch_ne (s : State) {t u : Fin 16} (h : t ≠ u) (f : Search → Search) :
    (s.updSearch t f).tenant u = s.tenant u := s.tenant_updTenant_ne h _

@[simp] theorem State.tenant_updTable_self (s : State) (t : Fin 16) (f : Table → Table) :
    (s.updTable t f).tenant t = { s.tenant t with table := f (s.tenant t).table } := s.tenant_updTenant_self t _

@[simp] theorem State.tenant_updTable_ne (s : State) {t u : Fin 16} (h : t ≠ u) (f : Table → Table) :
    (s.updTable t f).tenant u = s.tenant u := s.tenant_updTenant_ne h _

@[simp] theorem State.tenant_updSolver_self (s : State) (t : Fin 16) (f : Solver → Solver) :
    (s.updSolver t f).tenant t = { s.tenant t with solver := f (s.tenant t).solver } := s.tenant_updTenant_self t _

@[simp] theorem State.tenant_updSolver_ne (s : State) {t u : Fin 16} (h : t ≠ u) (f : Solver → Solver) :
    (s.updSolver t f).tenant u = s.tenant u := s.tenant_updTenant_ne h _

@[simp] theorem State.tenant_updSel_self (s : State) (t : Fin 16) (f : Selection → Selection) :
    (s.updSel t f).tenant t = { s.tenant t with sel := f (s.tenant t).sel } := s.tenant_updTenant_self t _

@[simp] theorem State.tenant_updSel_ne (s : State) {t u : Fin 16} (h : t ≠ u) (f : Selection → Selection) :
    (s.updSel t f).tenant u = s.tenant u := s.tenant_updTenant_ne h _

@[simp] theorem State.tenant_updSched_self (s : State) (t : Fin 16) (f : Sched → Sched) :
    (s.updSched t f).tenant t = { s.tenant t with sched := f (s.tenant t).sched } := s.tenant_updTenant_self t _

@[simp] theorem State.tenant_updSched_ne (s : State) {t u : Fin 16} (h : t ≠ u) (f : Sched → Sched) :
    (s.updSched t f).tenant u = s.tenant u := s.tenant_updTenant_ne h _

@[simp] theorem State.tenant_updOut_self (s : State) (t : Fin 16) (f : Outcome → Outcome) :
    (s.updOut t f).tenant t = { s.tenant t with out := f (s.tenant t).out } := s.tenant_updTenant_self t _

@[simp] theorem State.tenant_updOut_ne (s : State) {t u : Fin 16} (h : t ≠ u) (f : Outcome → Outcome) :
    (s.updOut t f).tenant u = s.tenant u := s.tenant_updTenant_ne h _

@[simp] theorem State.tenant_updSpoor_self (s : State) (t : Fin 16) (f : Spoor → Spoor) :
    (s.updSpoor t f).tenant t = { s.tenant t with spoor := f (s.tenant t).spoor } := s.tenant_updTenant_self t _

@[simp] theorem State.tenant_updSpoor_ne (s : State) {t u : Fin 16} (h : t ≠ u) (f : Spoor → Spoor) :
    (s.updSpoor t f).tenant u = s.tenant u := s.tenant_updTenant_ne h _

@[simp] theorem State.tenant_updQueue_self (s : State) (t : Fin 16) (q : Fin 8) (f : Queue → Queue) :
    (s.updQueue t q f).tenant t = { s.tenant t with queues := (s.tenant t).queues.upd q f } := s.tenant_updTenant_self t _

@[simp] theorem State.tenant_updQueue_ne (s : State) {t u : Fin 16} (h : t ≠ u) (q : Fin 8) (f : Queue → Queue) :
    (s.updQueue t q f).tenant u = s.tenant u := s.tenant_updTenant_ne h _

@[simp] theorem State.queue_updQueue_self (s : State) (t : Fin 16) (q : Fin 8) (f : Queue → Queue) :
    (s.updQueue t q f).queue t q = f (s.queue t q) := by
  unfold State.queue
  rw [State.tenant_updQueue_self]
  exact Bank.at'_upd_self _ _ _

theorem State.queue_updQueue_ne (s : State) (t : Fin 16) {q r : Fin 8} (h : q ≠ r) (f : Queue → Queue) :
    (s.updQueue t q f).queue t r = s.queue t r := by
  unfold State.queue
  rw [State.tenant_updQueue_self]
  exact Bank.at'_upd_ne _ h _

@[simp] theorem State.queue_updTenant (s : State) (t : Fin 16) (q : Fin 8) (f : Tenant → Tenant) :
    (s.updTenant t f).queue t q = (f (s.tenant t)).queues.at' q := by
  unfold State.queue
  rw [State.tenant_updTenant_self]

theorem bget_bupd_self {α : Type} {n : Nat} (d : α) (b : Bank α n) {i : Nat} (h : i < n) (f : α → α) :
    bget d (bupd b i f) i = f (bget d b i) := by
  simp [bget, bupd, h]

theorem bget_bupd_ne {α : Type} {n : Nat} (d : α) (b : Bank α n) {i j : Nat} (h : i ≠ j) (f : α → α) :
    bget d (bupd b i f) j = bget d b j := by
  unfold bget bupd
  split
  · split
    · exact Bank.at'_upd_ne _ (fun e => h (congrArg Fin.val e)) _
    · rfl
  · rfl

@[simp] theorem State.core_updCore_self (s : State) {i : Nat} (h : i < 48) (f : Core → Core) :
    (s.updCore i f).core i = f (s.core i) := bget_bupd_self _ _ h _

theorem State.core_updCore_ne (s : State) {i j : Nat} (h : i ≠ j) (f : Core → Core) :
    (s.updCore i f).core j = s.core j := bget_bupd_ne _ _ h _

@[simp] theorem State.bear_updBear_self (s : State) {i : Nat} (h : i < 2) (f : BearUnit → BearUnit) :
    (s.updBear i f).bear i = f (s.bear i) := bget_bupd_self _ _ h _

theorem State.bear_updBear_ne (s : State) {i j : Nat} (h : i ≠ j) (f : BearUnit → BearUnit) :
    (s.updBear i f).bear j = s.bear j := bget_bupd_ne _ _ h _

@[simp] theorem State.jay_updJay_self (s : State) {i : Nat} (h : i < 4) (f : JayUnit → JayUnit) :
    (s.updJay i f).jay i = f (s.jay i) := bget_bupd_self _ _ h _

theorem State.jay_updJay_ne (s : State) {i j : Nat} (h : i ≠ j) (f : JayUnit → JayUnit) :
    (s.updJay i f).jay j = s.jay j := bget_bupd_ne _ _ h _

@[simp] theorem State.link_updLink_self (s : State) {i : Nat} (h : i < 8) (f : Link → Link) :
    (s.updLink i f).link i = f (s.link i) := bget_bupd_self _ _ h _

theorem State.link_updLink_ne (s : State) {i j : Nat} (h : i ≠ j) (f : Link → Link) :
    (s.updLink i f).link j = s.link j := bget_bupd_ne _ _ h _

@[simp] theorem State.cfg_updCfg_self (s : State) (p : Port) (f : PortCfg → PortCfg) : (s.updCfg p f).cfg p = f (s.cfg p) := by
  cases p <;> rfl

theorem State.cfg_updCfg_ne (s : State) {p q : Port} (h : p ≠ q) (f : PortCfg → PortCfg) : (s.updCfg p f).cfg q = s.cfg q := by
  cases p <;> cases q <;> first | rfl | exact absurd rfl h

/-! ### Settling -/

/-- Settling changes a tenant only in its edge detectors. -/
theorem settle_tenant (s : State) (t : Fin 16) :
    (settle s).tenant t = { s.tenant t with sched := (s.tenant t).sched.watch s.attn s.settledAttn } := by
  simp [settle, State.tenant, Bank.at']

@[simp] theorem settle_tenant_fields (s : State) (t : Fin 16) :
    ((settle s).tenant t).state = (s.tenant t).state ∧
    ((settle s).tenant t).holdPending = (s.tenant t).holdPending ∧
    ((settle s).tenant t).releasePending = (s.tenant t).releasePending ∧
    ((settle s).tenant t).enabling = (s.tenant t).enabling ∧
    ((settle s).tenant t).cause = (s.tenant t).cause ∧
    ((settle s).tenant t).resets = (s.tenant t).resets ∧
    ((settle s).tenant t).faults = (s.tenant t).faults ∧
    ((settle s).tenant t).world = (s.tenant t).world ∧
    ((settle s).tenant t).search = (s.tenant t).search ∧
    ((settle s).tenant t).table = (s.tenant t).table ∧
    ((settle s).tenant t).solver = (s.tenant t).solver ∧
    ((settle s).tenant t).sel = (s.tenant t).sel ∧
    ((settle s).tenant t).out = (s.tenant t).out ∧
    ((settle s).tenant t).spoor = (s.tenant t).spoor ∧
    ((settle s).tenant t).queues = (s.tenant t).queues ∧
    ((settle s).tenant t).cmds = (s.tenant t).cmds ∧
    ((settle s).tenant t).delivering = (s.tenant t).delivering ∧
    ((settle s).tenant t).backlog = (s.tenant t).backlog ∧
    ((settle s).tenant t).pubRing = (s.tenant t).pubRing ∧
    ((settle s).tenant t).witnessRing = (s.tenant t).witnessRing := by
  rw [settle_tenant]
  exact ⟨rfl, rfl, rfl, rfl, rfl, rfl, rfl, rfl, rfl, rfl, rfl, rfl, rfl, rfl, rfl, rfl, rfl, rfl, rfl, rfl⟩

@[simp] theorem settle_sched_fields (s : State) (t : Fin 16) :
    ((settle s).tenant t).sched.slotA = (s.tenant t).sched.slotA ∧
    ((settle s).tenant t).sched.slotB = (s.tenant t).sched.slotB ∧
    ((settle s).tenant t).sched.activeB = (s.tenant t).sched.activeB ∧
    ((settle s).tenant t).sched.activate = (s.tenant t).sched.activate ∧
    ((settle s).tenant t).sched.running = (s.tenant t).sched.running ∧
    ((settle s).tenant t).sched.nextFetch = (s.tenant t).sched.nextFetch ∧
    ((settle s).tenant t).sched.tasks = (s.tenant t).sched.tasks ∧
    ((settle s).tenant t).sched.released = (s.tenant t).sched.released ∧
    ((settle s).tenant t).sched.retired = (s.tenant t).sched.retired ∧
    ((settle s).tenant t).sched.cancelled = (s.tenant t).sched.cancelled ∧
    ((settle s).tenant t).sched.flags = (s.tenant t).sched.flags ∧
    ((settle s).tenant t).sched.timers = (s.tenant t).sched.timers ∧
    ((settle s).tenant t).sched.signal = (s.tenant t).sched.signal ∧
    ((settle s).tenant t).sched.abortCode = (s.tenant t).sched.abortCode ∧
    ((settle s).tenant t).sched.deadEdges = (s.tenant t).sched.deadEdges ∧
    ((settle s).tenant t).sched.waitTimeouts = (s.tenant t).sched.waitTimeouts ∧
    ((settle s).tenant t).sched.shape = (s.tenant t).sched.shape ∧
    ((settle s).tenant t).sched.shapeNext = (s.tenant t).sched.shapeNext := by
  rw [settle_tenant]
  exact ⟨rfl, rfl, rfl, rfl, rfl, rfl, rfl, rfl, rfl, rfl, rfl, rfl, rfl, rfl, rfl, rfl, rfl, rfl⟩

@[simp] theorem settle_queue (s : State) (t : Fin 16) (q : Fin 8) : (settle s).queue t q = s.queue t q := by
  unfold State.queue
  rw [settle_tenant]

theorem Attn.advance_keeps (a : Attn) (page n : Nat) :
    (a.advance page n).latch = a.latch ∧ (a.advance page n).mask = a.mask ∧ (a.advance page n).errCount = a.errCount ∧
    (a.advance page n).lastResult = a.lastResult ∧ (a.advance page n).pageCtrl = a.pageCtrl := by
  unfold Attn.advance
  split
  · exact ⟨rfl, rfl, rfl, rfl, rfl⟩
  · split <;> exact ⟨rfl, rfl, rfl, rfl, rfl⟩

theorem Attn.setLatch_keeps (a : Attn) (page : Nat) (raw : Word) :
    (a.setLatch page raw).mask = a.mask ∧ (a.setLatch page raw).errCount = a.errCount ∧
    (a.setLatch page raw).lastResult = a.lastResult ∧ (a.setLatch page raw).pageCtrl = a.pageCtrl := by
  unfold Attn.setLatch
  dsimp only
  split
  · exact ⟨rfl, rfl, rfl, rfl⟩
  · have h := fun b : Attn => b.advance_keeps page
    exact ⟨(h _ _).2.1, (h _ _).2.2.1, (h _ _).2.2.2.1, (h _ _).2.2.2.2⟩

theorem Attn.setLevel_keeps (a : Attn) (page : Nat) (lvl : Word) :
    (a.setLevel page lvl).mask = a.mask ∧ (a.setLevel page lvl).errCount = a.errCount ∧
    (a.setLevel page lvl).lastResult = a.lastResult ∧ (a.setLevel page lvl).pageCtrl = a.pageCtrl := by
  unfold Attn.setLevel
  dsimp only
  split
  · exact ⟨rfl, rfl, rfl, rfl⟩
  · have h := fun b : Attn => b.advance_keeps page
    exact ⟨(h _ _).2.1, (h _ _).2.2.1, (h _ _).2.2.2.1, (h _ _).2.2.2.2⟩

/-- Settling keeps the masks, the error counts, the last results and the page controls. -/
@[simp] theorem settle_attn_keeps (s : State) :
    (settle s).attn.mask = s.attn.mask ∧ (settle s).attn.errCount = s.attn.errCount ∧
    (settle s).attn.lastResult = s.attn.lastResult ∧ (settle s).attn.pageCtrl = s.attn.pageCtrl := by
  show s.settledAttn.mask = _ ∧ s.settledAttn.errCount = _ ∧ s.settledAttn.lastResult = _ ∧ s.settledAttn.pageCtrl = _
  unfold State.settledAttn Attn.advanceAll
  dsimp only
  generalize watchedPages = l
  generalize s.attn = a
  induction l generalizing a with
  | nil => exact ⟨rfl, rfl, rfl, rfl⟩
  | cons p r ih =>
    have h1 := a.setLatch_keeps p (s.attnRaw p)
    have h2 := (a.setLatch p (s.attnRaw p)).setLevel_keeps p (s.wmarkLevel p)
    have h3 := ih ((a.setLatch p (s.attnRaw p)).setLevel p (s.wmarkLevel p))
    simp only [List.foldl_cons]
    exact ⟨h3.1.trans (h2.1.trans h1.1), h3.2.1.trans (h2.2.1.trans h1.2.1), h3.2.2.1.trans (h2.2.2.1.trans h1.2.2.1),
      h3.2.2.2.trans (h2.2.2.2.trans h1.2.2.2)⟩

/-- A latch bit that is 1 stays 1 when any page's latch is set, and the bits of the page's conditions become 1. -/
theorem Attn.setLatch_latch (a : Attn) (page : Nat) (raw : Word) (p i : Nat)
    (h : (mget 0 a.latch p).getLsbD i = true ∨ p = page ∧ raw.getLsbD i = true) :
    (mget 0 (a.setLatch page raw).latch p).getLsbD i = true := by
  unfold Attn.setLatch
  dsimp only
  split
  · rename_i hr
    rcases h with h | ⟨rfl, h⟩
    · exact h
    · have := congrArg (fun w : Word => w.getLsbD i) hr
      have hi : i < 32 := BitVec.lt_of_getLsbD h
      simpa [h, hi] using this
  · rename_i hr
    rw [(Attn.advance_keeps _ _ _).1]
    have hv : mget 0 a.latch page ||| raw ≠ 0 := fun e => hr (by
      have := BitVec.or_eq_zero_iff.mp e
      rw [this.2]; simp)
    by_cases e : p = page
    · subst e
      rw [mget_mset_same _ _ _ hv, BitVec.getLsbD_or]
      rcases h with h | h <;> simp_all
    · rw [mget_mset_other _ _ e hv]
      rcases h with h | h
      · exact h
      · exact absurd h.1 e

/-- Settling keeps every latch bit that is 1. -/
theorem settle_latch (s : State) (p i : Nat) (h : (mget 0 s.attn.latch p).getLsbD i = true) :
    (mget 0 (settle s).attn.latch p).getLsbD i = true := by
  show (mget 0 s.settledAttn.latch p).getLsbD i = true
  unfold State.settledAttn
  dsimp only
  have hf : ∀ (l : List Nat) (a : Attn), (mget 0 a.latch p).getLsbD i = true →
      (mget 0 (l.foldl (fun a p => (a.setLatch p (s.attnRaw p)).setLevel p (s.wmarkLevel p)) a).latch p).getLsbD i = true := by
    intro l
    induction l with
    | nil => exact fun a h => h
    | cons x r ih =>
      intro a h
      refine ih _ ?_
      have hl : ∀ (b : Attn) n, (b.setLevel x n).latch = b.latch := fun b n => by
        unfold Attn.setLevel
        dsimp only
        split
        · rfl
        · rw [(Attn.advance_keeps _ _ _).1]
      rw [hl]
      exact Attn.setLatch_latch _ _ _ _ _ (Or.inl h)
  have := hf watchedPages s.attn h
  unfold Attn.advanceAll
  exact this

end Sys2Proof.Machine
end

