-- ==== Sys2Proof/Laws/Parts.lean ====
section
/-! SUPPORT. What `Touches` says of each part it leaves alone, in the fields of the part. -/
namespace Sys2Proof.Machine
open Sys2Proof

variable {l : List Part} {s t : State}

theorem Touches.pending (h : Touches l s t) (hp : l.contains .pending = false := by decide) : t.pending = s.pending := ((h .pending).1 hp).1
theorem Touches.chip (h : Touches l s t) (hp : l.contains .chip = false := by decide) : t.chip = s.chip := ((h .chip).1 hp).1
theorem Touches.now (h : Touches l s t) (hp : l.contains .now = false := by decide) : t.now = s.now := ((h .now).1 hp).1
theorem Touches.draws (h : Touches l s t) (hp : l.contains .draws = false := by decide) : t.draws = s.draws := ((h .draws).1 hp).1
theorem Touches.doorbells (h : Touches l s t) (hp : l.contains .doorbells = false := by decide) : t.doorbells = s.doorbells := ((h .doorbells).1 hp).1
theorem Touches.regs (h : Touches l s t) (hp : l.contains .regs = false := by decide) : t.regs = s.regs := ((h .regs).1 hp).1
theorem Touches.shadow (h : Touches l s t) (hp : l.contains .shadow = false := by decide) : t.shadow = s.shadow := ((h .shadow).1 hp).1
theorem Touches.dirty (h : Touches l s t) (hp : l.contains .dirty = false := by decide) : t.dirty = s.dirty := ((h .dirty).1 hp).1
theorem Touches.cfgA (h : Touches l s t) (hp : l.contains .cfgA = false := by decide) : t.cfgA = s.cfgA := ((h .cfgA).1 hp).1
theorem Touches.cfgB (h : Touches l s t) (hp : l.contains .cfgB = false := by decide) : t.cfgB = s.cfgB := ((h .cfgB).1 hp).1
theorem Touches.setOrder (h : Touches l s t) (hp : l.contains .setOrder = false := by decide) : t.setOrder = s.setOrder := ((h .setOrder).1 hp).1
theorem Touches.attn (h : Touches l s t) (hp : l.contains .attn = false := by decide) : t.attn = s.attn := ((h .attn).1 hp).1
theorem Touches.engines (h : Touches l s t) (hp : l.contains .engines = false := by decide) : t.engines = s.engines := ((h .engines).1 hp).1
theorem Touches.bears (h : Touches l s t) (hp : l.contains .bears = false := by decide) : t.bears = s.bears := ((h .bears).1 hp).1
theorem Touches.jays (h : Touches l s t) (hp : l.contains .jays = false := by decide) : t.jays = s.jays := ((h .jays).1 hp).1
theorem Touches.fronts (h : Touches l s t) (hp : l.contains .fronts = false := by decide) : t.fronts = s.fronts := ((h .fronts).1 hp).1
theorem Touches.cores (h : Touches l s t) (hp : l.contains .cores = false := by decide) : t.cores = s.cores := ((h .cores).1 hp).1
theorem Touches.slotsPeak (h : Touches l s t) (hp : l.contains .slotsPeak = false := by decide) : t.slotsPeak = s.slotsPeak := ((h .slotsPeak).1 hp).1
theorem Touches.dram (h : Touches l s t) (hp : l.contains .dram = false := by decide) : t.dram = s.dram := ((h .dram).1 hp).1
theorem Touches.links (h : Touches l s t) (hp : l.contains .links = false := by decide) : t.links = s.links := ((h .links).1 hp).1
theorem Touches.cascade (h : Touches l s t) (hp : l.contains .cascade = false := by decide) : t.cascade = s.cascade := ((h .cascade).1 hp).1
theorem Touches.lynx (h : Touches l s t) (hp : l.contains .lynx = false := by decide) : t.lynx = s.lynx := ((h .lynx).1 hp).1
theorem Touches.clock (h : Touches l s t) (hp : l.contains .clock = false := by decide) : t.clock = s.clock := ((h .clock).1 hp).1
theorem Touches.power (h : Touches l s t) (hp : l.contains .power = false := by decide) : t.power = s.power := ((h .power).1 hp).1
theorem Touches.fault (h : Touches l s t) (hp : l.contains .fault = false := by decide) : t.fault = s.fault := ((h .fault).1 hp).1
theorem Touches.cal (h : Touches l s t) (hp : l.contains .cal = false := by decide) : t.cal = s.cal := ((h .cal).1 hp).1
theorem Touches.jtag (h : Touches l s t) (hp : l.contains .jtag = false := by decide) : t.jtag = s.jtag := ((h .jtag).1 hp).1
theorem Touches.tState (h : Touches l s t) (k : Fin 16) (hp : l.contains .tState = false := by decide) :
    (t.tenant k).state = (s.tenant k).state ∧ (t.tenant k).holdPending = (s.tenant k).holdPending ∧ (t.tenant k).releasePending = (s.tenant k).releasePending ∧
    (t.tenant k).enabling = (s.tenant k).enabling ∧ (t.tenant k).cause = (s.tenant k).cause ∧ (t.tenant k).resets = (s.tenant k).resets ∧ (t.tenant k).faults = (s.tenant k).faults ∧ (t.tenant k).unitsWord = (s.tenant k).unitsWord := ((h .tState).1 hp).2.1 k
theorem Touches.tWorld (h : Touches l s t) (k : Fin 16) (hp : l.contains .tWorld = false := by decide) :
    (t.tenant k).world = (s.tenant k).world := ((h .tWorld).1 hp).2.1 k
theorem Touches.tSearch (h : Touches l s t) (k : Fin 16) (hp : l.contains .tSearch = false := by decide) :
    (t.tenant k).search = (s.tenant k).search := ((h .tSearch).1 hp).2.1 k
theorem Touches.tTable (h : Touches l s t) (k : Fin 16) (hp : l.contains .tTable = false := by decide) :
    (t.tenant k).table = (s.tenant k).table := ((h .tTable).1 hp).2.1 k
theorem Touches.tSolver (h : Touches l s t) (k : Fin 16) (hp : l.contains .tSolver = false := by decide) :
    (t.tenant k).solver = (s.tenant k).solver := ((h .tSolver).1 hp).2.1 k
theorem Touches.tSel (h : Touches l s t) (k : Fin 16) (hp : l.contains .tSel = false := by decide) :
    (t.tenant k).sel = (s.tenant k).sel := ((h .tSel).1 hp).2.1 k
theorem Touches.tSched (h : Touches l s t) (k : Fin 16) (hp : l.contains .tSched = false := by decide) :
    (t.tenant k).sched = (s.tenant k).sched := ((h .tSched).1 hp).2.1 k
theorem Touches.tOut (h : Touches l s t) (k : Fin 16) (hp : l.contains .tOut = false := by decide) :
    (t.tenant k).out = (s.tenant k).out := ((h .tOut).1 hp).2.1 k
theorem Touches.tSpoor (h : Touches l s t) (k : Fin 16) (hp : l.contains .tSpoor = false := by decide) :
    (t.tenant k).spoor = (s.tenant k).spoor := ((h .tSpoor).1 hp).2.1 k
theorem Touches.tQueues (h : Touches l s t) (k : Fin 16) (hp : l.contains .tQueues = false := by decide) :
    (t.tenant k).queues = (s.tenant k).queues ∧ (t.tenant k).queueTurn = (s.tenant k).queueTurn := ((h .tQueues).1 hp).2.1 k
theorem Touches.tCmds (h : Touches l s t) (k : Fin 16) (hp : l.contains .tCmds = false := by decide) :
    (t.tenant k).cmds = (s.tenant k).cmds := ((h .tCmds).1 hp).2.1 k
theorem Touches.tDone (h : Touches l s t) (k : Fin 16) (hp : l.contains .tDone = false := by decide) :
    (t.tenant k).delivering = (s.tenant k).delivering ∧ (t.tenant k).backlog = (s.tenant k).backlog := ((h .tDone).1 hp).2.1 k
theorem Touches.tRings (h : Touches l s t) (k : Fin 16) (hp : l.contains .tRings = false := by decide) :
    (t.tenant k).pubRing = (s.tenant k).pubRing ∧ (t.tenant k).witnessRing = (s.tenant k).witnessRing ∧ (t.tenant k).witnessed = (s.tenant k).witnessed ∧
    (t.tenant k).witnessing = (s.tenant k).witnessing ∧ (t.tenant k).witnessNext = (s.tenant k).witnessNext ∧
    (t.tenant k).witnessMissed = (s.tenant k).witnessMissed := ((h .tRings).1 hp).2.1 k
theorem Touches.tick (h : Touches l s t) (hp : l.contains .tick = false := by decide) :
    t.frame.inFrame = s.frame.inFrame ∧ t.frame.number = s.frame.number ∧ t.frame.seq = s.frame.seq ∧ t.frame.tickAt = s.frame.tickAt ∧
    t.frame.prevTickAt = s.frame.prevTickAt ∧ t.frame.substituted = s.frame.substituted ∧ t.frame.irregular = s.frame.irregular := ((h .tick).1 hp).2.2.1
theorem Touches.passed (h : Touches l s t) (hp : l.contains .passed = false := by decide) :
    t.frame.passed = s.frame.passed := ((h .passed).1 hp).2.2.1
theorem Touches.running (h : Touches l s t) (hp : l.contains .running = false := by decide) :
    t.frame.run = s.frame.run ∧ t.frame.fresh = s.frame.fresh ∧ t.frame.runAt = s.frame.runAt ∧ t.frame.expected = s.frame.expected ∧ t.frame.resync = s.frame.resync ∧
    t.frame.timed = s.frame.timed := ((h .running).1 hp).2.2.1
theorem Touches.safe (h : Touches l s t) (hp : l.contains .safe = false := by decide) :
    t.frame.safePin = s.frame.safePin ∧ t.frame.safeDriven = s.frame.safeDriven ∧ t.frame.safeNow = s.frame.safeNow ∧ t.frame.safeLast = s.frame.safeLast := ((h .safe).1 hp).2.2.1
theorem Touches.frame (h : Touches l s t) (hp : l.contains .frame = false := by decide) :
    t.frame.guardUntil = s.frame.guardUntil ∧ t.frame.opening = s.frame.opening ∧ t.frame.masterLost = s.frame.masterLost ∧ t.frame.ftickOut = s.frame.ftickOut ∧
    t.frame.aligned = s.frame.aligned ∧ t.frame.alignedSubst = s.frame.alignedSubst ∧ t.frame.ranSinceReset = s.frame.ranSinceReset ∧ t.frame.levelAt = s.frame.levelAt ∧
    t.frame.refreshes = s.frame.refreshes ∧ t.frame.fetchTurn = s.frame.fetchTurn ∧ t.frame.together = s.frame.together := ((h .frame).1 hp).2.2.1
theorem Touches.boxes (h : Touches l s t) (hp : l.contains .boxes = false := by decide) :
    t.owl.boxes = s.owl.boxes ∧ t.owl.order = s.owl.order := ((h .boxes).1 hp).2.2.2
theorem Touches.firmware (h : Touches l s t) (hp : l.contains .firmware = false := by decide) :
    t.owl.bankA = s.owl.bankA ∧ t.owl.bankB = s.owl.bankB ∧ t.owl.activeB = s.owl.activeB ∧ t.owl.trial = s.owl.trial ∧
    t.owl.trialBooted = s.owl.trialBooted ∧ t.owl.session = s.owl.session ∧ t.owl.fwResult = s.owl.fwResult ∧ t.owl.rollback = s.owl.rollback ∧
    t.owl.runningVersion = s.owl.runningVersion ∧ t.owl.runningRollback = s.owl.runningRollback ∧ t.owl.sramImage = s.owl.sramImage := ((h .firmware).1 hp).2.2.2
theorem Touches.board (h : Touches l s t) (hp : l.contains .board = false := by decide) :
    t.owl.boardStored = s.owl.boardStored ∧ t.owl.board = s.owl.board ∧ t.owl.boardDefault = s.owl.boardDefault := ((h .board).1 hp).2.2.2
theorem Touches.identity (h : Touches l s t) (hp : l.contains .identity = false := by decide) :
    t.owl.fences = s.owl.fences ∧ t.owl.pairing = s.owl.pairing ∧ t.owl.changed = s.owl.changed := ((h .identity).1 hp).2.2.2
theorem Touches.log (h : Touches l s t) (hp : l.contains .log = false := by decide) :
    t.owl.buffer = s.owl.buffer ∧ t.owl.flashLog = s.owl.flashLog ∧ t.owl.nextSeq = s.owl.nextSeq ∧ t.owl.logDrops = s.owl.logDrops ∧
    t.owl.dropsPending = s.owl.dropsPending := ((h .log).1 hp).2.2.2
theorem Touches.owl (h : Touches l s t) (hp : l.contains .owl = false := by decide) :
    t.owl.counters = s.owl.counters ∧ t.owl.journal = s.owl.journal ∧ t.owl.hourSeconds = s.owl.hourSeconds ∧
    t.owl.sinceCheckpoint = s.owl.sinceCheckpoint ∧ t.owl.junctions = s.owl.junctions ∧ t.owl.rails = s.owl.rails ∧ t.owl.current = s.owl.current ∧
    t.owl.stackTemps = s.owl.stackTemps ∧ t.owl.powerNow = s.owl.powerNow ∧ t.owl.railBad = s.owl.railBad ∧ t.owl.alert = s.owl.alert ∧
    t.owl.smbData = s.owl.smbData ∧ t.owl.uartSent = s.owl.uartSent := ((h .owl).1 hp).2.2.2

/-- A register read is the same where the register file is. -/
theorem Touches.live (h : Touches l s t) (p o : Nat) (hp : l.contains .regs = false := by decide)
    (hc : l.contains .chip = false := by decide) : t.live p o = s.live p o := by
  simp [State.live, h.regs hp, h.chip hc]
/-- Time never runs back. -/
theorem Touches.now_le (h : Touches l s t) : s.now ≤ t.now := (h .now).2

end Sys2Proof.Machine
end

