-- ==== Sys2Proof/Laws/Beaver.lean ====
section
/-! SUPPORT. What the ends of tasks leave as they were: a core runs on or halts, programs, timers and signals stand, and a task that has
retired or been cancelled stays so. -/
namespace Sys2Proof.Machine
open Sys2Proof

/-- One tenant's scheduling went on: what the end of a task never takes back. -/
structure Sched.Grows (d e : Sched) : Prop where
  slotA : e.slotA = d.slotA
  slotB : e.slotB = d.slotB
  activeB : e.activeB = d.activeB
  activate : e.activate = d.activate
  timers : e.timers = d.timers
  timerSeq : e.timerSeq = d.timerSeq
  signal : e.signal = d.signal
  running : e.running = d.running ∨ e.running = false
  nextFetch : e.nextFetch = d.nextFetch
  waitTimeouts : e.waitTimeouts = d.waitTimeouts
  detectors : e.detectors = d.detectors
  retired : ∀ i ∈ d.retired, i ∈ e.retired
  cancelled : ∀ i ∈ d.cancelled, i ∈ e.cancelled

theorem Sched.Grows.refl (d : Sched) : d.Grows d :=
  ⟨rfl, rfl, rfl, rfl, rfl, rfl, rfl, .inl rfl, rfl, rfl, rfl, fun _ h => h, fun _ h => h⟩

theorem Sched.Grows.trans {d e f : Sched} (h : d.Grows e) (k : e.Grows f) : d.Grows f :=
  ⟨k.slotA.trans h.slotA, k.slotB.trans h.slotB, k.activeB.trans h.activeB, k.activate.trans h.activate,
    k.timers.trans h.timers, k.timerSeq.trans h.timerSeq, k.signal.trans h.signal, k.running.elim (fun e => h.running.elim (fun g => .inl (e.trans g)) fun g => .inr (e.trans g)) .inr,
    k.nextFetch.trans h.nextFetch, k.waitTimeouts.trans h.waitTimeouts, k.detectors.trans h.detectors,
    fun i hi => k.retired i (h.retired i hi), fun i hi => k.cancelled i (h.cancelled i hi)⟩

/-- Tasks went on: every core runs what it ran or has halted, every tenant's scheduling grew, and the frame differs in SAFE_STATE alone. -/
structure Moves (s s' : State) : Prop where
  run : ∀ c, (s'.core c).run = (s.core c).run ∨ (s'.core c).run = none
  sched : ∀ t, (s.tenant t).sched.Grows (s'.tenant t).sched
  forced : ∀ t, (s.tenant t).out.cutForced = true → (s'.tenant t).out.cutForced = true
  frame : s'.frame = { s.frame with safePin := s'.frame.safePin, safeNow := s'.frame.safeNow }
  now : s'.now = s.now

theorem Moves.refl (s : State) : Moves s s := ⟨fun _ => .inl rfl, fun _ => Sched.Grows.refl _, fun _ h => h, rfl, rfl⟩

theorem Moves.trans {s t u : State} (h : Moves s t) (k : Moves t u) : Moves s u :=
  ⟨fun c => (k.run c).elim (fun e => (h.run c).elim (fun g => .inl (e.trans g)) fun g => .inr (e.trans g)) .inr,
    fun i => (h.sched i).trans (k.sched i), fun i hi => k.forced i (h.forced i hi), by rw [k.frame, h.frame], k.now.trans h.now⟩

theorem Moves.forEach {α : Type} {l : List α} {f : State → α → State} (h : ∀ u a, Moves u (f u a)) (s : State) :
    Moves s (s.forEach l f) := by
  unfold State.forEach
  induction l generalizing s with
  | nil => exact Moves.refl s
  | cons a r ih => exact (h s a).trans (ih (f s a))

/-- What leaves the cores, the scheduling, the outcomes, the frame and the time alone moves no task. -/
theorem Moves.of_touches {l : List Part} {s s' : State} (h : Touches l s s') (hl : ([.cores, .tSched, .tOut, .tick, .passed,
    .running, .safe, .frame, .now] : List Part).all (fun p => ! l.contains p) = true := by decide) : Moves s s' := by
  simp only [List.all_cons, List.all_nil, Bool.and_true, Bool.and_eq_true, Bool.not_eq_true'] at hl
  obtain ⟨h1, h2, h3, h4, h5, h6, h7, h8, h9⟩ := hl
  refine ⟨fun c => .inl (by simp only [State.core, h.cores h1]), fun t => ?_, fun t => ?_, ?_, h.now h9⟩
  · rw [h.tSched t h2]; exact Sched.Grows.refl _
  · rw [h.tOut t h3]; exact id
  · have a1 := h.tick h4
    have a2 := h.running h6
    have a3 := h.frame h8
    have a4 := h.passed h5
    have a5 := h.safe h7
    cases e : s'.frame
    cases e' : s.frame
    rw [e, e'] at a1 a2 a3 a4 a5
    simp_all

theorem Moves.updSched (s : State) (t : Fin 16) (f : Sched → Sched) (h : (s.tenant t).sched.Grows (f (s.tenant t).sched)) :
    Moves s (s.updSched t f) := by
  have key : ∀ k, (s.tenant k).sched.Grows ((s.updSched t f).tenant k).sched ∧
      ((s.updSched t f).tenant k).out = (s.tenant k).out := fun k => by
    by_cases e : t = k
    · subst e
      have : (s.updSched t f).tenant t = { s.tenant t with sched := f (s.tenant t).sched } := Bank.at'_upd_self _ _ _
      rw [this]
      exact ⟨h, rfl⟩
    · have : (s.updSched t f).tenant k = s.tenant k := Bank.at'_upd_ne _ e _
      rw [this]
      exact ⟨Sched.Grows.refl _, rfl⟩
  exact ⟨fun _ => .inl rfl, fun k => (key k).1, fun k hk => by rw [(key k).2]; exact hk, rfl, rfl⟩

theorem Moves.updOut (s : State) (t : Fin 16) (f : Outcome → Outcome)
    (h : (s.tenant t).out.cutForced = true → (f (s.tenant t).out).cutForced = true) : Moves s (s.updOut t f) := by
  have key : ∀ k, ((s.updOut t f).tenant k).sched = (s.tenant k).sched ∧
      ((s.tenant k).out.cutForced = true → ((s.updOut t f).tenant k).out.cutForced = true) := fun k => by
    by_cases e : t = k
    · subst e
      have : (s.updOut t f).tenant t = { s.tenant t with out := f (s.tenant t).out } := Bank.at'_upd_self _ _ _
      rw [this]
      exact ⟨rfl, h⟩
    · have : (s.updOut t f).tenant k = s.tenant k := Bank.at'_upd_ne _ e _
      rw [this]
      exact ⟨rfl, id⟩
  exact ⟨fun _ => .inl rfl, fun k => by rw [(key k).1]; exact Sched.Grows.refl _, fun k => (key k).2, rfl, rfl⟩

theorem Moves.updCore (s : State) (c : Nat) (f : Core → Core) (h : ∀ k, (f k).run = k.run) : Moves s (s.updCore c f) := by
  refine ⟨fun i => .inl ?_, fun _ => Sched.Grows.refl _, fun _ h => h, rfl, rfl⟩
  by_cases e : c = i
  · subst e
    by_cases hc : c < 48
    · rw [State.core_updCore_self _ hc, h]
    · have : (s.updCore c f) = s := by simp [State.updCore, bupd, hc]
      rw [this]
  · rw [State.core_updCore_ne _ e]

theorem Sched.Grows.updTask (d : Sched) (i : Nat) (f : Task → Task) : d.Grows (d.updTask i f) :=
  ⟨rfl, rfl, rfl, rfl, rfl, rfl, rfl, .inl rfl, rfl, rfl, rfl, fun _ h => h, fun _ h => h⟩

theorem State.trace_moves (s : State) (kind : Nat) (t : Fin 16) (i : TraceInfo) : Moves s (s.trace kind t i) := by
  exact Moves.of_touches (State.trace_touches (L := [.draws, .regs, .dram]) s kind t i (by decide) (Touches.refl _ s))

theorem State.traceTask_moves (s : State) (kind : Nat) (t : Fin 16) (i v d a : Nat) : Moves s (s.traceTask kind t i v d a) :=
  State.trace_moves _ _ _ _

theorem State.notePeak_moves (s : State) (c : Nat) : Moves s (s.notePeak c) := by
  unfold State.notePeak
  dsimp only
  split
  · have h : ∀ (p o v : Nat), Moves s (s.setLive p o v) := fun p o v =>
      Moves.of_touches (l := [.regs]) (State.setLive_touches s p o v (by decide) (Touches.refl _ s))
    exact h _ _ _
  · exact Moves.refl s

theorem State.putPart_moves (s : State) (p : PartRef) : Moves s (s.putPart p) := by
  unfold State.putPart
  split
  · refine Moves.trans ?_ (State.notePeak_moves _ _)
    exact Moves.updCore _ _ _ (fun _ => rfl)
  · exact Moves.refl s

theorem State.dropParts_moves (s : State) (t : Fin 16) (keep : PartRef → Bool) : Moves s (s.dropParts t keep) := by
  refine ⟨fun c => .inl ?_, fun _ => Sched.Grows.refl _, fun _ h => h, rfl, rfl⟩
  unfold State.dropParts State.core bget
  dsimp only
  split
  · simp [Bank.at']
  · rfl

theorem State.cut_moves (s : State) (t : Fin 16) (k : Nat) : Moves s (s.cut t k) := Moves.updOut _ _ _ id

theorem State.endTask_moves (s : State) (t : Fin 16) (i : Nat) (c : Byte) : Moves s (s.endTask t i c) :=
  Moves.updSched _ _ _ (Sched.Grows.updTask _ _ _)

/-- A tenant's work leaves the cores: its parts halt, and nothing else of the scheduling moves. -/
theorem State.dropWork_moves (s : State) (t : Fin 16) : Moves s (s.dropWork t) := by
  unfold State.dropWork
  extract_lets u cores v w x
  have hu : Moves s u := State.dropParts_moves _ _ _
  have hv : Moves u v := by
    refine ⟨fun c => ?_, fun _ => Sched.Grows.refl _, fun _ h => h, rfl, rfl⟩
    have key : ∀ k : Core, (match k.run with
        | some r => if r.part.tenant = t then u.haltCore k else k
        | none => k).run = k.run ∨ (match k.run with
        | some r => if r.part.tenant = t then u.haltCore k else k
        | none => k).run = none := fun k => by
      split
      · split
        · exact .inr rfl
        · exact .inl rfl
      · exact .inl rfl
    simp only [v, cores, State.core, bget]
    split
    · rename_i hc
      have e (f : Core → Core) (b : Bank Core 48) (i : Fin 48) : Bank.at' (Vector.map f b) i = f (b.at' i) := Vector.getElem_map _ _
      rw [e]
      exact key _
    · exact .inl rfl
  have hx : Touches [.tSearch, .tSolver, .tSel] v (x.updSel t fun w => { w with issued := [], collectives := [] }) :=
    State.updSel_touches _ _ _ (by decide) (State.updSolver_touches _ _ _ (by decide)
      (State.updSearch_touches _ _ _ (by decide) (Touches.refl _ _)))
  exact (hu.trans hv).trans (Moves.of_touches hx)

theorem State.abortTasks_moves (s : State) (t : Fin 16) (code : Byte) : Moves s (s.abortTasks t code) := by
  unfold State.abortTasks
  refine Moves.trans ?_ (Moves.updSched _ _ _
    ⟨rfl, rfl, rfl, rfl, rfl, rfl, rfl, .inr rfl, rfl, rfl, rfl, fun _ h => h, fun _ h => h⟩)
  refine Moves.trans ?_ (Moves.of_touches (State.updCascade_touches (L := [.cascade]) _ _ (by decide) (Touches.refl _ _)))
  exact (Moves.forEach (fun v _ => State.traceTask_moves v _ _ _ _ _ _) s).trans (State.dropWork_moves _ _)

theorem State.assertSafe_moves (s : State) : Moves s s.assertSafe :=
  ⟨fun _ => .inl rfl, fun _ => Sched.Grows.refl _, fun _ h => h, rfl, rfl⟩

theorem State.judgeImminent_moves (s : State) (t : Fin 16) : Moves s (s.judgeImminent t) := by
  have h (f : Outcome → Outcome) (hf : ∀ o : Outcome, (f o).cutForced = o.cutForced) : Moves s (s.updOut t f) :=
    Moves.updOut _ _ _ (by rw [hf]; exact id)
  unfold State.judgeImminent
  dsimp only
  split
  · split
    · exact Moves.trans (h (fun o => { o with imminent := true }) fun _ => rfl) (State.assertSafe_moves _)
    · exact h (fun o => { o with imminent := true }) fun _ => rfl
  · exact Moves.refl _

theorem State.failFrame_moves (s : State) (t : Fin 16) (code : Byte) : Moves s (s.failFrame t code) :=
  ((State.abortTasks_moves s t code).trans (Moves.updOut _ _ _ id)).trans (State.judgeImminent_moves _ _)

theorem State.noteCut_moves (s : State) (t : Fin 16) (k i : Nat) : Moves s (s.noteCut t k i) := by
  exact (State.cut_moves _ _ _).trans (State.traceTask_moves _ _ _ _ _ _ _)

theorem State.makeReady_moves (s : State) (t : Fin 16) (i : Nat) : Moves s (s.makeReady t i) := by
  unfold State.makeReady
  extract_lets d w
  split
  · exact Moves.refl s
  · rename_i u us v hn
    have hu : Moves s u := Moves.updSched _ _ _ (Sched.Grows.updTask _ _ _)
    have ht (v : State) := State.traceTask_moves v 2 t i 0x3F 0 0
    refine hu.trans (iteInduction (fun _ => ?_) fun _ => iteInduction (fun _ => ht u) fun _ => iteInduction (fun _ => ?_) fun _ =>
      iteInduction (fun _ => ?_) fun _ => ?_)
    · exact ((ht u).trans (State.noteCut_moves _ _ _ _)).trans (State.endTask_moves _ _ _ _)
    · exact (ht u).trans (State.endTask_moves _ _ _ _)
    · exact ((ht u).trans (State.endTask_moves _ _ _ _)).trans (State.failFrame_moves _ _ _)
    · exact (Moves.updSched _ _ _ (Sched.Grows.updTask _ _ _)).trans
        (Moves.forEach (fun v a => (State.putPart_moves _ _).trans (State.traceTask_moves _ _ _ _ _ _ _)) _)

theorem State.wakeBlocked_moves (s : State) (t : Fin 16) : Moves s (s.wakeBlocked t) :=
  Moves.forEach (fun u i => State.makeReady_moves u t i) s

theorem Sched.retire_grows (d : Sched) (i : Nat) (flag : Bool) : d.Grows (d.retire i flag) := by
  unfold Sched.retire
  dsimp only
  (repeat' split) <;>
    exact ⟨rfl, rfl, rfl, rfl, rfl, rfl, rfl, .inl rfl, rfl, rfl, rfl, fun _ h => mem_sinsert.mpr (Or.inr h), fun _ h => h⟩

theorem Sched.mem_retire (d : Sched) (i : Nat) (flag : Bool) : i ∈ (d.retire i flag).retired := by
  unfold Sched.retire
  dsimp only
  (repeat' split) <;> exact mem_sinsert.mpr (Or.inl rfl)

theorem State.retireTask_moves (s : State) (t : Fin 16) (i : Nat) (c : Byte) (flag : Bool) : Moves s (s.retireTask t i c flag) :=
  (((State.traceTask_moves s 8 t i 0x3F _ c.toNat).trans
    (Moves.of_touches (State.updCascade_touches (L := [.cascade]) _ _ (by decide) (Touches.refl _ _)))).trans
      (Moves.updSched _ _ _ (Sched.retire_grows _ i flag))).trans (State.wakeBlocked_moves _ t)

/-- A task that retires stands among the retired. -/
theorem State.retireTask_retired (s : State) (t : Fin 16) (i : Nat) (c : Byte) (flag : Bool) :
    i ∈ ((s.retireTask t i c flag).tenant t).sched.retired := by
  unfold State.retireTask
  dsimp only
  refine ((State.wakeBlocked_moves _ t).sched t).retired i ?_
  have : ∀ (u : State) (f : Sched → Sched), ((u.updSched t f).tenant t).sched = f (u.tenant t).sched := fun u f =>
    congrArg Tenant.sched (Bank.at'_upd_self u.tenants t fun n => { n with sched := f n.sched })
  rw [this]
  exact Sched.mem_retire _ _ _

theorem State.wakeWaits_moves (n : Nat) (s : State) (t : Fin 16) : Moves s (s.wakeWaits t n) := by
  induction n generalizing s with
  | zero => exact Moves.refl s
  | succ n ih =>
    unfold State.wakeWaits
    dsimp only
    split
    · exact Moves.refl s
    · refine Moves.trans ?_ (ih _)
      have h0 := State.traceTask_moves s 6 t
      split
      · exact ((h0 _ _ _ _).trans (Moves.updSched _ _ _ (Sched.Grows.updTask _ _ _))).trans (State.retireTask_moves _ _ _ _ _)
      · exact (h0 _ _ _ _).trans (Moves.updSched _ _ _ (Sched.Grows.updTask _ _ _))

theorem State.evalWaits_moves (s : State) (t : Fin 16) : Moves s (s.evalWaits t) := by
  unfold State.evalWaits
  split
  · exact Moves.refl s
  · exact State.wakeWaits_moves _ s t

theorem State.setFlag_moves (s : State) (t : Fin 16) (f : Nat) : Moves s (s.setFlag t f) :=
  (Moves.updSched _ _ _ ⟨rfl, rfl, rfl, rfl, rfl, rfl, rfl, .inl rfl, rfl, rfl, rfl, fun _ h => h, fun _ h => h⟩).trans
    (State.evalWaits_moves _ _)

theorem State.retireFree_moves (s : State) (t : Fin 16) (i : Nat) : Moves s (s.retireFree t i) := by
  unfold State.retireFree
  dsimp only
  split
  · split
    · exact State.retireTask_moves _ _ _ _ _
    · exact Moves.refl s
  · exact Moves.refl s

theorem State.tryRetire_moves (s : State) (t : Fin 16) (i : Nat) : Moves s (s.tryRetire t i) :=
  (State.retireFree_moves s t i).trans (State.evalWaits_moves _ _)

theorem State.finishTask_moves (s : State) (t : Fin 16) (i : Nat) (c : Byte) : Moves s (s.finishTask t i c) :=
  (State.endTask_moves _ _ _ _).trans (State.tryRetire_moves _ _ _)

/-- A complete task whose group allows it retires. -/
theorem State.tryRetire_retired (s : State) (t : Fin 16) (i : Nat) {k : Task} (hk : (s.tenant t).sched.task i = some k)
    (hc : k.st = .complete) (hg : (s.tenant t).sched.groupFree i = true) : i ∈ ((s.tryRetire t i).tenant t).sched.retired := by
  unfold State.tryRetire State.retireFree
  simp only [hk, hc, hg, decide_true, Bool.and_self, if_true]
  exact ((State.evalWaits_moves _ t).sched t).retired i (State.retireTask_retired _ _ _ _ _)

end Sys2Proof.Machine
end

