-- ==== Sys2Proof/Laws/Views.lean ====
section
/-! SUPPORT. What a unit's loss leaves as it was: the views of every unit. -/
namespace Sys2Proof.Machine
open Sys2Proof

/-- Every unit's views read the same. -/
structure SameViews (s s' : State) : Prop where
  same : ∀ k n, s'.view k n = s.view k n

theorem SameViews.refl (s : State) : SameViews s s := ⟨fun _ _ => rfl⟩

theorem SameViews.trans {s t u : State} (h : SameViews s t) (k : SameViews t u) : SameViews s u :=
  ⟨fun a n => (k.same a n).trans (h.same a n)⟩

theorem SameViews.forEach {α : Type} {l : List α} {f : State → α → State} (h : ∀ u a, SameViews u (f u a)) (s : State) :
    SameViews s (s.forEach l f) := by
  unfold State.forEach
  induction l generalizing s with
  | nil => exact SameViews.refl s
  | cons a r ih => exact (h s a).trans (ih (f s a))

/-- What leaves every unit alone leaves its views. -/
theorem SameViews.of_touches {l : List Part} {s s' : State} (h : Touches l s s')
    (hl : ([.chip, .cores, .engines, .bears, .jays, .fronts] : List Part).all (fun p => ! l.contains p) = true := by decide) :
    SameViews s s' := by
  simp only [List.all_cons, List.all_nil, Bool.and_true, Bool.and_eq_true, Bool.not_eq_true'] at hl
  obtain ⟨h0, h1, h2, h3, h4, h5⟩ := hl
  constructor
  intro k n
  cases k <;> simp only [State.view, h.chip h0, h.cores h1, h.engines h2, h.bears h3, h.jays h4, h.fronts h5]

theorem Bank.map_bupd_same {α β : Type} {n : Nat} (b : Bank α n) (i : Nat) (f : α → α) (g : α → β) (h : ∀ a, g (f a) = g a) :
    ((bupd b i f).map g) = b.map g := by
  unfold bupd
  split
  · apply Vector.ext
    intro j hj
    simp only [Vector.getElem_map]
    by_cases e : i = j
    · subst e
      exact (congrArg g (Bank.at'_upd_self b ⟨i, hj⟩ f)).trans (h _)
    · exact congrArg g (Bank.at'_upd_ne b (i := ⟨i, by assumption⟩) (j := ⟨j, hj⟩) (fun e' => e (by simpa using e')) f)
  · rfl

theorem Bank.at'_bupd_same {α β : Type} {n : Nat} (b : Bank α n) (i : Nat) (f : α → α) (g : α → β) (h : ∀ a, g (f a) = g a)
    (k : Fin n) : g ((bupd b i f).at' k) = g (b.at' k) := by
  unfold bupd
  split
  · by_cases e : (⟨i, by assumption⟩ : Fin n) = k
    · subst e; rw [Bank.at'_upd_self, h]
    · rw [Bank.at'_upd_ne _ e]
  · rfl

theorem SameViews.updCore (s : State) (c : Nat) (f : Core → Core) (h : ∀ k, (f k).view = k.view) :
    SameViews s (s.updCore c f) := by
  constructor
  intro k n
  cases k <;> first | rfl | simp only [State.view, State.updCore, Bank.map_bupd_same s.cores c f (·.view) h]

theorem SameViews.updEngine (s : State) (e : Nat) (f : Engine → Engine) (h : ∀ k, (f k).view = k.view) :
    SameViews s (s.updEngine e f) := by
  constructor
  intro k n
  cases k <;> first | rfl | simp only [State.view, State.updEngine, Bank.at'_bupd_same s.engines e f (·.view) h]

theorem SameViews.updBear (s : State) (u : Nat) (f : BearUnit → BearUnit) (h : ∀ k, (f k).view = k.view) :
    SameViews s (s.updBear u f) := by
  constructor
  intro k n
  cases k <;> first | rfl | simp only [State.view, State.updBear, Bank.at'_bupd_same s.bears u f (·.view) h]

theorem SameViews.updJay (s : State) (u : Nat) (f : JayUnit → JayUnit) (h : ∀ k, (f k).view = k.view) :
    SameViews s (s.updJay u f) := by
  constructor
  intro k n
  cases k <;> first | rfl | simp only [State.view, State.updJay, Bank.at'_bupd_same s.jays u f (·.view) h]

theorem State.setLive_views (s : State) (p o v : Nat) : SameViews s (s.setLive p o v) :=
  SameViews.of_touches (l := [.regs]) (State.setLive_touches s p o v (by decide) (Touches.refl _ s))

theorem State.updTenant_views (s : State) (t : Fin 16) (f : Tenant → Tenant) : SameViews s (s.updTenant t f) := by
  constructor
  intro k n
  cases k <;> rfl

theorem State.notePeak_views (s : State) (c : Nat) : SameViews s (s.notePeak c) := by
  unfold State.notePeak
  dsimp only
  split
  · exact State.setLive_views _ _ _ _
  · exact SameViews.refl s

theorem State.noteDepth_views (s : State) (e : Nat) : SameViews s (s.noteDepth e) := by
  unfold State.noteDepth
  dsimp only
  split
  · exact State.setLive_views _ _ _ _
  · exact SameViews.refl s

theorem State.traceTask_views (s : State) (kind : Nat) (t : Fin 16) (i v d a : Nat) : SameViews s (s.traceTask kind t i v d a) :=
  SameViews.of_touches (State.trace_touches (L := [.draws, .regs, .dram]) s kind t _ (by decide) (Touches.refl _ s))

theorem State.putPart_views (s : State) (p : PartRef) : SameViews s (s.putPart p) := by
  unfold State.putPart
  split
  · refine SameViews.trans ?_ (State.notePeak_views _ _)
    exact SameViews.updCore _ _ _ (fun _ => rfl)
  · exact SameViews.refl s

theorem State.haltCore_view (s : State) (k : Core) : (s.haltCore k).view = k.view := by
  unfold State.haltCore State.accrueCore
  split <;> rfl

theorem BearUnit.dropTenant_view (u : BearUnit) (t : Fin 16) : (u.dropTenant t).view = u.view := by
  unfold BearUnit.dropTenant
  split <;> first | rfl | (split <;> rfl)

theorem JayUnit.dropTenant_view (u : JayUnit) (t : Fin 16) : (u.dropTenant t).view = u.view := rfl

theorem SameViews.mapUnits (s : State) (f : Core → Core) (g : BearUnit → BearUnit) (h : JayUnit → JayUnit)
    (hf : ∀ k, (f k).view = k.view) (hg : ∀ k, (g k).view = k.view) (hh : ∀ k, (h k).view = k.view) :
    SameViews s { s with cores := s.cores.map f, bears := s.bears.map g, jays := s.jays.map h } := by
  have hc : ∀ {α : Type} {n : Nat} (b : Bank α n) (f : α → α) (i : Fin n), Bank.at' (Vector.map f b) i = f (b.at' i) :=
    fun b f i => Vector.getElem_map f i.isLt
  have hv : (Vector.map (·.view) (Vector.map f s.cores)) = Vector.map (·.view) s.cores := by
    apply Vector.ext
    intro i hi
    simp only [Vector.getElem_map, hf]
  constructor
  intro k n
  cases k <;> first | rfl | simp only [State.view, hv, hc, hg, hh]

theorem State.dropParts_views (s : State) (t : Fin 16) (keep : PartRef → Bool) : SameViews s (s.dropParts t keep) := by
  constructor
  intro k n
  cases k <;> first | rfl | skip
  unfold State.dropParts State.view
  dsimp only
  rw [Vector.map_map]
  rfl

theorem State.dropWork_views (s : State) (t : Fin 16) : SameViews s (s.dropWork t) := by
  unfold State.dropWork
  dsimp only
  refine SameViews.trans ?_ (State.updTenant_views _ _ _)
  refine SameViews.trans ?_ (State.updTenant_views _ _ _)
  refine SameViews.trans ?_ (State.updTenant_views _ _ _)
  refine SameViews.trans (State.dropParts_views s t _) (SameViews.mapUnits _ _ _ _ (fun k => ?_) (fun k => k.dropTenant_view t)
    (fun k => k.dropTenant_view t))
  split
  · split
    · exact State.haltCore_view _ _
    · rfl
  · rfl

theorem State.failFrame_views (s : State) (t : Fin 16) (code : Byte) : SameViews s (s.failFrame t code) := by
  unfold State.failFrame State.abortTasks
  dsimp only
  refine SameViews.trans ?_
    (SameViews.of_touches (State.judgeImminent_touches (L := [.safe, .tOut]) _ _ (by decide) (Touches.refl _ _)))
  refine SameViews.trans ?_ (State.updTenant_views _ _ _)
  refine SameViews.trans ?_ (State.updTenant_views _ _ _)
  refine SameViews.trans ?_ (SameViews.of_touches (State.updCascade_touches (L := [.cascade]) _ _ (by decide) (Touches.refl _ _)))
  exact (SameViews.forEach (fun u i => State.traceTask_views _ _ _ _ _ _ _) _).trans (State.dropWork_views _ _)

theorem State.makeReady_views (s : State) (t : Fin 16) (i : Nat) : SameViews s (s.makeReady t i) := by
  have he : ∀ (v : State) (c : Byte), SameViews v (v.endTask t i c) := fun v c => State.updTenant_views _ _ _
  unfold State.makeReady
  extract_lets d w
  split
  · exact SameViews.refl s
  · rename_i u us v hn
    have hu : SameViews s u := State.updTenant_views _ _ _
    have ht (v : State) := State.traceTask_views v 2 t i 0x3F 0 0
    refine hu.trans (iteInduction (fun _ => ?_) fun _ => iteInduction (fun _ => ht u) fun _ => iteInduction (fun _ => ?_) fun _ =>
      iteInduction (fun _ => ?_) fun _ => ?_)
    · exact ((ht u).trans ((State.updTenant_views _ _ _).trans (State.traceTask_views _ _ _ _ _ _ _))).trans (he _ _)
    · exact (ht u).trans (he _ _)
    · exact ((ht u).trans (he _ _)).trans (State.failFrame_views _ _ _)
    · exact (State.updTenant_views _ _ _).trans
        (SameViews.forEach (fun v a => (State.putPart_views _ _).trans (State.traceTask_views _ _ _ _ _ _ _)) _)

theorem State.retireTask_views (s : State) (t : Fin 16) (i : Nat) (c : Byte) (flag : Bool) : SameViews s (s.retireTask t i c flag) :=
  (((State.traceTask_views s 8 t i 0x3F _ c.toNat).trans
    (SameViews.of_touches (State.updCascade_touches (L := [.cascade]) _ _ (by decide) (Touches.refl _ _)))).trans
      (State.updTenant_views _ _ _)).trans (SameViews.forEach (fun u i => State.makeReady_views u t i) _)

theorem State.wakeWaits_views (n : Nat) (s : State) (t : Fin 16) : SameViews s (s.wakeWaits t n) := by
  induction n generalizing s with
  | zero => exact SameViews.refl s
  | succ n ih =>
    unfold State.wakeWaits
    dsimp only
    split
    · exact SameViews.refl s
    · refine SameViews.trans ?_ (ih _)
      have h0 := State.traceTask_views s 6 t
      split
      · exact ((h0 _ _ _ _).trans (State.updTenant_views _ _ _)).trans (State.retireTask_views _ _ _ _ _)
      · exact (h0 _ _ _ _).trans (State.updTenant_views _ _ _)

theorem State.evalWaits_views (s : State) (t : Fin 16) : SameViews s (s.evalWaits t) := by
  unfold State.evalWaits
  split
  · exact SameViews.refl s
  · exact State.wakeWaits_views _ s t

theorem State.tryRetire_views (s : State) (t : Fin 16) (i : Nat) : SameViews s (s.tryRetire t i) := by
  refine SameViews.trans ?_ (State.evalWaits_views _ _)
  unfold State.retireFree
  dsimp only
  split
  · split
    · exact State.retireTask_views _ _ _ _ _
    · exact SameViews.refl s
  · exact SameViews.refl s

theorem State.finishTask_views (s : State) (t : Fin 16) (i : Nat) (c : Byte) : SameViews s (s.finishTask t i c) :=
  (State.updTenant_views _ _ _).trans (State.tryRetire_views _ _ _)

theorem State.programFault_views (s : State) (t : Fin 16) (code : Byte) : SameViews s (s.programFault t code) := by
  unfold State.programFault
  dsimp only
  refine SameViews.trans ?_ (SameViews.of_touches (State.bumpErr_touches (L := [.attn]) _ _ (by decide) (Touches.refl _ _)))
  refine SameViews.trans ?_ (SameViews.of_touches (State.raise_touches (L := [.attn]) _ _ _ (by decide) (Touches.refl _ _)))
  exact (State.failFrame_views _ _ _).trans (State.updTenant_views _ _ _)

theorem State.coreLost_views (s : State) (c : Nat) : SameViews s (s.coreLost c) := by
  unfold State.coreLost
  dsimp only
  refine SameViews.trans (SameViews.updCore s c (fun k => { s.haltCore k with ready := [] }) fun k => State.haltCore_view s k) (SameViews.forEach (fun u p => ?_) _)
  split
  · refine SameViews.trans ?_ (State.notePeak_views _ _)
    exact SameViews.updCore _ _ _ fun _ => rfl
  · split
    · exact (State.finishTask_views _ _ _ _).trans (State.failFrame_views _ _ _)
    · exact SameViews.refl _

theorem State.pollDrains_views (s : State) (t : Fin 16) : SameViews s (s.pollDrains t) := by
  unfold State.pollDrains
  exact (State.updTenant_views _ _ _).trans (SameViews.forEach (fun _ _ => State.finishTask_views _ _ _ _) _)

theorem State.queueCand_views (s : State) (t : Fin 16) (id : Nat) : SameViews s (s.queueCand t id) := by
  unfold State.queueCand
  repeat' first
    | exact SameViews.refl _
    | exact State.updTenant_views _ _ _
    | (refine SameViews.trans ?_ (State.noteDepth_views _ _); exact SameViews.updEngine _ _ _ fun _ => rfl)
    | split

theorem State.retryStalled_views (s : State) : SameViews s s.retryStalled := by
  unfold State.retryStalled
  refine SameViews.forEach (fun v t => ?_) s
  exact (State.updTenant_views _ _ _).trans (SameViews.forEach (fun w id => State.queueCand_views w t id) _)

theorem State.engineLost_views (s : State) (e : Nat) : SameViews s (s.engineLost e) := by
  unfold State.engineLost
  dsimp only
  refine SameViews.trans ?_ (SameViews.forEach (fun u t => State.pollDrains_views u t) _)
  refine SameViews.trans ?_ (State.retryStalled_views _)
  refine SameViews.trans (SameViews.updEngine s e (fun k => { k with queue := [], current := none, spoiled := false }) fun _ => rfl) (SameViews.forEach (fun u x => ?_) _)
  split
  · refine SameViews.trans ?_ (State.noteDepth_views _ _)
    exact SameViews.updEngine _ _ _ fun _ => rfl
  · exact SameViews.refl _

theorem State.streamWrite_views (s : State) (a b c d : Nat) (l : List Byte) : SameViews s (s.streamWrite a b c d l) :=
  SameViews.of_touches (State.streamWrite_touches (L := [.lynx]) _ _ _ _ _ _ (by decide) (Touches.refl _ _))

theorem State.dramWrite_views (s : State) (a : Nat) (l : List Byte) : SameViews s (s.dramWrite a l) :=
  SameViews.of_touches (State.dramWrite_touches (L := [.dram]) _ _ _ (by decide) (Touches.refl _ _))

theorem State.snap_views (s : State) (u : Nat) : SameViews s (s.snap u) := by
  unfold State.snap
  split
  · exact SameViews.refl s
  · dsimp only
    split
    · exact State.programFault_views _ _ _
    · exact SameViews.updJay _ _ _ fun _ => rfl

theorem State.writeResult_views (s : State) (t : Fin 16) (a : Nat) (l : List Byte) : SameViews s (s.writeResult t a l) :=
  (State.dramWrite_views _ _ _).trans (State.updTenant_views _ _ _)

theorem State.writeSel_views (s : State) (u : Nat) (q : SelReq) (status : Byte) (a b : Nat) (first : Option Nat) (l : List Byte) :
    SameViews s (s.writeSel u q status a b first l) := by
  unfold State.writeSel
  dsimp only
  split
  · exact State.programFault_views _ _ _
  · refine SameViews.trans ?_ (State.finishTask_views _ _ _ _)
    refine SameViews.trans ?_ (State.updTenant_views _ _ _)
    refine SameViews.trans ?_ (State.setLive_views _ _ _ _)
    exact (State.writeResult_views _ _ _ _).trans (State.streamWrite_views _ _ _ _ _ _)

theorem State.draws_views (s : State) (n : Nat) : SameViews s { s with draws := n } := by
  constructor
  intro k m
  cases k <;> rfl

theorem State.failSel_views (s : State) (u : Nat) (q : SelReq) (status : Byte) : SameViews s (s.failSel u q status) :=
  State.writeSel_views _ _ _ _ _ _ _ _

theorem State.failRun_views (s : State) (u : Nat) (status : Byte) : SameViews s (s.failRun u status) := by
  unfold State.failRun
  split
  · refine SameViews.trans ?_ (State.failSel_views _ _ _ _)
    refine (SameViews.updJay s u (fun j => { j with run := none }) fun _ => rfl).trans ?_
    unfold State.noteGroup
    split
    · exact SameViews.refl _
    · exact State.updTenant_views _ _ _
  · exact SameViews.refl s

theorem State.moveSelect_views (s : State) (u : Nat) (q : SelReq) : SameViews s (s.moveSelect u q) := by
  unfold State.moveSelect
  split
  · exact SameViews.updJay _ _ _ fun _ => rfl
  · exact State.failSel_views _ _ _ _

theorem State.segmentsLost_views (s : State) (c : Nat) : SameViews s (s.segmentsLost c) := by
  unfold State.segmentsLost
  refine SameViews.forEach (fun v u => ?_) s
  split
  · exact SameViews.refl v
  · split
    · exact SameViews.refl v
    · split
      · exact State.failRun_views _ _ _
      · exact SameViews.updJay _ _ _ fun _ => rfl

theorem State.jayLost_views (s : State) (u : Nat) : SameViews s (s.jayLost u) := by
  unfold State.jayLost
  extract_lets j s1 s2
  have h1 : SameViews s s1 := SameViews.updJay s u (fun j => { j with queue := [], run := none }) fun _ => rfl
  have h2 : SameViews s1 s2 := by
    show SameViews s1 (match j.run with
      | some r => if r.stop then s1.failSel u r.req codePhaseCut else s1.moveSelect u { r.req with snap := some (r.snapped, r.entries) }
      | none => s1)
    split
    · split
      · exact State.failSel_views _ _ _ _
      · exact State.moveSelect_views _ _ _
    · exact SameViews.refl s1
  exact (h1.trans h2).trans (SameViews.forEach (fun v q => State.moveSelect_views v u q) _)

theorem State.writeReport_views (s : State) (t : Fin 16) (k : BearSlot) (status : Byte) (i : Nat) (m : Bool) (l : List Byte) :
    SameViews s (s.writeReport t k status i m l) := by
  unfold State.writeReport
  dsimp only
  have h0 : ∀ v w : Nat, ∀ f, SameViews s ((s.setLive 0x0A v w).updSolver t f) := fun v w f =>
    (State.setLive_views _ _ _ _).trans (State.updTenant_views _ _ _)
  split
  · exact (h0 _ _ _).trans (State.programFault_views _ _ _)
  · have h2 := ((h0 (perTenant t 0x0C) (status.toNat + i * 2 ^ 8 + k.slot * 2 ^ 16 + b2n m * 2 ^ 31) (fun v =>
      { v.count status with slots := v.slots.map fun x => if x.slot = k.slot then { x with st := .finished } else x })).trans
        (State.writeResult_views _ t k.report l)).trans (State.streamWrite_views _ (68 + k.unit.val) toDram 0 k.report l)
    generalize ((((s.setLive 0x0A _ _).updSolver t _).writeResult t k.report l).streamWrite _ toDram 0 k.report l) = v at h2 ⊢
    have h3 := fun f => h2.trans (State.updTenant_views v t f)
    generalize hw : (if (decide (status = codePhaseCut) || decide (status = codeFenced)) = true then
      v.updSched t fun d => d.updTask k.task fun x => { x with status := status } else v) = w
    have h4 : SameViews s w := by
      rw [← hw]
      split
      · exact h3 _
      · exact h2
    split
    · split
      · split
        · exact h4.trans (State.finishTask_views _ _ _ _)
        · exact h4
      · exact h4
    · exact h4

theorem State.bearLost_views (s : State) (u : Nat) : SameViews s (s.bearLost u) := by
  unfold State.bearLost
  extract_lets stopped s1
  refine SameViews.trans (SameViews.updBear s u (fun b => { b with solve := none }) fun _ => rfl) (SameViews.forEach (fun v t => ?_) _)
  refine SameViews.forEach (fun w k => ?_) v
  have he : ∀ c, SameViews w (w.emptyReport t k c 0 0 false) := fun c => State.writeReport_views _ _ _ _ _ _ _
  split
  · split
    · exact he _
    · exact State.updTenant_views _ _ _
  · exact he _

theorem State.frontLost_views (s : State) (l : List (Fin 16)) : SameViews s (s.frontLost l) := by
  unfold State.frontLost State.endExpansion
  refine SameViews.forEach (fun v t => ?_) s
  dsimp only
  refine SameViews.trans ?_ (State.updTenant_views _ _ _)
  refine SameViews.trans ?_ (State.updTenant_views _ _ _)
  exact (State.setLive_views _ _ _ _).trans (State.setLive_views _ _ _ _)

/-- The loss of a unit's work leaves every unit's views. -/
theorem State.workLost_views (s : State) (k : UnitKind) (n : Nat) (l : List (Fin 16)) : SameViews s (s.workLost k n l) := by
  unfold State.workLost
  split
  · exact (State.coreLost_views _ _).trans (State.segmentsLost_views _ _)
  · exact State.engineLost_views _ _
  · exact State.bearLost_views _ _
  · exact State.jayLost_views _ _
  · exact State.frontLost_views _ _

end Sys2Proof.Machine
end

