-- ==== Sys2Proof/WellFormed.lean ====
section
/-! DEFINITION. Which commands can be sent at all: operands that fit the device's numbers and a frame's or request's own length. The
meanings of commands are total and do not rest on this. -/
namespace Sys2Proof

/-- Units of a kind on the largest grade (02 R70, R71). -/
def UnitKind.limit : UnitKind → Nat
  | .core => 48
  | .badger => 16
  | .bear => 2
  | .jay => 4
  | .front => 4

/-- A command tag (11 R423). -/
def tagOk (n : Nat) : Bool := decide (n < 2048)
/-- A task index (10 R377). -/
def taskOk (n : Nat) : Bool := decide (n < 65536)
/-- A range of BAR2, which has 64 GiB (11 R415). -/
def bar2Ok (a n : Nat) : Bool := decide (0 < n) && decide (a + n ≤ 2 ^ 36)
/-- A Dellane frame whose payload is as long as LEN says, 256 bytes at most (15 R559). -/
def LinkFrame.lengthOk (f : LinkFrame) : Bool := f.payload.length == f.len.toNat && decide (f.payload.length ≤ 256)
/-- A mailbox request: a header of 16 bytes and a payload of 240 bytes at most (18 R674). -/
def requestOk (r : List Byte) : Bool := decide (16 ≤ r.length) && decide (r.length ≤ 256)
/-- An address in the 48 GiB of the largest part (02 R74; 17 R662). -/
def dramOk (a : Nat) : Bool := decide (a < 768 * 2 ^ 26)
/-- An SRAM place: a bitmap of an engine has 1,024 words of 64 bits (05 R216). -/
def Storage.ok : Storage → Bool
  | .badgerBitmap _ w => decide (w < 1024)
  | _ => true
/-- An image whose records point inside it: each bucket gives every dimension, each phase list all eight phases. -/
def ProgramImage.ok (p : ProgramImage) : Bool :=
  p.buckets.all (fun b => b.length == p.dims) && p.phaseUs.all fun x => x.2.length == 8

/-- The operands of a command lie in their ranges. -/
def Instr.wellFormed : Instr → Bool
  | .ingest _ g _ | .loadLattice _ g _ | .loadModel _ g _ | .hostCand _ g _ => tagOk g
  | .measure _ g | .shape _ g | .hostCandJudge _ g | .activate _ g | .signal _ g | .nop _ g => tagOk g
  | .loadProgram _ g p => tagOk g && p.ok
  | .bar2Read _ a n => bar2Ok a n
  | .bar2Write _ a d => bar2Ok a d.length
  | .engineTaskIssue _ k | .waitStart _ k | .timerTask _ k | .signalTask _ k | .taskRetire _ k | .waitTimeout _ k => taskOk k
  | .registerWrite _ _ o _ | .lowWordRead _ _ o => o.toNat % 4 == 0
  | .dispatchAckTimeout k n => decide (n < k.limit)
  | .unitRst _ k _ => decide (k.toNat ≤ 4)
  | .write _ f | .read _ f | .doorbell _ f | .collPart _ f | .ack _ f | .readData _ f | .collResult _ f | .witness _ f => f.lengthOk
  | .tick _ f | .mark _ f | .cal _ f | .calEcho _ f _ | .lynxSig f | .lynxNotice f | .invalidFrame _ f => f.lengthOk
  | .getInfo _ r | .readSensors _ r | .readCounters _ r | .readLog _ r | .getIdentity _ r | .challenge _ r | .verify _ r => requestOk r
  | .pair _ r | .identAck _ r | .fence _ r | .unfence _ r | .fwBegin _ r | .fwChunk _ r | .fwFinish _ r | .fwConfirm _ r => requestOk r
  | .setBoardCfg _ r | .getBoardCfg _ r | .unassignedMailboxOpcode _ r => requestOk r
  | .sramCorrected p | .sramUe p => p.ok
  | .dramCorrected a | .dramUe a => dramOk a
  | _ => true

end Sys2Proof
end

