-- ==== Sys2Proof/Tests/Slice0.lean ====
section
/-! SUPPORT. Tests: an ill-formed command for each check of WellFormed, a state that meets the hypotheses of each statement, and small steps
with the results that the rules give. -/
namespace Sys2Proof.Tests
set_option Elab.async false
open Sys2Proof Sys2Proof.Machine

/-! ### Ill-formed commands -/

/-- A frame whose LEN says one byte more than its payload holds. -/
def shortFrame : LinkFrame :=
  { kind := 0, ttl := 0, dest := 0, src := 0, len := 1, tag := 0, stat := 0, attnSeq := 0, reserved := 0, addr := 0, aux := 0,
    crc := 0, payload := [] }
/-- An image one of whose buckets lacks a dimension. -/
def shortImage : ProgramImage :=
  { body := [], weights := [], tasks := [], succ := [], detectors := [], retainTimers := 0, retainEdges := 0, subscribe := 0, gemms := [],
    fusions := [], dims := 1, buckets := [[]], dram := 0, requests := [], retained := [], phaseUs := [], minTiles := 0, dramBytes := 0 }
theorem test_illFormed_image : (Instr.loadProgram 0 0 shortImage).wellFormed = false := by decide

theorem test_illFormed_tag : (Instr.nop 0 2048).wellFormed = false := by decide
theorem test_illFormed_buffer_tag : (Instr.ingest 0 2048 []).wellFormed = false := by decide
theorem test_illFormed_bar2_empty : (Instr.bar2Read .a 0 0).wellFormed = false := by decide
theorem test_illFormed_bar2_end : (Instr.bar2Write .a (2 ^ 36) [0]).wellFormed = false := by decide
theorem test_illFormed_task : (Instr.waitStart 0 65536).wellFormed = false := by decide
theorem test_illFormed_register : (Instr.registerWrite .owl 0 0x102 0).wellFormed = false := by decide
theorem test_illFormed_unit : (Instr.dispatchAckTimeout .bear 2).wellFormed = false := by decide
theorem test_illFormed_kind : (Instr.unitRst .owl 5 0).wellFormed = false := by decide
theorem test_illFormed_frame : (Instr.write 0 shortFrame).wellFormed = false := by decide
theorem test_illFormed_request : (Instr.getInfo .portA []).wellFormed = false := by decide
theorem test_illFormed_place : (Instr.sramUe (.badgerBitmap 0 1024)).wellFormed = false := by decide
theorem test_illFormed_address : (Instr.dramUe (768 * 2 ^ 26)).wellFormed = false := by decide

/-! ### States -/

/-- READY, with both ports up and every unit of the grade UP. -/
def up : State :=
  State.raiseUnits { State.reset with
    power := { Power.reset with stage := 5, trained := true, initDone := true }
    cfgA := { PortCfg.reset with ready := true }
    cfgB := { PortCfg.reset with ready := true } }
/-- A tenant that is active. -/
def withT (s : State) : State := s.updTenant 0 fun n => { n with state := .active }
/-- In a frame, with `k` deadlines passed. -/
def inFrame (k : Nat) : State :=
  { withT up with frame := { Frame.reset with run := true, inFrame := true, passed := k, seq := 1, ranSinceReset := true, timed := true } }
/-- Stamp of a doorbell in the frame. -/
def stamp : Stamp := { time := 0, order := 0, frame := 1, hostFrame := 1, afterD0 := false }

theorem up_inv : up.Inv := by
  constructor <;> decide +kernel
theorem up_canonical : up.Canonical := by
  constructor <;> decide +kernel

/-- A command of an opcode with tag 5 in queue 0. -/
def cmd (op : Nat) : Cmd :=
  { tag := 5, q := 0, word := BitVec.ofNat 512 op, stamp := stamp, late := false, waiting := false, data := [], delivering := none }
/-- A state whose tenant 0 holds a command. -/
def withCmd (s : State) (c : Cmd) : State := s.updTenant 0 fun n => { n with cmds := [c] }
/-- Queue 0 of tenant 0 enabled and changed. -/
def withQ (s : State) (f : Queue → Queue) : State :=
  (((s.setLive 0x40 0x100 3).setLive 0x40 0x104 0x44).setLive 0x20 0x120 64).updQueue 0 0 f
/-- A completion. -/
def comp : Comp := { cmdId := 1, result := codeOk, detail := 0 }
/-- A frame completion that publishes a plan. -/
def fdone : FrameDone := { frame := 0, result := 0, cutMap := 0, outcome := 4, planId := 0, slot := 0, entry := 0, record := List.replicate 160 0 }
/-- A sealed empty world. -/
def view0 : Sealed := { stat := [], dyn := [], collapsed := [], lateTiles := [], allOccupied := false, agents := [], envelopes := [] }

/-! ### Hypotheses met -/

theorem witness_front_command : { up with pending := [Instr.bypass] }.pending = [Instr.bypass] := by decide
theorem witness_idle : up.pending = [] := by decide +kernel
theorem step_up : step up = .next up.idle := by
  simp only [step, witness_idle]
theorem witness_invariant_step : up.Inv ∧ step up = .next up.idle := ⟨up_inv, step_up⟩
theorem witness_canonical_step : up.Canonical ∧ step up = .next up.idle := ⟨up_canonical, step_up⟩
theorem witness_safe_release :
    { up with frame := { Frame.reset with safePin := true } }.frame.safePin = true := by decide +kernel
theorem witness_gregorian : (Calendar.reset).legal ∧ (Calendar.reset).atEnd = false := by decide +kernel
theorem witness_gregorian_last : Calendar.legal { Calendar.reset with year := 2399, second := 59 } := by decide +kernel

theorem inFrame_last : (inFrame 8).Inv := by
  constructor <;> decide +kernel
theorem inFrame_inv (k : Nat) (h : k ≤ 8) : (inFrame k).Inv :=
  { dram := inFrame_last.dram, regs := inFrame_last.regs, shadow := inFrame_last.shadow, dirty := inFrame_last.dirty, stage := inFrame_last.stage
    passed := h, trim := inFrame_last.trim, calendar := inFrame_last.calendar, whole := rfl, timed := fun _ => rfl, began := inFrame_last.began }
/-- Nothing falls due where no tenant has a time at which something does. -/
theorem nothingDue_of (s : State) (T : Nat) (h : ∀ t, s.dueTimes t = []) : s.nothingDue T := by
  intro t e he
  simp [h t] at he
theorem othersLater_of (s : State) (k : Fin 16) (T : Nat) (h : ∀ t, t ≠ k → s.dueTimes t = []) : s.othersLater k T := by
  intro t ht e he
  simp [h t ht] at he
theorem witness_nothing_due : up.nothingDue (up.now + 1) ∧ (inFrame 8).nothingDue 12345 :=
  ⟨nothingDue_of _ _ (by decide +kernel), nothingDue_of _ _ (by decide +kernel)⟩
theorem witness_internal_tick : (inFrame 8).Inv ∧ (inFrame 8).held = false ∧ (inFrame 8).frame.run = true ∧ (inFrame 8).frame.aligned = none ∧
    (inFrame 8).role ≠ 1 ∧ (inFrame 8).frame.passed = 8 ∧ (inFrame 8).frame.opening = false ∧ (inFrame 8).tickSrc = 0 :=
  ⟨inFrame_last, by decide +kernel⟩
/-- RUN is 1 and the first external tick is awaited. -/
def awaiting : State :=
  ({ up with frame := { Frame.reset with run := true, fresh := true, timed := true } } : State).setLive 0x03 0x104 1
theorem awaiting_inv : awaiting.Inv := by
  constructor <;> decide +kernel
theorem witness_external_tick : awaiting.Inv ∧ awaiting.tickSrc = 1 ∧ awaiting.judgeArrival awaiting.now = .accepted ∧ awaiting.held = false ∧
    awaiting.frame.run = true ∧ awaiting.role ≠ 1 ∧ awaiting.frame.inFrame = false := ⟨awaiting_inv, by decide +kernel⟩
theorem witness_substituted_tick : ((inFrame 8).setLive 0x03 0x104 1).tickSrc ≠ 0 ∧ ((inFrame 8).setLive 0x03 0x104 1).role ≠ 2 ∧
    ((inFrame 8).setLive 0x03 0x104 1).frame.inFrame = true := by decide +kernel
theorem witness_boundary : { inFrame 8 with frame := { (inFrame 8).frame with aligned := some (3, none) } }.frame.aligned =
    some (3, none) ∧ (inFrame 8).held = false ∧ (inFrame 8).frame.run = true := by decide +kernel
theorem witness_frame_controls : (inFrame 0).ctlReaches (.port .a) 0x03 = true ∧ up.ctlReaches .owl 0x03 = true := by decide +kernel
theorem witness_deadlines : ∀ k ∈ [0, 7], (inFrame k).Inv ∧ (inFrame k).held = false ∧ (inFrame k).frame.inFrame = true ∧
    (inFrame k).frame.opening = false ∧ (inFrame k).frame.passed = k := by
  intro k hk
  exact ⟨inFrame_inv k (by rcases List.mem_pair.mp hk with h | h <;> omega), by revert k; decide +kernel⟩
/-- A part that waits on core 0. -/
def part0 : PartRef := ⟨0, 0, 0, 0, 0, 0, 0, none⟩
/-- A part that runs. -/
def run0 : Run :=
  { part := part0, startAt := 0, addrs := (0, 0, 0), col := 0, kStep := 0, second := false, acc := [], closing := false, half := false
    from' := 0, since := 0, band := [], rowM := [], rowL := [], oAcc := [], rowBad := [], outgoing := none, stop := false, finished := false }
/-- Core 47 runs a part. -/
def withRun (s : State) (r : Run) : State := s.updCore 47 fun k => { k with run := some r }
theorem witness_cut_forced : (withRun (inFrame 5) { run0 with stop := true }).frame.inFrame = true ∧
    ((withRun (inFrame 5) { run0 with stop := true }).core 47).run = some { run0 with stop := true } ∧
    (withRun (inFrame 5) { run0 with stop := true }).clock.holdSince = none ∧ (withRun (inFrame 5) { run0 with stop := true }).held = false := by
  decide +kernel
/-- A program that needs a SHAPE. -/
def needsShape : State := (inFrame 1).updSched 0 fun d => { d with slotA := some ⟨{ shortImage with buckets := [[4]] }, 0, 0⟩, running := true }
theorem witness_seal : (inFrame 1).held = false ∧ (inFrame 1).halted = false ∧ (inFrame 1).sealDue 0 = true ∧
    ((inFrame 1).tenant 0).sched.running = false ∧ needsShape.sealDue 0 = true ∧ (needsShape.tenant 0).sched.running = true ∧
    (match (needsShape.tenant 0).sched.image with
      | some p => p.dims ≠ 0 && (needsShape.tenant 0).sched.shape.isNone | none => false) = true := by decide +kernel
/-- A program is in force in the frame's last phase, and `x` is the final selection's result. -/
def deciding (x : Option (Option Nat)) : State := (inFrame 7).updTenant 0 fun n =>
  { n with
    sched := { n.sched with slotA := some ⟨{ shortImage with dims := 0, buckets := [] }, 0, 0⟩, inForce := true }
    sel := { n.sel with finalResult := x }, table := { n.table with cands := [(2, Cand.blank)], clear := [2] } }
theorem witness_publish : ∀ x ∈ [none, some none, some (some 2)], (deciding x).held = false ∧ (deciding x).inFault = false ∧
    ((deciding x).tenant 0).live = true ∧ (deciding x).frame.inFrame = true ∧ (deciding x).frame.passed = 7 ∧
    ((deciding x).tenant 0).out.fixed = false ∧ ((deciding x).tenant 0).hasProgram = true ∧ (deciding x).candPoisoned 0 2 = false ∧
    (deciding x).selected 0 = x.join := by decide +kernel
theorem witness_publish_poisoned :
    ({ deciding (some (some 2)) with dram := { Dram.reset with poison := [up.chip.tableBase / 32 + 8] } } : State).candPoisoned 0 2 = true ∧
    ((inFrame 7).tenant 0).hasProgram = false := by decide +kernel
theorem witness_doorbells : (withQ (withT up) id).reachesQueue .a 0 = true ∧ (7 : Word).toNat % 4096 < (withQ (withT up) id).sqDepth 0 0 ∧
    (7 : Word).toNat % 4096 < (withQ (withT up) id).cqDepth 0 0 ∧ (withQ (withT up) id).sqDepth 0 0 ≤ (4095 : Word).toNat % 4096 ∧
    (withQ (withT up) id).cqDepth 0 0 ≤ (4095 : Word).toNat % 4096 := by decide +kernel
/-- One entry is published in queue 0. -/
def fetching : State := withQ (withT up) fun q => { q with published := [stamp] }
theorem fetching_reads : fetching.readsFull (fetching.ownerOf 0) = false := by
  have h : fetching.readsOf (fetching.ownerOf 0) = 0 := by decide +kernel
  simp only [State.readsFull, readBound, h]
  split <;> split <;> rfl
theorem fetching_can : fetching.canFetch 0 0 = true := by
  rw [State.canFetch, fetching_reads]
  decide +kernel
theorem fetching_queue : fetching.queueNext 0 = some 0 := by
  have h : turnFrom 8 (fetching.tenant 0).queueTurn = 0 :: (turnFrom 8 (fetching.tenant 0).queueTurn).drop 1 := by decide +kernel
  rw [State.queueNext, h, List.find?_cons, fetching_can]
theorem fetching_turn : fetching.portNext (fetching.ownerOf 0) = some (0, 0) := by
  have h : turnFrom 16 (fetching.cfg (fetching.ownerOf 0)).fetchTurn =
    0 :: (turnFrom 16 (fetching.cfg (fetching.ownerOf 0)).fetchTurn).drop 1 := by decide +kernel
  rw [State.portNext, h, List.findSome?_cons]
  simp [fetching_queue]
theorem witness_fetch : fetching.held = false ∧ fetching.portNext (fetching.ownerOf 0) = some (0, 0) ∧ (fetching.queue 0 0).published = [stamp] ∧
    cmdFlaws (BitVec.ofNat 512 0x0A) (fetching.inLease 0) = [] ∧ cmdFlaws 0 (fetching.inLease 0) ≠ [] :=
  ⟨by decide +kernel, fetching_turn, by decide +kernel⟩
theorem witness_fetch_passed_over : fetching.portNext (fetching.ownerOf 0) ≠ some (0, 1) := by
  rw [fetching_turn]
  decide
theorem witness_completion : up.writesStopped = false ∧
    ((withQ (withT up) fun q => { q with comps := [comp] }).queue 0 0).comps = [comp] ∧
    ((withT up).tenant 0).backlog = [] := by decide +kernel
/-- A frame completion waits with its slot, or in the backlog. -/
def withDone (b : Bool) : State := (withQ (withT up) id).updTenant 0 fun n =>
  if b then { n with delivering := some fdone } else { n with backlog := [fdone] }
theorem witness_frame_completion : (withDone true).writesStopped = false ∧ (withDone true).frameReady 0 = true ∧
    ((withDone true).tenant 0).delivering = some fdone ∧ (withDone false).frameReady 0 = true ∧
    ((withDone false).tenant 0).delivering = none ∧ ((withDone false).tenant 0).backlog = [fdone] ∧ fdone.valid = true := by decide +kernel
theorem witness_commands : (withCmd up (cmd 0x0A)).cmdFor 0 5 0x0A = some (cmd 0x0A) ∧ (withCmd up (cmd 8)).cmdFor 0 5 8 = some (cmd 8) ∧
    (withCmd up (cmd 3)).cmdFor 0 5 3 = some (cmd 3) ∧ (withCmd up (cmd 2)).cmdFor 0 5 2 = some (cmd 2) ∧
    (up.queue 0 0).dying = false ∧ up.held = false := by decide +kernel
theorem witness_buffers : up.cmdData (cmd 3) [] = some [] ∧ up.cmdData (cmd 2) [] = some [] := by decide +kernel
/-- MEASURE, SHAPE and SIGNAL of the frame in progress, in it and after its seal. -/
def inputs (op : Nat) (late : Bool) : State := withCmd (inFrame 0) { cmd op with late := late }
theorem witness_frame_inputs : ∀ x ∈ [(4, true), (4, false), (5, true), (5, false), (9, false)],
    (inputs x.1 x.2).held = false ∧ ((inputs x.1 x.2).queue 0 0).dying = false ∧
    (inputs x.1 x.2).cmdFor 0 5 x.1 = some { cmd x.1 with late := x.2 } ∧ (inputs x.1 x.2).waitsForD0 stamp = false ∧
    (inputs x.1 x.2).framePassed { cmd x.1 with late := x.2 } = x.2 := by decide +kernel
theorem witness_measure : cmdField (cmd 4).word 36 20 = 0 := by decide +kernel
theorem witness_signal_turn : (inputs 9 false).signalTurn 0 (cmd 9) = true := by decide +kernel
theorem witness_waits_for_d0 : ((inputs 4 false).setLive 0x0B 0x100 1).waitsForD0 { stamp with frame := 2 } = true := by decide +kernel
theorem witness_program : (withCmd up (cmd 7)).held = false ∧ (withCmd up (cmd 7)).cmdFor 0 5 7 = some (cmd 7) ∧
    ((withCmd up (cmd 7)).queue 0 0).dying = false ∧ (up.tenant 0).sched.slotBusy true = false ∧
    (up.tenant 0).sched.slotBusy false = false ∧ ((cmd 7).src && up.dram.poisoned (cmd 7).addr (cmd 7).len) = false ∧
    imageOk { shortImage with tasks := [0xF] } (up.leaseView 0) = false ∧ imageOk shortImage (up.leaseView 0) = true ∧
    up.admission 0 true shortImage = none := by decide +kernel
/-- A HOST_CAND with the bytes `d`, waiting or not, of the host's frame. -/
def hosting (w : Bool) (d : List Byte) (x : Option (Nat × Nat)) : State :=
  withCmd (inFrame 3) { cmd 6 with waiting := w, data := d, delivering := x }
theorem witness_host_candidate : (hosting false [] none).held = false ∧ ((hosting false [] none).queue 0 0).dying = false ∧
    (hosting false [] none).cmdFor 0 5 6 = some (cmd 6) ∧ (cmd 6).late = false ∧ ¬ (cmd 6).stamp.hostFrame < (inFrame 3).frame.seq ∧
    (inFrame 3).frame.inFrame = true ∧ (hosting false [] none).cmdData (cmd 6) [] = some [] := by decide +kernel
theorem witness_host_judged : ∀ d ∈ [[], List.replicate 128 0], ∀ c, c = { cmd 6 with waiting := true, data := d } →
    ((hosting true d none).tenant 0).cmds.find? (fun c => c.tag = 5 && c.opcode = 6 && c.waiting) = some c ∧
    (hosting true d none).frame.opening = false ∧ c.stamp.hostFrame ≤ (hosting true d none).frame.seq ∧ (hosting true d none).hostTurn 0 c = true ∧
    (hosting true d none).held = false ∧ ((hosting true d none).tenant 0).search.hostNext + 1 ≤ 1152 ∧
    ((hosting true d none).tenant 0).table.stalls 128 129 = false := by
  intro d hd c hc
  subst hc
  revert d
  decide +kernel
theorem witness_host_flaw : hostFlaws none Limits.default (List.replicate 128 0) 0 ≠ [] := by decide +kernel
theorem witness_host_waits : ((hosting true [] (some (128, 0))).tenant 0).cmds =
    [{ cmd 6 with waiting := true, delivering := some (128, 0) }] ∧ (hosting true [] (some (128, 0))).frame.inFrame = true := by decide +kernel
/-- Tenant 0 has a share of mixed tiles and so a world. -/
def withWorld (s : State) : State := (withT s).setLive 0x20 0x124 4
theorem witness_ingest : (withWorld up).hasWorld 0 = true ∧ (withCmd up (cmd 1)).cmdFor 0 5 1 = some (cmd 1) := by decide +kernel
/-- The records of one job wait in the frame. -/
def withJob (r : Record) : State := (inFrame 0).updWorld 0 fun w => { w with jobs := [⟨5, stamp, [r]⟩] }
theorem withJob_canonical (r : Record) (h : r = .scroll 1 0) : (withJob r).Canonical := by
  subst h
  constructor <;> decide +kernel
theorem witness_records : (withJob (.uniformTiles 0 0 31 31 .free)).nextRecord 0 = some (.uniformTiles 0 0 31 31 .free) ∧
    (withJob (.region 0 0 0 0 7)).nextRecord 0 = some (.region 0 0 0 0 7) ∧
    (withJob (.scroll (-1) 1)).nextRecord 0 = some (.scroll (-1) 1) ∧
    (withJob (.agentList [])).nextRecord 0 = some (.agentList []) ∧
    (withJob (.mixedTile 31 31 [])).nextRecord 0 = some (.mixedTile 31 31 []) := by decide +kernel
theorem witness_bar2 : up.portUp .a = true ∧ up.bar2Lease .a 0 4 = false := by decide +kernel
theorem witness_configuration : up.held = false := by decide +kernel
/-- Tenant 0 leases every engine. -/
def withUnits (s : State) : State := s.setLive 0x20 0x11C 0x0FF3FFFF
theorem witness_front : ((withUnits (inFrame 2)).usableOf 0 .front) ≠ [] ∧ (inFrame 2).phasePassed 3 = false := by decide +kernel
theorem witness_expander : ((up.tenant 0).table.stalls 5248 (2 ^ 20) = false) ∧ (up.tenant 0).table.stalls 1152 5248 = false := by
  decide +kernel
theorem witness_reads : up.portUp .a = true ∧ up.mayRead .a 0x010 = true ∧ up.mayRead .a 0x03F = false ∧
    (heldBy 0x10 0x10C).length = 3 := by decide +kernel
theorem witness_read_clears : up.mayRead .a 0x02F = true ∧ up.mayRead .a (corePage 47) = true ∧ up.mayRead .a (enginePage 15) = true ∧
    up.mayRead .a (linkPage 7) = true ∧ up.mayRead .a (sitePage 3) = true ∧ up.mayRead .a 0x11 = true := by decide +kernel
theorem witness_header_writes : up.reaches (.port .a) 0x003 = true ∧ up.mayWriteHeader (.port .a) 0x003 = true ∧
    up.mayWriteHeader (.port .b) 0x003 = false ∧ up.reaches .owl 0x003 = true := by decide +kernel
theorem witness_write_class : (regFind 0x03 0x110).isSome = true ∧ (regFind 0x03 0x104).isSome = true ∧
    (regFind 0x03 0x100).isSome = true := by decide +kernel
theorem witness_commits : up.openSetOf 0x003 = none ∧ (up.cfg .a).submitted.length < 4 ∧ up.dirty.Pairwise (· < ·) ∧
    keysRise up.regs := by decide +kernel
theorem witness_stopped : up.stopped = true ∧ (inFrame 0).stopped = false ∧ (inFrame 0).pastD7 = false := by decide +kernel
theorem witness_owner : (withT up).ownsTenant .a 0 = true ∧ ((withT up).tenant 0).state = .active ∧ up.ownerOf 0 ≠ .b ∧
    (up.tenant 0).state = .none := by decide +kernel
theorem witness_units : (up.view .core 47).map View.serves = some true ∧ (up.view .badger 15).map View.serves = some true ∧
    up.view .core 48 = none ∧ up.power.unitBusy = none := by decide +kernel
theorem witness_control : up.isCtl (.port .a) = true ∧ up.isCtl .owl = true ∧ up.isCtl (.port .b) = false := by decide +kernel
theorem witness_boot : State.reset.held = false ∧ State.reset.power.bootStarted = true ∧ State.reset.power.stage = 0 ∧
    State.reset.owl.bankOk false = true ∧ State.reset.owl.bankOk true = false := by decide +kernel
theorem witness_ready : up.isReady = true := by decide +kernel
theorem witness_throttle : up.throttleEn = true ∧ up.throttleC = 1680 ∧ up.throttleC ≤ 1840 := by decide +kernel
theorem witness_refresh : ((inFrame 0).setLive 0x0E 0x100 0x11).detRefresh = true ∧
    ((inFrame 0).frame.refreshes + 1) * bits (((inFrame 0).setLive 0x0E 0x100 0x11).live 0x0E 0x100) 5 4 < (inFrame 0).period := by
  decide +kernel

theorem witness_busy_slot : { (up.tenant 0).sched with activate := some (0, true) }.slotBusy true = true := by decide +kernel

/-! Clocks, the meter and the trim -/

/-- The root PLL is in lock. -/
def locked : State := { up with clock := { up.clock with stable := 0x1F } }
/-- A domain switches to the PLL, or the root relocks. -/
def switching : State := { up with clock := { up.clock with switches := [(.core, 1)] } }
theorem witness_levels : locked.isCtl (.port .a) = true ∧ locked.lynx.pinned = false ∧ locked.adaptive = false ∧
    locked.power.throttle = false ∧ locked.clock.relock = none ∧ locked.clock.current ≠ 1 ∧ locked.frame.inFrame = false := by
  decide +kernel
theorem witness_levels_wait : ({ inFrame 6 with now := 8900 } : State).frame.inFrame = true ∧
    ({ inFrame 6 with now := 8900 } : State).deadlineAt 6 ≤ 8900 + 400 := by decide +kernel
theorem witness_switch : switching.clock.switches.length = 1 ∧ switching.clock.relock = none := by decide +kernel
/-- Every source enabled, and none stable. -/
def starting : State := ({ up with clock := { up.clock with stable := 0 } } : State).setLive 0x01 0x108 0x7F
theorem witness_sources : starting.clock.refLost = false ∧ starting.mayStart 4 = true ∧ starting.mayStart (sourceIx .xta) = true ∧
    starting.mayStart 6 = true ∧ starting.sourceOn 4 = true := by decide +kernel
theorem witness_source_stop : (List.range 7).filter (fun b => up.sourceOn b && ! bit 0x7F (enableBit b)) = [] ∧
    ((List.range 7).filter (fun b => up.sourceOn b && ! bit 0 (enableBit b))).any up.sourceInUse = true ∧
    keysRise up.regs := by decide +kernel
theorem witness_meter : 8 ≤ bits 8 4 0 ∧ bits 8 4 0 ≤ 24 ∧ bits 8 11 8 ≤ 10 ∧ bits 8 13 12 ≠ 3 ∧ up.refOnly = false ∧
    bits 24 4 0 ≤ 24 ∧ bits 0xA08 11 8 ≤ 10 := by decide +kernel

/-! The calendar and Owl -/

theorem witness_calendar : up.power.vaon = true ∧ up.cal.lost = false ∧ up.cal.atEnd = false ∧ up.cal.second < 59 ∧
    ({ Calendar.reset with year := 2399, month := 12, day := 31, hour := 23, minute := 59, second := 59 } : Calendar).atEnd = true := by
  decide +kernel
theorem witness_staged : stagedOk (2000 + 2 * 2 ^ 16 + 29 * 2 ^ 24) 0 = true ∧ stagedOk (2399 + 12 * 2 ^ 16 + 31 * 2 ^ 24)
    (59 + 59 * 2 ^ 8 + 23 * 2 ^ 16) = true ∧ stagedOk (2100 + 2 * 2 ^ 16 + 29 * 2 ^ 24) 0 = false := by decide +kernel
theorem witness_owl_idle : up.power.stage = 5 ∧ up.owl.order = [] ∧ (up.box .portA).busy = false ∧ up.chanUp .portA = true ∧
    up.chanUp .uart = true ∧ up.power.v3p3 = true ∧ up.owl.journal = [] ∧ up.owl.session = none := by decide +kernel
/-- A request of an opcode with `n` bytes of data. -/
def req (op n : Nat) : List Byte := [BitVec.ofNat 8 op, 0, 0, 0, BitVec.ofNat 8 n, 0] ++ List.replicate (10 + n) 0
theorem witness_requests : up.reqFlaw .portA (req 1 0) = none ∧ reqOp (req 1 0) = 1 ∧ up.reqFlaw .portA (req 2 0) = none ∧
    up.reqFlaw .portA (req 3 0) = none ∧ up.reqFlaw .portA (req 4 8) = none ∧ up.reqFlaw .portA (req 5 0) = none ∧
    up.reqFlaw .portA (req 0x11 0) = none ∧ reqOp (req 0x12 0) = 0x12 ∧ reqLen (req 0x12 0) = 0 := by decide +kernel
theorem witness_crypto_requests : up.reqFlaw .portA (req 6 32) = none ∧ up.reqFlaw .portA (req 7 16) = none ∧
    up.reqFlaw .portA (req 8 32) = none ∧ up.reqFlaw .portA (req 9 0) = none ∧ up.reqFlaw .portA (req 0x0A 2) = none ∧
    up.reqFlaw .portA (req 0x0B 2) = none ∧ up.owl.pairing = none := by decide +kernel
theorem witness_update_requests : up.reqFlaw .portA (req 0x0C 4) = none ∧ up.reqFlaw .portA (req 0x0D 8) = none ∧
    up.reqFlaw .portA (req 0x0E 0) = none ∧ up.reqFlaw .portA (req 0x0F 0) = none := by decide +kernel
theorem witness_update_sizes : u32At [0, 0, 0x80, 0] 0 = 8388608 ∧ u32At [1, 0, 0x80, 0] 0 = 8388609 := by decide +kernel

/-! Storage -/

theorem witness_storage : up.hasStorage (.coreStore 47) = true ∧ storageUnit (.badgerCheck 15) = some (.badger, 15) ∧
    (up.view .badger 15).isSome = true ∧ (67108863 : Nat) < up.chip.capacity ∧ keysRise up.attn.errCount := by decide +kernel
/-- Tenant 0 has a quota of candidates. -/
def withQuota (s : State) : State := (withT s).setLive 0x20 0x12C 100
theorem witness_bitmap : ((withQuota up).tenant 0).exists' = true ∧ 0 < (withQuota up).candQuota 0 ∧
    (withQuota up).candBase 0 / 16 / 64 = ((withQuota up).candBase 0 + (withQuota up).candQuota 0 - 1) / 16 / 64 := by decide +kernel

/-! The cascade -/

/-- A frame of a kind with its CRC. -/
def frameOf (kind : Byte) (dest src aux : Nat) : LinkFrame :=
  { shortFrame with
    kind := kind, ttl := 8, len := 0, dest := BitVec.ofNat 16 dest, src := BitVec.ofNat 16 src, aux := BitVec.ofNat 32 aux }.signed
/-- Link 0 is UP, and this package has ID 1. -/
def linked : State :=
  ({ up with links := up.links.upd 0 fun k => { k with enabled := true, st := .up, dead := false } } : State).setLive 0x0D 0x100 1
theorem witness_links : (up.links.at' 7).enabled = false ∧ 7 < up.chip.nLinks ∧ up.ctlReaches (.port .a) (linkPage 7) = true ∧
    (linked.links.at' 0).st = .up ∧ (linked.links.at' 0).enabled = true ∧ (∀ v, (up.links.at' 7).waiting.at' v = []) ∧
    (up.links.at' 7).st ≠ .up ∧ shortFrame.valid = false ∧ keysRise up.cascade.routes := by
  decide +kernel
theorem witness_routed : (frameOf 3 1 2 15).valid = true ∧ (frameOf 3 1 2 15).dest = linked.pkgId ∧ (frameOf 3 1 2 15).src ≠ linked.pkgId ∧
    (frameOf 3 1 1 0).valid = true ∧ (frameOf 3 9 2 0).dest ≠ linked.pkgId ∧
    (linked.updCascade fun k => { k with routes := [(9, 0)] }).route 9 = 0 ∧
    (linked.updCascade fun k => { k with routes := [(9, 0)] }).noRoute 9 = false ∧ ((withT linked).tenant 0).state = .active := by decide +kernel
theorem witness_responses : (frameOf 0x11 1 2 0).valid = true ∧ linked.cascade.tags = [] ∧
    ({ linked with fault := { linked.fault with sram := true } } : State).held = false := by decide +kernel
/-- A member whose master, package 2, sends on link 0. -/
def member : State := ((linked.setLive 0x0D 0x104 2).setLive 0x0D 0x108 2).setLive 0x0D 0x10C 8
theorem witness_member : member.role = 2 ∧ (frameOf 0x22 0 2 0).valid = true ∧ member.fromMaster 0 (frameOf 0x22 0 2 0) = true ∧
    member.fromMaster 0 (frameOf 0x22 0 3 0) = false ∧
    ({ frameOf 0x21 0 2 0 with len := 4, payload := [0, 0, 0, 0] } : LinkFrame).signed.valid = true ∧
    (frameOf 0x23 0 0 0).valid = true ∧
    (frameOf 0x24 0 0 0).valid = true ∧ member.cascade.masterLost = false := by decide +kernel
/-- A lock-step pair in a frame. -/
def pair : State := ({ inFrame 0 with lynx := { (inFrame 0).lynx with comparing := true } } : State).setLive 0x0B 0x100 2
theorem witness_lynx : pair.lynxOn = true ∧ pair.frame.inFrame = true ∧ pair.windowAt pair.lynx.window < pair.deadlineAt 7 ∧
    (frameOf 0x26 0 0 0).kind = 0x26 ∧ pair.lynx.held = false := by decide +kernel

/-! Beaver -/

/-- A task record of a kind, HOME and time-out. -/
def taskRec (kind home timeout : Nat) : BitVec 256 := BitVec.ofNat 256 (kind + timeout * 2 ^ 112 + home * 2 ^ 224)
/-- A program of one task. -/
def oneTask (w : BitVec 256) : Program := ⟨{ shortImage with tasks := [w], dims := 0, buckets := [] }, 0, 0⟩
/-- Task 0 in its slot. -/
def task0 (st : TaskSt) : Task :=
  { index := 0, slot := 0, st := st, readyAt := 0, startAt := 0, deadlineUs := 100, partsLeft := 0, status := codeOk, timed := false,
    waitsOn := [], took := [], outs := [] }
/-- The one task of the running program. -/
def withTask (w : BitVec 256) (st : TaskSt) : State :=
  (inFrame 0).updSched 0 fun d => { d with slotA := some (oneTask w), running := true, tasks := [task0 st], nextFetch := 1 }
/-- The one task not yet fetched. -/
def unfetched : State :=
  ((withTask (taskRec 4 0 0) .ready).updSched 0 fun d => { d with tasks := [], nextFetch := 0 }).setLive 0x20 0x120 (2 ^ 16)
theorem witness_task_fetch : unfetched.mayFetch 0 = true ∧ (unfetched.tenant 0).sched.nextFetch < (unfetched.tenant 0).sched.taskCount ∧
    (unfetched.tenant 0).sched.tasks.length < unfetched.slotQuota 0 ∧ (unfetched.tenant 0).sched.pendingPreds 0 = 0 ∧
    unfetched.halted = false := by decide +kernel
theorem witness_part : (inFrame 0).usable .core 47 = true ∧ ((inFrame 0).core 47).run = none ∧
    (((inFrame 0).updCore 47 fun k => { k with ready := [part0] }).core 47).ready = [part0] := by decide +kernel
theorem witness_tasks_ready : (withTask (taskRec 1 1 0) .ready).readyTask 0 0 1 = true ∧
    (withTask (taskRec 1 7 0) .ready).readyTask 0 0 1 = true ∧ (withTask (taskRec 2 0 9) .ready).readyTask 0 0 2 = true ∧
    (withTask (taskRec 3 0 9) .ready).readyTask 0 0 3 = true ∧ (withTask (taskRec 4 0 0) .ready).readyTask 0 0 4 = true ∧
    ((withTask (taskRec 4 0 0) .ready).tenant 0).sched.groupFree 0 = true := by decide +kernel
theorem witness_tasks_home : trHome (taskRec 1 7 0) = 7 ∧ trTimeout (taskRec 2 0 9) = 9 ∧ trTimeout (taskRec 2 0 0) = 0 ∧
    linkRequestBad (padTo 32 []) = true := by decide +kernel
theorem witness_task_states : ((withTask (taskRec 2 0 9) .waiting).tenant 0).sched.task 0 = some (task0 .waiting) ∧
    ((withTask (taskRec 4 0 0) .complete).tenant 0).sched.task 0 = some (task0 .complete) := by decide +kernel
/-- Timer 63 is armed. -/
def armed : State := (inFrame 0).updSched 0 fun d => { d with timers := [⟨63, 8, 1, 0, 0, 1⟩] }
theorem witness_timer : ((armed.tenant 0).sched.timers.find? fun y => y.id = 63) = some ⟨63, 8, 1, 0, 0, 1⟩ ∧ (armed.tenant 0).live = true ∧
    armed.frame.passed < 8 ∧ armed.frame.runAt + 8 < armed.deadlineAt 7 := by decide +kernel
theorem witness_edge : (((inFrame 0).updSched 0 fun d => { d with running := true, detectors := d.detectors.upd 31 fun x =>
    { x with latched := true } }).tenant 0).sched.detectors.at' 31 = ⟨((inFrame 0).tenant 0).sched.detectors.at' 31 |>.cfg, true⟩ := by
  decide +kernel
theorem witness_deadlock : 64 ≤ (((inFrame 0).updSched 0 fun d => { d with deadEdges := 64 }).tenant 0).sched.deadEdges ∧
    (inFrame 0).frame.passed < 8 := by decide +kernel

/-! Bear, Jay and the cores -/

/-- A request for the smoothing of candidate 2 in slot 0. -/
def smoothReq : List Byte := [0, 1, 0, 0] ++ leBytes 4 36 ++ leBytes 8 0 ++ leBytes 4 100000 ++ List.replicate 12 0 ++ leBytes 4 2
theorem witness_smooth : (withUnits up).smoothShort 0 smoothReq = false ∧ (withUnits up).smoothBad 0 smoothReq = false ∧
    (withUnits up).usableOf 0 .bear = [0, 1] ∧ up.smoothShort 0 [] = true ∧ up.smoothBad 0 [] = true := by decide +kernel
/-- Slot 63 waits for Bear unit 1. -/
def slot63 : BearSlot := { slot := 63, source := 2, report := 0, task := 0, unit := 1, st := .queued }
theorem witness_slot : ((inFrame 4).updSolver 0 fun v => { v with slots := [slot63] }).nextSlot 1 = some (0, slot63) ∧
    (inFrame 4).phasePassed 5 = false ∧ ((inFrame 4).bear 1).view.serves = true ∧ ((inFrame 4).bear 1).solve = none ∧
    ((inFrame 4).tenant 0).table.cand 2 = none := by decide +kernel
/-- The candidate of slot 63's source, and the table that holds it CLEAR. -/
def withCand : State :=
  (withQuota (inFrame 4)).updTenant 0 fun n => { n with table := { n.table with cands := [(2, Cand.blank)], clear := [2] } }
theorem witness_source : (withCand.tenant 0).table.cand 2 = some Cand.blank ∧ (withCand.tenant 0).table.isClear (withCand.candBase 0) 2 = true ∧
    2 < withCand.candQuota 0 ∧ withCand.candPoisoned 0 2 = false := by decide +kernel
/-- Five free variables, each held by one row. -/
def solve0 (w : BitVec 64) : Solve :=
  { tenant := 0, slot := 63, source := 2, report := 0, fp64 := false, sub := 0, iters := 1, refineMax := 0, h := 0, vref := [0], kref := [0],
    init := [0, 0, 0, 0, 0], startX := 0, startY := 0, startHeading := 0, startSpeed := 0, lo := List.replicate 5 none,
    hi := List.replicate 5 none, hdiag := List.replicate 5 w, g := List.replicate 5 0, z := List.replicate 5 0, y := List.replicate 5 0,
    lamL := List.replicate 5 0, lamU := List.replicate 5 0, done := 0, refines := 0, alphas := [], illPosed := false, measUsed := false,
    measMissing := false, stop := false }
theorem witness_iterate_fails : (solve0 0).iterate.illPosed = true := by decide +kernel
theorem witness_iterate : ((solve0 0x3F800000).iterate.illPosed, (solve0 0x3F800000).iterate.done) = (false, 1) := by decide +kernel
/-- A request of Jay for one candidate. -/
def selWord : BitVec 512 := BitVec.ofNat 512 (1 * 2 ^ 8 + 64 * 2 ^ 32 + 2 * 2 ^ 64 + 2 * 2 ^ 96 + 48 * 2 ^ 320)
/-- The request in Jay's queue. -/
def selReq : SelReq := ⟨0, 0, 6, selWord, 0, none⟩
theorem witness_select : selectShort selWord = false ∧ (withUnits (withQuota up)).selectBad 0 6 selWord = false ∧
    (withUnits up).usableOf 0 .jay = [0, 1, 2, 3] ∧
    selectShort 0 = true ∧ ((withUnits up).jay 3).queue.length < 16 := by decide +kernel
theorem witness_select_start : ((inFrame 6).jay 3).view.serves = true ∧ ((inFrame 6).jay 3).run = none ∧ sqGroup selWord = 0 ∧
    (inFrame 6).selPoisoned 0 selWord 0 = false := by decide +kernel
/-- A run of that request. -/
def selRun (snapped tiles : Nat) : SelRun :=
  { req := selReq, v := 1, snapped := snapped, entries := [], tiles := tiles, stop := false, sent := [], incoming := [], failed := none }
theorem witness_select_pass : (selRun 1 0).snapDone = true ∧ (selRun 1 0).pass = some 0 ∧ (selRun 0 0).snapDone = false ∧
    (selRun 1 0).tiles < 1 * (selRun 1 0).perPass ∧ (selRun 1 99).complete = true ∧ (selRun 1 0).complete = false ∧
    sqTensor selWord = false := by decide +kernel
/-- A GEMM of one row of 2 columns in tiles of 1, with 2 products in steps of 1. -/
def gemm0 : BitVec 512 := BitVec.ofNat 512
  (1 * 2 ^ 32 + 2 * 2 ^ 64 + 2 * 2 ^ 96 + 64 * 2 ^ 320 + 64 * 2 ^ 352 + 64 * 2 ^ 384 + 1 * 2 ^ 416 + 1 * 2 ^ 432 + 1 * 2 ^ 448)
/-- Its program, running in tenant 0's lease of 64 MiB. -/
def gemming : State :=
  ((withTask (taskRec 0 0 0) .started).updSched 0 fun d => { d with
    slotA := some ⟨{ (oneTask (taskRec 0 0 0)).image with gemms := [gemm0] }, 0, 0⟩ }).setLive 0x20 0x130 (2 ^ 16)
theorem witness_gemm : let d := (gemming.tenant 0).sched
    let g := d.gemmCtx { (oneTask (taskRec 0 0 0)).image with gemms := [gemm0] } gemm0 (0, 0, 0) 0
    g.rows = 1 ∧ g.tiles = 2 ∧ g.steps = 2 ∧ fuChain g.f = 0 ∧ fuPeer g.f = 0 ∧ gemming.entryFault 0 g = false ∧
    gemming.gatherFault g = false ∧ gemming.rangeFault 0 (gemming.operandRanges g 0 0 true) [] = none ∧
    gemming.rangeFault 0 (gemming.operandRanges g 0 1 true ++ (g.outRanges 0 g.stores).1) (g.outRanges 0 g.stores).2 = none := by
  decide +kernel
/-- A fusion record that sends to the converter, or to virtual core 0. -/
def fusion (peer : Nat) : BitVec 1024 := BitVec.ofNat 1024 (peer * 2 ^ 576)
theorem witness_peer : fuPeer (fusion 1) = 1 ∧ fuPeer (fusion 2) = 2 ∧ gemming.usable .core (gemming.hostOf 0 0) = true ∧
    gemming.sendTurn [0, 1] ⟨0, [], []⟩ 0 0 1 = true := by decide +kernel

/-! ### Hypotheses met together -/

/-! The invariant does not read the tenants or the units, and a register written keeps it. -/

theorem inv_setLive {s : State} (h : s.Inv) (p o v : Nat) : (s.setLive p o v).Inv := { h with regs := keysRise_filePut _ h.regs _ _ _ }
theorem inv_updTenant {s : State} (h : s.Inv) (t : Fin 16) (f : Tenant → Tenant) : (s.updTenant t f).Inv := { h with }
theorem inv_cores {s : State} (h : s.Inv) (b : Bank Core 48) : ({ s with cores := b } : State).Inv := { h with }
theorem inv_bears {s : State} (h : s.Inv) (b : Bank BearUnit 2) : ({ s with bears := b } : State).Inv := { h with }
theorem inv_jays {s : State} (h : s.Inv) (b : Bank JayUnit 4) : ({ s with jays := b } : State).Inv := { h with }

/-- Front and the converter at work in phase 2. -/
def searching (f : FrontStage) (p : Nat) (row : List F32) : State := (withUnits (inFrame 2)).updTenant 0 fun n =>
  { n with world := { n.world with view := some view0 }, search := { n.search with front := f, fox := [(p, row)] } }
theorem searching_inv (f : FrontStage) (p : Nat) (row : List F32) : (searching f p row).Inv :=
  inv_updTenant (inv_setLive (inFrame_inv 2 (by decide)) _ _ _) _ _
theorem witness_search : ∀ f ∈ [FrontStage.requested, .done], (searching f 0 []).held = false ∧ (searching f 0 []).halted = false ∧
    ((searching f 0 []).tenant 0).world.view = some view0 ∧ ((searching f 0 []).tenant 0).search.front = f ∧
    (searching f 0 []).phasePassed 3 = false ∧ (searching f 0 []).usableOf 0 .front ≠ [] ∧
    ((searching f 0 []).tenant 0).search.ended = none ∧ ((searching f 0 []).tenant 0).search.resume = none ∧
    ((searching f 0 []).tenant 0).table.stalls 5248 (2 ^ 20) = false ∧ ((searching f 0 []).tenant 0).table.stalls 1152 5248 = false ∧
    (searching f 0 []).frame.passed < 8 := by decide +kernel
theorem witness_rows : ((searching .done 4095 []).convertRow 0 4095 []).isSome = true ∧
    (searching .done 4095 [0, 0x7FC00000]).convertRow 0 4095 [0, 0x7FC00000] = none ∧ (searching .done 4096 []).phasePassed 3 = false := by
  decide +kernel

/-- Engine 15 holds two checks, or checks candidate 2 of tenant 0. -/
def checking (c : Option Entry) (spoiled : Bool) : State :=
  let s := (withQuota (inFrame 2)).updTenant 0 fun n =>
    { n with world := { n.world with view := some view0 }, table := { n.table with cands := [(0, Cand.blank), (2, Cand.blank)] } }
  { s with engines := s.engines.upd 15 fun e => { e with queue := [⟨0, 2⟩, ⟨0, 0⟩], current := c, spoiled := spoiled } }
theorem witness_check_start : (checking none false).held = false ∧ (checking none false).halted = false ∧
    (checking none false).frame.opening = false ∧ (checking none false).frame.inFrame = true ∧
    ((checking none false).engines.at' 15).view.serves = true ∧
    (checking none false).nextCheck ((checking none false).engines.at' 15).queue = some ⟨0, 0⟩ ∧
    (checking none false).nextCheck [⟨0, 2⟩] = none := by decide +kernel
theorem witness_check_end : ∀ b, (checking (some ⟨0, 2⟩) b).held = false ∧ (checking (some ⟨0, 2⟩) b).halted = false ∧
    ((checking (some ⟨0, 2⟩) b).engines.at' 15).current = some ⟨0, 2⟩ ∧ ((checking (some ⟨0, 2⟩) b).tenant 0).world.view = some view0 ∧
    ((checking (some ⟨0, 2⟩) b).tenant 0).table.cand 2 = some Cand.blank ∧ (checking (some ⟨0, 2⟩) b).candPoisoned 0 2 = false ∧
    ((checking (some ⟨0, 2⟩) b).engines.at' 15).spoiled = b := by decide +kernel

/-- Link 0 is UP between twins, and tenant 0 takes the witness records of its peer's. -/
def twins : State :=
  ({ withT linked with
    owl := { linked.owl with board := { linked.owl.board with twin := true } }
    links := linked.links.upd 0 fun k => { k with granted := true, peer := 2 } } : State).setLive 0x20 0x134 0x90
/-- A witness record of package 2. -/
def recordFrame : LinkFrame := { frameOf 0x15 1 2 0 with len := 256, payload := List.replicate 256 0 }.signed
theorem signed_crc (f : LinkFrame) : f.signed.crc = f.signed.crcOf := rfl
theorem witness_record_frame : recordFrame.valid = true := by
  rw [LinkFrame.valid, Bool.and_eq_true, decide_eq_true_eq]
  exact ⟨by decide +kernel, signed_crc _⟩
theorem witness_witness : twins.held = false ∧ (twins.links.at' 0).st = .up ∧
    recordFrame.dest = twins.pkgId ∧ recordFrame.src = (twins.links.at' 0).peer ∧ recordFrame.src ≠ twins.pkgId ∧ recordFrame.aux.toNat = 0 ∧
    bit (twins.lease 0 0x134) 7 = true ∧ bit (twins.lease 0 0x134) 4 = true ∧ (twins.tenant 0).exists' = true ∧
    twins.writesStopped = false ∧ twins.owl.board.twin = true ∧ (twins.tenant 0).witnessMissed.contains 0 = false ∧
    (twins.links.at' 0).granted = true ∧ (linked.links.at' 0).granted = false := by decide +kernel
theorem witness_window : ((((withT linked).setLive 0x20 0x130 (2 ^ 16)).setLive 0x0D 0x120 (3 * 2 ^ 30 + 2 ^ 10)).windowOpen 0 256 true) = true
    := by
  decide +kernel
theorem witness_lynx_held : ({ linked with lynx := { linked.lynx with held := true } } : State).held = false ∧
    ({ linked with lynx := { linked.lynx with held := true } } : State).lynx.held = true ∧
    ({ linked with lynx := { linked.lynx with held := true } } : State).lynxOn = false := by decide +kernel

/-- Tenant 0's program of two tasks in a lease of cores and DRAM, the first record next. -/
def fetchable (w : BitVec 256) (k : Nat) : State :=
  ((((inFrame k).updSched 0 fun d => { d with
    slotA := some ⟨{ shortImage with tasks := [w, w], gemms := [gemm0], dims := 0, buckets := [] }, 0, 0⟩, running := true }).setLive
      0x20 0x110 1).setLive 0x20 0x114 1).setLive 0x20 0x120 (2 ^ 16)
theorem fetchable_inv (w : BitVec 256) (k : Nat) (h : k ≤ 8) : (fetchable w k).Inv :=
  inv_setLive (inv_setLive (inv_setLive (inv_updTenant (inFrame_inv k h) _ _) _ _ _) _ _ _) _ _ _
theorem witness_next_task : ∀ x ∈ [(taskRec 4 0 0, 0), (taskRec 0 0 0, 0), (taskRec 4 0 0, 1), (2 ^ 32, 0)],
    (fetchable x.1 x.2).held = false ∧ (fetchable x.1 x.2).halted = false ∧ (fetchable x.1 x.2).fetchNext = some 0 := by decide +kernel
theorem witness_task_kinds : ((fetchable (2 ^ 32) 0).tenant 0).sched.pendingPreds 0 ≠ 0 ∧
    ((fetchable (taskRec 0 0 0) 0).tenant 0).sched.pendingPreds 0 = 0 ∧ (fetchable (taskRec 0 0 0) 0).phasePassed 0 = false ∧
    (fetchable (taskRec 4 0 0) 1).phasePassed 0 = true ∧ (fetchable (taskRec 0 0 0) 0).unitsOfTask 0 0 ≠ [] ∧
    ((fetchable (taskRec 0 0 0) 0).coreFor 0 0).isSome = true := by decide +kernel
/-- A part waits on core 47. -/
def partWaits : State := (fetchable (taskRec 0 0 0) 0).updCore 47 fun k => { k with ready := [part0] }
theorem witness_part_start : partWaits.held = false ∧ partWaits.halted = false ∧ partWaits.frame.inFrame = true ∧ partWaits.frame.opening = false ∧
    partWaits.usable .core 47 = true ∧ (partWaits.core 47).run = none ∧ (partWaits.core 47).ready = [part0] ∧
    partWaits.listFault 47 part0 = none := by decide +kernel
/-- Engine tasks with a request in the lease and outside it. -/
def requesting (w : BitVec 256) : State := (withTask w .ready).setLive 0x20 0x130 (2 ^ 16)
theorem witness_requests_read : ∀ home ∈ [0, 1, 2, 3, 4], (requesting (taskRec 1 home 0)).readyTask 0 0 1 = true ∧
    (match (requesting (taskRec 1 home 0)).readRequest 0 0 with | .ok _ => true | .error _ => false) = true ∧
    (requesting (taskRec 1 home 0)).held = false ∧
    (requesting (taskRec 1 home 0)).halted = false ∧ ((requesting (taskRec 1 home 0)).tenant 0).sched.groupFree 0 = true ∧
    ((requesting (taskRec 1 home 0)).tenant 0).search.front = .notRun := by decide +kernel
theorem witness_request_refused : (match (withTask (taskRec 1 1 0) .ready).readRequest 0 0 with | .ok _ => true | .error _ => false) = false ∧
    (withTask (taskRec 1 1 0) .ready).readyTask 0 0 1 = true := by decide +kernel
theorem requesting_inv (w : BitVec 256) : (requesting w).Inv := inv_setLive (inv_updTenant (inFrame_inv 0 (by decide)) _ _) _ _ _

/-- The WAIT of task 0 waits until `dl`. -/
def waiting (dl : Nat) : State := (inFrame 0).updSched 0 fun d =>
  { d with slotA := some (oneTask (taskRec 2 0 9)), running := true, tasks := [{ task0 .waiting with deadlineUs := dl }], nextFetch := 1 }
theorem task_inv (f : Sched → Sched) : ((inFrame 0).updSched 0 f).Inv := inv_updTenant (inFrame_inv 0 (by decide)) _ _
theorem witness_wait_starts : ∀ x ∈ [(2, 9), (2, 0), (2 + 2 ^ 25, 0)], (withTask (taskRec x.1 0 x.2) .ready).held = false ∧
    (withTask (taskRec x.1 0 x.2) .ready).halted = false ∧
    (withTask (taskRec x.1 0 x.2) .ready).readyTask 0 0 2 = true ∧ ((withTask (taskRec x.1 0 x.2) .ready).tenant 0).sched.delayUsed < 512 ∧
    ((withTask (taskRec x.1 0 x.2) .ready).tenant 0).sched.firstSatisfied = none ∧
    satisfied ((withTask (taskRec x.1 0 x.2) .ready).tenant 0).sched.flags (taskRec x.1 0 x.2) = decide (2 < x.1) := by decide +kernel
theorem witness_wait_expires : (waiting 50).Inv ∧ (waiting 50).held = false ∧ (waiting 50).halted = false ∧
    ((waiting 50).tenant 0).sched.task 0 = some { task0 .waiting with deadlineUs := 50 } ∧ (waiting 50).delayRuns 0 = true ∧
    (waiting 50).mayExpire 0 { task0 .waiting with deadlineUs := 50 } = true ∧ 50 < (waiting 50).deadlineAt 7 ∧
    ((waiting 50).tenant 0).sched.firstSatisfied = none ∧ (waiting 50).othersLater 0 (max (waiting 50).now 50) ∧
    max (waiting 50).now 50 < (waiting 50).now + (64 - ((waiting 50).tenant 0).sched.deadEdges) ∧
    (∀ y ∈ ((waiting 50).tenant 0).sched.tasks, y = { task0 .waiting with deadlineUs := 50 }) ∧ ((waiting 50).tenant 0).sched.timers = [] :=
  ⟨task_inv _, by decide +kernel, by decide +kernel, by decide +kernel, by decide +kernel, by decide +kernel, by decide +kernel,
    by decide +kernel, othersLater_of _ _ _ (by decide +kernel), by decide +kernel, by decide +kernel, by decide +kernel⟩
theorem witness_wait_passes : (waiting 1000).delayRuns 0 = true ∧ (waiting 1000).deadlineAt 0 = 1000 ∧
    (waiting 1000).mayExpire 0 { task0 .waiting with deadlineUs := 1000 } = false := by decide +kernel
theorem witness_timer_fires : armed.Inv ∧ armed.held = false ∧ armed.halted = false ∧ armed.delayRuns 0 = true ∧ armed.schedTime ≤ 8 ∧
    armed.now + (8 - armed.schedTime) < armed.deadlineAt 7 ∧ (armed.tenant 0).sched.deadEdges < 64 ∧
    armed.othersLater 0 (armed.now + (8 - armed.schedTime)) ∧ (armed.tenant 0).sched.tasks = [] ∧
    (armed.tenant 0).sched.unawaited 1 :=
  ⟨task_inv _, by decide +kernel, by decide +kernel, by decide +kernel, by decide +kernel, by decide +kernel, by decide +kernel,
    othersLater_of _ _ _ (by decide +kernel), by decide +kernel, by decide +kernel, by
      have h : (armed.tenant 0).sched.tasks = [] := by decide +kernel
      simp [h]⟩
theorem witness_deadlock_counts : (waiting 1000).deadTest 0 = true ∧ ((waiting 1000).tenant 0).sched.deadEdges < 64 ∧
    ((waiting 1000).tenant 0).sched.firstSatisfied = none ∧ (waiting 1000).now + 64 < (waiting 1000).deadlineAt 7 ∧
    (waiting 1000).othersLater 0 ((waiting 1000).now + 64) :=
  ⟨by decide +kernel, by decide +kernel, by decide +kernel, by decide +kernel, othersLater_of _ _ _ (by decide +kernel)⟩

/-- Bear has a request, a slot that waits, and a solve. -/
def smoothing (v : Option Solve) (issued : List (Nat × List Byte)) : State :=
  let s := withUnits (withCand.updSolver 0 fun x => { x with issued := issued, slots := [{ slot63 with st := if v.isSome then .running else
    .queued }] })
  { s with bears := s.bears.upd 1 fun b => { b with solve := v } }
theorem smoothing_inv (v : Option Solve) (l : List (Nat × List Byte)) : (smoothing v l).Inv :=
  inv_bears (inv_setLive (inv_updTenant (inv_updTenant (inv_setLive (inv_updTenant
    (inFrame_inv 4 (by decide)) _ _) _ _ _) _ _) _ _) _ _ _) _
theorem witness_smooth_request : ∀ b ∈ [smoothReq, []], ((smoothing none [(0, b)]).tenant 0).solver.issued = [(0, b)] ∧
    (smoothing none [(0, b)]).held = false ∧ (smoothing none [(0, b)]).halted = false ∧
    (smoothing none [(0, b)]).smoothShort 0 b = decide (b = []) ∧ (smoothing none [(0, b)]).usableOf 0 .bear ≠ [] := by decide +kernel
theorem witness_solve_start : (smoothing none []).frame.inFrame = true ∧ (smoothing none []).frame.opening = false ∧
    (smoothing none []).phasePassed 5 = false ∧ ((smoothing none []).bear 1).view.serves = true ∧ ((smoothing none []).bear 1).solve = none ∧
    (smoothing none []).bearStalled 1 = false ∧ (smoothing none []).nextSlot 1 = some (0, slot63) ∧
    ((smoothing none []).tenant 0).table.cand 2 = some Cand.blank ∧
    ((smoothing none []).tenant 0).table.isClear ((smoothing none []).candBase 0) 2 = true ∧ 2 < (smoothing none []).candQuota 0 ∧
    (smoothing none []).candPoisoned 0 2 = false ∧ Cand.blank.kind ≠ 2 ∧ Cand.blank.mode ≠ 3 := by decide +kernel
theorem witness_solve : ((smoothing (some (solve0 0)) []).bear 1).solve = some (solve0 0) ∧ (solve0 0).illPosed = false ∧
    (solve0 0).done < (solve0 0).iters ∧
    (smoothing (some (solve0 0)) []).slotOfSolve (solve0 0) = some { slot63 with st := .running } := by decide +kernel
/-- A solve at the solution of a problem at rest, its one iteration done. -/
def solved : Solve :=
  { solve0 0 with
    sub := 1, done := 1, vref := List.replicate 12 0, kref := List.replicate 12 0, lo := List.replicate 82 none, hi := List.replicate 82 none
    hdiag := List.replicate 82 0, g := List.replicate 82 0, z := List.replicate 82 0, y := List.replicate 60 0
    lamL := List.replicate 82 0, lamU := List.replicate 82 0 }
theorem witness_solved : solved.stuck (Model.default.field solved.fmt 10) = false ∧
    fpLe solved.fmt (normInf solved.fmt solved.rp) (Model.default.field solved.fmt 10) = true ∧
    fpLe solved.fmt (normInf solved.fmt solved.rd) (Model.default.field solved.fmt 11) = true ∧
    fpLe solved.fmt solved.mu (Model.default.field solved.fmt 12) = true := by decide +kernel
/-- Jay has a request, one in its queue, and a run. -/
def selecting (r : Option SelRun) (issued : List (Nat × Nat × List Byte)) (n : Nat) : State :=
  let s := withUnits ((withQuota (inFrame 6)).updTenant 0 fun x => { x with sel := { x.sel with issued := issued } })
  { s with jays := s.jays.upd 3 fun j => { j with queue := List.replicate n selReq, run := r } }
theorem selecting_inv (r : Option SelRun) (l : List (Nat × Nat × List Byte)) (n : Nat) : (selecting r l n).Inv :=
  inv_jays (inv_setLive (inv_updTenant (inv_setLive (inv_updTenant (inFrame_inv 6 (by decide)) _ _) _ _ _) _ _) _ _ _) _
theorem witness_select_request : ((selecting none [(0, 6, [])] 0).tenant 0).sel.issued = [(0, 6, [])] ∧ selectShort 0 = true ∧
    (selecting none [(0, 6, [])] 0).selectBad 0 6 selWord = false ∧ (selecting none [(0, 6, [])] 0).usableOf 0 .jay = [0, 1, 2, 3] ∧
    ((selecting none [] 16).jay 3).queue.length = 16 ∧ (selecting none [] 0).held = false ∧ (selecting none [] 0).halted = false := by
  decide +kernel
theorem witness_select_starts : (selecting none [] 1).frame.inFrame = true ∧ (selecting none [] 1).frame.opening = false ∧
    ((selecting none [] 1).jay 3).view.serves = true ∧ ((selecting none [] 1).jay 3).run = none ∧
    ((selecting none [] 1).jay 3).queue = [selReq] ∧ sqGroup selWord = 0 ∧ selReq.snap = none ∧
    (selecting none [] 1).selPoisoned 0 selWord 0 = false := by decide +kernel
theorem witness_select_runs : ∀ x ∈ [(0, 0), (1, 0), (1, 99)], ((selecting (some (selRun x.1 x.2)) [] 0).jay 3).run = some (selRun x.1 x.2) ∧
    ((selecting (some (selRun x.1 x.2)) [] 0).jay 3).view.serves = true ∧ (selRun x.1 x.2).failed = none ∧ (selRun x.1 x.2).stop = false ∧
    (selRun x.1 x.2).complete = decide (x.2 = 99) := by decide +kernel
theorem witness_select_result : (((selecting none [] 0).setLive 0x20 0x130 (2 ^ 16)).inLease 0 (sqOut selWord) (selRun 1
    99).localResult.2.2.2.2.length) = true := by
  decide +kernel

/-- The program of task 0: its GEMM with the fusion record `f`, where that is not 0, and a plain one. -/
def fused (f : BitVec 1024) : ProgramImage :=
  { shortImage with
    tasks := [taskRec 0 0 0], gemms := [if f = 0 then gemm0 else gemm0 + BitVec.ofNat 512 (2 ^ 511), gemm0], fusions := [f], dims := 0
    buckets := [] }
/-- Core 47 runs a part of it in tenant 0's lease of one core and 64 MiB. -/
def coring (f : BitVec 1024) (r : Run) : State :=
  let s := ((((inFrame 0).updSched 0 fun d => { d with
    slotA := some ⟨fused f, 0, 0⟩, running := true, tasks := [task0 .started], nextFetch := 1 }).setLive 0x20 0x130 (2 ^ 16)).setLive
      0x20 0x110 1).setLive 0x20 0x114 1
  { s with cores := s.cores.upd 47 fun k => { k with run := some r } }
theorem coring_inv (f : BitVec 1024) (r : Run) : (coring f r).Inv :=
  inv_cores (inv_setLive (inv_setLive (inv_setLive (inv_updTenant (inFrame_inv 0 (by decide)) _ _) _ _ _) _ _ _) _ _ _) _
theorem coring_answered (f : BitVec 1024) (r : Run) : (coring f r).answered r.part := by
  intro g hg
  have h : up.cascade.tags = [] := by decide +kernel
  exact absurd (h ▸ hg : g ∈ ([] : List OutTag)) List.not_mem_nil
/-- What every clause about a core's part asks. -/
def atWork (f : BitVec 1024) (r : Run) : Bool :=
  (coring f r).held = false && (coring f r).halted = false && ((coring f r).core 47).run = some r
    && ((coring f r).tenant 0).sched.image = some (fused f) && (fused f).gemms[trWork (((coring f r).tenant 0).sched.rec' 0)]? = (fused f).gemms[0]?
/-- The GEMM that the part runs, and the second of its chain. -/
def ctxOf (f : BitVec 1024) : GemmCtx := ((coring f run0).tenant 0).sched.gemmCtx (fused f) (lget 0 (fused f).gemms 0) (0, 0, 0) 0
def chainOf (f : BitVec 1024) : GemmCtx := ((coring f run0).tenant 0).sched.chainCtx (fused f) (ctxOf f)
theorem witness_reduction : atWork 0 run0 = true ∧ run0.outgoing = none ∧ run0.finished = false ∧ run0.second = false ∧ run0.closing = false ∧
    run0.col < (ctxOf 0).tiles ∧ (coring 0 run0).entryFault 0 (ctxOf 0) = false ∧ (coring 0 run0).gatherFault (ctxOf 0) = false ∧
    (coring 0 run0).rangeFault 0 ((coring 0 run0).operandRanges (ctxOf 0) 0 0 true) [] = none ∧ (ctxOf 0).accInit = false := by decide +kernel
theorem witness_epilogue : atWork 0 { run0 with closing := true } = true ∧ run0.col + 1 < (ctxOf 0).tiles ∧
    (coring 0 { run0 with closing := true }).rangeFault 0 ((ctxOf 0).outRanges 0 (ctxOf 0).stores).1 ((ctxOf 0).outRanges 0 (ctxOf 0).stores).2 =
    none ∧
    atWork 0 { run0 with closing := true, col := 1 } = true ∧ (ctxOf 0).tiles ≤ 1 + 1 ∧ fuChain (ctxOf 0).f ≠ 1 := by decide +kernel
/-- A fusion record that chains the second GEMM with SOFTMAX, or with KEEP. -/
def chain (k : Nat) : BitVec 1024 := BitVec.ofNat 1024 (k * 2 ^ 32 + 2 ^ 48)
theorem witness_score_tile : atWork (chain 2) { run0 with closing := true } = true ∧ fuChain (ctxOf (chain 2)).f = 2 ∧
    run0.col < (ctxOf (chain 2)).tiles ∧
    (coring (chain 2) run0).rangeFault 0 (((ctxOf (chain 2)).outRanges 0 false).1 ++
      (coring (chain 2) run0).operandRanges (chainOf (chain 2)) 0 0 false) [] = none := by decide +kernel
theorem witness_final_division : ∀ c, atWork (chain 2) { run0 with second := true, closing := c } = true ∧ (chainOf (chain 2)).stores = true ∧
    (coring (chain 2) run0).rangeFault 0 ((chainOf (chain 2)).outRanges 0 true).1 ((chainOf (chain 2)).outRanges 0 true).2 = none := by
  decide +kernel
theorem witness_second_gemm : atWork (chain 1) { run0 with col := 2 } = true ∧ (ctxOf (chain 1)).tiles ≤ 2 ∧ fuChain (ctxOf (chain 1)).f ≠ 0 ∧
    run0.from' < (chainOf (chain 1)).tiles := by decide +kernel
/-- A tile to send. -/
def tile0 : Outgoing := { q := 0, row0 := 0, col0 := 0, rows := 1, cols := 1, second := false, elems := [0], sent := 0 }
theorem witness_sends : ∀ k ∈ [1, 2, 3], atWork (fusion k) { run0 with outgoing := some tile0 } = true ∧
    fuPeer (fusionOf (fused (fusion k)) (lget 0 (fused (fusion k)).gemms 0)) = k ∧
    (coring (fusion k) run0).sendTurn ((coring (fusion k) run0).sendOrder 0 0 2) (((coring (fusion k) run0).tenant 0).sched.ring 0) 0 0 1 = true ∧
    (coring (fusion k) run0).usable .core ((coring (fusion k) run0).hostOf 0 0) = true ∧
    ((coring (fusion k) run0).tenant 0).sched.firstSatisfied = none ∧
    ((coring (fusion k) run0).tenant 0).table.stalls 1152 5248 = false ∧ (coring (fusion k) run0).coreDma 47 < 32 := by decide +kernel
theorem witness_link : (linked.updCascade fun k => { k with routes := [(9, 0)] }).reachable 9 = true ∧
    ({ linked with
      links := linked.links.upd 0 (fun k => { k with granted := true, credits := Vector.replicate 3 64 })
      cascade := { linked.cascade with routes := [(9, 0)] } } : State).accepts 9 = true ∧
    (linked.updCascade fun k => { k with routes := [(9, 0)] }).accepts 9 = false ∧
    (linkPieces (fusion 3) 64 4 tile0).length = 1 := by decide +kernel

/-! ### Single steps, with results the rules state -/

/-- The state after a command. -/
def after (i : Instr) (s : State) : State := match exec i s with | .next t => t | _ => s

/-- The seconds counter as the calendar reaches its end (18 R702). -/
theorem test_calendar_end_seconds : secondsOf 2399 12 31 23 59 59 = 12622780799 := by decide +kernel
/-- 28 February of 2100 is followed by 1 March (18 R701). -/
theorem test_century_is_no_leap_year :
    ((Calendar.tick { Calendar.reset with year := 2100, month := 2, day := 28, hour := 23, minute := 59, second := 59 }).month,
      (Calendar.tick { Calendar.reset with year := 2100, month := 2, day := 28, hour := 23, minute := 59, second := 59 }).day) = (3, 1) := by
  decide +kernel
/-- The deadlines of the reset budgets (01 R28). -/
theorem test_reset_deadlines : (List.range 8).map up.deadlineAt = [1000, 2200, 3700, 5200, 7600, 8800, 9200, 9900] := by decide +kernel
/-- RUN starts frames with the next tick, and no frame runs yet (01 R25). -/
theorem test_run_awaits_tick : (after (.run (.port .a) true) up).frame.run = true ∧ (after (.run (.port .a) true) up).frame.inFrame = false := by
  decide +kernel
/-- A release with no condition ends SAFE_STATE (01 R56). -/
theorem test_release : (after (.safeCtrlRelease (.port .a)) { up with frame := { Frame.reset with safePin := true } }).frame.safePin = false := by
  decide +kernel
/-- A release while the frame has a condition is refused (01 R56). -/
theorem test_release_refused : (after (.safeCtrlRelease (.port .a))
    { up with frame := { Frame.reset with safePin := true, safeNow := true, ranSinceReset := true } }).frame.safePin = true := by decide +kernel
/-- IDCODE holds 0x15B3_00A7 for stepping A1 (20 R764). -/
theorem test_idcode : (after .idcode up).jtag.ir = 0x01 := by decide +kernel

end Sys2Proof.Tests
end

section
/-! SUPPORT. What a port's read of BAR0 answers and clears (00 R8; 12 R459), and the reads of the counts. -/
namespace Sys2Proof.Machine
open Sys2Proof

/-! ### What a read clears does not depend on the port's own side -/

theorem State.peakBase_updCfg (s : State) (p : Port) (f : PortCfg → PortCfg) (page off : Nat) :
    (s.updCfg p f).peakBase page off = s.peakBase page off := by
  cases p <;> rfl

theorem State.setLive_updCfg (s : State) (p : Port) (f : PortCfg → PortCfg) (page off v : Nat) :
    (s.updCfg p f).setLive page off v = (s.setLive page off v).updCfg p f := by
  cases p <;> rfl

theorem State.updLink_updCfg (s : State) (p : Port) (f : PortCfg → PortCfg) (l : Nat) (g : Link → Link) :
    (s.updCfg p f).updLink l g = (s.updLink l g).updCfg p f := by
  cases p <;> rfl

theorem State.clearRead_updCfg (s : State) (p : Port) (f : PortCfg → PortCfg) (page off : Nat) :
    (s.updCfg p f).clearRead page off = (s.clearRead page off).updCfg p f := by
  unfold State.clearRead
  split
  · cases p <;> rfl
  · split
    iterate 6 · cases p <;> rfl
    split
    · rfl
    · split
      · rfl
      · split
        · rw [updLink_updCfg]
        · rw [peakBase_updCfg, setLive_updCfg]

/-- A read of a page the port reaches clears what the read clears and then moves the port's side alone: its data is the holding copy where
one stands, and the register's value otherwise. -/
theorem State.bar0Read_eq {s : State} {p : Port} {page off : Nat} (hup : s.portUp p = true) (hoff : off % 4 = 0)
    (hmay : s.mayRead p page = true) :
    ∃ f : PortCfg → PortCfg, s.bar0Read p page off = (s.clearRead page off).updCfg p f ∧
      ∀ c, (f c).readData = (mfind (s.cfg p).holds (regKey page off)).getD (BitVec.ofNat 32 (s.regValue p page off)) := by
  unfold State.bar0Read
  simp only [hup, hoff, hmay, Bool.not_true, Bool.false_eq_true, if_false, ne_eq, not_true_eq_false, decide_false, Bool.or_self]
  refine ⟨_, State.clearRead_updCfg s p _ page off, fun c => ?_⟩
  cases h : mfind (s.cfg p).holds (regKey page off) <;> rfl

/-- A port's read of a page it reaches answers the register's value, and leaves what the read clears but for the port's own side and the
settling of attention. -/
theorem State.read_answers {s : State} {p : Port} {page off : Nat} (hup : s.portUp p = true) (hoff : off % 4 = 0)
    (hmay : s.mayRead p page = true) :
    ∃ t, done (s.bar0Read p page off) = .next t ∧ Answers s t p page off (s.regValue p page off) ∧
      Touches [.cfgA, .cfgB, .attn, .tSched] (s.clearRead page off) t ∧
      t.attn.errCount = (s.clearRead page off).attn.errCount := by
  obtain ⟨f, hread, hdata⟩ := State.bar0Read_eq (s := s) (p := p) hup hoff hmay
  refine ⟨_, rfl, ?_, ?_, ?_⟩
  · simp [Answers, hread, hdata]
  · rw [hread]
    exact settle_touches _ (by decide) (State.updCfg_touches _ p f (by decide) (Touches.refl _ _))
  · rw [hread]
    cases p <;> simp [State.updCfg]

/-! ### The rows of the counts -/

/-- The register is a count: a row of class A, one for both ports, that a read clears (00 R8 RC). -/
structure CountRow (page off : Nat) (r : Reg) : Prop where
  found : ∃ i, regFind page off = some (r, i)
  cls : r.cls = .a
  shared : r.writer = .ctl
  clears : r.rc ≠ 0

/-- A row of the table is the register's on every page of its array, but for the queue pages, whose rows differ by queue (11 R417). -/
theorem regFind_of_pageBase {page b off i : Nat} {r : Reg} (hb : pageBase page = some b)
    (hf : regFindIn off (regsOf b) = some (r, i)) (hq : r.page ≠ 0x40) : regFind page off = some (r, i) := by
  simp [regFind, hb, hf, Reg.onPage, hq]

theorem CountRow.of_pageBase {page b off i : Nat} {r : Reg} (hb : pageBase page = some b)
    (hf : regFindIn off (regsOf b) = some (r, i)) (hr : r.page ≠ 0x40 ∧ r.cls = .a ∧ r.writer = .ctl ∧ r.rc ≠ 0) :
    CountRow page off r := by
  obtain ⟨hpage, hcls, hwriter, hrc⟩ := hr
  exact ⟨⟨i, regFind_of_pageBase hb hf hpage⟩, hcls, hwriter, hrc⟩

theorem CountRow.regValue_state {page off v : Nat} {r : Reg} {s : State} {p : Port} (h : CountRow page off r) (hoff : 0x100 ≤ off)
    (hs : s.stateReg p page off = some v) : s.regValue p page off = v := by
  obtain ⟨i, hf⟩ := h.found
  simp [State.regValue, hf, h.cls, hs, Nat.not_lt.mpr hoff]

theorem CountRow.regValue_stored {page off : Nat} {r : Reg} {s : State} {p : Port} (h : CountRow page off r) (hoff : 0x100 ≤ off)
    (hs : s.stateReg p page off = none) : s.regValue p page off = s.live page off := by
  obtain ⟨i, hf⟩ := h.found
  simp [State.regValue, hf, h.cls, hs, Nat.not_lt.mpr hoff, filePage, h.shared]

/-- A count kept in the live file starts again at what stands now; the counts that the state keeps elsewhere are not of these. -/
theorem CountRow.clearRead_stored {page off : Nat} {r : Reg} {s : State} {p : Port} (h : CountRow page off r) (hoff : 0x100 ≤ off)
    (hl : r.page ≠ 0x160) (hs : s.stateReg p page off = none) :
    s.clearRead page off = s.setLive page off (s.peakBase page off) := by
  obtain ⟨i, hf⟩ := h.found
  unfold State.clearRead
  rw [if_neg (by omega)]
  split
  iterate 6 · cases hs
  simp only [hf, h.clears, hl, if_false]

theorem CountRow.clearRead_link {page off : Nat} {r : Reg} {s : State} (h : CountRow page off r) (hoff : 0x100 ≤ off)
    (hp : 0x160 ≤ page) (hl : r.page = 0x160) :
    s.clearRead page off = s.updLink (page - 0x160) fun k => { k with replays := 0, retrains := 0 } := by
  obtain ⟨i, hf⟩ := h.found
  unfold State.clearRead
  rw [if_neg (by omega)]
  split
  iterate 6 · omega
  simp only [hf, h.clears, hl, if_false, if_true]

/-! ### The registers of the units' pages -/

theorem State.stateReg_of_unitPage (s : State) (p : Port) {page : Nat} (h : 0x100 ≤ page) (off : Nat) :
    s.stateReg p page off =
      if 0x100 ≤ page ∧ page < 0x130 then s.coreReg (page - 0x100) off
      else if 0x140 ≤ page ∧ page < 0x150 then s.engineReg (page - 0x140) off
      else if 0x160 ≤ page ∧ page < 0x168 then s.linkReg (page - 0x160) off
      else if 0x170 ≤ page ∧ page < 0x174 then s.siteReg (page - 0x170) off
      else none := by
  have hq : queueTenant page = none := dif_neg (by omega)
  have ht : pageTenant page = none := dif_neg (by omega)
  unfold State.stateReg
  split
  case h_17 => simp only [hq, ht]
  all_goals omega

theorem State.stateReg_corePage (s : State) (p : Port) (c : Fin 48) (off : Nat) :
    s.stateReg p (corePage c) off = s.coreReg c off := by
  have h := c.isLt
  rw [State.stateReg_of_unitPage _ _ (by simp only [corePage]; omega), if_pos (by simp only [corePage]; omega), corePage,
    Nat.add_sub_cancel_left]

theorem State.stateReg_enginePage (s : State) (p : Port) (e : Fin 16) (off : Nat) :
    s.stateReg p (enginePage e) off = s.engineReg e off := by
  have h := e.isLt
  rw [State.stateReg_of_unitPage _ _ (by simp only [enginePage]; omega), if_neg (by simp only [enginePage]; omega),
    if_pos (by simp only [enginePage]; omega), enginePage, Nat.add_sub_cancel_left]

theorem State.stateReg_linkPage (s : State) (p : Port) (l : Fin 8) (off : Nat) :
    s.stateReg p (linkPage l) off = s.linkReg l off := by
  have h := l.isLt
  rw [State.stateReg_of_unitPage _ _ (by simp only [linkPage]; omega), if_neg (by simp only [linkPage]; omega),
    if_neg (by simp only [linkPage]; omega), if_pos (by simp only [linkPage]; omega), linkPage, Nat.add_sub_cancel_left]

theorem State.stateReg_sitePage (s : State) (p : Port) (d : Fin 4) (off : Nat) :
    s.stateReg p (sitePage d) off = s.siteReg d off := by
  have h := d.isLt
  rw [State.stateReg_of_unitPage _ _ (by simp only [sitePage]; omega), if_neg (by simp only [sitePage]; omega),
    if_neg (by simp only [sitePage]; omega), if_neg (by simp only [sitePage]; omega), if_pos (by simp only [sitePage]; omega),
    sitePage, Nat.add_sub_cancel_left]

theorem pageBase_corePage (c : Fin 48) : pageBase (corePage c) = some 0x100 := by
  revert c; decide
theorem pageBase_enginePage (e : Fin 16) : pageBase (enginePage e) = some 0x140 := by
  revert e; decide
theorem pageBase_linkPage (l : Fin 8) : pageBase (linkPage l) = some 0x160 := by
  revert l; decide
theorem pageBase_sitePage (d : Fin 4) : pageBase (sitePage d) = some 0x170 := by
  revert d; decide

/-! ### A read of a count -/

/-- A read of a count kept in the live file answers it, and leaves there what stands as it is read, which is 0 for all but the peaks. -/
theorem CountRow.read_stored {s : State} {p : Port} {page off : Nat} {r : Reg} (h : CountRow page off r)
    (hup : s.portUp p = true) (hmay : s.mayRead p page = true) (hoff : off % 4 = 0 ∧ 0x100 ≤ off) (hl : r.page ≠ 0x160)
    (hs : s.stateReg p page off = none) :
    ∃ t, done (s.bar0Read p page off) = .next t ∧ Answers s t p page off (s.live page off) ∧
      t.live page off = s.peakBase page off % 2 ^ 32 := by
  obtain ⟨t, hnext, hans, htouch, -⟩ := State.read_answers hup hoff.1 hmay
  rw [h.regValue_stored hoff.2 hs] at hans
  refine ⟨t, hnext, hans, ?_⟩
  rw [htouch.live page off, h.clearRead_stored hoff.2 hl hs, State.live_setLive_self]

/-- A read of a count kept in a field of the state answers the field; what it clears stands in the state after it. -/
theorem CountRow.read_state {s : State} {p : Port} {page off v : Nat} {r : Reg} (h : CountRow page off r)
    (hup : s.portUp p = true) (hmay : s.mayRead p page = true) (hoff : off % 4 = 0 ∧ 0x100 ≤ off)
    (hs : s.stateReg p page off = some v) :
    ∃ t, done (s.bar0Read p page off) = .next t ∧ Answers s t p page off v ∧
      Touches [.cfgA, .cfgB, .attn, .tSched] (s.clearRead page off) t := by
  obtain ⟨t, hnext, hans, htouch, -⟩ := State.read_answers hup hoff.1 hmay
  rw [h.regValue_state hoff.2 hs] at hans
  exact ⟨t, hnext, hans, htouch⟩

section
variable {s : State} {p : Port} (hup : s.portUp p = true)
include hup

theorem errCountRead_clears (hkeys : keysRise s.attn.errCount) (page : BitVec 12) (hmay : s.mayRead p page.toNat = true) :
    ∃ t, exec (.errCountRead p page) s = .next t ∧
      Answers s t p page.toNat 0x020 (mget 0 s.attn.errCount page.toNat) ∧ mget 0 t.attn.errCount page.toNat = 0 := by
  obtain ⟨t, hnext, hans, -, herr⟩ := State.read_answers (off := 0x020) hup rfl hmay
  refine ⟨t, hnext, hans, ?_⟩
  rw [herr]
  exact mget_mset_self 0 hkeys page.toNat 0

theorem coreRead_clears (c : Fin 48) (hmay : s.mayRead p (corePage c) = true) :
    (∃ t, exec (.cFaultRead p c) s = .next t ∧ Answers s t p (corePage c) 0x104 (s.live (corePage c) 0x104) ∧
      t.live (corePage c) 0x104 = 0) ∧
    (∃ t, exec (.cStorePeakRead p c) s = .next t ∧ Answers s t p (corePage c) 0x118 (s.live (corePage c) 0x118) ∧
      t.live (corePage c) 0x118 = 0) := by
  have hbase : ∀ off, off < 0x800 → s.peakBase (corePage c) off % 2 ^ 32 = 0 := fun off ho => by
    have := c.isLt
    rw [State.peakBase, if_neg (by simp only [corePage]; omega), if_neg (by omega), Nat.zero_mod]
  have hfault := CountRow.of_pageBase (off := 0x104) (pageBase_corePage c) rfl (by decide)
  have hpeak := CountRow.of_pageBase (off := 0x118) (pageBase_corePage c) rfl (by decide)
  constructor
  · rw [← hbase 0x104 (by decide)]
    exact hfault.read_stored hup hmay (by decide) (by decide) (State.stateReg_corePage s p c _)
  · rw [← hbase 0x118 (by decide)]
    exact hpeak.read_stored hup hmay (by decide) (by decide) (State.stateReg_corePage s p c _)

/-- The peak of an engine's queue starts again at the queue's depth (05 R222). -/
theorem eQueuePeakRead_restarts (e : Fin 16) (hmay : s.mayRead p (enginePage e) = true) :
    ∃ t, exec (.eQueuePeakRead p e) s = .next t ∧
      Answers s t p (enginePage e) 0x108 (s.live (enginePage e) 0x108) ∧
      t.live (enginePage e) 0x108 = (s.engines.at' e).queue.length % 2 ^ 32 := by
  have hbase : s.peakBase (enginePage e) 0x108 = (s.engines.at' e).queue.length := by
    have h := e.isLt
    rw [State.peakBase, if_pos ⟨Nat.le_add_right _ _, Nat.add_lt_add_left h _, rfl⟩, enginePage, Nat.add_sub_cancel_left, bget, dif_pos h]
    rfl
  have hrow := CountRow.of_pageBase (off := 0x108) (pageBase_enginePage e) rfl (by decide)
  rw [← hbase]
  exact hrow.read_stored hup hmay (by decide) (by decide) (State.stateReg_enginePage s p e _)

/-- The peak of the slots starts again at the slots in use (10 R403). -/
theorem slotsPeakRead_restarts (hmay : s.mayRead p 0x04 = true) :
    ∃ t, exec (.slotsPeakRead p) s = .next t ∧ Answers s t p 0x04 0x104 s.slotsPeak ∧ t.slotsPeak = s.slotsUsed := by
  have hrow := CountRow.of_pageBase (page := 0x04) (off := 0x104) rfl rfl (by decide)
  obtain ⟨t, hnext, hans, htouch⟩ := hrow.read_state hup hmay (by decide) rfl
  exact ⟨t, hnext, hans, htouch.slotsPeak⟩

/-- The peak of a core's ready list starts again at the list's depth (10 R400, R403). -/
theorem qPeakRead_restarts (hmay : s.mayRead p 0x04 = true) (c : Fin 48) (hc : c < s.chip.nCores) :
    ∃ t, exec (.qPeakRead p c) s = .next t ∧
      Answers s t p 0x04 (0x804 + 0x20 * c) (s.live 0x04 (0x804 + 0x20 * c)) ∧
      t.live 0x04 (0x804 + 0x20 * c) = (s.core c.val).ready.length % 2 ^ 32 := by
  have hfind : regFindIn (0x804 + 0x20 * c) (regsOf 0x04) = some (⟨4, 0x804, 0x20, 48, .a, 0, 0, 0x1FFF, 0, 0, .ctl⟩, c.val) := by
    clear hc; revert c; decide
  have hrow := CountRow.of_pageBase (page := 0x04) rfl hfind (by decide)
  have hbase : s.peakBase 0x04 (0x804 + 0x20 * c) = (s.core c.val).ready.length := by
    rw [State.peakBase, if_neg (by omega), if_pos (by omega), Nat.add_sub_cancel_left, Nat.mul_div_cancel_left _ (by decide)]
  have hstored : s.stateReg p 0x04 (0x804 + 0x20 * c) = none := by
    have hcore : (0x804 + 0x20 * c.val - 0x800) / 0x20 = c := by omega
    show s.schedReg _ = none
    unfold State.schedReg
    rw [if_neg (by omega), if_neg (by omega), if_neg (by omega), if_neg (by omega), if_pos (by omega), hcore]
    exact (if_neg (by omega)).trans (if_neg (by omega))
  rw [← hbase]
  exact hrow.read_stored hup hmay (by omega) (by decide) hstored

theorem bar2DropsRead_clears (hmay : s.mayRead p 0x00 = true) :
    ∃ t, exec (.bar2DropsRead p) s = .next t ∧ Answers s t p 0x00 0x10C (s.live 0x00 0x10C) ∧ t.live 0x00 0x10C = 0 :=
  (CountRow.of_pageBase rfl rfl (by decide)).read_stored hup hmay (by decide) (by decide) rfl

theorem traceDropsRead_clears (hmay : s.mayRead p 0x11 = true) :
    ∃ t, exec (.traceDropsRead p) s = .next t ∧ Answers s t p 0x11 0x118 (s.live 0x11 0x118) ∧ t.live 0x11 0x118 = 0 :=
  (CountRow.of_pageBase rfl rfl (by decide)).read_stored hup hmay (by decide) (by decide) rfl

theorem divCountRead_clears (hmay : s.mayRead p 0x0B = true) :
    ∃ t, exec (.divCountRead p) s = .next t ∧ Answers s t p 0x0B 0x108 s.lynx.divCount ∧
      t.lynx = { s.lynx with divCount := 0 } := by
  have hrow := CountRow.of_pageBase (page := 0x0B) (off := 0x108) rfl rfl (by decide)
  obtain ⟨t, hnext, hans, htouch⟩ := hrow.read_state hup hmay (by decide) rfl
  exact ⟨t, hnext, hans, htouch.lynx⟩

theorem cascadeDropsRead_clears (hmay : s.mayRead p 0x0D = true) :
    ∃ t, exec (.cascadeDropsRead p) s = .next t ∧
      Answers s t p 0x0D 0x184 (s.cascade.routeDrops + s.cascade.stale * 2 ^ 16) ∧
      t.cascade = { s.cascade with routeDrops := 0, stale := 0 } := by
  have hrow := CountRow.of_pageBase (page := 0x0D) (off := 0x184) rfl rfl (by decide)
  obtain ⟨t, hnext, hans, htouch⟩ := hrow.read_state hup hmay (by decide) rfl
  exact ⟨t, hnext, hans, htouch.cascade⟩

theorem foreignRead_clears (hmay : s.mayRead p 0x0D = true) :
    ∃ t, exec (.foreignRead p) s = .next t ∧ Answers s t p 0x0D 0x188 s.cascade.foreign ∧
      t.cascade = { s.cascade with foreign := 0 } := by
  have hrow := CountRow.of_pageBase (page := 0x0D) (off := 0x188) rfl rfl (by decide)
  obtain ⟨t, hnext, hans, htouch⟩ := hrow.read_state hup hmay (by decide) rfl
  exact ⟨t, hnext, hans, htouch.cascade⟩

theorem lErrRead_clears (l : Fin 8) (hmay : s.mayRead p (linkPage l) = true) :
    ∃ t, exec (.lErrRead p l) s = .next t ∧
      Answers s t p (linkPage l) 0x110 ((s.links.at' l).replays + (s.links.at' l).retrains * 2 ^ 16) ∧
      t.links.at' l = { s.links.at' l with replays := 0, retrains := 0 } := by
  have hrow := CountRow.of_pageBase (off := 0x110) (pageBase_linkPage l) rfl (by decide)
  have hlink : s.link l = s.links.at' l := dif_pos l.isLt
  have hvalue : s.stateReg p (linkPage l) 0x110 = some ((s.link l).replays + (s.link l).retrains * 2 ^ 16) :=
    State.stateReg_linkPage s p l _
  obtain ⟨t, hnext, hans, htouch⟩ := hrow.read_state hup hmay (by decide) hvalue
  rw [hlink] at hans
  refine ⟨t, hnext, hans, ?_⟩
  rw [htouch.links, hrow.clearRead_link (by decide) (Nat.le_add_right _ _) rfl, linkPage, Nat.add_sub_cancel_left, State.updLink,
    bupd, dif_pos l.isLt]
  exact Bank.at'_upd_self _ l _

theorem resetCauseRead_clears (hmay : s.mayRead p 0x02 = true) :
    ∃ t, exec (.resetCauseRead p) s = .next t ∧ Answers s t p 0x02 0x104 s.power.cause.toNat ∧
      t.power = { s.power with cause := 0 } := by
  have hrow := CountRow.of_pageBase (page := 0x02) (off := 0x104) rfl rfl (by decide)
  obtain ⟨t, hnext, hans, htouch⟩ := hrow.read_state hup hmay (by decide) rfl
  exact ⟨t, hnext, hans, htouch.power⟩

theorem muxStuckRead_clears (hmay : s.mayRead p 0x01 = true) :
    ∃ t, exec (.muxStuckRead p) s = .next t ∧
      Answers s t p 0x01 0x114 (s.clock.stuck.toNat + s.clock.stuckCount * 2 ^ 16) ∧
      t.clock = { s.clock with stuck := 0, stuckCount := 0 } := by
  have hrow := CountRow.of_pageBase (page := 0x01) (off := 0x114) rfl rfl (by decide)
  obtain ⟨t, hnext, hans, htouch⟩ := hrow.read_state hup hmay (by decide) rfl
  exact ⟨t, hnext, hans, htouch.clock⟩

theorem dEccRead_clears (d : Fin 4) (hmay : s.mayRead p (sitePage d) = true) :
    ∃ t, exec (.dEccRead p d) s = .next t ∧ Answers s t p (sitePage d) 0x104 (s.live (sitePage d) 0x104) ∧
      t.live (sitePage d) 0x104 = 0 := by
  have hrow := CountRow.of_pageBase (off := 0x104) (pageBase_sitePage d) rfl (by decide)
  have hbase : s.peakBase (sitePage d) 0x104 = 0 := by
    rw [State.peakBase, if_neg (by simp only [sitePage]; omega), if_neg (by omega)]
  obtain ⟨t, hnext, hans, hleft⟩ :=
    hrow.read_stored hup hmay (by decide) (by decide) (State.stateReg_sitePage s p d _)
  exact ⟨t, hnext, hans, by rw [hleft, hbase, Nat.zero_mod]⟩

end

/-- Settles O32: each read is `State.bar0Read` of the count's register, so what it answers and clears follows from the register's row. -/
theorem readsClearTheirCounts : Obligations.ReadsClearTheirCounts := by
  unfold Obligations.ReadsClearTheirCounts
  intro s p hup hkeys
  exact ⟨errCountRead_clears hup hkeys, coreRead_clears hup, eQueuePeakRead_restarts hup,
    fun hmay => ⟨slotsPeakRead_restarts hup hmay, qPeakRead_restarts hup hmay⟩, bar2DropsRead_clears hup,
    traceDropsRead_clears hup, divCountRead_clears hup,
    fun hmay => ⟨cascadeDropsRead_clears hup hmay, foreignRead_clears hup hmay⟩, lErrRead_clears hup,
    resetCauseRead_clears hup, muxStuckRead_clears hup, dEccRead_clears hup⟩

end Sys2Proof.Machine
end

section
/-! SUPPORT. What keeps frames steady: RUN, the frame in progress and the scheduler's time stand, and a moment of flags that is closed
stays closed (01 R25; 10 R387, R390). One lemma per operation that moves the frame machine; every other is covered by what it touches. -/
namespace Sys2Proof.Machine
open Sys2Proof
set_option Elab.async false

/-! ### The relation -/

/-- Between two states RUN, the frame in progress and the start of the scheduler's time stand, no moment of flags is left open, and time
does not run back. -/
structure Steady (s t : State) : Prop where
  run : t.frame.run = s.frame.run
  inFrame : t.frame.inFrame = s.frame.inFrame
  timed : t.frame.timed = s.frame.timed
  runAt : t.frame.runAt = s.frame.runAt
  whole : s.frame.together = false → t.frame.together = false
  now : s.now ≤ t.now

theorem Steady.refl (s : State) : Steady s s := ⟨rfl, rfl, rfl, rfl, id, Nat.le_refl _⟩

theorem Steady.trans {s t u : State} (h : Steady s t) (k : Steady t u) : Steady s u :=
  ⟨k.run.trans h.run, k.inFrame.trans h.inFrame, k.timed.trans h.timed, k.runAt.trans h.runAt, k.whole ∘ h.whole, h.now.trans k.now⟩

theorem within_refl (l : List Part) : Within l l := List.all_eq_true.mpr fun _ h => List.contains_iff_mem.mpr h

/-- An operation that touches none of the frame machine's own parts keeps frames steady. -/
theorem Steady.of_touches {l : List Part} {s t : State} (h : Touches l s t)
    (hl : ([.tick, .running, .frame].all fun p => ! l.contains p) = true := by decide) : Steady s t := by
  have hp : ∀ p ∈ [Part.tick, .running, .frame], l.contains p = false := fun p hp => by simpa using List.all_eq_true.mp hl p hp
  obtain ⟨hrun, -, hrunAt, -, -, htimed⟩ := h.running (hp _ (by decide))
  obtain ⟨-, -, -, -, -, -, -, -, -, -, hwhole⟩ := h.frame (hp _ (by decide))
  exact ⟨hrun, (h.tick (hp _ (by decide))).1, htimed, hrunAt, fun hs => hwhole.trans hs, h.now_le⟩

theorem Steady.touch {l : List Part} {s t u : State} (h : Steady s t) (k : Touches l t u)
    (hl : ([.tick, .running, .frame].all fun p => ! l.contains p) = true := by decide) : Steady s u :=
  h.trans (.of_touches k hl)

theorem Steady.forEach {α : Type} {l : List α} {f : State → α → State} (h : ∀ u a, Steady u (f u a)) (s : State) :
    Steady s (s.forEach l f) := by
  unfold State.forEach
  induction l generalizing s with
  | nil => exact Steady.refl s
  | cons a r ih => exact (h s a).trans (ih _)

theorem Steady.ite {c : Prop} [Decidable c] {s t u : State} (h : Steady s t) (k : Steady s u) : Steady s (if c then t else u) := by
  split
  · exact h
  · exact k

theorem Steady.settle (s : State) : Steady s (settle s) := .of_touches (settle_touches s (within_refl _) (Touches.refl _ _))

/-- The clauses of the invariant about frames and time (10 R387, R390). -/
structure FrameSound (s : State) : Prop where
  whole : s.frame.together = false
  timed : s.frame.run = true ∨ s.frame.inFrame = true → s.frame.timed = true
  began : s.frame.runAt ≤ s.now

theorem State.Inv.frameSound {s : State} (h : s.Inv) : FrameSound s := ⟨h.whole, h.timed, h.began⟩

theorem Steady.sound {s t : State} (h : Steady s t) (hs : FrameSound s) : FrameSound t where
  whole := h.whole hs.whole
  timed := by rw [h.run, h.inFrame, h.timed]; exact hs.timed
  began := by rw [h.runAt]; exact hs.began.trans h.now

/-! ### Time passing (10 R387, R391) -/

/-- A moment of flags opened and closed again is as if it had never been open. -/
theorem Steady.unhold {s u : State} (h : Steady s.hold u) : Steady s u.unhold := by
  have heval : Steady (u.updFrame fun f => { f with together := false }) u.unhold :=
    Steady.forEach (fun v t => .of_touches (State.evalWaits_touches v t (within_refl _) (Touches.refl _ _))) _
  exact ⟨heval.run.trans h.run, heval.inFrame.trans h.inFrame, heval.timed.trans h.timed, heval.runAt.trans h.runAt,
    fun _ => heval.whole rfl, h.now.trans heval.now⟩

theorem State.elapse_steady (s : State) (k : Nat) : Steady s (s.elapse k) :=
  .of_touches (State.elapse_touches s k (within_refl _) (Touches.refl _ _))

theorem State.expireWaits_steady (s : State) (t : Fin 16) (T n : Nat) : Steady s (s.expireWaits t T n) :=
  .of_touches (State.expireWaits_touches s t T n (within_refl _) (Touches.refl _ _))

theorem State.fallDue_steady (s : State) (t : Fin 16) : Steady s (s.fallDue t) := by
  unfold State.fallDue
  split
  · exact Steady.refl s
  · have hfire : Steady s (s.hold.fireDue t s.hold.schedTime 200000).unhold :=
      Steady.unhold (.of_touches (State.fireDue_touches s.hold t _ _ (within_refl _) (Touches.refl _ _)))
    exact (hfire.trans (State.expireWaits_steady _ _ _ _)).touch
      (State.declareDeadlock_touches _ t (within_refl _) (Touches.refl _ _))

theorem State.passTime_steady (s : State) (T n : Nat) : Steady s (s.passTime T n) := by
  induction n generalizing s with
  | zero => exact State.elapse_steady s _
  | succ n ih =>
    unfold State.passTime
    split
    · exact State.elapse_steady s _
    · exact ((State.elapse_steady s _).trans (Steady.forEach State.fallDue_steady _)).trans (ih _)

theorem State.advanceTo_steady (s : State) (T : Nat) : Steady s (s.advanceTo T) := State.passTime_steady s T _

theorem State.idle_steady (s : State) : Steady s s.idle := State.advanceTo_steady s _

theorem State.timerFire_steady (s : State) (t : Fin 16) (id : Fin 64) : Steady s (s.timerFire t id) := by
  unfold State.timerFire
  split
  · dsimp only
    split
    · exact Steady.refl s
    · exact State.advanceTo_steady s _
  · exact Steady.refl s

theorem State.reachDeadlock_steady (s : State) (t : Fin 16) : Steady s (s.reachDeadlock t) := by
  unfold State.reachDeadlock
  dsimp only
  split
  · exact .of_touches (State.declareDeadlock_touches s t (within_refl _) (Touches.refl _ _))
  · split
    · exact State.advanceTo_steady s _
    · exact Steady.refl s

/-- A move of the frame machine that leaves RUN, the frame in progress, the scheduler's time and the moment of flags. -/
theorem Steady.updFrame (s : State) (f : Frame → Frame) (h : ∀ g : Frame, (f g).run = g.run ∧ (f g).inFrame = g.inFrame ∧
    (f g).timed = g.timed ∧ (f g).runAt = g.runAt ∧ (f g).together = g.together := by exact fun _ => ⟨rfl, rfl, rfl, rfl, rfl⟩) :
    Steady s (s.updFrame f) := by
  obtain ⟨hrun, hin, htimed, hrunAt, hwhole⟩ := h s.frame
  exact ⟨hrun, hin, htimed, hrunAt, fun hs => hwhole.trans hs, Nat.le_refl _⟩

theorem State.fetchTask_steady (s : State) (t : Fin 16) : Steady s (s.fetchTask t) := by
  unfold State.fetchTask
  dsimp only
  split
  · exact Steady.refl s
  · have hturn : Steady s (s.updFrame fun f => { f with fetchTurn := (t.val + 1) % 16 }) := Steady.updFrame s _
    split
    · exact hturn.touch (State.updSched_touches _ t _ (within_refl _) (Touches.refl _ _))
    · exact hturn.touch (State.takeSlot_touches _ t _ (within_refl _) (Touches.refl _ _))

theorem State.forceCut_steady (s : State) (c : Nat) : Steady s (s.forceCut c) := by
  unfold State.forceCut
  split
  · exact Steady.refl s
  · dsimp only
    split
    · exact Steady.refl s
    · exact (State.advanceTo_steady s _).touch
        (State.endPart_touches _ c (within_refl _) (State.updOut_touches _ _ _ (by decide) (Touches.refl _ _)))

/-! ### Tenants and ports (13 R496, R505; 17 R644) -/

theorem State.extendGuard_steady (s : State) : Steady s s.extendGuard := Steady.updFrame s _

theorem State.resetTenant_steady (s : State) (t : Fin 16) : Steady s (s.resetTenant t) :=
  .of_touches (State.resetTenant_touches s t (within_refl _) (Touches.refl _ _))

theorem State.updTenant_steady (s : State) (t : Fin 16) (f : Tenant → Tenant) : Steady s (s.updTenant t f) :=
  ⟨rfl, rfl, rfl, rfl, id, Nat.le_refl _⟩

theorem State.noteTiming_steady (s : State) (t : Fin 16) (k : Nat) : Steady s (s.noteTiming t k) := State.updTenant_steady s t _

theorem State.requestReset_steady (s : State) (t : Fin 16) (cause : BitVec 4) : Steady s (s.requestReset t cause) := by
  unfold State.requestReset
  dsimp only
  split
  · exact Steady.refl s
  · split
    · exact (State.updTenant_steady s t _).trans (State.resetTenant_steady _ t)
    · split
      · exact (((State.updTenant_steady s t _).trans (State.updTenant_steady _ t _)).trans (State.resetTenant_steady _ t)).trans
          (State.extendGuard_steady _)
      · exact ((State.updTenant_steady s t _).trans (State.updTenant_steady _ t _)).trans
          ((((Steady.of_touches (State.failFrame_touches _ t _ (within_refl _) (Touches.refl _ _))).touch
            (State.disown_touches _ t (within_refl _) (Touches.refl _ _))).touch
              (State.dropEntries_touches _ t _ (within_refl _) (Touches.refl _ _))).trans (State.noteTiming_steady _ t 7))

theorem State.requestHold_steady (s : State) (t : Fin 16) (cause : BitVec 4) : Steady s (s.requestHold t cause) := by
  unfold State.requestHold
  split
  · dsimp only
    split
    · exact ((State.updTenant_steady s t _).trans (State.updTenant_steady _ t _)).trans (State.resetTenant_steady _ t)
    · split
      · exact (((State.updTenant_steady s t _).trans (State.updTenant_steady _ t _)).trans (State.resetTenant_steady _ t)).trans
          (State.extendGuard_steady _)
      · exact ((State.updTenant_steady s t _).trans (State.updTenant_steady _ t _)).trans (State.noteTiming_steady _ t 7)
  · exact State.updTenant_steady s t _
  · exact Steady.refl s

theorem State.refuseWrite_steady (s : State) (w : Writer) (page : Nat) (changes : Bool) : Steady s (s.refuseWrite w page changes) :=
  .of_touches (State.refuseWrite_touches s w page changes (within_refl _) (Touches.refl _ _))

theorem State.recordDirect_steady (s : State) (w : Writer) (page off : Nat) (code : Byte) : Steady s (s.recordDirect w page off code) :=
  .of_touches (State.recordDirect_touches s w page off code (within_refl _) (Touches.refl _ _))

theorem State.requestRelease_steady (s : State) (t : Fin 16) : Steady s (s.requestRelease t) :=
  .of_touches (State.requestRelease_touches s t (within_refl _) (Touches.refl _ _))

theorem State.writeTCtrl_steady (s : State) (w : Writer) (t : Fin 16) (v : Nat) : Steady s (s.writeTCtrl w t v) := by
  unfold State.writeTCtrl
  extract_lets cause s1 s2
  have hreset : Steady s s1 := .ite (State.requestReset_steady s t _) (Steady.refl s)
  have hhold : Steady s1 s2 := .ite (State.requestHold_steady s1 t _) (Steady.refl s1)
  exact (hreset.trans hhold).trans (.ite (State.requestRelease_steady s2 t) (Steady.refl s2))

theorem State.portLost_steady (s : State) (t : Fin 16) : Steady s (s.portLost t) := by
  have hdrop : Steady s ((s.updTenant t Tenant.undeliver).forEach (allFin 8) fun u q => u.dropQueue t q) :=
    (State.updTenant_steady s t _).trans
      (Steady.forEach (fun u q => .of_touches (State.dropQueue_touches u t q (within_refl _) (Touches.refl _ _))) _)
  unfold State.portLost
  dsimp only
  split
  · exact hdrop.trans (State.requestHold_steady _ t 3)
  · exact hdrop

theorem State.portReset_steady (s : State) (p : Port) (c : PortResetCause) : Steady s (s.portReset p c) := by
  unfold State.portReset
  split
  · exact Steady.refl s
  · dsimp only
    refine Steady.trans (.of_touches (l := [.power, .cfgA, .cfgB, .regs, .shadow, .dirty]) ?_) (Steady.forEach (fun u t => ?_) _)
    · exact State.setLive_touches _ _ _ _ (by decide) (State.resetRegs_touches _ _ _ _ (by decide)
        (State.updCfg_touches _ _ _ (by decide) (State.addCause_touches s _ (by decide) (Touches.refl _ _))))
    · split
      · exact State.portLost_steady u t
      · exact Steady.refl u

/-! ### Clocks and the throttle (16 R616, R620; 17 R655, R656) -/

theorem State.updClock_steady (s : State) (f : Clock → Clock) : Steady s (s.updClock f) := ⟨rfl, rfl, rfl, rfl, id, Nat.le_refl _⟩
theorem State.updPower_steady (s : State) (f : Power → Power) : Steady s (s.updPower f) := ⟨rfl, rfl, rfl, rfl, id, Nat.le_refl _⟩

theorem State.beginRelock_steady (s : State) (v : BitVec 2) : Steady s (s.beginRelock v) := by
  unfold State.beginRelock
  exact (State.updClock_steady s _).trans (Steady.updFrame _ _)

theorem State.requestLevel_steady (s : State) (v : BitVec 2) : Steady s (s.requestLevel v) := by
  have htarget : Steady s (s.updClock fun c => { c with target := v }) := State.updClock_steady s _
  unfold State.requestLevel
  dsimp only
  split
  · exact htarget.trans (State.updClock_steady _ _)
  · split
    · exact htarget
    · split
      · exact htarget.trans (State.updClock_steady _ _)
      · split
        · exact htarget.trans (State.updClock_steady _ _)
        · exact htarget.trans (State.beginRelock_steady _ v)

theorem State.endRelock_steady (s : State) (r : Relock) : Steady s (s.endRelock r) :=
  ((State.updClock_steady s _).trans (Steady.updFrame _ _)).touch (State.raise_touches _ _ _ (within_refl _) (Touches.refl _ _))

theorem State.stepRelock_steady (s : State) : Steady s s.stepRelock := by
  unfold State.stepRelock
  split
  · exact Steady.refl s
  · rename_i r _
    split
    · exact Steady.refl s
    · split
      · exact State.updClock_steady s _
      · split
        · dsimp only
          split
          · exact State.endRelock_steady s r
          · exact (State.endRelock_steady s r).trans (State.requestLevel_steady _ _)
        · exact State.endRelock_steady s r
      · exact Steady.refl s

theorem State.writeTarget_steady (s : State) (w : Writer) (v : BitVec 2) : Steady s (s.writeTarget w v) := by
  unfold State.writeTarget
  split
  · exact State.refuseWrite_steady s _ _ _
  · split
    · exact State.recordDirect_steady s _ _ _ _
    · exact State.requestLevel_steady s v

theorem State.endSwitch_steady (s : State) (d : Domain) (v : BitVec 2) : Steady s (s.endSwitch d v) :=
  .of_touches (State.endSwitch_touches s d v (within_refl _) (Touches.refl _ _))

theorem State.muxSwitch_steady (s : State) (d : Domain) : Steady s (s.muxSwitch d) := by
  unfold State.muxSwitch
  split
  · exact Steady.refl s
  · split
    · exact Steady.refl s
    · exact (State.endSwitch_steady s d _).trans (State.stepRelock_steady _)

theorem State.muxWatchdog_steady (s : State) (d : Domain) (toggled : Bool) : Steady s (s.muxWatchdog d toggled) := by
  unfold State.muxWatchdog
  split
  · exact Steady.refl s
  · split
    · exact Steady.refl s
    · refine Steady.trans ?_ (State.stepRelock_steady _)
      exact ((State.endSwitch_steady s d _).trans (State.updClock_steady _ _)).touch
        (State.domainReset_touches _ d (within_refl _)
          (State.logEvent_touches _ _ _ _ _ _ _ (by decide) (State.raise_touches _ _ _ (by decide) (Touches.refl _ _))))

theorem State.rootStable_steady (s : State) : Steady s s.rootStable := by
  unfold State.rootStable
  split
  · exact Steady.refl s
  · split
    · split
      · exact (State.updClock_steady s _).trans (State.stepRelock_steady _)
      · exact Steady.refl s
    · exact State.updClock_steady s _

theorem State.pllStable_steady (s : State) (p : Pll) : Steady s (s.pllStable p) := by
  unfold State.pllStable
  split
  · exact State.rootStable_steady s
  all_goals
    split
    · exact State.updClock_steady s _
    · exact Steady.refl s

theorem State.startDeferred_steady (s : State) : Steady s s.startDeferred := by
  unfold State.startDeferred
  split
  · exact Steady.refl s
  · rename_i v _
    extract_lets s1 s2
    have htaken : Steady s s1 := State.updClock_steady s _
    have hstep : Steady s s2 := .ite (htaken.trans (State.updPower_steady s1 _)) htaken
    exact .ite hstep (hstep.trans (State.beginRelock_steady s2 v))

theorem State.adapt_steady (s : State) : Steady s s.adapt := by
  unfold State.adapt
  dsimp only
  split_ifs
  · exact Steady.refl s
  · exact State.requestLevel_steady s _
  · exact .of_touches (State.raise_touches s _ _ (within_refl _) (Touches.refl _ _))
  · exact Steady.refl s
  · exact State.requestLevel_steady s _
  · exact Steady.refl s

theorem State.slowDown_steady (s : State) : Steady s s.slowDown := by
  have hact : Steady s (s.updFrame fun f => { f with levelAt := some s.now }) := Steady.updFrame s _
  unfold State.slowDown
  dsimp only
  split
  · exact (hact.trans (State.updPower_steady _ _)).trans (State.requestLevel_steady _ _)
  · exact hact.trans (State.updPower_steady _ _)

theorem State.beginThrottle_steady (s : State) : Steady s s.beginThrottle := by
  unfold State.beginThrottle
  refine Steady.trans ?_ (State.slowDown_steady _)
  exact (State.updPower_steady s _).touch
    (State.logHeat_touches _ _ _ (by decide) (State.bumpCounter_touches (L := [.log, .attn, .owl]) _ _ (by decide) (Touches.refl _ _)))

theorem State.watchThrottle_steady (s : State) : Steady s s.watchThrottle := by
  unfold State.watchThrottle
  dsimp only
  split_ifs
  · exact State.updPower_steady s _
  · exact (State.updPower_steady s _).trans (State.beginThrottle_steady _)
  · exact State.updPower_steady s _
  · exact State.updPower_steady s _

theorem State.tempSample_steady (s : State) (js : Bank (BitVec 16) 12) : Steady s (s.tempSample js) := by
  unfold State.tempSample
  split
  · exact Steady.refl s
  · have hjunction : ∀ (u : State) f, Steady u (u.updOwl f) := fun u f => ⟨rfl, rfl, rfl, rfl, id, Nat.le_refl _⟩
    dsimp only
    exact ((((hjunction s _).trans (State.updPower_steady _ _)).touch
      (State.judgeAlert_touches _ (within_refl _) (Touches.refl _ _))).trans (State.watchThrottle_steady _)).touch
        (State.watchTrip_touches _ (within_refl _) (Touches.refl _ _))

theorem State.throttleStep_steady (s : State) : Steady s s.throttleStep := by
  unfold State.throttleStep
  split
  · exact Steady.refl s
  · exact (State.advanceTo_steady s _).trans (State.slowDown_steady _)

theorem State.restoreOne_steady (s : State) : Steady s s.restoreOne := by
  unfold State.restoreOne
  dsimp only
  split
  · exact (State.updPower_steady s _).trans (State.updPower_steady _ _)
  · exact (State.updPower_steady s _).trans (State.requestLevel_steady _ _)

theorem State.throttleEnd_steady (s : State) : Steady s s.throttleEnd := by
  unfold State.throttleEnd
  split
  · exact Steady.refl s
  · split
    · exact Steady.refl s
    · exact (((State.advanceTo_steady s _).trans (State.updPower_steady _ _)).trans (Steady.updFrame _ _)).trans
        (State.restoreOne_steady _)

theorem State.restoreStep_steady (s : State) : Steady s s.restoreStep := by
  unfold State.restoreStep
  split
  · exact Steady.refl s
  · split
    · exact (State.advanceTo_steady s _).trans (State.restoreOne_steady _)
    · exact State.updPower_steady s _

theorem State.dramRefresh_steady (s : State) : Steady s s.dramRefresh := by
  unfold State.dramRefresh
  split
  · exact Steady.refl s
  · exact .ite (Steady.refl s) ((State.advanceTo_steady s _).trans (Steady.updFrame _ _))

/-! ### Deadlines and the opening of a frame (01 R36, R40, R63) -/

theorem State.cutPhase_steady (s : State) (k : Nat) : Steady s (s.cutPhase k) := by
  have htasks : Steady s.hold (s.hold.cutTasks k) := .of_touches (State.cutTasks_touches _ k (within_refl _) (Touches.refl _ _))
  have hselects : Steady s.hold ((s.hold.cutTasks k).cutSelects k) :=
    htasks.touch (State.cutSelects_touches _ k (within_refl _) (Touches.refl _ _))
  have hsolves : Steady s.hold (((s.hold.cutTasks k).cutSelects k).cutSolves k) :=
    hselects.touch (State.cutSolves_touches _ k (within_refl _) (Touches.refl _ _))
  exact hsolves.unhold.trans (Steady.forEach (fun u t => State.expireWaits_steady u t _ _) _)

theorem State.guardActions_steady (s : State) : Steady s s.guardActions := by
  unfold State.guardActions
  extract_lets s1 s2 s3 engines bears jays s4 s5 s6 s7
  have htasks : Steady s s1 :=
    (Steady.forEach (fun u t => .of_touches (State.endTasks_touches u t (within_refl _) (Touches.refl _ _))) s).trans
      (Steady.forEach (fun u t => .of_touches (State.discardResults_touches u t (within_refl _) (Touches.refl _ _))) _)
  have hreset : Steady s1 s2 :=
    Steady.forEach (fun u t => .of_touches (State.guardReset_touches u t (within_refl _) (Touches.refl _ _))) s1
  have hdiscard : Steady s2 s3 := Steady.forEach (fun u t => State.updTenant_steady u t _) s2
  have hunits : Steady s3 s4 := .of_touches (Touches.set_engines_bears_jays s3 engines bears jays (within_refl _) (Touches.refl _ _))
  have hcolls : Steady s4 s5 := .of_touches (State.updCascade_touches s4 _ (within_refl _) (Touches.refl _ _))
  have hdram : Steady s5 s6 := .of_touches (State.updDram_touches s5 _ (within_refl _) (Touches.refl _ _) Dram.ok_written)
  have hcal : Steady s6 s7 :=
    Steady.forEach (fun u l => .of_touches (State.sendCal_touches u l (within_refl _) (Touches.refl _ _))) s6
  have hdone : Steady s s6 := ((((htasks.trans hreset).trans hdiscard).trans hunits).trans hcolls).trans hdram
  exact (hdone.trans hcal).trans (Steady.updFrame s7 _)

theorem State.endFrame_steady (s : State) : Steady s s.endFrame := by
  unfold State.endFrame
  extract_lets s1 s2
  have hfix : Steady s s1 :=
    (Steady.forEach (fun u t => .of_touches (State.beforeFix_touches u t (within_refl _) (Touches.refl _ _))) s).trans
      (Steady.forEach (fun u t => .of_touches (State.endTenantFrame_touches u t (within_refl _) (Touches.refl _ _))) _)
  have hsafe : Steady s s2 := hfix.trans (Steady.updFrame s1 _)
  split
  · exact hsafe
  · rename_i s3 s4 cores s5 _
    have hmiss : Steady s2 s3 :=
      Steady.forEach (fun u t => .of_touches (State.missWitness_touches u t (within_refl _) (Touches.refl _ _))) s2
    have hwaits : Steady s3 s4 :=
      Steady.forEach (fun u t => .of_touches (State.latchWaits_touches u t (within_refl _) (Touches.refl _ _))) s3
    have hcores : Steady s4 s5 := .of_touches (Touches.set_cores s4 _ (within_refl _) (Touches.refl _ _))
    exact ((((hsafe.trans hmiss).trans hwaits).trans hcores).touch
      (settle_touches _ (by decide) (State.latchCores_touches (L := [.regs, .cores, .attn, .tSched]) _ (by decide) (Touches.refl _ _)))).trans
        (State.guardActions_steady _)

theorem State.judgeImminent_steady (s : State) (t : Fin 16) : Steady s (s.judgeImminent t) :=
  .of_touches (State.judgeImminent_touches s t (within_refl _) (Touches.refl _ _))

theorem State.cutChecks_steady (s : State) (k : Nat) : Steady s (s.cutChecks k) :=
  .of_touches (State.cutChecks_touches s k (within_refl _) (Touches.refl _ _))

theorem State.atDeadline_steady (s : State) (k : Nat) : Steady s (s.atDeadline k) := by
  match k with
  | 0 => exact Steady.forEach (fun u t => .of_touches (State.applyWaiting_touches u t (within_refl _) (Touches.refl _ _))) s
  | 1 =>
    exact Steady.forEach (fun u t =>
      .ite (.of_touches (State.sealWorld_touches u t (within_refl _) (Touches.refl _ _))) (Steady.refl u)) s
  | 2 => exact Steady.forEach (fun u t => .of_touches (State.latchFox_touches u t (within_refl _) (Touches.refl _ _))) s
  | 3 => exact Steady.forEach (fun u t => .of_touches (State.endSearch_touches u t (within_refl _) (Touches.refl _ _))) s
  | 4 => exact State.cutChecks_steady s 4
  | 5 =>
    exact (State.cutChecks_steady s 5).trans
      (Steady.forEach (fun u t => .of_touches (State.latchSolver_touches u t (within_refl _) (Touches.refl _ _))) _)
  | 6 =>
    have hlatch : ∀ (u : State) t, Steady u (if (u.tenant t).live then ((u.latchExhausted t).latchChecks t).latchSelect t else u) :=
      fun u t => .ite (.of_touches (l := [.regs, .tSearch]) (State.latchSelect_touches _ t (by decide)
        (State.latchChecks_touches _ t (by decide) (State.latchExhausted_touches u t (by decide) (Touches.refl _ _))))) (Steady.refl u)
    exact (((State.cutChecks_steady s 6).trans (Steady.forEach hlatch _)).touch
      (State.latchEngines_touches _ (within_refl _) (Touches.refl _ _))).trans (Steady.forEach State.judgeImminent_steady _)
  | _ + 7 => exact State.endFrame_steady s

theorem State.passDeadline_steady (s : State) (k : Nat) : Steady s (s.passDeadline k) := by
  unfold State.passDeadline
  extract_lets s1 s2
  have htime : Steady s s2 := ((Steady.settle s).trans (State.advanceTo_steady _ _)).trans (Steady.updFrame s1 _)
  exact .ite (.ite (htime.trans (State.endFrame_steady s2)) htime)
    (((htime.trans (State.cutPhase_steady s2 k)).trans (State.atDeadline_steady _ k)).trans (Steady.settle _))

theorem State.openFrame_steady (s : State) : Steady s s.openFrame := by
  unfold State.openFrame
  refine .ite (Steady.updFrame s _) ?_
  extract_lets was s1 s2 s3 s4 s5 s6 s7 s8
  have hsets : Steady s s1 := .of_touches (State.finishSets_touches s _ (within_refl _) (Touches.refl _ _))
  have hlevels : Steady s1 s2 := ((State.startDeferred_steady s1).trans (State.adapt_steady _)).trans (Steady.settle _)
  have hturn : Steady s2 s3 :=
    .of_touches (l := [.tState, .engines, .bears, .jays, .fronts, .cores, .links]) (State.turnLinks_touches _ (by decide)
      (State.turnUnits_touches _ (by decide) (State.turnTenants_touches s2 was (by decide) (Touches.refl _ _))))
  have hstart : Steady s3 s4 :=
    Steady.forEach (fun u t => .of_touches (State.startTenant_touches u t (within_refl _) (Touches.refl _ _))) s3
  have hexchange : Steady s4 s5 :=
    Steady.forEach (fun u t => .ite (.of_touches (State.exchange_touches u t (within_refl _) (Touches.refl _ _))) (Steady.refl u)) s4
  have hopen : Steady s5 s6 := Steady.updFrame s5 _
  have happly : Steady s6 s7 :=
    .ite (Steady.forEach (fun u t => .of_touches (State.applyWaiting_touches u t (within_refl _) (Touches.refl _ _))) s6) (Steady.refl s6)
  have hhash : Steady s7 s8 := Steady.forEach (fun u t => State.updTenant_steady u t _) s7
  have hstops : Steady s8 (s8.forTenants State.buildStops) :=
    Steady.forEach (fun u t => .of_touches (State.buildStops_touches u t (within_refl _) (Touches.refl _ _))) s8
  have hopened : Steady s s6 := ((((hsets.trans hlevels).trans hturn).trans hstart).trans hexchange).trans hopen
  exact (((hopened.trans happly).trans hhash).trans hstops).trans (Steady.settle _)

theorem State.finishOpening_steady (s : State) : Steady s s.finishOpening :=
  ((State.advanceTo_steady s _).trans (State.openFrame_steady _)).trans (Steady.forEach (fun u t => State.noteTiming_steady u t 2) _)

theorem State.passUpTo_steady (s : State) (k : Nat) : Steady s (s.passUpTo k) := by
  unfold State.passUpTo
  extract_lets s1
  have hopen : Steady s s1 := .ite (State.finishOpening_steady s) (Steady.refl s)
  exact hopen.trans (Steady.forEach (fun u j => .ite (State.passDeadline_steady u j) (Steady.refl u)) s1)

theorem State.reachDeadline_steady (s : State) (k : Nat) : Steady s (s.reachDeadline k) :=
  .ite (Steady.refl s) (State.passUpTo_steady s k)

theorem State.timeoutWait_steady (s : State) (t : Fin 16) (i : Nat) : Steady s (s.timeoutWait t i) := by
  unfold State.timeoutWait
  split
  · exact .ite (Steady.refl s) (.ite (State.advanceTo_steady s _) (State.reachDeadline_steady s _))
  · exact Steady.refl s

theorem State.completeGuard_steady (s : State) : Steady s s.completeGuard :=
  .ite (Steady.refl s) (.ite (State.finishOpening_steady s) (State.advanceTo_steady s _))

theorem State.closeFrame_steady (s : State) : Steady s s.closeFrame := .ite (State.passUpTo_steady s 7) (Steady.refl s)

/-! ### The cascade, Lynx and the controls of the FRAME page -/

theorem State.declareLost_steady (s : State) : Steady s s.declareLost := by
  unfold State.declareLost
  refine .ite (Steady.refl s) ?_
  extract_lets s1 s2
  have hlost : Steady s s1 := .of_touches (State.updCascade_touches s _ (within_refl _) (Touches.refl _ _))
  refine (hlost.trans (Steady.updFrame s1 _ : Steady s1 s2)).trans (Steady.forEach (fun u a => ?_) s2)
  split
  · exact .ite (.of_touches (State.failRun_touches u a _ (within_refl _) (Touches.refl _ _))) (Steady.refl u)
  · exact Steady.refl u

theorem State.loseMaster_steady (s : State) : Steady s s.loseMaster :=
  .ite (Steady.refl s) ((State.advanceTo_steady s _).trans (State.declareLost_steady _))

theorem State.useResync_steady (s : State) (T : Nat) : Steady s (s.useResync T) := by
  unfold State.useResync
  exact .ite (Steady.updFrame s _) (Steady.refl s)

theorem State.acceptTick_steady (s : State) (f : LinkFrame) (a T : Nat) : Steady s (s.acceptTick f a T) := by
  unfold State.acceptTick
  extract_lets g s1 s2
  have hdue : Steady s s2 := (State.useResync_steady s T).trans (Steady.updFrame s1 _)
  exact hdue.touch (State.updCascade_touches s2 _ (within_refl _) (Touches.refl _ _))

theorem State.receive_steady (s : State) (l : Nat) (f : LinkFrame) (kind : Nat) (body : State → State) (h : Steady s (body s)) :
    Steady s (s.receive l f kind body) :=
  .ite (Steady.refl s) (.ite (.of_touches (State.dropFrame_touches s (within_refl _) (Touches.refl _ _))) h)

theorem State.takeTick_steady (s : State) (l : Nat) (f : LinkFrame) : Steady s (s.takeTick l f) := by
  refine State.receive_steady s l f _ _ (.ite (.of_touches (State.countForeign_touches s (within_refl _) (Touches.refl _ _))) ?_)
  extract_lets a align s1 s2 T
  have hnote : Steady s s1 := .of_touches (State.noteTick_touches s f a (within_refl _) (Touches.refl _ _))
  have hraise : Steady s s2 := .ite (hnote.touch (State.raise_touches s1 _ _ (within_refl _) (Touches.refl _ _))) hnote
  refine .ite hraise ?_
  split
  · exact hraise.trans (State.acceptTick_steady s2 f a T)
  · exact hraise.touch (State.countEarly_touches s2 (within_refl _) (Touches.refl _ _))
  · exact hraise

theorem State.endWindow_steady (s : State) : Steady s s.endWindow := by
  unfold State.endWindow
  extract_lets x w s1 sigs s2
  refine .ite (Steady.refl s) ?_
  have hkept : Steady s s2 :=
    (State.advanceTo_steady s _).touch (State.updLynx_touches s1 _ (within_refl _) (Touches.refl _ _))
  exact hkept.trans (Steady.forEach (fun u f => .of_touches (State.transmit_touches u 0 f (within_refl _) (Touches.refl _ _))) s2)

theorem State.takeSig_steady (s : State) (f : LinkFrame) : Steady s (s.takeSig f) := by
  refine State.receive_steady s 0 f _ _ (.ite (Steady.refl s) (.ite ?_ ?_))
  · exact .of_touches (State.divergeFree_touches s _ _ (within_refl _) (Touches.refl _ _))
  · exact (Steady.ite (State.endWindow_steady s) (Steady.refl s)).touch
      (State.compareSigs_touches _ f (within_refl _) (Touches.refl _ _))

theorem State.ftickOutFall_steady (s : State) : Steady s s.ftickOutFall := by
  unfold State.ftickOutFall
  exact .ite (Steady.refl s) ((State.advanceTo_steady s _).trans (Steady.updFrame _ _))

theorem State.armResync_steady (s : State) : Steady s s.armResync := by
  unfold State.armResync
  exact .ite (Steady.updFrame s _) (Steady.refl s)

/-! ### Operations that begin, end or clear frames (01 R25; 17 R641) -/

/-- A frame begins only where RUN has once been 1, so that the scheduler's time counts in it. -/
theorem State.beginFrame_sound {s : State} (hs : FrameSound s) (ht : s.frame.timed = true) (subst : Bool)
    (number : Option (BitVec 64)) : FrameSound (s.beginFrame subst number) := by
  unfold State.beginFrame
  extract_lets f s1 irregular s2 s3 s4
  have hrun : Steady s s1 := .ite (.of_touches (State.startRun_touches s (within_refl _) (Touches.refl _ _))) (Steady.refl s)
  have hbegun : FrameSound s2 := ⟨(hrun.sound hs).whole, fun _ => hrun.timed.trans ht, (hrun.sound hs).began⟩
  have hclosed : Steady s2 s4 := by
    refine Steady.trans (.of_touches (l := [.lynx, .clock, .power]) ?_) (Steady.forEach (fun u t => State.updTenant_steady u t _) _)
    exact State.closePower_touches _ (by decide) (State.updClock_touches _ _ (by decide)
      (State.updLynx_touches s2 _ (by decide) (Touches.refl _ _)) id)
  exact (Steady.ite hclosed (hclosed.trans (State.openFrame_steady s4))).sound hbegun

theorem State.tickEdge_sound {s : State} (hs : FrameSound s) (ht : s.frame.timed = true) (subst : Bool) :
    FrameSound (s.tickEdge subst) := by
  have hbegin : FrameSound (s.closeFrame.beginFrame subst none) :=
    State.beginFrame_sound ((State.closeFrame_steady s).sound hs) ((State.closeFrame_steady s).timed.trans ht) subst none
  unfold State.tickEdge
  split
  · extract_lets f s1
    have hsent : Steady s s1 :=
      Steady.forEach (fun u l => .of_touches (State.transmit_touches u l f (within_refl _) (Touches.refl _ _))) s
    have hbegin' : FrameSound (s1.closeFrame.beginFrame subst none) := by
      have hclose := hsent.trans (State.closeFrame_steady s1)
      exact State.beginFrame_sound (hclose.sound hs) (hclose.timed.trans ht) subst none
    split
    · exact hbegin'
    · exact (hsent.trans (Steady.updFrame s1 _)).sound hs
  · exact hbegin

theorem State.run_of_wantsTick {s : State} (h : s.wantsTick = true) : s.frame.run = true := by
  simp only [State.wantsTick, Bool.and_eq_true] at h
  exact h.1.2

/-- Where RUN is 1 the scheduler's time counts. -/
theorem FrameSound.timed_of_wantsTick {s : State} (hs : FrameSound s) (h : s.wantsTick = true) : s.frame.timed = true :=
  hs.timed (.inl (State.run_of_wantsTick h))

/-- An accepted external tick finds RUN at 1 (01 R25). -/
theorem State.wantsTick_of_accepted {s : State} {T : Nat} (h : s.judgeArrival T = .accepted) : s.wantsTick = true := by
  unfold State.judgeArrival at h
  split_ifs at h <;> simp_all

theorem State.timerTick_sound {s : State} (hs : FrameSound s) : FrameSound s.timerTick := by
  unfold State.timerTick
  split
  · exact hs
  · rename_i hwants
    have ht : s.frame.timed = true := hs.timed_of_wantsTick (by simp_all)
    split
    · extract_lets due s1
      have htime : Steady s (s1.advanceTo due) :=
        (Steady.ite (State.closeFrame_steady s) (Steady.refl s)).trans (State.advanceTo_steady s1 due)
      exact State.tickEdge_sound (htime.sound hs) (htime.timed.trans ht) false
    · split
      · have htime := State.advanceTo_steady s (s.now + 1)
        exact State.tickEdge_sound (htime.sound hs) (htime.timed.trans ht) false
      · exact hs

theorem State.ftickIn_sound {s : State} (hs : FrameSound s) : FrameSound s.ftickIn := by
  unfold State.ftickIn
  split
  · exact hs
  · split
    · rename_i haccepted
      have hresync := State.useResync_steady s s.now
      exact State.tickEdge_sound (hresync.sound hs)
        (hresync.timed.trans (hs.timed_of_wantsTick (State.wantsTick_of_accepted haccepted))) false
    · exact (Steady.of_touches (State.countEarly_touches s (within_refl _) (Touches.refl _ _))).sound hs
    · exact hs

theorem State.substituteTick_sound {s : State} (hs : FrameSound s) : FrameSound s.substituteTick := by
  unfold State.substituteTick
  extract_lets first due s1 s2 v s3 s4
  split
  · exact hs
  · rename_i hwants
    have ht : s.frame.timed = true := hs.timed_of_wantsTick (by simp_all)
    have htime : Steady s s2 := (Steady.ite (State.closeFrame_steady s) (Steady.refl s)).trans (State.advanceTo_steady s1 _)
    have hcount : Steady s2 s3 := .of_touches (l := [.regs, .attn]) (State.raise_touches _ _ _ (by decide)
      (State.setLive_touches s2 _ _ _ (by decide) (Touches.refl _ _)))
    have hlost : Steady s3 s4 := .ite (State.declareLost_steady s3) (Steady.refl s3)
    have hall := (htime.trans hcount).trans hlost
    exact State.tickEdge_sound (hall.sound hs) (hall.timed.trans ht) true

theorem State.alignedBoundary_sound {s : State} (hs : FrameSound s) : FrameSound s.alignedBoundary := by
  unfold State.alignedBoundary
  split
  · exact hs
  · rename_i T number _
    split
    · exact hs
    · rename_i hrun
      have ht : s.frame.timed = true := hs.timed (.inl (by simp_all))
      have htime := (State.closeFrame_steady s).trans (State.advanceTo_steady s.closeFrame T)
      exact State.beginFrame_sound (htime.sound hs) (htime.timed.trans ht) _ _

theorem State.endLastFrame_sound {s : State} (hs : FrameSound s) : FrameSound s.endLastFrame := by
  unfold State.endLastFrame
  split
  · exact hs
  · extract_lets s1 s2 was s3
    have hclosed := ((State.closeFrame_steady s).trans (State.advanceTo_steady s1 (s1.frame.tickAt + s1.period))).sound hs
    have hended : FrameSound s3 := ⟨hclosed.whole, fun h => hclosed.timed (.inl (h.resolve_right Bool.false_ne_true)), hclosed.began⟩
    split
    · exact hended
    · refine Steady.sound (.of_touches (State.turnTenants_touches _ was ?_ (State.finishSets_touches s3 _ (within_refl _)
        (Touches.refl _ _)))) hended
      decide

theorem State.setRunning_sound {s : State} (hs : FrameSound s) (on : Bool) : FrameSound (s.setRunning on) := by
  cases on
  · exact ⟨hs.whole, fun h => hs.timed (.inr (h.resolve_left Bool.false_ne_true)), hs.began⟩
  · unfold State.setRunning
    rw [if_pos rfl]
    split
    · exact hs
    · exact ⟨hs.whole, fun _ => rfl, Nat.le_refl _⟩

/-- A reset leaves no frame and RUN at 0, whatever the state before (17 R641). -/
theorem FrameSound.of_stopped {s : State} (hrun : s.frame.run = false) (hin : s.frame.inFrame = false)
    (hwhole : s.frame.together = false) (hrunAt : s.frame.runAt = 0) : FrameSound s :=
  ⟨hwhole, fun h => absurd h (by simp [hrun, hin]), hrunAt ▸ Nat.zero_le _⟩

theorem State.clearPackage_sound (s : State) (cause : Nat) : FrameSound (s.clearPackage cause) := .of_stopped rfl rfl rfl rfl

theorem State.startBoot_steady (s : State) : Steady s s.startBoot :=
  .of_touches (State.startBoot_touches s (within_refl _) (Touches.refl _ _))

theorem State.packageReset_sound {s : State} (hs : FrameSound s) (cause : Nat) : FrameSound (s.packageReset cause) := by
  unfold State.packageReset
  split
  · exact (Steady.of_touches (State.addCause_touches s cause (within_refl _) (Touches.refl _ _))).sound hs
  · exact State.clearPackage_sound s cause

theorem State.pkgRst_sound {s : State} (hs : FrameSound s) (w : Writer) : FrameSound (s.pkgRst w) := by
  unfold State.pkgRst
  split
  · exact (State.startBoot_steady _).sound (State.packageReset_sound hs 3)
  · exact (State.refuseWrite_steady s w _ _).sound hs

theorem State.powerFalls_sound {s : State} (hs : FrameSound s) : FrameSound s.powerFalls := by
  unfold State.powerFalls
  split
  · exact (State.updPower_steady _ _).sound (State.packageReset_sound hs 2)
  · exact hs

theorem State.sysResetLow_sound {s : State} (hs : FrameSound s) (us : Nat) : FrameSound (s.sysResetLow us) := by
  unfold State.sysResetLow
  split
  · exact hs
  · exact (State.updPower_steady _ _).sound (State.packageReset_sound hs 1)

theorem State.loadTest_sound {s : State} (hs : FrameSound s) (ir : Byte) (d : List Bool) : FrameSound (s.loadTest ir d) := by
  unfold State.loadTest
  extract_lets s1
  have hload : FrameSound s1 := ⟨hs.whole, hs.timed, hs.began⟩
  split
  · exact hload
  · exact (State.updPower_steady _ _).sound (State.packageReset_sound hload 1)

theorem State.coldReset_sound (s : State) : FrameSound s.coldReset := by
  unfold State.coldReset
  exact ((Steady.of_touches (State.bumpCounter_touches _ 20 (within_refl _) (Touches.refl _ _))).trans
    (State.startBoot_steady _)).sound (.of_stopped rfl rfl rfl rfl)

/-! ### Register writes (12 R462, R463) -/

theorem State.setLive_steady (s : State) (page off v : Nat) : Steady s (s.setLive page off v) :=
  .of_touches (State.setLive_touches s page off v (within_refl _) (Touches.refl _ _))

theorem FrameSound.ite {c : Prop} [Decidable c] {s t : State} (h : FrameSound s) (k : FrameSound t) :
    FrameSound (if c then s else t) := by
  split
  · exact h
  · exact k

theorem State.writeAction_sound {s y : State} (hs : FrameSound s) {w : Writer} {page off v : Nat}
    (h : s.writeAction w page off v = some y) : FrameSound y := by
  unfold State.writeAction at h
  split at h
  case h_1 => exact Option.some.inj h ▸ (State.writeTarget_steady s _ _).sound hs
  case h_2 => exact Option.some.inj h ▸ (Steady.of_touches (State.writeSrcEn_touches s _ _ (within_refl _) (Touches.refl _ _))).sound hs
  case h_3 => exact Option.some.inj h ▸ (Steady.ite (Steady.refl s) (State.updClock_steady s _)).sound hs
  case h_4 => exact Option.some.inj h ▸ (Steady.of_touches (State.writeTrimCtrl_touches s _ _ (within_refl _) (Touches.refl _ _))).sound hs
  case h_5 => exact Option.some.inj h ▸ (Steady.of_touches (State.writeMeter_touches s _ _ (within_refl _) (Touches.refl _ _))).sound hs
  case h_6 => exact Option.some.inj h ▸ .ite (State.pkgRst_sound hs w) hs
  case h_7 =>
    exact Option.some.inj h ▸ .ite ((Steady.of_touches (State.unitReset_touches s _ _ _ (within_refl _) (Touches.refl _ _))).sound hs) hs
  case h_8 =>
    have hrun := State.setRunning_sound hs (bit v 0)
    exact Option.some.inj h ▸ .ite ((State.armResync_steady _).sound hrun) hrun
  case h_9 =>
    exact Option.some.inj h ▸ .ite ((Steady.of_touches (State.releaseSafe_touches s (within_refl _) (Touches.refl _ _))).sound hs) hs
  case h_10 =>
    exact Option.some.inj h ▸ .ite ((Steady.of_touches (State.updLynx_touches s _ (within_refl _) (Touches.refl _ _))).sound hs) hs
  case h_11 => exact Option.some.inj h ▸ (Steady.of_touches (State.writeRoute_touches s _ _ (within_refl _) (Touches.refl _ _))).sound hs
  case h_12 =>
    exact Option.some.inj h ▸ .ite ((Steady.of_touches (State.mailGo_touches s _ (within_refl _) (Touches.refl _ _))).sound hs) hs
  case h_13 =>
    exact Option.some.inj h ▸ .ite ((Steady.of_touches (State.updBox_touches s _ _ (within_refl _) (Touches.refl _ _))).sound hs) hs
  case h_14 =>
    exact Option.some.inj h ▸ .ite ((Steady.of_touches (State.calSet_touches s _ (within_refl _) (Touches.refl _ _))).sound hs) hs
  case h_15 => exact Option.some.inj h ▸ (Steady.of_touches (State.writeTail_touches s _ _ (within_refl _) (Touches.refl _ _))).sound hs
  case h_16 =>
    split at h
    · exact Option.some.inj h ▸ (Steady.of_touches (State.writeMsix_touches s _ _ _ (within_refl _) (Touches.refl _ _))).sound hs
    · split at h
      · split_ifs at h <;> obtain rfl := Option.some.inj h
        · exact (Steady.of_touches (State.writeQCtrl_touches s _ _ _ (within_refl _) (Touches.refl _ _))).sound hs
        · split
          · exact (Steady.of_touches (State.ringSq_touches s _ _ _ _ (within_refl _) (Touches.refl _ _))).sound hs
          · exact hs
        · split
          · exact (Steady.of_touches (State.ringCq_touches s _ _ _ _ (within_refl _) (Touches.refl _ _))).sound hs
          · exact hs
        · exact (Steady.of_touches (State.writeQStatus_touches s _ _ _ (within_refl _) (Touches.refl _ _))).sound hs
      · split_ifs at h
        exact Option.some.inj h ▸ (State.writeTCtrl_steady s w _ v).sound hs
      · split at h
        · have hlink : Steady s (s.enableLink w (page - 0x160) (bit v 0)) :=
            .of_touches (State.enableLink_touches s _ _ _ (within_refl _) (Touches.refl _ _))
          exact Option.some.inj h ▸
            (Steady.ite (hlink.touch (State.retrainLink_touches _ _ (within_refl _) (Touches.refl _ _))) hlink).sound hs
        · cases h

theorem State.writeA_sound {s : State} (hs : FrameSound s) (w : Writer) (page off : Nat) (r : Reg) (mask v : Nat) :
    FrameSound (s.writeA w page off r mask v) := by
  unfold State.writeA
  extract_lets fp new
  refine .ite ((State.recordDirect_steady s _ _ _ _).sound hs) ?_
  split
  · exact State.writeAction_sound hs ‹_›
  · exact .ite hs ((State.setLive_steady s _ _ _).sound hs)

theorem State.bumpErr_steady (s : State) (page : Nat) : Steady s (s.bumpErr page) :=
  .of_touches (State.bumpErr_touches s page (within_refl _) (Touches.refl _ _))

theorem State.writeBlock_sound {s : State} (hs : FrameSound s) (w : Writer) (page off v : Nat) :
    FrameSound (s.writeBlock w page off v) := by
  unfold State.writeBlock
  split
  · exact hs
  · rename_i r i _
    extract_lets mask old s1
    have hcount : FrameSound s1 := by
      unfold s1
      split
      · exact .ite ((State.bumpErr_steady s page).sound hs) hs
      · exact hs
    have hshadow : FrameSound (s1.writeShadow page off r mask v) :=
      (Steady.of_touches (State.writeShadow_touches s1 _ _ _ _ _ (within_refl _) (Touches.refl _ _))).sound hcount
    refine .ite hcount ?_
    split
    · exact State.writeA_sound hcount w page off r mask v
    · exact hshadow
    · exact .ite hcount (.ite hshadow
        ((Steady.of_touches (State.writeDirect_touches s1 _ _ _ _ _ _ (within_refl _) (Touches.refl _ _))).sound hcount))

theorem State.writeReg_sound {s : State} (hs : FrameSound s) (w : Writer) (page off v : Nat) :
    FrameSound (s.writeReg w page off v) :=
  .ite hs (.ite ((Steady.of_touches (State.writeHeader_touches s _ _ _ _ (within_refl _) (Touches.refl _ _))).sound hs)
    (State.writeBlock_sound hs w page off v))

end Sys2Proof.Machine
end

section
/-! SUPPORT. What every command touches, and what every step keeps: the invariant, time, the fuses and the chip. What the device reads at reset. -/
namespace Sys2Proof.Machine
open Sys2Proof
set_option Elab.async false

/-! ### Every command -/

/-- Every command's own effect touches at most the parts `mayChange` lists for it. -/
theorem exec_effect (i : Instr) (s : State) : ∃ after, exec i s = .next (settle after) ∧ Touches (mayChange i) s after :=
  match i with
  | .frameTimerTick => execFrameTimerTick_effect s
  | .ftickIn => execFtickIn_effect s
  | .substituteTick => execSubstituteTick_effect s
  | .ftickOutFall => execFtickOutFall_effect s
  | .run w on => execRun_effect w on s
  | .resync w => execResync_effect w s
  | .phaseDeadline k => execPhaseDeadline_effect k s
  | .cutForced c => execCutForced_effect c s
  | .worldSeal t => execWorldSeal_effect t s
  | .publish t => execPublish_effect t s
  | .safeCtrlRelease w => execSafeCtrlRelease_effect w s
  | .sqDoorbell p t q value => execSqDoorbell_effect p t q value s
  | .cqDoorbell p t q value => execCqDoorbell_effect p t q value s
  | .commandFetch t q word => execCommandFetch_effect t q word s
  | .completionWrite t q => execCompletionWrite_effect t q s
  | .frameCompletionWrite t => execFrameCompletionWrite_effect t s
  | .qStatusDmaErrClear p t q => execQStatusDmaErrClear_effect p t q s
  | .ingest t tag buf => execIngest_effect t tag buf s
  | .mixedTile t => execMixedTile_effect t s
  | .uniformTiles t => execUniformTiles_effect t s
  | .scroll t => execScroll_effect t s
  | .region t => execRegion_effect t s
  | .agentList t => execAgentList_effect t s
  | .agentRasterise t => execAgentRasterise_effect t s
  | .loadLattice t tag buf => execLoadLattice_effect t tag buf s
  | .loadModel t tag buf => execLoadModel_effect t tag buf s
  | .measure t tag => execMeasure_effect t tag s
  | .shape t tag => execShape_effect t tag s
  | .hostCand t tag buf => execHostCand_effect t tag buf s
  | .hostCandJudge t tag => execHostCandJudge_effect t tag s
  | .loadProgram t tag image => execLoadProgram_effect t tag image s
  | .activate t tag => execActivate_effect t tag s
  | .signal t tag => execSignal_effect t tag s
  | .nop t tag => execNop_effect t tag s
  | .bar2Read p addr len => execBar2Read_effect p addr len s
  | .bar2Write p addr data => execBar2Write_effect p addr data s
  | .configurationRequest p => execConfigurationRequest_effect p s
  | .frontField t => execFrontField_effect t s
  | .expandNode t => execExpandNode_effect t s
  | .proposalConvert t => execProposalConvert_effect t s
  | .checkStart e => execCheckStart_effect e s
  | .checkVerdict e => execCheckVerdict_effect e s
  | .smooth t => execSmooth_effect t s
  | .solveStart u => execSolveStart_effect u s
  | .solveIteration u => execSolveIteration_effect u s
  | .solveEnd u => execSolveEnd_effect u s
  | .select t => execSelect_effect t s
  | .selectStart u => execSelectStart_effect u s
  | .selectPass u => execSelectPass_effect u s
  | .selectResult u => execSelectResult_effect u s
  | .gemmTileStep c => execGemmTileStep_effect c s
  | .peerSend c => execPeerSend_effect c s
  | .taskFetch t => execTaskFetch_effect t s
  | .computePartStart c => execComputePartStart_effect c s
  | .engineTaskIssue t task => execEngineTaskIssue_effect t task s
  | .waitStart t task => execWaitStart_effect t task s
  | .timerTask t task => execTimerTask_effect t task s
  | .signalTask t task => execSignalTask_effect t task s
  | .taskRetire t task => execTaskRetire_effect t task s
  | .waitTimeout t task => execWaitTimeout_effect t task s
  | .timerFire t timer => execTimerFire_effect t timer s
  | .edgeDeliver t detector => execEdgeDeliver_effect t detector s
  | .deadlock t => execDeadlock_effect t s
  | .commitSingle p page => execCommitSingle_effect p page s
  | .commitJoin p page set => execCommitJoin_effect p page set s
  | .commitSubmit p page set => execCommitSubmit_effect p page set s
  | .discard p page => execDiscard_effect p page s
  | .setApply p => execSetApply_effect p s
  | .attnLatchClear p page bits => execAttnLatchClear_effect p page bits s
  | .wmarkCrossedClear p page bits => execWmarkCrossedClear_effect p page bits s
  | .attnMaskWrite w page mask => execAttnMaskWrite_effect w page mask s
  | .registerWrite w page offset value => execRegisterWrite_effect w page offset value s
  | .lowWordRead p page offset => execLowWordRead_effect p page offset s
  | .nowDateRead p => execNowDateRead_effect p s
  | .errCountRead p page => execErrCountRead_effect p page s
  | .cFaultRead p c => execCFaultRead_effect p c s
  | .cStorePeakRead p c => execCStorePeakRead_effect p c s
  | .eQueuePeakRead p e => execEQueuePeakRead_effect p e s
  | .slotsPeakRead p => execSlotsPeakRead_effect p s
  | .qPeakRead p c => execQPeakRead_effect p c s
  | .bar2DropsRead p => execBar2DropsRead_effect p s
  | .traceDropsRead p => execTraceDropsRead_effect p s
  | .tailWrite w value => execTailWrite_effect w value s
  | .divCountRead p => execDivCountRead_effect p s
  | .cascadeDropsRead p => execCascadeDropsRead_effect p s
  | .foreignRead p => execForeignRead_effect p s
  | .lErrRead p l => execLErrRead_effect p l s
  | .resetCauseRead p => execResetCauseRead_effect p s
  | .muxStuckRead p => execMuxStuckRead_effect p s
  | .dEccRead p d => execDEccRead_effect p d s
  | .tCtrlReset p t => execTCtrlReset_effect p t s
  | .tCtrlHold p t => execTCtrlHold_effect p t s
  | .tCtrlRelease p t => execTCtrlRelease_effect p t s
  | .dispatchAckTimeout kind index => execDispatchAckTimeout_effect kind index s
  | .unitRst w kind index => execUnitRst_effect w kind index s
  | .unitRstDone => execUnitRstDone_effect s
  | .pkgRst w => execPkgRst_effect w s
  | .pwrGoodFall => execPwrGoodFall_effect s
  | .sysRstNLow us => execSysRstNLow_effect us s
  | .sysRstNRise => execSysRstNRise_effect s
  | .bootStageComplete outcome => execBootStageComplete_effect outcome s
  | .coldReset => execColdReset_effect s
  | .portReset p cause => execPortReset_effect p cause s
  | .portReady p => execPortReady_effect p s
  | .tempSample junction => execTempSample_effect junction s
  | .throttleStep => execThrottleStep_effect s
  | .throttleEnd => execThrottleEnd_effect s
  | .throttleRestoreStep => execThrottleRestoreStep_effect s
  | .dramRefresh => execDramRefresh_effect s
  | .levelChangeRequest w target => execLevelChangeRequest_effect w target s
  | .pllLockDetect => execPllLockDetect_effect s
  | .pllStable pll => execPllStable_effect pll s
  | .sourceStable source => execSourceStable_effect source s
  | .sourceStartTimeout bit => execSourceStartTimeout_effect bit s
  | .srcEnWrite w value => execSrcEnWrite_effect w value s
  | .muxSwitch d => execMuxSwitch_effect d s
  | .muxWatchdog d toggled => execMuxWatchdog_effect d toggled s
  | .refLost => execRefLost_effect s
  | .meterStart w value => execMeterStart_effect w value s
  | .meterDone count => execMeterDone_effect count s
  | .trimStart w value => execTrimStart_effect w value s
  | .trimIteration count => execTrimIteration_effect count s
  | .trimRefTimeout => execTrimRefTimeout_effect s
  | .rtcSecond => execRtcSecond_effect s
  | .rtcSourceLost => execRtcSourceLost_effect s
  | .calSet p => execCalSet_effect p s
  | .linkEnable w l => execLinkEnable_effect w l s
  | .linkTrained l peer => execLinkTrained_effect l peer s
  | .retrain w l => execRetrain_effect w l s
  | .linkReplay l => execLinkReplay_effect l s
  | .replayRetrain l => execReplayRetrain_effect l s
  | .linkDownTimeout l => execLinkDownTimeout_effect l s
  | .routeDataWrite w value => execRouteDataWrite_effect w value s
  | .write l f => execWrite_effect l f s
  | .read l f => execRead_effect l f s
  | .doorbell l f => execDoorbell_effect l f s
  | .collPart l f => execCollPart_effect l f s
  | .ack l f => execAck_effect l f s
  | .readData l f => execReadData_effect l f s
  | .collResult l f => execCollResult_effect l f s
  | .witness l f => execWitness_effect l f s
  | .tick l f => execTick_effect l f s
  | .tickForward => execTickForward_effect s
  | .mark l f => execMark_effect l f s
  | .markSend => execMarkSend_effect s
  | .markForward => execMarkForward_effect s
  | .masterLost => execMasterLost_effect s
  | .cal l f => execCal_effect l f s
  | .calEchoSend l => execCalEchoSend_effect l s
  | .calEcho l f roundTrip => execCalEcho_effect l f roundTrip s
  | .lynxWindowEnd => execLynxWindowEnd_effect s
  | .lynxSig f => execLynxSig_effect f s
  | .lynxNotice f => execLynxNotice_effect f s
  | .lynxMissing window => execLynxMissing_effect window s
  | .divClear w => execDivClear_effect w s
  | .getInfo ch req => execGetInfo_effect ch req s
  | .readSensors ch req => execReadSensors_effect ch req s
  | .readCounters ch req => execReadCounters_effect ch req s
  | .readLog ch req => execReadLog_effect ch req s
  | .getIdentity ch req => execGetIdentity_effect ch req s
  | .challenge ch req => execChallenge_effect ch req s
  | .verify ch req => execVerify_effect ch req s
  | .pair ch req => execPair_effect ch req s
  | .identAck ch req => execIdentAck_effect ch req s
  | .fence ch req => execFence_effect ch req s
  | .unfence ch req => execUnfence_effect ch req s
  | .fwBegin ch req => execFwBegin_effect ch req s
  | .fwChunk ch req => execFwChunk_effect ch req s
  | .fwFinish ch req => execFwFinish_effect ch req s
  | .fwConfirm ch req => execFwConfirm_effect ch req s
  | .setBoardCfg ch req => execSetBoardCfg_effect ch req s
  | .getBoardCfg ch req => execGetBoardCfg_effect ch req s
  | .smbResponseRead cmd => execSmbResponseRead_effect cmd s
  | .smbTimeRead => execSmbTimeRead_effect s
  | .logFlush => execLogFlush_effect s
  | .counterCheckpoint => execCounterCheckpoint_effect s
  | .railSample rails current stackTemps power => execRailSample_effect rails current stackTemps power s
  | .sramCorrected st => execSramCorrected_effect st s
  | .sramUe st => execSramUe_effect st s
  | .dramCorrected addr => execDramCorrected_effect addr s
  | .dramUe addr => execDramUe_effect addr s
  | .extest => execExtest_effect s
  | .idcode => execIdcode_effect s
  | .samplePreload => execSamplePreload_effect s
  | .clamp => execClamp_effect s
  | .highz => execHighz_effect s
  | .extestPulse => execExtestPulse_effect s
  | .extestTrain => execExtestTrain_effect s
  | .bypass => execBypass_effect s
  | .lastFrameEnd => execLastFrameEnd_effect s
  | .alignedFrameBoundary => execAlignedFrameBoundary_effect s
  | .guardActionsComplete => execGuardActionsComplete_effect s
  | .queueDmaError t q what => execQueueDmaError_effect t q what s
  | .rtcSourceReturn => execRtcSourceReturn_effect s
  | .pwrGoodRise => execPwrGoodRise_effect s
  | .v3p3Loss => execV3p3Loss_effect s
  | .v3p3Return => execV3p3Return_effect s
  | .owlWatchdog => execOwlWatchdog_effect s
  | .linkDown l => execLinkDown_effect l s
  | .invalidFrame l f => execInvalidFrame_effect l f s
  | .creditReturn l vc => execCreditReturn_effect l vc s
  | .mbGoWhileBusy p => execMbGoWhileBusy_effect p s
  | .unassignedMailboxOpcode ch req => execUnassignedMailboxOpcode_effect ch req s
  | .mailboxFrameDiscarded ch => execMailboxFrameDiscarded_effect ch s
  | .flashEraseDone => execFlashEraseDone_effect s
/-- Every command's own effect keeps the clauses of the invariant about frames and time: those that touch the frame machine one by one. -/
theorem exec_frameSound (i : Instr) {s : State} (hs : FrameSound s) :
    ∃ after, exec i s = .next (settle after) ∧ FrameSound after := by
  have huntouched : ([.tick, .running, .frame].all fun p => ! (mayChange i).contains p) = true →
      ∃ after, exec i s = .next (settle after) ∧ FrameSound after := fun hl => by
    obtain ⟨after, hexec, htouch⟩ := exec_effect i s
    exact ⟨after, hexec, (Steady.of_touches htouch hl).sound hs⟩
  cases i
  case frameTimerTick => exact ⟨_, rfl, State.timerTick_sound hs⟩
  case ftickIn => exact ⟨_, rfl, State.ftickIn_sound hs⟩
  case substituteTick => exact ⟨_, rfl, State.substituteTick_sound hs⟩
  case ftickOutFall => exact ⟨_, rfl, (State.ftickOutFall_steady s).sound hs⟩
  case run w on => exact ⟨_, rfl, .ite (State.setRunning_sound hs on) ((State.refuseWrite_steady s w _ _).sound hs)⟩
  case resync w => exact ⟨_, rfl, (Steady.ite (State.armResync_steady s) (State.refuseWrite_steady s w _ _)).sound hs⟩
  case phaseDeadline k => exact ⟨_, rfl, (State.reachDeadline_steady s k).sound hs⟩
  case cutForced c => exact ⟨_, rfl, (State.forceCut_steady s c).sound hs⟩
  case taskFetch t => exact ⟨_, rfl, (State.fetchTask_steady s t).sound hs⟩
  case waitTimeout t k => exact ⟨_, rfl, (State.timeoutWait_steady s t k).sound hs⟩
  case timerFire t k => exact ⟨_, rfl, (State.timerFire_steady s t k).sound hs⟩
  case deadlock t => exact ⟨_, rfl, (State.reachDeadlock_steady s t).sound hs⟩
  case attnLatchClear p page v => exact ⟨_, rfl, State.writeReg_sound hs _ _ _ _⟩
  case wmarkCrossedClear p page v => exact ⟨_, rfl, State.writeReg_sound hs _ _ _ _⟩
  case attnMaskWrite w page v => exact ⟨_, rfl, State.writeReg_sound hs _ _ _ _⟩
  case registerWrite w page off v => exact ⟨_, rfl, State.writeReg_sound hs _ _ _ _⟩
  case tailWrite w v => exact ⟨_, rfl, State.writeReg_sound hs _ _ _ _⟩
  case tCtrlReset p t => exact ⟨_, rfl, (Steady.ite (State.requestReset_steady s t _) (State.refuseWrite_steady s _ _ _)).sound hs⟩
  case tCtrlHold p t => exact ⟨_, rfl, (Steady.ite (State.requestHold_steady s t _) (State.refuseWrite_steady s _ _ _)).sound hs⟩
  case pkgRst w => exact ⟨_, rfl, State.pkgRst_sound hs w⟩
  case pwrGoodFall => exact ⟨_, rfl, State.powerFalls_sound hs⟩
  case sysRstNLow us => exact ⟨_, rfl, State.sysResetLow_sound hs us⟩
  case coldReset => exact ⟨_, rfl, State.coldReset_sound s⟩
  case portReset p c => exact ⟨_, rfl, (State.portReset_steady s p c).sound hs⟩
  case tempSample js => exact ⟨_, rfl, (State.tempSample_steady s js).sound hs⟩
  case throttleStep => exact ⟨_, rfl, (State.throttleStep_steady s).sound hs⟩
  case throttleEnd => exact ⟨_, rfl, (State.throttleEnd_steady s).sound hs⟩
  case throttleRestoreStep => exact ⟨_, rfl, (State.restoreStep_steady s).sound hs⟩
  case dramRefresh => exact ⟨_, rfl, (State.dramRefresh_steady s).sound hs⟩
  case levelChangeRequest w v => exact ⟨_, rfl, (State.writeTarget_steady s w v).sound hs⟩
  case pllStable p => exact ⟨_, rfl, (State.pllStable_steady s p).sound hs⟩
  case muxSwitch d => exact ⟨_, rfl, (State.muxSwitch_steady s d).sound hs⟩
  case muxWatchdog d b => exact ⟨_, rfl, (State.muxWatchdog_steady s d b).sound hs⟩
  case tick l f => exact ⟨_, rfl, (State.takeTick_steady s l f).sound hs⟩
  case masterLost => exact ⟨_, rfl, (State.loseMaster_steady s).sound hs⟩
  case lynxWindowEnd => exact ⟨_, rfl, (State.endWindow_steady s).sound hs⟩
  case lynxSig f => exact ⟨_, rfl, (State.takeSig_steady s f).sound hs⟩
  case extest => exact ⟨_, rfl, State.loadTest_sound hs _ _⟩
  case clamp => exact ⟨_, rfl, State.loadTest_sound hs _ _⟩
  case highz => exact ⟨_, rfl, State.loadTest_sound hs _ _⟩
  case extestPulse => exact ⟨_, rfl, State.loadTest_sound hs _ _⟩
  case extestTrain => exact ⟨_, rfl, State.loadTest_sound hs _ _⟩
  case lastFrameEnd => exact ⟨_, rfl, State.endLastFrame_sound hs⟩
  case alignedFrameBoundary => exact ⟨_, rfl, State.alignedBoundary_sound hs⟩
  case guardActionsComplete => exact ⟨_, rfl, (State.completeGuard_steady s).sound hs⟩
  all_goals exact huntouched rfl

/-! ### Every step -/

/-- A step runs a command's own effect on the state with the queue's rest, or lets a microsecond pass; then attention settles. -/
theorem step_cases {s t : State} (h : step s = .next t) :
    t = s.idle ∨ ∃ i rest after, exec i { s with pending := rest } = .next (settle after) ∧ t = settle after := by
  unfold step at h
  split at h
  · exact .inl (Host.Outcome.next.inj h).symm
  · rename_i i rest _
    obtain ⟨after, hexec, -⟩ := exec_effect i { s with pending := rest }
    exact .inr ⟨i, rest, after, hexec, Host.Outcome.next.inj (h.symm.trans hexec)⟩

theorem mayChange_chip (i : Instr) : (mayChange i).contains .chip = false := by cases i <;> rfl

/-- What every operation keeps of the parts it may change, every step keeps. -/
theorem step_kept {s t : State} (h : step s = .next t) (p : Part) : p.kept s t := by
  obtain rfl | ⟨i, rest, after, hexec, rfl⟩ := step_cases h
  · exact (State.idle_touches s (within_refl _) (Touches.refl _ _) p).2
  · obtain ⟨after', hexec', htouch⟩ := exec_effect i { s with pending := rest }
    rw [Host.Outcome.next.inj (hexec.symm.trans hexec')]
    have hsettled : p.kept { s with pending := rest } (settle after') :=
      Part.kept_trans (htouch p).2 (settle_touches after' (within_refl _) (Touches.refl _ _) p).2
    cases p <;> exact hsettled

/-- Every step keeps the clauses of the invariant about frames and time. -/
theorem step_frameSound {s t : State} (hs : FrameSound s) (h : step s = .next t) : FrameSound t := by
  obtain rfl | ⟨i, rest, after, hexec, rfl⟩ := step_cases h
  · exact (State.idle_steady s).sound hs
  · obtain ⟨after', hexec', hsound⟩ := exec_frameSound i (s := { s with pending := rest }) ⟨hs.whole, hs.timed, hs.began⟩
    rw [Host.Outcome.next.inj (hexec.symm.trans hexec')]
    exact (Steady.settle after').sound hsound

theorem step_chip {s t : State} (h : step s = .next t) : t.chip = s.chip := by
  obtain rfl | ⟨i, rest, after, hexec, rfl⟩ := step_cases h
  · exact (State.idle_touches s (within_refl _) (Touches.refl _ _)).chip
  · obtain ⟨after', hexec', htouch⟩ := exec_effect i { s with pending := rest }
    rw [Host.Outcome.next.inj (hexec.symm.trans hexec')]
    exact ((settle_touches after' (within_refl _) (Touches.refl _ _)).chip).trans (htouch.chip (mayChange_chip i))

/-- Settles O5: memory, registers, boot stage, deadlines, trim and calendar by what every operation keeps of them, and the clauses about
frames and time by `step_frameSound`. -/
theorem everyStepKeepsTheInvariant : Obligations.EveryStepKeepsTheInvariant := by
  unfold Obligations.EveryStepKeepsTheInvariant
  intro s t hinv h
  have hframe := step_frameSound hinv.frameSound h
  exact
    { dram := step_kept h .dram hinv.dram
      regs := step_kept h .regs hinv.regs
      shadow := step_kept h .shadow hinv.shadow
      dirty := step_kept h .dirty hinv.dirty
      stage := step_kept h .power hinv.stage
      passed := step_kept h .passed hinv.passed
      trim := step_kept h .clock hinv.trim
      calendar := step_kept h .cal hinv.calendar
      whole := hframe.whole
      timed := hframe.timed
      began := hframe.began }

/-- Settles O8: no operation turns back time or the rollback counter, and the chip is in no command's list of parts. -/
theorem timeAndFusesNeverFallBack : Obligations.TimeAndFusesNeverFallBack := by
  unfold Obligations.TimeAndFusesNeverFallBack
  intro s t h
  exact ⟨step_kept h .now, step_kept h .firmware, step_chip h⟩

/-- Settles O9: the reset state is a closed term, and every clause of it evaluates. -/
theorem resetStopsFramesAndTenants : Obligations.ResetStopsFramesAndTenants := by
  unfold Obligations.ResetStopsFramesAndTenants
  decide +kernel

/-! ### The phase budgets (01 R28) -/

/-- The row of each phase's budget in the register table. -/
theorem regFind_budget (k : Fin 8) : ∃ r, regFind 0x03 (0x110 + 4 * k.val) = some (r, 0) ∧ r.cls = .f ∧
    r.reset = [1000, 1200, 1500, 1500, 2400, 1200, 400, 700].getD k.val 0 := by
  fin_cases k <;> exact ⟨_, rfl, rfl, rfl⟩

/-- The budgets at reset, and the deadlines and the period that they add up to. -/
theorem reset_budget : ∀ k : Fin 8, State.reset.budget k.val = [1000, 1200, 1500, 1500, 2400, 1200, 400, 700].getD k.val 0 ∧
    State.reset.deadlineAt k.val = State.reset.frame.tickAt + [1000, 2200, 3700, 5200, 7600, 8800, 9200, 9900].getD k.val 0 := by
  decide +kernel

/-- Settles O11: the rows by the register table, the sums by evaluating the reset state. -/
theorem phaseBudgetsHaveTheirReset : Obligations.PhaseBudgetsHaveTheirReset := by
  unfold Obligations.PhaseBudgetsHaveTheirReset
  intro k
  have hguard : State.reset.deadlineAt 7 + 100 = State.reset.frame.tickAt + State.reset.period := by decide +kernel
  exact ⟨regFind_budget k, fun _ => rfl, (reset_budget k).1, (reset_budget k).2, hguard⟩

end Sys2Proof.Machine
end

section
/-! SUPPORT. The frame's controls, and how time passes to a frame's boundary: ticks, aligned boundaries, the guard and the last frame (01 R20 to R27,
R56, R63). -/
namespace Sys2Proof.Machine
open Sys2Proof
set_option Elab.async false

/-! ### RUN, RESYNC and RELEASE (01 R24, R25, R56) -/

/-- The upper half of a word whose upper half was just written. -/
theorem bits_upper_half {n : Nat} (h : n ≤ 0xFFFF) : bits (n * 2 ^ 16 % 2 ^ 32) 31 16 = n := by
  unfold bits
  rw [Nat.shiftRight_eq_div_pow]
  omega

theorem sat16_eq_min (n : Nat) : sat16 n = min 65535 (n + 1) := rfl

/-- RUN where it is 1 already changes nothing. -/
theorem State.setRunning_again {s : State} (h : s.frame.run = true) : s.setRunning true = s := by
  simp [State.setRunning, h]

/-- What a rise of RUN makes of the frame machine (01 R25, R26). -/
theorem State.setRunning_rise_frame {s : State} (h : s.frame.run = false) :
    (s.setRunning true).frame = { s.frame with
      run := true, fresh := true, timed := true, runAt := s.now, expected := s.now + 1,
      number := if s.frame.inFrame then s.frame.number else 0 } := by
  simp only [State.setRunning, h]
  rfl

/-- A refused release leaves the frame machine, and counts (01 R56). -/
theorem State.releaseSafe_refused {s : State} (hpin : s.frame.safePin = true) (hran : s.frame.ranSinceReset = true)
    (hcond : s.frame.safeNow = true ∨ s.frame.safeLast = true) :
    s.releaseSafe.frame = s.frame ∧
      bits (s.releaseSafe.live 0x03 0x148) 31 16 = min 65535 (bits (s.live 0x03 0x148) 31 16 + 1) := by
  have hrefused : (s.frame.ranSinceReset && (s.frame.safeNow || s.frame.safeLast)) = true := by simpa [hran] using hcond
  have hform : s.releaseSafe =
      (s.setLive 0x03 0x148 (sat16 (bits (s.live 0x03 0x148) 31 16) * 2 ^ 16)).raise 0x03 2 := by
    simp [State.releaseSafe, hpin, hrefused]
  rw [hform]
  refine ⟨rfl, ?_⟩
  have hlive := State.live_setLive_self s 0x03 0x148 (sat16 (bits (s.live 0x03 0x148) 31 16) * 2 ^ 16)
  exact (congrArg (bits · 31 16) hlive).trans (bits_upper_half (by rw [sat16_eq_min]; exact Nat.min_le_left _ _))

/-- A release without a condition of the frame or the one before ends SAFE_STATE (01 R56; 17 R643). -/
theorem State.releaseSafe_released {s : State}
    (h : s.frame.ranSinceReset = false ∨ s.frame.safeNow = false ∧ s.frame.safeLast = false) :
    s.releaseSafe.frame.safePin = false := by
  unfold State.releaseSafe
  split
  · simpa using ‹(!s.frame.safePin) = true›
  · rw [if_neg (by rcases h with h | ⟨h, k⟩ <;> simp [*])]
    rfl

theorem State.armResync_frame (s : State) :
    s.armResync.frame = if s.frame.run then { s.frame with resync := true } else s.frame := by
  unfold State.armResync
  split <;> rfl

/-- Settles O15: each control reaches its operation, whose effect on the frame machine is stated above. -/
theorem frameControlsTakeEffect : Obligations.FrameControlsTakeEffect := by
  unfold Obligations.FrameControlsTakeEffect
  intro s w hw
  refine ⟨⟨_, congrArg done (if_pos hw), ?_⟩, ⟨_, congrArg done (if_pos hw), ?_⟩, ⟨_, congrArg done (if_pos hw), ?_⟩,
    ⟨_, congrArg done (if_pos hw), ?_, ?_⟩⟩
  · cases hrun : s.frame.run with
    | true => simp [State.setRunning_again hrun, hrun]
    | false => cases hin : s.frame.inFrame <;> simp [State.setRunning_rise_frame hrun, hin]
  · simp [State.setRunning]
  · simp [State.armResync_frame]
  · simpa using State.releaseSafe_released
  · simpa using State.releaseSafe_refused

/-! ### Time passing where nothing falls due (10 R391) -/

/-- What every turn of a loop keeps, the loop keeps. -/
theorem State.forEach_keeps {α β : Type} (g : State → β) {l : List α} {f : State → α → State} (h : ∀ u a, g (f u a) = g u)
    (s : State) : g (s.forEach l f) = g s := by
  unfold State.forEach
  induction l generalizing s with
  | nil => rfl
  | cons a r ih => exact (ih _).trans (h s a)

/-- A loop of which no turn changes the state changes nothing. -/
theorem State.forEach_of_fixed {α : Type} {l : List α} {f : State → α → State} {s : State} (h : ∀ a ∈ l, f s a = s) :
    s.forEach l f = s := by
  unfold State.forEach
  induction l with
  | nil => rfl
  | cons a r ih =>
    rw [List.foldl_cons, h a List.mem_cons_self]
    exact ih fun b hb => h b (List.mem_cons_of_mem _ hb)

theorem State.elapse_frame (s : State) (k : Nat) : (s.elapse k).frame = s.frame := by
  unfold State.elapse
  split
  · rfl
  · simp only [State.updCascade_fields, State.forTenants]
    refine State.forEach_keeps State.frame ?_ s
    exact fun _ _ => rfl

theorem State.elapse_regs (s : State) (k : Nat) : (s.elapse k).regs = s.regs :=
  (State.elapse_touches s k (within_refl _) (Touches.refl _ _)).regs

theorem State.elapse_chip (s : State) (k : Nat) : (s.elapse k).chip = s.chip :=
  (State.elapse_touches s k (within_refl _) (Touches.refl _ _)).chip

/-- The frame timer after `k` µs. -/
theorem State.elapse_now (s : State) (k : Nat) : (s.elapse k).now = s.now + k := by
  unfold State.elapse
  split
  · rename_i hk
    rw [hk, Nat.add_zero]
  · unfold State.forTenants
    refine congrArg (· + k) (State.forEach_keeps State.now ?_ s)
    exact fun _ _ => rfl

/-- The frame timer after the time up to `T`. -/
theorem State.elapse_to_now (s : State) (T : Nat) : (s.elapse (T - s.now)).now = max s.now T := by
  rw [State.elapse_now]
  omega

theorem State.advanceTo_of_nothingDue {s : State} {T : Nat} (h : s.nothingDue (max s.now T)) :
    s.advanceTo T = s.elapse (T - s.now) := by
  have hdue : ((allFin 16).flatMap s.dueTimes).filter (· ≤ max s.now T) = [] := by
    simp only [List.filter_eq_nil_iff, List.mem_flatMap, decide_eq_true_eq, not_le]
    rintro e ⟨t, -, he⟩
    exact h t e he
  simp only [State.advanceTo, State.passTime, hdue]

/-- Outside the tick-to-D_7 span of a frame nothing falls due (10 R391). -/
theorem State.nothingDue_of_guard {s : State} (h : s.frame.inFrame = true → s.frame.opening = false → 8 ≤ s.frame.passed) (T : Nat) :
    s.nothingDue T := by
  intro t e he
  have hruns : s.delayRuns t = false := by
    unfold State.delayRuns
    cases hin : s.frame.inFrame with
    | false => rfl
    | true =>
      cases hopen : s.frame.opening with
      | true => rfl
      | false => simp [Nat.not_lt.mpr (h hin hopen)]
  rw [State.dueTimes, if_pos (by simp [hruns])] at he
  exact absurd he (List.not_mem_nil)

theorem State.fallDue_now (s : State) (t : Fin 16) : (s.fallDue t).now = s.now :=
  (State.fallDue_touches s t (within_refl _) (Touches.refl _ _)).now

theorem foldl_min_le (l : List Nat) (e : Nat) : l.foldl min e ≤ e := by
  induction l generalizing e with
  | nil => exact Nat.le_refl e
  | cons a r ih => exact (ih _).trans (Nat.min_le_left e a)

theorem State.passTime_now (s : State) (T n : Nat) : (s.passTime T n).now = max s.now T := by
  induction n generalizing s with
  | zero => exact s.elapse_to_now T
  | succ n ih =>
    unfold State.passTime
    split
    · exact s.elapse_to_now T
    · rename_i e l hdue
      have he : e ≤ max s.now T := by
        have hmem : e ∈ e :: l := List.mem_cons_self
        rw [← hdue] at hmem
        simpa using (List.mem_filter.mp hmem).2
      have hfirst := (foldl_min_le l e).trans he
      rw [ih, State.forTenants, State.forEach_keeps State.now State.fallDue_now, State.elapse_to_now]
      omega

/-- The frame timer comes to the time named, and is never turned back (01 R20). -/
theorem State.advanceTo_now (s : State) (T : Nat) : (s.advanceTo T).now = max s.now T := State.passTime_now s T _

/-! ### A frame's own data through its opening (01 R25 to R27, R63) -/

/-- Two states have the same frame number, boundary, mark of a substitute and tick output, and agree whether a frame runs and is the first. -/
structure SameBoundary (s t : State) : Prop where
  inFrame : t.frame.inFrame = s.frame.inFrame
  fresh : t.frame.fresh = s.frame.fresh
  number : t.frame.number = s.frame.number
  substituted : t.frame.substituted = s.frame.substituted
  tickAt : t.frame.tickAt = s.frame.tickAt
  ftickOut : t.frame.ftickOut = s.frame.ftickOut

theorem SameBoundary.of_frame {s t : State} (h : t.frame = s.frame) : SameBoundary s t := by
  constructor <;> rw [h]

theorem SameBoundary.refl (s : State) : SameBoundary s s := .of_frame rfl

theorem SameBoundary.trans {s t u : State} (h : SameBoundary s t) (k : SameBoundary t u) : SameBoundary s u :=
  ⟨k.inFrame.trans h.inFrame, k.fresh.trans h.fresh, k.number.trans h.number, k.substituted.trans h.substituted,
    k.tickAt.trans h.tickAt, k.ftickOut.trans h.ftickOut⟩

theorem SameBoundary.of_touches {l : List Part} {s t : State} (h : Touches l s t)
    (hl : ([.tick, .running, .frame].all fun p => ! l.contains p) = true := by decide) : SameBoundary s t := by
  have hp : ∀ p ∈ [Part.tick, .running, .frame], l.contains p = false := fun p hp => by simpa using List.all_eq_true.mp hl p hp
  obtain ⟨-, hfresh, -⟩ := h.running (hp _ (by decide))
  obtain ⟨hin, hnumber, -, htick, -, hsubst, -⟩ := h.tick (hp _ (by decide))
  obtain ⟨-, -, -, hout, -⟩ := h.frame (hp _ (by decide))
  exact ⟨hin, hfresh, hnumber, hsubst, htick, hout⟩

theorem SameBoundary.forEach {α : Type} {l : List α} {f : State → α → State} (h : ∀ u a, SameBoundary u (f u a)) (s : State) :
    SameBoundary s (s.forEach l f) := by
  unfold State.forEach
  induction l generalizing s with
  | nil => exact SameBoundary.refl s
  | cons a r ih => exact (h s a).trans (ih _)

theorem SameBoundary.ite {c : Prop} [Decidable c] {s t u : State} (h : SameBoundary s t) (k : SameBoundary s u) :
    SameBoundary s (if c then t else u) := by
  split
  · exact h
  · exact k

theorem SameBoundary.settle (s : State) : SameBoundary s (settle s) := .of_frame (by simp)

theorem SameBoundary.updFrame (s : State) (f : Frame → Frame) (h : ∀ g : Frame, (f g).inFrame = g.inFrame ∧ (f g).fresh = g.fresh ∧
    (f g).number = g.number ∧ (f g).substituted = g.substituted ∧ (f g).tickAt = g.tickAt ∧ (f g).ftickOut = g.ftickOut := by
      exact fun _ => ⟨rfl, rfl, rfl, rfl, rfl, rfl⟩) : SameBoundary s (s.updFrame f) := by
  obtain ⟨hin, hfresh, hnumber, hsubst, htick, hout⟩ := h s.frame
  exact ⟨hin, hfresh, hnumber, hsubst, htick, hout⟩

theorem State.beginRelock_boundary (s : State) (v : BitVec 2) : SameBoundary s (s.beginRelock v) := ⟨rfl, rfl, rfl, rfl, rfl, rfl⟩

theorem State.requestLevel_boundary (s : State) (v : BitVec 2) : SameBoundary s (s.requestLevel v) := by
  unfold State.requestLevel
  dsimp only
  split_ifs <;> exact ⟨rfl, rfl, rfl, rfl, rfl, rfl⟩

theorem State.startDeferred_boundary (s : State) : SameBoundary s s.startDeferred := by
  unfold State.startDeferred
  split
  · exact SameBoundary.refl s
  · rename_i v _
    extract_lets s1 s2
    have hstep : SameBoundary s s2 := .ite (.of_frame rfl) (.of_frame rfl)
    exact .ite hstep (hstep.trans (State.beginRelock_boundary s2 v))

theorem State.adapt_boundary (s : State) : SameBoundary s s.adapt := by
  unfold State.adapt
  dsimp only
  split_ifs
  · exact SameBoundary.refl s
  · exact State.requestLevel_boundary s _
  · exact .of_frame rfl
  · exact SameBoundary.refl s
  · exact State.requestLevel_boundary s _
  · exact SameBoundary.refl s

/-- The opening of a frame leaves its boundary, and the frame is open after it (01 R63). -/
theorem State.openFrame_boundary (s : State) : SameBoundary s s.openFrame ∧ s.openFrame.frame.opening = false := by
  unfold State.openFrame
  split
  · exact ⟨SameBoundary.updFrame s _, rfl⟩
  · extract_lets was s1 s2 s3 s4 s5 s6 s7 s8
    have hsets : SameBoundary s s1 := .of_touches (State.finishSets_touches s _ (within_refl _) (Touches.refl _ _))
    have hlevels : SameBoundary s1 s2 :=
      ((State.startDeferred_boundary s1).trans (State.adapt_boundary _)).trans (SameBoundary.settle _)
    have hturn : SameBoundary s2 s3 :=
      .of_touches (l := [.tState, .engines, .bears, .jays, .fronts, .cores, .links]) (State.turnLinks_touches _ (by decide)
        (State.turnUnits_touches _ (by decide) (State.turnTenants_touches s2 was (by decide) (Touches.refl _ _))))
    have hstart : SameBoundary s3 s4 :=
      SameBoundary.forEach (fun u t => .of_touches (State.startTenant_touches u t (within_refl _) (Touches.refl _ _))) s3
    have hexchange : SameBoundary s4 s5 :=
      SameBoundary.forEach
        (fun u t => .ite (.of_touches (State.exchange_touches u t (within_refl _) (Touches.refl _ _))) (SameBoundary.refl u)) s4
    have hopen : SameBoundary s5 s6 := SameBoundary.updFrame s5 _
    have happly : Touches [.regs, .shadow, .dirty, .attn, .tTable, .tSolver, .tSched, .tSpoor, .tQueues, .tCmds, .engines, .dram] s6 s7 := by
      unfold s7
      split
      · exact Touches.forTenants (Touches.refl _ _) fun u t h => State.applyWaiting_touches u t (by decide) h
      · exact Touches.refl _ _
    have hhash := Touches.forTenants happly fun u t h =>
      State.updSpoor_touches u t (fun p => { p with configHash := u.configHash t }) (by decide) h
    have hstops := Touches.forTenants (t := s8) hhash fun u t h => State.buildStops_touches u t (by decide) h
    have hend := settle_touches _ (by decide) hstops
    refine ⟨(((((hsets.trans hlevels).trans hturn).trans hstart).trans hexchange).trans hopen).trans (.of_touches hend), ?_⟩
    obtain ⟨-, hopening, -⟩ := hend.frame
    exact hopening

/-! ### Ticks and boundaries (01 R20 to R27; 15 R578) -/

/-- A frame has just begun: its number, whether a substitute began it, and its boundary. -/
structure Begun (number : BitVec 64) (subst : Bool) (tickAt : Nat) (t : State) : Prop where
  inFrame : t.frame.inFrame = true
  fresh : t.frame.fresh = false
  number : t.frame.number = number
  substituted : t.frame.substituted = subst
  ftickOut : t.frame.ftickOut = true
  tickAt : t.frame.tickAt = tickAt

theorem Begun.of_boundary {number : BitVec 64} {subst : Bool} {T : Nat} {s t : State} (h : Begun number subst T s)
    (k : SameBoundary s t) : Begun number subst T t :=
  ⟨k.inFrame.trans h.inFrame, k.fresh.trans h.fresh, k.number.trans h.number, k.substituted.trans h.substituted,
    k.ftickOut.trans h.ftickOut, k.tickAt.trans h.tickAt⟩

/-- A boundary begins a frame now, with the number given or else the next one (01 R25, R26). -/
theorem State.beginFrame_begun (s : State) (subst : Bool) (number : Option (BitVec 64)) :
    Begun (number.getD s.nextNumber) subst s.now (s.beginFrame subst number) := by
  unfold State.beginFrame
  extract_lets f s1 irregular s2 s3 s4
  have hrun : Touches [.tSpoor, .lynx] s s1 := by
    unfold s1
    split
    · exact State.startRun_touches s (within_refl _) (Touches.refl _ _)
    · exact Touches.refl _ _
  have hnext : s1.nextNumber = s.nextNumber := by
    obtain ⟨-, hnumber, -⟩ := hrun.tick
    obtain ⟨-, hfresh, -⟩ := hrun.running
    rw [State.nextNumber, hnumber, hfresh, State.nextNumber]
  clear_value s1
  have hbegun : Begun (number.getD s.nextNumber) subst s.now s2 :=
    ⟨rfl, rfl, congrArg number.getD hnext, rfl, rfl, hrun.now⟩
  have hclosed : SameBoundary s2 s4 := by
    refine SameBoundary.trans (.of_touches (l := [.lynx, .clock, .power]) ?_) (SameBoundary.forEach ?_ _)
    · exact State.closePower_touches _ (by decide) (State.updClock_touches _ _ (by decide)
        (State.updLynx_touches s2 _ (by decide) (Touches.refl _ _)) id)
    · exact fun u t => .of_frame rfl
  exact hbegun.of_boundary (.ite hclosed (hclosed.trans (State.openFrame_boundary s4).1))

/-- A frame whose deadlines have passed is closed already. -/
theorem State.closeFrame_of_guard {s : State} (h : s.frame.inFrame = true → s.frame.passed = 8 ∧ s.frame.opening = false) :
    s.closeFrame = s := by
  unfold State.closeFrame
  split
  · rename_i hin
    obtain ⟨hpassed, hopening⟩ := h hin
    simp only [State.passUpTo, hopening, Bool.false_eq_true, if_false]
    refine State.forEach_of_fixed fun j hj => ?_
    have hj' := List.mem_range.mp hj
    rw [if_neg (by simp [hpassed]; omega)]
  · rfl

/-- A tick edge outside a cascade's master begins the next frame now (15 R578). -/
theorem State.tickEdge_begun {s : State} (hrole : s.role ≠ 1)
    (h : s.frame.inFrame = true → s.frame.passed = 8 ∧ s.frame.opening = false) (subst : Bool) :
    Begun s.nextNumber subst s.now (s.tickEdge subst) := by
  rw [State.tickEdge, if_neg hrole, State.closeFrame_of_guard h]
  exact State.beginFrame_begun s subst none

theorem State.role_of_regs {s t : State} (hregs : t.regs = s.regs) (hchip : t.chip = s.chip) : t.role = s.role := by
  rw [State.role, State.live, hregs, hchip]
  rfl

theorem State.role_elapse (s : State) (k : Nat) : (s.elapse k).role = s.role :=
  State.role_of_regs (s.elapse_regs k) (s.elapse_chip k)

/-- The next tick edge once time has passed to `T` in the guard, or with no frame running. -/
theorem State.tickEdge_elapse {s : State} (hrole : s.role ≠ 1)
    (h : s.frame.inFrame = true → s.frame.passed = 8 ∧ s.frame.opening = false) (T : Nat) :
    Begun s.nextNumber false (max s.now T) ((s.advanceTo T).tickEdge false) := by
  rw [State.advanceTo_of_nothingDue (State.nothingDue_of_guard (fun hin _ => (h hin).1.ge) _)]
  have hedge := State.tickEdge_begun (s := s.elapse (T - s.now)) ((s.role_elapse _).trans_ne hrole)
    (by rw [State.elapse_frame]; exact h) false
  rwa [State.elapse_to_now, State.nextNumber, State.elapse_frame] at hedge

theorem State.wantsTick_eq {s : State} (hheld : s.held = false) (hrun : s.frame.run = true) (haligned : s.frame.aligned = none) :
    s.wantsTick = true := by
  simp [State.wantsTick, hheld, hrun, haligned]

theorem State.expectedAt_eq {s : State} (hrole : s.role ≠ 1) : s.expectedAt = s.frame.tickAt + s.period := by
  rw [State.expectedAt, State.leadUs, if_neg hrole, Nat.sub_zero]

/-- The tick of the internal timer (01 R20, R25). -/
theorem State.timerTick_begun {s : State} (hwants : s.wantsTick = true) (hsrc : s.tickSrc = 0) (hrole : s.role ≠ 1)
    (h : s.frame.inFrame = true → s.frame.passed = 8 ∧ s.frame.opening = false)
    (hnext : s.frame.inFrame = true ∨ s.frame.fresh = true) :
    Begun s.nextNumber false (if s.frame.inFrame then max s.now (s.frame.tickAt + s.period) else s.now + 1) s.timerTick := by
  have hlead : s.leadUs = 0 := if_neg hrole
  cases hin : s.frame.inFrame with
  | true =>
    have hform : s.timerTick = (s.advanceTo (s.frame.tickAt + s.period)).tickEdge false := by
      simp [State.timerTick, hwants, hsrc, hin, hlead, State.closeFrame_of_guard h, State.expectedAt_eq hrole]
    rw [hform, if_pos rfl]
    exact State.tickEdge_elapse hrole h _
  | false =>
    have hfresh : s.frame.fresh = true := hnext.resolve_left (by simp [hin])
    have hform : s.timerTick = (s.advanceTo (s.now + 1)).tickEdge false := by simp [State.timerTick, hwants, hsrc, hin, hfresh]
    have hedge := State.tickEdge_elapse hrole h (s.now + 1)
    rw [Nat.max_eq_right (Nat.le_succ _)] at hedge
    rwa [hform, if_neg Bool.false_ne_true]

/-- An accepted external tick (01 R21). -/
theorem State.ftickIn_begun {s : State} (hsrc : s.tickSrc = 1) (hrole : s.role ≠ 1)
    (h : s.frame.inFrame = true → s.frame.passed = 8 ∧ s.frame.opening = false) (haccepted : s.judgeArrival s.now = .accepted) :
    Begun s.nextNumber false s.now s.ftickIn := by
  simp only [State.ftickIn, hsrc, haccepted, ne_eq, not_true_eq_false, if_false]
  unfold State.useResync
  split
  · exact State.tickEdge_begun (s := s.updFrame fun f => { f with resync := false }) hrole h false
  · exact State.tickEdge_begun hrole h false

/-- A substitute for a tick that has not come by the end of its window (01 R23). -/
theorem State.substituteTick_begun {s : State} (hregs : keysRise s.regs) (hwants : s.wantsTick = true) (hsrc : s.tickSrc ≠ 0)
    (hrole : s.role ≠ 1) (hmember : s.role ≠ 2) (hin : s.frame.inFrame = true)
    (h : s.frame.inFrame = true → s.frame.passed = 8 ∧ s.frame.opening = false) :
    Begun s.nextNumber true (max s.now (s.frame.tickAt + s.period + s.windowUs)) s.substituteTick := by
  have hlead : s.leadUs = 0 := if_neg hrole
  unfold State.substituteTick
  extract_lets first due s1 s2 v s3 s4
  rw [if_neg (by simp [hwants, hsrc, hin])]
  have hdue : due = s.frame.tickAt + s.period := by simp [due, hin, State.expectedAt_eq hrole]
  have hs1 : s1 = s := by simp [s1, hlead, State.closeFrame_of_guard h]
  have hs2 : s2 = s.elapse (s.frame.tickAt + s.period + s.windowUs - s.now) := by
    rw [← hdue, show s2 = s.advanceTo (due + s1.windowUs) by simp only [s2, hs1], hs1]
    exact State.advanceTo_of_nothingDue (State.nothingDue_of_guard (fun hin _ => (h hin).1.ge) _)
  have hrole3 : s3.role = s.role := by
    have hlive : s3.live 0x0D 0x104 = s2.live 0x0D 0x104 :=
      State.live_setLive_ne s2 (by rw [hs2, State.elapse_regs]; exact hregs) (by decide) _
    rw [State.role, hlive, ← State.role, hs2, State.role_elapse]
  have hs4 : s4 = s3 := by
    unfold s4
    rw [if_neg (by simp [hrole3, hmember])]
  have hframe : s3.frame = s.frame := (show s3.frame = s2.frame from rfl).trans (by rw [hs2, State.elapse_frame])
  have hnow : s3.now = max s.now (s.frame.tickAt + s.period + s.windowUs) :=
    (show s3.now = s2.now from rfl).trans (by rw [hs2, State.elapse_to_now])
  have hedge := State.tickEdge_begun (s := s3) (hrole3.trans_ne hrole) (by rw [hframe]; exact h) true
  rw [hs4]
  rwa [hnow, State.nextNumber, hframe] at hedge

/-- Settles O13: each source's tick comes to a boundary now, which begins the next frame. -/
theorem ticksBeginFrames : Obligations.TicksBeginFrames := by
  unfold Obligations.TicksBeginFrames
  intro s hinv hheld hrun haligned hrole hguard
  have hwants := State.wantsTick_eq hheld hrun haligned
  refine ⟨fun hsrc hnext => ?_, fun hsrc haccepted => ?_, fun hsrc hmember hin => ?_⟩
  · obtain ⟨hin', hfresh, hnumber, hsubst, hout, htick⟩ := State.timerTick_begun hwants hsrc hrole hguard hnext
    refine ⟨_, rfl, ?_⟩
    simp only [settle_fields]
    exact ⟨hin', hfresh, hnumber, hsubst, hout, htick⟩
  · obtain ⟨hin', hfresh, hnumber, hsubst, hout, htick⟩ := State.ftickIn_begun hsrc hrole hguard haccepted
    refine ⟨_, rfl, ?_⟩
    simp only [settle_fields]
    exact ⟨hin', hfresh, hnumber, hsubst, hout, htick⟩
  · obtain ⟨hin', hfresh, hnumber, hsubst, hout, htick⟩ :=
      State.substituteTick_begun hinv.regs hwants hsrc hrole hmember hin hguard
    refine ⟨_, rfl, ?_⟩
    simp only [settle_fields]
    exact ⟨hin', hfresh, hnumber, hsubst, hout, htick⟩

/-! ### The guard, FTICK_OUT and the last frame (01 R25, R27, R63) -/

/-- What falls due opens no frame: a moment of flags is all that it opens and closes. -/
theorem State.fallDue_opening (s : State) (t : Fin 16) : (s.fallDue t).frame.opening = s.frame.opening := by
  unfold State.fallDue
  split
  · rfl
  · extract_lets s1
    have hfire := State.fireDue_touches s.hold t s.schedTime 200000 (within_refl _) (Touches.refl _ _)
    have hrest := State.declareDeadlock_touches _ t (within_refl _)
      (State.expireWaits_touches s1 t s1.now (s1.tenant t).sched.tasks.length (by decide)
        (Touches.forTenants (Touches.refl _ _) fun u a h => State.evalWaits_touches u a (by decide) h))
    obtain ⟨-, hopenRest, -⟩ := hrest.frame
    obtain ⟨-, hopenFire, -⟩ := hfire.frame
    exact hopenRest.trans hopenFire

theorem State.passTime_opening (s : State) (T n : Nat) : (s.passTime T n).frame.opening = s.frame.opening := by
  induction n generalizing s with
  | zero => exact congrArg Frame.opening (s.elapse_frame _)
  | succ n ih =>
    unfold State.passTime
    split
    · exact congrArg Frame.opening (s.elapse_frame _)
    · rw [ih, State.forTenants, State.forEach_keeps (fun u => u.frame.opening) State.fallDue_opening, State.elapse_frame]

/-- The frame that waited for the guard's actions is open, and it is their end or later (01 R63). -/
theorem State.finishOpening_opened (s : State) :
    s.finishOpening.now = max s.now s.frame.guardUntil ∧ s.finishOpening.frame.opening = false := by
  have hopen := State.openFrame_touches (s.advanceTo s.frame.guardUntil) (within_refl _) (Touches.refl _ _)
  have hnote : Touches [.tOut] (s.advanceTo s.frame.guardUntil).openFrame s.finishOpening :=
    Touches.forTenants (Touches.refl _ _) fun u t h => State.noteTiming_touches u t 2 (by decide) h
  obtain ⟨-, hopening, -⟩ := hnote.frame
  exact ⟨hnote.now.trans (hopen.now.trans (State.advanceTo_now s _)), hopening.trans (State.openFrame_boundary _).2⟩

/-- GUARD_ACTIONS_COMPLETE leaves no frame waiting. -/
theorem State.completeGuard_opened {s : State} (hheld : s.held = false) :
    s.completeGuard.now = max s.now s.frame.guardUntil ∧ s.completeGuard.frame.opening = false := by
  rw [State.completeGuard, if_neg (by simp [hheld])]
  split
  · exact s.finishOpening_opened
  · rename_i hopening
    exact ⟨State.advanceTo_now s _, (State.passTime_opening s _ _).trans (by simpa using hopening)⟩

/-- The boundary that is due begins the frame of the number carried, else of the next one (01 R26; 15 R578, R579). -/
theorem State.alignedBoundary_begun {s : State} {T : Nat} {number : Option (BitVec 64)} (hheld : s.held = false)
    (hrun : s.frame.run = true) (haligned : s.frame.aligned = some (T, number))
    (h : s.frame.inFrame = true → s.frame.passed = 8 ∧ s.frame.opening = false) :
    Begun (number.getD s.nextNumber) s.frame.alignedSubst (max s.now T) s.alignedBoundary := by
  have hform : s.alignedBoundary = (s.advanceTo T).beginFrame s.frame.alignedSubst number := by
    simp [State.alignedBoundary, haligned, hheld, hrun, State.closeFrame_of_guard h]
  have hbegun := State.beginFrame_begun (s.elapse (T - s.now)) s.frame.alignedSubst number
  rw [State.elapse_to_now, State.nextNumber, State.elapse_frame] at hbegun
  rwa [hform, State.advanceTo_of_nothingDue (State.nothingDue_of_guard (fun hin _ => (h hin).1.ge) _)]

/-- The last frame ends where the next tick would have fallen (01 R25). -/
theorem State.endLastFrame_ended {s : State} (hheld : s.held = false) (hrun : s.frame.run = false) (hin : s.frame.inFrame = true)
    (h : s.frame.inFrame = true → s.frame.passed = 8 ∧ s.frame.opening = false) :
    s.endLastFrame.frame.inFrame = false ∧ s.endLastFrame.frame.number = s.frame.number ∧
      s.endLastFrame.now = max s.now (s.frame.tickAt + s.period) := by
  rw [State.endLastFrame, if_neg (by simp [hheld, hrun, hin]), State.closeFrame_of_guard h]
  extract_lets s1 s2 was s3
  obtain ⟨-, hnumber, -⟩ := (State.advanceTo_touches s1 (s1.frame.tickAt + s1.period) (within_refl _) (Touches.refl _ _)).tick
  have hnow : s3.now = max s.now (s.frame.tickAt + s.period) := State.advanceTo_now s1 _
  split
  · exact ⟨rfl, hnumber, hnow⟩
  · have hturn : Touches _ s3 ((s3.finishSets fun _ => true).turnTenants was) :=
      State.turnTenants_touches _ was (by decide) (State.finishSets_touches s3 _ (within_refl _) (Touches.refl _ _))
    obtain ⟨hin3, hnumber3, -⟩ := hturn.tick
    exact ⟨hin3, hnumber3.trans hnumber, hturn.now.trans hnow⟩

/-- Settles O14: each is the lemma about its operation; time passes to it as `advanceTo_now` says. -/
theorem boundariesAndEndsTakeEffect : Obligations.BoundariesAndEndsTakeEffect := by
  unfold Obligations.BoundariesAndEndsTakeEffect
  intro s hheld
  refine ⟨⟨_, rfl, ?_⟩, fun hout => ⟨_, rfl, ?_⟩, fun hguard => ⟨fun T number hrun haligned => ⟨_, rfl, ?_⟩, fun hrun hin => ⟨_, rfl, ?_⟩⟩⟩
  · simp only [settle_fields]
    obtain ⟨hnow, hopening⟩ := State.completeGuard_opened hheld
    refine ⟨hnow, hopening, fun hopen hdue => ?_⟩
    rw [State.completeGuard, if_neg (by simp [hheld]), if_neg (by simp [hopen]), State.advanceTo_of_nothingDue hdue, State.elapse_frame]
  · have hform : s.ftickOutFall = (s.advanceTo (s.frame.tickAt + 1)).updFrame fun f => { f with ftickOut := false } := by
      simp [State.ftickOutFall, hheld, hout]
    simp only [settle_fields]
    rw [hform]
    have htime := State.advanceTo_touches s (s.frame.tickAt + 1) (within_refl _) (Touches.refl _ _)
    obtain ⟨hin, hnumber, -⟩ := htime.tick
    refine ⟨rfl, State.advanceTo_now s _, hnumber, hin, htime.passed, fun hdue => ?_⟩
    rw [State.advanceTo_of_nothingDue hdue]
    exact congrArg (fun f : Frame => { f with ftickOut := false }) (s.elapse_frame _)
  · obtain ⟨hin, hfresh, hnumber, -, hout, htick⟩ := State.alignedBoundary_begun hheld hrun haligned hguard
    simp only [settle_fields]
    exact ⟨hin, hfresh, hnumber, htick, hout⟩
  · simp only [settle_fields]
    exact State.endLastFrame_ended hheld hrun hin hguard

end Sys2Proof.Machine
end

section
/-! SUPPORT. What the deadlines bring: their turns, the cut by force, the seal, PUBLISH, and the program fault that may follow them (01 R29, R34, R36,
R38, R53; 13 R507). -/
namespace Sys2Proof.Machine
open Sys2Proof
set_option Elab.async false

/-! ### Deadlines pass (01 R29, R36) -/

/-- A deadline passes at its time, and is then the last that has passed. -/
theorem State.passDeadline_passed (s : State) (k : Nat) :
    (s.passDeadline k).frame.passed = k + 1 ∧ (s.passDeadline k).now = max s.now (s.deadlineAt k) ∧
      (s.passDeadline k).frame.inFrame = s.frame.inFrame ∧ (s.passDeadline k).frame.number = s.frame.number := by
  unfold State.passDeadline
  extract_lets s1 s2
  have hnow : s2.now = max s.now (s.deadlineAt k) :=
    (State.advanceTo_now (Machine.settle s) (s.deadlineAt k)).trans (by simp only [settle_fields])
  obtain ⟨hin, hnumber, -⟩ := (State.advanceTo_touches (Machine.settle s) (s.deadlineAt k) (within_refl _) (Touches.refl _ _)).tick
  have hrest : ∀ {l : List Part} {u : State}, Touches l s2 u → ([Part.passed, .now, .tick].all fun p => ! l.contains p) = true →
      u.frame.passed = k + 1 ∧ u.now = max s.now (s.deadlineAt k) ∧ u.frame.inFrame = s.frame.inFrame ∧ u.frame.number = s.frame.number := by
    intro l u h hl
    have hp : ∀ p ∈ [Part.passed, .now, .tick], l.contains p = false := fun p hp => by simpa using List.all_eq_true.mp hl p hp
    obtain ⟨hin', hnumber', -⟩ := h.tick (hp _ (by decide))
    exact ⟨h.passed (hp _ (by decide)), (h.now (hp _ (by decide))).trans hnow, hin'.trans (hin.trans (by simp only [settle_fields])),
      hnumber'.trans (hnumber.trans (by simp only [settle_fields]))⟩
  split
  · split
    · exact hrest (State.endFrame_touches s2 (within_refl _) (Touches.refl _ _)) (by decide)
    · exact hrest (Touches.refl [] s2) (by decide)
  · exact hrest (settle_touches _ (by decide) (State.atDeadline_touches _ k (within_refl _)
      (State.cutPhase_touches s2 k (by decide) (Touches.refl _ _)))) (by decide)

/-- The turn of D_j while deadlines pass in their order. -/
def State.turnDeadline (s : State) (j : Nat) : State := if s.frame.inFrame && s.frame.passed = j then s.passDeadline j else s

theorem State.passUpTo_eq {s : State} (hopening : s.frame.opening = false) (k : Nat) :
    s.passUpTo k = s.forEach (List.range (k + 1)) State.turnDeadline := by
  rw [State.passUpTo]
  simp only [hopening, Bool.false_eq_true, if_false]
  rfl

theorem State.forEach_range_succ (s : State) (n : Nat) (f : State → Nat → State) :
    s.forEach (List.range (n + 1)) f = f (s.forEach (List.range n) f) n := by
  simp only [State.forEach, List.range_succ, List.foldl_append, List.foldl_cons, List.foldl_nil]

/-- D_j passes in its turn, unless it has passed. -/
theorem State.turnDeadline_passed {s : State} {j : Nat} (hin : s.frame.inFrame = true) (hj : j ≤ s.frame.passed) :
    (s.turnDeadline j).frame.passed = max s.frame.passed (j + 1) ∧ (s.turnDeadline j).frame.inFrame = true ∧
      (s.turnDeadline j).frame.number = s.frame.number := by
  unfold State.turnDeadline
  split
  · rename_i hturn
    have hpassed : s.frame.passed = j := by simpa [hin] using hturn
    obtain ⟨hp, -, hin', hnumber⟩ := State.passDeadline_passed s j
    exact ⟨by omega, hin'.trans hin, hnumber⟩
  · rename_i hturn
    have hpassed : s.frame.passed ≠ j := by simpa [hin] using hturn
    exact ⟨by omega, hin, rfl⟩

/-- The deadlines before D_n that have not passed pass in their order. -/
theorem State.turnDeadlines_passed {s : State} (hin : s.frame.inFrame = true) (n : Nat) :
    (s.forEach (List.range n) State.turnDeadline).frame.passed = max s.frame.passed n ∧
      (s.forEach (List.range n) State.turnDeadline).frame.inFrame = true ∧
      (s.forEach (List.range n) State.turnDeadline).frame.number = s.frame.number := by
  induction n with
  | zero => exact ⟨(Nat.max_zero _).symm, hin, rfl⟩
  | succ n ih =>
    obtain ⟨hpassed, hin', hnumber⟩ := ih
    obtain ⟨hp, hi, hn⟩ := State.turnDeadline_passed hin' (hpassed ▸ Nat.le_max_right _ n)
    rw [State.forEach_range_succ]
    exact ⟨by rw [hp, hpassed]; omega, hi, hn.trans hnumber⟩

/-! ### A part cut by force (01 R38) -/

/-- The part of a core that halts is done, and the outcomes and the time stand. -/
theorem State.endPart_halts (s : State) {c : Nat} (hc : c < 48) :
    ((s.endPart c).core c).run = none ∧ (s.endPart c).now = s.now ∧
      ∀ t, (s.tenant t).out.cutForced = true → ((s.endPart c).tenant t).out.cutForced = true := by
  unfold State.endPart
  split
  · rename_i hnone
    exact ⟨hnone, rfl, fun _ h => h⟩
  · rename_i r _
    extract_lets t s1 s2
    have hhalt : (s2.core c).run = none := by
      exact congrArg Core.run (State.core_updCore_self s hc s.haltCore)
    have hout : ∀ k, (s2.tenant k).out = (s.tenant k).out := by
      intro k
      exact (State.updSched_touches s1 t _ (within_refl _) (Touches.refl _ _)).tOut k
    have hfinish : ∀ i a, ((s2.finishTask t i a).core c).run = none ∧ (s2.finishTask t i a).now = s.now ∧
        ∀ k, (s.tenant k).out.cutForced = true → ((s2.finishTask t i a).tenant k).out.cutForced = true := by
      intro i a
      have h := State.finishTask_moves s2 t i a
      exact ⟨(h.run c).elim (fun e => e.trans hhalt) id, h.now, fun k hk => h.forced k (by rw [hout]; exact hk)⟩
    split
    · split
      · exact hfinish _ _
      · exact ⟨hhalt, rfl, fun k hk => by rw [hout]; exact hk⟩
    · exact ⟨hhalt, rfl, fun k hk => by rw [hout]; exact hk⟩

/-- A part cut by force halts, 50 µs after its deadline or later, and its tenant's frame says so (01 R38; 16 R619). -/
theorem State.forceCut_cut {s : State} {c : Nat} {r : Run} (hc : c < 48) (hheld : s.held = false) (hin : s.frame.inFrame = true)
    (hrun : (s.core c).run = some r) (hstop : r.stop = true) (hhold : s.clock.holdSince = none) :
    ((s.forceCut c).core c).run = none ∧ ((s.forceCut c).tenant r.part.tenant).out.cutForced = true ∧
      ∀ T, T = s.deadlineAt (trPhase ((s.tenant r.part.tenant).sched.rec' r.part.task)) →
        (s.forceCut c).now = max s.now (T + 50 + s.heldSince T) := by
  generalize hdue : s.deadlineAt (trPhase ((s.tenant r.part.tenant).sched.rec' r.part.task)) = due
  have hform : s.forceCut c =
      ((s.advanceTo (due + 50 + s.heldSince due)).updOut r.part.tenant fun o => { o with cutForced := true }).endPart c := by
    simp [State.forceCut, hrun, hheld, hstop, hin, hhold, hdue]
  have hend := State.endPart_halts
    ((s.advanceTo (due + 50 + s.heldSince due)).updOut r.part.tenant fun o => { o with cutForced := true }) hc
  rw [← hform] at hend
  obtain ⟨hhalt, hnow, hforced⟩ := hend
  refine ⟨hhalt, hforced _ (by simp), ?_⟩
  rintro T rfl
  exact hnow.trans (State.advanceTo_now s _)

/-! ### A program fault (01 R40, R60; 13 R507) -/

/-- Between two states the register file stays in order and one register reads the same. -/
def KeepsLive (p o : Nat) (s t : State) : Prop := keysRise s.regs → keysRise t.regs ∧ t.live p o = s.live p o

theorem KeepsLive.trans {p o : Nat} {s t u : State} (h : KeepsLive p o s t) (k : KeepsLive p o t u) : KeepsLive p o s u := fun hs => by
  obtain ⟨ht, hlive⟩ := h hs
  obtain ⟨hu, hlive'⟩ := k ht
  exact ⟨hu, hlive'.trans hlive⟩

theorem KeepsLive.of_touches {p o : Nat} {l : List Part} {s t : State} (h : Touches l s t)
    (hl : ([.regs, .chip].all fun q => ! l.contains q) = true := by decide) : KeepsLive p o s t := fun hs => by
  have hp : ∀ q ∈ [Part.regs, .chip], l.contains q = false := fun q hq => by simpa using List.all_eq_true.mp hl q hq
  exact ⟨(h.regs (hp _ (by decide))).symm ▸ hs, h.live p o (hp _ (by decide)) (hp _ (by decide))⟩

theorem KeepsLive.forEach {α : Type} {p o : Nat} {l : List α} {f : State → α → State} (h : ∀ u a, KeepsLive p o u (f u a)) (s : State) :
    KeepsLive p o s (s.forEach l f) := by
  unfold State.forEach
  induction l generalizing s with
  | nil => exact fun hs => ⟨hs, rfl⟩
  | cons a r ih => exact (h s a).trans (ih _)

theorem KeepsLive.setLive (s : State) {p o page off : Nat} (h : regKey p o ≠ regKey page off) (v : Nat) :
    KeepsLive p o s (s.setLive page off v) := fun hs => ⟨keysRise_filePut _ hs _ _ _, State.live_setLive_ne s hs h v⟩

/-- The trace writes no register but its own page's (10 R401). -/
theorem State.trace_keepsLive (s : State) (kind : Nat) (t : Fin 16) (i : TraceInfo) {p o : Nat} (hp : p ≠ 0x11) (ho : o < 4096) :
    KeepsLive p o s (s.trace kind t i) := by
  have hkey : ∀ off, off < 4096 → regKey p o ≠ regKey 0x11 off := fun off hoff => by unfold regKey; omega
  unfold State.trace
  extract_lets ctrl size head tail full addr owner s1 s2
  split
  · exact fun hs => ⟨hs, rfl⟩
  · split
    · exact KeepsLive.setLive s (hkey 0x118 (by decide)) _
    · have hwrite : KeepsLive p o s s1 := .of_touches (State.dramWrite_touches s _ _ (within_refl _) (Touches.refl _ _))
      have hhead : KeepsLive p o s1 s2 := KeepsLive.trans (KeepsLive.setLive s1 (hkey 0x110 (by decide)) _)
        (.of_touches (State.draw_touches _ (within_refl _) (Touches.refl _ _)))
      split
      · exact (hwrite.trans hhead).trans (KeepsLive.setLive s2 (hkey 0x114 (by decide)) _)
      · exact hwrite.trans hhead

/-- Dropping a tenant's work leaves its final selection. -/
theorem State.dropWork_finalResult (s : State) (t : Fin 16) :
    ((s.dropWork t).tenant t).sel.finalResult = (s.tenant t).sel.finalResult := by
  unfold State.dropWork
  extract_lets s1 cores s2 s3 s4
  have hlists : Touches [.cores, .bears, .jays] s s2 :=
    Touches.set_cores_bears_jays s1 _ _ _ (by decide) (State.dropParts_touches s t _ (by decide) (Touches.refl _ _))
  have hengines : Touches [.tSearch, .tSolver] s2 s4 :=
    State.updSolver_touches _ t _ (by decide) (State.updSearch_touches s2 t _ (by decide) (Touches.refl _ _))
  have hsel : (s4.tenant t).sel = (s.tenant t).sel := (hengines.tSel t).trans (hlists.tSel t)
  rw [State.tenant_updSel_self]
  show (s4.tenant t).sel.finalResult = _
  rw [hsel]

/-- An abort takes the tenant's tasks and stops its program; what it tells of its image and its frame stands (10 R399). -/
theorem State.abortTasks_tenant (s : State) (t : Fin 16) (code : Byte) :
    ((s.abortTasks t code).tenant t).sched = { (s.tenant t).sched with
      tasks := [], running := false, abortCode := code, deadEdges := 0, rings := [] } ∧
    ((s.abortTasks t code).tenant t).sel.finalResult = (s.tenant t).sel.finalResult := by
  unfold State.abortTasks
  extract_lets l s1 s2 s3
  have htrace : Touches [.draws, .regs, .dram] s s1 :=
    Touches.forEach (Touches.refl _ _) fun u i h => State.traceTask_touches u 0x0A t i 0x3F 0 code.toNat (by decide) h
  have hwork : Touches _ s1 s2 := State.dropWork_touches s1 t (within_refl _) (Touches.refl _ _)
  have htags : Touches [.cascade] s2 s3 := State.updCascade_touches s2 _ (within_refl _) (Touches.refl _ _)
  have hsched : (s3.tenant t).sched = (s.tenant t).sched := by rw [htags.tSched t, hwork.tSched t, htrace.tSched t]
  have hsel : (s3.tenant t).sel.finalResult = (s.tenant t).sel.finalResult := by
    rw [htags.tSel t, State.dropWork_finalResult, htrace.tSel t]
  rw [State.tenant_updSched_self]
  exact ⟨by rw [hsched], hsel⟩

theorem State.abortTasks_keepsLive (s : State) (t : Fin 16) (code : Byte) {p o : Nat} (hp : p ≠ 0x11) (ho : o < 4096) :
    KeepsLive p o s (s.abortTasks t code) := by
  unfold State.abortTasks
  extract_lets l s1 s2 s3
  have htrace : KeepsLive p o s s1 := KeepsLive.forEach (fun u i => State.trace_keepsLive u _ t _ hp ho) s
  have hrest : Touches [.tSearch, .tSolver, .tSel, .bears, .jays, .cores, .cascade, .tSched] s1
      (s3.updSched t fun d => { d with tasks := [], running := false, abortCode := code, deadEdges := 0, rings := [] }) :=
    State.updSched_touches _ t _ (by decide) (State.updCascade_touches s2 _ (by decide)
      (State.dropWork_touches s1 t (by decide) (Touches.refl _ _)))
  exact htrace.trans (.of_touches hrest)

/-- The verdicts move the note of IMMINENT alone among a tenant's outcomes. -/
theorem State.judgeImminent_aborted (s : State) (t : Fin 16) :
    ((s.judgeImminent t).tenant t).out.aborted = (s.tenant t).out.aborted := by
  unfold State.judgeImminent
  extract_lets n b settled s1
  have hnote : (s1.tenant t).out.aborted = (s.tenant t).out.aborted := by simp [s1]
  split
  · split <;> exact hnote
  · rfl

/-- After the abort a program fault moves SAFE_STATE, the frame's outcome, the tenant's count of faults and attention alone. -/
theorem State.programFault_after_abort (s : State) (t : Fin 16) (code : Byte) :
    Touches [.safe, .tOut, .tState, .attn] (s.abortTasks t code) (s.programFault t code) := by
  have hfail : Touches [.safe, .tOut, .tState, .attn] (s.abortTasks t code) (s.failFrame t code) :=
    State.judgeImminent_touches _ t (by decide) (State.updOut_touches _ t _ (by decide) (Touches.refl _ _))
  have hcount : Touches [.safe, .tOut, .tState, .attn] (s.abortTasks t code)
      ((s.failFrame t code).updTenant t fun n => { n with faults := min 255 (n.faults + 1) }) :=
    Touches.updTenant _ t _ hfail fun p hp => by cases p <;> simp [Part.sameT] at hp ⊢
  exact State.bumpErr_touches _ _ (by decide) (State.raise_touches _ _ _ (by decide) hcount)

theorem State.programFault_tenant (s : State) (t : Fin 16) (code : Byte) : (s.programFault t code).tenant t =
    { (s.failFrame t code).tenant t with faults := min 255 (((s.failFrame t code).tenant t).faults + 1) } := by
  have hattn : (s.programFault t code).tenants =
      ((s.failFrame t code).updTenant t fun n => { n with faults := min 255 (n.faults + 1) }).tenants := rfl
  rw [State.tenant, hattn, ← State.tenant, State.tenant_updTenant_self]

theorem State.failFrame_aborted (s : State) (t : Fin 16) (code : Byte) : ((s.failFrame t code).tenant t).out.aborted = true := by
  rw [State.failFrame, State.judgeImminent_aborted, State.tenant_updOut_self]

theorem State.failFrame_faults (s : State) (t : Fin 16) (code : Byte) :
    ((s.failFrame t code).tenant t).faults = (s.tenant t).faults := by
  obtain ⟨-, -, -, -, -, -, hfaults, -⟩ := (State.failFrame_touches s t code (within_refl _) (Touches.refl _ _)).tState t
  exact hfaults

/-- What a program fault leaves of its tenant: no task and a stopped program, a frame marked aborted, and the fault counted; its image,
its table, its final selection and its world stand (13 R507). -/
structure Faulted (code : Byte) (t : Fin 16) (s u : State) : Prop where
  sched : (u.tenant t).sched = { (s.tenant t).sched with tasks := [], running := false, abortCode := code, deadEdges := 0, rings := [] }
  aborted : (u.tenant t).out.aborted = true
  faults : (u.tenant t).faults = min 255 ((s.tenant t).faults + 1)
  finalResult : (u.tenant t).sel.finalResult = (s.tenant t).sel.finalResult
  table : (u.tenant t).table = (s.tenant t).table
  world : ∀ k, (u.tenant k).world = (s.tenant k).world
  live : ∀ {p o : Nat}, p ≠ 0x11 → o < 4096 → KeepsLive p o s u

theorem State.programFault_faulted (s : State) (t : Fin 16) (code : Byte) : Faulted code t s (s.programFault t code) := by
  have htouch := State.programFault_touches s t code (within_refl _) (Touches.refl _ _)
  have htail := State.programFault_after_abort s t code
  obtain ⟨hsched, hfinal⟩ := State.abortTasks_tenant s t code
  constructor
  case sched => rw [htail.tSched t, hsched]
  case aborted => simp only [State.programFault_tenant, State.failFrame_aborted]
  case faults => simp only [State.programFault_tenant, State.failFrame_faults]
  case finalResult => rw [htail.tSel t, hfinal]
  case table => exact htouch.tTable t
  case world => exact htouch.tWorld
  case live => exact fun hp ho => (State.abortTasks_keepsLive s t code hp ho).trans (.of_touches htail)

/-! ### The seal (01 R34; 03 R119, R128; 08 R322) -/

/-- The program in the active slot needs a SHAPE and has none (08 R322). -/
def Sched.lacksShape (d : Sched) : Bool :=
  match d.image with
  | some p => p.dims ≠ 0 && d.shape.isNone
  | none => false

/-- The view that the seal fixes for a tenant's frame (01 R34). -/
def State.sealedView (s : State) (t : Fin 16) : Sealed :=
  (s.tenant t).world.sealed (((s.tenant t).world.jobs.filter fun j => j.stamp.frame ≤ s.frame.seq).flatMap (·.records)) (s.unfetched t)

/-- A tenant's world has just been sealed: its view is fixed, its scrolls are taken up and latched, and other worlds stand. -/
structure WorldSealed (t : Fin 16) (s u : State) : Prop where
  world : (u.tenant t).world = { (s.tenant t).world with
    view := some (s.sealedView t), scrollX := 0, scrollY := 0, cntDyn := 0, cntStat := 0 }
  others : ∀ k, k ≠ t → (u.tenant k).world = (s.tenant k).world
  sched : (u.tenant t).sched = (s.tenant t).sched
  faults : (u.tenant t).faults = (s.tenant t).faults
  scroll : u.live 0x06 (0x208 + 0x20 * t.val) =
    toField 8 (s.tenant t).world.scrollX + toField 8 (s.tenant t).world.scrollY * 2 ^ 8

theorem toField_lt (w : Nat) (x : Int) : toField w x < 2 ^ w := by
  unfold toField
  have h := Int.emod_lt_of_pos x (show (0 : Int) < ((2 ^ w : Nat) : Int) by exact_mod_cast Nat.two_pow_pos w)
  have h0 := Int.emod_nonneg x (show ((2 ^ w : Nat) : Int) ≠ 0 by exact_mod_cast (Nat.two_pow_pos w).ne')
  omega

/-- A seal fixes the world, and where the running program lacks its SHAPE the fault follows. -/
theorem State.sealWorld_sealed {s : State} (hregs : keysRise s.regs) (t : Fin 16) : ∃ u, WorldSealed t s u ∧
    s.sealWorld t = if (s.tenant t).sched.running && (s.tenant t).sched.lacksShape then u.programFault t codeNoBucket else u := by
  unfold State.sealWorld
  extract_lets n w due v base collapsed s1 s2 s3 s4 s5 noShape
  have hlatch : Touches [.regs, .tWorld, .tTable] s s3 :=
    State.setLive_touches _ _ _ _ (by decide) (State.setLive_touches _ _ _ _ (by decide)
      (State.setLive_touches _ _ _ _ (by decide) (Touches.refl _ _)))
  have hfix : ∀ {L : List Part} {s0 : State}, Within [.tWorld, .tTable] L → Touches L s0 s3 → Touches L s0 s5 := fun hL h =>
    Touches.step (State.updTable_touches _ t _ (by decide) (State.updWorld_touches _ t _ (by decide) (Touches.refl _ _))) hL h
  have hworld : ∀ k, (s3.tenant k).world = (s.tenant k).world := (State.setLive_touches s2 _ _ _ (within_refl [.regs])
    (State.setLive_touches s1 _ _ _ (by decide) (State.setLive_touches s _ _ _ (by decide) (Touches.refl _ _)))).tWorld
  have htable : Touches [.tTable] s4 s5 := State.updTable_touches _ t _ (within_refl _) (Touches.refl _ _)
  refine ⟨s5, ?_, rfl⟩
  constructor
  case world =>
    rw [htable.tWorld t]
    simp only [s4, State.tenant_updWorld_self]
    rw [hworld t]
    rfl
  case others =>
    intro k hk
    rw [htable.tWorld k]
    simp only [s4, State.tenant_updWorld_ne _ (Ne.symm hk)]
    exact hworld k
  case sched => exact (hfix (by decide) hlatch).tSched t
  case faults =>
    obtain ⟨-, -, -, -, -, -, hfaults, -⟩ := (hfix (by decide) hlatch).tState t
    exact hfaults
  case scroll =>
    have hkey : ∀ off, off = 0x0C ∨ off = 0x10 → regKey 0x06 (base + 0x08) ≠ regKey 0x06 (base + off) := by
      rintro off (rfl | rfl) <;> unfold regKey <;> omega
    have hregs1 : keysRise s1.regs := keysRise_filePut _ hregs _ _ _
    have hregs2 : keysRise s2.regs := keysRise_filePut _ hregs1 _ _ _
    have hfit : toField 8 w.scrollX + toField 8 w.scrollY * 2 ^ 8 < 2 ^ 32 := by
      have hx := toField_lt 8 w.scrollX
      have hy := toField_lt 8 w.scrollY
      omega
    have hbase : 0x208 + 0x20 * t.val = base + 0x08 := by omega
    calc s5.live 0x06 (0x208 + 0x20 * t.val)
        = s3.live 0x06 (base + 0x08) := by
          rw [hbase]
          exact (hfix (within_refl _) (Touches.refl _ _)).live _ _
      _ = s2.live 0x06 (base + 0x08) := State.live_setLive_ne s2 hregs2 (hkey 0x10 (.inr rfl)) _
      _ = s1.live 0x06 (base + 0x08) := State.live_setLive_ne s1 hregs1 (hkey 0x0C (.inl rfl)) _
      _ = toField 8 w.scrollX + toField 8 w.scrollY * 2 ^ 8 := by
        rw [show s1.live 0x06 (base + 0x08) = _ from State.live_setLive_self s _ _ _, Nat.mod_eq_of_lt hfit]

/-- The seal, with the fault that follows it where the running program lacks its SHAPE (01 R34; 08 R322). -/
theorem State.sealWorld_effect {s : State} (hregs : keysRise s.regs) (t : Fin 16) :
    ((s.sealWorld t).tenant t).world =
      { (s.tenant t).world with view := some (s.sealedView t), scrollX := 0, scrollY := 0, cntDyn := 0, cntStat := 0 } ∧
    (∀ k, k ≠ t → ((s.sealWorld t).tenant k).world = (s.tenant k).world) ∧
    ((s.tenant t).sched.running = false ∨ (s.tenant t).sched.lacksShape = false →
      ((s.sealWorld t).tenant t).sched.tasks = (s.tenant t).sched.tasks ∧ ((s.sealWorld t).tenant t).faults = (s.tenant t).faults ∧
      (s.sealWorld t).live 0x06 (0x208 + 0x20 * t.val) =
        toField 8 (s.tenant t).world.scrollX + toField 8 (s.tenant t).world.scrollY * 2 ^ 8) ∧
    ((s.tenant t).sched.running = true → (s.tenant t).sched.lacksShape = true →
      ((s.sealWorld t).tenant t).sched.tasks = [] ∧ ((s.sealWorld t).tenant t).sched.running = false ∧
      ((s.sealWorld t).tenant t).sched.abortCode = codeNoBucket ∧ ((s.sealWorld t).tenant t).out.aborted = true ∧
      ((s.sealWorld t).tenant t).faults = min 255 ((s.tenant t).faults + 1)) := by
  obtain ⟨u, ⟨hworld, hothers, hsched, hfaults, hscroll⟩, hform⟩ := State.sealWorld_sealed hregs t
  cases hlacks : ((s.tenant t).sched.running && (s.tenant t).sched.lacksShape) with
  | false =>
    rw [hlacks, if_neg Bool.false_ne_true] at hform
    rw [hform]
    have hnot : ¬ ((s.tenant t).sched.running = true ∧ (s.tenant t).sched.lacksShape = true) := by
      rw [← Bool.and_eq_true, hlacks]
      exact Bool.false_ne_true
    exact ⟨hworld, hothers, fun _ => ⟨by rw [hsched], hfaults, hscroll⟩, fun hrun hshape => absurd ⟨hrun, hshape⟩ hnot⟩
  | true =>
    rw [hlacks, if_pos rfl] at hform
    rw [hform]
    obtain ⟨hrun, hshape⟩ := Bool.and_eq_true_iff.mp hlacks
    have hfault := State.programFault_faulted u t codeNoBucket
    refine ⟨(hfault.world t).trans hworld, fun k hk => (hfault.world k).trans (hothers k hk), fun hquiet => ?_, fun _ _ => ?_⟩
    · simp [hrun, hshape] at hquiet
    · rw [hfault.sched, hfault.faults, hfaults]
      exact ⟨rfl, rfl, rfl, hfault.aborted, rfl⟩

/-! ### PUBLISH (01 R43, R46, R53) -/

/-- What PUBLISH decides of a frame without a program (01 R43). -/
theorem State.decision_noProgram {s : State} {t : Fin 16} (h : (s.tenant t).hasProgram = false) : s.decision t = ⟨codeOk, 0, none⟩ := by
  simp [State.decision, h]

/-- What PUBLISH decides where a plan is selected (01 R53). -/
theorem State.decision_selected {s : State} {t : Fin 16} {i : Nat} (h : (s.tenant t).hasProgram = true) (hi : s.selected t = some i) :
    s.decision t = ⟨if (s.tenant t).out.cutMap = 0 then codeOk else codePhaseCut, 0, some i⟩ := by
  simp [State.decision, h, hi]

/-- The stop that PUBLISH takes where no plan is selected (01 R46, R53). -/
theorem State.decision_stop {s : State} {t : Fin 16} (h : (s.tenant t).hasProgram = true) (hnone : s.selected t = none) :
    (s.decision t).plan = some (if s.hedgehogClear t then 0 else 1) ∧
    (s.decision t).result =
      if s.hedgehogClear t = false ∧ (s.tenant t).table.verdict 1 ≠ 1 then codeImminent
      else if (s.tenant t).out.aborted = true ∧ (s.tenant t).sel.finalResult = none then codeFallback
      else if (s.tenant t).sel.finalResult.isSome = true ∧ (s.tenant t).search.exhausted = true ∧
        (s.tenant t).table.noneClear = true then codeNoPathProven
      else codeNoPathInTime := by
  cases hclear : s.hedgehogClear t <;> simp [State.decision, h, hnone, hclear, and_assoc]

theorem State.readPlan_of_none {s : State} {t : Fin 16} (h : s.selected t = none) : s.readPlan t = s := by
  simp [State.readPlan, h]

theorem State.readPlan_of_clean {s : State} {t : Fin 16} {i : Nat} (h : s.selected t = some i) (hclean : s.candPoisoned t i = false) :
    s.readPlan t = s := by
  simp [State.readPlan, h, hclean]

/-- The read of a poisoned plan is a program fault, and the plan is not selected any more (19 R729; log 60). -/
theorem State.readPlan_of_poisoned {s : State} {t : Fin 16} {i : Nat} (h : s.selected t = some i) (hpoison : s.candPoisoned t i = true) :
    Faulted codeMemoryUe t (s.updSel t fun v => { v with finalResult := none }) (s.readPlan t) := by
  have hform : s.readPlan t = (s.updSel t fun v => { v with finalResult := none }).programFault t codeMemoryUe := by
    simp [State.readPlan, h, hpoison]
  rw [hform]
  exact State.programFault_faulted _ t codeMemoryUe

/-- Where a tenant's frame is to be decided, PUBLISH reads the selected plan and fixes its decision (01 R53). -/
theorem State.publish_eq {s : State} {t : Fin 16} (hheld : s.held = false) (hfault : s.inFault = false) (hlive : (s.tenant t).live = true)
    (hin : s.frame.inFrame = true) (hpassed : s.frame.passed = 7) (hfixed : (s.tenant t).out.fixed = false) :
    s.publish t = (s.readPlan t).updOut t fun o =>
      { o with fixed := true, result := ((s.readPlan t).decision t).result, planId := ((s.readPlan t).decision t).plan } := by
  simp [State.publish, hheld, hfault, hlive, hin, hpassed, hfixed]

/-- The fault of a poisoned plan leaves the program in force, no plan selected, and the Hedgehog's verdict (01 R46; log 60). -/
theorem State.readPlan_poisoned_decides {s : State} {t : Fin 16} {i : Nat} (hregs : keysRise s.regs) (h : s.selected t = some i)
    (hpoison : s.candPoisoned t i = true) : ((s.readPlan t).tenant t).hasProgram = (s.tenant t).hasProgram ∧
      (s.readPlan t).selected t = none ∧ (s.readPlan t).hedgehogClear t = s.hedgehogClear t := by
  obtain ⟨hsched, -, -, hfinal, htable, -, hkeeps⟩ := State.readPlan_of_poisoned h hpoison
  obtain ⟨-, hlease⟩ := hkeeps (p := tenantPage t) (o := 0x128) (by unfold tenantPage; omega) (by decide) hregs
  have hprogram : ((s.readPlan t).tenant t).hasProgram = (s.tenant t).hasProgram := by
    simp [Tenant.hasProgram, hsched]
  have hselected : (s.readPlan t).selected t = none := by
    simp [State.selected, hfinal]
  have hbase : (s.readPlan t).candBase t = s.candBase t := by
    rw [State.candBase, State.lease, hlease]
    rfl
  have hhedgehog : (s.readPlan t).hedgehogClear t = s.hedgehogClear t := by
    simp [State.hedgehogClear, hbase, htable]
  exact ⟨hprogram, hselected, hhedgehog⟩

/-- The read of a plan leaves the program in force. -/
theorem State.readPlan_hasProgram {s : State} (hregs : keysRise s.regs) (t : Fin 16) :
    ((s.readPlan t).tenant t).hasProgram = (s.tenant t).hasProgram := by
  cases hi : s.selected t with
  | none => rw [State.readPlan_of_none hi]
  | some i =>
    cases hpoison : s.candPoisoned t i with
    | false => rw [State.readPlan_of_clean hi hpoison]
    | true =>
      obtain ⟨hkept, -⟩ := State.readPlan_poisoned_decides hregs hi hpoison
      exact hkept

/-! ### Deadlines, cuts, seals and decisions together -/

/-- PHASE_DEADLINE of a deadline that has not passed (01 R29, R36). -/
theorem State.reachDeadline_passed {s : State} {k : Nat} (hheld : s.held = false) (hin : s.frame.inFrame = true)
    (hopening : s.frame.opening = false) (hk : s.frame.passed ≤ k) :
    (s.reachDeadline k).frame.passed = k + 1 ∧ s.now ≤ (s.reachDeadline k).now ∧ (s.reachDeadline k).frame.number = s.frame.number ∧
      (s.frame.passed = k → (s.reachDeadline k).now = max s.now (s.deadlineAt k)) := by
  have hform : s.reachDeadline k = s.forEach (List.range (k + 1)) State.turnDeadline := by
    rw [State.reachDeadline, if_neg (by simp [hheld, hin, hk]), State.passUpTo_eq hopening]
  obtain ⟨hpassed, -, hnumber⟩ := State.turnDeadlines_passed hin (k + 1)
  refine ⟨by rw [hform, hpassed]; omega, (State.reachDeadline_steady s k).now, by rw [hform, hnumber], fun hnext => ?_⟩
  have hbefore : s.forEach (List.range k) State.turnDeadline = s := State.forEach_of_fixed fun j hj => by
    have hj' := List.mem_range.mp hj
    rw [State.turnDeadline, if_neg (by simp [hnext]; omega)]
  have hturn : s.turnDeadline k = s.passDeadline k := by simp [State.turnDeadline, hin, hnext]
  obtain ⟨-, hnow, -⟩ := State.passDeadline_passed s k
  rw [hform, State.forEach_range_succ, hbefore, hturn, hnow]

/-- Settles O16: the deadlines by their turns, the cut part by what time and the end of a part leave of a core, the seal and PUBLISH by
what they fix, with the program fault that may follow each. -/
theorem deadlinesSealsAndDecisionsTakeEffect : Obligations.DeadlinesSealsAndDecisionsTakeEffect := by
  unfold Obligations.DeadlinesSealsAndDecisionsTakeEffect
  intro s hinv hheld
  refine ⟨fun k hin hopening => ⟨fun hk => ⟨_, rfl, ?_⟩, fun hk => ?_⟩, fun c r hin hrun hstop hhold => ⟨_, rfl, ?_⟩,
    fun t hhalted hdue => ?_, fun t hfault hlive hin hpassed hfixed => ⟨_, rfl, ?_⟩⟩
  · simp only [settle_fields]
    exact State.reachDeadline_passed hheld hin hopening hk
  · exact congrArg done (if_pos (by simp [hk]))
  · simp only [settle_fields, settle_reads, settle_tenant_fields]
    exact State.forceCut_cut c.isLt hheld hin hrun hstop hhold
  · have hseal : exec (.worldSeal t) s = done (s.sealWorld t) := congrArg done (if_pos (by simp [hheld, hhalted, hdue]))
    obtain ⟨hworld, hothers, hquiet, hfault⟩ := State.sealWorld_effect hinv.regs t
    refine ⟨_, hseal, ?_⟩
    simp only [settle_tenant_fields, settle_sched_fields, settle_reads]
    refine ⟨hworld, hothers, fun noShape hnoShape => ?_⟩
    have hshape : noShape = (s.tenant t).sched.lacksShape := hnoShape
    rw [hshape]
    exact ⟨hquiet, hfault⟩
  · simp only [settle_tenant_fields, settle_sched_fields]
    rw [State.publish_eq hheld hfault hlive hin hpassed hfixed]
    simp only [State.tenant_updOut_self]
    refine ⟨trivial, fun hnone => ?_, fun hprogram i hi hclean => ?_, fun hprogram hnone => ?_, fun i hi hpoison => ?_⟩
    · rw [State.decision_noProgram ((State.readPlan_hasProgram hinv.regs t).trans hnone)]
      exact ⟨rfl, rfl⟩
    · rw [State.readPlan_of_clean hi hclean, State.decision_selected hprogram hi]
      exact ⟨rfl, rfl⟩
    · rw [State.readPlan_of_none hnone]
      exact State.decision_stop hprogram hnone
    · obtain ⟨hsched, haborted, hfaults, hfinal, -⟩ := State.readPlan_of_poisoned hi hpoison
      obtain ⟨hkept, hnone, hhedgehog⟩ := State.readPlan_poisoned_decides hinv.regs hi hpoison
      refine ⟨by simp [hfinal], haborted, by simp [hsched], by simp [hfaults], fun hprogram => ?_⟩
      obtain ⟨hplan, -⟩ := State.decision_stop (hkept.trans hprogram) hnone
      rw [hplan, hhedgehog]

end Sys2Proof.Machine
end

section
/-! SUPPORT. The world store (03): what a completed command, a judged stream, an applied record and a rasterised agent leave of it. -/
namespace Sys2Proof.Machine
open Sys2Proof

/-! ### What settling and an update of the world leave -/

theorem settle_world (s : State) (t : Fin 16) : ((settle s).tenant t).world = (s.tenant t).world := by
  simp only [settle_tenant_fields]

theorem State.updWorld_queue (s : State) (t : Fin 16) (q : Fin 8) (f : World → World) :
    (s.updWorld t f).queue t q = s.queue t q := by
  simp only [State.queue, State.tenant_updWorld_self]

/-! ### Completions -/

theorem Touches.queue {l : List Part} {s v : State} (h : Touches l s v) (t : Fin 16) (q : Fin 8)
    (hp : l.contains .tQueues = false := by decide) : v.queue t q = s.queue t q := by
  rw [State.queue, (h.tQueues t hp).1, ← State.queue]

section
variable {s u v : State} {t : Fin 16} {c : Cmd} {code : Byte} {detail : BitVec 160}

theorem State.completeCmd_completes (hlive : (s.queue t c.q).dying = false) :
    Completes s (s.completeCmd t c code detail) t c code detail := by
  have hqueue : (s.tenant t).queues.at' c.q = s.queue t c.q := rfl
  simp [Completes, State.completeCmd, hqueue, hlive]

theorem State.completeCmd_world : ((s.completeCmd t c code detail).tenant t).world = (s.tenant t).world :=
  (State.completeCmd_touches s t c code detail (within_refl _) (Touches.refl _ _)).tWorld t

theorem Completes.settled (h : Completes s u t c code detail) : Completes s (settle u) t c code detail := by
  simpa [Completes] using h

/-- A completion counts from any earlier state with the same queues and commands. -/
theorem Completes.of_touches {l : List Part} (hbefore : Touches l s v) (h : Completes v u t c code detail)
    (hq : l.contains .tQueues = false := by decide) (hc : l.contains .tCmds = false := by decide) :
    Completes s u t c code detail := by
  rwa [Completes, ← hbefore.queue t c.q hq, ← hbefore.tCmds t hc]

end

/-! ### INGEST (03 R111 to R115) -/

section
variable {s : State} {t : Fin 16} {tag : Nat} {buf d : List Byte} {c : Cmd} (hheld : s.held = false)
  (hcmd : s.cmdFor t tag 1 = some c) (hworld : s.hasWorld t = true) (hdata : s.cmdData c buf = some d)
include hheld hcmd hworld hdata

theorem State.ingest_of_error {code : Byte} {off : Nat} (h : checkStream d = .error (code, off)) :
    s.ingest t tag buf = s.refuseCmd t c code off true := by
  simp [State.ingest, hcmd, hheld, hworld, hdata, h]

theorem State.ingest_of_empty (h : checkStream d = .ok []) :
    s.ingest t tag buf = (s.noteInput t c.stamp.frame c.stamp.order 1 d).completeCmd t c codeOk 0 := by
  simp [State.ingest, hcmd, hheld, hworld, hdata, h]

theorem State.ingest_of_records {r : Record} {rs : List Record} (h : checkStream d = .ok (r :: rs)) :
    s.ingest t tag buf = ((s.noteInput t c.stamp.frame c.stamp.order 1 d).holdCmd t c []).updWorld t fun w =>
      { w with jobs := insertJob ⟨tag, c.stamp, r :: rs⟩ w.jobs } := by
  simp [State.ingest, hcmd, hheld, hworld, hdata, h]

end

theorem State.holdCmd_waiting (s : State) (t : Fin 16) (c : Cmd) (data : List Byte) :
    ∀ e ∈ ((s.holdCmd t c data).tenant t).cmds, e.tag = c.tag → e.waiting = true := by
  intro e he htag
  simp only [State.holdCmd, State.tenant_updTenant_self, List.mem_map] at he
  obtain ⟨d, -, rfl⟩ := he
  split at htag
  next hsame => rw [if_pos hsame]
  next hother => exact absurd htag hother

theorem State.noteInput_holdCmd_touches (s : State) (t : Fin 16) (c : Cmd) (frame order op : Nat) (d data : List Byte) :
    Touches [.tSpoor, .tCmds] s ((s.noteInput t frame order op d).holdCmd t c data) :=
  State.holdCmd_touches _ t c data (by decide) (State.noteInput_touches s t frame order op d (by decide) (Touches.refl _ _))

/-- Settles O25: one of the three ends of `State.ingest`, by what the check of the stream answers. -/
theorem ingestJudgesTheStreamWhole : Obligations.IngestJudgesTheStreamWhole := by
  unfold Obligations.IngestJudgesTheStreamWhole
  intro s t tag buf c d hheld hlive hcmd hworld hdata
  refine ⟨settle (s.ingest t tag buf), rfl, fun code off herror => ?_, fun hempty => ?_, fun r rs hrecords => ?_⟩
  · rw [State.ingest_of_error hheld hcmd hworld hdata herror, settle_world]
    exact ⟨State.completeCmd_world, (State.completeCmd_completes hlive).settled⟩
  · have hnote : Touches [.tSpoor] s (s.noteInput t c.stamp.frame c.stamp.order 1 d) :=
      State.noteInput_touches s t c.stamp.frame c.stamp.order 1 d (within_refl _) (Touches.refl _ _)
    have hlive' : ((s.noteInput t c.stamp.frame c.stamp.order 1 d).queue t c.q).dying = false := by rwa [hnote.queue]
    rw [State.ingest_of_empty hheld hcmd hworld hdata hempty, settle_world]
    exact ⟨State.completeCmd_world.trans (hnote.tWorld t),
      (Completes.of_touches hnote (State.completeCmd_completes hlive')).settled⟩
  · have hhold := State.noteInput_holdCmd_touches s t c c.stamp.frame c.stamp.order 1 d []
    rw [State.ingest_of_records hheld hcmd hworld hdata hrecords, settle_world, settle_queue]
    simp only [settle_tenant_fields, State.tenant_updWorld_self]
    refine ⟨by rw [hhold.tWorld t], ?_, State.holdCmd_waiting _ t c []⟩
    exact congrArg Queue.comps ((State.updWorld_queue _ t c.q _).trans (hhold.queue t c.q))

/-! ### Records (03 R115 to R118, R124) -/

/-- A record leaves its job and its tenant's world stands otherwise. -/
theorem State.popRecord_world (s : State) (t : Fin 16) : ((s.popRecord t).tenant t).world =
    { (s.tenant t).world with jobs := jobsAfter (s.tenant t).world.jobs } := by
  unfold State.popRecord
  split
  next hjobs => rw [hjobs, jobsAfter, ← hjobs]
  next j r hjobs =>
    rw [hjobs]
    split
    next hrecords => simp [jobsAfter, hrecords]
    next hlast =>
      have htail : j.records.tail = [] := by
        match hrec : j.records with
        | [] | [_] => rfl
        | y :: x :: l => exact absurd hrec (hlast y x l)
      dsimp only
      split
      · simp [State.completeCmd_world, jobsAfter, htail]
      · simp [jobsAfter, htail]

/-- What a record does to the world, with the record gone from its job. -/
theorem settle_popRecord_world (s : State) (t : Fin 16) (f : World → World) :
    ((settle ((s.updWorld t f).popRecord t)).tenant t).world =
      { f (s.tenant t).world with jobs := jobsAfter (f (s.tenant t).world).jobs } := by
  rw [settle_world, State.popRecord_world, State.tenant_updWorld_self]

/-! ### Static tiles (03 R103, R117) -/

/-- Every tile of a list changed in turn. -/
def World.changeTiles (w : World) (l : List Nat) (f : Tile → Tile) : World :=
  l.foldl (fun w i => w.setTile i (f (w.tile i))) w

theorem World.setTile_jobs (w : World) (i : Nat) (x : Tile) : (w.setTile i x).jobs = w.jobs := rfl

theorem World.changeTiles_jobs (w : World) (l : List Nat) (f : Tile → Tile) : (w.changeTiles l f).jobs = w.jobs := by
  unfold World.changeTiles
  induction l generalizing w with
  | nil => rfl
  | cons i l ih => exact ih _

theorem World.applyUniform_jobs (w : World) (l : List Nat) (v : Voxel) : (w.applyUniform l v).jobs = w.jobs :=
  w.changeTiles_jobs l fun x => { x with body := .uniform v }

theorem World.applyRegion_jobs (w : World) (l : List Nat) (k : BitVec 3) : (w.applyRegion l k).jobs = w.jobs :=
  w.changeTiles_jobs l fun x => { x with cls := k }

section
variable {w : World} (hw : keysRise w.stat)
include hw

theorem World.keysRise_setTile (i : Nat) (x : Tile) : keysRise (w.setTile i x).stat := keysRise_mset hw i x

theorem World.tile_setTile (i j : Nat) (x : Tile) : (w.setTile i x).tile j = if j = i then x else w.tile j := by
  split
  next h => rw [h]; exact mget_mset_self _ hw i x
  next h => exact mget_mset_ne _ hw h x

/-- A change that makes no difference when repeated reaches every tile of the list, however often listed, and no other. -/
theorem World.tile_changeTiles {f : Tile → Tile} (hf : ∀ x, f (f x) = f x) (l : List Nat) (j : Nat) :
    (w.changeTiles l f).tile j = if j ∈ l then f (w.tile j) else w.tile j := by
  unfold World.changeTiles
  induction l generalizing w with
  | nil => simp
  | cons i l ih =>
    rw [List.foldl_cons, ih (World.keysRise_setTile hw i _), World.tile_setTile hw]
    by_cases hj : j = i
    · simp [hj, hf]
    · simp [hj]

theorem World.tile_applyUniform (l : List Nat) (v : Voxel) (j : Nat) :
    (w.applyUniform l v).tile j = if j ∈ l then { w.tile j with body := .uniform v } else w.tile j :=
  World.tile_changeTiles hw (f := fun x => { x with body := .uniform v }) (fun _ => rfl) l j

theorem World.tile_applyRegion (l : List Nat) (k : BitVec 3) (j : Nat) :
    (w.applyRegion l k).tile j = if j ∈ l then { w.tile j with cls := k } else w.tile j :=
  World.tile_changeTiles hw (f := fun x => { x with cls := k }) (fun _ => rfl) l j

end

theorem World.collapse_jobs (w : World) (x : Option Nat × Nat) : (w.collapse x).jobs = w.jobs := by
  unfold World.collapse; split <;> rfl

theorem World.storeStatic_jobs (w : World) (share i : Nat) (b : TileBody) : (w.storeStatic share i b).jobs = w.jobs := by
  unfold World.storeStatic
  simp only [apply_ite World.jobs, World.setTile_jobs, World.collapse_jobs, ite_self]

/-- A body that needs no storage, or finds some left, stands in its tile (03 R117, R126). -/
theorem World.storeStatic_tile {w : World} (hw : keysRise w.stat) {share i : Nat} {b : TileBody}
    (hroom : b.isMixed = false ∨ (w.setTile i { w.tile i with body := .uniform .free }).mixedList.length < share) :
    (w.storeStatic share i b).tile i = { w.tile i with body := b } := by
  cases hb : b.isMixed with
  | false => simp [World.storeStatic, hb, World.tile_setTile hw]
  | true =>
    have hless := hroom.resolve_left (by simp [hb])
    simp [World.storeStatic, hb, hless, World.tile_setTile hw, World.tile_setTile (World.keysRise_setTile hw i _)]

/-! ### AGENT_RASTERISE (03 R123, R124) -/

theorem World.mem_marked_rasterise (w : World) (share sliceMs sliceCount ix : Nat) (a : Agent) :
    ix ∈ (w.rasterise share sliceMs sliceCount ix a).marked := mem_sinsert.mpr (.inl rfl)

/-- Settles O26: each record is applied to the world by its own function and leaves its job. -/
theorem recordsChangeTheWorldInOrder : Obligations.RecordsChangeTheWorldInOrder := by
  unfold Obligations.RecordsChangeTheWorldInOrder
  intro s t hcanon
  have htiles := hcanon.tiles t
  refine ⟨fun x0 y0 x1 y1 v hnext => ?_, fun x0 y0 x1 y1 k hnext => ?_, fun dx dy hnext => ?_, fun l hnext => ?_,
    fun tx ty d hnext => ?_, fun i a hfind hagent hheld hhalted hview => ?_⟩
  · refine ⟨settle (s.applyUniformTiles t), rfl, ?_⟩
    simp only [State.applyUniformTiles, hnext, settle_popRecord_world]
    exact ⟨congrArg jobsAfter (World.applyUniform_jobs _ _ _), World.tile_applyUniform htiles _ _⟩
  · refine ⟨settle (s.applyRegion t), rfl, ?_⟩
    simp only [State.applyRegion, hnext, settle_popRecord_world]
    exact ⟨congrArg jobsAfter (World.applyRegion_jobs _ _ _), World.tile_applyRegion htiles _ _⟩
  · refine ⟨settle (s.applyScroll t), rfl, ?_⟩
    simp only [State.applyScroll, hnext, settle_popRecord_world]
    exact ⟨rfl, rfl, rfl, rfl⟩
  · refine ⟨settle (s.applyAgentList t), rfl, ?_⟩
    simp only [State.applyAgentList, hnext, settle_popRecord_world]
  · refine ⟨settle (s.applyMixedTile t), rfl, ?_⟩
    simp only [State.applyMixedTile, hnext, settle_popRecord_world]
    exact ⟨congrArg jobsAfter (World.storeStatic_jobs _ _ _ _), World.storeStatic_tile htiles⟩
  · refine ⟨settle (s.rasteriseAgent t), rfl, ?_⟩
    simp only [settle_tenant_fields, State.rasteriseAgent, hfind, hagent, hheld, hhalted, hview]
    simpa using World.mem_marked_rasterise _ _ _ _ i a

end Sys2Proof.Machine
end

section
/-! SUPPORT. The commands that complete at acceptance: NOP, ACTIVATE, LOAD_MODEL and LOAD_LATTICE (04 R153 to R155; 06 R236; 11 R426
to R440). -/
namespace Sys2Proof.Machine
open Sys2Proof

section
variable {l : List Part} {s v : State} {t : Fin 16} {c : Cmd} {code : Byte} {detail : BitVec 160}

/-- A command completes after changes that leave the queues and the commands alone. -/
theorem Completes.after (h : Touches l s v) (hlive : (s.queue t c.q).dying = false)
    (hq : l.contains .tQueues = false := by decide) (hc : l.contains .tCmds = false := by decide) :
    Completes s (settle (v.completeCmd t c code detail)) t c code detail :=
  (Completes.of_touches h (State.completeCmd_completes (by rwa [h.queue t c.q hq])) hq hc).settled

/-- A command completes with nothing changed before it. -/
theorem Completes.atOnce (hlive : (s.queue t c.q).dying = false) :
    Completes s (settle (s.completeCmd t c code detail)) t c code detail :=
  (State.completeCmd_completes hlive).settled

end

/-- A completion changes of its tenant at most its queues and its commands. -/
theorem State.completeCmd_own (s : State) (t : Fin 16) (c : Cmd) (code : Byte) (detail : BitVec 160) :
    Touches [.regs, .shadow, .dirty, .attn, .tQueues, .tCmds] s (s.completeCmd t c code detail) :=
  State.completeCmd_touches s t c code detail (within_refl _) (Touches.refl _ _)

/-! ### What each command does (04 R153 to R155; 06 R236; 10 R394; 11 R428) -/

section
variable {s : State} {t : Fin 16} {tag : Nat} {buf d : List Byte} {c : Cmd} (hheld : s.held = false)
include hheld

theorem State.nopCmd_eq (hcmd : s.cmdFor t tag 0x0A = some c) : s.nopCmd t tag = s.completeCmd t c codeOk 0 := by
  simp [State.nopCmd, hcmd, hheld]

theorem State.activateCmd_eq (hcmd : s.cmdFor t tag 8 = some c) :
    s.activateCmd t tag = (s.updSched t fun d =>
      { d with activate := newer d.activate c.stamp.order (cmdField c.word 24 1 = 1) }).completeCmd t c codeDeferred 0 := by
  simp [State.activateCmd, hcmd, hheld]

theorem State.loadModel_of_sound (hcmd : s.cmdFor t tag 3 = some c) (hdata : s.cmdData c buf = some d) (h : modelFlaws d = []) :
    s.loadModel t tag buf = (s.updSolver t fun v =>
      { v with modelNext := newer v.modelNext c.stamp.order (modelOf d) }).completeCmd t c codeDeferred 0 := by
  simp [State.loadModel, hcmd, hheld, hdata, h]

/-- A faulty model block is refused at the first of its faulty fields (06 R236; 11 R440). -/
theorem State.loadModel_of_faulty (hcmd : s.cmdFor t tag 3 = some c) (hdata : s.cmdData c buf = some d) (h : modelFlaws d ≠ []) :
    ∃ off ∈ modelFlaws d, (∀ x ∈ modelFlaws d, off ≤ x) ∧ s.loadModel t tag buf = s.refuseCmd t c codeBad off true := by
  match hflaws : modelFlaws d with
  | [] => exact absurd hflaws h
  | x :: r =>
    obtain ⟨hmem, hleast⟩ := List.min?_eq_some_iff.mp (List.min?_cons' (x := x) (xs := r))
    exact ⟨r.foldl min x, hmem, hleast, by simp [State.loadModel, hcmd, hheld, hdata, hflaws]⟩

theorem State.loadLattice_of_ok {x : Lattice} (hcmd : s.cmdFor t tag 2 = some c) (hdata : s.cmdData c buf = some d)
    (h : checkLattice d s.cellCm = .ok x) :
    s.loadLattice t tag buf = (s.updSearch t fun f =>
      { f with imageNext := newer f.imageNext c.stamp.order x }).completeCmd t c codeDeferred 0 := by
  simp only [State.loadLattice, hcmd, hheld, hdata, h, Bool.false_eq_true, if_false]
  refine congrArg (fun f => (s.updSearch t f).completeCmd t c codeDeferred 0) (funext fun f => ?_)
  cases f.imageNext <;> rfl

theorem State.loadLattice_of_bad {code : Byte} {off : Nat} (hcmd : s.cmdFor t tag 2 = some c) (hdata : s.cmdData c buf = some d)
    (h : checkLattice d s.cellCm = .bad code off) : s.loadLattice t tag buf = s.refuseCmd t c code off true := by
  simp [State.loadLattice, hcmd, hheld, hdata, h]

theorem State.loadLattice_of_violator {i k : Nat} (hcmd : s.cmdFor t tag 2 = some c) (hdata : s.cmdData c buf = some d)
    (h : checkLattice d s.cellCm = .violator i k) :
    s.loadLattice t tag buf = s.completeCmd t c codeLimit (BitVec.ofNat 160 (i + k * 2 ^ 32)) := by
  simp [State.loadLattice, hcmd, hheld, hdata, h]

end

/-- Settles O21: each command completes at once, after at most one change of its own, by what the check of its block answers. -/
theorem deferredCommandsCompleteAtAcceptance : Obligations.DeferredCommandsCompleteAtAcceptance := by
  unfold Obligations.DeferredCommandsCompleteAtAcceptance
  intro s t tag c hheld hlive
  refine ⟨fun hcmd => ⟨settle (s.nopCmd t tag), rfl, ?_⟩, fun hcmd => ⟨settle (s.activateCmd t tag), rfl, ?_⟩,
    fun buf d hcmd hdata => ⟨settle (s.loadModel t tag buf), rfl, fun hsound => ?_, fun hfaulty => ?_⟩,
    fun buf d hcmd hdata => ⟨settle (s.loadLattice t tag buf), rfl, fun x hok => ?_, fun code off hbad => ?_, fun i k hlimit => ?_⟩⟩
  · rw [State.nopCmd_eq hheld hcmd]
    exact Completes.atOnce hlive
  · rw [State.activateCmd_eq hheld hcmd]
    refine ⟨Completes.after (State.updSched_touches s t _ (within_refl _) (Touches.refl _ _)) hlive, ?_⟩
    simp only [settle_sched_fields, (State.completeCmd_own _ t c _ _).tSched t, State.tenant_updSched_self]
  · rw [State.loadModel_of_sound hheld hcmd hdata hsound]
    refine ⟨Completes.after (State.updSolver_touches s t _ (within_refl _) (Touches.refl _ _)) hlive, ?_⟩
    simp only [settle_tenant_fields, (State.completeCmd_own _ t c _ _).tSolver t, State.tenant_updSolver_self]
  · obtain ⟨off, hmem, hleast, hrefused⟩ := State.loadModel_of_faulty hheld hcmd hdata hfaulty
    rw [hrefused]
    simp only [settle_tenant_fields]
    exact ⟨(State.completeCmd_own s t c _ _).tSolver t, off, hmem, hleast, Completes.atOnce hlive⟩
  · rw [State.loadLattice_of_ok hheld hcmd hdata hok]
    refine ⟨Completes.after (State.updSearch_touches s t _ (within_refl _) (Touches.refl _ _)) hlive, ?_⟩
    simp only [settle_tenant_fields, (State.completeCmd_own _ t c _ _).tSearch t, State.tenant_updSearch_self]
  · rw [State.loadLattice_of_bad hheld hcmd hdata hbad]
    simp only [settle_tenant_fields]
    exact ⟨(State.completeCmd_own s t c _ _).tSearch t, Completes.atOnce hlive⟩
  · rw [State.loadLattice_of_violator hheld hcmd hdata hlimit]
    simp only [settle_tenant_fields]
    exact ⟨(State.completeCmd_own s t c _ _).tSearch t, Completes.atOnce hlive⟩

end Sys2Proof.Machine
end

section
/-! SUPPORT. HOST_CAND: records into the table and the queues, and the judgement (04 R175, R177; 05 R214; 11 R431, R433). -/
namespace Sys2Proof.Machine
open Sys2Proof

/-! ### Records into the table and the queues (04 R173; 05 R214) -/

/-- Every engine's queue has room for `n` more checks (05 R214). -/
def State.roomFor (s : State) (n : Nat) : Prop := ∀ e : Fin 16, (s.engines.at' e).queue.length + n ≤ 256

section
variable (s : State) (t : Fin 16) (c : Cand) (id n : Nat)

/-- The ways an ID may go on its way to its queue: it enters none, its producer stalls, or it enters the queue of an engine (05 R212 to
R215). -/
theorem State.queueCand_cases : s.queueCand t id = s ∨
    (¬ s.roomFor 1 ∧ s.queueCand t id = s.updTable t fun b => { b with stalled := b.stalled ++ [id] }) ∨
    ∃ e : Fin 16, s.queueCand t id = (s.updEngine e.val fun k => { k with queue := k.queue ++ [⟨t, id⟩] }).noteDepth e.val := by
  unfold State.queueCand
  split
  next => exact .inl rfl
  next e _ =>
    split
    · exact .inl rfl
    · split
      next hfull => exact .inr (.inl ⟨fun hroom => by have := hroom e; omega, rfl⟩)
      next => exact .inr (.inr ⟨e, rfl⟩)

theorem State.noteDepth_engines (e : Nat) : (s.noteDepth e).engines = s.engines := by
  unfold State.noteDepth
  dsimp only
  split <;> rfl

theorem State.engineEntry_table (e : Fin 16) :
    (((s.updEngine e.val fun k => { k with queue := k.queue ++ [⟨t, id⟩] }).noteDepth e.val).tenant t).table = (s.tenant t).table :=
  (State.noteDepth_touches (L := [.engines, .regs]) _ _ (by decide)
    (State.updEngine_touches s _ _ (by decide) (Touches.refl _ _))).tTable t

theorem State.queueCand_cands : ((s.queueCand t id).tenant t).table.cands = (s.tenant t).table.cands := by
  rcases s.queueCand_cases t id with h | ⟨-, h⟩ | ⟨e, h⟩ <;> rw [h]
  · simp
  · rw [State.engineEntry_table]

variable {s n}

/-- With room in every queue no producer stalls, and at most one place of each queue is taken. -/
theorem State.queueCand_of_room (hroom : s.roomFor (n + 1)) :
    ((s.queueCand t id).tenant t).table.stalled = (s.tenant t).table.stalled ∧ (s.queueCand t id).roomFor n := by
  rcases s.queueCand_cases t id with h | ⟨hfull, -⟩ | ⟨e, h⟩
  · rw [h]
    exact ⟨rfl, fun e => by have := hroom e; omega⟩
  · exact absurd (fun e => by have := hroom e; omega) hfull
  · rw [h, State.engineEntry_table]
    refine ⟨rfl, fun k => ?_⟩
    have hk := hroom k
    rw [State.noteDepth_engines, State.updEngine, bupd, dif_pos e.isLt, Fin.eta]
    by_cases hek : e = k
    · subst hek
      rw [Bank.at'_upd_self]
      simp only [List.length_append, List.length_singleton]
      omega
    · rw [Bank.at'_upd_ne _ hek]
      exact (Nat.add_le_add_left n.le_succ _).trans hk

theorem State.putCand_cand_self : ((s.putCand t c).tenant t).table.cand c.id = some c := by
  simp only [Table.cand, State.putCand, State.queueCand_cands, State.tenant_updTable_self]
  exact mfind_mput_self _ _ _

theorem State.putCand_cand_ne {j : Nat} (hj : j ≠ c.id) :
    ((s.putCand t c).tenant t).table.cand j = (s.tenant t).table.cand j := by
  simp only [Table.cand, State.putCand, State.queueCand_cands, State.tenant_updTable_self]
  exact mfind_mput_ne _ hj _

theorem State.putCand_of_room (hroom : s.roomFor (n + 1)) :
    ((s.putCand t c).tenant t).table.stalled = (s.tenant t).table.stalled ∧ (s.putCand t c).roomFor n := by
  unfold State.putCand
  extract_lets a s1
  obtain ⟨hstalled, hleft⟩ :=
    State.queueCand_of_room (s := s1.updTable t fun b => { b with cands := mput b.cands c.id c }) t c.id (n := n) hroom
  exact ⟨by rw [hstalled, State.tenant_updTable_self]; rfl, hleft⟩

end

/-! ### The records of a command, one after another -/

section
variable {s : State} {t : Fin 16} {lo hi : Nat}

theorem State.putHost_cand_ne {l : List Cand} {j : Nat} (hj : ∀ k ∈ l, j ≠ k.id) :
    (((s.putHost t lo hi l).1).tenant t).table.cand j = (s.tenant t).table.cand j := by
  induction l generalizing s with
  | nil => rfl
  | cons k r ih =>
    obtain ⟨hk, hr⟩ := List.forall_mem_cons.mp hj
    unfold State.putHost
    split
    · rfl
    · exact (ih hr).trans (State.putCand_cand_ne t k hk)

/-- While no producer of the command is stalled and no queue fills, every record is written and stands in its entry. -/
theorem State.putHost_written {l : List Cand} (hroom : s.roomFor l.length) (hfree : (s.tenant t).table.stalls lo hi = false)
    (hids : l.Pairwise fun k m => k.id ≠ m.id) :
    (s.putHost t lo hi l).2 = l.length ∧ (((s.putHost t lo hi l).1).tenant t).table.stalls lo hi = false ∧
      ∀ k ∈ l, (((s.putHost t lo hi l).1).tenant t).table.cand k.id = some k := by
  induction l generalizing s with
  | nil => exact ⟨rfl, hfree, by simp⟩
  | cons k r ih =>
    obtain ⟨hk, hr⟩ := List.pairwise_cons.mp hids
    obtain ⟨hstalled, hleft⟩ := State.putCand_of_room t k (n := r.length) hroom
    obtain ⟨hcount, hfree', hstand⟩ := ih hleft (by rwa [Table.stalls, hstalled]) hr
    unfold State.putHost
    rw [if_neg (by simp [hfree])]
    refine ⟨by simp [hcount], hfree', List.forall_mem_cons.mpr ⟨?_, hstand⟩⟩
    exact (State.putHost_cand_ne hk).trans (State.putCand_cand_self t k)

end

/-- The records of a HOST_CAND's buffer (04 R177). -/
def Cmd.records (c : Cmd) : List (List Byte) := chunks 128 (c.data.length / 128 + 1) c.data

section
variable (s : State) (t : Fin 16) (c : Cmd) (first : Nat)

theorem State.hostCandOf_id (r : List Byte) (id : Nat) : (s.hostCandOf t r id).id = id := by
  unfold State.hostCandOf
  dsimp only
  split <;> rfl

theorem State.hostRecords_length : (s.hostRecords t c first).length = c.records.length := by
  simp [State.hostRecords, Cmd.records]

theorem State.hostRecords_ids : (s.hostRecords t c first).map (·.id) = (List.range c.records.length).map (first + ·) := by
  have hid : (fun p : Nat × List Byte => (s.hostCandOf t p.2 (first + p.1)).id) = (first + ·) ∘ Prod.fst :=
    funext fun p => State.hostCandOf_id s t p.2 (first + p.1)
  simp only [State.hostRecords, List.map_map, Function.comp_def]
  rw [hid, ← List.map_map, List.map_fst_zip (by simp), Cmd.records]

theorem State.hostRecords_distinct : (s.hostRecords t c first).Pairwise fun k m => k.id ≠ m.id := by
  have hids : ((s.hostRecords t c first).map (·.id)).Nodup := by
    rw [State.hostRecords_ids]
    exact List.nodup_range.map fun i j h => Nat.add_left_cancel h
  exact List.pairwise_map.mp hids

variable {s t c first}

theorem State.hostRecords_id {i : Nat} {k : Cand} (h : (s.hostRecords t c first)[i]? = some k) : k.id = first + i := by
  have hmap : ((s.hostRecords t c first).map (·.id))[i]? = some k.id := by rw [List.getElem?_map, h, Option.map_some]
  rw [State.hostRecords_ids, List.getElem?_map, Option.map_eq_some_iff] at hmap
  obtain ⟨j, hj, hid⟩ := hmap
  obtain ⟨hlt, hval⟩ := List.getElem?_eq_some_iff.mp hj
  rw [← hid, ← hval, List.getElem_range]

/-- The records do not depend on how many IDs are taken, nor on the inputs noted. -/
theorem State.hostRecords_congr {u : State} (h : Touches [.tSearch, .tSpoor] s u)
    (himage : (u.tenant t).search.image = (s.tenant t).search.image)
    (hlimits : (u.tenant t).search.limits = (s.tenant t).search.limits) :
    u.hostRecords t c first = s.hostRecords t c first := by
  obtain ⟨-, hnumber, -⟩ := h.tick
  simp only [State.hostRecords, State.hostCandOf, State.stampCand, State.foot, h.live, himage, hlimits, hnumber, h.tTable t]

/-- The DETAIL of a HOST_CAND's success: its first ID and the number of its records (04 R177). -/
def Cmd.hostDetail (c : Cmd) (first : Nat) : BitVec 160 := BitVec.ofNat 160 (first + c.records.length * 2 ^ 32)

theorem State.goOnHost_over {n : Nat}
    (h : s.frame.inFrame = false ∨ s.frame.opening = true ∨ c.stamp.hostFrame ≠ s.frame.seq) :
    s.goOnHost t c first n = s.completeCmd t c codeOk (c.hostDetail first) := by
  unfold State.goOnHost
  extract_lets rs hi full
  rw [if_pos (by simpa [or_assoc] using h)]
  simp only [full, rs, Cmd.hostDetail, State.hostRecords_length]

/-- A command that no full queue stalls writes what is left of its records, and completes. -/
theorem State.goOnHost_written {n : Nat} (hin : s.frame.inFrame = true) (hopen : s.frame.opening = false)
    (hseq : c.stamp.hostFrame = s.frame.seq) (hn : n ≤ c.records.length)
    (hfree : (s.tenant t).table.stalls first (first + c.records.length) = false) (hroom : s.roomFor (c.records.length - n)) :
    ∃ v, Touches [.regs, .tTable, .engines, .dram] s v ∧
      s.goOnHost t c first n = v.completeCmd t c codeOk (c.hostDetail first) ∧
      ∀ i k, n ≤ i → (s.hostRecords t c first)[i]? = some k → (v.tenant t).table.cand (first + i) = some k := by
  have hlen := State.hostRecords_length s t c first
  obtain ⟨hcount, hfree', hstand⟩ := State.putHost_written (l := (s.hostRecords t c first).drop n) (lo := first)
    (hi := first + c.records.length) (by rwa [List.length_drop, hlen]) hfree ((State.hostRecords_distinct s t c first).drop)
  refine ⟨_, State.putHost_touches s t first (first + c.records.length) ((s.hostRecords t c first).drop n) (within_refl _)
    (Touches.refl _ _), ?_, fun i k hi hk => ?_⟩
  · unfold State.goOnHost
    extract_lets rs hi full p s'
    have hhi : hi = first + c.records.length := congrArg (first + ·) hlen
    have hdone : n + p.2 = rs.length := by
      simp only [p, hhi, rs, hcount, List.length_drop, hlen]
      omega
    rw [if_neg (by simp [hin, hopen, hseq]), if_pos ?_]
    · simp only [s', p, hhi, full, rs, hlen, Cmd.hostDetail]
    · rw [Bool.and_eq_true, decide_eq_true_eq, Bool.not_eq_true']
      exact ⟨hdone, by simpa only [s', p, hhi, rs] using hfree'⟩
  · rw [← State.hostRecords_id hk]
    refine hstand k (List.mem_of_getElem? (i := i - n) ?_)
    rw [List.getElem?_drop, Nat.add_sub_cancel' hi, hk]

end

/-! ### HOST_CAND (11 R431, R433) -/

section
variable {s : State} {t : Fin 16} {tag : Nat} {buf d : List Byte} {c : Cmd}

theorem State.fetchedLate_hostCand (st : Stamp) : s.fetchedLate t st 6 = true ↔ st.hostFrame < s.frame.seq ∨
    st.hostFrame = s.frame.seq ∧ (s.frame.inFrame = false ∨ 4 ≤ s.frame.passed) := by
  simp [State.fetchedLate]

theorem State.hostPassed_iff : s.hostPassed c = true ↔ c.late = true ∨ c.stamp.hostFrame < s.frame.seq ∨
    c.stamp.hostFrame = s.frame.seq ∧ s.frame.inFrame = false := by
  simp [State.hostPassed, or_assoc]

section
variable (hheld : s.held = false) (hcmd : s.cmdFor t tag 6 = some c)
include hheld hcmd

theorem State.hostCand_of_passed (h : s.hostPassed c = true) : s.hostCand t tag buf = s.completeCmd t c codePassed 0 := by
  simp [State.hostCand, hcmd, hheld, h]

theorem State.hostCand_of_poisoned (h : s.hostPassed c = false) (hdata : s.cmdData c buf = none) :
    s.hostCand t tag buf = s.completeCmd t c codeMemoryUe 0 := by
  simp [State.hostCand, hcmd, hheld, h, hdata]

theorem State.hostCand_of_data (h : s.hostPassed c = false) (hdata : s.cmdData c buf = some d) :
    s.hostCand t tag buf = s.holdCmd t c d := by
  simp [State.hostCand, hcmd, hheld, h, hdata]

end

theorem State.hostCand_table (s : State) (t : Fin 16) (tag : Nat) (buf : List Byte) :
    ((s.hostCand t tag buf).tenant t).table = (s.tenant t).table :=
  (State.hostCand_touches s t tag buf (within_refl _) (Touches.refl _ _)).tTable t

/-! ### The judgement (04 R175, R177) -/

/-- The faulty fields of a HOST_CAND's records, by their offsets in its buffer (04 R177). -/
def State.hostFaults (s : State) (t : Fin 16) (c : Cmd) : List Nat :=
  ((List.range c.records.length).zip c.records).flatMap fun p =>
    hostFlaws (s.tenant t).search.image (s.tenant t).search.limits p.2 (128 * p.1)

/-- A waiting HOST_CAND is judged now: it has written nothing yet, its frame has begun, and its turn has come (04 R175). -/
structure HostDue (s : State) (t : Fin 16) (c : Cmd) : Prop where
  fresh : c.delivering = none
  opened : s.frame.opening = false
  begun : c.stamp.hostFrame ≤ s.frame.seq
  turn : s.hostTurn t c = true

/-- The command's records take the next entries of the tenant's host range, and its bytes are an input of the frame (04 R175; 14 R537). -/
def State.takeHost (s : State) (t : Fin 16) (c : Cmd) : State :=
  (s.updSearch t fun f => { f with hostNext := (s.tenant t).search.hostNext + c.records.length }).noteInput t s.frame.seq
    c.stamp.order 6 c.data

theorem State.takeHost_touches (s : State) (t : Fin 16) (c : Cmd) : Touches [.tSearch, .tSpoor] s (s.takeHost t c) :=
  State.noteInput_touches _ t _ _ _ _ (by decide) (State.updSearch_touches s t _ (by decide) (Touches.refl _ _))

theorem State.takeHost_search (s : State) (t : Fin 16) (c : Cmd) : ((s.takeHost t c).tenant t).search =
    { (s.tenant t).search with hostNext := (s.tenant t).search.hostNext + c.records.length } := by
  unfold State.takeHost
  rw [(State.noteInput_touches _ t _ _ _ _ (within_refl _) (Touches.refl _ _)).tSearch t, State.tenant_updSearch_self]

section
variable (hheld : s.held = false)
  (hwait : ((s.tenant t).cmds.find? fun c => c.tag = tag && c.opcode = 6 && c.waiting) = some c)
include hheld hwait

theorem State.judgeHost_of_delivering {first n : Nat} (h : c.delivering = some (first, n)) :
    s.judgeHost t tag = s.goOnHost t c first n := by
  simp [State.judgeHost, hwait, hheld, h]

variable (hdue : HostDue s t c)
include hdue

theorem State.judgeHost_of_passed (h : s.hostPassed c = true) : s.judgeHost t tag = s.completeCmd t c codePassed 0 := by
  obtain ⟨hfresh, hopen, hbegun, hturn⟩ := hdue
  simp [State.judgeHost, hwait, hheld, hfresh, hopen, hbegun, hturn, h]

variable (hlive : s.hostPassed c = false)
include hlive

theorem State.judgeHost_of_faulty (h : s.hostFaults t c ≠ []) :
    s.judgeHost t tag = s.refuseCmd t c codeBad ((s.hostFaults t c).foldl min 0xFFFFFFFF) true := by
  obtain ⟨hfresh, hopen, hbegun, hturn⟩ := hdue
  unfold State.hostFaults Cmd.records at h ⊢
  simp [State.judgeHost, hwait, hheld, hfresh, hopen, hbegun, hturn, hlive, h]

theorem State.judgeHost_of_long (h : s.hostFaults t c = []) (hlong : 1152 < (s.tenant t).search.hostNext + c.records.length) :
    s.judgeHost t tag = s.refuseCmd t c codeLength 20 false := by
  obtain ⟨hfresh, hopen, hbegun, hturn⟩ := hdue
  unfold State.hostFaults Cmd.records at h
  unfold Cmd.records at hlong
  simp [State.judgeHost, hwait, hheld, hfresh, hopen, hbegun, hturn, hlive, h, hlong]

theorem State.judgeHost_of_good (h : s.hostFaults t c = []) (hfit : (s.tenant t).search.hostNext + c.records.length ≤ 1152) :
    s.judgeHost t tag = (s.takeHost t c).goOnHost t c (s.tenant t).search.hostNext 0 := by
  obtain ⟨hfresh, hopen, hbegun, hturn⟩ := hdue
  unfold State.hostFaults Cmd.records at h
  unfold Cmd.records at hfit
  unfold State.takeHost Cmd.records
  simp [State.judgeHost, hwait, hheld, hfresh, hopen, hbegun, hturn, hlive, h, Nat.not_lt.mpr hfit]

end

end

/-- The end of a HOST_CAND whose records are all written: it completes, and its entries hold them. -/
theorem hostCand_completes {l : List Part} {s u : State} {t : Fin 16} {c : Cmd} {first n : Nat} (hbefore : Touches l s u)
    (hlive : (s.queue t c.q).dying = false) (hin : u.frame.inFrame = true) (hopen : u.frame.opening = false)
    (hseq : c.stamp.hostFrame = u.frame.seq) (hn : n ≤ c.records.length)
    (hfree : (u.tenant t).table.stalls first (first + c.records.length) = false) (hroom : u.roomFor (c.records.length - n))
    (hq : l.contains .tQueues = false := by decide) (hc : l.contains .tCmds = false := by decide) :
    Completes s (settle (u.goOnHost t c first n)) t c codeOk (c.hostDetail first) ∧
      ∀ i k, n ≤ i → (u.hostRecords t c first)[i]? = some k →
        ((settle (u.goOnHost t c first n)).tenant t).table.cand (first + i) = some k := by
  obtain ⟨v, hput, hform, hstand⟩ := State.goOnHost_written hin hopen hseq hn hfree hroom
  rw [hform]
  refine ⟨Completes.of_touches hbefore (Completes.after hput ?_) hq hc, fun i k hi hk => ?_⟩
  · rwa [hbefore.queue t c.q hq]
  · simp only [settle_tenant_fields, (State.completeCmd_own v t c _ _).tTable t]
    exact hstand i k hi hk

/-- Settles O24: HOST_CAND by what its frame and its buffer say, the judgement by the turn, the faults, the room below ID 1,152, and the
writing of the records one after another. -/
theorem hostCandidatesAreJudgedWhole : Obligations.HostCandidatesAreJudgedWhole := by
  unfold Obligations.HostCandidatesAreJudgedWhole
  intro s t tag c hheld hlive gone hgone
  obtain rfl : gone = (s.hostPassed c = true) := hgone.trans (propext State.hostPassed_iff.symm)
  simp only [Bool.not_eq_true]
  refine ⟨State.fetchedLate_hostCand, fun buf hcmd => ⟨settle (s.hostCand t tag buf), rfl, ?_, fun hpassed => ?_,
    fun hin hdata => ?_, fun hin d hdata => ?_⟩, fun hwait rs hrs flaws hflaws => ⟨settle (s.judgeHost t tag), rfl,
    fun hfresh hopen hbegun hturn => ?_, fun first n hdel => ⟨fun hover => ?_, fun hin hopen hseq hfree hn hroom => ?_⟩⟩⟩
  · simp only [settle_tenant_fields]
    exact State.hostCand_table s t tag buf
  · rw [State.hostCand_of_passed hheld hcmd hpassed]
    exact Completes.atOnce hlive
  · rw [State.hostCand_of_poisoned hheld hcmd hin hdata]
    exact Completes.atOnce hlive
  · rw [State.hostCand_of_data hheld hcmd hin hdata]
    simp only [settle_tenant_fields, State.holdCmd, State.tenant_updTenant_self]
  · obtain rfl : rs = c.records := hrs
    obtain rfl : flaws = s.hostFaults t c := hflaws
    have hdue : HostDue s t c := ⟨hfresh, hopen, hbegun, hturn⟩
    simp only [settle_tenant_fields]
    refine ⟨fun hpassed => ?_, fun hin hfaults => ?_, fun hin hgood hlong => ?_, fun hin hgood first hfirst hfit => ?_⟩
    · rw [State.judgeHost_of_passed hheld hwait hdue hpassed]
      exact ⟨(State.completeCmd_own s t c _ _).tTable t, Completes.atOnce hlive⟩
    · rw [State.judgeHost_of_faulty hheld hwait hdue hin hfaults]
      exact ⟨(State.completeCmd_own s t c _ _).tTable t, (State.completeCmd_own s t c _ _).tSearch t, Completes.atOnce hlive⟩
    · rw [State.judgeHost_of_long hheld hwait hdue hin hgood hlong]
      exact ⟨(State.completeCmd_own s t c _ _).tTable t, (State.completeCmd_own s t c _ _).tSearch t, Completes.atOnce hlive⟩
    · subst hfirst
      have htaken := s.takeHost_touches t c
      have hsearch := s.takeHost_search t c
      obtain ⟨hin', -, hseq', -⟩ := htaken.tick
      obtain ⟨-, hopen', -⟩ := htaken.frame
      rw [State.judgeHost_of_good hheld hwait hdue hin hgood hfit]
      refine ⟨?_, fun hfree hroom => ?_⟩
      · rw [(State.goOnHost_touches (s.takeHost t c) t c _ 0 (within_refl _) (Touches.refl _ _)).tSearch t, hsearch]
      · have hnow : c.stamp.hostFrame = s.frame.seq ∧ s.frame.inFrame = true := by
          have hnot := mt State.hostPassed_iff.mpr (Bool.not_eq_true _ ▸ hin)
          have := hdue.begun
          simp only [not_or, not_and, Bool.not_eq_false] at hnot
          obtain ⟨-, hlt, hin⟩ := hnot
          have hseq : c.stamp.hostFrame = s.frame.seq := by omega
          exact ⟨hseq, hin hseq⟩
        obtain ⟨hdone, hstand⟩ := hostCand_completes (n := 0) htaken hlive (hin'.trans hnow.2) (hopen'.trans hopen)
          (hnow.1.trans hseq'.symm) (Nat.zero_le _) (by rwa [htaken.tTable t]) (fun e => by rw [htaken.engines]; exact hroom e)
        refine ⟨hdone, fun i k hk => ?_⟩
        have hrecords := State.hostRecords_congr (c := c) (first := (s.tenant t).search.hostNext) htaken
          (by rw [hsearch]) (by rw [hsearch])
        simpa only [settle_tenant_fields] using hstand i k (Nat.zero_le _) (by rw [hrecords, hk])
  · obtain rfl : rs = c.records := hrs
    rw [State.judgeHost_of_delivering hheld hwait hdel, State.goOnHost_over hover]
    simp only [settle_tenant_fields]
    exact ⟨(State.completeCmd_own s t c _ _).tTable t, Completes.atOnce hlive⟩
  · obtain rfl : rs = c.records := hrs
    rw [State.judgeHost_of_delivering hheld hwait hdel]
    exact hostCand_completes (Touches.refl [] s) hlive hin hopen hseq hn hfree hroom

end Sys2Proof.Machine
end

section
/-! SUPPORT. Front's field, the expander and the converter (04 R157 to R173). -/
namespace Sys2Proof.Machine
open Sys2Proof

/-! ### The end of expansion (04 R166) -/

/-- Expansion ends with a reason, and the tenant's search stands otherwise. -/
theorem State.finishFront_search (s : State) (t : Fin 16) (reason : Nat) :
    ((s.finishFront t reason).tenant t).search = { (s.tenant t).search with ended := some reason } := by
  unfold State.finishFront State.endExpansion
  extract_lets i f old w s1 s2
  have hlatched : Touches [.regs] s s2 :=
    State.setLive_touches _ _ _ _ (by decide) (State.setLive_touches s _ _ _ (by decide) (Touches.refl _ _))
  rw [(State.endTask_touches _ t i codeOk (within_refl _) (Touches.refl _ _)).tSearch t, State.tenant_updSearch_self,
    hlatched.tSearch t]

/-! ### FRONT_FIELD (04 R157 to R162) -/

/-- The node from which expansion starts, in the cell and the bins of the start pose (04 R162). -/
def Start.node (k : Start) (cellCm : Nat) : Node :=
  { cx := (k.cell cellCm).1, cy := (k.cell cellCm).2, head := k.headBin, speed := k.speedBin, mode := k.mode.toNat, g := 0,
    elapsed := 0, depth := 0, chain := [], gen := 0, expanded := false }

/-- No node is to expand: the tenant has no primitive table, or LAT_EN is 0 (04 R166). -/
def State.latticeOff (s : State) (t : Fin 16) : Bool := (s.tenant t).search.image.isNone || ! bit (s.wave t 0x0C) 24

/-- A tenant's search as Front leaves it, from the view the seal has fixed (04 R157 to R161, R166). -/
def State.builtSearch (s : State) (t : Fin 16) (v : Sealed) : Search :=
  let u := unblocked (v.openRows s.classFree (bits (s.wave t 0x08) 11 8) (bits (s.wave t 0x08) 15 12)) (bits (s.wave t 0x08) 3 0)
  { (s.tenant t).search with
    front := .done, unblocked := u
    cost := (fieldOfCells u (s.goalEn t) (bits (s.wave t 0x00) 10 0) (bits (s.wave t 0x00) 26 16) (bits (s.wave t 0x04) 7 0)).1
    costDefault := if s.goalEn t then 0xFFFE else 0, nodes := [(s.start t).node s.cellCm], generated := 1, expanded := 0
    emitted := 0, ended := if s.latticeOff t then some 5 else (s.tenant t).search.ended }

/-- A register of the WAVEFRONT page stands when another of the tenant's is written. -/
theorem State.wave_setLive_ne {s : State} (h : keysRise s.regs) (t : Fin 16) {off o : Nat} (hoff : off ≠ o) (v : Nat) :
    (s.setLive 0x08 (perTenant t o) v).wave t off = s.wave t off :=
  State.live_setLive_ne s h (by unfold regKey perTenant; omega) v

/-- Without a goal every unblocked cell costs 0 (04 R160). -/
theorem State.builtSearch_costAt {s : State} {t : Fin 16} {v : Sealed} (h : s.goalEn t = false) {i : Nat}
    (hopen : bit (lget 0 (s.builtSearch t v).unblocked (i / 2048)) (i % 2048) = true) : (s.builtSearch t v).costAt i = 0 := by
  unfold Search.costAt
  rw [if_neg (by simp [hopen])]
  simp [State.builtSearch, fieldOfCells, h, lget]

theorem State.buildField_late {s : State} {t : Fin 16} (h : s.phasePassed 3 = true) : s.buildField t = s := by
  unfold State.buildField
  dsimp only
  split
  · rfl
  · exact if_pos (by simp [h])

/-- Front builds the field of a sealed tenant before D_3. -/
theorem State.buildField_search {s : State} {t : Fin 16} {v : Sealed} (hregs : keysRise s.regs) (hheld : s.held = false)
    (hhalted : s.halted = false) (hview : (s.tenant t).world.view = some v) (hfront : (s.tenant t).search.front = .requested)
    (hphase : s.phasePassed 3 = false) (husable : s.usableOf t .front ≠ []) :
    ((s.buildField t).tenant t).search = s.builtSearch t v := by
  unfold State.buildField
  extract_lets n cfg ga gb k c node
  have hn : n.world.view = some v := hview
  split
  next hnone => simp [hn] at hnone
  next w hw =>
    obtain rfl : v = w := Option.some.inj (hn.symm.trans hw)
    rw [if_neg (by simp [hheld, hhalted, n, hfront, hphase, husable])]
    extract_lets cells fld s1 s2 un old s3
    have hfreed : Touches [.draws, .lynx] s1 s2 := State.streamFree_touches s1 _ _ (within_refl _) (Touches.refl _ _)
    have hwave : s3.wave t 0x0C = s.wave t 0x0C := by
      rw [State.wave_setLive_ne (by rw [hfreed.regs]; exact hregs) t (by decide)]
      exact hfreed.live _ _
    have hsearch : (s3.tenant t).search = (s1.tenant t).search :=
      ((State.setLive_touches s2 _ _ _ (within_refl _) (Touches.refl _ _)).tSearch t).trans (hfreed.tSearch t)
    have hoff : (n.search.image.isNone || ! bit (s3.wave t 0x0C) 24) = s.latticeOff t := by rw [hwave, State.latticeOff]
    rw [hoff]
    cases hlattice : s.latticeOff t with
    | true =>
      rw [if_pos rfl, State.finishFront_search, hsearch, State.tenant_updSearch_self, State.builtSearch, hlattice]
      rfl
    | false =>
      rw [if_neg Bool.false_ne_true, hsearch, State.tenant_updSearch_self, State.builtSearch, hlattice]
      rfl

/-! ### EXPAND_NODE (04 R162 to R167; 05 R214) -/

section
variable (s : State) (t : Fin 16) (k : Start) (n : Node)

theorem State.finishFront_expanded (reason : Nat) :
    ((s.finishFront t reason).tenant t).search.expanded = (s.tenant t).search.expanded := by
  rw [State.finishFront_search]

theorem State.putCandBy_search (stream : Nat) (c : Cand) : ((s.putCandBy stream t c).tenant t).search = (s.tenant t).search :=
  (State.putCandBy_touches s stream t c (within_refl _) (Touches.refl _ _)).tSearch t

/-- A successor counts no node. -/
theorem State.successor_expanded (x : Nat × Prim) :
    ((s.successor t k n x).tenant t).search.expanded = (s.tenant t).search.expanded := by
  unfold State.successor
  extract_lets f y old s1 entry s2 s3
  have hkept : (s1.tenant t).search.expanded = (s.tenant t).search.expanded := by
    simp only [s1, State.tenant_updSearch_self]
  have hput : (s3.tenant t).search.expanded = (s.tenant t).search.expanded := by
    simp only [s3, State.putCandBy_search, s2, State.tenant_updSearch_self, hkept]
  split
  · rfl
  · split
    · rfl
    · extract_lets drop
      split
      · rfl
      · split
        · split
          · rw [State.finishFront_expanded, hput]
          · exact hput
        · exact hkept

theorem State.successors_expanded (l : List (Nat × Prim)) :
    ((s.successors t k n l).tenant t).search.expanded = (s.tenant t).search.expanded := by
  induction l generalizing s with
  | nil => rfl
  | cons x r ih =>
    unfold State.successors
    split
    · simp only [State.tenant_updSearch_self]
    · rw [ih, State.successor_expanded]

theorem State.afterNode_expanded : ((s.afterNode t).tenant t).search.expanded = (s.tenant t).search.expanded := by
  unfold State.afterNode
  extract_lets f
  split
  · rfl
  · split
    · exact State.finishFront_expanded s t 0
    · split
      · exact State.finishFront_expanded s t 1
      · rfl

end

section
variable {s : State} {t : Fin 16}

theorem State.expandNode_late (h : s.phasePassed 3 = true) : s.expandNode t = s := by
  unfold State.expandNode
  exact if_pos (by simp [h])

theorem State.expandNode_stalled (h : (s.tenant t).table.stalls 5248 (2 ^ 20) = true) : s.expandNode t = s := by
  unfold State.expandNode
  exact if_pos (by simp [-Nat.reducePow, h])

/-- The expander may take a step: Front is done, expansion goes on, D_3 has not passed, no queue stalls it and an engine serves
(04 R161, R166; 05 R214). -/
structure ExpanderReady (s : State) (t : Fin 16) : Prop where
  held : s.held = false
  halted : s.halted = false
  front : (s.tenant t).search.front = .done
  going : (s.tenant t).search.ended = none
  phase : s.phasePassed 3 = false
  free : (s.tenant t).table.stalls 5248 (2 ^ 20) = false
  usable : s.usableOf t .front ≠ []

variable (h : ExpanderReady s t)
include h

theorem State.expandNode_of_none (hresume : (s.tenant t).search.resume = none) (hnone : s.nextNode t = none) :
    s.expandNode t = s.finishFront t 0 := by
  obtain ⟨hheld, hhalted, hfront, hgoing, hphase, hfree, husable⟩ := h
  unfold State.expandNode
  simp [-Nat.reducePow, hheld, hhalted, hfront, hgoing, hphase, hfree, husable, hresume, hnone]

/-- A node that expands is counted once. -/
theorem State.expandNode_of_some {x : Node} (hresume : (s.tenant t).search.resume = none) (hnext : s.nextNode t = some x) :
    ((s.expandNode t).tenant t).search.expanded = (s.tenant t).search.expanded + 1 := by
  obtain ⟨hheld, hhalted, hfront, hgoing, hphase, hfree, husable⟩ := h
  unfold State.expandNode
  simp [-Nat.reducePow, hheld, hhalted, hfront, hgoing, hphase, hfree, husable, hresume, hnext, State.afterNode_expanded,
    State.successors_expanded]

/-- A node on which the expander stalled goes on without being counted again (05 R214). -/
theorem State.expandNode_of_resume {x : Node × List Nat} (hresume : (s.tenant t).search.resume = some x) :
    ((s.expandNode t).tenant t).search.expanded = (s.tenant t).search.expanded := by
  obtain ⟨hheld, hhalted, hfront, hgoing, hphase, hfree, husable⟩ := h
  unfold State.expandNode
  simp [-Nat.reducePow, hheld, hhalted, hfront, hgoing, hphase, hfree, husable, hresume, State.afterNode_expanded,
    State.successors_expanded]

end

/-! ### PROPOSAL_CONVERT (04 R168 to R173) -/

section
variable {s : State} {t : Fin 16}

theorem State.convertProposal_stalled (h : (s.tenant t).table.stalls 1152 5248 = true) : s.convertProposal t = s := by
  unfold State.convertProposal
  dsimp only
  split
  · rfl
  · exact if_pos (by simp [h])

theorem State.start_updSearch (s : State) (t : Fin 16) (f : Search → Search) : (s.updSearch t f).start t = s.start t := by
  rw [State.start, State.tenant_updSearch_self]
  rfl

/-- The conversion of a row does not depend on the rows that wait. -/
theorem State.convertRow_updFox (s : State) (t : Fin 16) (l : List (Nat × List F32)) (p : Nat) (row : List F32) :
    (s.updSearch t fun f => { f with fox := l }).convertRow t p row = s.convertRow t p row := by
  rw [State.convertRow, State.start_updSearch, State.tenant_updSearch_self]
  rfl

section
variable {p : Nat} {row : List F32} {rest : List (Nat × List F32)} (hheld : s.held = false) (hhalted : s.halted = false)
  (hfox : (s.tenant t).search.fox = (p, row) :: rest) (hpassed : s.frame.passed < 8)
  (hfree : (s.tenant t).table.stalls 1152 5248 = false)
include hheld hhalted hfox hpassed hfree

theorem State.convertProposal_over (hp : 4096 ≤ p) :
    s.convertProposal t = (s.updSearch t fun f => { f with fox := rest }).updSearch t fun f =>
      { f with foxOver := sat16 f.foxOver } := by
  simp [State.convertProposal, hfox, hheld, hhalted, Nat.not_le.mpr hpassed, hfree, hp]

theorem State.convertProposal_discarded (hp : p < 4096) (hrow : s.convertRow t p row = none) :
    s.convertProposal t = (s.updSearch t fun f => { f with fox := rest }).updSearch t fun f =>
      { f with foxDiscarded := sat16 f.foxDiscarded } := by
  simp [State.convertProposal, hfox, hheld, hhalted, Nat.not_le.mpr hpassed, hfree, Nat.not_le.mpr hp, State.convertRow_updFox, hrow]

theorem State.convertProposal_converted {c : Cand} (hp : p < 4096) (hrow : s.convertRow t p row = some c) :
    s.convertProposal t = ((s.updSearch t fun f => { f with fox := rest }).updSearch t fun f =>
      { f with converted := f.converted + 1, foxClipped := f.foxClipped + b2n c.clipped }).putCandBy 74 t c := by
  simp [State.convertProposal, hfox, hheld, hhalted, Nat.not_le.mpr hpassed, hfree, Nat.not_le.mpr hp, State.convertRow_updFox, hrow]

/-- The row is taken, whatever becomes of it. -/
theorem State.convertProposal_fox : ((s.convertProposal t).tenant t).search.fox = rest := by
  by_cases hp : 4096 ≤ p
  · rw [State.convertProposal_over hheld hhalted hfox hpassed hfree hp]
    simp only [State.tenant_updSearch_self]
  · have hbelow : p < 4096 := Nat.lt_of_not_le hp
    cases hrow : s.convertRow t p row with
    | none =>
      rw [State.convertProposal_discarded hheld hhalted hfox hpassed hfree hbelow hrow]
      simp only [State.tenant_updSearch_self]
    | some c =>
      rw [State.convertProposal_converted hheld hhalted hfox hpassed hfree hbelow hrow, State.putCandBy_search]
      simp only [State.tenant_updSearch_self]

end

end

/-- Settles O29: Front's field by the search it leaves, the expander by what counts as a node, the converter by the three ends of a row. -/
theorem searchStepsTakeEffect : Obligations.SearchStepsTakeEffect := by
  unfold Obligations.SearchStepsTakeEffect
  intro s t hinv hheld hhalted
  refine ⟨fun hlate => ⟨congrArg done (State.buildField_late hlate), congrArg done (State.expandNode_late hlate)⟩,
    fun v hview hfront hphase husable => ⟨settle (s.buildField t), rfl, ?_⟩,
    fun hstalled => congrArg done (State.expandNode_stalled hstalled),
    fun hfront hgoing hphase hfree husable => ⟨settle (s.expandNode t), rfl, ?_⟩,
    fun hstalled => congrArg done (State.convertProposal_stalled hstalled),
    fun p row rest hfox hpassed hfree => ⟨settle (s.convertProposal t), rfl, ?_⟩⟩
  · simp only [settle_tenant_fields, State.buildField_search hinv.regs hheld hhalted hview hfront hphase husable]
    refine ⟨rfl, rfl, rfl, fun hgoal i hopen => State.builtSearch_costAt hgoal hopen, fun hoff => ?_, fun himage hon => ?_⟩
    · exact if_pos (by simpa [State.latticeOff] using hoff)
    · exact if_neg (by simpa [State.latticeOff, hon] using himage)
  · have hready : ExpanderReady s t := ⟨hheld, hhalted, hfront, hgoing, hphase, hfree, husable⟩
    simp only [settle_tenant_fields]
    refine ⟨fun hresume hnone => ?_, fun hresume x hnext => State.expandNode_of_some hready hresume hnext,
      fun x hresume => State.expandNode_of_resume hready hresume⟩
    rw [State.expandNode_of_none hready hresume hnone, State.finishFront_search]
    exact ⟨rfl, rfl⟩
  · simp only [settle_tenant_fields]
    refine ⟨State.convertProposal_fox hheld hhalted hfox hpassed hfree, fun hover => ?_, fun hp hrow => ?_, fun c hp hrow => ?_⟩
    · rw [State.convertProposal_over hheld hhalted hfox hpassed hfree hover]
      simp only [State.tenant_updSearch_self]
      exact ⟨rfl, trivial⟩
    · rw [State.convertProposal_discarded hheld hhalted hfox hpassed hfree hp hrow]
      simp only [State.tenant_updSearch_self]
      exact ⟨trivial, rfl⟩
    · rw [State.convertProposal_converted hheld hhalted hfox hpassed hfree hp hrow, State.putCandBy_search]
      simp only [State.tenant_updSearch_self]
      exact ⟨trivial, trivial, State.putCand_cand_self t c⟩

end Sys2Proof.Machine
end

section
/-! SUPPORT. The checker engines: which check an engine takes, and what a check's end writes (05 R205, R212 to R220; 19 R724, R729). -/
namespace Sys2Proof.Machine
open Sys2Proof

/-! ### Which check comes next (05 R212) -/

theorem Entry.stopBefore_iff {a b : Entry} : a.stopBefore b = true ↔ a.tenant < b.tenant ∨ a.tenant = b.tenant ∧ a.id < b.id := by
  simp [Entry.stopBefore]

theorem Entry.stopBefore_eq_false_iff {a b : Entry} :
    a.stopBefore b = false ↔ b.tenant < a.tenant ∨ a.tenant = b.tenant ∧ b.id ≤ a.id := by
  rw [← Bool.not_eq_true, Entry.stopBefore_iff]
  omega

/-- "No earlier than" is transitive. -/
theorem Entry.stopBefore_false_trans {a b c : Entry} (hab : a.stopBefore b = false) (hbc : b.stopBefore c = false) :
    a.stopBefore c = false := by
  rw [Entry.stopBefore_eq_false_iff] at *
  omega

theorem Entry.stopBefore_asymm {a b : Entry} (h : a.stopBefore b = true) : b.stopBefore a = false := by
  rw [Entry.stopBefore_iff] at h
  rw [Entry.stopBefore_eq_false_iff]
  omega

/-- The first in stop order of a list that is not empty (05 R212). -/
def Entry.firstStop (x : Entry) (r : List Entry) : Entry := r.foldl (fun b y => if y.stopBefore b then y else b) x

theorem Entry.firstStop_mem (x : Entry) (r : List Entry) : x.firstStop r ∈ x :: r := by
  induction r generalizing x with
  | nil => exact List.mem_singleton_self x
  | cons y r ih =>
    unfold Entry.firstStop
    rw [List.foldl_cons]
    split
    · exact List.mem_cons_of_mem _ (ih y)
    · exact List.cons_subset_cons x (List.subset_cons_self y r) (ih x)

theorem Entry.firstStop_least (x : Entry) (r : List Entry) : ∀ y ∈ x :: r, y.stopBefore (x.firstStop r) = false := by
  induction r generalizing x with
  | nil => simp [Entry.firstStop, Entry.stopBefore]
  | cons y r ih =>
    unfold Entry.firstStop
    rw [List.foldl_cons]
    split
    next hbefore =>
      have hrest := ih y
      exact List.forall_mem_cons.mpr
        ⟨Entry.stopBefore_false_trans (Entry.stopBefore_asymm hbefore) (hrest y List.mem_cons_self), hrest⟩
    next hnot =>
      obtain ⟨hx, hrest⟩ := List.forall_mem_cons.mp (ih x)
      exact List.forall_mem_cons.mpr
        ⟨hx, List.forall_mem_cons.mpr ⟨Entry.stopBefore_false_trans (Bool.eq_false_iff.mpr hnot) hx, hrest⟩⟩

/-- The stops of a queue that may be checked now. -/
def State.allowedStops (s : State) (q : List Entry) : List Entry := (q.filter s.checkable).filter fun x => x.id < 2

section
variable {s : State} {q : List Entry} {x : Entry}

theorem State.mem_allowedStops : x ∈ s.allowedStops q ↔ x ∈ q ∧ s.checkable x = true ∧ x.id < 2 := by
  simp only [State.allowedStops, List.mem_filter, decide_eq_true_eq, and_assoc]

theorem State.nextCheck_of_no_stop (h : s.allowedStops q = []) : s.nextCheck q = q.find? s.checkable := by
  unfold State.allowedStops at h
  simp only [State.nextCheck, h, List.head?_filter]

theorem State.nextCheck_of_stops {r : List Entry} (h : s.allowedStops q = x :: r) : s.nextCheck q = some (x.firstStop r) := by
  unfold State.allowedStops at h
  simp only [State.nextCheck, h]
  rfl

theorem State.nextCheck_eq_none (h : s.nextCheck q = none) : ∀ y ∈ q, s.checkable y = false := by
  cases hstops : s.allowedStops q with
  | nil => simpa [State.nextCheck_of_no_stop hstops] using h
  | cons y r => simp [State.nextCheck_of_stops hstops] at h

/-- What the next check of a queue is: an allowed stop that none comes before, or, with no stop allowed, the oldest entry that may be
checked (05 R212). -/
theorem State.nextCheck_eq_some (h : s.nextCheck q = some x) :
    (x ∈ s.allowedStops q ∧ ∀ y ∈ s.allowedStops q, y.stopBefore x = false) ∨
      s.allowedStops q = [] ∧ q.find? s.checkable = some x := by
  cases hstops : s.allowedStops q with
  | nil => exact .inr ⟨rfl, State.nextCheck_of_no_stop hstops ▸ h⟩
  | cons y r =>
    obtain rfl : y.firstStop r = x := Option.some.inj (State.nextCheck_of_stops hstops ▸ h)
    exact .inl ⟨y.firstStop_mem r, y.firstStop_least r⟩

theorem State.nextCheck_allowed (h : s.nextCheck q = some x) : x ∈ q ∧ s.checkable x = true := by
  rcases State.nextCheck_eq_some h with ⟨hmem, -⟩ | ⟨-, hfind⟩
  · obtain ⟨hq, hcheckable, -⟩ := State.mem_allowedStops.mp hmem
    exact ⟨hq, hcheckable⟩
  · exact ⟨List.mem_of_find?_eq_some hfind, List.find?_some hfind⟩

theorem State.nextCheck_stop_first (h : s.nextCheck q = some x) {y : Entry} (hy : y ∈ q) (hcheckable : s.checkable y = true)
    (hstop : y.id < 2) : x.id < 2 ∧ y.stopBefore x = false := by
  have hallowed : y ∈ s.allowedStops q := State.mem_allowedStops.mpr ⟨hy, hcheckable, hstop⟩
  rcases State.nextCheck_eq_some h with ⟨hmem, hleast⟩ | ⟨hnone, -⟩
  · obtain ⟨-, -, hid⟩ := State.mem_allowedStops.mp hmem
    exact ⟨hid, hleast y hallowed⟩
  · simp [hnone] at hallowed

theorem State.nextCheck_oldest (h : s.nextCheck q = some x) (hid : 2 ≤ x.id) :
    ∃ l r, q = l ++ x :: r ∧ ∀ y ∈ l, s.checkable y = false := by
  rcases State.nextCheck_eq_some h with ⟨hmem, -⟩ | ⟨-, hfind⟩
  · obtain ⟨-, -, hstop⟩ := State.mem_allowedStops.mp hmem
    omega
  · obtain ⟨-, l, r, hq, hl⟩ := List.find?_eq_some_iff_append.mp hfind
    exact ⟨l, r, hq, by simpa using hl⟩

end

/-! ### What keeps the checks in progress and the verdicts -/

/-- Every engine's check in progress, and every tenant's records, CLEAR bits and count of checks stand. -/
structure SameChecks (s u : State) : Prop where
  current : ∀ e, (u.engines.at' e).current = (s.engines.at' e).current
  cands : ∀ t, (u.tenant t).table.cands = (s.tenant t).table.cands
  clear : ∀ t, (u.tenant t).table.clear = (s.tenant t).table.clear
  checked : ∀ t, (u.tenant t).table.checked = (s.tenant t).table.checked

theorem SameChecks.refl (s : State) : SameChecks s s := ⟨fun _ => rfl, fun _ => rfl, fun _ => rfl, fun _ => rfl⟩

theorem SameChecks.trans {s u v : State} (h : SameChecks s u) (k : SameChecks u v) : SameChecks s v :=
  ⟨fun e => (k.current e).trans (h.current e), fun t => (k.cands t).trans (h.cands t), fun t => (k.clear t).trans (h.clear t),
    fun t => (k.checked t).trans (h.checked t)⟩

theorem SameChecks.forEach {α : Type} {l : List α} {f : State → α → State} (h : ∀ u a, SameChecks u (f u a)) (s : State) :
    SameChecks s (s.forEach l f) := by
  unfold State.forEach
  induction l generalizing s with
  | nil => exact SameChecks.refl s
  | cons a r ih => exact (h s a).trans (ih (f s a))

theorem SameChecks.of_touches {l : List Part} {s u : State} (h : Touches l s u)
    (he : l.contains .engines = false := by decide) (ht : l.contains .tTable = false := by decide) : SameChecks s u :=
  ⟨fun _ => by rw [h.engines he], fun t => by rw [h.tTable t ht], fun t => by rw [h.tTable t ht], fun t => by rw [h.tTable t ht]⟩

theorem SameChecks.updEngine (s : State) (e : Nat) (f : Engine → Engine) (h : ∀ k, (f k).current = k.current) :
    SameChecks s (s.updEngine e f) :=
  ⟨fun k => Bank.at'_bupd_same s.engines e f (·.current) h k, fun _ => rfl, fun _ => rfl, fun _ => rfl⟩

/-- Who waits for room in a queue is no part of the checks. -/
theorem SameChecks.updStalled (s : State) (t : Fin 16) (f : List Nat → List Nat) :
    SameChecks s (s.updTable t fun b => { b with stalled := f b.stalled }) := by
  have htable : ∀ k, ∃ l, ((s.updTable t fun b => { b with stalled := f b.stalled }).tenant k).table =
      { (s.tenant k).table with stalled := l } := fun k => by
    by_cases hk : t = k
    · subst hk
      exact ⟨f (s.tenant t).table.stalled, by rw [State.tenant_updTable_self]⟩
    · exact ⟨(s.tenant k).table.stalled, by rw [State.tenant_updTable_ne s hk]⟩
  constructor
  case current => exact fun _ => rfl
  all_goals
    intro k
    obtain ⟨l, hl⟩ := htable k
    rw [hl]

theorem State.queueCand_sameChecks (s : State) (t : Fin 16) (id : Nat) : SameChecks s (s.queueCand t id) := by
  rcases s.queueCand_cases t id with h | ⟨-, h⟩ | ⟨e, h⟩ <;> rw [h]
  · exact SameChecks.refl s
  · exact SameChecks.updStalled s t (· ++ [id])
  · exact (SameChecks.updEngine s e (fun k => { k with queue := k.queue ++ [⟨t, id⟩] }) fun _ => rfl).trans
      (.of_touches (State.noteDepth_touches (L := [.regs]) _ _ (by decide) (Touches.refl _ _)))

theorem State.retryStalled_sameChecks (s : State) : SameChecks s s.retryStalled :=
  SameChecks.forEach (fun u t => (SameChecks.updStalled u t fun _ => []).trans
    (SameChecks.forEach (fun v id => State.queueCand_sameChecks v t id) _)) s

theorem State.releaseStop_sameChecks (s : State) (t : Fin 16) : SameChecks s (s.releaseStop t) := by
  unfold State.releaseStop
  split
  · exact SameChecks.refl s
  · extract_lets engines
    have hengines : SameChecks s { s with engines := engines } :=
      ⟨fun e => by simp [engines, Bank.at'], fun _ => rfl, fun _ => rfl, fun _ => rfl⟩
    exact (hengines.trans (SameChecks.updStalled _ t _)).trans (State.retryStalled_sameChecks _)

theorem State.pollDrains_sameChecks (s : State) (t : Fin 16) : SameChecks s (s.pollDrains t) :=
  .of_touches (State.pollDrains_touches s t (within_refl _) (Touches.refl _ _))

theorem settle_sameChecks (s : State) : SameChecks s (settle s) :=
  .of_touches (settle_touches s (within_refl _) (Touches.refl _ _))

/-! ### A check starts (05 R212 to R214) -/

theorem State.updEngine_at'_self (s : State) (e : Fin 16) (f : Engine → Engine) :
    (s.updEngine e.val f).engines.at' e = f (s.engines.at' e) := by
  rw [State.updEngine, bupd, dif_pos e.isLt, Fin.eta, Bank.at'_upd_self]

/-- An engine may take a check now: it is free and serves, and a frame is in progress (05 R212, R213). -/
structure EngineReady (s : State) (e : Fin 16) : Prop where
  held : s.held = false
  halted : s.halted = false
  begun : s.frame.opening = false
  inFrame : s.frame.inFrame = true
  serves : (s.engines.at' e).view.serves = true
  free : (s.engines.at' e).current = none

section
variable {s : State} {e : Fin 16} (hready : EngineReady s e)
include hready

theorem State.startCheck_of_none (h : s.nextCheck (s.engines.at' e).queue = none) : s.startCheck e = s := by
  obtain ⟨hheld, hhalted, hbegun, hin, hserves, hfree⟩ := hready
  simp [State.startCheck, hheld, hhalted, hbegun, hin, hserves, hfree, h]

theorem State.startCheck_of_some {x : Entry} (h : s.nextCheck (s.engines.at' e).queue = some x) :
    s.startCheck e =
      (s.updEngine e.val fun k => { k with queue := k.queue.erase x, current := some x, spoiled := false }).retryStalled := by
  obtain ⟨hheld, hhalted, hbegun, hin, hserves, hfree⟩ := hready
  simp [State.startCheck, hheld, hhalted, hbegun, hin, hserves, hfree, h]

/-- The check taken is the one in progress, and no record or CLEAR bit moves. -/
theorem State.startCheck_takes {x : Entry} (h : s.nextCheck (s.engines.at' e).queue = some x) :
    ((settle (s.startCheck e)).engines.at' e).current = some x ∧
      ∀ t, ((settle (s.startCheck e)).tenant t).table.cands = (s.tenant t).table.cands ∧
        ((settle (s.startCheck e)).tenant t).table.clear = (s.tenant t).table.clear := by
  rw [State.startCheck_of_some hready h]
  have hkept := (State.retryStalled_sameChecks
    (s.updEngine e.val fun k => { k with queue := k.queue.erase x, current := some x, spoiled := false })).trans (settle_sameChecks _)
  exact ⟨by rw [hkept.current, State.updEngine_at'_self], fun t => ⟨hkept.cands t, hkept.clear t⟩⟩

end

/-! ### A verdict written (05 R205, R216, R220) -/

theorem mfind_mupd_self {β : Type} (m : List (Nat × β)) (k : Nat) (f : β → β) : mfind (mupd m k f) k = (mfind m k).map f := by
  induction m with
  | nil => rfl
  | cons x r ih =>
    obtain ⟨a, w⟩ := x
    unfold mupd at ih ⊢
    by_cases ha : a = k
    · simp [mfind, ha]
    · have hk : k ≠ a := fun h => ha h.symm
      simp only [List.map_cons, if_neg ha, mfind, if_neg hk, ih]
      split <;> rfl

/-- A verdict stands in a record of the table, with its hit, and its check is counted: CLEAR has set the candidate's bit, and any other
verdict has set none. -/
structure VerdictWritten (b b' : Table) (id : Nat) (c : Cand) (v : BitVec 2) (hit : Byte) (agent : Word) : Prop where
  checked : b'.checked = b.checked + 1
  cand : b'.cand id = some { c with verdict := v, firstHit := hit, hitAgent := agent }
  clears : v = 1 → id ∈ b'.clear
  keeps : v ≠ 1 → b'.clear = b.clear

theorem VerdictWritten.kept {b : Table} {u w : State} {t : Fin 16} {id : Nat} {c : Cand} {v : BitVec 2} {hit : Byte} {agent : Word}
    (h : VerdictWritten b (u.tenant t).table id c v hit agent) (k : SameChecks u w) :
    VerdictWritten b (w.tenant t).table id c v hit agent where
  checked := (k.checked t).trans h.checked
  cand := by rw [Table.cand, k.cands t]; exact h.cand
  clears hv := by rw [k.clear t]; exact h.clears hv
  keeps hv := (k.clear t).trans (h.keeps hv)

theorem State.writeVerdict_table (s : State) (e : Nat) (t : Fin 16) (id : Nat) (v : BitVec 2) (hit : Byte) (agent : Word) :
    ((s.writeVerdict e t id v hit agent).tenant t).table =
      { (s.tenant t).table with
        cands := mupd (s.tenant t).table.cands id fun c => { c with verdict := v, firstHit := hit, hitAgent := agent }
        clear := if v = 1 then sinsert (s.tenant t).table.clear id else (s.tenant t).table.clear
        checked := (s.tenant t).table.checked + 1
        nClear := (s.tenant t).table.nClear + b2n (v = 1)
        nHit := (s.tenant t).table.nHit + b2n (v = 2)
        nUnsure := (s.tenant t).table.nUnsure + b2n (v = 3) } := by
  unfold State.writeVerdict
  extract_lets s1 s2 s3
  have hstream : Touches [.lynx] s s2 :=
    State.streamWrite_touches s1 _ _ _ _ _ (by decide) (State.streamWrite_touches s _ _ _ _ _ (by decide) (Touches.refl _ _))
  simp only [s3, State.updCand, State.tenant_updTable_self, hstream.tTable t]
  rfl

theorem State.writeVerdict_written {s : State} {t : Fin 16} {id : Nat} {c : Cand} (h : (s.tenant t).table.cand id = some c) (e : Nat)
    (v : BitVec 2) (hit : Byte) (agent : Word) :
    VerdictWritten (s.tenant t).table ((s.writeVerdict e t id v hit agent).tenant t).table id c v hit agent := by
  have htable := s.writeVerdict_table e t id v hit agent
  unfold Table.cand at h
  constructor
  case checked => rw [htable]
  case cand => rw [Table.cand, htable, mfind_mupd_self, h]; rfl
  case clears => intro hv; rw [htable]; simp [hv, mem_sinsert]
  case keeps => intro hv; rw [htable]; exact if_neg hv

theorem State.writeVerdict_engines (s : State) (e : Nat) (t : Fin 16) (id : Nat) (v : BitVec 2) (hit : Byte) (agent : Word) :
    (s.writeVerdict e t id v hit agent).engines = s.engines :=
  (State.writeVerdict_touches s e t id v hit agent (within_refl _) (Touches.refl _ _)).engines

/-! ### A check ends (05 R205, R207, R216; 19 R724, R729) -/

/-- An engine that has given up its check without a verdict. -/
def Engine.freed (k : Engine) : Engine := { k with current := none, spoiled := false }

/-- An engine that has judged its check, which took it `cost` cycles. -/
def Engine.judged (cost : Nat) (k : Engine) : Engine :=
  { k with current := none, spoiled := false, checked := k.checked + 1, busy := k.busy + cost }

/-- What a written verdict brings: the emergency stop may leave the queues, the tenant's result may be IMMINENT, and drains may
retire. -/
def State.afterVerdict (s : State) (t : Fin 16) : State := ((s.releaseStop t).judgeImminent t).pollDrains t

theorem State.afterVerdict_sameChecks (s : State) (t : Fin 16) : SameChecks s (s.afterVerdict t) :=
  ((State.releaseStop_sameChecks s t).trans
    (.of_touches (State.judgeImminent_touches _ t (within_refl _) (Touches.refl _ _)))).trans (State.pollDrains_sameChecks _ t)

section
variable {s : State} {e : Fin 16} {x : Entry} (hheld : s.held = false) (hhalted : s.halted = false)
  (hcurrent : (s.engines.at' e).current = some x)
include hheld hhalted hcurrent

theorem State.endCheck_gone (h : (s.tenant x.tenant).world.view = none ∨ (s.tenant x.tenant).table.cand x.id = none) :
    s.endCheck e = (s.updEngine e.val Engine.freed).pollDrains x.tenant := by
  unfold Engine.freed
  rcases h with h | h
  · simp [State.endCheck, hcurrent, hheld, hhalted, h]
  · cases hview : (s.tenant x.tenant).world.view <;> simp [State.endCheck, hcurrent, hheld, hhalted, h, hview]

variable {v : Sealed} {c : Cand} (hview : (s.tenant x.tenant).world.view = some v)
  (hcand : (s.tenant x.tenant).table.cand x.id = some c)
include hview hcand

theorem State.endCheck_poisoned (h : s.candPoisoned x.tenant x.id = true) :
    s.endCheck e = ((s.updEngine e.val Engine.freed).programFault x.tenant codeMemoryUe).pollDrains x.tenant := by
  unfold Engine.freed
  simp [State.endCheck, hcurrent, hheld, hhalted, hview, hcand, h]

variable (hclean : s.candPoisoned x.tenant x.id = false)
include hclean

theorem State.endCheck_spoiled (h : (s.engines.at' e).spoiled = true) :
    s.endCheck e =
      ((s.updEngine e.val (Engine.judged (s.checkResult x.tenant v c).cost)).writeVerdict e x.tenant x.id 3
        (Config.freeByte s.draws) 0xFFFFFFFF).draw.afterVerdict x.tenant := by
  unfold Engine.judged State.afterVerdict
  simp [State.endCheck, hcurrent, hheld, hhalted, hview, hcand, hclean, h]

theorem State.endCheck_judged (h : (s.engines.at' e).spoiled = false) :
    s.endCheck e =
      ((s.updEngine e.val (Engine.judged (s.checkResult x.tenant v c).cost)).writeVerdict e x.tenant x.id
        (s.checkResult x.tenant v c).verdict (s.checkResult x.tenant v c).firstHit
        (s.checkResult x.tenant v c).hitAgent).afterVerdict x.tenant := by
  unfold Engine.judged State.afterVerdict
  simp [State.endCheck, hcurrent, hheld, hhalted, hview, hcand, hclean, h]

end

/-- A verdict an engine writes as its check ends, with what it brings, stands and leaves the engine free. -/
theorem State.judgement_stands (s : State) (e : Fin 16) {t : Fin 16} {id : Nat} {c : Cand} {u : State} (cost : Nat) (v : BitVec 2)
    (hit : Byte) (agent : Word) (hcand : (s.tenant t).table.cand id = some c)
    (hu : SameChecks ((s.updEngine e.val (Engine.judged cost)).writeVerdict e t id v hit agent) u) :
    (u.engines.at' e).current = none ∧ VerdictWritten (s.tenant t).table (u.tenant t).table id c v hit agent := by
  refine ⟨?_, (State.writeVerdict_written (s := s.updEngine e.val (Engine.judged cost)) hcand e v hit agent).kept hu⟩
  rw [hu.current, State.writeVerdict_engines, State.updEngine_at'_self]
  rfl

/-- With no task in its slots a tenant has no drain to retire. -/
theorem State.pollDrains_of_no_task {s : State} {t : Fin 16} (h : (s.tenant t).sched.tasks = []) :
    Touches [.tSched] s (s.pollDrains t) := by
  unfold State.pollDrains
  extract_lets s1 d
  have hnone : d.tasks = [] := by simp [d, s1, h]
  have hwaits : Touches [.tSched] s s1 := State.updSched_touches s t _ (within_refl _) (Touches.refl _ _)
  rw [hnone]
  exact hwaits

section
variable {s : State} {e : Fin 16} {x : Entry} (hheld : s.held = false) (hhalted : s.halted = false)
  (hcurrent : (s.engines.at' e).current = some x)
include hheld hhalted hcurrent

/-- A check whose tenant or record is gone ends without a verdict (05 R207). -/
theorem State.endCheck_without_record
    (h : (s.tenant x.tenant).world.view = none ∨ (s.tenant x.tenant).table.cand x.id = none) :
    ((s.endCheck e).engines.at' e).current = none ∧ ((s.endCheck e).tenant x.tenant).table = (s.tenant x.tenant).table := by
  have hdrains := State.pollDrains_touches (s.updEngine e.val Engine.freed) x.tenant (within_refl _) (Touches.refl _ _)
  rw [State.endCheck_gone hheld hhalted hcurrent h, hdrains.engines, State.updEngine_at'_self]
  exact ⟨rfl, hdrains.tTable _⟩

variable {v : Sealed} {c : Cand} (hview : (s.tenant x.tenant).world.view = some v)
  (hcand : (s.tenant x.tenant).table.cand x.id = some c)
include hview hcand

/-- A check whose record is poisoned gets no verdict and is a program fault (19 R729). -/
theorem State.endCheck_faults (h : s.candPoisoned x.tenant x.id = true) :
    ((s.endCheck e).engines.at' e).current = none ∧ ((s.endCheck e).tenant x.tenant).table = (s.tenant x.tenant).table ∧
      ((s.endCheck e).tenant x.tenant).out.aborted = true ∧
      ((s.endCheck e).tenant x.tenant).faults = min 255 ((s.tenant x.tenant).faults + 1) := by
  have hfault := State.programFault_faulted (s.updEngine e.val Engine.freed) x.tenant codeMemoryUe
  have hengines := State.programFault_touches (s.updEngine e.val Engine.freed) x.tenant codeMemoryUe (within_refl _) (Touches.refl _ _)
  have hdrains := State.pollDrains_of_no_task (congrArg Sched.tasks hfault.sched)
  obtain ⟨-, -, -, -, -, -, hfaults, -⟩ := hdrains.tState x.tenant
  rw [State.endCheck_poisoned hheld hhalted hcurrent hview hcand h, hdrains.engines, hengines.engines, State.updEngine_at'_self,
    hdrains.tTable, hdrains.tOut, hfaults]
  exact ⟨rfl, hfault.table, hfault.aborted, hfault.faults⟩

variable (hclean : s.candPoisoned x.tenant x.id = false)
include hclean

/-- A check an SRAM error has spoiled ends UNSURE (19 R724). -/
theorem State.endCheck_unsure (h : (s.engines.at' e).spoiled = true) :
    ((s.endCheck e).engines.at' e).current = none ∧
      VerdictWritten (s.tenant x.tenant).table ((s.endCheck e).tenant x.tenant).table x.id c 3 (Config.freeByte s.draws) 0xFFFFFFFF := by
  rw [State.endCheck_spoiled hheld hhalted hcurrent hview hcand hclean h]
  exact State.judgement_stands s e _ _ _ _ hcand
    ((SameChecks.of_touches (State.draw_touches _ (within_refl _) (Touches.refl _ _))).trans (State.afterVerdict_sameChecks _ _))

/-- Any other check ends with the verdict its candidate gets (05 R205). -/
theorem State.endCheck_result (h : (s.engines.at' e).spoiled = false) :
    ((s.endCheck e).engines.at' e).current = none ∧
      VerdictWritten (s.tenant x.tenant).table ((s.endCheck e).tenant x.tenant).table x.id c (s.checkResult x.tenant v c).verdict
        (s.checkResult x.tenant v c).firstHit (s.checkResult x.tenant v c).hitAgent := by
  rw [State.endCheck_judged hheld hhalted hcurrent hview hcand hclean h]
  exact State.judgement_stands s e _ _ _ _ hcand (State.afterVerdict_sameChecks _ _)

end

/-- Whatever a check's end finds, its engine is free after it. -/
theorem State.endCheck_frees {s : State} {e : Fin 16} {x : Entry} (hheld : s.held = false) (hhalted : s.halted = false)
    (hcurrent : (s.engines.at' e).current = some x) : ((s.endCheck e).engines.at' e).current = none := by
  cases hview : (s.tenant x.tenant).world.view with
  | none => exact (State.endCheck_without_record hheld hhalted hcurrent (.inl hview)).1
  | some v =>
    cases hcand : (s.tenant x.tenant).table.cand x.id with
    | none => exact (State.endCheck_without_record hheld hhalted hcurrent (.inr hcand)).1
    | some c =>
      cases hpoison : s.candPoisoned x.tenant x.id with
      | true => exact (State.endCheck_faults hheld hhalted hcurrent hview hcand hpoison).1
      | false =>
        cases hspoiled : (s.engines.at' e).spoiled with
        | true => exact (State.endCheck_unsure hheld hhalted hcurrent hview hcand hpoison hspoiled).1
        | false => exact (State.endCheck_result hheld hhalted hcurrent hview hcand hpoison hspoiled).1

/-- Settles O30: a start by what the next check of the queue is, an end by the record and the state of the check it finds. -/
theorem checksStartAndEndWithAVerdict : Obligations.ChecksStartAndEndWithAVerdict := by
  unfold Obligations.ChecksStartAndEndWithAVerdict
  intro s e hheld hhalted
  refine ⟨fun hbegun hin hserves hfree => ?_, fun x hcurrent => ⟨settle (s.endCheck e), rfl, ?_⟩⟩
  · have hready : EngineReady s e := ⟨hheld, hhalted, hbegun, hin, hserves, hfree⟩
    refine ⟨fun hnone => ⟨State.nextCheck_eq_none hnone, congrArg done (State.startCheck_of_none hready hnone)⟩, fun x hnext => ?_⟩
    obtain ⟨hmem, hcheckable⟩ := State.nextCheck_allowed hnext
    exact ⟨hmem, hcheckable, fun y hy => State.nextCheck_stop_first hnext hy, State.nextCheck_oldest hnext,
      settle (s.startCheck e), rfl, State.startCheck_takes hready hnext⟩
  · simp only [settle_fields, settle_tenant_fields]
    refine ⟨State.endCheck_frees hheld hhalted hcurrent, fun hgone => (State.endCheck_without_record hheld hhalted hcurrent hgone).2,
      fun v c hview hcand => ⟨fun hpoison => (State.endCheck_faults hheld hhalted hcurrent hview hcand hpoison).2, fun hclean => ?_⟩⟩
    have hunsure := fun h => (State.endCheck_unsure hheld hhalted hcurrent hview hcand hclean h).2
    have hresult := fun h => (State.endCheck_result hheld hhalted hcurrent hview hcand hclean h).2
    refine ⟨?_, fun hspoiled => ⟨(hunsure hspoiled).keeps (by decide), _, (hunsure hspoiled).cand⟩, fun hgood r hr => ?_⟩
    · cases hspoiled : (s.engines.at' e).spoiled with
      | true => exact (hunsure hspoiled).checked
      | false => exact (hresult hspoiled).checked
    · subst hr
      exact ⟨(hresult hgood).cand, (hresult hgood).clears, (hresult hgood).keeps⟩

end Sys2Proof.Machine
end

section
/-! SUPPORT. The inputs of a frame: MEASURE, SHAPE and SIGNAL (06 R238; 08 R319 to R321; 11 R432, R433; 14 R529). -/
namespace Sys2Proof.Machine
open Sys2Proof

/-! ### What each command does (06 R237, R238; 08 R319 to R321; 11 R432) -/

section
variable {s : State} {t : Fin 16} {tag : Nat} {c : Cmd} (hheld : s.held = false)
include hheld

theorem State.measureCmd_of_reserved (hcmd : s.cmdFor t tag 4 = some c) (h : cmdField c.word 36 20 ≠ 0) :
    s.measureCmd t tag = s.completeCmd t c codeBad (errDetail 36 false) := by
  simp [State.measureCmd, hcmd, hheld, h, State.refuseCmd]

theorem State.measureCmd_of_passed (hcmd : s.cmdFor t tag 4 = some c) (h : cmdField c.word 36 20 = 0)
    (hpassed : s.framePassed c = true) : s.measureCmd t tag = s.completeCmd t c codePassed 0 := by
  simp [State.measureCmd, hcmd, hheld, h, hpassed]

theorem State.measureCmd_of_waits (hcmd : s.cmdFor t tag 4 = some c) (h : cmdField c.word 36 20 = 0)
    (hpassed : s.framePassed c = false) (hwaits : s.waitsForD0 c.stamp = true) : s.measureCmd t tag = s.holdCmd t c [] := by
  simp [State.measureCmd, hcmd, hheld, h, hpassed, hwaits]

theorem State.measureCmd_of_due (hcmd : s.cmdFor t tag 4 = some c) (h : cmdField c.word 36 20 = 0)
    (hpassed : s.framePassed c = false) (hwaits : s.waitsForD0 c.stamp = false) : s.measureCmd t tag = s.applyMeasure t c := by
  simp [State.measureCmd, hcmd, hheld, h, hpassed, hwaits]

theorem State.shapeCmd_of_passed (hcmd : s.cmdFor t tag 5 = some c) (hpassed : s.framePassed c = true) :
    s.shapeCmd t tag = s.completeCmd t c codePassed 0 := by
  simp [State.shapeCmd, hcmd, hheld, hpassed]

theorem State.shapeCmd_of_waits (hcmd : s.cmdFor t tag 5 = some c) (hpassed : s.framePassed c = false)
    (hwaits : s.waitsForD0 c.stamp = true) : s.shapeCmd t tag = s.holdCmd t c [] := by
  simp [State.shapeCmd, hcmd, hheld, hpassed, hwaits]

theorem State.shapeCmd_of_due (hcmd : s.cmdFor t tag 5 = some c) (hpassed : s.framePassed c = false)
    (hwaits : s.waitsForD0 c.stamp = false) : s.shapeCmd t tag = s.applyShape t c := by
  simp [State.shapeCmd, hcmd, hheld, hpassed, hwaits]

theorem State.signalCmd_of_waits (hcmd : s.cmdFor t tag 9 = some c) (hwaits : s.waitsForD0 c.stamp = true) :
    s.signalCmd t tag = s.holdCmd t c [] := by
  simp [State.signalCmd, hcmd, hheld, hwaits]

theorem State.signalCmd_of_early (hcmd : s.cmdFor t tag 9 = some c) (hwaits : s.waitsForD0 c.stamp = false)
    (hturn : s.signalTurn t c = false) : s.signalCmd t tag = s := by
  simp [State.signalCmd, hcmd, hheld, hwaits, hturn]

theorem State.signalCmd_of_turn (hcmd : s.cmdFor t tag 9 = some c) (hwaits : s.waitsForD0 c.stamp = false)
    (hturn : s.signalTurn t c = true) : s.signalCmd t tag = s.applySignal t c := by
  simp [State.signalCmd, hcmd, hheld, hwaits, hturn]

end

/-! ### An input that takes effect -/

section
variable {s : State} {t : Fin 16} {c : Cmd}

/-- The commands of a tenant once one of them is held without data. -/
theorem State.holdCmd_cmds (data : List Byte) : ((s.holdCmd t c data).tenant t).cmds =
    (s.tenant t).cmds.map fun e => if e.tag = c.tag then { e with waiting := true, data := data } else e := by
  simp only [State.holdCmd, State.tenant_updTenant_self]

theorem State.holdCmd_own (data : List Byte) : Touches [.tCmds] s (s.holdCmd t c data) :=
  State.holdCmd_touches s t c data (within_refl _) (Touches.refl _ _)

/-- An accepted input is noted for the frame's chain and completes. -/
theorem State.noteInput_completeCmd_own (frame order op : Nat) (d : List Byte) (code : Byte) (detail : BitVec 160) :
    Touches [.regs, .shadow, .dirty, .attn, .tSpoor, .tQueues, .tCmds] s
      ((s.noteInput t frame order op d).completeCmd t c code detail) :=
  State.completeCmd_touches _ t c code detail (by decide) (State.noteInput_touches s t frame order op d (by decide) (Touches.refl _ _))

/-- An input that leaves the queues and the commands alone completes once it is noted. -/
theorem Completes.noted {l : List Part} {v : State} {frame order op : Nat} {d : List Byte} {code : Byte} {detail : BitVec 160}
    (h : Touches l s v) (hlive : (s.queue t c.q).dying = false) (hspoor : l.contains .tSpoor = true := by decide)
    (hq : l.contains .tQueues = false := by decide) (hc : l.contains .tCmds = false := by decide) :
    Completes s (settle ((v.noteInput t frame order op d).completeCmd t c code detail)) t c code detail :=
  Completes.after (State.noteInput_touches v t frame order op d (by simpa [Within] using hspoor) h) hlive hq hc

/-- The block of the later doorbell stands for the frame of the command (06 R238). -/
theorem State.applyMeasure_solver : ((s.applyMeasure t c).tenant t).solver =
    if c.stamp.frame ≤ s.frame.seq
    then { (s.tenant t).solver with meas := newer (s.tenant t).solver.meas c.stamp.order c.measure }
    else { (s.tenant t).solver with measNext := newer (s.tenant t).solver.measNext c.stamp.order c.measure } := by
  rw [State.applyMeasure, (State.noteInput_completeCmd_own _ _ _ _ _ _).tSolver t,
    (State.remeasureStops_touches _ t (within_refl _) (Touches.refl _ _)).tSolver t, State.tenant_updSolver_self]

theorem State.applyMeasure_completes (hlive : (s.queue t c.q).dying = false) :
    Completes s (settle (s.applyMeasure t c)) t c codeOk 0 :=
  Completes.noted (l := [.tTable, .tSolver, .tSpoor])
    (State.remeasureStops_touches _ t (by decide) (State.updSolver_touches s t _ (by decide) (Touches.refl _ _))) hlive

/-- The four dimensions that a SHAPE names (08 R319). -/
def Cmd.shapeDims (c : Cmd) : List Nat := (List.range 4).map fun i => cmdField c.word (24 + 4 * i) 4

section
variable {b : Nat} (h : ((s.programFor t c.stamp.frame).bind fun p => bucketFor p.image c.shapeDims) = some b)
include h

theorem State.applyShape_completes (hlive : (s.queue t c.q).dying = false) :
    Completes s (settle (s.applyShape t c)) t c codeOk (BitVec.ofNat 160 b) := by
  rw [Cmd.shapeDims] at h
  simp only [State.applyShape, h]
  exact Completes.noted (l := [.tSched, .tSpoor]) (State.updSched_touches s t _ (by decide) (Touches.refl _ _)) hlive

/-- The dimensions of the later doorbell stand for the frame of the command, with their bucket (08 R319, R320). -/
theorem State.applyShape_sched : ((s.applyShape t c).tenant t).sched =
    if c.stamp.frame ≤ s.frame.seq
    then { (s.tenant t).sched with shape := newer (s.tenant t).sched.shape c.stamp.order (c.shapeDims, b) }
    else { (s.tenant t).sched with shapeNext := newer (s.tenant t).sched.shapeNext c.stamp.order (c.shapeDims, b) } := by
  rw [Cmd.shapeDims] at *
  simp only [State.applyShape, h]
  rw [(State.noteInput_completeCmd_own _ _ _ _ _ _).tSched t, State.tenant_updSched_self]

end

theorem State.applyShape_of_no_bucket
    (h : ((s.programFor t c.stamp.frame).bind fun p => bucketFor p.image c.shapeDims) = none) :
    s.applyShape t c = s.completeCmd t c codeNoBucket 0 := by
  rw [Cmd.shapeDims] at h
  simp only [State.applyShape, h]

theorem State.applySignal_completes (hlive : (s.queue t c.q).dying = false) :
    Completes s (settle (s.applySignal t c)) t c codeOk 0 :=
  Completes.noted (l := [.tSched, .tSpoor]) (State.setSignal_touches s t _ (by decide) (Touches.refl _ _)) hlive

/-- The bits a SIGNAL names to be cleared are cleared before those it names to be set are set (11 R432). -/
theorem State.applySignal_signal : ((s.applySignal t c).tenant t).sched.signal =
    ((s.tenant t).sched.signal &&& ~~~ BitVec.ofNat 32 (cmdField c.word 28 4)) ||| BitVec.ofNat 32 (cmdField c.word 24 4) := by
  rw [State.applySignal, (State.noteInput_completeCmd_own _ _ _ _ _ _).tSched t, State.setSignal, State.tenant_updSched_self]

end

/-- Settles O22: each command by the order of its tests, what it leaves by the one part it writes. -/
theorem frameInputsTakeEffect : Obligations.FrameInputsTakeEffect := by
  unfold Obligations.FrameInputsTakeEffect
  rintro s t tag c hheld hlive _ rfl
  refine ⟨fun hcmd => ⟨settle (s.measureCmd t tag), rfl, fun hbad => ?_, fun hgood hpassed => ?_, fun hgood hpassed hwaits => ?_,
      fun hgood hpassed hwaits => ?_⟩,
    fun hcmd => ⟨settle (s.shapeCmd t tag), rfl, fun hpassed => ?_, fun hpassed hwaits => ?_, fun hpassed hwaits dims hdims => ?_⟩,
    fun hcmd => ⟨settle (s.signalCmd t tag), rfl, fun hwaits => ?_, fun hwaits hturn => ?_, fun hwaits hturn => ?_⟩⟩
  · rw [State.measureCmd_of_reserved hheld hcmd hbad]
    exact ⟨by simp only [settle_tenant_fields, (State.completeCmd_own s t c _ _).tSolver t], Completes.atOnce hlive⟩
  · rw [State.measureCmd_of_passed hheld hcmd hgood hpassed]
    exact ⟨by simp only [settle_tenant_fields, (State.completeCmd_own s t c _ _).tSolver t], Completes.atOnce hlive⟩
  · rw [State.measureCmd_of_waits hheld hcmd hgood hpassed hwaits]
    simp only [settle_tenant_fields, (State.holdCmd_own _).tSolver t, State.holdCmd_cmds, and_self]
  · rw [State.measureCmd_of_due hheld hcmd hgood hpassed hwaits]
    exact ⟨State.applyMeasure_completes hlive, by simp only [settle_tenant_fields, State.applyMeasure_solver]⟩
  · rw [State.shapeCmd_of_passed hheld hcmd hpassed]
    simp only [settle_sched_fields, (State.completeCmd_own s t c _ _).tSched t, true_and]
    exact Completes.atOnce hlive
  · rw [State.shapeCmd_of_waits hheld hcmd hpassed hwaits]
    simp only [settle_sched_fields, settle_tenant_fields, (State.holdCmd_own _).tSched t, State.holdCmd_cmds, and_self]
  · rw [State.shapeCmd_of_due hheld hcmd hpassed hwaits]
    subst hdims
    refine ⟨fun b hb => ⟨State.applyShape_completes hb hlive, ?_⟩, fun hnone => ?_⟩
    · simp only [settle_sched_fields, State.applyShape_sched hb]
      split
      · rfl
      · rfl
    · rw [State.applyShape_of_no_bucket hnone]
      simp only [settle_sched_fields, (State.completeCmd_own s t c _ _).tSched t, true_and]
      exact Completes.atOnce hlive
  · rw [State.signalCmd_of_waits hheld hcmd hwaits]
    simp only [settle_sched_fields, settle_tenant_fields, (State.holdCmd_own _).tSched t, State.holdCmd_cmds, and_self]
  · rw [State.signalCmd_of_early hheld hcmd hwaits hturn]
  · rw [State.signalCmd_of_turn hheld hcmd hwaits hturn]
    exact ⟨State.applySignal_completes hlive, by simp only [settle_sched_fields, State.applySignal_signal]⟩

end Sys2Proof.Machine
end

section
/-! SUPPORT. The end of a task (10 R380, R382, R385, R387): what holds through it, by its single steps. -/
namespace Sys2Proof.Machine
open Sys2Proof

/-! ### An induction over the steps of a task's end -/

/-- A property of the state that every step of a task's end keeps. The tasks such a step moves are those that are not complete; `P` holds
of their indices. -/
structure TaskSteps (t : Fin 16) (I : State → Prop) (P : Nat → Prop) : Prop where
  active : ∀ {s}, I s → ∀ x ∈ (s.tenant t).sched.tasks, x.st ≠ .complete → P x.index
  trace : ∀ {s} kind i, I s → I (s.trace kind t i)
  tags : ∀ {s} f, I s → I (s.updCascade f)
  cut : ∀ {s} k, I s → I (s.cut t k)
  part : ∀ {s} p, I s → I (s.putPart p)
  task : ∀ {s} i (f : Sched → Task → Task), P i → (∀ d k, (f d k).index = k.index) → I s → I (s.updSched t fun d => d.updTask i (f d))
  retire : ∀ {s} i flag, I s → I (s.updSched t fun d => d.retire i flag)
  fail : ∀ {s u} code, s.coreFor t 0 = none → I s → I u → I (u.failFrame t code)

/-- What every step over a list keeps holds after all of them. -/
theorem State.forEach_induction {α : Type} {I : State → Prop} {l : List α} {f : State → α → State} (hf : ∀ u, I u → ∀ a ∈ l, I (f u a))
    {s : State} (hs : I s) : I (s.forEach l f) := by
  unfold State.forEach
  induction l generalizing s with
  | nil => exact hs
  | cons a r ih => exact ih (fun u hu b hb => hf u hu b (List.mem_cons_of_mem _ hb)) (hf s hs a List.mem_cons_self)

/-- The first satisfied WAIT is one that waits. -/
theorem Sched.firstSatisfied_waits {d : Sched} {i : Nat} (h : d.firstSatisfied = some i) :
    ∃ x ∈ d.tasks, x.index = i ∧ x.st = .waiting := by
  have hfold : ∀ (l : List Nat) (b : Option Nat), l.foldl
      (fun b i => match b with | none => some i | some j => if waitBefore d i j then some i else some j) b = some i →
      b = some i ∨ i ∈ l := by
    intro l
    induction l with
    | nil => exact fun b hb => .inl hb
    | cons a r ih =>
      intro b hb
      rcases ih _ hb with hstep | hr
      · cases b with
        | none => exact .inr (List.mem_cons.mpr (.inl (Option.some.inj hstep).symm))
        | some j =>
          by_cases hbefore : waitBefore d a j = true
          · exact .inr (List.mem_cons.mpr (.inl (by simpa [hbefore] using hstep.symm)))
          · exact .inl (by simpa [hbefore] using hstep)
      · exact .inr (List.mem_cons_of_mem _ hr)
  rcases hfold _ _ h with hnone | hmem
  · exact absurd hnone (by simp)
  · obtain ⟨x, hx, rfl⟩ := List.mem_map.mp hmem
    obtain ⟨hx, hst⟩ := List.mem_filter.mp hx
    exact ⟨x, hx, rfl, by simp_all⟩

namespace TaskSteps
variable {t : Fin 16} {I : State → Prop} {P : Nat → Prop} (h : TaskSteps t I P)
include h

theorem traceTask {s : State} (kind i vcore ident arg : Nat) (hs : I s) : I (s.traceTask kind t i vcore ident arg) := h.trace _ _ hs

theorem endTask {s : State} {i : Nat} (status : Byte) (hi : P i) (hs : I s) : I (s.endTask t i status) :=
  h.task i _ hi (fun _ _ => rfl) hs

theorem noteCut {s : State} (k i : Nat) (hs : I s) : I (s.noteCut t k i) := h.traceTask _ _ _ _ _ (h.cut k hs)

theorem makeReady {s : State} {i : Nat} (hi : P i) (hs : I s) : I (s.makeReady t i) := by
  unfold State.makeReady
  extract_lets d w
  split
  · exact hs
  · rename_i u us v hn
    have hu : I u := h.task i _ hi (fun _ _ => rfl) hs
    have ht : I (u.traceTask 2 t i 0x3F 0 0) := h.traceTask _ _ _ _ _ hu
    split
    · exact h.endTask _ hi (h.noteCut _ _ ht)
    · split
      · exact ht
      · split
        · exact h.endTask _ hi ht
        · split
          next hnone => exact h.fail _ (Option.isNone_iff_eq_none.mp hnone) hu (h.endTask _ hi ht)
          next => exact State.forEach_induction (fun w hw a _ => h.traceTask _ _ _ _ _ (h.part _ hw)) (h.task i _ hi (fun _ _ => rfl) hu)

theorem wakeBlocked {s : State} (hs : I s) : I (s.wakeBlocked t) := by
  refine State.forEach_induction (fun u hu i hi => ?_) hs
  obtain ⟨x, hx, rfl⟩ := List.mem_map.mp hi
  obtain ⟨hmem, hst⟩ := List.mem_filter.mp hx
  have hblocked : x.st = .blocked := by simp at hst; exact hst.1
  exact h.makeReady (h.active hs x hmem (by simp [hblocked])) hu

theorem retireTask {s : State} (i : Nat) (status : Byte) (flag : Bool) (hs : I s) : I (s.retireTask t i status flag) :=
  h.wakeBlocked (h.retire i flag (h.tags _ (h.traceTask _ _ _ _ _ hs)))

theorem wakeWaits (n : Nat) {s : State} (hs : I s) : I (s.wakeWaits t n) := by
  induction n generalizing s with
  | zero => exact hs
  | succ n ih =>
    unfold State.wakeWaits
    dsimp only
    split
    · exact hs
    · rename_i i hfirst
      obtain ⟨x, hx, rfl, hst⟩ := Sched.firstSatisfied_waits hfirst
      have hend (w : BitVec 256) (arg : Nat) := h.task x.index
        (fun d k => { k with st := .complete, status := codeOk, took := consumed d.flags w })
        (h.active hs x hx (by simp [hst])) (fun _ _ => rfl) (h.traceTask 6 x.index 0x3F arg 0 hs)
      refine ih ?_
      split
      · exact h.retireTask _ _ _ (hend _ _)
      · exact hend _ _

theorem evalWaits {s : State} (hs : I s) : I (s.evalWaits t) := by
  unfold State.evalWaits
  split
  · exact hs
  · exact h.wakeWaits _ hs

theorem retireFree {s : State} (i : Nat) (hs : I s) : I (s.retireFree t i) := by
  unfold State.retireFree
  dsimp only
  split
  · split
    · exact h.retireTask _ _ _ hs
    · exact hs
  · exact hs

theorem tryRetire {s : State} (i : Nat) (hs : I s) : I (s.tryRetire t i) := h.evalWaits (h.retireFree i hs)

theorem finishTask {s : State} {i : Nat} (status : Byte) (hi : P i) (hs : I s) : I (s.finishTask t i status) :=
  h.tryRetire i (h.endTask status hi hs)

end TaskSteps

/-! ### A task whose group waits (10 R385) -/

/-- Every task of an index is complete with a status. -/
def Sched.Ended (d : Sched) (i : Nat) (status : Byte) : Prop := ∀ x ∈ d.tasks, x.index = i → x.st = .complete ∧ x.status = status

theorem Sched.retire_tasks (d : Sched) (i : Nat) (flag : Bool) : (d.retire i flag).tasks = d.tasks.filter fun k => k.index ≠ i := by
  unfold Sched.retire
  dsimp only
  (repeat' split) <;> rfl

theorem Sched.updTask_ended {d : Sched} {i j : Nat} {status : Byte} {f : Task → Task} (hj : j ≠ i)
    (hf : ∀ k : Task, (f k).index = k.index) (h : d.Ended i status) : (d.updTask j f).Ended i status := by
  intro x hx hi
  obtain ⟨y, hy, rfl⟩ := List.mem_map.mp hx
  by_cases hyj : y.index = j
  · rw [if_pos hyj, hf] at hi
    exact absurd (hyj.symm.trans hi) hj
  · rw [if_neg hyj] at hi ⊢
    exact h y hy hi

theorem State.putPart_touches_units (s : State) (p : PartRef) : Touches [.regs, .cores] s (s.putPart p) :=
  State.putPart_touches s p (within_refl _) (Touches.refl _ _)

theorem State.trace_own (s : State) (kind : Nat) (t : Fin 16) (i : TraceInfo) : Touches [.draws, .regs, .dram] s (s.trace kind t i) :=
  State.trace_touches s kind t i (within_refl _) (Touches.refl _ _)

/-- An abort leaves its tenant without tasks (10 R399). -/
theorem State.failFrame_tasks (s : State) (t : Fin 16) (code : Byte) : ((s.failFrame t code).tenant t).sched.tasks = [] := by
  have hverdict : Touches [.safe, .tOut] (s.abortTasks t code) (s.failFrame t code) :=
    State.judgeImminent_touches _ t (by decide) (State.updOut_touches _ t _ (by decide) (Touches.refl _ _))
  rw [hverdict.tSched t, (State.abortTasks_tenant s t code).1]

/-- A task that has ended stays so while others end. -/
theorem taskSteps_ended (t : Fin 16) (i : Nat) (status : Byte) :
    TaskSteps t (fun s => (s.tenant t).sched.Ended i status) (· ≠ i) where
  active hs x hx hst hi := hst (hs x hx hi).1
  trace kind j hs := by rwa [(State.trace_own _ kind t j).tSched t]
  tags f hs := hs
  cut k hs := by simpa [State.cut] using hs
  part p hs := by rwa [(State.putPart_touches_units _ p).tSched t]
  task j f hj hf hs := by
    simp only [State.tenant_updSched_self]
    exact Sched.updTask_ended hj (hf _) hs
  retire j flag hs := by
    simp only [State.tenant_updSched_self]
    intro x hx hi
    rw [Sched.retire_tasks] at hx
    exact hs x (List.mem_filter.mp hx).1 hi
  fail code _ _ _ := by
    simp only [Sched.Ended, State.failFrame_tasks]
    exact fun x hx => absurd hx List.not_mem_nil

theorem Sched.task_updTask (d : Sched) (i j : Nat) {f : Task → Task} (hf : ∀ k : Task, (f k).index = k.index) :
    (d.updTask i f).task j = (d.task j).map fun k => if k.index = i then f k else k := by
  unfold Sched.task Sched.updTask
  rw [List.find?_map]
  refine congrArg (Option.map _) (List.find?_congr fun k _ => ?_)
  simp only [Function.comp]
  split
  · rw [hf]
  · rfl

/-- The end of a task's own work leaves its group as it was: the group looks at earlier tasks alone. -/
theorem Sched.groupFree_updTask (d : Sched) (i : Nat) {f : Task → Task} (hf : ∀ k : Task, (f k).index = k.index) :
    (d.updTask i f).groupFree i = d.groupFree i := by
  have hcut : ∀ j ∈ List.range i, (d.updTask i f).wasCut j = d.wasCut j := by
    intro j hj
    unfold Sched.wasCut
    rw [Sched.task_updTask d i j hf]
    cases hfind : d.task j with
    | none => rfl
    | some k =>
      have hk : k.index ≠ i := by
        have hkj : k.index = j := by simpa using List.find?_some hfind
        have := List.mem_range.mp hj
        omega
      simp only [Option.map_some, if_neg hk]
  unfold Sched.groupFree
  dsimp only
  refine congrArg _ ?_
  rw [Bool.eq_iff_iff, List.all_eq_true, List.all_eq_true]
  refine forall_congr' fun j => forall_congr' fun hj => ?_
  rw [hcut j hj]
  rfl

section
variable {s : State} {t : Fin 16} {i : Nat} (status : Byte)

theorem State.endTask_sched : ((s.endTask t i status).tenant t).sched =
    (s.tenant t).sched.updTask i fun k => { k with st := .complete, status := status, partsLeft := 0 } := by
  simp only [State.endTask, State.tenant_updSched_self]

theorem State.endTask_ended : ((s.endTask t i status).tenant t).sched.Ended i status := by
  intro x hx hi
  rw [State.endTask_sched] at hx
  obtain ⟨y, -, rfl⟩ := List.mem_map.mp hx
  split at hi
  next hy => rw [if_pos hy]; exact ⟨rfl, rfl⟩
  next hy => exact absurd hi hy

theorem State.endTask_groupFree : ((s.endTask t i status).tenant t).sched.groupFree i = (s.tenant t).sched.groupFree i := by
  rw [State.endTask_sched]
  exact Sched.groupFree_updTask _ i fun _ => rfl

/-- A task whose group is free retires as its work ends (10 R385). -/
theorem State.finishTask_retires {x : Task} (hx : (s.tenant t).sched.task i = some x) (hfree : (s.tenant t).sched.groupFree i = true) :
    i ∈ ((s.finishTask t i status).tenant t).sched.retired := by
  have hindex : x.index = i := by simpa using List.find?_some hx
  refine State.tryRetire_retired _ t i (k := { x with st := .complete, status := status, partsLeft := 0 }) ?_ rfl ?_
  · rw [State.endTask_sched, Sched.task_updTask _ i i (by exact fun _ => rfl), hx, Option.map_some, if_pos hindex]
  · rw [State.endTask_groupFree, hfree]

/-- A task whose group is not free stays complete with its status (10 R385). -/
theorem State.finishTask_ended (hfree : (s.tenant t).sched.groupFree i = false) :
    ((s.finishTask t i status).tenant t).sched.Ended i status := by
  have hstays : (s.endTask t i status).retireFree t i = s.endTask t i status := by
    unfold State.retireFree
    dsimp only
    rw [State.endTask_groupFree, hfree]
    split
    · simp
    · rfl
  rw [State.finishTask, State.tryRetire, hstays]
  exact (taskSteps_ended t i status).evalWaits (State.endTask_ended status)

end

end Sys2Proof.Machine
end

section
/-! SUPPORT. What the end of a task leaves of Bear and Jay: counts and results stand, and what an abort takes is gone (06 R262; 07 R289). -/
namespace Sys2Proof.Machine
open Sys2Proof

/-! ### Work that an abort takes out of the engines -/

/-- A tenant's solver side once its frame is aborted: its finished slots alone stand (06 R262). -/
def Solver.dropped (v : Solver) : Solver := { v with issued := [], slots := v.slots.filter fun k => k.st = .finished }

/-- A tenant's selections once its frame is aborted: no request waits (07 R289). -/
def Selection.dropped (v : Selection) : Selection := { v with issued := [], collectives := [] }

theorem Solver.dropped_dropped (v : Solver) : v.dropped.dropped = v.dropped := by
  simp [Solver.dropped, List.filter_filter]

/-- Between two states Bear and Jay have at most lost work of tenants: no solve and no run is new, a failed run stays failed, and a tenant's
solver side and selections are as they were or what an abort leaves of them. -/
structure EnginesShed (s u : State) : Prop where
  solve : ∀ i v, (u.bear i).solve = some v → (s.bear i).solve = some v
  run : ∀ i r, (u.jay i).run = some r → ∃ r', (s.jay i).run = some r' ∧ (r'.failed.isSome = true → r.failed.isSome = true)
  solver : ∀ k, (u.tenant k).solver = (s.tenant k).solver ∨ (u.tenant k).solver = (s.tenant k).solver.dropped
  sel : ∀ k, (u.tenant k).sel = (s.tenant k).sel ∨ (u.tenant k).sel = (s.tenant k).sel.dropped

namespace EnginesShed
variable {s u w : State}

theorem refl (s : State) : EnginesShed s s := ⟨fun _ _ h => h, fun _ r h => ⟨r, h, id⟩, fun _ => .inl rfl, fun _ => .inl rfl⟩

theorem trans (h : EnginesShed s u) (k : EnginesShed u w) : EnginesShed s w where
  solve i v hv := h.solve i v (k.solve i v hv)
  run i r hr := by
    obtain ⟨r', hr', hf'⟩ := k.run i r hr
    obtain ⟨r'', hr'', hf''⟩ := h.run i r' hr'
    exact ⟨r'', hr'', hf' ∘ hf''⟩
  solver i := by
    rcases h.solver i with h1 | h1 <;> rcases k.solver i with k1 | k1 <;> simp [h1, k1, Solver.dropped_dropped]
  sel i := by
    rcases h.sel i with h1 | h1 <;> rcases k.sel i with k1 | k1 <;> simp [h1, k1, Selection.dropped]

/-- What leaves the two engines and the tenants' sides of them alone. -/
theorem of_touches {l : List Part} (h : Touches l s u)
    (hl : ([.bears, .jays, .tSolver, .tSel] : List Part).all (fun p => ! l.contains p) = true := by decide) : EnginesShed s u := by
  have hp : ∀ p ∈ [Part.bears, .jays, .tSolver, .tSel], l.contains p = false := fun p hp => by simpa using List.all_eq_true.mp hl p hp
  refine ⟨fun i v hv => ?_, fun i r hr => ⟨r, ?_, id⟩, fun k => .inl (h.tSolver k (hp _ (by decide))), fun k => .inl (h.tSel k (hp _ (by decide)))⟩
  · rwa [State.bear, ← h.bears (hp _ (by decide)), ← State.bear]
  · rwa [State.jay, ← h.jays (hp _ (by decide)), ← State.jay]

theorem touch (h : EnginesShed s u) {l : List Part} (k : Touches l u w)
    (hl : ([.bears, .jays, .tSolver, .tSel] : List Part).all (fun p => ! l.contains p) = true := by decide) : EnginesShed s w :=
  h.trans (of_touches k hl)

section
variable {l : List Part} (t : Fin 16) (h : Touches l s u)
  (hl : ([.bears, .jays, .tSolver, .tSel] : List Part).all (fun p => ! l.contains p) = true)
include h hl

/-- A tenant's solver side that changes the same way before and after what leaves the engines alone. -/
theorem updSolver (f : Solver → Solver) : EnginesShed (s.updSolver t f) (u.updSolver t f) := by
  have hp : ∀ p ∈ [Part.bears, .jays, .tSolver, .tSel], l.contains p = false := fun p hp => by simpa using List.all_eq_true.mp hl p hp
  have hsolver k := h.tSolver k (hp _ (by decide))
  have hsel k := h.tSel k (hp _ (by decide))
  refine ⟨(of_touches h hl).solve, (of_touches h hl).run, fun k => .inl ?_, fun k => .inl ?_⟩
  all_goals
    by_cases hk : t = k
    · subst hk
      simp only [State.tenant_updSolver_self, hsolver, hsel]
    · simp only [State.tenant_updSolver_ne _ hk, hsolver, hsel]

/-- A tenant's selections that change the same way before and after what leaves the engines alone. -/
theorem updSel (f : Selection → Selection) : EnginesShed (s.updSel t f) (u.updSel t f) := by
  have hp : ∀ p ∈ [Part.bears, .jays, .tSolver, .tSel], l.contains p = false := fun p hp => by simpa using List.all_eq_true.mp hl p hp
  have hsolver k := h.tSolver k (hp _ (by decide))
  have hsel k := h.tSel k (hp _ (by decide))
  refine ⟨(of_touches h hl).solve, (of_touches h hl).run, fun k => .inl ?_, fun k => .inl ?_⟩
  all_goals
    by_cases hk : t = k
    · subst hk
      simp only [State.tenant_updSel_self, hsolver, hsel]
    · simp only [State.tenant_updSel_ne _ hk, hsolver, hsel]

end

theorem solve_none (h : EnginesShed s u) {i : Nat} (hs : (s.bear i).solve = none) : (u.bear i).solve = none := by
  cases hu : (u.bear i).solve with
  | none => rfl
  | some v => exact absurd (h.solve i v hu) (by simp [hs])

theorem run_none (h : EnginesShed s u) {i : Nat} (hs : (s.jay i).run = none) : (u.jay i).run = none := by
  cases hu : (u.jay i).run with
  | none => rfl
  | some r =>
    obtain ⟨r', hr', -⟩ := h.run i r hu
    exact absurd hr' (by simp [hs])

/-- The counts of a tenant's solver side stand. -/
theorem counts (h : EnginesShed s u) (k : Fin 16) : (u.tenant k).solver.solved = (s.tenant k).solver.solved ∧
    (u.tenant k).solver.notConverged = (s.tenant k).solver.notConverged ∧
    (u.tenant k).solver.illPosed = (s.tenant k).solver.illPosed ∧ (u.tenant k).solver.other = (s.tenant k).solver.other := by
  rcases h.solver k with h1 | h1 <;> rw [h1] <;> exact ⟨rfl, rfl, rfl, rfl⟩

/-- No slot is new. -/
theorem slots (h : EnginesShed s u) (k : Fin 16) : ∀ x ∈ (u.tenant k).solver.slots, x ∈ (s.tenant k).solver.slots := by
  rcases h.solver k with h1 | h1 <;> rw [h1]
  · exact fun x hx => hx
  · exact fun x hx => (List.mem_filter.mp hx).1

/-- The counts and the results of a tenant's selections stand. -/
theorem results (h : EnginesShed s u) (k : Fin 16) : (u.tenant k).sel.ok = (s.tenant k).sel.ok ∧
    (u.tenant k).sel.approx = (s.tenant k).sel.approx ∧ (u.tenant k).sel.cut = (s.tenant k).sel.cut ∧
    (u.tenant k).sel.other = (s.tenant k).sel.other ∧ (u.tenant k).sel.finalIssued = (s.tenant k).sel.finalIssued ∧
    (u.tenant k).sel.finalResult = (s.tenant k).sel.finalResult := by
  rcases h.sel k with h1 | h1 <;> rw [h1] <;> exact ⟨rfl, rfl, rfl, rfl, rfl, rfl⟩

end EnginesShed

/-! ### Aborts -/

theorem bget_map {α : Type} {n : Nat} (d : α) (b : Bank α n) (f : α → α) (hd : f d = d) (i : Nat) :
    bget d (b.map f) i = f (bget d b i) := by
  unfold bget
  split
  · exact Vector.getElem_map _ _
  · exact hd.symm

theorem BearUnit.dropTenant_solve {b : BearUnit} {t : Fin 16} {v : Solve} (h : (b.dropTenant t).solve = some v) :
    b.solve = some v ∧ v.tenant ≠ t := by
  unfold BearUnit.dropTenant at h
  split at h
  · split at h
    · exact absurd h (by simp)
    · simp_all
  · simp_all

theorem JayUnit.dropTenant_run {j : JayUnit} {t : Fin 16} {r : SelRun} (h : (j.dropTenant t).run = some r) :
    j.run = some r ∧ r.req.tenant ≠ t := by
  unfold JayUnit.dropTenant at h
  simp only at h
  split at h
  · split at h
    · exact absurd h (by simp)
    · simp_all
  · simp_all

/-- What is left of Bear, Jay and the tenants' sides of them once a tenant's work is dropped (06 R262; 07 R289). -/
structure WorkDropped (t : Fin 16) (s u : State) : Prop where
  bear : ∀ i, u.bear i = (s.bear i).dropTenant t
  jay : ∀ i, u.jay i = (s.jay i).dropTenant t
  solver : (u.tenant t).solver = (s.tenant t).solver.dropped
  sel : (u.tenant t).sel = (s.tenant t).sel.dropped
  others : ∀ k, k ≠ t → (u.tenant k).solver = (s.tenant k).solver ∧ (u.tenant k).sel = (s.tenant k).sel

theorem State.dropWork_drops (s : State) (t : Fin 16) : WorkDropped t s (s.dropWork t) := by
  unfold State.dropWork
  extract_lets s1 cores s2 s3 s4
  have hparts : Touches [.cores] s s1 := State.dropParts_touches s t _ (within_refl _) (Touches.refl _ _)
  have hunits : Touches [.cores, .bears, .jays] s s2 := Touches.set_cores_bears_jays s1 _ _ _ (by decide)
    (State.dropParts_touches s t _ (by decide) (Touches.refl _ _))
  have hsearch : Touches [.tSearch] s2 s3 := State.updSearch_touches s2 t _ (within_refl _) (Touches.refl _ _)
  constructor
  case bear => exact fun i => (bget_map _ s1.bears _ rfl i).trans (by rw [hparts.bears]; rfl)
  case jay => exact fun i => (bget_map _ s1.jays _ rfl i).trans (by rw [hparts.jays]; rfl)
  case solver =>
    simp only [State.tenant_updSel_self, s4, State.tenant_updSolver_self, hsearch.tSolver t, hunits.tSolver t]
    rfl
  case sel =>
    simp only [State.tenant_updSel_self, s4, State.tenant_updSolver_self, hsearch.tSel t, hunits.tSel t]
    rfl
  case others =>
    intro k hk
    rw [State.tenant_updSel_ne _ hk.symm, State.tenant_updSolver_ne _ hk.symm, hsearch.tSolver k, hunits.tSolver k, hsearch.tSel k,
      hunits.tSel k]
    exact ⟨rfl, rfl⟩

theorem WorkDropped.shed {t : Fin 16} {s u : State} (h : WorkDropped t s u) : EnginesShed s u where
  solve i v hv := (BearUnit.dropTenant_solve (h.bear i ▸ hv)).1
  run i r hr := ⟨r, (JayUnit.dropTenant_run (h.jay i ▸ hr)).1, id⟩
  solver k := by
    by_cases hk : k = t
    · exact .inr (hk ▸ h.solver)
    · exact .inl (h.others k hk).1
  sel k := by
    by_cases hk : k = t
    · exact .inr (hk ▸ h.sel)
    · exact .inl (h.others k hk).2

/-- An abort drops the tenant's work, and then leaves the engines alone. -/
theorem State.abortTasks_drops (s : State) (t : Fin 16) (code : Byte) : ∃ v,
    Touches [.draws, .regs, .dram] s v ∧ Touches [.cascade, .tSched] (v.dropWork t) (s.abortTasks t code) := by
  unfold State.abortTasks
  extract_lets l s1 s2 s3
  exact ⟨s1, Touches.forEach (Touches.refl _ _) fun u i h => State.traceTask_touches u 0x0A t i 0x3F 0 code.toNat (by decide) h,
    State.updSched_touches s3 t _ (by decide) (State.updCascade_touches s2 _ (by decide) (Touches.refl _ _))⟩

theorem State.abortTasks_shed (s : State) (t : Fin 16) (code : Byte) : EnginesShed s (s.abortTasks t code) := by
  obtain ⟨v, hbefore, hafter⟩ := State.abortTasks_drops s t code
  exact ((EnginesShed.of_touches hbefore).trans (State.dropWork_drops v t).shed).touch hafter

theorem State.failFrame_shed (s : State) (t : Fin 16) (code : Byte) : EnginesShed s (s.failFrame t code) :=
  (State.abortTasks_shed s t code).touch (l := [.safe, .tOut])
    (State.judgeImminent_touches _ t (by decide) (State.updOut_touches _ t _ (by decide) (Touches.refl _ _)))

theorem State.programFault_shed (s : State) (t : Fin 16) (code : Byte) : EnginesShed s (s.programFault t code) :=
  (State.abortTasks_shed s t code).touch (State.programFault_after_abort s t code)

/-- A program fault takes the tenant's run out of a Jay unit (07 R289; 13 R507). -/
theorem State.programFault_run {s : State} {t : Fin 16} {i : Nat} {r : SelRun} (code : Byte) (hrun : (s.jay i).run = some r)
    (ht : r.req.tenant = t) : ((s.programFault t code).jay i).run = none := by
  obtain ⟨v, hbefore, hafter⟩ := State.abortTasks_drops s t code
  have hdropped : ((s.abortTasks t code).jay i).run = none := by
    have hjay : (s.abortTasks t code).jay i = (s.jay i).dropTenant t := by
      rw [State.jay, hafter.jays, ← State.jay, (State.dropWork_drops v t).jay, State.jay, hbefore.jays, ← State.jay]
    rw [hjay]
    cases hu : ((s.jay i).dropTenant t).run with
    | none => rfl
    | some r' =>
      obtain ⟨hr', hne⟩ := JayUnit.dropTenant_run hu
      exact absurd (Option.some.inj (hr'.symm.trans hrun) ▸ ht) hne
  exact (EnginesShed.of_touches (State.programFault_after_abort s t code)).run_none hdropped

/-! ### The end of a task -/

/-- Whatever a task's end brings about, the engines lose at most work. -/
theorem taskSteps_shed (t : Fin 16) (s : State) : TaskSteps t (EnginesShed s) fun _ => True where
  active _ _ _ _ := trivial
  trace kind i hs := hs.touch (State.trace_own _ kind t i)
  tags f hs := hs.touch (State.updCascade_touches _ f (within_refl _) (Touches.refl _ _))
  cut k hs := hs.touch (State.updOut_touches _ t _ (within_refl _) (Touches.refl _ _))
  part p hs := hs.touch (State.putPart_touches_units _ p)
  task i f _ _ hs := hs.touch (State.updSched_touches _ t _ (within_refl _) (Touches.refl _ _))
  retire i flag hs := hs.touch (State.updSched_touches _ t _ (within_refl _) (Touches.refl _ _))
  fail code _ _ hs := hs.trans (State.failFrame_shed _ t code)

theorem State.finishTask_shed (s : State) (t : Fin 16) (i : Nat) (status : Byte) : EnginesShed s (s.finishTask t i status) :=
  (taskSteps_shed t s).finishTask status trivial (EnginesShed.refl s)

/-! ### A tenant that is served (08 R329; 10 R382) -/

/-- Registers rise, the tenant is served, and its requests of Bear and Jay are those of an earlier state. -/
structure ServedAs (t : Fin 16) (s u : State) : Prop where
  regs : keysRise u.regs
  served : u.served t
  solver : (u.tenant t).solver = (s.tenant t).solver
  sel : (u.tenant t).sel = (s.tenant t).sel

/-- The core a tenant's work goes to follows from three registers of its lease and the views of the units. -/
theorem State.coreFor_congr {s u : State} {t : Fin 16} (hviews : SameViews s u)
    (hlive : ∀ o ∈ [0x110, 0x114, 0x118], u.live (tenantPage t) o = s.live (tenantPage t) o) (v : Nat) :
    u.coreFor t v = s.coreFor t v := by
  have hvcores : u.vcores t = s.vcores t := congrArg (bits · 7 0) (hlive 0x110 (by decide))
  have hmask : u.coreMask t = s.coreMask t := by
    simp only [State.coreMask, State.lease, hlive 0x114 (by decide), hlive 0x118 (by decide)]
  have hcores : u.coresOf t = s.coresOf t := by simp only [State.coresOf, hmask]
  have husable : u.usable .core = s.usable .core := funext fun n => by simp only [State.usable, hviews.same]
  simp only [State.coreFor, State.hostOf, hvcores, hcores, husable]

section
variable {t : Fin 16} {s u w : State}

theorem ServedAs.next (h : ServedAs t s u) (hviews : SameViews u w)
    (hlive : ∀ o ∈ [0x110, 0x114, 0x118], KeepsLive (tenantPage t) o u w)
    (hsolver : (w.tenant t).solver = (u.tenant t).solver) (hsel : (w.tenant t).sel = (u.tenant t).sel) : ServedAs t s w where
  regs := (hlive 0x110 (by decide) h.regs).1
  served := by
    rw [State.served, State.coreFor_congr hviews fun o ho => (hlive o ho h.regs).2]
    exact h.served
  solver := hsolver.trans h.solver
  sel := hsel.trans h.sel

/-- What leaves the registers, the units and the tenant's requests alone leaves it served. -/
theorem ServedAs.touch (h : ServedAs t s u) {l : List Part} (k : Touches l u w)
    (hl : ([.chip, .regs, .cores, .engines, .bears, .jays, .fronts, .tSolver, .tSel] : List Part).all (fun p => ! l.contains p) = true := by
      decide) : ServedAs t s w := by
  have hp : ∀ p ∈ [Part.chip, .regs, .cores, .engines, .bears, .jays, .fronts, .tSolver, .tSel], l.contains p = false :=
    fun p hp => by simpa using List.all_eq_true.mp hl p hp
  refine h.next (SameViews.of_touches k (by simp_all)) (fun o _ => KeepsLive.of_touches k (by simp_all)) ?_ ?_
  · exact k.tSolver t (hp _ (by decide))
  · exact k.tSel t (hp _ (by decide))

/-- The core that work goes to is one of the 48 of the device. -/
theorem State.coreFor_lt {v c : Nat} (h : s.coreFor t v = some c) : c < 48 := by
  have hc := List.find?_some h
  simp only [Bool.and_eq_true, List.contains_iff_mem] at hc
  exact List.mem_range.mp (List.mem_filter.mp hc.2).1

/-- A part that enters a ready list moves no register but the peak of its core's list (10 R400). -/
theorem State.putPart_keepsLive (s : State) (p : PartRef) {page o : Nat} (hp : page ≠ 4) (ho : o < 4096) :
    KeepsLive page o s (s.putPart p) := by
  unfold State.putPart
  split
  · rename_i c hc
    have hlt := State.coreFor_lt hc
    unfold State.notePeak
    extract_lets n
    have hcore : KeepsLive page o s (s.updCore c fun k => { k with ready := insertPart p k.ready }) :=
      .of_touches (State.updCore_touches s c _ (within_refl _) (Touches.refl _ _))
    split
    · exact hcore.trans (KeepsLive.setLive _ (by unfold regKey; omega) _)
    · exact hcore
  · exact fun hs => ⟨hs, rfl⟩

/-- Whatever a task's end brings about, a tenant that is served loses none of its requests: only work without a core to run on fails its
frame. -/
theorem taskSteps_served (t : Fin 16) (s : State) : TaskSteps t (ServedAs t s) fun _ => True where
  active _ _ _ _ := trivial
  trace kind i hs := hs.next (SameViews.of_touches (State.trace_own _ kind t i))
    (fun o ho => State.trace_keepsLive _ kind t i (by unfold tenantPage; omega) (by simp at ho; omega))
    ((State.trace_own _ kind t i).tSolver t) ((State.trace_own _ kind t i).tSel t)
  tags f hs := hs.touch (State.updCascade_touches _ f (within_refl _) (Touches.refl _ _))
  cut k hs := hs.touch (State.updOut_touches _ t _ (within_refl _) (Touches.refl _ _))
  part p hs := hs.next (State.putPart_views _ p)
    (fun o ho => State.putPart_keepsLive _ p (by unfold tenantPage; omega) (by simp at ho; omega))
    ((State.putPart_touches_units _ p).tSolver t) ((State.putPart_touches_units _ p).tSel t)
  task i f _ _ hs := hs.touch (State.updSched_touches _ t _ (within_refl _) (Touches.refl _ _))
  retire i flag hs := hs.touch (State.updSched_touches _ t _ (within_refl _) (Touches.refl _ _))
  fail code hnone hs _ := absurd hs.served (by simp [State.served, hnone])

/-- As a task ends, a tenant that is served keeps its requests of Bear and Jay. -/
theorem State.finishTask_served (hregs : keysRise s.regs) (hserved : s.served t) (i : Nat) (status : Byte) :
    ((s.finishTask t i status).tenant t).solver = (s.tenant t).solver ∧
      ((s.finishTask t i status).tenant t).sel = (s.tenant t).sel := by
  have h := (taskSteps_served t s).finishTask (i := i) status trivial ⟨hregs, hserved, rfl, rfl⟩
  exact ⟨h.solver, h.sel⟩

end

end Sys2Proof.Machine
end

section
/-! SUPPORT. Bear (06): SMOOTH requests, the start of a slot, the iterations of a solve and its end. -/
namespace Sys2Proof.Machine
open Sys2Proof

/-! ### Reports (06 R253, R257) -/

/-- A tenant's solver side with a slot's report of a status counted, and the slot finished. -/
def Solver.reported (v : Solver) (slot : Nat) (status : Byte) : Solver :=
  { v.count status with slots := v.slots.map fun x => if x.slot = slot then { x with st := .finished } else x }

theorem Solver.reported_finished (v : Solver) (slot : Nat) (status : Byte) :
    ∀ x ∈ (v.reported slot status).slots, x.slot = slot → x.st = .finished := by
  intro x hx hslot
  obtain ⟨y, -, rfl⟩ := List.mem_map.mp hx
  split at hslot
  next hy => rw [if_pos hy]
  next hy => exact absurd hslot hy

/-- Once a slot's report is counted, the engines lose at most work. -/
theorem State.writeReport_shed (s : State) (t : Fin 16) (k : BearSlot) (status : Byte) (iters : Nat) (missing : Bool) (bs : List Byte) :
    EnginesShed (s.updSolver t fun v => v.reported k.slot status) (s.writeReport t k status iters missing bs) := by
  unfold State.writeReport
  extract_lets s1 s2 s3 s4
  have h2 : EnginesShed (s.updSolver t fun v => v.reported k.slot status) s2 :=
    .updSolver t (State.setLive_touches s _ _ _ (within_refl _) (Touches.refl _ _)) (by decide) _
  have h3 : Touches [.dram, .tSched, .lynx] s2 s3 := State.streamWrite_touches _ _ _ _ _ _ (by decide)
    (State.writeResult_touches s2 t _ _ (by decide) (Touches.refl _ _))
  have h4 : EnginesShed (s.updSolver t fun v => v.reported k.slot status) s4 := by
    refine (h2.touch h3).touch (l := [.tSched]) ?_
    simp only [s4]
    split
    · exact State.updSched_touches _ t _ (within_refl _) (Touches.refl _ _)
    · exact Touches.refl _ _
  split
  · exact h2.trans (State.programFault_shed _ t _)
  · split
    · split
      · split
        · exact h4.trans (State.finishTask_shed _ t _ _)
        · exact h4
      · exact h4
    · exact h4

theorem State.emptyReport_shed (s : State) (t : Fin 16) (k : BearSlot) (status : Byte) (iters refines : Nat) (missing : Bool) :
    EnginesShed (s.updSolver t fun v => v.reported k.slot status) (s.emptyReport t k status iters refines missing) :=
  State.writeReport_shed s t k status iters missing _

/-- What a report of a slot leaves: no solve is new, the slot is finished, and its status is counted. -/
structure SlotReported (t : Fin 16) (slot : Nat) (status : Byte) (s u : State) : Prop where
  solve : ∀ i, (s.bear i).solve = none → (u.bear i).solve = none
  finished : ∀ x ∈ (u.tenant t).solver.slots, x.slot = slot → x.st = .finished
  solved : (u.tenant t).solver.solved = ((s.tenant t).solver.count status).solved
  notConverged : (u.tenant t).solver.notConverged = ((s.tenant t).solver.count status).notConverged
  illPosed : (u.tenant t).solver.illPosed = ((s.tenant t).solver.count status).illPosed
  other : (u.tenant t).solver.other = ((s.tenant t).solver.count status).other

theorem SlotReported.of_shed {t : Fin 16} {slot : Nat} {status : Byte} {s u : State}
    (h : EnginesShed (s.updSolver t fun v => v.reported slot status) u) : SlotReported t slot status s u := by
  obtain ⟨hsolved, hnot, hill, hother⟩ := h.counts t
  have hslots := h.slots t
  simp only [State.tenant_updSolver_self] at hsolved hnot hill hother hslots
  exact ⟨fun i hi => h.solve_none hi, fun x hx => Solver.reported_finished _ _ _ x (hslots x hx), hsolved, hnot, hill, hother⟩

theorem State.writeReport_reported (s : State) (t : Fin 16) (k : BearSlot) (status : Byte) (iters : Nat) (missing : Bool) (bs : List Byte) :
    SlotReported t k.slot status s (s.writeReport t k status iters missing bs) := .of_shed (State.writeReport_shed ..)

theorem State.emptyReport_reported (s : State) (t : Fin 16) (k : BearSlot) (status : Byte) (iters refines : Nat) (missing : Bool) :
    SlotReported t k.slot status s (s.emptyReport t k status iters refines missing) := .of_shed (State.emptyReport_shed ..)

/-- Each slot of a list that reports UNIT_FENCED counts among the others (06 R257, R263). -/
theorem State.fencedReports_other (s : State) (t : Fin 16) (l : List BearSlot) :
    ((s.forEach l fun s k => s.emptyReport t k codeFenced 0 0 false).tenant t).solver.other = (s.tenant t).solver.other + l.length := by
  unfold State.forEach
  induction l generalizing s with
  | nil => rfl
  | cons k r ih =>
    rw [List.foldl_cons, ih, (State.emptyReport_reported s t k codeFenced 0 0 false).other, List.length_cons]
    show (s.tenant t).solver.other + 1 + r.length = _
    omega

/-! ### SMOOTH (06 R230 to R232, R263) -/

/-- The slots of a request, each with its unit. -/
def State.smoothSlots (s : State) (t : Fin 16) (task : Nat) (b : List Byte) : List BearSlot :=
  (List.range (smCount b)).map fun i =>
    { slot := smStart b + i, source := u32At b (32 + 4 * i), report := u64At b 8 + i * s.reportSize t, task := task,
      unit := ⟨lget 0 (s.usableOf t .bear) ((smStart b + i) % max 1 (s.usableOf t .bear).length) % 2, Nat.mod_lt _ (by decide)⟩,
      st := .queued }

section
variable {s : State} {t : Fin 16} {task : Nat} {b : List Byte} {rest : List (Nat × List Byte)} (hheld : s.held = false)
  (hhalted : s.halted = false) (hissued : (s.tenant t).solver.issued = (task, b) :: rest)
include hheld hhalted hissued

theorem State.receiveSmooth_refused (h : s.smoothShort t b = true ∨ s.smoothBad t b = true) :
    s.receiveSmooth t = (s.updSolver t fun v => { v with issued := rest }).finishTask t task
      (if s.smoothShort t b then codeLength else codeBad) := by
  by_cases hshort : s.smoothShort t b = true
  · simp [State.receiveSmooth, hissued, hheld, hhalted, hshort]
  · simp [State.receiveSmooth, hissued, hheld, hhalted, hshort, h.resolve_left hshort]

variable (hshort : s.smoothShort t b = false) (hbad : s.smoothBad t b = false)
include hshort hbad

theorem State.receiveSmooth_fenced (hunits : s.usableOf t .bear = []) :
    s.receiveSmooth t = ((s.updSolver t fun v => { v with issued := rest }).updSolver t fun v =>
      { v with slots := v.slots ++ s.smoothSlots t task b }).forEach (s.smoothSlots t task b) fun s k =>
        s.emptyReport t k codeFenced 0 0 false := by
  simp [State.receiveSmooth, hissued, hheld, hhalted, hshort, hbad, hunits, State.smoothSlots]

theorem State.receiveSmooth_queued (hunits : s.usableOf t .bear ≠ []) :
    s.receiveSmooth t = (s.updSolver t fun v => { v with issued := rest }).updSolver t fun v =>
      { v with slots := v.slots ++ s.smoothSlots t task b } := by
  simp [State.receiveSmooth, hissued, hheld, hhalted, hshort, hbad, hunits, State.smoothSlots]

end

/-! ### SOLVE_START (05 R214; 06 R232, R233; 19 R729) -/

/-- A unit may start a slot, and this one is next. -/
structure BearReady (s : State) (u : Nat) (t : Fin 16) (k : BearSlot) : Prop where
  held : s.held = false
  halted : s.halted = false
  inFrame : s.frame.inFrame = true
  opening : s.frame.opening = false
  before : s.phasePassed 5 = false
  serves : (s.bear u).view.serves = true
  free : (s.bear u).solve = none
  stalls : s.bearStalled u = false
  next : s.nextSlot u = some (t, k)

/-- The source of a slot can be smoothed (06 R233). -/
structure Smoothable (s : State) (t : Fin 16) (k : BearSlot) (c : Cand) : Prop where
  cand : (s.tenant t).table.cand k.source = some c
  clear : (s.tenant t).table.isClear (s.candBase t) k.source = true
  quota : k.source < s.candQuota t
  kind : c.kind ≠ 2
  mode : c.mode ≠ 3

section
variable {s : State} {u : Nat} {t : Fin 16} {k : BearSlot} {c : Cand} (h : BearReady s u t k)
include h

theorem State.startSolve_of_none (hcand : (s.tenant t).table.cand k.source = none) :
    s.startSolve u = s.emptyReport t k codeBad 0 0 false := by
  simp [State.startSolve, h.held, h.halted, h.inFrame, h.opening, h.before, h.serves, h.free, h.stalls, h.next, hcand]

theorem State.startSolve_of_cand (hcand : (s.tenant t).table.cand k.source = some c) :
    s.startSolve u = if ! (s.tenant t).table.isClear (s.candBase t) k.source || s.candQuota t ≤ k.source || c.kind = 2 || c.mode = 3 then
        s.emptyReport t k codeBad 0 0 false
      else if s.candPoisoned t k.source then s.programFault t codeMemoryUe
      else ((s.updBear u fun b => { b with solve := some (s.assemble t k c) }).updSolver t fun x =>
        { x with slots := x.slots.map fun y => if y.slot = k.slot then { y with st := .running } else y }).bearCycles t
          (1000 + 16 * (s.assemble t k c).z.length) := by
  simp only [State.startSolve, h.held, h.halted, h.inFrame, h.opening, h.before, h.serves, h.free, h.stalls, h.next, hcand, Bool.not_true,
    Bool.or_false, Option.isSome_none, Bool.false_eq_true, if_false]

/-- A slot without a CLEAR plan as its source reports BAD_DESCRIPTOR (06 R233). -/
theorem State.startSolve_refused (hbad : ∀ c, (s.tenant t).table.cand k.source = some c →
    (s.tenant t).table.isClear (s.candBase t) k.source = false ∨ s.candQuota t ≤ k.source ∨ c.kind = 2 ∨ c.mode = 3) :
    s.startSolve u = s.emptyReport t k codeBad 0 0 false := by
  cases hcand : (s.tenant t).table.cand k.source with
  | none => exact State.startSolve_of_none h hcand
  | some c =>
    have hc := hbad c hcand
    rw [State.startSolve_of_cand h hcand, if_pos]
    simpa only [Bool.or_eq_true, Bool.not_eq_true', decide_eq_true_eq, or_assoc] using hc

omit h in
theorem Smoothable.accepted (hc : Smoothable s t k c) :
    (! (s.tenant t).table.isClear (s.candBase t) k.source || s.candQuota t ≤ k.source || c.kind = 2 || c.mode = 3) = false := by
  obtain ⟨-, hclear, hquota, hkind, hmode⟩ := hc
  rw [hclear, decide_eq_false (Nat.not_le.mpr hquota), decide_eq_false hkind, decide_eq_false hmode]
  rfl

theorem State.startSolve_poisoned (hc : Smoothable s t k c) (hpoison : s.candPoisoned t k.source = true) :
    s.startSolve u = s.programFault t codeMemoryUe := by
  rw [State.startSolve_of_cand h hc.cand, hc.accepted, if_neg Bool.false_ne_true, if_pos hpoison]

theorem State.startSolve_assembles (hc : Smoothable s t k c) (hclean : s.candPoisoned t k.source = false) :
    s.startSolve u = ((s.updBear u fun b => { b with solve := some (s.assemble t k c) }).updSolver t fun x =>
      { x with slots := x.slots.map fun y => if y.slot = k.slot then { y with st := .running } else y }).bearCycles t
        (1000 + 16 * (s.assemble t k c).z.length) := by
  rw [State.startSolve_of_cand h hc.cand, hc.accepted, if_neg Bool.false_ne_true, hclean, if_neg Bool.false_ne_true]

/-- A slot that starts takes its unit with its problem assembled (05 R214; 06 R233, R255). -/
theorem State.startSolve_runs (hu : u < 2) (hc : Smoothable s t k c) (hclean : s.candPoisoned t k.source = false) :
    ((s.startSolve u).bear u).solve = some (s.assemble t k c) ∧
      (∀ y ∈ ((s.startSolve u).tenant t).solver.slots, y.slot = k.slot → y.st = .running) ∧
      ((s.startSolve u).tenant t).solver.cycles = (s.tenant t).solver.cycles + (1000 + 16 * (s.assemble t k c).z.length) := by
  rw [State.startSolve_assembles h hc hclean]
  simp only [State.bearCycles, State.tenant_updSolver_self, State.updBear_reads]
  refine ⟨congrArg BearUnit.solve (State.bear_updBear_self s hu _), fun y hy hslot => ?_, trivial⟩
  obtain ⟨z, -, rfl⟩ := List.mem_map.mp hy
  split at hslot
  next hz => rw [if_pos hz]
  next hz => exact absurd hslot hz

end

/-! ### SOLVE_ITERATION (06 R249 to R251, R255, R256) -/

/-- An iteration leaves the tenant and the slot of its solve. -/
theorem Solve.iterate_keeps (v : Solve) : v.iterate.tenant = v.tenant ∧ v.iterate.slot = v.slot := by
  unfold Solve.iterate
  extract_lets
  split
  · exact ⟨rfl, rfl⟩
  · split
    · exact ⟨rfl, rfl⟩
    · extract_lets
      split
      · exact ⟨rfl, rfl⟩
      · exact ⟨rfl, rfl⟩

/-- Cycles of an iteration of a solve (06 R255). -/
def Solve.cost (v : Solve) : Nat :=
  if v.fp64 then 400 + 12 * v.z.length + 4 * (17 * v.stages + 5)
  else 400 + 6 * v.z.length + 2 * (17 * v.stages + 5) + (v.iterate.refines - v.refines) * (100 + v.z.length)

/-- The state of a unit that its solve has left, before the solve's report. -/
def State.leaveSolve (s : State) (u : Nat) (v : Solve) : State := (s.updBear u fun b => { b with solve := none }).bearCycles v.tenant 500

section
variable (s : State) {u : Nat} (v : Solve)

theorem State.leaveSolve_free (hu : u < 2) : ((s.leaveSolve u v).bear u).solve = none :=
  congrArg BearUnit.solve (State.bear_updBear_self s hu _)

theorem State.leaveSolve_touches : Touches [.bears, .tSolver] s (s.leaveSolve u v) :=
  State.bearCycles_touches _ _ _ (by decide) (State.updBear_touches s u _ (by decide) (Touches.refl _ _))

theorem State.leaveSolve_solver (t : Fin 16) : ((s.leaveSolve u v).tenant t).solver =
    { (s.tenant t).solver with cycles := ((s.leaveSolve u v).tenant t).solver.cycles } := by
  by_cases h : v.tenant = t
  · subst h
    simp only [State.leaveSolve, State.bearCycles, State.tenant_updSolver_self, State.updBear_reads]
  · simp only [State.leaveSolve, State.bearCycles, State.tenant_updSolver_ne _ h, State.updBear_reads]

theorem State.leaveSolve_slotOfSolve (w : Solve) : (s.leaveSolve u v).slotOfSolve w = s.slotOfSolve w := by
  unfold State.slotOfSolve
  rw [State.leaveSolve_solver]

theorem State.slotOfSolve_slot {s : State} {v : Solve} {k : BearSlot} (h : s.slotOfSolve v = some k) : k.slot = v.slot := by
  have hk := List.find?_some h
  simp only [Bool.and_eq_true, decide_eq_true_eq] at hk
  exact hk.1

end

section
variable {s : State} {u : Nat} {v : Solve}

theorem State.cutSolve_of_none (h : s.slotOfSolve v = none) : s.cutSolve u v = s.leaveSolve u v := by
  have hnone := (State.leaveSolve_slotOfSolve s (u := u) v v).trans h
  unfold State.leaveSolve at hnone
  simp only [State.cutSolve, hnone]
  rfl

/-- A solve cut at its deadline reports PHASE_CUT (06 R256). -/
theorem State.cutSolve_of_some {k : BearSlot} (h : s.slotOfSolve v = some k) :
    s.cutSolve u v = (s.leaveSolve u v).emptyReport v.tenant k codePhaseCut v.done v.refines v.measMissing := by
  have hsome := (State.leaveSolve_slotOfSolve s (u := u) v v).trans h
  unfold State.leaveSolve at hsome
  simp only [State.cutSolve, hsome]
  rfl

theorem State.cutSolve_free (hu : u < 2) : ((s.cutSolve u v).bear u).solve = none := by
  cases h : s.slotOfSolve v with
  | none => rw [State.cutSolve_of_none h]; exact State.leaveSolve_free s v hu
  | some k => rw [State.cutSolve_of_some h]; exact (State.emptyReport_reported ..).solve u (State.leaveSolve_free s v hu)

theorem State.cutSolve_reported {k : BearSlot} (h : s.slotOfSolve v = some k) :
    ((s.cutSolve u v).tenant v.tenant).solver.other = (s.tenant v.tenant).solver.other + 1 ∧
      ∀ x ∈ ((s.cutSolve u v).tenant v.tenant).solver.slots, x.slot = v.slot → x.st = .finished := by
  have hreport := State.emptyReport_reported (s.leaveSolve u v) v.tenant k codePhaseCut v.done v.refines v.measMissing
  rw [State.cutSolve_of_some h]
  refine ⟨hreport.other.trans ?_, State.slotOfSolve_slot h ▸ hreport.finished⟩
  rw [State.leaveSolve_solver]
  rfl

end

section
variable {s : State} {u : Nat} {v : Solve} (hheld : s.held = false) (hhalted : s.halted = false) (hsolve : (s.bear u).solve = some v)
include hheld hhalted hsolve

theorem State.iterateSolve_eq (hill : v.illPosed = false) (hmore : v.done < v.iters) :
    s.iterateSolve u = if v.stop && ! v.iterate.illPosed then
        ((s.updBear u fun b => { b with solve := some v.iterate }).bearCycles v.tenant v.cost).cutSolve u v.iterate
      else (s.updBear u fun b => { b with solve := some v.iterate }).bearCycles v.tenant v.cost := by
  simp only [State.iterateSolve, hsolve, hheld, hhalted, hill, Nat.not_le.mpr hmore, Bool.or_self, decide_false, Bool.false_eq_true,
    if_false]
  rfl

/-- A solve that its deadline has not stopped, or that is found ill-posed, keeps its unit at the iteration's cost (06 R251, R255). -/
theorem State.iterateSolve_goes (hu : u < 2) (hill : v.illPosed = false) (hmore : v.done < v.iters)
    (hgoes : v.stop = false ∨ v.iterate.illPosed = true) : ((s.iterateSolve u).bear u).solve = some v.iterate ∧
      ((s.iterateSolve u).tenant v.tenant).solver.cycles = (s.tenant v.tenant).solver.cycles + v.cost := by
  rw [State.iterateSolve_eq hheld hhalted hsolve hill hmore, if_neg (by rcases hgoes with h | h <;> simp [h])]
  simp only [State.bearCycles, State.tenant_updSolver_self, State.updBear_reads]
  exact ⟨congrArg BearUnit.solve (State.bear_updBear_self s hu _), trivial⟩

/-- The iteration in which a stopped solve ends frees its unit (06 R256). -/
theorem State.iterateSolve_free (hu : u < 2) (hill : v.illPosed = false) (hmore : v.done < v.iters) (hstop : v.stop = true)
    (hwell : v.iterate.illPosed = false) : ((s.iterateSolve u).bear u).solve = none := by
  rw [State.iterateSolve_eq hheld hhalted hsolve hill hmore, if_pos (by simp [hstop, hwell])]
  exact State.cutSolve_free hu

/-- The iteration in which a stopped solve ends reports PHASE_CUT (06 R256). -/
theorem State.iterateSolve_reported {k : BearSlot} (hill : v.illPosed = false) (hmore : v.done < v.iters) (hstop : v.stop = true)
    (hwell : v.iterate.illPosed = false) (hk : s.slotOfSolve v = some k) :
    ((s.iterateSolve u).tenant v.tenant).solver.other = (s.tenant v.tenant).solver.other + 1 ∧
      ∀ x ∈ ((s.iterateSolve u).tenant v.tenant).solver.slots, x.slot = v.slot → x.st = .finished := by
  obtain ⟨htenant, hslot⟩ := v.iterate_keeps
  have hsolver : (((s.updBear u fun b => { b with solve := some v.iterate }).bearCycles v.tenant v.cost).tenant v.tenant).solver =
      { (s.tenant v.tenant).solver with cycles := (s.tenant v.tenant).solver.cycles + v.cost } := by
    simp only [State.bearCycles, State.tenant_updSolver_self, State.updBear_reads]
  have hfind : ((s.updBear u fun b => { b with solve := some v.iterate }).bearCycles v.tenant v.cost).slotOfSolve v.iterate = some k := by
    rw [State.slotOfSolve, htenant, hslot, hsolver]
    exact hk
  have hreport := State.cutSolve_reported (u := u) hfind
  rw [htenant, hslot, hsolver] at hreport
  rwa [State.iterateSolve_eq hheld hhalted hsolve hill hmore, if_pos (by simp [hstop, hwell])]

end

/-! ### SOLVE_END (06 R251 to R257) -/

/-- The final iterate meets the tolerances of the model block (06 R252). -/
def Solve.converged (v : Solve) (md : Model) : Bool :=
  fpLe v.fmt (normInf v.fmt v.rp) (md.field v.fmt 10) && fpLe v.fmt (normInf v.fmt v.rd) (md.field v.fmt 11)
    && fpLe v.fmt v.mu (md.field v.fmt 12)

/-- The status of a solve that ends by itself (06 R251 to R253). -/
def Solve.status (v : Solve) (md : Model) : Byte :=
  if v.illPosed || v.stuck (md.field v.fmt 10) then codeIllPosed else if v.converged md then codeOk else codeNotConverged

/-- A converged solve puts its plan into the table (06 R254). -/
def State.putSmoothed (s : State) (u : Nat) (v : Solve) (md : Model) : State :=
  match v.converged md, (s.tenant v.tenant).table.cand v.source with
  | true, some c => s.putCandBy (68 + u) v.tenant (s.smoothedCand v c (fpConv v.fmt fp32 v.objective))
  | _, _ => s

theorem Solver.count_cycles (v : Solver) (n : Nat) (status : Byte) :
    Solver.count { v with cycles := n } status = { v.count status with cycles := n } := by
  unfold Solver.count
  split
  · rfl
  · split
    · rfl
    · split
      · rfl
      · rfl

/-- A solve that ends by itself counts as one of three kinds (06 R253, R257). -/
theorem Solve.count_status (v : Solve) (md : Model) (w : Solver) :
    (w.count (v.status md)).solved + (w.count (v.status md)).notConverged + (w.count (v.status md)).illPosed =
      w.solved + w.notConverged + w.illPosed + 1 := by
  unfold Solve.status
  split
  · show w.solved + w.notConverged + (w.illPosed + 1) = _
    omega
  · split
    · show w.solved + 1 + w.notConverged + w.illPosed = _
      omega
    · show w.solved + (w.notConverged + 1) + w.illPosed = _
      omega

/-- A solve that has ended was cut at its deadline, or ends by itself. -/
theorem Solve.cut_or_ended {v : Solve} (h : v.illPosed = true ∨ v.stop = true ∨ v.iters ≤ v.done) :
    v.illPosed = false ∧ v.stop = true ∨ (v.illPosed = true ∨ v.stop = false ∧ v.iters ≤ v.done) := by
  cases hill : v.illPosed with
  | true => exact .inr (.inl rfl)
  | false =>
    cases hstop : v.stop with
    | true => exact .inl ⟨rfl, rfl⟩
    | false => exact .inr (.inr ⟨rfl, by simpa [hill, hstop] using h⟩)

/-- A report counts from any earlier state with the same units and solver sides. -/
theorem SlotReported.after {l : List Part} {t : Fin 16} {slot : Nat} {status : Byte} {s w u : State} (hbefore : Touches l s w)
    (h : SlotReported t slot status w u) (hb : l.contains .bears = false := by decide) (hs : l.contains .tSolver = false := by decide) :
    SlotReported t slot status s u := by
  have hsolver := hbefore.tSolver t hs
  refine ⟨fun i hi => h.solve i ?_, h.finished, ?_, ?_, ?_, ?_⟩
  · rwa [State.bear, hbefore.bears hb, ← State.bear]
  · rw [h.solved, hsolver]
  · rw [h.notConverged, hsolver]
  · rw [h.illPosed, hsolver]
  · rw [h.other, hsolver]

theorem State.putSmoothed_touches (s : State) (u : Nat) (v : Solve) (md : Model) :
    Touches [.regs, .tTable, .engines, .dram, .lynx] s (s.putSmoothed u v md) := by
  unfold State.putSmoothed
  split
  · exact State.putCandBy_touches s _ _ _ (within_refl _) (Touches.refl _ _)
  · exact Touches.refl _ _

theorem State.smoothedCand_id (s : State) (v : Solve) (c : Cand) (obj : Nat) : (s.smoothedCand v c obj).id = 64 + v.slot := rfl

theorem State.leaveSolve_smoothedCand (s : State) (u : Nat) (v : Solve) (c : Cand) (obj : Nat) :
    (s.leaveSolve u v).smoothedCand v c obj = s.smoothedCand v c obj := by
  have hlive (o : Nat) : (s.leaveSolve u v).live 0x07 o = s.live 0x07 o := rfl
  have hstamp (c : Cand) : (s.leaveSolve u v).stampCand v.tenant c = s.stampCand v.tenant c := rfl
  unfold State.smoothedCand
  rw [State.leaveSolve_solver]
  simp only [hlive, hstamp]

section
variable {s : State} {u : Nat} {v : Solve} (hheld : s.held = false) (hhalted : s.halted = false) (hsolve : (s.bear u).solve = some v)
include hheld hhalted hsolve

theorem State.endSolve_waits (hill : v.illPosed = false) (hstop : v.stop = false) (hmore : v.done < v.iters) : s.endSolve u = s := by
  simp [State.endSolve, hsolve, hheld, hhalted, hill, hstop, hmore]

theorem State.endSolve_cut (hill : v.illPosed = false) (hstop : v.stop = true) : s.endSolve u = s.cutSolve u v := by
  simp [State.endSolve, hsolve, hheld, hhalted, hill, hstop]

variable (hby : v.illPosed = true ∨ v.stop = false ∧ v.iters ≤ v.done)
include hby

theorem State.endSolve_gone (hk : s.slotOfSolve v = none) : s.endSolve u = s.updBear u fun b => { b with solve := none } := by
  rcases hby with hill | ⟨hstop, hdone⟩
  · simp [State.endSolve, hsolve, hheld, hhalted, hill, hk]
  · simp [State.endSolve, hsolve, hheld, hhalted, hstop, Nat.not_lt.mpr hdone, hk]

variable {k : BearSlot} (hk : s.slotOfSolve v = some k)
include hk

/-- A solve that ends by itself writes its report, after its plan where it has one. -/
theorem State.endSolve_reports : ∃ bs, s.endSolve u =
    if v.illPosed || v.stuck ((s.tenant v.tenant).solver.model.field v.fmt 10) then
      (s.leaveSolve u v).writeReport v.tenant k codeIllPosed v.done v.measMissing bs
    else ((s.leaveSolve u v).putSmoothed u v (s.tenant v.tenant).solver.model).writeReport v.tenant k
      (if v.converged (s.tenant v.tenant).solver.model then codeOk else codeNotConverged) v.done v.measMissing bs := by
  have hgo : (v.stop && ! v.illPosed) = false ∧ (! v.illPosed && decide (v.done < v.iters)) = false := by
    rcases hby with hill | ⟨hstop, hdone⟩
    · simp [hill]
    · simp [hstop, Nat.not_lt.mpr hdone]
  simp only [State.endSolve, hsolve, hheld, hhalted, hgo, hk, Bool.or_self, Bool.false_eq_true, if_false]
  split
  · exact ⟨_, rfl⟩
  · exact ⟨_, rfl⟩

/-- The report of a solve that ends by itself tells its status. -/
theorem State.endSolve_reported :
    SlotReported v.tenant v.slot (v.status (s.tenant v.tenant).solver.model) (s.leaveSolve u v) (s.endSolve u) := by
  obtain ⟨bs, hend⟩ := State.endSolve_reports hheld hhalted hsolve hby hk
  rw [hend, Solve.status, ← State.slotOfSolve_slot hk]
  split
  · exact State.writeReport_reported ..
  · exact .after (State.putSmoothed_touches _ u v _) (State.writeReport_reported ..)

theorem State.endSolve_cand {c : Cand} (hill : v.illPosed = false) (hstuck : v.stuck ((s.tenant v.tenant).solver.model.field v.fmt 10) = false)
    (hconverged : v.converged (s.tenant v.tenant).solver.model = true) (hcand : (s.tenant v.tenant).table.cand v.source = some c) :
    ((s.endSolve u).tenant v.tenant).table.cand (64 + v.slot) = some (s.smoothedCand v c (fpConv v.fmt fp32 v.objective)) := by
  obtain ⟨bs, hend⟩ := State.endSolve_reports hheld hhalted hsolve hby hk
  have hput : (s.leaveSolve u v).putSmoothed u v (s.tenant v.tenant).solver.model =
      (s.leaveSolve u v).putCandBy (68 + u) v.tenant (s.smoothedCand v c (fpConv v.fmt fp32 v.objective)) := by
    rw [State.putSmoothed, hconverged, (State.leaveSolve_touches s v).tTable v.tenant, hcand]
    simp only [State.leaveSolve_smoothedCand]
  rw [hend, hill, hstuck, hput, Bool.or_self, if_neg Bool.false_ne_true,
    (State.writeReport_touches _ _ _ _ _ _ _ (within_refl _) (Touches.refl _ _)).tTable v.tenant, State.putCandBy, ← State.smoothedCand_id s v c (fpConv v.fmt fp32 v.objective)]
  exact State.putCand_cand_self v.tenant _

end

section
variable {s : State} {u : Nat} {v : Solve} (hheld : s.held = false) (hhalted : s.halted = false) (hsolve : (s.bear u).solve = some v)
include hheld hhalted hsolve

/-- The end of a solve frees its unit. -/
theorem State.endSolve_free (hu : u < 2) (hends : v.illPosed = true ∨ v.stop = true ∨ v.iters ≤ v.done) :
    ((s.endSolve u).bear u).solve = none := by
  rcases Solve.cut_or_ended hends with ⟨hill, hstop⟩ | hby
  · rw [State.endSolve_cut hheld hhalted hsolve hill hstop]
    exact State.cutSolve_free hu
  · cases hk : s.slotOfSolve v with
    | none =>
      rw [State.endSolve_gone hheld hhalted hsolve hby hk, State.bear_updBear_self s hu]
    | some k => exact (State.endSolve_reported hheld hhalted hsolve hby hk).solve u (State.leaveSolve_free s v hu)

/-- A solve that ends by itself counts with its status (06 R257). -/
theorem State.endSolve_counts (hby : v.illPosed = true ∨ v.stop = false ∧ v.iters ≤ v.done) {k : BearSlot}
    (hk : s.slotOfSolve v = some k) : ∀ w, w = (s.tenant v.tenant).solver.count (v.status (s.tenant v.tenant).solver.model) →
      ((s.endSolve u).tenant v.tenant).solver.solved = w.solved ∧
      ((s.endSolve u).tenant v.tenant).solver.notConverged = w.notConverged ∧
      ((s.endSolve u).tenant v.tenant).solver.illPosed = w.illPosed := by
  rintro _ rfl
  have hreport := State.endSolve_reported hheld hhalted hsolve hby hk
  rw [hreport.solved, hreport.notConverged, hreport.illPosed, State.leaveSolve_solver, Solver.count_cycles]
  exact ⟨rfl, rfl, rfl⟩

/-- The slot of a solve that has ended is finished (06 R253). -/
theorem State.endSolve_finished (hends : v.illPosed = true ∨ v.stop = true ∨ v.iters ≤ v.done) {k : BearSlot}
    (hk : s.slotOfSolve v = some k) : ∀ x ∈ ((s.endSolve u).tenant v.tenant).solver.slots, x.slot = v.slot → x.st = .finished := by
  rcases Solve.cut_or_ended hends with ⟨hill, hstop⟩ | hby
  · rw [State.endSolve_cut hheld hhalted hsolve hill hstop]
    exact (State.cutSolve_reported hk).2
  · exact (State.endSolve_reported hheld hhalted hsolve hby hk).finished

end

end Sys2Proof.Machine
end

section
/-! SUPPORT. Jay (07): SELECT requests, the start of a run, its passes and its result. -/
namespace Sys2Proof.Machine
open Sys2Proof

/-! ### Frames of a collective (15 R573, R574, R586, R587) -/

theorem State.endPart_shed (s : State) (c : Nat) : EnginesShed s (s.endPart c) := by
  unfold State.endPart
  split
  · exact EnginesShed.refl s
  · rename_i r _
    extract_lets t s1 s2
    have h2 : EnginesShed s s2 := .of_touches (l := [.cores, .tSched])
      (State.updSched_touches s1 t _ (by decide) (State.updCore_touches s c _ (by decide) (Touches.refl _ _)))
    split
    · split
      · exact h2.trans (State.finishTask_shed _ _ _ _)
      · exact h2
    · exact h2

theorem State.endLinkWork_shed (s : State) (g : OutTag) : EnginesShed s (s.endLinkWork g) := by
  have hheld : EnginesShed s (s.noteHeld g.tenant g.task) :=
    .of_touches (State.noteHeld_touches s _ _ (within_refl _) (Touches.refl _ _))
  unfold State.endLinkWork
  extract_lets mine
  split
  · split
    · exact hheld.trans (State.finishTask_shed _ _ _ _)
    · exact EnginesShed.refl s
  · split
    · exact EnginesShed.refl s
    · split
      · split
        · split
          · exact hheld.trans (State.endPart_shed _ _)
          · exact EnginesShed.refl s
        · exact EnginesShed.refl s
      · exact EnginesShed.refl s

/-- A run that takes a response in goes on, and stays failed where it has failed. -/
theorem State.updSelRun_shed (s : State) (t : Fin 16) (task : Nat) (f : SelRun → SelRun)
    (hf : ∀ r : SelRun, r.failed.isSome = true → (f r).failed.isSome = true) : EnginesShed s (s.updSelRun t task f) := by
  refine ⟨fun _ _ h => h, fun i r hr => ?_, fun _ => .inl rfl, fun _ => .inl rfl⟩
  unfold State.updSelRun at hr
  rw [State.jay, bget_map _ _ _ rfl, ← State.jay] at hr
  cases hrun : (s.jay i).run with
  | none => simp [hrun] at hr
  | some r' =>
    refine ⟨r', rfl, fun hfailed => ?_⟩
    simp only [hrun, Option.some.injEq] at hr
    subst hr
    split
    · exact hf r' hfailed
    · exact hfailed

theorem State.collResponse_shed (s : State) (g : OutTag) (f : LinkFrame) : EnginesShed s (s.collResponse g f) := by
  have hdrop (u : State) : EnginesShed u (u.updCascade fun c => { c with tags := c.tags.filter fun x => x.tag ≠ g.tag }) :=
    .of_touches (State.updCascade_touches u _ (within_refl _) (Touches.refl _ _))
  unfold State.collResponse
  extract_lets code a drop n s1 have'
  split
  · exact (hdrop s).trans (State.updSelRun_shed _ _ _ _ fun _ _ => rfl)
  · have h1 : EnginesShed s s1 := State.updSelRun_shed s _ _ _ fun _ h => h
    split
    · exact h1.trans (hdrop s1)
    · exact h1

theorem State.deliverResponse_shed (s : State) (l : Option Nat) (f : LinkFrame) : EnginesShed s (s.deliverResponse l f) := by
  unfold State.deliverResponse
  extract_lets s1
  have h1 : EnginesShed s s1 := .of_touches (State.notePeer_touches s l f (within_refl _) (Touches.refl _ _))
  split
  · exact h1.touch (State.dropStale_touches s1 (within_refl _) (Touches.refl _ _))
  · rename_i g _
    split
    · exact h1.trans (State.collResponse_shed s1 g f)
    · extract_lets s2 code
      have h2 : EnginesShed s s2 := h1.touch (State.updCascade_touches s1 _ (within_refl _) (Touches.refl _ _))
      split
      · split
        · exact (h2.touch (State.writeResult_touches s2 _ _ _ (within_refl _) (Touches.refl _ _))).trans (State.endLinkWork_shed _ g)
        · exact h2.trans (State.endLinkWork_shed _ g)
      · exact (h2.touch (State.coreFault_touches s2 _ _ _ _ (within_refl _) (Touches.refl _ _))).trans (State.programFault_shed _ _ _)

theorem State.sendResponse_shed (s : State) (f : LinkFrame) : EnginesShed s (s.sendResponse f) := by
  unfold State.sendResponse
  split
  · exact State.deliverResponse_shed s none f
  · split
    · exact .of_touches (State.dropRoute_touches s (within_refl _) (Touches.refl _ _))
    · exact .of_touches (State.transmit_touches s _ f (within_refl _) (Touches.refl _ _))

theorem State.sendRequest_shed (s : State) (f : LinkFrame) : EnginesShed s (s.sendRequest f) := by
  unfold State.sendRequest
  split
  · exact (EnginesShed.of_touches (State.perform_touches s none f (within_refl _) (Touches.refl _ _))).trans
      (State.deliverResponse_shed _ none _)
  · split
    · exact State.deliverResponse_shed s none _
    · exact .of_touches (State.transmit_touches s _ f (within_refl _) (Touches.refl _ _))

theorem EnginesShed.forEach {α : Type} {s : State} {l : List α} {f : State → α → State} (h : ∀ u a, EnginesShed u (f u a)) :
    EnginesShed s (s.forEach l f) :=
  State.forEach_induction (I := EnginesShed s) (fun u hu a _ => hu.trans (h u a)) (EnginesShed.refl s)

theorem State.masterPart_shed (s : State) (f : LinkFrame) : EnginesShed s (s.masterPart f) := by
  unfold State.masterPart
  extract_lets a g ps n src same c known c' s1
  have h1 : EnginesShed s s1 := .of_touches (State.updCascade_touches s _ (within_refl _) (Touches.refl _ _))
  split
  · exact State.sendResponse_shed s _
  · extract_lets members
    split
    · exact State.sendResponse_shed s _
    · split
      · exact EnginesShed.refl s
      · split
        · exact h1.trans (EnginesShed.forEach fun _ _ => EnginesShed.forEach fun _ _ => State.sendResponse_shed _ _)
        · exact h1

/-! ### Results (07 R282, R287, R288) -/

/-- A tenant's selections once a request has completed: it is counted, and a FINAL's first entry is kept (07 R287, R288). -/
def Selection.recorded (v : Selection) (w : BitVec 512) (status : Byte) (first : Option Nat) : Selection :=
  if sqFinal w && status ≠ codePhaseCut then { v.count status with finalResult := some first } else v.count status

section
variable (s : State) (u : Nat) (q : SelReq) (status : Byte) (count bound : Nat) (first : Option Nat) (bs : List Byte)

/-- Once a request's result is counted, the engines lose at most work. -/
theorem State.writeSel_shed (hlease : s.inLease q.tenant (sqOut q.word) bs.length = true) :
    EnginesShed (s.updSel q.tenant fun v => v.recorded q.word status first) (s.writeSel u q status count bound first bs) := by
  unfold State.writeSel
  extract_lets t s1 s2 s3
  rw [hlease, if_neg (by decide)]
  have h2 : Touches [.regs, .dram, .tSched, .lynx] s s2 := State.setLive_touches s1 _ _ _ (by decide)
    (State.streamWrite_touches _ _ _ _ _ _ (by decide) (State.writeResult_touches s _ _ _ (by decide) (Touches.refl _ _)))
  exact (EnginesShed.updSel q.tenant h2 (by decide) _).trans (State.finishTask_shed s3 t q.task status)

/-- Whatever a request's result finds, no run is new. -/
theorem State.writeSel_run {i : Nat} (h : (s.jay i).run = none) : ((s.writeSel u q status count bound first bs).jay i).run = none := by
  cases hlease : s.inLease q.tenant (sqOut q.word) bs.length with
  | true => exact (State.writeSel_shed s u q status count bound first bs hlease).run_none h
  | false =>
    unfold State.writeSel
    extract_lets t
    rw [hlease, if_pos (by decide)]
    exact (State.programFault_shed s t codeAccess).run_none h

theorem leBytes_length (n v : Nat) : (leBytes n v).length = n := by
  induction n generalizing v with
  | zero => rfl
  | succ n ih => rw [leBytes, List.length_cons, ih]

theorem selHeader_length (a b c d e f g : Nat) : (selHeader status a b c d e f g).length = 32 := by
  simp only [selHeader, List.length_append, List.length_cons, List.length_nil, leBytes_length]

theorem State.failSel_shed (hlease : s.inLease q.tenant (sqOut q.word) 32 = true) :
    EnginesShed (s.updSel q.tenant fun v => v.recorded q.word status none) (s.failSel u q status) :=
  State.writeSel_shed s u q status _ _ none _ (by rwa [selHeader_length])

theorem State.failSel_run {i : Nat} (h : (s.jay i).run = none) : ((s.failSel u q status).jay i).run = none :=
  State.writeSel_run s u q status _ _ none _ h

end

/-- A tenant's DRAM lease stands where the registers do. -/
theorem Touches.inLease {l : List Part} {s u : State} (h : Touches l s u) (t : Fin 16) (a n : Nat)
    (hr : l.contains .regs = false := by decide) (hc : l.contains .chip = false := by decide) : u.inLease t a n = s.inLease t a n := by
  have hbase : u.dramBase t = s.dramBase t := by simp only [State.dramBase, State.lease, h.live _ _ hr hc]
  have hsize : u.dramSize t = s.dramSize t := by simp only [State.dramSize, State.lease, h.live _ _ hr hc]
  rw [State.inLease, State.inLease, hbase, hsize]

/-- A unit's run has been taken out of it, and its request is about to complete. -/
def State.leaveRun (s : State) (u : Nat) (r : SelRun) : State := (s.updJay u fun j => { j with run := none }).noteGroup r.req

section
variable {s : State} {u : Nat} {r : SelRun}

theorem State.leaveRun_touches : Touches [.jays, .tOut] s (s.leaveRun u r) :=
  State.noteGroup_touches _ r.req (by decide) (State.updJay_touches s u _ (by decide) (Touches.refl _ _))

theorem State.leaveRun_free (hu : u < 4) : ((s.leaveRun u r).jay u).run = none := by
  rw [State.leaveRun, State.jay, (State.noteGroup_touches _ r.req (within_refl _) (Touches.refl _ _)).jays, ← State.jay,
    State.jay_updJay_self s hu]

theorem State.failRun_of_some (hrun : (s.jay u).run = some r) (status : Byte) :
    s.failRun u status = (s.leaveRun u r).failSel u r.req status := by
  simp only [State.failRun, hrun]
  rfl

theorem State.failRun_free (s : State) (hu : u < 4) (status : Byte) : ((s.failRun u status).jay u).run = none := by
  cases hrun : (s.jay u).run with
  | none => simp [State.failRun, hrun]
  | some r => rw [State.failRun_of_some hrun]; exact State.failSel_run _ u r.req status (State.leaveRun_free hu)

end

/-! ### SELECT (07 R267, R271, R290; 15 R586) -/

/-- A request as Jay receives it. -/
def State.selectReq (s : State) (t : Fin 16) (task phase : Nat) (w : BitVec 512) : SelReq :=
  { tenant := t, task := task, phase := phase, word := w, inst := (s.tenant t).sel.collCount (sqGroup w), snap := none }

section
variable {s : State} {t : Fin 16} {task phase : Nat} {b : List Byte} {w : BitVec 512} {rest : List (Nat × Nat × List Byte)}
  (hheld : s.held = false) (hhalted : s.halted = false) (hissued : (s.tenant t).sel.issued = (task, phase, b) :: rest)
  (hw : w = BitVec.ofNat 512 (leNat (padTo 64 b)))
include hheld hhalted hissued hw

theorem State.receiveSelect_refused (h : selectShort w = true ∨ s.selectBad t phase w = true) :
    s.receiveSelect t = (s.updSel t fun v => { v with issued := rest }).refuseSelect t task
      (if selectShort w then codeLength else codeBad) := by
  subst hw
  by_cases hshort : selectShort (BitVec.ofNat 512 (leNat (padTo 64 b))) = true
  · simp [State.receiveSelect, hissued, hheld, hhalted, State.selectFlaw, hshort]
  · simp [State.receiveSelect, hissued, hheld, hhalted, State.selectFlaw, hshort, h.resolve_left hshort]

variable (hshort : selectShort w = false) (hbad : s.selectBad t phase w = false)
include hshort hbad

theorem State.receiveSelect_fenced (hunits : s.usableOf t .jay = []) :
    s.receiveSelect t = ((s.updSel t fun v => { v with issued := rest }).noteSelect t w).failSel (s.selUnit t)
      (s.selectReq t task phase w) codeFenced := by
  subst hw
  simp [State.receiveSelect, hissued, hheld, hhalted, State.selectFlaw, hshort, hbad, hunits, State.selectReq, State.selUnit]

theorem State.receiveSelect_waits {u : Nat} (hunits : s.usableOf t .jay ≠ [])
    (hu : u = lget 0 (s.usableOf t .jay) ((s.tenant t).sel.dealt % (s.usableOf t .jay).length)) (hfull : 16 ≤ (s.jay u).queue.length) :
    s.receiveSelect t = s := by
  subst hw hu
  have hlen : max 1 (s.usableOf t .jay).length = (s.usableOf t .jay).length :=
    Nat.max_eq_right (List.length_pos_iff.mpr hunits)
  simp [State.receiveSelect, hissued, hheld, hhalted, State.selectFlaw, hshort, hbad, hunits, hlen, hfull]

theorem State.receiveSelect_dealt {u : Nat} (hunits : s.usableOf t .jay ≠ [])
    (hu : u = lget 0 (s.usableOf t .jay) ((s.tenant t).sel.dealt % (s.usableOf t .jay).length)) (hroom : (s.jay u).queue.length < 16) :
    s.receiveSelect t = (((s.updSel t fun v => { v with issued := rest }).noteSelect t w).updSel t fun v =>
      { v with dealt := v.dealt + 1 }).updJay u fun j => { j with queue := j.queue ++ [s.selectReq t task phase w] } := by
  subst hw hu
  have hlen : max 1 (s.usableOf t .jay).length = (s.usableOf t .jay).length :=
    Nat.max_eq_right (List.length_pos_iff.mpr hunits)
  simp [State.receiveSelect, hissued, hheld, hhalted, State.selectFlaw, hshort, hbad, hunits, hlen, Nat.not_le.mpr hroom, State.selectReq]

end

/-- A unit that a request is dealt to is one of the four. -/
theorem State.usableJay_lt (s : State) (t : Fin 16) (i : Nat) : lget 0 (s.usableOf t .jay) i < 4 := by
  unfold lget
  by_cases hi : i < (s.usableOf t .jay).length
  · rw [List.getD_eq_getElem _ _ hi]
    have hmem := List.getElem_mem hi
    exact List.mem_range.mp (List.mem_filter.mp (List.mem_filter.mp hmem).1).1
  · rw [List.getD_eq_default _ _ (Nat.not_lt.mp hi)]
    decide

/-! ### SELECT_START (07 R268, R290; 15 R590; 19 R729) -/

/-- The run that begins with a request, from the snapshot a lost unit had begun where there is one (07 R290). -/
def State.newRun (s : State) (q : SelReq) : SelRun :=
  { req := q, v := s.segmentsFor q.tenant (sqRow q.word), snapped := (q.snap.map (·.1)).getD 0, entries := (q.snap.map (·.2)).getD [],
    tiles := 0, stop := false, sent := [], incoming := [], failed := none }

/-- A unit whose run begins with the head of its queue. -/
def State.takeReq (s : State) (u : Nat) (q : SelReq) (rest : List SelReq) : State :=
  s.updJay u fun j => { j with queue := rest, run := some (s.newRun q) }

/-- The run of a unit with the next piece of its snapshot (07 R268, R284). -/
def State.snapped (s : State) (r : SelRun) : SelRun :=
  { r with
    snapped := if sqTensor r.req.word then sqRow r.req.word else min (sqRow r.req.word) (r.snapped + 65536)
    entries := r.entries ++
      if sqTensor r.req.word then s.tensorRow r.req.word else s.snapshotPiece r.req.tenant r.req.word r.snapped }

section
variable {s : State} {u : Nat} {r : SelRun} (hrun : (s.jay u).run = some r)
include hrun

theorem State.snap_poisoned (h : s.selPoisoned r.req.tenant r.req.word r.snapped = true) :
    s.snap u = s.programFault r.req.tenant codeMemoryUe := by
  simp only [State.snap, hrun, h, if_true]

theorem State.snap_clean (h : s.selPoisoned r.req.tenant r.req.word r.snapped = false) :
    s.snap u = s.updJay u fun j => { j with run := some (s.snapped r) } := by
  simp only [State.snap, hrun, h, Bool.false_eq_true, if_false]
  rfl

end

/-- A free unit may take the head of its queue. -/
structure JayReady (s : State) (u : Nat) (q : SelReq) (rest : List SelReq) : Prop where
  held : s.held = false
  halted : s.halted = false
  inFrame : s.frame.inFrame = true
  opening : s.frame.opening = false
  serves : (s.jay u).view.serves = true
  free : (s.jay u).run = none
  head : (s.jay u).queue = q :: rest

section
variable {s : State} {u : Nat} {q : SelReq} {rest : List SelReq}

theorem State.startSelect_eq (h : JayReady s u q rest) :
    s.startSelect u = if sqGroup q.word ≠ 0 && s.cascade.masterLost then (s.takeReq u q rest).failRun u codeMasterLost
      else if q.snap.isSome then s.takeReq u q rest else (s.takeReq u q rest).snap u := by
  have hcascade : (s.takeReq u q rest).cascade = s.cascade := rfl
  simp only [State.startSelect, h.held, h.halted, h.inFrame, h.opening, h.serves, h.free, h.head, Bool.not_true, Bool.or_false,
    Option.isSome_none, Bool.false_eq_true, if_false]
  rw [← hcascade]
  cases hsnap : q.snap with
  | none => simp only [State.takeReq, State.newRun, hsnap, Option.map_none, Option.getD_none]
  | some x => simp only [State.takeReq, State.newRun, hsnap, Option.map_some, Option.getD_some]

theorem State.takeReq_jay (hu : u < 4) : (s.takeReq u q rest).jay u =
    { s.jay u with queue := rest, run := some (s.newRun q) } := State.jay_updJay_self s hu _

theorem State.takeReq_selPoisoned (t : Fin 16) (w : BitVec 512) (p : Nat) :
    (s.takeReq u q rest).selPoisoned t w p = s.selPoisoned t w p := rfl

theorem State.takeReq_snapped (r : SelRun) : (s.takeReq u q rest).snapped r = s.snapped r := rfl

end

/-! ### SELECT_PASS (07 R284; 15 R588) -/

/-- The piece of its snapshot or the tile of its pass that a unit's run takes next. -/
def State.passStep (s : State) (u : Nat) (r : SelRun) : State :=
  if ! r.snapDone then s.snap u
  else
    match r.pass with
    | none => s
    | some i => if r.tiles < (i + 1) * r.perPass then s.updJay u fun j => { j with run := some { r with tiles := r.tiles + 1 } } else s

/-- A unit has no run, or one that has failed. -/
def State.runFailed (s : State) (u : Nat) : Prop := ∀ r, (s.jay u).run = some r → r.failed.isSome = true

theorem EnginesShed.runFailed {s w : State} {u : Nat} (h : EnginesShed s w) (hs : s.runFailed u) : w.runFailed u := by
  intro r hr
  obtain ⟨r', hr', hfailed⟩ := h.run u r hr
  exact hfailed (hs r' hr')

theorem State.runFailed_of_none {s : State} {u : Nat} (h : (s.jay u).run = none) : s.runFailed u := by
  intro r hr
  exact absurd hr (by simp [h])

theorem State.runFailed_updJay {s : State} {u : Nat} (hu : u < 4) {r : SelRun} (h : r.failed.isSome = true) :
    (s.updJay u fun j => { j with run := some r }).runFailed u := by
  intro r' hr'
  rw [State.jay_updJay_self s hu] at hr'
  exact Option.some.inj hr' ▸ h

section
variable {s : State} {u : Nat} {r : SelRun}

theorem State.passSelect_eq (hheld : s.held = false) (hhalted : s.halted = false) (hserves : (s.jay u).view.serves = true)
    (hrun : (s.jay u).run = some r) :
    s.passSelect u = if r.stop then (s.passStep u r).failRun u codePhaseCut else ((s.passStep u r).sendDue u).endFailed u := by
  simp only [State.passSelect, hheld, hhalted, hserves, hrun, Bool.not_true, Bool.or_self, Bool.false_eq_true, if_false]
  rfl

theorem State.passStep_runFailed (hu : u < 4) (hrun : (s.jay u).run = some r) (h : r.failed.isSome = true) : (s.passStep u r).runFailed u := by
  have hs : s.runFailed u := fun r' hr' => Option.some.inj (hrun.symm.trans hr') ▸ h
  unfold State.passStep
  split
  · cases hpoison : s.selPoisoned r.req.tenant r.req.word r.snapped with
    | true =>
      rw [State.snap_poisoned hrun hpoison]
      exact State.runFailed_of_none (State.programFault_run _ hrun rfl)
    | false =>
      rw [State.snap_clean hrun hpoison]
      exact State.runFailed_updJay hu h
  · split
    · exact hs
    · split
      · exact State.runFailed_updJay hu h
      · exact hs

theorem State.sendPartial_runFailed (hu : u < 4) (h : s.runFailed u) (pass : Nat) : (s.sendPartial u pass).runFailed u := by
  unfold State.sendPartial
  split
  · exact h
  · rename_i r hrun
    split
    · exact State.runFailed_of_none (State.failRun_free s hu _)
    · extract_lets ps tag g s1 s2 addr
      have h1 : s1.runFailed u := State.runFailed_updJay (r := { r with sent := r.sent ++ [pass] }) hu (h r hrun)
      have h2 : EnginesShed s1 s2 := .of_touches (State.updCascade_touches s1 _ (within_refl _) (Touches.refl _ _))
      refine (h2.trans (EnginesShed.forEach fun v p => ?_)).runFailed h1
      extract_lets aux f
      split
      · exact State.masterPart_shed v _
      · exact State.sendRequest_shed v _

theorem State.sendDue_runFailed (hu : u < 4) (h : s.runFailed u) : (s.sendDue u).runFailed u := by
  unfold State.sendDue
  split
  · exact h
  · split
    · exact h
    · split
      · split
        · exact State.sendPartial_runFailed hu h _
        · exact h
      · exact h

theorem State.endFailed_free (hu : u < 4) (h : s.runFailed u) : ((s.endFailed u).jay u).run = none := by
  unfold State.endFailed
  split
  · rename_i r hrun
    split
    · exact State.failRun_free s hu _
    · rename_i hfailed
      exact absurd (h r hrun) (by simp [hfailed])
  · assumption

/-- A run past its deadline, or one that has failed, ends with its pass (07 R284; 15 R587, R588). -/
theorem State.passSelect_ends (hu : u < 4) (hheld : s.held = false) (hhalted : s.halted = false) (hserves : (s.jay u).view.serves = true)
    (hrun : (s.jay u).run = some r) (h : r.stop = true ∨ r.failed.isSome = true) : ((s.passSelect u).jay u).run = none := by
  rw [State.passSelect_eq hheld hhalted hserves hrun]
  split
  · exact State.failRun_free _ hu _
  · next hgoes =>
    exact State.endFailed_free hu (State.sendDue_runFailed hu (State.passStep_runFailed hu hrun (h.resolve_left hgoes)))

/-- A unit whose run is local and has not failed sends nothing and ends nothing. -/
theorem State.sendDue_endFailed_of_local (hrun : (s.jay u).run = some r) (hlocal : sqGroup r.req.word = 0) (hfailed : r.failed = none) :
    (s.sendDue u).endFailed u = s := by
  have hsend : s.sendDue u = s := by
    simp only [State.sendDue, hrun, hlocal, ne_eq, not_true_eq_false, decide_false, Bool.false_and, Bool.false_eq_true, if_false]
    split
    · rfl
    · split <;> rfl
  rw [hsend]
  simp only [State.endFailed, hrun, hfailed]

end

/-! ### SELECT_RESULT (07 R282) -/

section
variable {s : State} {u : Nat} {r : SelRun} (hheld : s.held = false) (hhalted : s.halted = false) (hrun : (s.jay u).run = some r)
include hheld hhalted hrun

theorem State.resultSelect_of_failed {code : Byte} (h : r.failed = some code) : s.resultSelect u = s.failRun u code := by
  simp [State.resultSelect, hheld, hhalted, hrun, h]

variable (hfailed : r.failed = none)
include hfailed

theorem State.resultSelect_of_running (h : r.complete = false) : s.resultSelect u = s := by
  simp [State.resultSelect, hheld, hhalted, hrun, hfailed, h]

variable (hcomplete : r.complete = true)
include hcomplete

theorem State.resultSelect_of_cut (h : r.stop = true) : s.resultSelect u = (s.leaveRun u r).failSel u r.req codePhaseCut := by
  rw [← State.failRun_of_some hrun]
  simp [State.resultSelect, hheld, hhalted, hrun, hfailed, hcomplete, h]

theorem State.resultSelect_of_done (h : r.stop = false) : ∀ x, x = (if sqGroup r.req.word = 0 then r.localResult else r.groupResult) →
    s.resultSelect u = (s.leaveRun u r).writeSel u r.req x.1 x.2.1 x.2.2.1 x.2.2.2.1 x.2.2.2.2 := by
  rintro _ rfl
  simp only [State.resultSelect, hheld, hhalted, hrun, hfailed, hcomplete, h, Bool.or_self, Bool.not_true, Bool.false_eq_true, if_false]
  rfl

end

/-- The status of a result tells whether its rank bound is 0 (07 R282). -/
theorem SelRun.result_status (r : SelRun) : ∀ x, x = (if sqGroup r.req.word = 0 then r.localResult else r.groupResult) →
    x.1 = if x.2.2.1 = 0 then codeOk else codeApprox := by
  rintro _ rfl
  split <;> rfl

/-! ### What a request's completion counts (07 R287, R288) -/

/-- A request that is refused, or that no unit serves, counts among the others. -/
theorem Selection.count_other (v : Selection) {status : Byte} (h : status ∈ [codeLength, codeBad, codeFenced]) :
    v.count status = { v with other := v.other + 1 } := by
  simp only [List.mem_cons, List.not_mem_nil, or_false] at h
  rcases h with rfl | rfl | rfl <;> rfl

theorem Selection.recorded_count (v : Selection) (w : BitVec 512) (status : Byte) (first : Option Nat) :
    (v.recorded w status first).ok = (v.count status).ok ∧ (v.recorded w status first).approx = (v.count status).approx ∧
      (v.recorded w status first).cut = (v.count status).cut ∧ (v.recorded w status first).other = (v.count status).other := by
  unfold Selection.recorded
  split
  · exact ⟨rfl, rfl, rfl, rfl⟩
  · exact ⟨rfl, rfl, rfl, rfl⟩

theorem Selection.recorded_final (v : Selection) {w : BitVec 512} {status : Byte} (first : Option Nat) (hfinal : sqFinal w = true)
    (hstatus : status ≠ codePhaseCut) : (v.recorded w status first).finalResult = some first := by
  rw [Selection.recorded, if_pos (by simp [hfinal, hstatus])]

theorem Selection.recorded_cut (v : Selection) (w : BitVec 512) (first : Option Nat) :
    v.recorded w codePhaseCut first = { v with cut := v.cut + 1 } := by
  rw [Selection.recorded, if_neg (by simp)]
  rfl

/-- A completed selection counts, and once more where its rank bound is not 0 (07 R282). -/
theorem Selection.count_result (v : Selection) (bound : Nat) {status : Byte} (h : status = if bound = 0 then codeOk else codeApprox) :
    (v.count status).ok = v.ok + 1 ∧ (v.count status).approx = v.approx + (if bound = 0 then 0 else 1) := by
  subst h
  split
  · exact ⟨rfl, rfl⟩
  · exact ⟨rfl, rfl⟩

section
variable {s : State} {u : Nat} {r : SelRun}

theorem State.leaveRun_inLease (t : Fin 16) (a n : Nat) : (s.leaveRun u r).inLease t a n = s.inLease t a n :=
  State.leaveRun_touches.inLease t a n

/-- A request that ends with its deadline counts as cut; a FINAL's result stands (07 R284, R288). -/
theorem State.failSel_cut (hlease : s.inLease r.req.tenant (sqOut r.req.word) 32 = true) :
    (((s.leaveRun u r).failSel u r.req codePhaseCut).tenant r.req.tenant).sel.cut = (s.tenant r.req.tenant).sel.cut + 1 ∧
    (((s.leaveRun u r).failSel u r.req codePhaseCut).tenant r.req.tenant).sel.finalResult = (s.tenant r.req.tenant).sel.finalResult := by
  obtain ⟨-, -, hcut, -, -, hfinal⟩ := (State.failSel_shed (s.leaveRun u r) u r.req codePhaseCut
    ((State.leaveRun_inLease ..).trans hlease)).results r.req.tenant
  rw [hcut, hfinal, State.tenant_updSel_self, Selection.recorded_cut, State.leaveRun_touches.tSel]
  exact ⟨rfl, rfl⟩

/-- A finished selection counts by its rank bound, and a FINAL's first entry is kept (07 R282, R287, R288). -/
theorem State.writeSel_counts {status : Byte} {count bound : Nat} {first : Option Nat} {bs : List Byte}
    (hlease : s.inLease r.req.tenant (sqOut r.req.word) bs.length = true) (hstatus : status = if bound = 0 then codeOk else codeApprox) :
    ∀ v, v = (((s.leaveRun u r).writeSel u r.req status count bound first bs).tenant r.req.tenant).sel →
      v.ok = (s.tenant r.req.tenant).sel.ok + 1 ∧ v.approx = (s.tenant r.req.tenant).sel.approx + (if bound = 0 then 0 else 1) ∧
      (sqFinal r.req.word = true → v.finalResult = some first) := by
  rintro _ rfl
  obtain ⟨hok, happrox, -, -, -, hfinal⟩ := (State.writeSel_shed (s.leaveRun u r) u r.req status count bound first bs
    ((State.leaveRun_inLease ..).trans hlease)).results r.req.tenant
  obtain ⟨hrok, hrapprox, -, -⟩ := ((s.tenant r.req.tenant).sel).recorded_count r.req.word status first
  obtain ⟨hcok, hcapprox⟩ := ((s.tenant r.req.tenant).sel).count_result bound hstatus
  have hnotcut : status ≠ codePhaseCut := by
    subst hstatus
    split
    · decide
    · decide
  rw [hok, happrox, hfinal, State.tenant_updSel_self, State.leaveRun_touches.tSel]
  exact ⟨hrok.trans hcok, hrapprox.trans hcapprox, fun h => Selection.recorded_final _ first h hnotcut⟩

/-- A request that no unit serves counts among the others, and a FINAL ends without an entry (07 R290). -/
theorem State.failSel_fenced (q : SelReq) (hlease : s.inLease q.tenant (sqOut q.word) 32 = true) :
    ((s.failSel u q codeFenced).tenant q.tenant).sel.other = (s.tenant q.tenant).sel.other + 1 ∧
    (sqFinal q.word = true → ((s.failSel u q codeFenced).tenant q.tenant).sel.finalResult = some none) := by
  obtain ⟨-, -, -, hother, -, hfinal⟩ := (State.failSel_shed s u q codeFenced hlease).results q.tenant
  obtain ⟨-, -, -, hrother⟩ := ((s.tenant q.tenant).sel).recorded_count q.word codeFenced none
  rw [hother, hfinal, State.tenant_updSel_self]
  refine ⟨hrother.trans ?_, fun h => Selection.recorded_final _ none h (by decide)⟩
  rw [Selection.count_other _ (by decide)]

end

/-! ### Requests and runs by what they leave -/

section
variable {s : State} {t : Fin 16} {task : Nat} {status : Byte}

/-- A refused request counts among the others, and issues nothing (07 R267, R288). -/
theorem State.refuseSelect_counts (h : status ∈ [codeLength, codeBad, codeFenced]) :
    ((s.refuseSelect t task status).tenant t).sel.other = (s.tenant t).sel.other + 1 ∧
    ((s.refuseSelect t task status).tenant t).sel.finalIssued = (s.tenant t).sel.finalIssued := by
  obtain ⟨-, -, -, hother, hfinal, -⟩ := (State.finishTask_shed (s.updSel t fun v => v.count status) t task status).results t
  rw [State.refuseSelect, hother, hfinal, State.tenant_updSel_self, Selection.count_other _ h]
  exact ⟨rfl, rfl⟩

theorem State.refuseSelect_issued (h : status ∈ [codeLength, codeBad, codeFenced]) (hregs : keysRise s.regs) (hserved : s.served t) :
    ((s.refuseSelect t task status).tenant t).sel.issued = (s.tenant t).sel.issued := by
  rw [State.refuseSelect, (State.finishTask_served (s := s.updSel t fun v => v.count status) hregs hserved task status).2,
    State.tenant_updSel_self, Selection.count_other _ h]

theorem State.refuseSelect_retires {x : Task} (hx : (s.tenant t).sched.task task = some x) (hfree : (s.tenant t).sched.groupFree task = true) :
    task ∈ ((s.refuseSelect t task status).tenant t).sched.retired :=
  State.finishTask_retires (x := x) status (by rwa [State.tenant_updSel_self]) (by rwa [State.tenant_updSel_self])

end

section
variable {s : State} {u : Nat} {q : SelReq} {rest : List SelReq} (hready : JayReady s u q rest) (hu : u < 4)
include hready hu

/-- A collective whose master is lost ends before it begins (15 R587). -/
theorem State.startSelect_lost (hgroup : sqGroup q.word ≠ 0) (hlost : s.cascade.masterLost = true) :
    ((s.startSelect u).jay u).run = none := by
  rw [State.startSelect_eq hready, if_pos (by simp [hgroup, hlost])]
  exact State.failRun_free _ hu _

variable (hgoes : sqGroup q.word = 0 ∨ s.cascade.masterLost = false)
include hgoes

omit hu in
theorem State.startSelect_of_goes : s.startSelect u =
    if q.snap.isSome then s.takeReq u q rest else (s.takeReq u q rest).snap u := by
  rw [State.startSelect_eq hready, if_neg (by rcases hgoes with h | h <;> simp [h])]

theorem State.startSelect_resumed (hsnap : q.snap.isSome = true) :
    (s.startSelect u).jay u = { s.jay u with queue := rest, run := some (s.newRun q) } := by
  rw [State.startSelect_of_goes hready hgoes, if_pos hsnap, State.takeReq_jay hu]

variable (hsnap : q.snap = none)
include hsnap

theorem State.startSelect_poisoned (h : s.selPoisoned q.tenant q.word 0 = true) :
    s.startSelect u = (s.takeReq u q rest).programFault q.tenant codeMemoryUe ∧ ((s.startSelect u).jay u).run = none := by
  have hrun : ((s.takeReq u q rest).jay u).run = some (s.newRun q) := congrArg JayUnit.run (State.takeReq_jay hu)
  have hfault : s.startSelect u = (s.takeReq u q rest).programFault q.tenant codeMemoryUe := by
    rw [State.startSelect_of_goes hready hgoes, hsnap, if_neg (by decide)]
    have hpoison : (s.takeReq u q rest).selPoisoned (s.newRun q).req.tenant (s.newRun q).req.word (s.newRun q).snapped = true := by
      simpa [State.newRun, hsnap, State.takeReq_selPoisoned] using h
    rw [State.snap_poisoned hrun hpoison, State.newRun]
  refine ⟨hfault, ?_⟩
  rw [hfault]
  exact State.programFault_run codeMemoryUe hrun rfl

theorem State.startSelect_clean (h : s.selPoisoned q.tenant q.word 0 = false) :
    (s.startSelect u).jay u = { s.jay u with queue := rest, run := some (s.snapped (s.newRun q)) } := by
  have hrun : ((s.takeReq u q rest).jay u).run = some (s.newRun q) := congrArg JayUnit.run (State.takeReq_jay hu)
  rw [State.startSelect_of_goes hready hgoes, hsnap, if_neg (by decide),
    State.snap_clean hrun (by simpa [State.newRun, hsnap, State.takeReq_selPoisoned] using h), State.jay_updJay_self _ hu,
    State.takeReq_jay hu, State.takeReq_snapped]

end

section
variable {s : State} {u : Nat} {r : SelRun} (hheld : s.held = false) (hhalted : s.halted = false) (hserves : (s.jay u).view.serves = true)
  (hrun : (s.jay u).run = some r) (hstop : r.stop = false) (hlocal : sqGroup r.req.word = 0) (hfailed : r.failed = none)
include hheld hhalted hserves hrun hstop hlocal hfailed

theorem State.passSelect_of_complete (h : r.complete = true) : s.passSelect u = s := by
  simp only [SelRun.complete, Bool.and_eq_true, Option.isNone_iff_eq_none] at h
  have hstep : s.passStep u r = s := by
    rw [State.passStep, h.1, h.2]
    rfl
  rw [State.passSelect_eq hheld hhalted hserves hrun, hstop, if_neg Bool.false_ne_true, hstep,
    State.sendDue_endFailed_of_local hrun hlocal hfailed]

/-- A local run that has not failed goes on as its step leaves it. -/
theorem State.passSelect_of_step (hu : u < 4) {r' : SelRun} (hreq : r'.req = r.req) (hfailed' : r'.failed = r.failed)
    (hstep : s.passStep u r = s.updJay u fun j => { j with run := some r' }) : ((s.passSelect u).jay u).run = some r' := by
  have hrun' : ((s.passStep u r).jay u).run = some r' := by rw [hstep, State.jay_updJay_self s hu]
  rw [State.passSelect_eq hheld hhalted hserves hrun, hstop, if_neg Bool.false_ne_true,
    State.sendDue_endFailed_of_local hrun' (by rw [hreq, hlocal]) (by rw [hfailed', hfailed]), hrun']

end

/-- A run that has failed or is complete leaves its unit (07 R282; 15 R587). -/
theorem State.resultSelect_free {s : State} {u : Nat} {r : SelRun} (hheld : s.held = false) (hhalted : s.halted = false)
    (hrun : (s.jay u).run = some r) (hu : u < 4) (h : r.failed.isSome = true ∨ r.complete = true) :
    ((s.resultSelect u).jay u).run = none := by
  cases hfailed : r.failed with
  | some code =>
    rw [State.resultSelect_of_failed hheld hhalted hrun hfailed]
    exact State.failRun_free s hu code
  | none =>
    have hcomplete : r.complete = true := h.resolve_left (by simp [hfailed])
    cases hstop : r.stop with
    | true =>
      rw [State.resultSelect_of_cut hheld hhalted hrun hfailed hcomplete hstop]
      exact State.failSel_run _ u r.req _ (State.leaveRun_free hu)
    | false =>
      rw [State.resultSelect_of_done hheld hhalted hrun hfailed hcomplete hstop _ rfl]
      exact State.writeSel_run _ u r.req _ _ _ _ _ (State.leaveRun_free hu)

end Sys2Proof.Machine
end

section
/-! SUPPORT. Bear and Jay take their steps. -/
namespace Sys2Proof.Machine
open Sys2Proof

/-- Settles O59: each request by the equation of its case, and what it leaves by the lemma of its report, its result or its task's end. -/
theorem solverAndSelectionTakeTheirSteps : Obligations.SolverAndSelectionTakeTheirSteps := by
  unfold Obligations.SolverAndSelectionTakeTheirSteps
  refine ⟨fun s hinv hheld hhalted => ⟨?smooth, ?solveStart, ?iteration, ?solveEnd⟩,
    fun s hinv hheld hhalted => ⟨?select, ?selectStart, ?pass, ?result⟩⟩
  case smooth =>
    refine fun k task b rest hissued => ⟨settle (s.receiveSmooth k), rfl, fun hflaw => ?_, fun hshort hbad us hus => ?_⟩
    · rw [State.receiveSmooth_refused hheld hhalted hissued hflaw]
      simp only [settle_tenant_fields, settle_sched_fields]
      refine ⟨fun hserved => ?_, fun x hx => ⟨fun hgroup => ?_, fun hgroup => ?_⟩⟩
      · rw [(State.finishTask_served (s := s.updSolver k _) hinv.regs hserved task _).1, State.tenant_updSolver_self]
      · exact State.finishTask_retires (x := x) _ (by rwa [State.tenant_updSolver_self]) (by rwa [State.tenant_updSolver_self])
      · exact State.finishTask_ended _ (by rwa [State.tenant_updSolver_self])
    · subst hus
      refine ⟨fun hunits => ?_, fun hunits => ?_⟩
      · rw [State.receiveSmooth_fenced hheld hhalted hissued hshort hbad hunits]
        simp only [settle_tenant_fields, State.fencedReports_other, State.tenant_updSolver_self, State.smoothSlots, List.length_map,
          List.length_range]
      · rw [State.receiveSmooth_queued hheld hhalted hissued hshort hbad hunits]
        simp only [settle_tenant_fields, State.tenant_updSolver_self, State.smoothSlots, List.map_append, List.map_map, true_and,
          Nat.max_eq_right (List.length_pos_iff.mpr hunits)]
        rfl
  case solveStart =>
    intro u k x hframe hopening hbefore hserves hfree hstalls hnext
    have hready : BearReady s u k x := ⟨hheld, hhalted, hframe, hopening, hbefore, hserves, hfree, hstalls, hnext⟩
    refine ⟨settle (s.startSolve u), rfl, fun hsource => ?_, fun c hcand hclear hquota hkind hmode =>
      ⟨fun hpoison => ?_, fun hclean => ?_⟩⟩
    · have hreport := State.emptyReport_reported s k x codeBad 0 0 false
      rw [State.startSolve_refused hready hsource]
      simp only [settle_tenant_fields, settle_reads]
      exact ⟨hreport.solve u hfree, hreport.other, hreport.finished⟩
    · rw [State.startSolve_poisoned hready ⟨hcand, hclear, hquota, hkind, hmode⟩ hpoison]
      simp only [settle_tenant_fields, settle_reads]
      exact ⟨(State.programFault_shed s k _).solve_none hfree, (State.programFault_faulted s k _).aborted⟩
    · simp only [settle_tenant_fields, settle_reads]
      exact State.startSolve_runs hready u.isLt ⟨hcand, hclear, hquota, hkind, hmode⟩ hclean
  case iteration =>
    refine fun u v hsolve hill hmore => ⟨settle (s.iterateSolve u), rfl, fun hgoes => ?_, fun hstop hwell => ?_⟩
    · simp only [settle_tenant_fields, settle_reads]
      exact State.iterateSolve_goes hheld hhalted hsolve u.isLt hill hmore hgoes
    · simp only [settle_tenant_fields, settle_reads]
      exact ⟨State.iterateSolve_free hheld hhalted hsolve u.isLt hill hmore hstop hwell,
        fun x hx => State.iterateSolve_reported hheld hhalted hsolve hill hmore hstop hwell hx⟩
  case solveEnd =>
    refine fun u v hsolve => ⟨fun hill hstop hmore => ?_, fun hends => ⟨settle (s.endSolve u), rfl, ?_⟩⟩
    · exact congrArg (fun t => Host.Outcome.next (settle t)) (State.endSolve_waits hheld hhalted hsolve hill hstop hmore)
    simp only [settle_tenant_fields, settle_reads]
    refine ⟨State.endSolve_free hheld hhalted hsolve u.isLt hends, fun x hx =>
      ⟨State.endSolve_finished hheld hhalted hsolve hends hx, fun hill => ?_, fun hill hstop => ?_, fun hill hstop => ?_, ?_⟩⟩
    · rw [(State.endSolve_counts hheld hhalted hsolve (.inl hill) hx _ rfl).2.2, Solve.status, hill]
      rfl
    · rw [State.endSolve_cut hheld hhalted hsolve hill hstop]
      exact (State.cutSolve_reported hx).1
    · have hdone : v.iters ≤ v.done := by simpa [hill, hstop] using hends
      obtain ⟨hsolved, hnot, hbad⟩ := State.endSolve_counts hheld hhalted hsolve (.inr ⟨hstop, hdone⟩) hx _ rfl
      rw [hsolved, hnot, hbad]
      exact Solve.count_status v _ _
    · rintro _ rfl hill hstop hstuck hp hd hmu
      have hdone : v.iters ≤ v.done := by simpa [hill, hstop] using hends
      have hconverged : v.converged (s.tenant v.tenant).solver.model = true := by simp [Solve.converged, hp, hd, hmu]
      obtain ⟨hsolved, -, -⟩ := State.endSolve_counts hheld hhalted hsolve (.inr ⟨hstop, hdone⟩) hx _ rfl
      refine ⟨?_, fun c hc => State.endSolve_cand hheld hhalted hsolve (.inr ⟨hstop, hdone⟩) hx hill hstuck hconverged hc⟩
      rw [hsolved, Solve.status, hill, hstuck, hconverged]
      rfl
  case select =>
    refine fun k task ph b rest w hissued hw => ⟨settle (s.receiveSelect k), rfl, fun hflaw => ?_, fun hshort hbad us u hus hu => ?_⟩
    · rw [State.receiveSelect_refused hheld hhalted hissued hw hflaw]
      simp only [settle_tenant_fields, settle_sched_fields]
      have hcode : (if selectShort w then codeLength else codeBad) ∈ [codeLength, codeBad, codeFenced] := by
        split
        · exact List.mem_cons_self
        · exact List.mem_cons_of_mem _ List.mem_cons_self
      have hcounts := State.refuseSelect_counts (s := s.updSel k fun v => { v with issued := rest }) (t := k) (task := task) hcode
      rw [State.tenant_updSel_self] at hcounts
      refine ⟨fun hserved => ?_, hcounts.1, hcounts.2, fun x hx hgroup => ?_⟩
      · rw [State.refuseSelect_issued (s := s.updSel k _) hcode hinv.regs hserved, State.tenant_updSel_self]
      · exact State.refuseSelect_retires (x := x) (by rwa [State.tenant_updSel_self]) (by rwa [State.tenant_updSel_self])
    · subst hus
      refine ⟨fun hunits hlease => ?_, fun hunits hfull => ?_, fun hunits hroom => ?_⟩
      · rw [State.receiveSelect_fenced hheld hhalted hissued hw hshort hbad hunits]
        simp only [settle_tenant_fields]
        have hfenced := State.failSel_fenced (s := (s.updSel k fun v => { v with issued := rest }).noteSelect k w) (u := s.selUnit k)
          (s.selectReq k task ph w) hlease
        simpa only [State.selectReq, State.noteSelect, State.tenant_updSel_self] using hfenced
      · rw [State.receiveSelect_waits hheld hhalted hissued hw hshort hbad hunits hu hfull]
      · rw [State.receiveSelect_dealt hheld hhalted hissued hw hshort hbad hunits hu hroom]
        have hlt : u < 4 := hu ▸ State.usableJay_lt s k _
        simp only [settle_tenant_fields, settle_reads, State.jay_updJay_self _ hlt, State.updJay_reads, State.noteSelect,
          State.tenant_updSel_self]
        refine ⟨trivial, trivial, trivial, fun hgroup => ?_, rfl⟩
        simp only [Selection.collCount, if_neg hgroup, mfind_mput_self, Option.getD_some]
  case selectStart =>
    intro u q rest hframe hopening hserves hfree hhead
    have hready : JayReady s u q rest := ⟨hheld, hhalted, hframe, hopening, hserves, hfree, hhead⟩
    refine ⟨settle (s.startSelect u), rfl, fun hgroup hlost => ?_, fun hgoes => ⟨fun n es hsnap => ?_, fun hsnap hpoison => ?_,
      fun hsnap hclean => ?_⟩⟩
    · simp only [settle_reads]
      exact State.startSelect_lost hready u.isLt hgroup hlost
    · simp only [settle_reads, State.startSelect_resumed hready u.isLt hgoes (Option.isSome_of_eq_some hsnap)]
      exact ⟨trivial, _, rfl, rfl, rfl, rfl, by rw [State.newRun, hsnap]; rfl, by rw [State.newRun, hsnap]; rfl⟩
    · obtain ⟨hfault, hgone⟩ := State.startSelect_poisoned hready u.isLt hgoes hsnap hpoison
      simp only [settle_reads, settle_tenant_fields]
      exact ⟨hgone, hfault ▸ (State.programFault_faulted _ _ _).aborted⟩
    · simp only [settle_reads, State.startSelect_clean hready u.isLt hgoes hsnap hclean]
      refine ⟨trivial, _, rfl, rfl, rfl, rfl, rfl, ?_, ?_⟩
      · simp only [State.snapped, State.newRun, hsnap, Option.map_none, Option.getD_none, Nat.zero_add]
      · simp only [State.snapped, State.newRun, hsnap, Option.map_none, Option.getD_none, List.nil_append]
  case pass =>
    refine fun u r hserves hrun => ⟨settle (s.passSelect u), rfl, fun hends => ?_, fun hstop hfailed hlocal => ⟨fun hcomplete => ?_,
      fun i hdone hpass htiles => ?_, fun hmore hrow hclean => ?_⟩⟩
    · simp only [settle_reads]
      exact State.passSelect_ends u.isLt hheld hhalted hserves hrun hends
    · rw [State.passSelect_of_complete hheld hhalted hserves hrun hstop hlocal hfailed hcomplete]
    · simp only [settle_reads]
      refine State.passSelect_of_step hheld hhalted hserves hrun hstop hlocal hfailed u.isLt (by rfl) (by rfl) ?_
      simp only [State.passStep, hdone, hpass, htiles, Bool.not_true, Bool.false_eq_true, if_false, if_true]
    · simp only [settle_reads]
      have hsnapped : s.snapped r = { r with
          snapped := min (sqRow r.req.word) (r.snapped + 65536)
          entries := r.entries ++ s.snapshotPiece r.req.tenant r.req.word r.snapped } := by
        rw [State.snapped, hrow, if_neg Bool.false_ne_true, if_neg Bool.false_ne_true]
      rw [← hsnapped]
      refine State.passSelect_of_step hheld hhalted hserves hrun hstop hlocal hfailed u.isLt rfl rfl ?_
      rw [State.passStep, hmore, Bool.not_false, if_pos rfl, State.snap_clean hrun hclean]
  case result =>
    refine fun u r hrun => ⟨settle (s.resultSelect u), rfl, fun hends => ?_, fun hfailed hmore => ?_,
      fun hfailed hcomplete hstop hlease => ?_, fun x hx hfailed hcomplete hstop hlease => ?_⟩
    · simp only [settle_reads]
      exact State.resultSelect_free hheld hhalted hrun u.isLt hends
    · rw [State.resultSelect_of_running hheld hhalted hrun hfailed hmore]
    · rw [State.resultSelect_of_cut hheld hhalted hrun hfailed hcomplete hstop]
      simp only [settle_tenant_fields]
      exact State.failSel_cut hlease
    · rw [State.resultSelect_of_done hheld hhalted hrun hfailed hcomplete hstop x hx]
      simp only [settle_tenant_fields]
      exact State.writeSel_counts hlease (r.result_status x hx) _ rfl
end Sys2Proof.Machine
end

section
/-! SUPPORT. What a core's part leaves as it ends or faults: the core idle, its counts and its store as they were (08 R327, R331; 13 R507). -/
namespace Sys2Proof.Machine
open Sys2Proof

/-! ### A core that halts -/

/-- A core keeps what it has counted and stored. -/
structure Core.SameWork (k k' : Core) : Prop where
  steps : k'.steps = k.steps
  busy : k'.busy = k.busy
  store : k'.store = k.store

theorem Core.SameWork.refl (k : Core) : k.SameWork k := ⟨rfl, rfl, rfl⟩

theorem Core.SameWork.trans {k k' k'' : Core} (h : k.SameWork k') (h' : k'.SameWork k'') : k.SameWork k'' :=
  ⟨h'.steps.trans h.steps, h'.busy.trans h.busy, h'.store.trans h.store⟩

theorem State.haltCore_work (s : State) (k : Core) : k.SameWork (s.haltCore k) := by
  unfold State.haltCore State.accrueCore
  split <;> exact ⟨rfl, rfl, rfl⟩

theorem State.haltCore_run (s : State) (k : Core) : (s.haltCore k).run = none := rfl

/-- A core is the same in two states that differ in other parts. -/
theorem Touches.core {l : List Part} {s u : State} (h : Touches l s u) (c : Nat) (hp : l.contains .cores = false := by decide) :
    u.core c = s.core c := by
  rw [State.core, h.cores hp, ← State.core]

/-- A core as the work of a tenant leaves it. -/
def State.dropCore (s : State) (t : Fin 16) (k : Core) : Core :=
  match k.run with
  | some r => if r.part.tenant = t then s.haltCore k else k
  | none => k

theorem State.dropCore_work (s : State) (t : Fin 16) (k : Core) : k.SameWork (s.dropCore t k) := by
  unfold State.dropCore
  split
  · split
    · exact s.haltCore_work k
    · exact Core.SameWork.refl k
  · exact Core.SameWork.refl k

theorem State.dropParts_core (s : State) (t : Fin 16) (keep : PartRef → Bool) (c : Nat) : (s.dropParts t keep).core c =
    { s.core c with ready := (s.core c).ready.filter fun p => p.tenant ≠ t || keep p } :=
  bget_map _ s.cores _ rfl c

/-- Dropping a tenant's work halts the cores that run it (10 R399). -/
theorem State.dropWork_core (s : State) (t : Fin 16) (c : Nat) :
    (s.dropWork t).core c = (s.dropParts t fun _ => false).dropCore t ((s.dropParts t fun _ => false).core c) :=
  bget_map _ (s.dropParts t fun _ => false).cores ((s.dropParts t fun _ => false).dropCore t) rfl c

theorem State.dropWork_work (s : State) (t : Fin 16) (c : Nat) : (s.core c).SameWork ((s.dropWork t).core c) := by
  have hparts : (s.core c).SameWork ((s.dropParts t fun _ => false).core c) := by
    rw [State.dropParts_core]
    exact ⟨rfl, rfl, rfl⟩
  rw [State.dropWork_core]
  exact hparts.trans (State.dropCore_work _ t _)

theorem State.dropWork_run {s : State} {t : Fin 16} {c : Nat} {r : Run} (hrun : (s.core c).run = some r) (ht : r.part.tenant = t) :
    ((s.dropWork t).core c).run = none := by
  have hparts : ((s.dropParts t fun _ => false).core c).run = some r := by
    rw [State.dropParts_core]
    exact hrun
  rw [State.dropWork_core, State.dropCore, hparts]
  simp only [if_pos ht, State.haltCore_run]

/-! ### A part that faults (13 R507) -/

theorem State.abortTasks_work (s : State) (t : Fin 16) (code : Byte) (c : Nat) : (s.core c).SameWork ((s.abortTasks t code).core c) := by
  obtain ⟨v, hbefore, hafter⟩ := State.abortTasks_drops s t code
  rw [hafter.core c, ← hbefore.core c]
  exact State.dropWork_work v t c

theorem State.abortTasks_run {s : State} {t : Fin 16} {c : Nat} {r : Run} (code : Byte) (hrun : (s.core c).run = some r)
    (ht : r.part.tenant = t) : ((s.abortTasks t code).core c).run = none := by
  obtain ⟨v, hbefore, hafter⟩ := State.abortTasks_drops s t code
  rw [hafter.core c]
  exact State.dropWork_run (by rwa [hbefore.core c]) ht

theorem State.failFrame_work (s : State) (t : Fin 16) (code : Byte) (c : Nat) : (s.core c).SameWork ((s.failFrame t code).core c) := by
  have hverdict : Touches [.safe, .tOut] (s.abortTasks t code) (s.failFrame t code) :=
    State.judgeImminent_touches _ t (by decide) (State.updOut_touches _ t _ (by decide) (Touches.refl _ _))
  rw [hverdict.core c]
  exact State.abortTasks_work s t code c

/-- A part that faults leaves its core, and its tenant's frame is aborted (13 R507). -/
theorem State.faultPart_faulted {s : State} {c : Fin 48} {r : Run} (code : Byte) (hrun : (s.core c).run = some r) :
    PartFaulted (settle (s.faultPart c r code)) c r.part := by
  have hnote : Touches [.regs] s (s.coreFault c r.part.tenant (s.slotOf r.part.tenant r.part.task) code) :=
    State.coreFault_touches s _ _ _ _ (within_refl _) (Touches.refl _ _)
  have hfault := State.programFault_faulted (s.coreFault c r.part.tenant (s.slotOf r.part.tenant r.part.task) code) r.part.tenant code
  refine ⟨?_, ?_, ?_⟩
  · simp only [settle_reads]
    rw [State.faultPart, (State.programFault_after_abort _ _ _).core]
    exact State.abortTasks_run code (by rwa [hnote.core c]) rfl
  · simp only [settle_sched_fields, State.faultPart, hfault.sched]
  · simp only [settle_tenant_fields, State.faultPart, hfault.aborted]

/-! ### A part that ends (08 R331; 10 R379) -/

theorem State.updCore_work (s : State) (i : Nat) {f : Core → Core} (hf : ∀ k : Core, k.SameWork (f k)) (c : Nat) :
    (s.core c).SameWork ((s.updCore i f).core c) := by
  by_cases hi : i = c
  · subst hi
    by_cases hlt : i < 48
    · rw [State.core_updCore_self s hlt]
      exact hf _
    · have hsame : s.updCore i f = s := by simp [State.updCore, bupd, hlt]
      rw [hsame]
      exact Core.SameWork.refl _
  · rw [State.core_updCore_ne s hi]
    exact Core.SameWork.refl _

theorem State.putPart_work (s : State) (p : PartRef) (c : Nat) : (s.core c).SameWork ((s.putPart p).core c) := by
  unfold State.putPart
  split
  · rename_i i _
    rw [(State.notePeak_touches (L := [.regs]) _ i (by decide) (Touches.refl _ _)).core c]
    exact State.updCore_work s i (fun _ => by exact ⟨rfl, rfl, rfl⟩) c
  · exact Core.SameWork.refl _

/-- Whatever a task's end brings about, a core's counts and store stand. -/
theorem taskSteps_work (t : Fin 16) (c : Nat) (k : Core) : TaskSteps t (fun u => k.SameWork (u.core c)) fun _ => True where
  active _ _ _ _ := trivial
  trace kind i hs := by rwa [(State.trace_own _ kind t i).core c]
  tags f hs := hs
  cut p hs := hs
  part p hs := hs.trans (State.putPart_work _ p c)
  task i f _ _ hs := hs
  retire i flag hs := hs
  fail code _ _ hs := hs.trans (State.failFrame_work _ t code c)

theorem State.endPart_work (s : State) (i c : Nat) : (s.core c).SameWork ((s.endPart i).core c) := by
  unfold State.endPart
  split
  · exact Core.SameWork.refl _
  · extract_lets t s1 s2
    have hhalt : (s.core c).SameWork (s2.core c) := State.updCore_work s i s.haltCore_work c
    split
    · split
      · exact (taskSteps_work t c (s.core c)).finishTask _ trivial hhalt
      · exact hhalt
    · exact hhalt

/-! ### Tile boundaries (01 R36; 09 R356, R361) -/

theorem State.setRun_core (s : State) (c : Fin 48) (r : Run) : (s.setRun c r).core c = { s.core c with run := some r } :=
  State.core_updCore_self s c.isLt _

section
variable {s : State} {c : Fin 48} {r : Run}

/-- A part that has more to do and need not stop goes on past a boundary, as does one whose tile waits to be sent. -/
theorem State.atBoundary_goes (h : r.finished = false ∧ r.stop = false ∨ r.outgoing.isSome = true) :
    s.atBoundary c r = s.setRun c r := by
  unfold State.atBoundary
  rcases h with ⟨hfinished, hstop⟩ | hout
  · simp [hfinished, hstop]
  · simp [Option.isNone_eq_false_iff.mpr hout]

/-- A part that has nothing left to do, or has to stop, ends at a boundary once its link sends are answered. -/
theorem State.atBoundary_ends (h : r.finished = true ∨ r.stop = true) (hout : r.outgoing = none) (hanswered : s.answered r.part) :
    ((s.atBoundary c r).core c).run = none := by
  have hopen : ((s.setRun c r).cascade.tags.any fun g =>
      g.core.isSome && g.tenant = r.part.tenant && g.task = r.part.task && g.unit = r.part.unit) = false := by
    refine List.any_eq_false.mpr fun g hg hopen => ?_
    simp only [Bool.and_eq_true, decide_eq_true_eq] at hopen
    obtain ⟨⟨⟨hcore, htenant⟩, htask⟩, hunit⟩ := hopen
    exact hanswered g hg hcore htenant htask hunit
  have hends : s.atBoundary c r = (s.setRun c r).endPart c := by
    unfold State.atBoundary
    dsimp only
    rw [hopen, hout]
    rcases h with h | h <;> simp [h]
  rw [hends]
  exact (State.endPart_halts _ c.isLt).1

end

theorem State.atBoundary_work (s : State) (c : Fin 48) (r : Run) : (s.core c).SameWork ((s.atBoundary c r).core c) := by
  have hset : (s.core c).SameWork ((s.setRun c r).core c) := State.updCore_work s c (fun _ => by exact ⟨rfl, rfl, rfl⟩) c
  unfold State.atBoundary
  extract_lets s1 hopen
  split
  · exact hset.trans (State.endPart_work s1 c c)
  · exact hset

end Sys2Proof.Machine
end

section
/-! SUPPORT. The steps of a core's part (08 R297, R303, R309, R311, R317, R324; 09 R343, R349, R351, R368): one equation for each case. -/
namespace Sys2Proof.Machine
open Sys2Proof

/-! ### What a core's part does next -/

section
variable {s : State} {c : Nat} {r : Run} (hheld : s.held = false) (hhalted : s.halted = false) (hrun : (s.core c).run = some r)
include hrun

/-- A part whose tile waits to be sent takes no step (09 R356). -/
theorem State.stepTile_waits (hout : r.outgoing.isSome = true) : s.stepTile c = s := by
  simp only [State.stepTile, hrun, hout, Bool.or_true, if_true]

variable (hout : r.outgoing = none)
include hheld hhalted hout

theorem State.stepTile_finished (hfinished : r.finished = true) : s.stepTile c = s.atBoundary c r := by
  simp [State.stepTile, hrun, hheld, hhalted, hout, hfinished]

variable {p : ProgramImage} (hfinished : r.finished = false) (himage : (s.tenant r.part.tenant).sched.image = some p)
include hfinished himage

/-- A part that is no GEMM ends whole (08 R324). -/
theorem State.stepTile_whole (hnone : p.gemms[trWork ((s.tenant r.part.tenant).sched.rec' r.part.task)]? = none) :
    s.stepTile c = (s.countStep c 0).endPart c := by
  simp only [State.stepTile, hrun, hheld, hhalted, hout, hfinished, himage, hnone, Option.isSome_none, Bool.or_self, Bool.false_eq_true,
    if_false]

theorem State.stepTile_gemm {w : BitVec 512} (hw : p.gemms[trWork ((s.tenant r.part.tenant).sched.rec' r.part.task)]? = some w)
    {g : GemmCtx} (hg : g = (s.tenant r.part.tenant).sched.gemmCtx p w r.addrs r.part.unit) :
    s.stepTile c = s.stepGemm c r g ((s.tenant r.part.tenant).sched.chainCtx p g) := by
  subst hg
  simp only [State.stepTile, hrun, hheld, hhalted, hout, hfinished, himage, hw, Option.isSome_none, Bool.or_self, Bool.false_eq_true,
    if_false]

end

section
variable (s : State) (c : Nat) {r : Run} {g g2 : GemmCtx}

/-- The GEMM of a chain that a part is in. -/
def Run.inGemm (r : Run) (g g2 : GemmCtx) : GemmCtx := if r.second then g2 else g

theorem State.stepGemm_softmax (hsecond : r.second = true) (hsoft : fuChain g.f = 2) : s.stepGemm c r g g2 = s.closeSoftmax c r g2 := by
  simp [State.stepGemm, hsecond, hsoft]

variable (hplain : r.second = false ∨ fuChain g.f ≠ 2)
include hplain

/-- A GEMM without a column left goes on with the second GEMM of its chain, or its part is done (08 R323). -/
theorem State.stepGemm_columns (hcol : (r.inGemm g g2).tiles ≤ r.col) : s.stepGemm c r g g2 = s.atBoundary c
    (if ! r.second && fuChain g.f ≠ 0 then r.beginSecond g2 (fuChain g.f = 2) else { r with finished := true }) := by
  have hno : (r.second && decide (fuChain g.f = 2)) = false := by rcases hplain with h | h <;> simp [h]
  simp only [State.stepGemm, hno, Bool.false_eq_true, if_false]
  exact if_pos hcol

variable (hcol : r.col < (r.inGemm g g2).tiles)
include hcol

theorem State.stepGemm_tile : s.stepGemm c r g g2 = if ! r.closing then s.reduceStep c r (r.inGemm g g2)
    else if fuChain g.f = 2 then s.closeScores c r g g2 else s.closeTile c r (r.inGemm g g2) g2 := by
  have hno : (r.second && decide (fuChain g.f = 2)) = false := by rcases hplain with h | h <;> simp [h]
  simp only [State.stepGemm, hno, Bool.false_eq_true, if_false]
  exact if_neg (Nat.not_le.mpr hcol)

theorem State.stepGemm_reduces (hopen : r.closing = false) : s.stepGemm c r g g2 = s.reduceStep c r (r.inGemm g g2) := by
  rw [State.stepGemm_tile s c hplain hcol, hopen]
  rfl

theorem State.stepGemm_scores (hclosing : r.closing = true) (hsoft : fuChain g.f = 2) : s.stepGemm c r g g2 = s.closeScores c r g g2 := by
  rw [State.stepGemm_tile s c hplain hcol, hclosing, if_pos hsoft]
  rfl

theorem State.stepGemm_closes (hclosing : r.closing = true) (hsoft : fuChain g.f ≠ 2) :
    s.stepGemm c r g g2 = s.closeTile c r (r.inGemm g g2) g2 := by
  rw [State.stepGemm_tile s c hplain hcol, hclosing, if_neg hsoft]
  rfl

end

/-! ### Ranges (08 R317; 19 R728) -/

section
variable {s : State} {c : Fin 48} {r : Run} {rd wr : List (Nat × Nat)}

theorem State.checked_clean {k : State} (h : s.rangeFault r.part.tenant rd wr = none) : s.checked c r rd wr k = k := by
  simp only [State.checked, h]

theorem State.checked_faulted {k : State} (hrun : (s.core c).run = some r) (h : s.rangeFault r.part.tenant rd wr ≠ none) :
    PartFaulted (settle (s.checked c r rd wr k)) c r.part := by
  obtain ⟨code, hcode⟩ := Option.ne_none_iff_exists'.mp h
  simp only [State.checked, hcode]
  exact State.faultPart_faulted code hrun

end

theorem State.answered_congr {s u : State} {p : PartRef} (h : u.cascade = s.cascade) (hs : s.answered p) : u.answered p := by
  intro g hg
  exact hs g (h ▸ hg)

/-! ### A reduction step (08 R297, R303, R311, R325) -/

/-- The ranges that a reduction step reads: its operands, and C where the tile begins from it. -/
def State.reduceRanges (s : State) (r : Run) (h : GemmCtx) : List (Nat × Nat) :=
  s.operandRanges h r.col r.kStep (! r.second) ++ (if h.accInit && h.stores && r.kStep = 0 then
    (List.range h.rows).map fun i => (h.c + (h.row0 + i) * h.ldc + 4 * h.col0 r.col, 4 * h.cols r.col) else [])

/-- The tile's accumulators after a reduction step. -/
def State.reduceAcc (s : State) (r : Run) (h : GemmCtx) : List Word :=
  s.reduceTile h r.col r.kStep (fun i k => if r.second then operand h.fmt (lget 0 r.band (i * h.k + k)).toNat else s.aVal h (h.row0 + i) k)
    (if r.kStep = 0 then s.accStart h h.stores r.col else r.acc)

/-- A reduction step counted, and the tile's accumulators in the core store. -/
def State.reduced (s : State) (c : Nat) (r : Run) (h : GemmCtx) : State :=
  (s.countStep c (h.stepCycles r.col r.kStep)).updCore c fun k => k.putAcc h r.half (h.cols r.col) (s.reduceAcc r h)

/-- A run after a reduction step. -/
def State.reducedRun (s : State) (r : Run) (h : GemmCtx) : Run :=
  { r with kStep := r.kStep + 1, acc := s.reduceAcc r h, closing := h.steps ≤ r.kStep + 1 }

section
variable {s : State} {c : Fin 48} {r : Run} {h : GemmCtx}

theorem State.reduced_core : (s.reduced c r h).core c = { s.core c with
    steps := (s.core c).steps + 1
    busy := (s.core c).busy + h.stepCycles r.col r.kStep
    store := ((s.core c).putAcc h r.half (h.cols r.col) (s.reduceAcc r h)).store } := by
  rw [State.reduced, State.core_updCore_self _ c.isLt, State.countStep, State.core_updCore_self _ c.isLt]
  rfl

/-- A bad list entry, a bad gather index, a range outside the lease and poisoned data fault the part (08 R317; 09 R340; 19 R728). -/
theorem State.reduceStep_faulted (hrun : (s.core c).run = some r) (hfault : s.entryFault r.part.tenant h = true ∨
      r.second = false ∧ s.gatherFault h = true ∨ s.rangeFault r.part.tenant (s.reduceRanges r h) [] ≠ none) :
    PartFaulted (settle (s.reduceStep c r h)) c r.part := by
  unfold State.reduceStep
  dsimp only
  split
  · exact State.faultPart_faulted _ hrun
  next hclean =>
    refine State.checked_faulted hrun ?_
    rcases hfault with hentry | ⟨hsecond, hgather⟩ | hrange
    · exact absurd (by simp [hentry]) hclean
    · exact absurd (by simp [hsecond, hgather]) hclean
    · exact hrange

variable (hentry : s.entryFault r.part.tenant h = false) (hgather : r.second = true ∨ s.gatherFault h = false)
  (hrange : s.rangeFault r.part.tenant (s.reduceRanges r h) [] = none)
include hentry hgather hrange

theorem State.reduceStep_clean : s.reduceStep c r h = (s.reduced c r h).atBoundary c (s.reducedRun r h) := by
  have hindex : (! r.second && s.gatherFault h) = false := by rcases hgather with k | k <;> simp [k]
  unfold State.reduceStep
  dsimp only
  rw [hentry, hindex, Bool.or_self, if_neg Bool.false_ne_true]
  exact State.checked_clean hrange

theorem State.reduceStep_work : ((s.reduced c r h).core c).SameWork ((s.reduceStep c r h).core c) := by
  rw [State.reduceStep_clean hentry hgather hrange]
  exact State.atBoundary_work _ c _

theorem State.reduceStep_goes (hfinished : r.finished = false) (hstop : r.stop = false) :
    s.reduceStep c r h = (s.reduced c r h).setRun c (s.reducedRun r h) := by
  rw [State.reduceStep_clean hentry hgather hrange]
  exact State.atBoundary_goes (.inl ⟨hfinished, hstop⟩)

/-- A part that its deadline has stopped ends at the boundary, its tile discarded (08 R331). -/
theorem State.reduceStep_ends (hout : r.outgoing = none) (hstop : r.stop = true) (hanswered : s.answered r.part) :
    ((s.reduceStep c r h).core c).run = none := by
  rw [State.reduceStep_clean hentry hgather hrange]
  exact State.atBoundary_ends (.inr hstop) hout (State.answered_congr rfl hanswered)

end

/-! ### The epilogue of an output tile (08 R309, R325; 09 R343, R350, R368) -/

/-- A complete tile stored where its GEMM stores, and its epilogue counted. -/
def State.closed (s : State) (c : Nat) (r : Run) (h : GemmCtx) (col : Nat) (tile : List Word) : State :=
  (if h.stores then s.storeTile c r.part h col tile else s).countStep c 0

/-- A run whose tile has been stored, kept or handed on. -/
def State.closedRun (s : State) (r : Run) (h : GemmCtx) (tile : List Word) : Run :=
  { r.nextTile with
    outgoing := s.toSend r h tile
    band := if ! r.second && fuChain h.f = 1 then bandPut h.rows (h.col0 r.col) (h.cols r.col) r.band tile else r.band }

section
variable {s : State} {c : Fin 48} {r : Run} {h g2 : GemmCtx} {tile : List Word} {col : Nat}

theorem State.closed_cascade : (s.closed c r h col tile).cascade = s.cascade := by
  have hstore : (if h.stores then s.storeTile c r.part h col tile else s).cascade = s.cascade := by
    split
    · exact (State.storeTile_touches s c r.part h col tile (within_refl _) (Touches.refl _ _)).cascade
    · rfl
  exact hstore

theorem State.closed_dram : (s.closed c r h col tile).dram = if h.stores then (s.storeTile c r.part h col tile).dram else s.dram :=
  apply_ite State.dram _ _ _

theorem State.closeTile_faulted (hrun : (s.core c).run = some r)
    (hfault : s.rangeFault r.part.tenant (h.outRanges r.col h.stores).1 (h.outRanges r.col h.stores).2 ≠ none) :
    PartFaulted (settle (s.closeTile c r h g2)) c r.part := State.checked_faulted hrun hfault

variable (hrange : s.rangeFault r.part.tenant (h.outRanges r.col h.stores).1 (h.outRanges r.col h.stores).2 = none)
  (htile : tile = s.outTile h h.fmt r.col r.acc)
include hrange htile

theorem State.closeTile_clean : s.closeTile c r h g2 = (s.closed c r h r.col tile).atBoundary c
    (if h.tiles ≤ r.col + 1 && (! r.second && fuChain h.f = 1) then (s.closedRun r h tile).beginSecond g2 false
      else { s.closedRun r h tile with finished := h.tiles ≤ r.col + 1 }) := by
  subst htile
  exact State.checked_clean hrange

/-- The next tile takes the other accumulator half (08 R303). -/
theorem State.closeTile_goes (hfinished : r.finished = false) (hstop : r.stop = false) (hmore : r.col + 1 < h.tiles) :
    s.closeTile c r h g2 = (s.closed c r h r.col tile).setRun c (s.closedRun r h tile) := by
  have hlast : decide (h.tiles ≤ r.col + 1) = false := decide_eq_false (Nat.not_le.mpr hmore)
  have hkeep : { s.closedRun r h tile with finished := false } = s.closedRun r h tile := by
    rw [← hfinished]
    rfl
  rw [State.closeTile_clean hrange htile, hlast, Bool.false_and, if_neg Bool.false_ne_true, hkeep]
  exact State.atBoundary_goes (.inl ⟨hfinished, hstop⟩)

theorem State.closeTile_ends (hlast : h.tiles ≤ r.col + 1) (hplain : r.second = true ∨ fuChain h.f ≠ 1)
    (hsend : s.toSend r h tile = none) (hanswered : s.answered r.part) : ((s.closeTile c r h g2).core c).run = none := by
  have hkeep : (! r.second && decide (fuChain h.f = 1)) = false := by rcases hplain with k | k <;> simp [k]
  rw [State.closeTile_clean hrange htile, hkeep, Bool.and_false, if_neg Bool.false_ne_true]
  exact State.atBoundary_ends (.inl (decide_eq_true hlast)) hsend (State.answered_congr State.closed_cascade hanswered)

end

/-! ### SOFTMAX chains (09 R351, R368) -/

section
variable {s : State} {c : Fin 48} {r : Run} {g g2 : GemmCtx}

/-- A score-tile step carries the rows' state and the second GEMM's products on. -/
theorem State.closeScores_goes {sc : List Nat} (hfinished : r.finished = false) (hstop : r.stop = false)
    (hsc : sc = (List.range (g.rows * g.cols r.col)).map fun x =>
      s.epilogue g g.fmt (lget 0 r.acc x) (g.row0 + x / g.cols r.col) (g.col0 r.col + x % g.cols r.col))
    (hrange : s.rangeFault r.part.tenant ((g.outRanges r.col false).1 ++ s.operandRanges g2 0 r.col false) [] = none) :
    s.closeScores c r g g2 = (s.countStep c (g2.stepCycles 0 r.col)).setRun c (if g.tiles ≤ r.col + 1 then
      (s.softTile g2 g.rows (g.cols r.col) (g.col0 r.col) sc r).nextTile.beginSecond g2 true else
      (s.softTile g2 g.rows (g.cols r.col) (g.col0 r.col) sc r).nextTile) := by
  subst hsc
  refine (State.checked_clean hrange).trans (State.atBoundary_goes (.inl ?_))
  split
  · exact ⟨rfl, hstop⟩
  · exact ⟨hfinished, hstop⟩

/-- The final division of a SOFTMAX band. -/
theorem State.closeSoftmax_divides (hfinished : r.finished = false) (hopen : r.closing = false) (hstop : r.stop = false) :
    s.closeSoftmax c r g2 = (s.countStep c 0).setRun c { r with oAcc := softResult g2.rows g2.n r, closing := true } := by
  rw [State.closeSoftmax, hopen, Bool.not_false, if_pos rfl]
  exact State.atBoundary_goes (.inl ⟨hfinished, hstop⟩)

variable {tile : List Word} (hclosing : r.closing = true) (htile : tile = s.outTile g2 1 0 r.oAcc)
  (hrange : s.rangeFault r.part.tenant (g2.outRanges 0 g2.stores).1 (g2.outRanges 0 g2.stores).2 = none)
include hclosing htile hrange

theorem State.closeSoftmax_closes : s.closeSoftmax c r g2 = (s.closed c r g2 0 tile).atBoundary c
    { r with closing := false, outgoing := s.toSend r g2 tile, finished := true } := by
  subst htile
  rw [State.closeSoftmax, hclosing, Bool.not_true, if_neg Bool.false_ne_true]
  exact State.checked_clean hrange

/-- A band whose last tile has to be sent waits for that (09 R356). -/
theorem State.closeSoftmax_sends {o : Outgoing} (hsend : s.toSend r g2 tile = some o) : s.closeSoftmax c r g2 =
    (s.closed c r g2 0 tile).setRun c { r with closing := false, outgoing := some o, finished := true } := by
  rw [State.closeSoftmax_closes hclosing htile hrange, hsend]
  exact State.atBoundary_goes (.inr rfl)

theorem State.closeSoftmax_ends (hsend : s.toSend r g2 tile = none) (hanswered : s.answered r.part) :
    ((s.closeSoftmax c r g2).core c).run = none := by
  rw [State.closeSoftmax_closes hclosing htile hrange]
  exact State.atBoundary_ends (.inl rfl) hsend (State.answered_congr State.closed_cascade hanswered)

end

end Sys2Proof.Machine
end

section
/-! SUPPORT. A finished tile goes to its peer (09 R356 to R361): the ring, the flag, the target, and the pieces of a link send. -/
namespace Sys2Proof.Machine
open Sys2Proof

/-! ### Rings of senders (09 R358) -/

theorem Sched.ring_gemm (d : Sched) (g : Nat) : (d.ring g).gemm = g := by
  unfold Sched.ring
  split
  next r hr => simpa using List.find?_some hr
  next => rfl

theorem Sched.putRing_ring (d : Sched) (r : Ring) : (d.putRing r).ring r.gemm = r := by
  have hothers : (d.rings.filter fun x => x.gemm ≠ r.gemm).find? (fun x => x.gemm = r.gemm) = none := by
    refine List.find?_eq_none.mpr fun x hx => ?_
    simpa using (List.mem_filter.mp hx).2
  unfold Sched.ring Sched.putRing
  simp only [List.find?_append, hothers, Option.none_or, List.find?_cons, decide_true]

/-- A tenant's scheduling once a tile of a sender is noted as sent. -/
def Sched.noteSent (d : Sched) (gemm task q : Nat) (held : List (Nat × List Word)) : Sched :=
  d.putRing { d.ring gemm with sent := (d.ring gemm).sent ++ [(task, q)], held := (d.ring gemm).held ++ held }

theorem Sched.noteSent_ring (d : Sched) (gemm task q : Nat) (held : List (Nat × List Word)) : (d.noteSent gemm task q held).ring gemm =
    { d.ring gemm with sent := (d.ring gemm).sent ++ [(task, q)], held := (d.ring gemm).held ++ held } := by
  have hput := Sched.putRing_ring d { d.ring gemm with sent := (d.ring gemm).sent ++ [(task, q)], held := (d.ring gemm).held ++ held }
  rwa [show ({ d.ring gemm with sent := (d.ring gemm).sent ++ [(task, q)], held := (d.ring gemm).held ++ held } : Ring).gemm = gemm from
    d.ring_gemm gemm] at hput

theorem settle_ring (s : State) (t : Fin 16) (g : Nat) : ((settle s).tenant t).sched.ring g = (s.tenant t).sched.ring g := by
  rw [settle_tenant]
  rfl

/-- A part's tile noted as sent, and the part going on. -/
def State.sent (s : State) (c : Nat) (r : Run) (gemm q : Nat) (held : List (Nat × List Word)) : State :=
  (s.updSched r.part.tenant fun d => d.noteSent gemm r.part.task q held).setRun c { r with outgoing := none }

section
variable {s : State} {c : Fin 48} {r : Run} {gemm q : Nat} {held : List (Nat × List Word)}

/-- A part whose tile is sent goes on, unless it has to stop or is done (09 R356). -/
theorem State.noteSent_goes (hstop : r.stop = false) (hfinished : r.finished = false) :
    s.noteSent c r gemm q held = s.sent c r gemm q held := State.atBoundary_goes (.inl ⟨hfinished, hstop⟩)

theorem State.sent_run : ((s.sent c r gemm q held).core c).run = some { r with outgoing := none } := by
  rw [State.sent, State.setRun_core]

theorem State.sent_work (v : Nat) : (s.core v).SameWork ((s.sent c r gemm q held).core v) :=
  State.updCore_work (s.updSched r.part.tenant fun d => d.noteSent gemm r.part.task q held) c (fun _ => by exact ⟨rfl, rfl, rfl⟩) v

theorem State.sent_touches : Touches [.tSched, .cores] s (s.sent c r gemm q held) :=
  State.setRun_touches _ _ _ (by decide) (State.updSched_touches _ _ _ (by decide) (Touches.refl _ _))

/-- The scheduling of a part's tenant, where its tile is sent from a state that has left that scheduling as it was. -/
theorem State.sent_sched {s0 : State} (h : (s.tenant r.part.tenant).sched = (s0.tenant r.part.tenant).sched) :
    ((s.sent c r gemm q held).tenant r.part.tenant).sched = (s0.tenant r.part.tenant).sched.noteSent gemm r.part.task q held := by
  have hself := State.tenant_updSched_self s r.part.tenant fun d => d.noteSent gemm r.part.task q held
  rw [← h]
  exact congrArg Tenant.sched hself

end

/-! ### A flag that no WAIT waits for (10 R386, R387) -/

/-- A fold whose every step finds an element finds one in a list that has one. -/
theorem foldl_ne_none {g : Option Nat → Nat → Option Nat} (hg : ∀ b i, g b i ≠ none) (b : Option Nat) (a : Nat) (l : List Nat) :
    (a :: l).foldl g b ≠ none := by
  induction l generalizing b a with
  | nil => exact hg b a
  | cons i r ih => exact ih (g b a) i

theorem Sched.firstSatisfied_eq_none {d : Sched} :
    d.firstSatisfied = none ↔ ∀ k ∈ d.tasks, k.st = .waiting → satisfied d.flags (d.rec' k.index) = false := by
  have hempty : d.firstSatisfied = none ↔ d.tasks.filter (fun k => k.st = .waiting && satisfied d.flags (d.rec' k.index)) = [] := by
    unfold Sched.firstSatisfied
    cases d.tasks.filter (fun k => k.st = .waiting && satisfied d.flags (d.rec' k.index)) with
    | nil => simp
    | cons a r =>
      refine iff_of_false (foldl_ne_none (fun b i => ?_) none a.index (r.map (·.index))) (List.cons_ne_nil a r)
      cases b with
      | none => exact Option.some_ne_none i
      | some j =>
        dsimp only
        split <;> exact Option.some_ne_none _
  rw [hempty, List.filter_eq_nil_iff]
  refine forall_congr' fun k => forall_congr' fun _ => ?_
  simp

theorem satisfied_sinsert {flags : List Nat} {f : Nat} {w : BitVec 256} (h : f ∉ trFlags w) :
    satisfied (sinsert flags f) w = satisfied flags w := by
  have hsame : ∀ x ∈ trFlags w, (sinsert flags f).contains x = flags.contains x := by
    intro x hx
    have hne : x ≠ f := fun e => h (e ▸ hx)
    simp [mem_sinsert, hne]
  unfold satisfied
  dsimp only
  split
  · rw [Bool.eq_iff_iff, List.all_eq_true, List.all_eq_true]
    exact forall₂_congr fun x hx => by rw [hsame x hx]
  · rw [Bool.eq_iff_iff, List.any_eq_true, List.any_eq_true]
    exact exists_congr fun x => and_congr_right fun hx => by rw [hsame x hx]

/-- Setting a flag that no WAIT waits for wakes no task. -/
theorem State.setFlag_of_unawaited {s : State} {t : Fin 16} {f : Nat} (h : (s.tenant t).sched.unawaited f) :
    s.setFlag t f = s.updSched t fun d => { d with flags := sinsert d.flags f } := by
  obtain ⟨hnone, hfree⟩ := h
  have hstill : ((s.updSched t fun d => { d with flags := sinsert d.flags f }).tenant t).sched.firstSatisfied = none := by
    rw [State.tenant_updSched_self, Sched.firstSatisfied_eq_none]
    intro k hk hst
    exact (satisfied_sinsert (hfree k hk hst)).trans (Sched.firstSatisfied_eq_none.mp hnone k hk hst)
  unfold State.setFlag State.evalWaits
  split
  · rfl
  · simp only [State.wakeWaits, hstill]

/-! ### PEER_SEND by its target -/

/-- A core's part has a tile to send: the tile, and its sender's descriptor and fusion record (09 R356). -/
structure Sending (s : State) (c : Fin 48) (r : Run) (o : Outgoing) (p : ProgramImage) (gi : Nat) (w : BitVec 512) (f : BitVec 1024) :
    Prop where
  held : s.held = false
  halted : s.halted = false
  run : (s.core c).run = some r
  out : r.outgoing = some o
  image : (s.tenant r.part.tenant).sched.image = some p
  sender : gi = (s.tenant r.part.tenant).sched.senderOf p r.part.task o.second
  descriptor : w = lget 0 p.gemms gi
  fusion : f = fusionOf p w

/-- The order lets a part's tile be sent now (09 R356, R358). -/
def State.tileTurn (s : State) (r : Run) (o : Outgoing) (gi : Nat) (w : BitVec 512) (f : BitVec 1024) : Bool :=
  s.sendTurn (s.sendOrder r.part.tenant r.part.task (cdiv (extentOf (s.tenant r.part.tenant).sched.dims (gdField w 8 4)) (gdField w 54 2)))
    ((s.tenant r.part.tenant).sched.ring gi) r.part.task o.q (if fuPeer f = 1 then max 1 (fuField f 74 2) else 0)

/-- A tile placed in its slot of a core's ring, its write noted by Lynx (09 R358). -/
def State.placed (s : State) (c : Fin 48) (v : Nat) (o : Outgoing) (w : BitVec 512) (f : BitVec 1024) : State :=
  (s.streamWrite c toCore (bits (fuField f 73 1) 5 0)
    (fuField f 76 4 + o.q % max 1 (fuField f 74 2) * (gdField w 52 2 * gdField w 54 2 * outSize (fuOut f)))
    (o.elems.flatMap fun e => leBytes (outSize (fuOut f)) e.toNat)).updCore v fun k =>
      k.putSlot (fuField f 76 4) (fuField f 74 2) (gdField w 52 2) (gdField w 54 2) (outSize (fuOut f)) o

/-- The rows of a tile as the converter takes them (09 R360). -/
def Outgoing.converterRows (o : Outgoing) : List (Nat × List Word) :=
  (List.range o.rows).map fun i => (o.row0 + i, (o.elems.drop (i * o.cols)).take o.cols)

/-- A tile's rows in the converter, their writes noted by Lynx. -/
def State.converted (s : State) (c : Fin 48) (t : Fin 16) (o : Outgoing) : State :=
  (s.forEach o.converterRows fun s x => s.streamWrite c toConverter 0 (128 * x.1) (x.2.flatMap fun e => leBytes 4 e.toNat)).updSearch t
    fun x => { x with fox := x.fox ++ o.converterRows }

section
variable {s : State} {c : Fin 48} {r : Run} {o : Outgoing} {p : ProgramImage} {gi : Nat} {w : BitVec 512} {f : BitVec 1024}
  (h : Sending s c r o p gi w f)
include h

theorem State.peerSend_waits (hturn : s.tileTurn r o gi w f = false) : s.peerSend c = s := by
  obtain ⟨hheld, hhalted, hrun, hout, himage, rfl, rfl, rfl⟩ := h
  simp only [State.tileTurn] at hturn
  simp only [State.peerSend, hrun, hout, himage, hturn, Bool.not_false, Bool.or_true, if_true]

variable (hturn : s.tileTurn r o gi w f = true)
include hturn

theorem State.peerSend_core (hpeer : fuPeer f = 1) {v : Nat} (hv : v = s.hostOf r.part.tenant (bits (fuField f 73 1) 5 0)) :
    s.peerSend c = if s.usable .core v then
      ((s.placed c v o w f).noteSent c r gi o.q [(o.q, o.elems)]).setFlag r.part.tenant (bits (fuField f 82 2) 9 0)
    else s.faultPart c r codeFenced := by
  subst hv
  obtain ⟨hheld, hhalted, hrun, hout, himage, rfl, rfl, rfl⟩ := h
  simp only [State.tileTurn, hpeer, if_true] at hturn
  simp only [State.peerSend, hrun, hout, himage, hheld, hhalted, hpeer, hturn, Bool.not_true, Bool.or_self, Bool.false_eq_true, if_false,
    if_true]
  split
  next hfenced => rw [if_neg (by simpa using hfenced)]
  next husable => rw [if_pos (by simpa using husable)]; rfl

theorem State.peerSend_converter (hpeer : fuPeer f = 2) :
    s.peerSend c = if (s.tenant r.part.tenant).table.stalls 1152 5248 then s
      else (s.converted c r.part.tenant o).noteSent c r gi o.q [] := by
  obtain ⟨hheld, hhalted, hrun, hout, himage, rfl, rfl, rfl⟩ := h
  simp only [State.tileTurn, hpeer, if_neg (by decide : ¬ 2 = 1)] at hturn
  simp only [State.peerSend, hrun, hout, himage, hheld, hhalted, hpeer, hturn, Bool.not_true, Bool.or_self, Bool.false_eq_true, if_false,
    if_neg (by decide : ¬ 2 = 1)]
  rfl

theorem State.peerSend_link (hpeer : fuPeer f = 3) :
    s.peerSend c = if s.reachable (BitVec.ofNat 16 (fuField f 80 2)) then
      s.sendLink c gi (BitVec.ofNat 16 (fuField f 80 2)) (linkPieces f (gdField w 48 4) (outSize (fuOut f)) o)
    else s.faultPart c r codeFenced := by
  obtain ⟨hheld, hhalted, hrun, hout, himage, rfl, rfl, rfl⟩ := h
  simp only [State.tileTurn, hpeer, if_neg (by decide : ¬ 3 = 1)] at hturn
  simp only [State.peerSend, hrun, hout, himage, hheld, hhalted, hpeer, hturn, Bool.not_true, Bool.or_self, Bool.false_eq_true, if_false,
    if_neg (by decide : ¬ 3 = 1)]
  split
  next hlost => rw [if_neg (by simpa using hlost)]
  next hreach => rw [if_pos (by simpa using hreach)]

end

/-! ### Into the ring of a core, and into the converter (09 R358, R360) -/

theorem View.reset_serves : View.reset.serves = false := rfl

/-- A usable core is one of the 48 of the device. -/
theorem State.usable_core_lt {s : State} {v : Nat} (h : s.usable .core v = true) : v < 48 := by
  by_contra hv
  have hview : s.view .core v = if v < s.chip.nCores then some View.reset else none := by simp [State.view, bget, hv]
  unfold State.usable at h
  rw [hview] at h
  by_cases hn : v < s.chip.nCores <;> simp [hn, View.reset_serves] at h

section
variable {s : State} {c : Fin 48} {o : Outgoing} {w : BitVec 512} {f : BitVec 1024}

theorem State.placed_core {v : Nat} (hv : v < 48) : (s.placed c v o w f).core v =
    (s.core v).putSlot (fuField f 76 4) (fuField f 74 2) (gdField w 52 2) (gdField w 54 2) (outSize (fuOut f)) o := by
  rw [State.placed, State.core_updCore_self _ hv, (State.streamWrite_touches s _ _ _ _ _ (within_refl _) (Touches.refl _ _)).core]

theorem State.placed_touches (v : Nat) : Touches [.lynx, .cores] s (s.placed c v o w f) :=
  State.updCore_touches _ _ _ (by decide) (State.streamWrite_touches _ _ _ _ _ _ (by decide) (Touches.refl _ _))

theorem State.converted_touches (t : Fin 16) : Touches [.lynx, .tSearch] s (s.converted c t o) :=
  State.updSearch_touches _ _ _ (by decide)
    (Touches.forEach (Touches.refl _ _) fun _ _ h => State.streamWrite_touches _ _ _ _ _ _ (by decide) h)

theorem State.converted_fox (t : Fin 16) : ((s.converted c t o).tenant t).search.fox = (s.tenant t).search.fox ++ o.converterRows := by
  have hstreams : Touches [.lynx] s (s.forEach o.converterRows fun s x =>
      s.streamWrite c toConverter 0 (128 * x.1) (x.2.flatMap fun e => leBytes 4 e.toNat)) :=
    Touches.forEach (Touches.refl _ _) fun _ _ h => State.streamWrite_touches _ _ _ _ _ _ (by decide) h
  rw [State.converted, State.tenant_updSearch_self, hstreams.tSearch t]

end

/-! ### Over a link (09 R357, R361) -/

section
variable {s : State} {c : Fin 48} {r : Run} {o : Outgoing} (hrun : (s.core c).run = some r) (hout : r.outgoing = some o)
  {dest : BitVec 16}
include hrun hout

/-- A piece that is not the next one, or that the link does not accept, is not sent. -/
theorem State.sendPiece_waits {x : Nat × Nat × List Byte} (h : o.sent ≠ x.1 ∨ s.accepts dest = false) : s.sendPiece c dest x = s := by
  rcases h with h | h <;> simp [State.sendPiece, hrun, hout, h]

theorem State.sendLink_waits {gemm : Nat} {l : List (Nat × List Byte)} (h : s.accepts dest = false) (hmore : o.sent < l.length) :
    s.sendLink c gemm dest l = s := by
  have hstays : s.forEach ((List.range l.length).zip l) (fun s x => s.sendPiece c dest x) = s :=
    State.forEach_of_fixed fun x _ => State.sendPiece_waits hrun hout (.inr h)
  simp only [State.sendLink, hstays, hrun, hout, if_neg (Nat.ne_of_lt hmore)]

end

/-- A run after the next piece of its tile is sent. -/
def Run.pieceSent (r : Run) (o : Outgoing) : Run := { r with outgoing := some { o with sent := o.sent + 1 } }

/-- What the request of a piece leaves: the core's run with the piece sent, a tag more, and the scheduling as it was. -/
structure PieceSent (s u : State) (c : Fin 48) (r : Run) (o : Outgoing) : Prop where
  run : (u.core c).run = some (r.pieceSent o)
  tags : u.cascade.tags.length = s.cascade.tags.length + 1
  sched : ∀ t, (u.tenant t).sched = (s.tenant t).sched

section
variable {s : State}

/-- A request for another package that can be reached leaves over a link (15 R564). -/
theorem State.sendRequest_leaves {f : LinkFrame} (hother : f.dest ≠ s.pkgId) (hroute : s.noRoute f.dest = false) :
    s.sendRequest f = s.transmit (s.route f.dest) f := by
  rw [State.sendRequest, if_neg hother, hroute, if_neg Bool.false_ne_true]

theorem State.issueRequest_leaves {t : Fin 16} {task : Nat} {core : Option (Fin 48)} {unit : Nat} {kind : Byte} {dest : BitVec 16}
    {addr aux loc : Nat} {data : List Byte} (hother : dest ≠ s.pkgId) (hroute : s.noRoute dest = false) :
    (s.issueRequest t task core unit kind dest addr aux loc data).cascade.tags.length = s.cascade.tags.length + 1 ∧
      Touches [.cascade, .links] s (s.issueRequest t task core unit kind dest addr aux loc data) := by
  unfold State.issueRequest
  extract_lets tag g s1
  rw [State.sendRequest_leaves (s := s1) (f := s1.requestFrame kind dest tag addr aux data) hother hroute]
  refine ⟨?_, State.transmit_touches s1 _ _ (by decide) (State.updCascade_touches s _ (by decide) (Touches.refl _ _))⟩
  rw [(State.transmit_touches s1 _ _ (within_refl _) (Touches.refl _ _)).cascade]
  exact List.length_append

variable {c : Fin 48} {r : Run} {o : Outgoing} (hrun : (s.core c).run = some r) (hout : r.outgoing = some o) {dest : BitVec 16}
  (hreach : s.reachable dest = true) (hother : dest ≠ s.pkgId) (haccepts : s.accepts dest = true) (hdma : s.coreDma c < 32)
include hrun hout hreach hother haccepts hdma

theorem State.sendPiece_sends {x : Nat × Nat × List Byte} (hnext : o.sent = x.1) : PieceSent s (s.sendPiece c dest x) c r o := by
  have hform : s.sendPiece c dest x =
      ((s.setRun c (r.pieceSent o)).streamWrite c toLink dest.toNat x.2.1 x.2.2).issueRequest r.part.tenant r.part.task (some c) r.part.unit
        1 dest x.2.1 0 0 x.2.2 := by
    simp [State.sendPiece, hrun, hout, haccepts, hnext, Nat.not_le.mpr hdma, Run.pieceSent]
  have hstream : Touches [.lynx] (s.setRun c (r.pieceSent o))
      ((s.setRun c (r.pieceSent o)).streamWrite c toLink dest.toNat x.2.1 x.2.2) :=
    State.streamWrite_touches _ _ _ _ _ _ (within_refl _) (Touches.refl _ _)
  have hroute : ((s.setRun c (r.pieceSent o)).streamWrite c toLink dest.toNat x.2.1 x.2.2).noRoute dest = false := by
    have hhere : s.noRoute dest = false := by simpa [State.reachable, hother] using hreach
    simp only [State.noRoute, State.route, State.linkDead, State.link, hstream.cascade, hstream.links, hstream.chip,
      (hstream.board).2.1]
    exact hhere
  have hpkg : dest ≠ ((s.setRun c (r.pieceSent o)).streamWrite c toLink dest.toNat x.2.1 x.2.2).pkgId := by
    rw [State.pkgId, hstream.live]
    exact hother
  obtain ⟨htags, hissue⟩ := State.issueRequest_leaves (t := r.part.tenant) (task := r.part.task) (core := some c) (unit := r.part.unit)
    (kind := 1) (addr := x.2.1) (aux := 0) (loc := 0) (data := x.2.2) hpkg hroute
  rw [hform]
  refine ⟨?_, ?_, fun t => ?_⟩
  · rw [hissue.core, hstream.core, State.setRun_core]
  · rw [htags, hstream.cascade]
    rfl
  · rw [hissue.tSched, hstream.tSched]
    rfl

/-- The last piece of a tile is sent: the tile is noted as sent, and the part goes on. -/
theorem State.sendLink_sends {gemm : Nat} {l : List (Nat × List Byte)} (hlast : o.sent + 1 = l.length) :
    ∃ u, PieceSent s u c r o ∧ s.sendLink c gemm dest l = u.noteSent c (r.pieceSent o) gemm o.q [] := by
  obtain ⟨first, x, rfl⟩ : ∃ first x, l = first ++ [x] :=
    (List.eq_nil_or_concat' l).resolve_left (fun e => by simp [e] at hlast)
  have hlen : first.length = o.sent := by simpa using hlast.symm
  have hzip : (List.range (first ++ [x]).length).zip (first ++ [x]) = (List.range first.length).zip first ++ [(first.length, x)] := by
    rw [List.length_append, List.length_singleton, List.range_succ, List.zip_append (by simp)]
    rfl
  have hearlier : s.forEach ((List.range first.length).zip first) (fun s x => s.sendPiece c dest x) = s := by
    refine State.forEach_of_fixed fun y hy => State.sendPiece_waits hrun hout (.inl ?_)
    have hlt : y.1 < first.length := List.mem_range.mp (List.of_mem_zip hy).1
    omega
  have hall : s.forEach ((List.range (first ++ [x]).length).zip (first ++ [x])) (fun s x => s.sendPiece c dest x) =
      s.sendPiece c dest (first.length, x) := by
    rw [hzip, State.forEach, List.foldl_append]
    exact congrArg (fun u : State => u.sendPiece c dest (first.length, x)) hearlier
  have hsent := State.sendPiece_sends hrun hout hreach hother haccepts hdma (x := (first.length, x)) hlen.symm
  refine ⟨_, hsent, ?_⟩
  simp only [State.sendLink, hall, hsent.run, Run.pieceSent, hlast, if_true]

end

end Sys2Proof.Machine
end

section
/-! SUPPORT. A core's part takes its steps and sends its tiles. -/
namespace Sys2Proof.Machine
open Sys2Proof

/-- Settles O60: each step by the equation of its case, and each end, fault and send by the lemma of what it leaves. -/
theorem coresStepAndSend : Obligations.CoresStepAndSend := by
  unfold Obligations.CoresStepAndSend
  rintro s c r d p - hheld hhalted hrun rfl himage
  have hstep : exec (.gemmTileStep c) s = .next (settle (s.stepTile c)) := rfl
  have hsend : exec (.peerSend c) s = .next (settle (s.peerSend c)) := rfl
  refine ⟨?waits, ?finished, ?whole, ?gemm, ?send⟩
  case waits =>
    intro hout
    rw [hstep, State.stepTile_waits hrun hout]
  case finished =>
    refine fun hout hfinished hanswered => ⟨_, hstep, ?_⟩
    rw [State.stepTile_finished hheld hhalted hrun hout hfinished]
    simp only [settle_reads]
    exact State.atBoundary_ends (.inl hfinished) hout hanswered
  case whole =>
    refine fun hout hfinished hnone => ⟨_, hstep, ?_⟩
    rw [State.stepTile_whole hheld hhalted hrun hout hfinished himage hnone]
    simp only [settle_reads]
    refine ⟨(State.endPart_halts _ c.isLt).1, ?_⟩
    rw [(State.endPart_work _ c c).steps, State.countStep, State.core_updCore_self _ c.isLt]
  case gemm =>
    rintro w g g2 h soft tile hout hfinished hw hg rfl hh rfl htile
    rw [hstep, State.stepTile_gemm hheld hhalted hrun hout hfinished himage hw hg]
    generalize (s.tenant r.part.tenant).sched.chainCtx p g = g2 at hh ⊢
    have hin : h = r.inGemm g g2 := hh
    simp only [decide_eq_true_eq, decide_eq_false_iff_not]
    refine ⟨?reduce, ?close, ?scores, ?softmax, ?columns⟩
    case reduce =>
      rintro n rd acc hplain hopen hcol rfl hrd hacc
      subst hin
      have hranges : rd = s.reduceRanges r (r.inGemm g g2) := hrd
      have hsum : acc = s.reduceAcc r (r.inGemm g g2) := hacc
      subst hranges hsum
      rw [State.stepGemm_reduces s c hplain hcol hopen]
      refine ⟨_, rfl, State.reduceStep_faulted hrun, fun hentry hgather hrange => ?_⟩
      have hwork := State.reduceStep_work (c := c) hentry hgather hrange
      rw [State.reduced_core] at hwork
      simp only [settle_reads, settle_fields]
      refine ⟨hwork.steps, hwork.busy, hwork.store, fun hstop => ?_, fun hstop hanswered => ?_⟩
      · rw [State.reduceStep_goes hentry hgather hrange hfinished hstop, State.setRun_core]
        exact ⟨rfl, rfl⟩
      · exact State.reduceStep_ends hentry hgather hrange hout hstop hanswered
    case close =>
      rintro o hsoft hclosing hcol rfl
      subst hin
      rw [State.stepGemm_closes s c (.inr hsoft) hcol hclosing hsoft]
      refine ⟨_, rfl, State.closeTile_faulted hrun, fun hrange hstop hmore => ?_, fun hrange hlast hplain hnone hanswered => ?_⟩
      · simp only [settle_reads, settle_fields]
        rw [State.closeTile_goes hrange htile hfinished hstop hmore, State.setRun_core]
        exact ⟨State.closed_dram, rfl⟩
      · simp only [settle_reads]
        exact State.closeTile_ends hrange htile hlast hplain hnone hanswered
    case scores =>
      rintro o n sc hsoft hsecond hclosing hstop hcol rfl hsc rfl hrange
      have hfirst : r.inGemm g g2 = g := by rw [Run.inGemm, hsecond]; rfl
      rw [State.stepGemm_scores s c (.inl hsecond) (by rwa [hfirst]) hclosing hsoft,
        State.closeScores_goes hfinished hstop hsc hrange]
      refine ⟨_, rfl, rfl, ?_⟩
      simp only [settle_reads, State.setRun_core]
    case softmax =>
      intro hsoft hsecond
      rw [State.stepGemm_softmax s c hsecond hsoft]
      refine ⟨_, rfl, fun hopen hstop => ?_, ?_⟩
      · rw [State.closeSoftmax_divides hfinished hopen hstop]
        simp only [settle_reads, State.setRun_core]
      rintro o x hclosing rfl hx hrange
      refine ⟨fun y hy => ?_, fun hnone hanswered => ?_⟩
      · rw [State.closeSoftmax_sends hclosing hx hrange hy]
        simp only [settle_reads, settle_fields, State.setRun_core]
        exact ⟨trivial, State.closed_dram⟩
      · simp only [settle_reads]
        exact State.closeSoftmax_ends hclosing hx hrange hnone hanswered
    case columns =>
      intro hplain hcol
      subst hin
      rw [State.stepGemm_columns s c hplain hcol]
      refine ⟨_, rfl, fun hsecond hchain hleft hstop => ?_, fun hlast hanswered => ?_⟩
      · have hbegins : (! r.second && decide (fuChain g.f ≠ 0)) = true := by simp [hsecond, hchain]
        have hunfinished : (r.beginSecond g2 (fuChain g.f = 2)).finished = false := by
          rcases hleft with h | h <;> simp [Run.beginSecond, h, Nat.not_le.mpr]
        rw [hbegins, if_pos rfl, State.atBoundary_goes (.inl ⟨hunfinished, hstop⟩)]
        simp only [settle_reads, State.setRun_core]
      · have hends : (! r.second && decide (fuChain g.f ≠ 0)) = false := by rcases hlast with h | h <;> simp [h]
        rw [hends, if_neg Bool.false_ne_true]
        simp only [settle_reads]
        exact State.atBoundary_ends (.inl rfl) hout hanswered
  case send =>
    intro o gi w f turn hout hgi hw hf hturn
    have hready : Sending s c r o p gi w f := ⟨hheld, hhalted, hrun, hout, himage, hgi, hw, hf⟩
    have hturn : turn = s.tileTurn r o gi w f := hturn
    subst hturn
    refine ⟨fun hlate => ?_, fun v hturn hpeer hv => ⟨_, hsend, fun hfenced => ?_, fun husable hflag hstop hnext => ?_⟩,
      fun hturn hpeer => ⟨fun hstalls => ?_, fun hfree hstop hnext => ⟨_, hsend, ?_⟩⟩, ?link⟩
    · rw [hsend, State.peerSend_waits hready hlate]
    · rw [State.peerSend_core hready hturn hpeer hv, hfenced, if_neg Bool.false_ne_true]
      exact State.faultPart_faulted _ hrun
    · have hplaced := State.placed_touches (s := s) (c := c) (o := o) (w := w) (f := f) v
      have hsched := State.sent_sched (c := c) (gemm := gi) (q := o.q) (held := [(o.q, o.elems)]) (hplaced.tSched r.part.tenant)
      have hquiet := State.setFlag_of_unawaited (s := (s.placed c v o w f).sent c r gi o.q [(o.q, o.elems)]) (t := r.part.tenant)
        (f := bits (fuField f 82 2) 9 0) (by rw [hsched]; exact hflag)
      rw [State.peerSend_core hready hturn hpeer hv, husable, if_pos rfl, State.noteSent_goes hstop hnext, hquiet]
      simp only [settle_reads, settle_sched_fields, settle_ring, State.updSched_reads, State.tenant_updSched_self, hsched]
      refine ⟨State.sent_run, mem_sinsert.mpr (.inl rfl), ?_, Sched.noteSent_ring _ _ _ _ _⟩
      rw [(State.sent_work v).store, State.placed_core (State.usable_core_lt husable)]
    · rw [hsend, State.peerSend_converter hready hturn hpeer, hstalls, if_pos rfl]
    · have hconverted := State.converted_touches (s := s) (c := c) (o := o) r.part.tenant
      rw [State.peerSend_converter hready hturn hpeer, hfree, if_neg Bool.false_ne_true, State.noteSent_goes hstop hnext]
      simp only [settle_reads, settle_tenant_fields, settle_ring, State.sent_run, State.sent_sched (hconverted.tSched r.part.tenant),
        Sched.noteSent_ring, List.append_nil]
      refine ⟨trivial, trivial, ?_⟩
      rw [State.sent_touches.tSearch, State.converted_fox, Outgoing.converterRows]
    case link =>
      rintro dest l hturn hpeer rfl rfl
      rw [hsend, State.peerSend_link hready hturn hpeer]
      refine ⟨fun hlost => ⟨_, rfl, ?_⟩, fun hreach hfull hmore => ?_, fun hreach hother haccepts hdma hlast hstop hnext => ⟨_, rfl, ?_⟩⟩
      · rw [hlost, if_neg Bool.false_ne_true]
        exact State.faultPart_faulted _ hrun
      · rw [hreach, if_pos rfl, State.sendLink_waits hrun hout hfull hmore]
      · obtain ⟨u, hsent, hform⟩ := State.sendLink_sends hrun hout hreach hother haccepts hdma (gemm := gi) hlast
        rw [hreach, if_pos rfl, hform, State.noteSent_goes (r := r.pieceSent o) hstop hnext]
        have hsched : ((u.sent c (r.pieceSent o) gi o.q []).tenant r.part.tenant).sched =
            (s.tenant r.part.tenant).sched.noteSent gi r.part.task o.q [] := State.sent_sched (r := r.pieceSent o) (hsent.sched _)
        simp only [settle_reads, settle_fields, settle_ring, State.sent_run, hsched, Sched.noteSent_ring, List.append_nil]
        refine ⟨rfl, ?_, trivial⟩
        rw [State.sent_touches.cascade, hsent.tags]

end Sys2Proof.Machine
end

section
/-! SUPPORT. LOAD_PROGRAM: the order of its checks, and the slot that an admitted image takes (09 R365, R366; 10 R378, R394; 14 R537). -/
namespace Sys2Proof.Machine
open Sys2Proof

/-! ### What each end of the command does (09 R365, R366; 10 R378, R394; 19 R729) -/

/-- The slot that a LOAD_PROGRAM names: true for B (11 R428). -/
def Cmd.loadSlot (c : Cmd) : Bool := cmdField c.word 24 1 = 1

/-- The scheduler with a program in one of its slots (10 R394). -/
def Sched.withSlot (d : Sched) (b : Bool) (q : Option Program) : Sched :=
  if b then { d with slotB := q } else { d with slotA := q }

theorem Sched.withSlot_slotA (d : Sched) (b : Bool) (q : Option Program) : (d.withSlot b q).slotA = if b then d.slotA else q := by
  cases b <;> rfl

theorem Sched.withSlot_slotB (d : Sched) (b : Bool) (q : Option Program) : (d.withSlot b q).slotB = if b then q else d.slotB := by
  cases b <;> rfl

/-- An admitted image in its DRAM and, with its hashes, in the slot of the command (10 R377, R394; 14 R537). -/
def State.placeProgram (s : State) (t : Fin 16) (c : Cmd) (p : ProgramImage) : State :=
  (s.placeRequests t p).updSched t fun d => d.withSlot c.loadSlot (some (programOf p))

section
variable {s : State} {t : Fin 16} {tag : Nat} {p : ProgramImage} {c : Cmd} (hheld : s.held = false)
  (hcmd : s.cmdFor t tag 7 = some c)
include hheld hcmd

theorem State.loadProgram_of_busy (hbusy : (s.tenant t).sched.slotBusy c.loadSlot = true) :
    s.loadProgram t tag p = s.completeCmd t c codeBusy 0 := by
  rw [Cmd.loadSlot] at hbusy
  simp [State.loadProgram, hcmd, hheld, hbusy]

variable (hidle : (s.tenant t).sched.slotBusy c.loadSlot = false)
include hidle

theorem State.loadProgram_of_poisoned (hsource : (c.src && s.dram.poisoned c.addr c.len) = true) :
    s.loadProgram t tag p = s.completeCmd t c codeMemoryUe 0 := by
  rw [Cmd.loadSlot] at hidle
  simp only [State.loadProgram, hcmd, hheld, hidle, hsource, Bool.false_eq_true, if_false, if_true]

variable (hsource : (c.src && s.dram.poisoned c.addr c.len) = false)
include hsource

/-- An image that fails a check is refused at an offset that the model leaves free (10 R378; log 5). -/
theorem State.loadProgram_of_faulty (hfaulty : imageOk p (s.leaseView t) = false) :
    s.loadProgram t tag p = (s.refuseCmd t c codeBad (Config.freeWord s.draws).toNat true).draw := by
  rw [Cmd.loadSlot] at hidle
  simp only [State.loadProgram, hcmd, hheld, hidle, hsource, hfaulty, Bool.not_false, Bool.false_eq_true, if_false, if_true]

variable (hgood : imageOk p (s.leaseView t) = true)
include hgood

theorem State.loadProgram_of_short {x : Short} (hshort : s.admission t c.loadSlot p = some x) :
    s.loadProgram t tag p =
      s.completeCmd t c codeTooLarge (BitVec.ofNat 160 (x.kind + x.place * 2 ^ 16 + x.amount * 2 ^ 32)) := by
  rw [Cmd.loadSlot] at hidle hshort
  simp only [State.loadProgram, hcmd, hheld, hidle, hsource, hgood, hshort, Bool.not_true, Bool.false_eq_true, if_false]

theorem State.loadProgram_of_admitted (hadmitted : s.admission t c.loadSlot p = none) :
    s.loadProgram t tag p = (s.placeProgram t c p).completeCmd t c codeOk 0 := by
  rw [Cmd.loadSlot] at hidle hadmitted
  simp only [State.loadProgram, hcmd, hheld, hidle, hsource, hgood, hadmitted, Bool.not_true, Bool.false_eq_true, if_false]
  rfl

end

/-! ### What each end leaves -/

section
variable {s : State} {t : Fin 16} {c : Cmd} {p : ProgramImage}

theorem State.placeProgram_own : Touches [.tSched, .dram] s (s.placeProgram t c p) :=
  State.updSched_touches _ t _ (by decide) (State.placeRequests_touches s t p (by decide) (Touches.refl _ _))

theorem State.placeProgram_sched : ((s.placeProgram t c p).tenant t).sched =
    (s.tenant t).sched.withSlot c.loadSlot (some (programOf p)) := by
  rw [State.placeProgram, State.tenant_updSched_self,
    (State.placeRequests_touches s t p (within_refl _) (Touches.refl _ _)).tSched t]

theorem Completes.drawn {u : State} {code : Byte} {detail : BitVec 160} (h : Completes s u t c code detail) :
    Completes s u.draw t c code detail := h

/-- What leaves the scheduler leaves both slots. -/
theorem Touches.keeps_slots {l : List Part} {u : State} (h : Touches l s u) (hp : l.contains .tSched = false := by decide) :
    ((settle u).tenant t).sched.slotA = (s.tenant t).sched.slotA ∧
      ((settle u).tenant t).sched.slotB = (s.tenant t).sched.slotB := by
  simp only [settle_sched_fields, h.tSched t hp, and_self]

/-- A refusal that draws a free value changes of its tenant at most its queues and its commands. -/
theorem State.refuseCmd_draw_own (code : Byte) (off : Nat) (inBuffer : Bool) :
    Touches [.draws, .regs, .shadow, .dirty, .attn, .tQueues, .tCmds] s (s.refuseCmd t c code off inBuffer).draw :=
  State.draw_touches _ (by decide) (State.refuseCmd_touches s t c code off inBuffer (by decide) (Touches.refl _ _))

end

/-- Settles O23: each command ends by the first of its tests that fails, and only the load of an admitted image writes a slot. -/
theorem programsLoadIntoTheIdleSlot : Obligations.ProgramsLoadIntoTheIdleSlot := by
  unfold Obligations.ProgramsLoadIntoTheIdleSlot
  rintro s t tag p c hheld hlive hcmd _ rfl
  rw [← Cmd.loadSlot]
  refine ⟨settle (s.loadProgram t tag p), rfl, fun hbusy => ?_, fun hidle hsource => ?_, fun hidle hsource hfaulty => ?_,
    fun hidle hsource hgood => ⟨fun x hshort => ?_, fun hadmitted => ?_⟩⟩
  · rw [State.loadProgram_of_busy hheld hcmd hbusy]
    exact ⟨Completes.atOnce hlive, (State.completeCmd_own s t c _ _).keeps_slots⟩
  · rw [State.loadProgram_of_poisoned hheld hcmd hidle hsource]
    exact ⟨Completes.atOnce hlive, (State.completeCmd_own s t c _ _).keeps_slots⟩
  · rw [State.loadProgram_of_faulty hheld hcmd hidle hsource hfaulty]
    exact ⟨⟨_, (State.completeCmd_completes hlive).drawn.settled⟩, (State.refuseCmd_draw_own _ _ _).keeps_slots⟩
  · rw [State.loadProgram_of_short hheld hcmd hidle hsource hgood hshort]
    obtain ⟨hslotA, hslotB⟩ := (State.completeCmd_own s t c codeTooLarge _).keeps_slots (t := t)
    exact ⟨hslotA, hslotB, Completes.atOnce hlive⟩
  · rw [State.loadProgram_of_admitted hheld hcmd hidle hsource hgood hadmitted]
    refine ⟨Completes.after State.placeProgram_own hlive, ?_⟩
    simp only [settle_sched_fields, (State.completeCmd_own _ t c _ _).tSched t, State.placeProgram_sched, Sched.withSlot_slotA,
      Sched.withSlot_slotB, and_self]

end Sys2Proof.Machine
end

section
/-! SUPPORT. Writes of registers by who has no right to them, and writes of TRACE.TAIL (10 R404; 13 R492). -/
namespace Sys2Proof.Machine
open Sys2Proof

/-! ### A port that may write no field of a register (13 R492) -/

/-- A write of a register of which the port may write no field moves ERR_COUNT alone, and only where it would have changed a field. -/
theorem State.writeReg_of_noBits {s : State} {p : Port} {page off : Nat} {r : Reg} {i : Nat} (hreach : s.reaches (.port p) page = true)
    (halign : off % 4 = 0) (hoff : 0x100 ≤ off) (hfind : regFind page off = some (r, i)) (hbits : s.mayBits (.port p) page r i = 0)
    (v : Nat) : s.writeReg (.port p) page off v =
      if wouldChange r 0xFFFFFFFF (s.current (.port p) page off r) v then s.bumpErr page else s := by
  simp only [State.writeReg, hreach, halign, Nat.not_lt.mpr hoff, State.writeBlock, hfind, hbits, Nat.xor_zero, if_true, Bool.not_true,
    ne_eq, not_true_eq_false, decide_false, Bool.or_self, Bool.false_eq_true, if_false]

theorem State.bumpErr_errCount {s : State} (hcount : keysRise s.attn.errCount) (page : Nat) :
    mget 0 (s.bumpErr page).attn.errCount page = min 65535 (mget 0 s.attn.errCount page + 1) :=
  mget_mset_self 0 hcount page _

/-! ### TRACE.TAIL (10 R404) -/

/-- The row of TRACE.TAIL in the register table. -/
def tailReg : Reg := ⟨0x11, 0x114, 0, 1, .a, 0xFFFFFFFF, 0, 0, 0, 0, .ctl⟩

theorem regFind_tail : regFind 0x11 0x114 = some (tailReg, 0) := by decide +kernel

/-- Who reaches the control port's registers may write TRACE.TAIL whole. -/
theorem State.mayBits_tail {s : State} {w : Writer} (hctl : s.isCtl w = true) : s.mayBits w 0x11 tailReg 0 = 0xFFFFFFFF := by
  cases w with
  | owl => rfl
  | port p =>
    have hport : s.ctrlPort = p := by simp_all [State.isCtl]
    simp [State.mayBits, State.mayWrite, tailReg, hport]

theorem and_wordMask {v : Nat} (hv : v < 2 ^ 32) : v &&& 0xFFFFFFFF = v := Nat.and_two_pow_sub_one_of_lt_two_pow hv

theorem mergeRw_tail (old : Nat) {v : Nat} (hv : v < 2 ^ 32) : mergeRw tailReg 0xFFFFFFFF old v = v := by
  simp [mergeRw, tailReg, and_wordMask hv]

/-- A write of TRACE.TAIL by who may write it reaches the register's own action with its whole value. -/
theorem State.writeReg_tail {s : State} {w : Writer} (hreach : s.reaches w 0x11 = true) (hctl : s.isCtl w = true) (v : Word) :
    s.writeReg w 0x11 0x114 v.toNat = s.writeTail w v.toNat := by
  have hblock : s.writeReg w 0x11 0x114 v.toNat = s.writeA w 0x11 0x114 tailReg 0xFFFFFFFF v.toNat := by
    simp only [State.writeReg, hreach, State.writeBlock, regFind_tail, State.mayBits_tail hctl]
    cases w <;> simp [wouldChange, tailReg]
  have hkept : (v.toNat &&& tailReg.rw) ||| (v.toNat &&& (tailReg.wo ||| tailReg.w1c) &&& 0xFFFFFFFF) = v.toNat := by
    simp [tailReg, and_wordMask v.isLt]
  have hrange : rangeOk s.chip tailReg (v.toNat &&& tailReg.rw) = true := rfl
  have haction : s.writeAction w 0x11 0x114 v.toNat = some (s.writeTail w v.toNat) := rfl
  simp only [hblock, State.writeA, mergeRw_tail _ v.isLt, hrange, hkept, haction, Bool.not_true, Bool.false_eq_true, if_false]

theorem State.recordDirect_regs (s : State) (w : Writer) (page off : Nat) (code : Byte) : (s.recordDirect w page off code).regs = s.regs :=
  (State.recordDirect_touches s w page off code (within_refl _) (Touches.refl _ _)).regs

/-- Settles O35: a write without a right is the count alone, and TRACE.TAIL takes a value that lies in its range. -/
theorem writesOfOthersAreCounted : Obligations.WritesOfOthersAreCounted := by
  unfold Obligations.WritesOfOthersAreCounted
  refine ⟨fun s p page off v r i hup hread halign hoff hcount hfind hbits => ⟨_, rfl, ?_⟩,
    fun s w v hreach hctl hregs => ⟨_, rfl, fun hout => ?_, fun hin => ?_⟩⟩
  · have hreach : s.reaches (.port p) page.toNat = true := by simp [State.reaches, hup, hread]
    rw [State.writeReg_of_noBits hreach halign hoff hfind hbits]
    simp only [settle_fields, settle_attn_keeps]
    split
    · exact ⟨rfl, rfl, rfl, State.bumpErr_errCount hcount _⟩
    · exact ⟨rfl, rfl, rfl, rfl⟩
  · simp only [settle_fields, State.writeReg_tail hreach hctl, State.writeTail, Nat.mod_eq_of_lt v.isLt, if_pos hout,
      State.recordDirect_regs]
  · rw [State.writeReg_tail hreach hctl, State.writeTail, Nat.mod_eq_of_lt v.isLt, if_neg (Nat.not_lt.mpr hin)]
    simp only [settle_reads, State.live_setLive_self, Nat.mod_eq_of_lt v.isLt, true_and]
    exact fun g o hother => State.live_setLive_ne s hregs hother _

end Sys2Proof.Machine
end

section
/-! SUPPORT. Two states that meet the premises of the statements about Beaver and of which a clause of theirs is false: one runs a program that
LOAD_PROGRAM refuses, the other holds a blocked task that is marked as cut. The invariant speaks of neither. -/
namespace Sys2Proof.Machine
open Sys2Proof

/-! ### A tenant's program in the first frame -/

theorem State.Inv.setLive {s : State} (h : s.Inv) (page off v : Nat) : (s.setLive page off v).Inv :=
  { h with regs := keysRise_filePut _ h.regs _ _ _ }

/-- The invariant does not read the tenants. -/
theorem State.Inv.updSched {s : State} (h : s.Inv) (t : Fin 16) (f : Sched → Sched) : (s.updSched t f).Inv := { h with }

/-- READY with every unit UP, and tenant 0 in the first frame of a run, before D_0. -/
def firstFrame : State :=
  let s := State.raiseUnits { State.reset with power := { Power.reset with stage := 5, trained := true, initDone := true } }
  { s.updTenant 0 fun n => { n with state := .active } with
    frame := { Frame.reset with run := true, inFrame := true, seq := 1, ranSinceReset := true, timed := true } }

theorem firstFrame_inv : firstFrame.Inv := by constructor <;> decide +kernel

/-- A program of task records, a successor array, and one GEMM descriptor, which has no rows. -/
def taskProgram (tasks : List (BitVec 256)) (succ : List (BitVec 16)) : Program :=
  ⟨{ body := [], weights := [], tasks := tasks, succ := succ, detectors := [], retainTimers := 0, retainEdges := 0, subscribe := 0,
     gemms := [0], fusions := [], dims := 0, buckets := [], dram := 0, requests := [], retained := [], phaseUs := [], minTiles := 0,
     dramBytes := 0 }, 0, 0⟩

/-- A task in the slot of its own number. -/
def slotted (i : Nat) (st : TaskSt) (status : Byte) : Task :=
  { index := i, slot := i, st := st, readyAt := 0, startAt := 0, deadlineUs := 50, partsLeft := 0, status := status, timed := false,
    waitsOn := [], took := [], outs := [] }

/-- Tenant 0 runs a program whose tasks are all fetched, those given being in their slots. -/
def inFirstFrame (p : Program) (tasks : List Task) : State := firstFrame.updSched 0 fun d =>
  { d with slotA := some p, running := true, tasks := tasks, nextFetch := p.image.tasks.length }

theorem inFirstFrame_inv (p : Program) (tasks : List Task) : (inFirstFrame p tasks).Inv := firstFrame_inv.updSched 0 _

/-! ### A WAIT that is its own successor (10 R378, R389) -/

/-- Task 0 waits 50 µs for no flag, and cancels its one successor, which is task 0. -/
def ownSuccessor : State :=
  inFirstFrame (taskProgram [BitVec.ofNat 256 (2 + 2 ^ 24 + 2 ^ 48 + 50 * 2 ^ 112)] [0]) [slotted 0 .waiting codeOk]

/-- At its time-out the WAIT cancels itself, and so never retires. -/
theorem ownSuccessor_cancelled : ((ownSuccessor.timeoutWait 0 0).tenant 0).sched.cancelled = [0] ∧
    ((ownSuccessor.timeoutWait 0 0).tenant 0).sched.retired = [] := by decide +kernel

theorem ownSuccessor_othersLater : ownSuccessor.othersLater 0 50 := by
  unfold State.othersLater
  decide +kernel

/-- Refutes O58: a WAIT that its program names as its own successor, which 10 R378 refuses at load and no premise of the statement rules
out, cancels itself at its time-out (10 R389); its group is free, and it does not retire. -/
theorem not_waitsTimersAndEdgesFire : ¬ Obligations.WaitsTimersAndEdgesFire := by
  unfold Obligations.WaitsTimersAndEdgesFire
  intro h
  obtain ⟨-, htimeout, -⟩ := h ownSuccessor 0 _ (inFirstFrame_inv _ _) (by decide +kernel) (by decide +kernel) rfl
  obtain ⟨-, hexpires, -⟩ := htimeout 0 (slotted 0 .waiting codeOk) (by decide +kernel) rfl
  obtain ⟨t, hstep, -, -, hretires, -⟩ := hexpires 50 (by decide +kernel) (by decide +kernel) (by decide +kernel) (by decide +kernel)
    (by decide +kernel) ownSuccessor_othersLater (by decide +kernel) (by decide +kernel) (by decide +kernel)
  obtain rfl : settle (ownSuccessor.timeoutWait 0 0) = t := Host.Outcome.next.inj hstep
  have hretired := hretires (by decide +kernel)
  simp only [settle_sched_fields, ownSuccessor_cancelled, List.not_mem_nil] at hretired

/-! ### A blocked task that is marked as cut (10 R384, R385) -/

/-- Three tasks in the lease of a core and of DRAM: task 2 is a drain whose last candidate has left the queues, task 1 a drain to be issued
in the group of task 0, and task 0, without a unit to run, is blocked with the status of a cut task. -/
def cutWhileBlocked : State :=
  (((inFirstFrame (taskProgram [2 ^ 16, BitVec.ofNat 256 (1 + 2 ^ 16 + 3 * 2 ^ 224), BitVec.ofNat 256 (1 + 3 * 2 ^ 224)] [])
    [slotted 2 .started codeOk, slotted 0 .blocked codePhaseCut, slotted 1 .ready codeOk]).setLive 0x20 0x110 1).setLive
      0x20 0x114 1).setLive 0x20 0x130 (2 ^ 16)

theorem cutWhileBlocked_inv : cutWhileBlocked.Inv := (((inFirstFrame_inv _ _).setLive _ _ _).setLive _ _ _).setLive _ _ _

/-- The end of task 2 makes task 0 ready, which ends it with OK; so task 1, its own drain done, is held for its group. -/
theorem cutWhileBlocked_holds : ((cutWhileBlocked.issueEngine 0 1).tenant 0).sched.retired = [2] := by decide +kernel

theorem cutWhileBlocked_request : cutWhileBlocked.readRequest 0 1 = .ok (List.replicate 16 0) := by decide +kernel

theorem cutWhileBlocked_served : cutWhileBlocked.served 0 := by
  unfold State.served
  decide +kernel

/-- Refutes O57: task 0 is blocked with the status that a task takes only as it is cut (10 R384), which no premise of the statement rules
out, so that the group of task 1 is free as its CHECK_DRAIN is issued (10 R385); but the drain that ends first wakes task 0, whose status
becomes OK, and task 1 does not retire. -/
theorem not_tasksStartAndRetire : ¬ Obligations.TasksStartAndRetire := by
  unfold Obligations.TasksStartAndRetire
  intro h
  obtain ⟨-, -, -, -, hissue, -⟩ := h cutWhileBlocked 0 _ cutWhileBlocked_inv (by decide +kernel) (by decide +kernel) rfl
  obtain ⟨t, hstep, -, -, -, -, hdrain, -⟩ := hissue 1 _ 3 (by decide +kernel) cutWhileBlocked_request (by decide +kernel)
  obtain rfl : settle (cutWhileBlocked.issueEngine 0 1) = t := Host.Outcome.next.inj hstep
  have hretired := hdrain rfl cutWhileBlocked_served (by decide +kernel) (by decide +kernel)
  simp only [settle_sched_fields, cutWhileBlocked_holds] at hretired
  exact absurd hretired (by decide)

end Sys2Proof.Machine
end

section
/-! SUPPORT. The doorbells and the failed DMAs of a queue (11 R419 to R425, R443). -/
namespace Sys2Proof.Machine
open Sys2Proof
set_option Elab.async false

/-! ### One queue changed, the others as they were -/

/-- A queue other than the one updated, of the same tenant or another, stands. -/
theorem State.queue_updQueue_other (s : State) {t u : Fin 16} {q r : Fin 8} (h : (u, r) ≠ (t, q)) (f : Queue → Queue) :
    (s.updQueue t q f).queue u r = s.queue u r := by
  by_cases ht : t = u
  · subst ht
    exact s.queue_updQueue_ne t (fun hq => h (congrArg _ hq.symm)) f
  · rw [State.queue, State.tenant_updQueue_ne s ht, State.queue]

/-- The slot for the tenant's frame completion is taken in queue 0, or nothing changes (11 R443). -/
theorem State.reserveFrame_cases (s : State) (t : Fin 16) :
    s.reserveFrame t = s ∨ s.reserveFrame t = s.updQueue t 0 fun k => { k with frameSlot := true } := by
  unfold State.reserveFrame
  split
  · exact .inr rfl
  · exact .inl rfl

theorem State.reserveFrame_queue_other (s : State) {t u : Fin 16} {r : Fin 8} (h : (u, r) ≠ (t, 0)) :
    (s.reserveFrame t).queue u r = s.queue u r := by
  obtain hs | hs := s.reserveFrame_cases t
  · rw [hs]
  · rw [hs, s.queue_updQueue_other h]

/-- Of any queue the slot for the frame completion alone may change. -/
theorem State.reserveFrame_queue (s : State) (t u : Fin 16) (r : Fin 8) :
    (s.reserveFrame t).queue u r = { s.queue u r with frameSlot := ((s.reserveFrame t).queue u r).frameSlot } := by
  obtain hs | hs := s.reserveFrame_cases t
  · rw [hs]
  · by_cases h : (u, r) = (t, 0)
    · obtain ⟨rfl, rfl⟩ := Prod.mk.inj h
      rw [hs, State.queue_updQueue_self]
    · rw [hs, s.queue_updQueue_other h]

/-- A slot that is taken stays taken. -/
theorem State.reserveFrame_keeps_slot {s : State} {t u : Fin 16} {r : Fin 8} (h : (s.queue u r).frameSlot = true) :
    ((s.reserveFrame t).queue u r).frameSlot = true := by
  obtain hs | hs := s.reserveFrame_cases t
  · rw [hs, h]
  · by_cases he : (u, r) = (t, 0)
    · obtain ⟨rfl, rfl⟩ := Prod.mk.inj he
      rw [hs, State.queue_updQueue_self]
    · rw [hs, s.queue_updQueue_other he, h]

/-! ### Doorbells (11 R419, R421, R425) -/

/-- The stamps of the next entries published: they take the next places in the order of all doorbells (11 R425). -/
def State.nextStamps (s : State) (m : Nat) : List Stamp :=
  (List.range m).map fun j => { s.stampNow with order := s.doorbells + j }

theorem State.nextStamps_length (s : State) (m : Nat) : (s.nextStamps m).length = m := by
  simp [State.nextStamps]

theorem State.nextStamps_getElem? (s : State) {m j : Nat} (h : j < m) :
    (s.nextStamps m)[j]? = some { s.stampNow with order := s.doorbells + j } := by
  simp [State.nextStamps, h]

/-- Entries of a ring of `d` slots from the head up to an index. -/
def Queue.entriesUpTo (k : Queue) (d i : Nat) : Nat := (i + d - k.sqHead % d) % d

/-- Slots of a ring of `d` slots that a doorbell frees, the head moving to an index: the written ones before it, and at the head itself
the whole ring where it is full (11 R421). -/
def Queue.freedUpTo (k : Queue) (d i : Nat) : Nat :=
  if i = k.cqHead then (if k.written = d then d else 0) else min k.written ((i + d - k.cqHead) % d)

section
variable {s : State} {p : Port} {t : Fin 16} {q : Fin 8} {v : Word} (hreach : s.reachesQueue p t = true)
include hreach

theorem State.ringSq_outside (hout : s.sqDepth t q ≤ v.toNat % 4096) :
    s.ringSq p t q v = s.updQueue t q fun k => { k with dbErr := true } := by
  simp only [State.ringSq, hreach, hout, Bool.not_true, Bool.false_eq_true, if_false, if_true]

theorem State.ringSq_inside (hin : v.toNat % 4096 < s.sqDepth t q) {n : Nat}
    (hn : n = (s.queue t q).entriesUpTo (s.sqDepth t q) (v.toNat % 4096)) {m : Nat} (hm : m = n - (s.queue t q).published.length) :
    s.ringSq p t q v =
      { s.updQueue t q fun k =>
          { k with sqTail := v.toNat % 4096, published := (s.queue t q).published.take n ++ s.nextStamps m } with
        doorbells := s.doorbells + (s.nextStamps m).length } := by
  subst hn hm
  simp only [State.ringSq, hreach, Nat.not_le.mpr hin, Bool.not_true, Bool.false_eq_true, if_false]
  rfl

theorem State.ringCq_outside (hout : s.cqDepth t q ≤ v.toNat % 4096) :
    s.ringCq p t q v = s.updQueue t q fun k => { k with dbErr := true } := by
  simp only [State.ringCq, hreach, hout, Bool.not_true, Bool.false_eq_true, if_false, if_true]

theorem State.ringCq_inside (hin : v.toNat % 4096 < s.cqDepth t q) {n : Nat}
    (hn : n = (s.queue t q).freedUpTo (s.cqDepth t q) (v.toNat % 4096)) :
    s.ringCq p t q v =
      (s.updQueue t q fun k => { k with cqHead := v.toNat % 4096, written := k.written - n }).reserveFrame t := by
  subst hn
  simp only [State.ringCq, hreach, Nat.not_le.mpr hin, Bool.not_true, Bool.false_eq_true, if_false]
  rfl

theorem State.ringSq_queue_other {u : Fin 16} {r : Fin 8} (h : (u, r) ≠ (t, q)) :
    (s.ringSq p t q v).queue u r = s.queue u r := by
  by_cases hout : s.sqDepth t q ≤ v.toNat % 4096
  · rw [State.ringSq_outside hreach hout, s.queue_updQueue_other h]
  · rw [State.ringSq_inside hreach (Nat.not_le.mp hout) rfl rfl]
    exact s.queue_updQueue_other h _

theorem State.ringCq_queue_other {u : Fin 16} {r : Fin 8} (h : (u, r) ≠ (t, q)) :
    (s.ringCq p t q v).queue u r = { s.queue u r with frameSlot := ((s.ringCq p t q v).queue u r).frameSlot } ∧
    (u ≠ t ∨ r ≠ 0 → (s.ringCq p t q v).queue u r = s.queue u r) := by
  by_cases hout : s.cqDepth t q ≤ v.toNat % 4096
  · rw [State.ringCq_outside hreach hout, s.queue_updQueue_other h]
    exact ⟨rfl, fun _ => rfl⟩
  · rw [State.ringCq_inside hreach (Nat.not_le.mp hout) rfl]
    constructor
    · rw [State.reserveFrame_queue, s.queue_updQueue_other h]
    · intro hne
      rw [State.reserveFrame_queue_other, s.queue_updQueue_other h]
      rintro ⟨⟩
      simp at hne

/-- A doorbell of the completion queue moves the head, frees the slots before it, and may take one for the frame completion. -/
theorem State.ringCq_queue_self (hin : v.toNat % 4096 < s.cqDepth t q) {n : Nat}
    (hn : n = (s.queue t q).freedUpTo (s.cqDepth t q) (v.toNat % 4096)) :
    (s.ringCq p t q v).queue t q =
      { s.queue t q with
        cqHead := v.toNat % 4096, written := (s.queue t q).written - n
        frameSlot := ((s.ringCq p t q v).queue t q).frameSlot } ∧
    (q ≠ 0 → ((s.ringCq p t q v).queue t q).frameSlot = (s.queue t q).frameSlot) ∧
    ((s.queue t q).frameSlot = true → ((s.ringCq p t q v).queue t q).frameSlot = true) := by
  rw [State.ringCq_inside hreach hin hn]
  refine ⟨?_, fun hq => ?_, fun hslot => ?_⟩
  · rw [State.reserveFrame_queue, State.queue_updQueue_self]
  · rw [State.reserveFrame_queue_other _ (by simp [hq]), State.queue_updQueue_self]
  · exact State.reserveFrame_keeps_slot (by rwa [State.queue_updQueue_self])

/-- What SQ_DOORBELL leaves (11 R419, R425). -/
theorem sqDoorbell_publishes :
    ∃ u, exec (.sqDoorbell p t q v) s = .next u ∧
      (s.sqDepth t q ≤ v.toNat % 4096 → u.queue t q = { s.queue t q with dbErr := true } ∧ u.doorbells = s.doorbells) ∧
      (v.toNat % 4096 < s.sqDepth t q → ∀ n, n = (s.queue t q).entriesUpTo (s.sqDepth t q) (v.toNat % 4096) →
        ∃ new, u.queue t q =
            { s.queue t q with sqTail := v.toNat % 4096, published := (s.queue t q).published.take n ++ new } ∧
          new.length = n - (s.queue t q).published.length ∧ u.doorbells = s.doorbells + new.length ∧
          ∀ j, j < new.length → new[j]? = some { s.stampNow with order := s.doorbells + j }) ∧
      ∀ t' q', (t', q') ≠ (t, q) → u.queue t' q' = s.queue t' q' := by
  refine ⟨settle (s.ringSq p t q v), rfl, fun hout => ?_, fun hin n hn => ?_, fun t' q' h => ?_⟩
  · simp [State.ringSq_outside hreach hout]
  · refine ⟨s.nextStamps (n - (s.queue t q).published.length), ?_, s.nextStamps_length _, ?_, fun j hj => ?_⟩
    · rw [settle_queue, State.ringSq_inside hreach hin hn rfl]
      exact s.queue_updQueue_self t q _
    · simp [State.ringSq_inside hreach hin hn rfl]
    · exact s.nextStamps_getElem? (by rwa [State.nextStamps_length] at hj)
  · rw [settle_queue, State.ringSq_queue_other hreach h]

/-- What CQ_DOORBELL leaves (11 R421, R443). -/
theorem cqDoorbell_frees :
    ∃ u, exec (.cqDoorbell p t q v) s = .next u ∧
      (s.cqDepth t q ≤ v.toNat % 4096 → u.queue t q = { s.queue t q with dbErr := true }) ∧
      (v.toNat % 4096 < s.cqDepth t q → ∀ n, n = (s.queue t q).freedUpTo (s.cqDepth t q) (v.toNat % 4096) →
        u.queue t q =
          { s.queue t q with
            cqHead := v.toNat % 4096, written := (s.queue t q).written - n, frameSlot := (u.queue t q).frameSlot } ∧
        (q ≠ 0 → (u.queue t q).frameSlot = (s.queue t q).frameSlot) ∧
        ((s.queue t q).frameSlot = true → (u.queue t q).frameSlot = true)) ∧
      ∀ t' q', (t', q') ≠ (t, q) → u.queue t' q' = { s.queue t' q' with frameSlot := (u.queue t' q').frameSlot } ∧
        (t' ≠ t ∨ q' ≠ 0 → u.queue t' q' = s.queue t' q') := by
  refine ⟨settle (s.ringCq p t q v), rfl, fun hout => ?_, fun hin n hn => ?_, fun t' q' h => ?_⟩
  · rw [settle_queue, State.ringCq_outside hreach hout, State.queue_updQueue_self]
  · rw [settle_queue]
    exact State.ringCq_queue_self hreach hin hn
  · rw [settle_queue]
    exact State.ringCq_queue_other hreach h

end

/-- Settles O17: each doorbell by the index in or outside the ring, and the other queues by what one queue's update and the reservation of
the frame completion's slot leave. -/
theorem doorbellsMoveTheirQueueAlone : Obligations.DoorbellsMoveTheirQueueAlone := by
  unfold Obligations.DoorbellsMoveTheirQueueAlone
  intro s p t q v hreach
  exact ⟨sqDoorbell_publishes hreach, cqDoorbell_frees hreach⟩

/-! ### Failed DMAs (11 R422; 19 R733) -/

theorem State.canFetch_of_dmaErr {s : State} {t : Fin 16} {q : Fin 8} (h : (s.queue t q).dmaErr = true) : s.canFetch t q = false := by
  simp [State.canFetch, h]

/-- ERR_COUNT of a page counts up to its limit, whatever the other pages' counts are. -/
theorem State.errCount_bumpErr (s : State) (page : Nat) :
    mget 0 (s.bumpErr page).attn.errCount page = min 65535 (mget 0 s.attn.errCount page + 1) :=
  mget_mset_same 0 _ page (by simp [sat16])

theorem State.noteTiming_queue (s : State) (t : Fin 16) (k : Nat) (u : Fin 16) (r : Fin 8) :
    (s.noteTiming t k).queue u r = s.queue u r :=
  (State.noteTiming_touches s t k (within_refl _) (Touches.refl _ _)).queue u r

theorem State.noteTiming_attn (s : State) (t : Fin 16) (k : Nat) : (s.noteTiming t k).attn = s.attn := rfl

theorem State.bumpErr_queue (s : State) (page : Nat) (u : Fin 16) (r : Fin 8) : (s.bumpErr page).queue u r = s.queue u r := rfl

theorem State.setDmaErr_of_running {s : State} (hheld : s.held = false) (t : Fin 16) (q : Fin 8) (what : DmaFailure) :
    s.setDmaErr t q what =
      ((s.updQueue t q fun k => { k with dmaErr := true }).bumpErr (queuePage t q)).noteTiming t 7 := by
  simp only [State.setDmaErr, hheld, Bool.false_eq_true, if_false]

/-- A failed DMA sets DMA_ERR and counts. -/
theorem queueDmaError_stops {s : State} (hheld : s.held = false) (t : Fin 16) (q : Fin 8) (what : DmaFailure) :
    ∃ u, exec (.queueDmaError t q what) s = .next u ∧ u.queue t q = { s.queue t q with dmaErr := true } ∧
      u.canFetch t q = false ∧
      mget 0 u.attn.errCount (queuePage t q) = min 65535 (mget 0 s.attn.errCount (queuePage t q) + 1) := by
  have hqueue : (settle (s.setDmaErr t q what)).queue t q = { s.queue t q with dmaErr := true } := by
    rw [settle_queue, State.setDmaErr_of_running hheld, State.noteTiming_queue, State.bumpErr_queue, State.queue_updQueue_self]
  refine ⟨settle (s.setDmaErr t q what), rfl, hqueue, State.canFetch_of_dmaErr (by rw [hqueue]), ?_⟩
  simp only [settle_attn_keeps, State.setDmaErr_of_running hheld, State.noteTiming_attn, State.errCount_bumpErr, State.updQueue_fields]

theorem qStatusDmaErrClear_clears {s : State} {p : Port} {t : Fin 16} (hreach : s.reachesQueue p t = true) (q : Fin 8) :
    ∃ u, exec (.qStatusDmaErrClear p t q) s = .next u ∧ u.queue t q = { s.queue t q with dmaErr := false } := by
  refine ⟨settle (s.clearDmaErr p t q), rfl, ?_⟩
  rw [settle_queue, State.clearDmaErr, if_pos hreach, State.queue_updQueue_self]

/-- Settles O20: a queue whose DMA_ERR is 1 cannot fetch, and clearing it updates that field alone. -/
theorem dmaErrorsStopFetchingUntilCleared : Obligations.DmaErrorsStopFetchingUntilCleared := by
  unfold Obligations.DmaErrorsStopFetchingUntilCleared
  intro s t q
  exact ⟨fun what hheld => queueDmaError_stops hheld t q what, fun _ hreach => qStatusDmaErrClear_clears hreach q⟩

end Sys2Proof.Machine
end

section
/-! SUPPORT. The fetch of a command: the turn, the entry taken, and the command that is refused at once (11 R419, R423 to R429, R433). -/
namespace Sys2Proof.Machine
open Sys2Proof
set_option Elab.async false

/-- A port's own side is no tenant's. -/
@[simp] theorem State.updCfg_tenant (s : State) (p : Port) (f : PortCfg → PortCfg) (t : Fin 16) :
    (s.updCfg p f).tenant t = s.tenant t := by
  cases p <;> rfl

theorem Touches.cfg {l : List Part} {s u : State} (h : Touches l s u) (p : Port) (ha : l.contains .cfgA = false := by decide)
    (hb : l.contains .cfgB = false := by decide) : u.cfg p = s.cfg p := by
  cases p
  · exact h.cfgA ha
  · exact h.cfgB hb

/-! ### The queue whose turn it is (11 R423, R424) -/

/-- The queue whose turn it is can be fetched from. -/
theorem State.canFetch_of_portNext {s : State} {p : Port} {t : Fin 16} {q : Fin 8} (h : s.portNext p = some (t, q)) :
    s.canFetch t q = true := by
  obtain ⟨u, -, hu⟩ := List.exists_of_findSome?_eq_some h
  split at hu
  · obtain ⟨r, hr, hur⟩ := Option.map_eq_some_iff.mp hu
    obtain ⟨rfl, rfl⟩ := Prod.mk.inj hur
    exact List.find?_some hr
  · cases hu

theorem State.not_dying_of_canFetch {s : State} {t : Fin 16} {q : Fin 8} (h : s.canFetch t q = true) :
    (s.queue t q).dying = false := by
  cases hd : (s.queue t q).dying
  · rfl
  · simp [State.canFetch, hd] at h

/-! ### The entry taken (11 R419, R423, R433) -/

/-- The command fetched from an entry: it holds the lowest free tag, and is late where its frame has passed it. -/
def State.fetchedCmd (s : State) (t : Fin 16) (q : Fin 8) (w : BitVec 512) (st : Stamp) : Cmd :=
  { tag := (s.tenant t).freeTag, q := q, word := w, stamp := st, late := s.fetchedLate t st (cmdField w 0 1), waiting := false
    data := [], delivering := none }

/-- The rounds go on past the queue, the queue's first entry and a slot of its completion queue are taken, and the command holds its tag. -/
def State.takeEntry (s : State) (t : Fin 16) (q : Fin 8) (rest : List Stamp) (c : Cmd) : State :=
  ((s.passTurn t q).updQueue t q fun k =>
    { k with published := rest, sqHead := (k.sqHead + 1) % s.sqDepth t q, reserved := k.reserved + 1 }).updTenant t fun n =>
      { n with cmds := n.cmds ++ [c] }

/-- TIMING notes a command of the frame that is fetched late (14 R531). -/
def State.noteLate (s : State) (t : Fin 16) (c : Cmd) : State :=
  if s.lateFor c.stamp (cmdField c.word 0 1) then s.noteTiming t 0 else s

section
variable (s : State) (t : Fin 16) (q : Fin 8) (rest : List Stamp) (c : Cmd)

theorem State.noteLate_own : Touches [.tOut] s (s.noteLate t c) := by
  unfold State.noteLate
  split
  · exact State.noteTiming_touches s t 0 (within_refl _) (Touches.refl _ _)
  · exact Touches.refl _ _

theorem State.takeEntry_own : Touches [.cfgA, .cfgB, .tQueues, .tCmds] s (s.takeEntry t q rest c) := by
  refine Touches.updTenant _ t _ (State.updQueue_touches _ t q _ (by decide)
    (State.passTurn_touches s t q (by decide) (Touches.refl _ _))) fun p hp => ?_
  cases p
  case tCmds => exact absurd hp (by decide)
  all_goals simp only [Part.sameT, and_self]

theorem State.takeEntry_queue : (s.takeEntry t q rest c).queue t q =
    { s.queue t q with
      published := rest, sqHead := ((s.queue t q).sqHead + 1) % s.sqDepth t q, reserved := (s.queue t q).reserved + 1 } := by
  have hturn : (s.passTurn t q).queue t q = s.queue t q := by
    rw [State.passTurn, State.queue_updTenant, State.updCfg_tenant, State.queue]
  rw [State.takeEntry, State.queue_updTenant]
  exact (State.queue_updQueue_self _ t q _).trans (by rw [hturn])

theorem State.takeEntry_cmds : ((s.takeEntry t q rest c).tenant t).cmds = (s.tenant t).cmds ++ [c] := by
  simp [State.takeEntry, State.passTurn]

theorem State.takeEntry_rounds : ((s.takeEntry t q rest c).cfg (s.ownerOf t)).fetchTurn = (t.val + 1) % 16 ∧
    ((s.takeEntry t q rest c).tenant t).queueTurn = (q.val + 1) % 8 := by
  simp [State.takeEntry, State.passTurn]

@[simp] theorem State.noteLate_queue (u : Fin 16) (r : Fin 8) : (s.noteLate t c).queue u r = s.queue u r :=
  (s.noteLate_own t c).queue u r

@[simp] theorem State.noteLate_tenant_fields (u : Fin 16) : ((s.noteLate t c).tenant u).cmds = (s.tenant u).cmds ∧
    ((s.noteLate t c).tenant u).queueTurn = (s.tenant u).queueTurn :=
  ⟨(s.noteLate_own t c).tCmds u, ((s.noteLate_own t c).tQueues u).2⟩

@[simp] theorem State.noteLate_cfg (p : Port) : (s.noteLate t c).cfg p = s.cfg p := (s.noteLate_own t c).cfg p

end

/-! ### COMMAND_FETCH (11 R424, R426, R429, R440) -/

theorem State.fetchCommand_passed_over {s : State} {t : Fin 16} {q : Fin 8} (h : s.portNext (s.ownerOf t) ≠ some (t, q))
    (w : BitVec 512) : s.fetchCommand t q w = s := by
  simp only [State.fetchCommand, h, decide_false, Bool.and_false, Bool.false_eq_true, if_false]

/-- The completion of a command that is refused at its fetch: the code and ERR_OFFSET of its first fault (11 R429, R440). -/
def refusal (w : BitVec 512) (flaws : List (Bool × Nat)) : Comp :=
  { cmdId := BitVec.ofNat 16 (cmdField w 2 2), result := (flawCode flaws).1, detail := errDetail (flawCode flaws).2 false }

theorem settle_queueTurn (s : State) (t : Fin 16) : ((settle s).tenant t).queueTurn = (s.tenant t).queueTurn := by
  rw [settle_tenant]

section
variable {s : State} {t : Fin 16} {c : Cmd} (hlive : (s.queue t c.q).dying = false) (code : Byte) (detail : BitVec 160)
include hlive

/-- A command completes in a queue that lives: its tag is free, and its completion is the last of the queue's. -/
theorem State.completeCmd_of_live : s.completeCmd t c code detail =
    (s.updTenant t fun n => { n with cmds := n.cmds.filter fun d => d.tag ≠ c.tag }).updQueue t c.q fun k =>
      { k with comps := k.comps ++ [{ cmdId := c.id, result := code, detail := detail }] } := by
  rw [State.completeCmd, if_neg]
  rw [State.queue_updTenant]
  exact Bool.eq_false_iff.mp hlive

theorem State.completeCmd_queue : (s.completeCmd t c code detail).queue t c.q =
    { s.queue t c.q with comps := (s.queue t c.q).comps ++ [{ cmdId := c.id, result := code, detail := detail }] } := by
  rw [State.completeCmd_of_live hlive, State.queue_updQueue_self, State.queue_updTenant]
  rfl

theorem State.completeCmd_queueTurn : ((s.completeCmd t c code detail).tenant t).queueTurn = (s.tenant t).queueTurn := by
  simp [State.completeCmd_of_live hlive]

end

/-- The state after a fetch, but for the completion of a command that is refused. -/
def State.afterFetch (s : State) (t : Fin 16) (q : Fin 8) (w : BitVec 512) (st : Stamp) (rest : List Stamp) : State :=
  (s.takeEntry t q rest (s.fetchedCmd t q w st)).noteLate t (s.fetchedCmd t q w st)

section
variable (s : State) (t : Fin 16) (q : Fin 8) (w : BitVec 512) (st : Stamp) (rest : List Stamp)

theorem State.afterFetch_inLease : (s.afterFetch t q w st rest).inLease t = s.inLease t := by
  funext a n
  rw [State.afterFetch, (State.noteLate_own _ t _).inLease, (State.takeEntry_own s t q rest _).inLease]

theorem State.afterFetch_queue : (s.afterFetch t q w st rest).queue t q =
    { s.queue t q with
      published := rest, sqHead := ((s.queue t q).sqHead + 1) % s.sqDepth t q, reserved := (s.queue t q).reserved + 1 } := by
  rw [State.afterFetch, State.noteLate_queue, State.takeEntry_queue]

theorem State.afterFetch_rounds : ((s.afterFetch t q w st rest).cfg (s.ownerOf t)).fetchTurn = (t.val + 1) % 16 ∧
    ((s.afterFetch t q w st rest).tenant t).queueTurn = (q.val + 1) % 8 := by
  simpa only [State.afterFetch, State.noteLate_cfg, State.noteLate_tenant_fields] using s.takeEntry_rounds t q rest _

end

section
variable {s : State} {t : Fin 16} {q : Fin 8} {w : BitVec 512} {st : Stamp} {rest : List Stamp} (hheld : s.held = false)
  (hturn : s.portNext (s.ownerOf t) = some (t, q)) (hfirst : (s.queue t q).published = st :: rest)

include hturn in
theorem State.afterFetch_lives : ((s.afterFetch t q w st rest).queue t q).dying = false := by
  rw [State.afterFetch_queue]
  exact State.not_dying_of_canFetch (State.canFetch_of_portNext hturn)

include hheld hturn hfirst

/-- A fetch completes its command at once where it is flawed. -/
theorem State.fetchCommand_of_turn : s.fetchCommand t q w =
    if cmdFlaws w (s.inLease t) = [] then s.afterFetch t q w st rest
    else (s.afterFetch t q w st rest).completeCmd t (s.fetchedCmd t q w st) (flawCode (cmdFlaws w (s.inLease t))).1
      (errDetail (flawCode (cmdFlaws w (s.inLease t))).2 false) := by
  rw [State.fetchCommand, if_pos (by simp [hheld, hturn]), hfirst, ← s.afterFetch_inLease t q w st rest]
  dsimp only
  split
  case h_1 hsound => exact (if_pos hsound).symm
  case h_2 hflawed => exact (if_neg hflawed).symm

/-- The entry is taken from the queue, and the command's completion, where it is flawed, is the queue's last. -/
theorem State.fetchCommand_queue : (s.fetchCommand t q w).queue t q =
    { s.queue t q with
      published := rest, sqHead := ((s.queue t q).sqHead + 1) % s.sqDepth t q, reserved := (s.queue t q).reserved + 1
      comps := (s.queue t q).comps ++ if cmdFlaws w (s.inLease t) = [] then [] else [refusal w (cmdFlaws w (s.inLease t))] } := by
  have hqueue := s.afterFetch_queue t q w st rest
  rw [State.fetchCommand_of_turn hheld hturn hfirst]
  split
  · rw [hqueue, List.append_nil]
  · refine (State.completeCmd_queue (c := s.fetchedCmd t q w st) (State.afterFetch_lives hturn) _ _).trans ?_
    exact congrArg (fun k : Queue => { k with comps := k.comps ++ [refusal w (cmdFlaws w (s.inLease t))] }) hqueue

/-- The rounds of the port and of the tenant go on past the queue. -/
theorem State.fetchCommand_rounds : ((s.fetchCommand t q w).cfg (s.ownerOf t)).fetchTurn = (t.val + 1) % 16 ∧
    ((s.fetchCommand t q w).tenant t).queueTurn = (q.val + 1) % 8 := by
  rw [State.fetchCommand_of_turn hheld hturn hfirst]
  split
  · exact s.afterFetch_rounds t q w st rest
  · obtain ⟨hport, hround⟩ := s.afterFetch_rounds t q w st rest
    rw [(State.completeCmd_own _ t _ _ _).cfg]
    exact ⟨hport, (State.completeCmd_queueTurn (c := s.fetchedCmd t q w st) (State.afterFetch_lives hturn) _ _).trans hround⟩

/-- A command without a flaw holds its tag. -/
theorem State.fetchCommand_cmds (hsound : cmdFlaws w (s.inLease t) = []) :
    ((s.fetchCommand t q w).tenant t).cmds = (s.tenant t).cmds ++ [s.fetchedCmd t q w st] := by
  rw [State.fetchCommand_of_turn hheld hturn hfirst, if_pos hsound, State.afterFetch]
  simp only [State.noteLate_tenant_fields, State.takeEntry_cmds]

end

/-- Settles O18: a fetch out of turn does nothing; one in its turn takes the first entry, whose command holds its tag or is refused. -/
theorem fetchTakesTheFirstEntry : Obligations.FetchTakesTheFirstEntry := by
  unfold Obligations.FetchTakesTheFirstEntry
  intro s t q w hheld
  refine ⟨fun h => congrArg done (State.fetchCommand_passed_over h w), fun st rest hturn hfirst => ?_⟩
  obtain ⟨hport, hround⟩ := State.fetchCommand_rounds (w := w) hheld hturn hfirst
  refine ⟨settle (s.fetchCommand t q w), rfl, ?_⟩
  rw [settle_queue, State.fetchCommand_queue hheld hturn hfirst, settle_queueTurn]
  refine ⟨rfl, rfl, rfl, ?_, hround, fun hsound => ⟨?_, s.fetchedCmd t q w st, ?_, rfl, rfl, rfl, rfl, rfl⟩, fun hflawed => ?_⟩
  · simpa only [settle_reads] using hport
  · rw [if_pos hsound, List.append_nil]
  · simpa only [settle_tenant_fields] using State.fetchCommand_cmds hheld hturn hfirst hsound
  · rw [if_neg hflawed]
    rfl

end Sys2Proof.Machine
end


section
/-! SUPPORT. Entries written to a completion queue, of commands and of frames (11 R421, R426, R435, R442, R443). -/
namespace Sys2Proof.Machine
open Sys2Proof
set_option Elab.async false

/-! ### What an entry's message, the next reservation and the ACTIVE bits leave (11 R443, R445, R451) -/

@[simp] theorem State.irq_tenant (s : State) (t : Fin 16) (q : Fin 8) (u : Fin 16) : (s.irq t q).tenant u = s.tenant u := by
  unfold State.irq State.sendMsix
  split
  · split
    · simp only [State.setLive_reads]
    · simp only [State.updCfg_tenant]
  · rfl

@[simp] theorem State.irq_queue (s : State) (t : Fin 16) (q : Fin 8) (u : Fin 16) (r : Fin 8) :
    (s.irq t q).queue u r = s.queue u r := by
  rw [State.queue, State.irq_tenant, State.queue]

/-- Two states of a completion queue hold the same entries, written and to be written. -/
def Queue.SameEntries (k m : Queue) : Prop :=
  m.comps = k.comps ∧ m.cqTail = k.cqTail ∧ m.toggle = k.toggle ∧ m.written = k.written ∧ m.ring = k.ring

theorem Queue.SameEntries.trans {k m n : Queue} (h : k.SameEntries m) (i : m.SameEntries n) : k.SameEntries n := by
  obtain ⟨hcomps, htail, htoggle, hwritten, hring⟩ := h
  obtain ⟨icomps, itail, itoggle, iwritten, iring⟩ := i
  exact ⟨icomps.trans hcomps, itail.trans htail, itoggle.trans htoggle, iwritten.trans hwritten, iring.trans hring⟩

theorem State.reserveFrame_entries (s : State) (t u : Fin 16) (r : Fin 8) :
    (s.queue u r).SameEntries ((s.reserveFrame t).queue u r) := by
  rw [State.reserveFrame_queue]
  exact ⟨rfl, rfl, rfl, rfl, rfl⟩

theorem State.refreshActive_entries (s : State) (t : Fin 16) (q : Fin 8) :
    (s.queue t q).SameEntries ((s.refreshActive t q).queue t q) := by
  rw [State.refreshActive, State.queue_updQueue_self]
  exact ⟨rfl, rfl, rfl, rfl, rfl⟩

/-- The last steps after an entry leave the queue's entries. -/
theorem State.settled_entries (s : State) (t : Fin 16) (q : Fin 8) :
    (s.queue t q).SameEntries ((settle ((s.reserveFrame t).refreshActive t q)).queue t q) := by
  rw [settle_queue]
  exact (s.reserveFrame_entries t t q).trans ((s.reserveFrame t).refreshActive_entries t q)

/-- They leave of a tenant everything but its queues. -/
theorem State.settled_done (s : State) (t u : Fin 16) (q : Fin 8) :
    ((settle ((s.reserveFrame t).refreshActive t q)).tenant u).delivering = (s.tenant u).delivering ∧
    ((settle ((s.reserveFrame t).refreshActive t q)).tenant u).backlog = (s.tenant u).backlog ∧
    ((settle ((s.reserveFrame t).refreshActive t q)).tenant u).pubRing = (s.tenant u).pubRing := by
  have h : Touches [.attn, .tSched, .tQueues] s (settle ((s.reserveFrame t).refreshActive t q)) :=
    settle_touches _ (by decide) (State.refreshActive_touches _ t q (by decide)
      (State.reserveFrame_touches s t (by decide) (Touches.refl _ _)))
  obtain ⟨hdelivering, hbacklog⟩ := h.tDone u
  obtain ⟨hring, -⟩ := h.tRings u
  exact ⟨hdelivering, hbacklog, hring⟩

/-! ### An entry placed (11 R421) -/

/-- TOGGLE inverts where CQ_TAIL comes to the ring's end. -/
theorem Queue.push_toggle (k : Queue) (depth : Nat) (e : BitVec 256) :
    (k.push depth e).toggle = (k.toggle ^^ decide (k.cqTail + 1 = depth)) := by
  by_cases h : k.cqTail + 1 = depth <;> simp [Queue.push, h]

theorem Queue.push_ring (k : Queue) (depth : Nat) (e : BitVec 256) : mfind (k.push depth e).ring k.cqTail = some e :=
  mfind_mput_self _ _ _

/-! ### COMPLETION_WRITE (11 R426, R435) -/

/-- The entry of a command's completion (11 R435). -/
def State.compEntry (s : State) (t : Fin 16) (q : Fin 8) (x : Comp) : BitVec 256 :=
  entryOf (s.stat (some t) x.result) (s.attnSeq (some t)) (s.queue t q).toggle false (s.queue t q).sqHead q.val x.cmdId x.detail

section
variable {s : State} {t : Fin 16} (hstopped : s.writesStopped = false)
include hstopped

/-- The completion goes into the ring, unless a frame completion of the backlog goes first (11 R443). -/
theorem State.writeCompletion_of_first {q : Fin 8} {x : Comp} {rest : List Comp}
    (hfree : q = 0 → (s.tenant t).backlog = [] ∨ s.frameReady t = false) (hfirst : (s.queue t q).comps = x :: rest) :
    s.writeCompletion t q =
      (((s.updQueue t q fun k =>
        { k.push (s.cqDepth t q) (s.compEntry t q x) with comps := rest, reserved := k.reserved - 1 }).irq t q).reserveFrame
          t).refreshActive t q := by
  have hturn : (s.writesStopped || (q = 0 && (s.tenant t).backlog ≠ [] && s.frameReady t)) = false := by
    by_cases hq : q = 0
    · obtain hnone | hready := hfree hq
      · simp [hstopped, hnone]
      · simp [hstopped, hready]
    · simp [hstopped, hq]
  rw [State.writeCompletion, if_neg (Bool.eq_false_iff.mp hturn), hfirst]
  rfl

/-- What COMPLETION_WRITE leaves of the queue. -/
theorem completionWrite_places_first (q : Fin 8) (x : Comp) (rest : List Comp)
    (hfree : q = 0 → (s.tenant t).backlog = [] ∨ s.frameReady t = false) (hfirst : (s.queue t q).comps = x :: rest) :
    ∃ u, exec (.completionWrite t q) s = .next u ∧ (u.queue t q).comps = rest ∧
      (u.queue t q).cqTail = ((s.queue t q).cqTail + 1) % s.cqDepth t q ∧
      (u.queue t q).toggle = ((s.queue t q).toggle ^^ decide ((s.queue t q).cqTail + 1 = s.cqDepth t q)) ∧
      (u.queue t q).written = (s.queue t q).written + 1 ∧
      mfind (u.queue t q).ring (s.queue t q).cqTail = some (s.compEntry t q x) := by
  refine ⟨settle (s.writeCompletion t q), rfl, ?_⟩
  rw [State.writeCompletion_of_first hstopped hfree hfirst]
  obtain ⟨hcomps, htail, htoggle, hwritten, hring⟩ := State.settled_entries _ t q
  rw [hcomps, htail, htoggle, hwritten, hring, State.irq_queue, State.queue_updQueue_self]
  exact ⟨rfl, rfl, (s.queue t q).push_toggle _ (s.compEntry t q x), rfl, (s.queue t q).push_ring (s.cqDepth t q) _⟩

end

/-! ### FRAME_COMPLETION_WRITE (11 R442, R443) -/

/-- The entry of a frame completion with a number of completions waiting behind it. -/
def State.frameEntry (s : State) (t : Fin 16) (d : FrameDone) (backlog : Nat) : BitVec 256 :=
  entryOf (s.stat (some t) d.result) (s.attnSeq (some t)) (s.queue t 0).toggle true (s.queue t 0).sqHead 0 0xFFFF (d.detail backlog)

/-- The publication record of a frame that publishes a plan, in its slot (11 R442). -/
def State.placeRecord (s : State) (t : Fin 16) (d : FrameDone) : State :=
  if d.valid then
    (s.updTenant t fun n => { n with pubRing := mput n.pubRing d.slot.toNat (recordBytes d) }).streamRecord d.slot.toNat (recordBytes d)
  else s

section
variable (s : State) (t : Fin 16) (d : FrameDone) (backlog : Nat)

theorem State.writeFrame_eq : s.writeFrame t d backlog =
    ((s.placeRecord t d).updQueue t 0 fun k => k.push ((s.placeRecord t d).cqDepth t 0) (s.frameEntry t d backlog)).irq t 0 := rfl

theorem State.placeRecord_own : Touches [.tRings, .lynx] s (s.placeRecord t d) := by
  unfold State.placeRecord
  split
  · refine State.streamRecord_touches _ _ _ (by decide) (Touches.updTenant _ t _ (Touches.refl _ _) fun p hp => ?_)
    cases p
    case tRings => exact absurd hp (by decide)
    all_goals simp only [Part.sameT, and_self]
  · exact Touches.refl _ _

/-- The record stands in the slot that D_7 fixed. -/
theorem State.placeRecord_ring (hvalid : d.valid = true) :
    mfind ((s.placeRecord t d).tenant t).pubRing d.slot.toNat = some (recordBytes d) := by
  have hstream (u : State) : ((u.streamRecord d.slot.toNat (recordBytes d)).tenant t).pubRing = (u.tenant t).pubRing :=
    ((State.streamRecord_touches u _ _ (within_refl _) (Touches.refl _ _)).tRings t).1
  rw [State.placeRecord, if_pos hvalid, hstream, State.tenant_updTenant_self]
  exact mfind_mput_self _ _ _

theorem State.writeFrame_queue :
    (s.writeFrame t d backlog).queue t 0 = (s.queue t 0).push (s.cqDepth t 0) (s.frameEntry t d backlog) := by
  have hown := s.placeRecord_own t d
  have hdepth : (s.placeRecord t d).cqDepth t 0 = s.cqDepth t 0 := by simp only [State.cqDepth, hown.live]
  rw [State.writeFrame_eq, State.irq_queue, State.queue_updQueue_self, hown.queue, hdepth]

theorem State.writeFrame_ring (hvalid : d.valid = true) :
    mfind ((s.writeFrame t d backlog).tenant t).pubRing d.slot.toNat = some (recordBytes d) := by
  rw [State.writeFrame_eq, State.irq_tenant, State.tenant_updQueue_self]
  exact s.placeRecord_ring t d hvalid

theorem State.writeFrame_done : ((s.writeFrame t d backlog).tenant t).delivering = (s.tenant t).delivering ∧
    ((s.writeFrame t d backlog).tenant t).backlog = (s.tenant t).backlog :=
  (State.writeFrame_touches s t d backlog (within_refl _) (Touches.refl _ _)).tDone t

end

section
variable {s : State} {t : Fin 16} (hstopped : s.writesStopped = false) (hready : s.frameReady t = true)
include hstopped hready

theorem State.writeFrameCompletion_of_delivering {d : FrameDone} (hd : (s.tenant t).delivering = some d) :
    s.writeFrameCompletion t =
      (((((s.writeFrame t d (s.tenant t).backlog.length).updTenant t fun n => { n with delivering := none }).updQueue t 0 fun k =>
        { k with frameSlot := false }).reserveFrame t).refreshActive t 0) := by
  rw [State.writeFrameCompletion, if_neg (by simp [hstopped, hready]), hd]

theorem State.writeFrameCompletion_of_backlog {d : FrameDone} {rest : List FrameDone} (hd : (s.tenant t).delivering = none)
    (hb : (s.tenant t).backlog = d :: rest) :
    s.writeFrameCompletion t =
      ((((s.writeFrame t d rest.length).updTenant t fun n => { n with backlog := rest }).reserveFrame t).refreshActive t 0) := by
  rw [State.writeFrameCompletion, if_neg (by simp [hstopped, hready]), hd, hb]

/-- A frame completion that has its slot goes into queue 0. -/
theorem frameCompletionWrite_places_delivering (d : FrameDone) (hd : (s.tenant t).delivering = some d) :
    ∃ u, exec (.frameCompletionWrite t) s = .next u ∧ (u.tenant t).delivering = none ∧
      (u.tenant t).backlog = (s.tenant t).backlog ∧
      (u.queue t 0).cqTail = ((s.queue t 0).cqTail + 1) % s.cqDepth t 0 ∧
      mfind (u.queue t 0).ring (s.queue t 0).cqTail = some (s.frameEntry t d (s.tenant t).backlog.length) ∧
      (d.valid = true → mfind (u.tenant t).pubRing d.slot.toNat = some (recordBytes d)) := by
  refine ⟨settle (s.writeFrameCompletion t), rfl, ?_⟩
  rw [State.writeFrameCompletion_of_delivering hstopped hready hd]
  obtain ⟨-, htail, -, -, hring⟩ := State.settled_entries _ t 0
  obtain ⟨hdelivering, hbacklog, hpub⟩ := State.settled_done _ t t 0
  rw [htail, hring, hdelivering, hbacklog, hpub, State.queue_updQueue_self, State.tenant_updQueue_self, State.queue_updTenant,
    State.tenant_updTenant_self]
  have hqueue := s.writeFrame_queue t d (s.tenant t).backlog.length
  refine ⟨rfl, (s.writeFrame_done t d _).2, congrArg Queue.cqTail hqueue, ?_, s.writeFrame_ring t d _⟩
  exact (congrArg (fun k : Queue => mfind k.ring (s.queue t 0).cqTail) hqueue).trans ((s.queue t 0).push_ring _ _)

/-- The first frame completion of the backlog goes into queue 0 where none has its slot. -/
theorem frameCompletionWrite_places_backlog (d : FrameDone) (rest : List FrameDone) (hd : (s.tenant t).delivering = none)
    (hb : (s.tenant t).backlog = d :: rest) :
    ∃ u, exec (.frameCompletionWrite t) s = .next u ∧ (u.tenant t).backlog = rest ∧
      (u.queue t 0).cqTail = ((s.queue t 0).cqTail + 1) % s.cqDepth t 0 ∧
      mfind (u.queue t 0).ring (s.queue t 0).cqTail = some (s.frameEntry t d rest.length) ∧
      (d.valid = true → mfind (u.tenant t).pubRing d.slot.toNat = some (recordBytes d)) := by
  refine ⟨settle (s.writeFrameCompletion t), rfl, ?_⟩
  rw [State.writeFrameCompletion_of_backlog hstopped hready hd hb]
  obtain ⟨-, htail, -, -, hring⟩ := State.settled_entries _ t 0
  obtain ⟨-, hbacklog, hpub⟩ := State.settled_done _ t t 0
  rw [htail, hring, hbacklog, hpub, State.queue_updTenant, State.tenant_updTenant_self]
  have hqueue := s.writeFrame_queue t d rest.length
  refine ⟨rfl, congrArg Queue.cqTail hqueue, ?_, s.writeFrame_ring t d _⟩
  exact (congrArg (fun k : Queue => mfind k.ring (s.queue t 0).cqTail) hqueue).trans ((s.queue t 0).push_ring _ _)

end

/-- Settles O19: a command's completion and a frame's are one entry pushed at CQ_TAIL, and what follows it leaves the entries. -/
theorem completionsGoOutInOrder : Obligations.CompletionsGoOutInOrder := by
  unfold Obligations.CompletionsGoOutInOrder
  intro s t hstopped
  exact ⟨completionWrite_places_first hstopped, fun d hready => frameCompletionWrite_places_delivering hstopped hready d,
    fun d rest hready => frameCompletionWrite_places_backlog hstopped hready d rest⟩

end Sys2Proof.Machine
end

section
/-! SUPPORT. Configuration requests (11 R413), and register reads with their holding copies (11 R414; 12 R459; 18 R705). -/
namespace Sys2Proof.Machine
open Sys2Proof
set_option Elab.async false

/-! ### Configuration requests (11 R413) -/

theorem State.configRequest_of_running {s : State} (hheld : s.held = false) (p : Port) :
    s.configRequest p = (s.updCfg p fun c =>
      { c with crs := ! (s.cfg p).ready, readData := if (s.cfg p).ready then Config.configSpace s.draws else c.readData }).draw := by
  rw [State.configRequest, if_neg (Bool.eq_false_iff.mp hheld)]

/-- A port's own side is no register, no DRAM and no frame. -/
theorem State.updCfg_keeps (s : State) (p : Port) (f : PortCfg → PortCfg) :
    (s.updCfg p f).regs = s.regs ∧ (s.updCfg p f).dram = s.dram ∧ (s.updCfg p f).frame = s.frame := by
  cases p <;> exact ⟨rfl, rfl, rfl⟩

/-- Settles O28: while the device is not held, a request writes its port's side and takes a draw. -/
theorem configurationRequestsRetryUntilReady : Obligations.ConfigurationRequestsRetryUntilReady := by
  unfold Obligations.ConfigurationRequestsRetryUntilReady
  intro s p hheld
  refine ⟨settle (s.configRequest p), rfl, ?_⟩
  simp only [State.configRequest_of_running hheld, settle_reads, settle_fields, State.draw_reads, State.draw_fields,
    State.cfg_updCfg_self, State.updCfg_keeps, true_and]
  exact fun q hq => State.cfg_updCfg_ne s hq.symm _

/-! ### Holding copies (12 R459) -/

theorem mfind_foldl_mput_of_not_mem {β : Type} {l : List (Nat × β)} {k : Nat} (hk : k ∉ l.map Prod.fst) (m : List (Nat × β)) :
    mfind (l.foldl (fun m x => mput m x.1 x.2) m) k = mfind m k := by
  induction l generalizing m with
  | nil => rfl
  | cons x r ih =>
    obtain ⟨hx, hr⟩ := not_or.mp (mt List.mem_cons.mpr hk)
    exact (ih hr _).trans (mfind_mput_ne m hx x.2)

/-- Of several keys put into a map, each keeps its own value where no key is put twice. -/
theorem mfind_foldl_mput {β : Type} {l : List (Nat × β)} (hl : (l.map Prod.fst).Nodup) (m : List (Nat × β)) {x : Nat × β}
    (hx : x ∈ l) : mfind (l.foldl (fun m x => mput m x.1 x.2) m) x.1 = some x.2 := by
  induction l generalizing m with
  | nil => cases hx
  | cons y r ih =>
    obtain ⟨hy, hr⟩ := List.nodup_cons.mp hl
    obtain rfl | hx := List.mem_cons.mp hx
    · exact (mfind_foldl_mput_of_not_mem hy _).trans (mfind_mput_self m _ _)
    · exact ih hr _ hx

theorem heldBy_nodup (page off : Nat) : (heldBy page off).Nodup := by
  unfold heldBy
  split
  · decide
  · cases pairHigh page off <;> simp

/-- The copies that a read of a register takes, all of one instant (12 R459; 18 R705). -/
def State.copies (s : State) (p : Port) (page off : Nat) : List (Nat × Word) :=
  (heldBy page off).map fun o => (regKey page o, BitVec.ofNat 32 (s.regValue p page o))

theorem State.copies_nodup (s : State) (p : Port) (page off : Nat) : ((s.copies p page off).map Prod.fst).Nodup := by
  rw [State.copies, List.map_map]
  exact (heldBy_nodup page off).map fun _ _ h => Nat.add_left_cancel h

section
variable {s : State} {p : Port} (hup : s.portUp p = true)
include hup

/-- A read takes its own register's copy out of the port's holding copies, and puts in those of the registers it copies. -/
theorem State.bar0Read_holds {page off : Nat} (hoff : off % 4 = 0) (hmay : s.mayRead p page = true) :
    ((s.bar0Read p page off).cfg p).holds =
      (s.copies p page off).foldl (fun m x => mput m x.1 x.2) (mdel (s.cfg p).holds (regKey page off)) := by
  unfold State.bar0Read
  simp only [hup, hoff, hmay, Bool.not_true, Bool.false_eq_true, if_false, ne_eq, not_true_eq_false, decide_false, Bool.or_self]
  rw [(State.clearRead_touches _ page off (within_refl _) (Touches.refl _ _)).cfg, State.cfg_updCfg_self]
  rfl

theorem State.bar0Read_copies {page off o : Nat} (hoff : off % 4 = 0) (hmay : s.mayRead p page = true) (ho : o ∈ heldBy page off) :
    mfind ((s.bar0Read p page off).cfg p).holds (regKey page o) = some (BitVec.ofNat 32 (s.regValue p page o)) := by
  rw [State.bar0Read_holds hup hoff hmay]
  exact mfind_foldl_mput (s.copies_nodup p page off) _ (List.mem_map_of_mem ho)

/-- A read off the words of a page, or of a page that the port cannot read, reads 0 (11 R414). -/
theorem State.bar0Read_unreadable {page off : Nat} (h : off % 4 ≠ 0 ∨ s.mayRead p page = false) :
    s.bar0Read p page off = s.updCfg p fun c => { c with readData := 0 } := by
  have hguard : (off % 4 ≠ 0 || ! s.mayRead p page) = true := by simpa using h
  rw [State.bar0Read, hup, if_neg (by decide), if_pos hguard]

/-- What a read that reaches its register answers, and the copies it leaves. -/
theorem State.read_answers_and_holds {page off : Nat} (hoff : off % 4 = 0) (hmay : s.mayRead p page = true) :
    ∃ t, done (s.bar0Read p page off) = .next t ∧ Answers s t p page off (s.regValue p page off) ∧ t.cal = s.cal ∧
      ∀ o ∈ heldBy page off, mfind (t.cfg p).holds (regKey page o) = some (BitVec.ofNat 32 (s.regValue p page o)) := by
  obtain ⟨t, hnext, hans, htouch, -⟩ := State.read_answers hup hoff hmay
  refine ⟨t, hnext, hans, ?_, fun o ho => ?_⟩
  · exact htouch.cal.trans (State.clearRead_touches s page off (within_refl _) (Touches.refl _ _)).cal
  · obtain rfl : settle (s.bar0Read p page off) = t := Host.Outcome.next.inj hnext
    simpa only [settle_reads] using State.bar0Read_copies hup hoff hmay ho

end

/-! ### The calendar's registers (18 R705) -/

/-- A register of the calendar reads what the calendar shows. -/
theorem State.regValue_calendar {s : State} {off v : Nat} {r : Reg} (hfind : regFind 0x10 off = some (r, 0)) (hcls : r.cls = .a)
    (hoff : 0x100 ≤ off) (hvalue : s.calendarReg off = some v) (p : Port) : s.regValue p 0x10 off = v := by
  have hstate : s.stateReg p 0x10 off = some v := hvalue
  simp [State.regValue, hfind, hcls, hstate, Nat.not_lt.mpr hoff]

/-- A read of the date answers the calendar, and leaves copies of the time of day and of the seconds, all of that instant. -/
theorem nowDateRead_holds_instant {s : State} {p : Port} (hup : s.portUp p = true) (hmay : s.mayRead p 0x10 = true) :
    ∃ t, exec (.nowDateRead p) s = .next t ∧
      Answers s t p 0x10 0x10C (s.cal.year + s.cal.month * 2 ^ 16 + s.cal.day * 2 ^ 24) ∧
      mfind (t.cfg p).holds (regKey 0x10 0x110) =
        some (BitVec.ofNat 32 (s.cal.second + s.cal.minute * 2 ^ 8 + s.cal.hour * 2 ^ 16)) ∧
      mfind (t.cfg p).holds (regKey 0x10 0x114) = some (BitVec.ofNat 32 s.cal.seconds.toNat) ∧
      mfind (t.cfg p).holds (regKey 0x10 0x118) = some (BitVec.ofNat 32 (s.cal.seconds.toNat / 2 ^ 32)) ∧ t.cal = s.cal := by
  obtain ⟨t, hnext, hans, hcal, hholds⟩ := State.read_answers_and_holds (off := 0x10C) hup rfl hmay
  have hdate := State.regValue_calendar (s := s) (off := 0x10C) rfl rfl (by decide) rfl p
  have htime := State.regValue_calendar (s := s) (off := 0x110) rfl rfl (by decide) rfl p
  have hlow := State.regValue_calendar (s := s) (off := 0x114) rfl rfl (by decide) rfl p
  have hhigh := State.regValue_calendar (s := s) (off := 0x118) rfl rfl (by decide) rfl p
  refine ⟨t, hnext, hdate ▸ hans, ?_, ?_, ?_, hcal⟩
  · rw [hholds 0x110 (by decide), htime]
  · rw [hholds 0x114 (by decide), hlow]
    exact congrArg some (BitVec.eq_of_toNat_eq (by simp))
  · rw [hholds 0x118 (by decide), hhigh]

/-- Settles O31: a read that reaches its register answers the register's value and puts the registers it copies into the port's holding
copies, each under its own key; the calendar's values are those of its registers. -/
theorem readsAnswerOneInstant : Obligations.ReadsAnswerOneInstant := by
  unfold Obligations.ReadsAnswerOneInstant
  intro s p hup
  refine ⟨fun page off hoff hmay => ?_, fun page off h => ?_, nowDateRead_holds_instant hup⟩
  · obtain ⟨t, hnext, hans, -, hholds⟩ := State.read_answers_and_holds hup hoff hmay
    exact ⟨t, hnext, hans, hholds⟩
  · refine ⟨settle (s.bar0Read p page.toNat off.toNat), rfl, ?_⟩
    simp [State.bar0Read_unreadable hup h]

end Sys2Proof.Machine
end

section
/-! SUPPORT. What every command leaves alone, in the words of its list of parts. -/
namespace Sys2Proof.Machine
open Sys2Proof

/-- Settles O3: each command's own effect touches at most the parts listed for it (`exec_effect`), and the others read the same. -/
theorem commandsChangeOnlyTheirParts : Obligations.CommandsChangeOnlyTheirParts := by
  unfold Obligations.CommandsChangeOnlyTheirParts
  intro i s
  obtain ⟨after, hexec, htouch⟩ := exec_effect i s
  exact ⟨after, hexec, fun p hp => (htouch p).1 (by simpa using hp)⟩

end Sys2Proof.Machine
end

section
/-! SUPPORT. Writes of the common header (12 R458 to R461, R475). -/
namespace Sys2Proof.Machine
open Sys2Proof

/-- A write of a header's word by a writer that reaches the page. -/
theorem State.writeReg_header {s : State} {w : Writer} {page off : Nat} (hreach : s.reaches w page = true) (halign : off % 4 = 0)
    (hoff : off < 0x100) (v : Nat) : s.writeReg w page off v = s.writeHeader w page off v := by
  simp [State.writeReg, hreach, halign, hoff]

section
variable {s : State} {w : Writer} {page : Nat} (hreach : s.reaches w page = true) (v : Word)
include hreach

theorem State.writeReg_latch :
    s.writeReg w page 0x014 v.toNat = s.updAttn fun a => a.clearLatch page (s.attnRaw page) v := by
  rw [State.writeReg_header hreach rfl (by decide)]
  simp [State.writeHeader, State.writeLatch, hreach]

theorem State.writeReg_crossed : s.writeReg w page 0x028 v.toNat = s.updAttn fun a => a.clearCrossed page v := by
  rw [State.writeReg_header hreach rfl (by decide)]
  simp [State.writeHeader, State.writeCrossed, hreach]

/-- Who may write the page's header writes its mask. -/
theorem State.writeReg_mask (hmay : s.mayWriteHeader w page = true) :
    s.writeReg w page 0x018 v.toNat = s.updAttn fun a => a.setMask page v := by
  rw [State.writeReg_header hreach rfl (by decide)]
  simp [State.writeHeader, State.writeMask, hreach, hmay]

/-- Another's write of the mask counts where it would change it. -/
theorem State.writeReg_mask_refused (hmay : s.mayWriteHeader w page = false) :
    s.writeReg w page 0x018 v.toNat = if mget 0 s.attn.mask page = v &&& attnBits page then s else s.bumpErr page := by
  rw [State.writeReg_header hreach rfl (by decide)]
  simp [State.writeHeader, State.writeMask, hreach, hmay]

end

theorem Attn.setMask_mask (a : Attn) (page : Nat) (v : Word) : (a.setMask page v).mask = mset 0 a.mask page (v &&& attnBits page) :=
  (Attn.advance_keeps _ _ _).2.1

/-- Settles O33: each header write is one operation of attention, and what it leaves of a map follows from the map's canonical form. -/
theorem headerWritesClearAndMask : Obligations.HeaderWritesClearAndMask := by
  unfold Obligations.HeaderWritesClearAndMask
  intro s w page v hcanon hreach
  refine ⟨?_, settle (s.writeReg w page.toNat 0x018 v.toNat), rfl, fun hmay => ?_, fun hmay => ?_⟩
  · rintro p rfl
    refine ⟨⟨s.writeReg (.port p) page.toNat 0x014 v.toNat, rfl, ?_⟩, ⟨s.writeReg (.port p) page.toNat 0x028 v.toNat, rfl, ?_⟩⟩
    · rw [State.writeReg_latch hreach]
      exact ⟨rfl, mget_mset_self 0 hcanon.latch _ _, fun g hg => mget_mset_ne 0 hcanon.latch hg _⟩
    · rw [State.writeReg_crossed hreach]
      exact ⟨rfl, mget_mset_self 0 hcanon.crossed _ _, fun g hg => mget_mset_ne 0 hcanon.crossed hg _⟩
  · rw [State.writeReg_mask hreach v hmay]
    simp only [settle_attn_keeps, State.updAttn_attn, Attn.setMask_mask]
    exact ⟨mget_mset_self 0 hcanon.mask _ _, fun g hg => mget_mset_ne 0 hcanon.mask hg _⟩
  · rw [State.writeReg_mask_refused hreach v hmay]
    simp only [settle_attn_keeps]
    split
    · exact ⟨rfl, rfl⟩
    · exact ⟨rfl, State.bumpErr_errCount hcanon.errCount _⟩

end Sys2Proof.Machine
end

section
/-! SUPPORT. Writes of block registers by their class (12 R462 to R465). -/
namespace Sys2Proof.Machine
open Sys2Proof

/-! ### The shadow file -/

/-- A shadow reads what was written to it, as a word. -/
@[simp] theorem State.shadowOf_setShadow_self (s : State) (page off v : Nat) :
    (s.setShadow page off v).shadowOf page off = v % 2 ^ 32 := by
  unfold State.setShadow State.shadowOf filePut
  by_cases hreset : v % 2 ^ 32 = regReset s.chip page off
  · simp only [if_pos hreset, mfind_mdel_self]
    exact hreset.symm
  · simp only [if_neg hreset, mfind_mput_self, BitVec.toNat_ofNat]

/-- A write of one shadow leaves every other as it was. -/
theorem State.shadowOf_setShadow_ne {s : State} (hshadow : keysRise s.shadow) {page off p o : Nat} (hk : regKey p o ≠ regKey page off)
    (v : Nat) : (s.setShadow page off v).shadowOf p o = s.shadowOf p o := by
  unfold State.setShadow State.shadowOf filePut
  by_cases hreset : v % 2 ^ 32 = regReset s.chip page off
  · simp only [if_pos hreset, mfind_mdel_ne _ hshadow hk]
  · simp only [if_neg hreset, mfind_mput_ne _ hk]

/-! ### The result of a direct write (12 R463) -/

/-- A code other than OK, which an unlisted page reads, is a page's last result once it is set there. -/
theorem State.recordDirect_lastResult (s : State) (w : Writer) (page off : Nat) {code : Byte} (hcode : code ≠ 0) :
    mget 0 (s.recordDirect w page off code).attn.lastResult page = code := by
  have hset : mget 0 (mset 0 s.attn.lastResult page code) page = code := mget_mset_same 0 _ _ hcode
  cases w with
  | owl => exact hset
  | port p => cases p <;> exact hset

/-- RESULT of CFG_RESULT is the code, whatever the fields above it hold (12 R479). -/
theorem bits_result (code : Byte) (n : Nat) : bits (BitVec.ofNat 32 (code.toNat + n * 2 ^ 8)).toNat 7 0 = code.toNat := by
  have := code.isLt
  simp only [bits, BitVec.toNat_ofNat]
  omega

theorem State.recordDirect_result (s : State) (p : Port) (page off : Nat) (code : Byte) :
    bits ((s.recordDirect (.port p) page off code).cfg p).result.toNat 7 0 = code.toNat := by
  have h := bits_result code ((s.cfg p).seq.toNat * 2 ^ 8 + 2 ^ 16)
  rw [show code.toNat + ((s.cfg p).seq.toNat * 2 ^ 8 + 2 ^ 16) * 2 ^ 8 = code.toNat + (s.cfg p).seq.toNat * 2 ^ 16 + 2 ^ 24 by ring] at h
  cases p <;> exact h

theorem State.recordDirect_shadow (s : State) (w : Writer) (page off : Nat) (code : Byte) :
    (s.recordDirect w page off code).shadow = s.shadow :=
  (State.recordDirect_touches s w page off code (within_refl _) (Touches.refl _ _)).shadow

/-! ### A write of a register by a port that may write all of it -/

theorem wouldChange_noBits (r : Reg) (old v : Nat) : wouldChange r 0 old v = false := by
  simp [wouldChange]

section
variable {s : State} {p : Port} {page off i : Nat} {r : Reg} (hreach : s.reaches (.port p) page = true) (halign : off % 4 = 0)
  (hoff : 0x100 ≤ off) (hfind : regFind page off = some (r, i)) (hbits : s.mayBits (.port p) page r i = 0xFFFFFFFF) (v : Nat)
include hreach halign hoff hfind hbits

theorem State.writeReg_of_a (hcls : r.cls = .a) :
    s.writeReg (.port p) page off v = s.writeA (.port p) page off r 0xFFFFFFFF v := by
  simp [State.writeReg, hreach, halign, Nat.not_lt.mpr hoff, State.writeBlock, hfind, hbits, wouldChange_noBits, hcls]

theorem State.writeReg_of_f (hcls : r.cls = .f) :
    s.writeReg (.port p) page off v = s.writeShadow page off r 0xFFFFFFFF v := by
  simp [State.writeReg, hreach, halign, Nat.not_lt.mpr hoff, State.writeBlock, hfind, hbits, wouldChange_noBits, hcls]

theorem State.writeReg_of_q (hcls : r.cls = .q) (hrw : r.rw ≠ 0) :
    s.writeReg (.port p) page off v = if bit (mget 0 s.attn.pageCtrl page).toNat 2 then s.writeShadow page off r 0xFFFFFFFF v
      else s.writeDirect (.port p) page off r 0xFFFFFFFF v := by
  simp [State.writeReg, hreach, halign, Nat.not_lt.mpr hoff, State.writeBlock, hfind, hbits, wouldChange_noBits, hcls, hrw]

end

/-! ### A-class registers (12 R463, R465) -/

theorem State.writeA_refused {s : State} {w : Writer} {page off : Nat} {r : Reg} {mask v : Nat}
    (hrange : rangeOk s.chip r (mergeRw r mask (s.current w page off r) v &&& r.rw) = false) :
    s.writeA w page off r mask v = s.recordDirect w page off codeInvalid := by
  simp [State.writeA, hrange]

/-- A register with no action of its own takes the value into the live file. -/
theorem State.writeA_kept {s : State} {w : Writer} {page off : Nat} {r : Reg} {mask v : Nat} (hrw : r.rw ≠ 0)
    (hrange : rangeOk s.chip r (mergeRw r mask (s.current w page off r) v &&& r.rw) = true)
    (haction : s.writeAction w page off
      ((mergeRw r mask (s.current w page off r) v &&& r.rw) ||| (v &&& (r.wo ||| r.w1c) &&& mask)) = none) :
    s.writeA w page off r mask v = s.setLive (writerPage w page r) off (mergeRw r mask (s.current w page off r) v) := by
  simp [State.writeA, hrange, haction, hrw]

/-! ### Shadows, and Q-class registers directly (12 R462 to R464) -/

/-- A write of a shadow moves no live value, sets the shadow and makes the register dirty. -/
theorem State.writeShadow_effect (s : State) (page off : Nat) (r : Reg) (mask v : Nat) :
    (s.writeShadow page off r mask v).regs = s.regs ∧
    (s.writeShadow page off r mask v).shadowOf page off = mergeRw r mask (s.shadowOf page off) v % 2 ^ 32 ∧
    regKey page off ∈ (s.writeShadow page off r mask v).dirty :=
  ⟨rfl, State.shadowOf_setShadow_self s page off _, mem_sinsert.mpr (.inl rfl)⟩

theorem State.writeDirect_busy {s : State} {w : Writer} {page off : Nat} {r : Reg} {mask v : Nat} (hquiet : s.regQuiet page off = false) :
    s.writeDirect w page off r mask v = s.recordDirect w page off codeBusy := by
  simp [State.writeDirect, hquiet]

theorem State.writeDirect_refused {s : State} {w : Writer} {page off : Nat} {r : Reg} {mask v : Nat} (hquiet : s.regQuiet page off = true)
    (hrange : rangeOk s.chip r (mergeRw r mask (s.live page off) v) = false) :
    s.writeDirect w page off r mask v = s.recordDirect w page off codeInvalid := by
  simp [State.writeDirect, hquiet, hrange]

/-- STAGE_Q is bit 2 of PAGE_CTRL (12 R458). -/
theorem bit_toNat (w : Word) (i : Nat) : bit w.toNat i = w.getLsbD i := by
  simp [bit, BitVec.getLsbD, Nat.testBit, Nat.one_and_eq_mod_two]

/-- Settles O34: a write by who may write the register whole is the operation of its class on the whole value. -/
theorem writesFollowTheirClass : Obligations.WritesFollowTheirClass := by
  unfold Obligations.WritesFollowTheirClass
  rintro s p page off v r i hup hread halign hoff hregs - hfind hbits new rfl
  have hreach : s.reaches (.port p) page.toNat = true := by simp [State.reaches, hup, hread]
  refine ⟨settle (s.writeReg (.port p) page.toNat off.toNat v.toNat), rfl, fun hcls hrange => ?_, fun hcls hrange hrw haction => ?_,
    fun hcls => ?_, fun hcls hrw hstage => ⟨fun hquiet => ?_, fun hquiet hrange => ?_⟩⟩ <;>
    simp only [settle_fields, settle_reads, settle_attn_keeps]
  · rw [State.writeReg_of_a hreach halign hoff hfind hbits v.toNat hcls, State.writeA_refused hrange]
    exact ⟨State.recordDirect_regs _ _ _ _ _, State.recordDirect_lastResult s _ _ _ (by decide), State.recordDirect_result s p _ _ _⟩
  · rw [State.writeReg_of_a hreach halign hoff hfind hbits v.toNat hcls, State.writeA_kept hrw hrange haction]
    exact ⟨State.live_setLive_self s _ _ _, fun g o hk => State.live_setLive_ne s hregs hk _⟩
  · obtain hcls | ⟨hcls, hrw, hstage⟩ := hcls
    · rw [State.writeReg_of_f hreach halign hoff hfind hbits v.toNat hcls]
      exact State.writeShadow_effect s _ _ _ _ _
    · rw [State.writeReg_of_q hreach halign hoff hfind hbits v.toNat hcls hrw, bit_toNat, if_pos hstage]
      exact State.writeShadow_effect s _ _ _ _ _
  · rw [State.writeReg_of_q hreach halign hoff hfind hbits v.toNat hcls hrw, bit_toNat, hstage, if_neg (by decide),
      State.writeDirect_busy hquiet]
    exact ⟨State.recordDirect_regs _ _ _ _ _, State.recordDirect_shadow _ _ _ _ _, State.recordDirect_lastResult s _ _ _ (by decide),
      State.recordDirect_result s p _ _ _⟩
  · rw [State.writeReg_of_q hreach halign hoff hfind hbits v.toNat hcls hrw, bit_toNat, hstage, if_neg (by decide),
      State.writeDirect_refused hquiet hrange]
    exact ⟨State.recordDirect_regs _ _ _ _ _, State.recordDirect_shadow _ _ _ _ _, State.recordDirect_lastResult s _ _ _ (by decide)⟩

end Sys2Proof.Machine
end

section
/-! SUPPORT. Several changes applied together, and the judgement of a set (12 R470, R471, R473, R479). -/
namespace Sys2Proof.Machine
open Sys2Proof

/-! ### Changes written into the live file -/

theorem regKey_div_mod (k : Nat) : regKey (k / 4096) (k % 4096) = k := Nat.div_add_mod k 4096

theorem State.withChanges_cons (s : State) (x : Nat × Word) (l : List (Nat × Word)) :
    s.withChanges (x :: l) = (s.setLive (x.1 / 4096) (x.1 % 4096) x.2.toNat).withChanges l := rfl

theorem State.setLive_keysRise {s : State} (hregs : keysRise s.regs) (page off v : Nat) : keysRise (s.setLive page off v).regs :=
  keysRise_filePut s.chip hregs page off v

/-- A register that no change names stands. -/
theorem State.live_withChanges_of_not_mem {s : State} (hregs : keysRise s.regs) {l : List (Nat × Word)} {p o : Nat}
    (hk : regKey p o ∉ l.map Prod.fst) : (s.withChanges l).live p o = s.live p o := by
  induction l generalizing s with
  | nil => rfl
  | cons x r ih =>
    obtain ⟨hx, hr⟩ := not_or.mp (mt List.mem_cons.mpr hk)
    rw [State.withChanges_cons, ih (State.setLive_keysRise hregs _ _ _) hr]
    exact State.live_setLive_ne s hregs (by rwa [regKey_div_mod]) _

/-- Of changes to different registers each takes its own value. -/
theorem State.live_withChanges {s : State} (hregs : keysRise s.regs) {l : List (Nat × Word)} (hl : (l.map Prod.fst).Nodup)
    {x : Nat × Word} (hx : x ∈ l) : (s.withChanges l).live (x.1 / 4096) (x.1 % 4096) = x.2.toNat := by
  induction l generalizing s with
  | nil => cases hx
  | cons y r ih =>
    obtain ⟨hy, hr⟩ := List.nodup_cons.mp hl
    rw [State.withChanges_cons]
    obtain rfl | hx := List.mem_cons.mp hx
    · rw [State.live_withChanges_of_not_mem (State.setLive_keysRise hregs _ _ _) (by rwa [regKey_div_mod]), State.live_setLive_self,
        Nat.mod_eq_of_lt x.2.isLt]
    · exact ih (State.setLive_keysRise hregs _ _ _) hr hx

/-! ### What follows from the changes -/

theorem State.live_setLive_otherPage {s : State} (hregs : keysRise s.regs) {page off p o : Nat} (hp : p ≠ page) (ho : o < 4096)
    (hoff : off < 4096) (v : Nat) : (s.setLive page off v).live p o = s.live p o := by
  refine State.live_setLive_ne s hregs (fun hkey => hp ?_) v
  simp only [regKey] at hkey
  omega

/-- Where no lease's ENABLE moves, what follows from changes moves no register but those of TRACE's page (10 R404). -/
theorem State.live_afterChanges {old s : State} (hregs : keysRise s.regs) (henabled : ∀ t, s.enabled t = old.enabled t)
    (keys : List Nat) {p o : Nat} (hp : p ≠ 0x11) (ho : o < 4096) : (old.afterChanges s keys).live p o = s.live p o := by
  unfold State.afterChanges
  extract_lets moved leases cells traces seeds comparing pin
  have hleases : leases = s := List.foldl_fixed' (fun t => by simp [henabled]) _
  have hcells : Touches [.tWorld, .tSearch] s cells := by
    simp only [cells, hleases]
    split
    · exact State.newCellSize_touches s (within_refl _) (Touches.refl _ _)
    · exact Touches.refl _ _
  have htraces : traces.live p o = s.live p o := by
    have hrise : keysRise cells.regs := hcells.regs ▸ hregs
    rw [← hcells.live p o]
    simp only [traces]
    split
    · rw [State.live_setLive_otherPage (State.setLive_keysRise hrise _ _ _) hp ho (by decide),
        State.live_setLive_otherPage hrise hp ho (by decide)]
    · rfl
  have hseeds : Touches [.tSpoor] traces seeds := Touches.forTenants (Touches.refl _ _) fun u t hu => by
    split
    · exact State.updSpoor_touches u t _ (within_refl _) hu
    · exact hu
  have hcomparing : Touches [.lynx] seeds comparing := by
    simp only [comparing]
    split
    · exact State.updLynx_touches seeds _ (within_refl _) (Touches.refl _ _)
    · exact Touches.refl _ _
  rw [← htraces, ← hseeds.live p o, ← hcomparing.live p o]
  exact (State.updLynx_reads comparing _).2.2.1 p o

/-! ### Judgement (12 R471, R488) -/

/-- A set is invalid: its port no longer reaches a page of it, or a change is out of range or breaks a rule. -/
def State.setInvalid (s : State) (p : Port) (pages : List Nat) (ch : List (Nat × Word)) : Prop :=
  (∃ g ∈ pages, s.mayRead p g = false) ∨ (∃ x ∈ ch, s.changeOk x = false) ∨ (s.withChanges ch).ruleFails (ch.map (·.1)) ≠ []

/-- A set is busy: a Q-class register of it is of a block that is not quiescent. -/
def State.setBusy (s : State) (ch : List (Nat × Word)) : Prop :=
  ∃ x ∈ ch, keyClass x.1 = .q ∧ s.regQuiet (x.1 / 4096) (x.1 % 4096) = false

/-- The code a set ends with: a set without changes ends OK. -/
def State.verdict (s : State) (p : Port) (pages : List Nat) (ch : List (Nat × Word)) : Byte :=
  if ch = [] then codeOk else (s.judge p pages ch).1

open Classical in
theorem State.judge_code (s : State) (p : Port) (pages : List Nat) (ch : List (Nat × Word)) :
    (s.judge p pages ch).1 = if s.setInvalid p pages ch then codeInvalid else if s.setBusy ch then codeBusy else codeOk := by
  have hinvalid : s.lostPages p pages (ch.map (·.1)) ++ ((ch.filter fun x => ! s.changeOk x).map (·.1)) ++
      (s.withChanges ch).ruleFails (ch.map (·.1)) ≠ [] ↔ s.setInvalid p pages ch := by
    simp [State.setInvalid, State.lostPages, imp_iff_not_or]
  have hbusy : (ch.filter fun x => keyClass x.1 = .q && ! s.regQuiet (x.1 / 4096) (x.1 % 4096)).map (·.1) ≠ [] ↔ s.setBusy ch := by
    simp [State.setBusy]
  unfold State.judge
  dsimp only
  simp only [hinvalid, hbusy]
  split
  · rfl
  · split <;> rfl

section
variable (s : State) (p : Port) (pages : List Nat) (ch : List (Nat × Word))

theorem State.verdict_eq_invalid_iff : s.verdict p pages ch = codeInvalid ↔ ch ≠ [] ∧ s.setInvalid p pages ch := by
  unfold State.verdict
  by_cases hch : ch = []
  · simp [hch, codeOk, codeInvalid]
  · rw [if_neg hch, State.judge_code]
    split_ifs <;> simp_all [codeOk, codeBusy, codeInvalid]

theorem State.verdict_eq_busy_iff : s.verdict p pages ch = codeBusy ↔ ch ≠ [] ∧ ¬ s.setInvalid p pages ch ∧ s.setBusy ch := by
  unfold State.verdict
  by_cases hch : ch = []
  · simp [hch, codeOk, codeBusy]
  · rw [if_neg hch, State.judge_code]
    split_ifs <;> simp_all [codeOk, codeBusy, codeInvalid]

theorem State.verdict_eq_ok (hinvalid : s.verdict p pages ch ≠ codeInvalid) (hbusy : s.verdict p pages ch ≠ codeBusy) :
    s.verdict p pages ch = codeOk := by
  unfold State.verdict at *
  by_cases hch : ch = []
  · rw [if_pos hch]
  · rw [if_neg hch, State.judge_code] at *
    split_ifs at * <;> simp_all

theorem State.not_setInvalid_iff : ¬ s.setInvalid p pages ch ↔
    (∀ g ∈ pages, s.mayRead p g = true) ∧ (∀ x ∈ ch, s.changeOk x = true) ∧ (s.withChanges ch).ruleFails (ch.map (·.1)) = [] := by
  simp [State.setInvalid]

end

/-! ### The end of a set (12 R471, R473) -/

theorem State.recordSet_cfg (s : State) (p : Port) (id : Nat) (seq : Byte) (pages : List Nat) (code : Byte) (place : Nat) :
    (s.recordSet p id seq pages code place).cfg p =
      { s.cfg p with
        result := BitVec.ofNat 32 (code.toNat + id * 2 ^ 8 + seq.toNat * 2 ^ 16)
        place := if code = codeOk then 0 else BitVec.ofNat 32 (place % 4096 + place / 4096 * 2 ^ 16) } := by
  unfold State.recordSet
  dsimp only
  split <;> cases p <;> rfl

theorem State.recordSet_own (s : State) (p : Port) (id : Nat) (seq : Byte) (pages : List Nat) (code : Byte) (place : Nat) :
    Touches [.cfgA, .cfgB, .attn] s (s.recordSet p id seq pages code place) :=
  State.recordSet_touches s p id seq pages code place (within_refl _) (Touches.refl _ _)

/-- The state with a set taken out of its port's queue. -/
def State.takeSet (s : State) (p : Port) (c : CfgSet) : State :=
  s.updCfg p fun f => { f with submitted := f.submitted.filter fun d => d.order ≠ c.order }

theorem State.judge_takeSet (s : State) (p : Port) (c : CfgSet) :
    (s.takeSet p c).judge p c.pages c.changes = s.judge p c.pages c.changes := by
  cases p <;> rfl

/-- What a set does before its result is recorded: a good one applies, and the changes of another are dirty again. -/
def State.enactSet (s : State) (p : Port) (c : CfgSet) : State :=
  if s.verdict p c.pages c.changes = codeOk then (s.takeSet p c).applyChanges c.changes
  else { s.takeSet p c with dirty := sunion (s.takeSet p c).dirty (c.changes.map (·.1)) }

theorem State.finishSet_eq (s : State) (p : Port) (c : CfgSet) :
    ∃ place, s.finishSet p c = (s.enactSet p c).recordSet p c.id.toNat c.seq c.pages (s.verdict p c.pages c.changes) place := by
  have hcode : (if c.changes = [] then (codeOk, 0) else (s.takeSet p c).judge p c.pages c.changes).1 = s.verdict p c.pages c.changes := by
    rw [State.verdict, apply_ite Prod.fst, State.judge_takeSet]
  refine ⟨(if c.changes = [] then (codeOk, 0) else (s.takeSet p c).judge p c.pages c.changes).2, ?_⟩
  rw [State.enactSet, ← hcode]
  rfl

section
variable (s : State) (p : Port) (c : CfgSet)

/-- A set leaves its port's queue, and moves no other part of the port's side before its result. -/
theorem State.enactSet_cfg : (s.enactSet p c).cfg p =
    { s.cfg p with submitted := (s.cfg p).submitted.filter fun d => d.order ≠ c.order } := by
  have htake : (s.takeSet p c).cfg p = { s.cfg p with submitted := (s.cfg p).submitted.filter fun d => d.order ≠ c.order } :=
    State.cfg_updCfg_self s p _
  unfold State.enactSet
  split
  · exact ((State.applyChanges_touches _ c.changes (within_refl _) (Touches.refl _ _)).cfg p).trans htake
  · exact htake

theorem State.finishSet_submitted :
    ((s.finishSet p c).cfg p).submitted = (s.cfg p).submitted.filter fun d => d.order ≠ c.order := by
  obtain ⟨place, h⟩ := s.finishSet_eq p c
  rw [h, State.recordSet_cfg, State.enactSet_cfg]

theorem State.finishSet_openSets : ((s.finishSet p c).cfg p).openSets = (s.cfg p).openSets := by
  obtain ⟨place, h⟩ := s.finishSet_eq p c
  rw [h, State.recordSet_cfg, State.enactSet_cfg]

theorem State.enactSet_refused (hcode : s.verdict p c.pages c.changes ≠ codeOk) :
    (s.enactSet p c).regs = s.regs ∧ ∀ x ∈ c.changes, x.1 ∈ (s.enactSet p c).dirty := by
  rw [State.enactSet, if_neg hcode]
  exact ⟨(State.updCfg_keeps s p _).1, fun x hx => mem_sunion.mpr (.inr (List.mem_map_of_mem hx))⟩

/-- An applied set's changes stand in the live file, those of TRACE's page and of a lease whose ENABLE moves apart. -/
theorem State.enactSet_applied {s : State} {p : Port} {c : CfgSet} (hregs : keysRise s.regs) (hkeys : (c.changes.map (·.1)).Nodup)
    (hcode : s.verdict p c.pages c.changes = codeOk) (henabled : ∀ u, (s.withChanges c.changes).enabled u = s.enabled u)
    {x : Nat × Word} (hx : x ∈ c.changes) (hpage : x.1 / 4096 ≠ 0x11) :
    (s.enactSet p c).live (x.1 / 4096) (x.1 % 4096) = x.2.toNat := by
  have hregs' : keysRise (s.takeSet p c).regs := (State.updCfg_keeps s p _).1 ▸ hregs
  have henabled' : ∀ u, ((s.takeSet p c).withChanges c.changes).enabled u = (s.takeSet p c).enabled u := by cases p <;> exact henabled
  rw [State.enactSet, if_pos hcode, State.applyChanges,
    State.live_afterChanges (keysRise_changes _ hregs' _) henabled' _ hpage (Nat.mod_lt _ (by decide)),
    State.live_withChanges hregs' hkeys hx]

/-- A set that ends is judged (12 R470, R471, R473, R479). -/
theorem State.finishSet_judged {s : State} {p : Port} {c : CfgSet} (hregs : keysRise s.regs) (hkeys : (c.changes.map (·.1)).Nodup) :
    Judged s (settle (s.finishSet p c)) p c.pages c.id.toNat c.seq.toNat c.changes := by
  obtain ⟨place, hfinish⟩ := s.finishSet_eq p c
  have hown := (s.enactSet p c).recordSet_own p c.id.toNat c.seq c.pages (s.verdict p c.pages c.changes) place
  refine ⟨s.verdict p c.pages c.changes, ?_, State.verdict_eq_invalid_iff s p _ _, ?_, fun hinvalid hbusy => ?_, fun hcode => ?_⟩
  · simp only [settle_reads, hfinish, State.recordSet_cfg]
  · rw [State.verdict_eq_busy_iff, State.not_setInvalid_iff]
    simp only [State.setBusy, and_assoc]
  · have hok := State.verdict_eq_ok s p _ _ hinvalid hbusy
    simp only [settle_reads, hfinish]
    refine ⟨hok, by rw [State.recordSet_cfg, hok, if_pos rfl], fun henabled x hx hpage => ?_⟩
    rw [hown.live]
    exact State.enactSet_applied hregs hkeys hok henabled hx hpage
  · simp only [settle_fields, hfinish, hown.regs, hown.dirty]
    exact State.enactSet_refused s p c hcode

end

end Sys2Proof.Machine
end

section
/-! SUPPORT. Joining, submitting and ending commit sets (12 R466, R468 to R471), and DISCARD (12 R467; 13 R493). -/
namespace Sys2Proof.Machine
open Sys2Proof

/-! ### What a set captures (12 R468) -/

theorem captured_keys (s : State) (pages : List Nat) :
    (captured s pages).map (·.1) = s.dirty.filter fun k => pages.contains (k / 4096) := by
  simp [captured, Function.comp_def]

/-- A set changes no register twice. -/
theorem captured_nodup {s : State} (hdirty : s.dirty.Pairwise (· < ·)) (pages : List Nat) : ((captured s pages).map (·.1)).Nodup := by
  rw [captured_keys]
  exact (hdirty.filter _).imp Nat.ne_of_lt

/-- The state after a submission has captured its changes: they are dirty no more, and the port's sequence and the order of sets advance. -/
def State.capture (s : State) (p : Port) (pages : List Nat) : State :=
  { (s.nextSeq p).1 with dirty := s.dirty.filter fun k => ! pages.contains (k / 4096), setOrder := s.setOrder + 1 }

/-- The set a submission makes. -/
def State.newSet (s : State) (p : Port) (id : BitVec 4) (pages : List Nat) : CfgSet :=
  ⟨id, (s.cfg p).seq + 1, pages, captured s pages, s.now, s.setOrder⟩

theorem State.capture_cfg (s : State) (p : Port) (pages : List Nat) :
    (s.capture p pages).cfg p = { s.cfg p with seq := (s.cfg p).seq + 1 } := by
  cases p <;> rfl

theorem State.capture_regs (s : State) (p : Port) (pages : List Nat) : (s.capture p pages).regs = s.regs :=
  (State.updCfg_keeps s p _).1

/-- A judgement reads no port's side. -/
theorem Judged.updCfg_iff {s t : State} {q p : Port} {f : PortCfg → PortCfg} {pages : List Nat} {id seq : Nat}
    {ch : List (Nat × Word)} : Judged (s.updCfg q f) t p pages id seq ch ↔ Judged s t p pages id seq ch := by
  cases q <;> exact Iff.rfl

/-- A judgement reads neither what is dirty nor the order of sets. -/
theorem Judged.dirty_iff {s t : State} {dirty : List Nat} {order : Nat} {p : Port} {pages : List Nat} {id seq : Nat}
    {ch : List (Nat × Word)} :
    Judged { s with dirty := dirty, setOrder := order } t p pages id seq ch ↔ Judged s t p pages id seq ch := Iff.rfl

theorem Judged.capture_iff {s t : State} {p : Port} {captures pages : List Nat} {id seq : Nat} {ch : List (Nat × Word)} :
    Judged (s.capture p captures) t p pages id seq ch ↔ Judged s t p pages id seq ch :=
  Judged.dirty_iff.trans Judged.updCfg_iff

/-! ### Submission (12 R468 to R470) -/

section
variable {s : State} {p : Port} {id : BitVec 4} {pages : List Nat}

theorem State.submitSet_full (hfull : 4 ≤ (s.cfg p).submitted.length) (id : Nat) :
    s.submitSet p id pages = s.refuseSet p id pages (lowest pages) := if_pos hfull

/-- A submission with room captures its changes; one with an F-class change waits, and any other ends at once. -/
theorem State.submitSet_room (hroom : (s.cfg p).submitted.length < 4) :
    s.submitSet p id.toNat pages =
      if (s.dirty.filter fun k => pages.contains (k / 4096)).any fun k => keyClass k = .f then
        (s.capture p pages).updCfg p fun f => { f with submitted := f.submitted ++ [s.newSet p id pages] }
      else (s.capture p pages).finishSet p (s.newSet p id pages) := by
  have hid : BitVec.ofNat 4 id.toNat = id := by simp
  rw [State.submitSet, if_neg (Nat.not_le.mpr hroom), State.newSet, ← hid]
  cases p <;> simp only [hid] <;> rfl

theorem any_keyClass_f_iff : ((s.dirty.filter fun k => pages.contains (k / 4096)).any fun k => keyClass k = .f) = true ↔
    ∃ x ∈ captured s pages, keyClass x.1 = .f := by
  simp [captured, and_assoc]

/-- A set with an F-class change waits with what it captured (12 R470). -/
theorem State.submitSet_waits (hroom : (s.cfg p).submitted.length < 4) (hf : ∃ x ∈ captured s pages, keyClass x.1 = .f) :
    s.submitSet p id.toNat pages =
      (s.capture p pages).updCfg p fun f => { f with submitted := f.submitted ++ [s.newSet p id pages] } := by
  rw [State.submitSet_room hroom, if_pos (any_keyClass_f_iff.mpr hf)]

theorem State.submitSet_ends (hroom : (s.cfg p).submitted.length < 4) (hf : ∀ x ∈ captured s pages, keyClass x.1 ≠ .f) :
    s.submitSet p id.toNat pages = (s.capture p pages).finishSet p (s.newSet p id pages) := by
  rw [State.submitSet_room hroom, if_neg fun h => ?_]
  obtain ⟨x, hx, hcls⟩ := any_keyClass_f_iff.mp h
  exact hf x hx hcls

theorem State.submitSet_waits_fields (hroom : (s.cfg p).submitted.length < 4) (hf : ∃ x ∈ captured s pages, keyClass x.1 = .f) :
    (s.submitSet p id.toNat pages).regs = s.regs ∧
    (s.submitSet p id.toNat pages).dirty = s.dirty.filter (fun k => ! pages.contains (k / 4096)) ∧
    (s.submitSet p id.toNat pages).cfg p = { s.cfg p with
      seq := (s.cfg p).seq + 1, submitted := (s.cfg p).submitted ++ [s.newSet p id pages] } := by
  rw [State.submitSet_waits hroom hf, State.cfg_updCfg_self, State.capture_cfg]
  cases p <;> exact ⟨rfl, rfl, rfl⟩

/-- A set without an F-class change is judged at once (12 R470). -/
theorem State.submitSet_judged (hregs : keysRise s.regs) (hdirty : s.dirty.Pairwise (· < ·)) (hroom : (s.cfg p).submitted.length < 4)
    (hf : ∀ x ∈ captured s pages, keyClass x.1 ≠ .f) :
    Judged s (settle (s.submitSet p id.toNat pages)) p pages id.toNat ((s.cfg p).seq + 1).toNat (captured s pages) := by
  rw [State.submitSet_ends hroom hf]
  exact Judged.capture_iff.mp (State.finishSet_judged (c := s.newSet p id pages) (State.capture_regs s p pages ▸ hregs)
    (captured_nodup hdirty pages))

/-- A submission opens no set and closes none. -/
theorem State.submitSet_openSets (hroom : (s.cfg p).submitted.length < 4) :
    ((s.submitSet p id.toNat pages).cfg p).openSets = (s.cfg p).openSets := by
  rw [State.submitSet_room hroom]
  split
  · rw [State.cfg_updCfg_self, State.capture_cfg]
  · rw [State.finishSet_openSets, State.capture_cfg]

end

/-! ### Refusal at the COMMIT write (12 R466, R469) -/

theorem State.nextSeq_cfg (s : State) (p : Port) : (s.nextSeq p).1.cfg p = { s.cfg p with seq := (s.cfg p).seq + 1 } :=
  State.cfg_updCfg_self s p _

theorem State.refuseSet_own (s : State) (p : Port) (id : Nat) (pages : List Nat) (page : Nat) :
    Touches [.cfgA, .cfgB, .attn] s (s.refuseSet p id pages page) :=
  State.refuseSet_touches s p id pages page (within_refl _) (Touches.refl _ _)

section
variable (s : State) (p : Port) (id : Nat) (pages : List Nat) (page : Nat)

theorem State.refuseSet_result : ((s.refuseSet p id pages page).cfg p).result =
    BitVec.ofNat 32 (codeInvalid.toNat + id * 2 ^ 8 + ((s.cfg p).seq + 1).toNat * 2 ^ 16) := by
  rw [State.refuseSet, State.recordSet_cfg]
  rfl

theorem State.refuseSet_code : bits ((s.refuseSet p id pages page).cfg p).result.toNat 7 0 = codeInvalid.toNat := by
  rw [State.refuseSet_result, show codeInvalid.toNat + id * 2 ^ 8 + ((s.cfg p).seq + 1).toNat * 2 ^ 16 =
    codeInvalid.toNat + (id + ((s.cfg p).seq + 1).toNat * 2 ^ 8) * 2 ^ 8 by ring, bits_result]

theorem State.refuseSet_openSets : ((s.refuseSet p id pages page).cfg p).openSets = (s.cfg p).openSets := by
  rw [State.refuseSet, State.recordSet_cfg, State.nextSeq_cfg]

theorem State.refuseSet_submitted : ((s.refuseSet p id pages page).cfg p).submitted = (s.cfg p).submitted := by
  rw [State.refuseSet, State.recordSet_cfg, State.nextSeq_cfg]

end

/-! ### A write of COMMIT (12 R466, R489) -/

/-- The state with a port's open set ended. -/
def State.closeSet (s : State) (p : Port) (id : Nat) : State := s.updCfg p fun c => { c with openSets := mdel c.openSets id }

theorem State.closeSet_cfg (s : State) (p : Port) (id : Nat) :
    (s.closeSet p id).cfg p = { s.cfg p with openSets := mdel (s.cfg p).openSets id } := State.cfg_updCfg_self s p _

theorem PortCfg.openPages_of_mdel {c d : PortCfg} {id : Nat} (h : c.openSets = mdel d.openSets id) : c.openPages id = [] := by
  rw [PortCfg.openPages, h, mfind_mdel_self]
  rfl

theorem State.closeSet_keeps (s : State) (p : Port) (k : Nat) : (s.closeSet p k).regs = s.regs ∧ (s.closeSet p k).dirty = s.dirty ∧
    (∀ pages, captured (s.closeSet p k) pages = captured s pages) ∧
    ∀ id pages, (s.closeSet p k).newSet p id pages = s.newSet p id pages := by
  cases p <;> exact ⟨rfl, rfl, fun _ => rfl, fun _ _ => rfl⟩

section
variable {s : State} {p : Port} {page : Nat} (hup : s.portUp p = true) (hread : s.mayRead p page = true)
include hup hread

theorem State.commitWrite_alone (hopen : s.openSetOf page = none) (submit : Bool) :
    s.commitWrite p page 0 submit = s.submitSet p 0 [page] := by
  simp [State.commitWrite, hup, hread, hopen]

theorem State.commitWrite_alone_open (hopen : s.openSetOf page ≠ none) (submit : Bool) :
    s.commitWrite p page 0 submit = s.refuseSet p 0 [page] page := by
  obtain ⟨x, hx⟩ := Option.ne_none_iff_exists'.mp hopen
  simp [State.commitWrite, hup, hread, hx]

section
variable {id : Nat} (hid : id ≠ 0)
include hid

theorem State.commitWrite_join (hopen : s.openSetOf page = none) (hfew : ((s.cfg p).openPages id).length < 8) :
    s.commitWrite p page id false =
      s.updCfg p fun c => { c with openSets := mput c.openSets id (sinsert ((s.cfg p).openPages id) page) } := by
  simp [State.commitWrite, hup, hread, hopen, hid, Nat.not_le.mpr hfew]

/-- A ninth page ends the set refused (12 R466). -/
theorem State.commitWrite_ninth (hopen : s.openSetOf page = none) (hmany : 8 ≤ ((s.cfg p).openPages id).length) (submit : Bool) :
    s.commitWrite p page id submit = (s.closeSet p id).refuseSet p id ((s.cfg p).openPages id ++ [page]) page := by
  simp [State.commitWrite, hup, hread, hopen, hid, hmany, State.closeSet]

/-- SUBMIT ends the open set and submits its pages, those of which the page is then one (12 R468). -/
theorem State.commitWrite_submit {pages : List Nat} (hpages : s.openSetOf page = some (p, id) ∧ pages = (s.cfg p).openPages id ∨
      s.openSetOf page = none ∧ ((s.cfg p).openPages id).length < 8 ∧ pages = sinsert ((s.cfg p).openPages id) page) :
    s.commitWrite p page id true = (s.closeSet p id).submitSet p id pages := by
  obtain ⟨hopen, rfl⟩ | ⟨hopen, hfew, rfl⟩ := hpages
  · simp [State.commitWrite, hup, hread, hopen, hid, State.closeSet]
  · simp [State.commitWrite, hup, hread, hopen, hid, Nat.not_le.mpr hfew, State.closeSet]

/-- A page open in another set ends the set refused (12 R466). -/
theorem State.commitWrite_elsewhere {q : Port} {k : Nat} (hopen : s.openSetOf page = some (q, k)) (hother : (q, k) ≠ (p, id))
    (submit : Bool) : s.commitWrite p page id submit = (s.closeSet p id).refuseSet p id ((s.cfg p).openPages id ++ [page]) page := by
  have hne : ¬ (q = p ∧ k = id) := fun h => hother (Prod.ext h.1 h.2)
  simp [State.commitWrite, hup, hread, hopen, hid, hne, State.closeSet]

end
end

/-- A set ended refused leaves the port's queue, the registers and what is dirty, and is open no more. -/
theorem State.closeSet_refused (s : State) (p : Port) (id : Nat) (pages : List Nat) (page : Nat) :
    (((s.closeSet p id).refuseSet p id pages page).cfg p).openPages id = [] ∧
    ((s.closeSet p id).refuseSet p id pages page).regs = s.regs ∧ ((s.closeSet p id).refuseSet p id pages page).dirty = s.dirty ∧
    (((s.closeSet p id).refuseSet p id pages page).cfg p).submitted = (s.cfg p).submitted ∧
    bits (((s.closeSet p id).refuseSet p id pages page).cfg p).result.toNat 7 0 = codeInvalid.toNat := by
  have hown := (s.closeSet p id).refuseSet_own p id pages page
  obtain ⟨hregs, hdirty, -, -⟩ := s.closeSet_keeps p id
  refine ⟨PortCfg.openPages_of_mdel (d := s.cfg p) ?_, hown.regs.trans hregs, hown.dirty.trans hdirty, ?_,
    State.refuseSet_code _ _ _ _ _⟩
  · rw [State.refuseSet_openSets, State.closeSet_cfg]
  · rw [State.refuseSet_submitted, State.closeSet_cfg]

theorem Judged.closeSet_iff {s t : State} {p : Port} {k : Nat} {pages : List Nat} {id seq : Nat} {ch : List (Nat × Word)} :
    Judged (s.closeSet p k) t p pages id seq ch ↔ Judged s t p pages id seq ch := Judged.updCfg_iff

/-- An open set ended and submitted: it is open no more, and waits with its changes or is judged at once. -/
theorem State.closeSet_submits {s : State} {p : Port} {id : BitVec 4} {pages : List Nat} (hregs : keysRise s.regs)
    (hdirty : s.dirty.Pairwise (· < ·)) (hroom : (s.cfg p).submitted.length < 4) :
    (((s.closeSet p id.toNat).submitSet p id.toNat pages).cfg p).openPages id.toNat = [] ∧
    ((∃ x ∈ captured s pages, keyClass x.1 = .f) →
      ((s.closeSet p id.toNat).submitSet p id.toNat pages).regs = s.regs ∧
      ((s.closeSet p id.toNat).submitSet p id.toNat pages).dirty = s.dirty.filter (fun k => ! pages.contains (k / 4096)) ∧
      (((s.closeSet p id.toNat).submitSet p id.toNat pages).cfg p).submitted = (s.cfg p).submitted ++ [s.newSet p id pages]) ∧
    ((∀ x ∈ captured s pages, keyClass x.1 ≠ .f) →
      Judged s (settle ((s.closeSet p id.toNat).submitSet p id.toNat pages)) p pages id.toNat ((s.cfg p).seq + 1).toNat
        (captured s pages)) := by
  obtain ⟨hkeptRegs, hkeptDirty, hcaptured, hset⟩ := s.closeSet_keeps p id.toNat
  have hroom' : ((s.closeSet p id.toNat).cfg p).submitted.length < 4 := by rwa [State.closeSet_cfg]
  rw [← hcaptured]
  refine ⟨?_, fun hf => ?_, fun hf => (Judged.closeSet_iff (k := id.toNat)).mp ?_⟩
  · exact PortCfg.openPages_of_mdel (d := s.cfg p) (by rw [State.submitSet_openSets hroom', State.closeSet_cfg])
  · obtain ⟨hregs', hdirty', hcfg⟩ := State.submitSet_waits_fields (id := id) hroom' hf
    rw [hregs', hdirty', hcfg, hkeptRegs, hkeptDirty, hset, State.closeSet_cfg]
    exact ⟨rfl, rfl, rfl⟩
  · have hjudged := State.submitSet_judged (id := id) (hkeptRegs.symm ▸ hregs) (hkeptDirty.symm ▸ hdirty) hroom' hf
    rwa [State.closeSet_cfg] at hjudged

/-! ### The statements about COMMIT -/

/-- A COMMIT of a page alone that is refused, since the page is in an open set or four sets wait. -/
theorem State.commitWrite_alone_refused {s : State} {p : Port} {page : Nat} (hup : s.portUp p = true) (hread : s.mayRead p page = true)
    (hrefused : s.openSetOf page ≠ none ∨ 4 ≤ (s.cfg p).submitted.length) :
    ∃ place, s.commitWrite p page 0 true = s.refuseSet p 0 [page] place := by
  by_cases hopen : s.openSetOf page = none
  · have hfull := hrefused.resolve_left (not_not.mpr hopen)
    exact ⟨_, (State.commitWrite_alone hup hread hopen true).trans (State.submitSet_full hfull 0)⟩
  · exact ⟨_, State.commitWrite_alone_open hup hread hopen true⟩

/-- Settles O36: a COMMIT of a page alone is a submission of that page, or a refusal that moves the port's result alone. -/
theorem singleCommitsSubmitAtOnce : Obligations.SingleCommitsSubmitAtOnce := by
  unfold Obligations.SingleCommitsSubmitAtOnce
  intro s p page hup hread hdirty hregs
  refine ⟨settle (s.commitWrite p page.toNat 0 true), rfl, fun hrefused => ?_, fun hopen hroom => ?_⟩
  · obtain ⟨place, hcommit⟩ := State.commitWrite_alone_refused hup hread hrefused
    have hown := s.refuseSet_own p 0 [page.toNat] place
    simp only [settle_fields, settle_reads, hcommit, State.refuseSet_openSets, State.refuseSet_submitted, State.refuseSet_result,
      Nat.zero_mul, Nat.add_zero, and_self, and_true]
    exact ⟨hown.regs, hown.dirty⟩
  · have hcommit : s.commitWrite p page.toNat 0 true = s.submitSet p (0 : BitVec 4).toNat [page.toNat] :=
      State.commitWrite_alone hup hread hopen true
    rw [hcommit]
    refine ⟨fun hf => ?_, fun hf => State.submitSet_judged hregs hdirty hroom hf⟩
    obtain ⟨hregs', hdirty', hcfg⟩ := State.submitSet_waits_fields (id := 0) hroom hf
    simp only [settle_fields, settle_reads, hregs', hdirty', hcfg, true_and]
    exact ⟨by simp, rfl⟩

/-- Settles O37: a set's pages join it one by one, its submission is one of all its pages, and every refusal ends it. -/
theorem setsJoinAndSubmitTogether : Obligations.SetsJoinAndSubmitTogether := by
  unfold Obligations.SetsJoinAndSubmitTogether
  rintro s p page id hup hread hid hdirty hregs -
  have hid : id.toNat ≠ 0 := fun h => hid (BitVec.eq_of_toNat_eq h)
  refine ⟨fun hopen hfew => ⟨settle (s.commitWrite p page.toNat id.toNat false), rfl, ?_⟩,
    fun hopen hmany => ⟨settle (s.commitWrite p page.toNat id.toNat false), rfl, ?_⟩,
    fun pages hpages hroom => ⟨settle (s.commitWrite p page.toNat id.toNat true), rfl, ?_⟩, fun q k hopen hother i hi => ?_⟩
  · rw [State.commitWrite_join hup hread hid hopen hfew]
    simp only [settle_fields, settle_reads, State.cfg_updCfg_self, PortCfg.openPages, mfind_mput_self, Option.getD_some, and_true, true_and]
    refine ⟨fun k hk => by rw [mfind_mput_ne _ hk], ?_⟩
    cases p <;> exact ⟨rfl, rfl⟩
  · rw [State.commitWrite_ninth hup hread hid hopen hmany]
    obtain ⟨hclosed, hregs', hdirty', -, hcode⟩ :=
      s.closeSet_refused p id.toNat ((s.cfg p).openPages id.toNat ++ [page.toNat]) page.toNat
    simp only [settle_fields, settle_reads]
    exact ⟨hclosed, hregs', hdirty', hcode⟩
  · rw [State.commitWrite_submit hup hread hid hpages]
    simp only [settle_fields, settle_reads]
    exact State.closeSet_submits hregs hdirty hroom
  · have hrefused := s.closeSet_refused p id.toNat ((s.cfg p).openPages id.toNat ++ [page.toNat]) page.toNat
    simp only [List.mem_cons, List.not_mem_nil, or_false] at hi
    have hcommit (submit : Bool) := State.commitWrite_elsewhere hup hread hid hopen hother submit
    obtain rfl | rfl := hi
    · refine ⟨settle (s.commitWrite p page.toNat id.toNat false), rfl, ?_⟩
      simpa only [settle_fields, settle_reads, hcommit] using hrefused
    · refine ⟨settle (s.commitWrite p page.toNat id.toNat true), rfl, ?_⟩
      simpa only [settle_fields, settle_reads, hcommit] using hrefused

end Sys2Proof.Machine
end

section
/-! SUPPORT. A waiting set's turn (12 R470, R471), and DISCARD (12 R467; 13 R493). -/
namespace Sys2Proof.Machine
open Sys2Proof

/-! ### Register values are words -/

theorem mfind_of_not_mem {β : Type} {m : List (Nat × β)} {k : Nat} (hk : k ∉ m.map Prod.fst) : mfind m k = none := by
  induction m with
  | nil => rfl
  | cons x r ih =>
    obtain ⟨hx, hr⟩ := not_or.mp (mt List.mem_cons.mpr hk)
    simp only [mfind, if_neg hx, ih hr, ite_self]

theorem Chip.maxPower_lt (c : Chip) : c.maxPower < 2 ^ 32 := by
  unfold Chip.maxPower
  cases c.assembly <;> cases c.grade <;> decide

theorem regsOf_reset_lt (b : Nat) : ∀ r ∈ regsOf b, r.reset < 2 ^ 32 := by
  unfold regsOf
  split <;> decide +kernel

theorem regFindIn_mem {off : Nat} {l : List Reg} {x : Reg × Nat} (h : regFindIn off l = some x) : x.1 ∈ l := by
  induction l with
  | nil => cases h
  | cons r rest ih =>
    unfold regFindIn at h
    obtain ⟨-, h⟩ | ⟨-, h⟩ := ite_eq_iff.mp h
    · cases h
      exact List.mem_cons_self
    · exact List.mem_cons_of_mem _ (ih h)

theorem Reg.onPage_reset {r q : Reg} {page : Nat} (h : r.onPage page = some q) : q.reset = r.reset := by
  unfold Reg.onPage at h
  split_ifs at h <;> cases h <;> rfl

theorem regFind_reset_lt {page off i : Nat} {r : Reg} (h : regFind page off = some (r, i)) : r.reset < 2 ^ 32 := by
  unfold regFind at h
  split at h
  · cases h
  · obtain ⟨x, hx, hr⟩ := Option.bind_eq_some_iff.mp h
    obtain ⟨q, hq, hpair⟩ := Option.map_eq_some_iff.mp hr
    cases hpair
    rw [Reg.onPage_reset hq]
    exact regsOf_reset_lt _ _ (regFindIn_mem hx)

theorem regReset_lt (c : Chip) (page off : Nat) : regReset c page off < 2 ^ 32 := by
  unfold regReset
  split
  · exact c.maxPower_lt
  · split
    · exact regFind_reset_lt ‹_›
    · decide

theorem State.live_lt (s : State) (page off : Nat) : s.live page off < 2 ^ 32 := by
  unfold State.live
  split
  · exact BitVec.isLt _
  · exact regReset_lt _ _ _

/-! ### Shadows that return to their live values (12 R467) -/

/-- A register of a page takes its live value into its shadow. -/
def State.loadShadow (s : State) (page k : Nat) : State := s.setShadow page (k % 4096) (s.live page (k % 4096))

/-- The shadows of listed registers of a page return to their live values. -/
def State.loadShadows (s : State) (page : Nat) (keys : List Nat) : State := s.forEach keys fun s k => s.loadShadow page k

theorem State.loadShadows_own (s : State) (page : Nat) (keys : List Nat) : Touches [.shadow] s (s.loadShadows page keys) :=
  Touches.forEach (Touches.refl _ _) fun u _ hu => State.setShadow_touches u page _ _ (within_refl _) hu

theorem State.loadShadows_cons (s : State) (page k : Nat) (keys : List Nat) :
    s.loadShadows page (k :: keys) = (s.loadShadow page k).loadShadows page keys := rfl

/-- A register of which neither file holds an entry reads its reset value in both. -/
theorem State.shadowOf_eq_live_of_not_mem {s : State} {page off : Nat}
    (hk : regKey page off ∉ (s.shadow.map (·.1)) ++ s.regs.map (·.1)) :
    s.shadowOf page off = s.live page off := by
  obtain ⟨hs, hr⟩ := not_or.mp (mt List.mem_append.mpr hk)
  rw [State.shadowOf, State.live, mfind_of_not_mem hs, mfind_of_not_mem hr]

section
variable {s : State} (hshadow : keysRise s.shadow) {page off : Nat} {keys : List Nat}
include hshadow

theorem State.loadShadow_keysRise (k : Nat) : keysRise (s.loadShadow page k).shadow := keysRise_filePut s.chip hshadow _ _ _

theorem State.shadowOf_loadShadows_of_not_mem (hoff : ∀ k ∈ keys, k % 4096 ≠ off) :
    (s.loadShadows page keys).shadowOf page off = s.shadowOf page off := by
  induction keys generalizing s with
  | nil => rfl
  | cons k r ih =>
    obtain ⟨hk, hr⟩ := List.forall_mem_cons.mp hoff
    rw [State.loadShadows_cons, ih (State.loadShadow_keysRise hshadow k) hr]
    exact State.shadowOf_setShadow_ne hshadow (fun h => hk (Nat.add_left_cancel h).symm) _

theorem State.shadowOf_loadShadows (hoff : ∃ k ∈ keys, k % 4096 = off) :
    (s.loadShadows page keys).shadowOf page off = s.live page off := by
  induction keys generalizing s with
  | nil => simp at hoff
  | cons k r ih =>
    rw [State.loadShadows_cons]
    by_cases hr : ∃ j ∈ r, j % 4096 = off
    · exact ih (State.loadShadow_keysRise hshadow k) hr
    · obtain rfl : k % 4096 = off := by simpa [hr] using hoff
      rw [State.shadowOf_loadShadows_of_not_mem (State.loadShadow_keysRise hshadow k) (by simpa using hr), State.loadShadow,
        State.shadowOf_setShadow_self, Nat.mod_eq_of_lt (s.live_lt _ _)]

/-- DISCARD's registers are those of the page that the writer may write, and whose class has a shadow (12 R467; 13 R493). -/
theorem State.reloadShadows_effect {w : Writer} {r : Reg} {i : Nat} (hoff : off < 4096) (hfind : regFind page off = some (r, i))
    (hcls : r.cls ≠ .a) (hmay : s.mayWrite w page r i = true) :
    (s.reloadShadows w page).shadowOf page off = s.live page off ∧ regKey page off ∉ (s.reloadShadows w page).dirty := by
  have hpage : regKey page off / 4096 = page := by simp only [regKey]; omega
  have hword : regKey page off % 4096 = off := by simp only [regKey]; omega
  unfold State.reloadShadows
  extract_lets mine keys loaded
  have hmine : mine (regKey page off) = true := by simp [mine, hpage, hword, hfind, hcls, hmay]
  refine ⟨?_, fun hdirty => ?_⟩
  · show (s.loadShadows page keys).shadowOf page off = _
    by_cases hk : regKey page off ∈ keys
    · exact State.shadowOf_loadShadows hshadow ⟨_, hk, hword⟩
    · rw [State.shadowOf_loadShadows_of_not_mem hshadow fun k hmem hkoff => hk ?_]
      · exact State.shadowOf_eq_live_of_not_mem fun hfile => hk (List.mem_filter.mpr ⟨hfile, hmine⟩)
      · have hkmine : mine k = true := (List.mem_filter.mp hmem).2
        have hkpage : k / 4096 = page := by
          simp only [mine, Bool.and_eq_true, decide_eq_true_eq] at hkmine
          exact hkmine.1
        rwa [regKey, ← hkpage, ← hkoff, Nat.div_add_mod]
  · simp [hmine] at hdirty

end

/-- A page that leaves a port's sets is in none of them. -/
theorem PortCfg.not_mem_leave (c : PortCfg) (page : Nat) : ∀ x ∈ (c.leave page).openSets, page ∉ x.2 := by
  intro x hx
  obtain ⟨y, -, rfl⟩ := List.mem_map.mp (List.mem_filter.mp hx).1
  simp

theorem State.discardPage_eq {s : State} {p : Port} {page : Nat} (hup : s.portUp p = true) (hread : s.mayRead p page = true) :
    s.discardPage p page = (s.reloadShadows (.port p) page).updCfg p fun c => c.leave page := by
  simp [State.discardPage, hup, hread]

theorem State.applyOldest_eq {s : State} {p : Port} {c : CfgSet} {r : List CfgSet} (hheld : s.held = false) (hstopped : s.stopped = true)
    (hwaits : (s.cfg p).submitted = c :: r) : s.applyOldest p = s.finishSet p c := by
  simp [State.applyOldest, hheld, hstopped, hwaits]

theorem Touches.shadowOf {l : List Part} {s t : State} (h : Touches l s t) (p o : Nat) (hp : l.contains .shadow = false := by decide)
    (hc : l.contains .chip = false := by decide) : t.shadowOf p o = s.shadowOf p o := by
  simp [State.shadowOf, h.shadow hp, h.chip hc]

/-- Settles O38: the oldest waiting set is finished, and DISCARD reloads the shadows the port may write. -/
theorem waitingSetsApplyAndPagesDiscard : Obligations.WaitingSetsApplyAndPagesDiscard := by
  unfold Obligations.WaitingSetsApplyAndPagesDiscard
  intro s p hregs hshadow
  refine ⟨fun hheld hstopped c r hwaits horder hkeys => ⟨settle (s.applyOldest p), rfl, ?_⟩,
    fun page hup hread => ⟨settle (s.discardPage p page.toNat), rfl, ?_⟩⟩
  · rw [State.applyOldest_eq hheld hstopped hwaits]
    refine ⟨?_, State.finishSet_judged hregs hkeys⟩
    simp only [settle_reads, State.finishSet_submitted, hwaits]
    simpa using horder
  · have hown := State.updCfg_touches (s.reloadShadows (.port p) page.toNat) p (fun c => c.leave page.toNat) (within_refl _)
      (Touches.refl _ _)
    simp only [settle_fields, settle_reads, State.discardPage_eq hup hread]
    refine ⟨?_, ?_, fun off r i hoff hfind hcls hmay => ?_⟩
    · exact hown.regs.trans (State.reloadShadows_touches s _ _ (within_refl _) (Touches.refl _ _)).regs
    · rw [State.cfg_updCfg_self]
      exact PortCfg.not_mem_leave _ _
    · rw [hown.shadowOf, hown.dirty]
      exact State.reloadShadows_effect hshadow hoff hfind hcls hmay

end Sys2Proof.Machine
end

section
/-! SUPPORT. The block as a whole: the front command's step, the reset state, and the calendar's rules. -/
namespace Sys2Proof.Machine
open Sys2Proof
set_option Elab.async false

/-- Settles O1: `step` matches on the queue. -/
theorem stepRunsTheFrontCommand : Obligations.StepRunsTheFrontCommand := by
  unfold Obligations.StepRunsTheFrontCommand
  intro s c rest hqueue
  simp [step, hqueue]

/-- Settles O6: the reset state is a closed term, and each clause evaluates. -/
theorem resetHasTheInvariant : Obligations.ResetHasTheInvariant := by
  unfold Obligations.ResetHasTheInvariant
  exact ⟨by constructor <;> decide +kernel, by constructor <;> decide +kernel⟩

/-- The leap years of 18 R701. -/
theorem leap_iff (y : Nat) : leap y = true ↔ y % 4 = 0 ∧ (y % 100 ≠ 0 ∨ y % 400 = 0) := by
  simp [leap]

/-- The second that `advance` leaves, in every branch of the carry. -/
theorem Calendar.advance_second {c : Calendar} (h : c.second ≤ 59) :
    c.advance.second = if c.second = 59 then 0 else c.second + 1 := by
  unfold Calendar.advance
  by_cases hlast : c.second < 59
  · simp [hlast, hlast.ne]
  · have h59 : c.second = 59 := by omega
    simp only [h59, Nat.lt_irrefl, ite_false, ite_true]
    split_ifs <;> rfl

/-- Settles O12: the rule of `leap`, and the second of `advance`. -/
theorem theCalendarIsGregorian : Obligations.TheCalendarIsGregorian := by
  unfold Obligations.TheCalendarIsGregorian
  refine ⟨leap_iff, by decide, by decide, by decide, by decide, fun y => rfl, fun c hlegal hend => ?_⟩
  have hsecond : c.second ≤ 59 := by
    simp only [Calendar.legal] at hlegal
    omega
  simpa [Calendar.tick, hend] using Calendar.advance_second hsecond

end Sys2Proof.Machine
end

section
/-! SUPPORT. T_CTRL: what each control of a tenant does in each of its states, and the write of the register (13 R492, R496, R497). -/
namespace Sys2Proof.Machine
open Sys2Proof
set_option Elab.async false

/-! ### The commands of T_CTRL, by whether the port owns the tenant (13 R492) -/

section
variable {s : State} {p : Port} {t : Fin 16}

theorem exec_tCtrlReset_owned (h : s.ownsTenant p t = true) : exec (.tCtrlReset p t) s = .next (settle (s.requestReset t 1)) := by
  simp [exec, execTCtrlReset, h, done]
theorem exec_tCtrlHold_owned (h : s.ownsTenant p t = true) : exec (.tCtrlHold p t) s = .next (settle (s.requestHold t 1)) := by
  simp [exec, execTCtrlHold, h, done]
theorem exec_tCtrlRelease_owned (h : s.ownsTenant p t = true) : exec (.tCtrlRelease p t) s = .next (settle (s.requestRelease t)) := by
  simp [exec, execTCtrlRelease, h, done]

/-- A control of a tenant that the port does not own is a refused write of its page. -/
theorem exec_tCtrl_foreign (h : s.ownerOf t ≠ p) : ∀ i ∈ [Instr.tCtrlReset p t, .tCtrlHold p t, .tCtrlRelease p t],
    exec i s = .next (settle (s.refuseWrite (.port p) (tenantPage t) true)) := by
  have hown : s.ownsTenant p t = false := by simp [State.ownsTenant, h]
  simp [exec, execTCtrlReset, execTCtrlHold, execTCtrlRelease, hown, done]

end

/-! ### The controls in each state (13 R496, R497) -/

section
variable {s : State} {t : Fin 16} (cause : BitVec 4)

theorem State.requestReset_of_not_active (h : (s.tenant t).state ≠ .active) : s.requestReset t cause = s := by
  simp [State.requestReset, h]
theorem State.requestHold_of_idle (h : (s.tenant t).state = .held ∨ (s.tenant t).state = .none) : s.requestHold t cause = s := by
  rcases h with h | h <;> simp [State.requestHold, h]
theorem State.requestRelease_of_not_held (h : (s.tenant t).state ≠ .held) : s.requestRelease t = s := by
  simp [State.requestRelease, h]
theorem State.requestRelease_of_full (h : (s.tenant t).state = .held) (hfull : 16 ≤ (s.tenant t).backlog.length) :
    s.requestRelease t = s.raise (tenantPage t) 6 := by
  simp [State.requestRelease, h, hfull]
theorem State.requestRelease_of_stopped (h : (s.tenant t).state = .held) (hroom : (s.tenant t).backlog.length < 16)
    (hstop : s.stopped = true) : s.requestRelease t = s.updTenant t fun n => { n with state := .active } := by
  simp [State.requestRelease, h, Nat.not_le.mpr hroom, hstop]
theorem State.requestRelease_of_running (h : (s.tenant t).state = .held) (hroom : (s.tenant t).backlog.length < 16)
    (hrun : s.stopped = false) : s.requestRelease t = s.updTenant t fun n => { n with releasePending := true } := by
  simp [State.requestRelease, h, Nat.not_le.mpr hroom, hrun]

end

/-- An event that is raised stands in its page's latch. -/
theorem State.raise_latch (s : State) (page : Nat) {bit : Nat} (hbit : bit < 32) :
    (mget 0 (s.raise page bit).attn.latch page).getLsbD bit = true :=
  Attn.setLatch_latch _ _ _ _ _ (.inr ⟨rfl, by
    rw [BitVec.getLsbD_ofNat, Nat.testBit_two_pow_self, Bool.and_true, decide_eq_true hbit]⟩)

/-! ### The write of T_CTRL -/

/-- The row of T_CTRL in the register table. -/
def tCtrlReg : Reg := ⟨0x20, 0x100, 0, 1, .a, 0, 0, 0, 7, 0, .own⟩

theorem regFind_tCtrl (t : Fin 16) : regFind (tenantPage t) 0x100 = some (tCtrlReg, 0) := by
  fin_cases t <;> rfl
theorem regTenant_tCtrl (t : Fin 16) : regTenant (tenantPage t) tCtrlReg 0 = some t := by
  fin_cases t <;> rfl
theorem queueTenant_tenantPage (t : Fin 16) : queueTenant (tenantPage t) = none := by
  fin_cases t <;> rfl
theorem writeAction_tCtrl (s : State) (w : Writer) (t : Fin 16) (v : Nat) :
    s.writeAction w (tenantPage t) 0x100 v = some (s.writeTCtrl w t v) := by
  fin_cases t <;> rfl

theorem bit_eq_testBit (x i : Nat) : bit x i = x.testBit i := by
  simp [bit, Nat.testBit, Nat.one_and_eq_mod_two]

/-- The controls are bits 0 to 2 of the write. -/
theorem State.writeTCtrl_low (s : State) (w : Writer) (t : Fin 16) (v : Nat) :
    s.writeTCtrl w t (v &&& 7) = s.writeTCtrl w t v := by
  have hbit : ∀ i < 3, bit (v &&& 7) i = bit v i := by
    intro i hi
    rw [bit_eq_testBit, bit_eq_testBit, Nat.testBit_and, Nat.testBit_two_pow_sub_one 3, decide_eq_true hi, Bool.and_true]
  simp only [State.writeTCtrl, hbit 0 (by decide), hbit 1 (by decide), hbit 2 (by decide)]

/-- A port that owns the tenant may write T_CTRL, and its write is the controls of its bits. -/
theorem State.writeReg_tCtrl {s : State} {p : Port} {t : Fin 16} (hown : s.ownsTenant p t = true) (v : Word) :
    s.writeReg (.port p) (tenantPage t) 0x100 v.toNat = s.writeTCtrl (.port p) t v.toNat := by
  obtain ⟨⟨hup, howner⟩, hpage⟩ : (s.portUp p = true ∧ s.ownerOf t = p) ∧ s.pagePresent (tenantPage t) = true := by
    simpa [State.ownsTenant] using hown
  have hreach : s.reaches (.port p) (tenantPage t) = true := by
    simp [State.reaches, hup, State.mayRead, hpage, queueTenant_tenantPage]
  have hbits : s.mayBits (.port p) (tenantPage t) tCtrlReg 0 = 0xFFFFFFFF := by
    simp [State.mayBits, State.mayWrite, regTenant_tCtrl, show tCtrlReg.writer = .own from rfl, howner]
  have hrange : rangeOk s.chip tCtrlReg 0 = true := rfl
  have hvalue : ∀ x : Nat, x &&& tCtrlReg.rw ||| v.toNat &&& (tCtrlReg.wo ||| tCtrlReg.w1c) &&& 0xFFFFFFFF = v.toNat &&& 7 := by
    intro x
    simp [tCtrlReg, Nat.and_assoc]
  rw [State.writeReg_of_a hreach rfl (by decide) (regFind_tCtrl t) hbits v.toNat rfl, ← State.writeTCtrl_low]
  simp only [State.writeA, hvalue, writeAction_tCtrl]
  rw [show tCtrlReg.rw = 0 from rfl, Nat.and_zero, hrange]
  rfl

/-- Settles O39: each control by its state's lemma, and the write by the three controls in turn. -/
theorem tenantControlsActInTheirOrder : Obligations.TenantControlsActInTheirOrder := by
  unfold Obligations.TenantControlsActInTheirOrder
  intro s p t hown
  rw [exec_tCtrlReset_owned hown, exec_tCtrlHold_owned hown, exec_tCtrlRelease_owned hown]
  refine ⟨fun hheld hfull => ⟨_, rfl, ?_, ?_⟩, fun hidle => ⟨?_, ?_⟩, fun hres => ?_, fun hother => ?_, ?_⟩
  · rw [State.requestRelease_of_full hheld hfull]
    rfl
  · rw [State.requestRelease_of_full hheld hfull]
    exact State.raise_latch s _ (by decide)
  · rw [State.requestReset_of_not_active 1 (by rcases hidle with h | h <;> simp [h])]
  · rw [State.requestHold_of_idle 1 hidle]
  · rw [State.requestReset_of_not_active 1 (by simp [hres])]
  · rw [State.requestRelease_of_not_held hother]
  · rintro v a rfl b rfl
    have hpage : (BitVec.ofNat 12 (tenantPage t)).toNat = tenantPage t := by
      simp only [BitVec.toNat_ofNat, tenantPage]
      omega
    show Host.Outcome.next (settle (s.writeReg (.port p) (BitVec.ofNat 12 (tenantPage t)).toNat 0x100 v.toNat)) = _
    rw [hpage, State.writeReg_tCtrl hown]
    simp only [State.writeTCtrl, bit_toNat]

/-- Settles O41: a release by the room of the backlog and the frame, and a foreign control by the refused write. -/
theorem releaseNeedsTheOwnerAndRoom : Obligations.ReleaseNeedsTheOwnerAndRoom := by
  unfold Obligations.ReleaseNeedsTheOwnerAndRoom
  intro s p t
  refine ⟨fun hown hheld => ⟨_, exec_tCtrlRelease_owned hown, ?_, ?_, ?_⟩, fun hup hread howner hcount i hi =>
    ⟨_, exec_tCtrl_foreign howner i hi, ?_, ?_⟩⟩
  · intro hfull
    rw [State.requestRelease_of_full hheld hfull]
    have hkeep := (State.raise_touches s (tenantPage t) 6 (within_refl _) (Touches.refl _ _)).tState t
    simpa [hkeep] using hheld
  · intro hroom hstop
    rw [State.requestRelease_of_stopped hheld hroom hstop]
    simp
  · intro hroom hrun
    rw [State.requestRelease_of_running hheld hroom hrun]
    simpa using hheld
  · simp only [State.refuseWrite, hup, hread, Bool.and_self, if_true]
    rfl
  · simp only [State.refuseWrite, hup, hread, Bool.and_self, if_true]
    exact State.bumpErr_errCount hcount _

end Sys2Proof.Machine
end

section
/-! SUPPORT. What the event log leaves of the state, package and cold reset, the start of the boot, and JTAG's instructions (17 R638 to R650;
18 R686; 20 R764, R766). -/
namespace Sys2Proof.Machine
open Sys2Proof
set_option Elab.async false

/-! ### The event log (18 R686) -/

/-- A record moves the buffer, the next number and the two counts of drops alone. -/
@[simp] theorem Owl.record_fields (o : Owl) (secs : BitVec 64) (page event severity : Nat) (result : Byte) (unit : Nat)
    (data : List Byte) : let r := o.record secs page event severity result unit data
    r.boxes = o.boxes ∧ r.order = o.order ∧ r.bankA = o.bankA ∧ r.bankB = o.bankB ∧ r.activeB = o.activeB ∧ r.trial = o.trial ∧
    r.trialBooted = o.trialBooted ∧ r.session = o.session ∧ r.fwResult = o.fwResult ∧ r.rollback = o.rollback ∧
    r.runningVersion = o.runningVersion ∧ r.runningRollback = o.runningRollback ∧ r.boardStored = o.boardStored ∧ r.board = o.board ∧
    r.boardDefault = o.boardDefault ∧ r.fences = o.fences ∧ r.pairing = o.pairing ∧ r.changed = o.changed ∧ r.flashLog = o.flashLog ∧
    r.counters = o.counters ∧ r.journal = o.journal ∧ r.hourSeconds = o.hourSeconds ∧ r.sinceCheckpoint = o.sinceCheckpoint ∧
    r.junctions = o.junctions ∧ r.rails = o.rails ∧ r.current = o.current ∧ r.stackTemps = o.stackTemps ∧ r.powerNow = o.powerNow ∧
    r.railBad = o.railBad ∧ r.alert = o.alert ∧ r.sramImage = o.sramImage ∧ r.smbData = o.smbData ∧ r.uartSent = o.uartSent := by
  dsimp only
  unfold Owl.record
  split <;> exact ⟨rfl, rfl, rfl, rfl, rfl, rfl, rfl, rfl, rfl, rfl, rfl, rfl, rfl, rfl, rfl, rfl, rfl, rfl, rfl, rfl, rfl, rfl, rfl, rfl, rfl, rfl, rfl, rfl, rfl, rfl, rfl, rfl, rfl⟩

section
variable (s : State) (page event severity : Nat) (result : Byte) (unit : Nat) (data : List Byte)

theorem State.logEvent_owl :
    (s.logEvent page event severity result unit data).owl = s.owl.record s.logSeconds page event severity result unit data := by
  unfold State.logEvent
  dsimp only
  split <;> rfl

@[simp] theorem State.logEvent_fields :
    let t := s.logEvent page event severity result unit data
    t.pending = s.pending ∧ t.chip = s.chip ∧ t.now = s.now ∧ t.draws = s.draws ∧ t.doorbells = s.doorbells ∧ t.regs = s.regs ∧
    t.shadow = s.shadow ∧ t.dirty = s.dirty ∧ t.cfgA = s.cfgA ∧ t.cfgB = s.cfgB ∧ t.setOrder = s.setOrder ∧ t.frame = s.frame ∧
    t.tenants = s.tenants ∧ t.engines = s.engines ∧ t.bears = s.bears ∧ t.jays = s.jays ∧ t.fronts = s.fronts ∧ t.cores = s.cores ∧
    t.slotsPeak = s.slotsPeak ∧ t.dram = s.dram ∧ t.links = s.links ∧ t.cascade = s.cascade ∧ t.lynx = s.lynx ∧ t.clock = s.clock ∧
    t.power = s.power ∧ t.fault = s.fault ∧ t.cal = s.cal ∧ t.jtag = s.jtag := by
  dsimp only
  unfold State.logEvent
  dsimp only
  split <;> exact ⟨rfl, rfl, rfl, rfl, rfl, rfl, rfl, rfl, rfl, rfl, rfl, rfl, rfl, rfl, rfl, rfl, rfl, rfl, rfl, rfl, rfl, rfl, rfl, rfl, rfl, rfl, rfl, rfl⟩

@[simp] theorem State.logEvent_reads :
    let u := s.logEvent page event severity result unit data
    (∀ t, u.tenant t = s.tenant t) ∧ (∀ t q, u.queue t q = s.queue t q) ∧ (∀ p o, u.live p o = s.live p o) ∧ u.held = s.held ∧
    u.isReady = s.isReady ∧ u.inFault = s.inFault ∧ u.halted = s.halted ∧ u.stopped = s.stopped ∧ u.det = s.det ∧
    (∀ x, u.cfg x = s.cfg x) ∧ (∀ x, u.box x = s.box x) := by
  dsimp only
  unfold State.logEvent
  dsimp only
  split <;> simp [State.raise, State.box]

end

/-! ### The package reset (17 R638 to R643) -/

theorem State.held_clearPackage (s : State) (cause : Nat) : (s.clearPackage cause).held = s.held := rfl

/-- After a package reset a register outside the calendar's page reads its reset value. -/
theorem State.live_clearPackage (s : State) (cause : Nat) {page off : Nat} (hoff : off < 4096) (hpage : page ≠ 0x10) :
    (s.clearPackage cause).live page off = regReset s.chip page off := by
  have hnone : mfind (s.regs.filter fun x => decide (x.1 / 4096 = 0x10)) (regKey page off) = none := by
    refine mfind_of_not_mem fun hmem => ?_
    obtain ⟨x, hx, hkey⟩ := List.mem_map.mp hmem
    have hx10 := of_decide_eq_true (List.mem_filter.mp hx).2
    rw [hkey, regKey] at hx10
    omega
  show (match mfind (s.regs.filter fun x => decide (x.1 / 4096 = 0x10)) (regKey page off) with | some v => v.toNat | none => _) = _
  rw [hnone]
  rfl

theorem State.tenant_clearPackage (s : State) (cause : Nat) (t : Fin 16) :
    (s.clearPackage cause).tenant t = (s.tenant t).hostSide := by
  show (s.tenants.map Tenant.hostSide)[t] = _
  simp [State.tenant, Bank.at']

theorem State.clearPackage_cleared (s : State) (cause : Nat) : PackageCleared s (s.clearPackage cause) := by
  refine ⟨fun page off hoff hpage => s.live_clearPackage cause hoff hpage, fun t => ?_, rfl, rfl, rfl, rfl, rfl, rfl, rfl, rfl, rfl, rfl,
    rfl, rfl, rfl, rfl, rfl, rfl, rfl⟩
  rw [State.tenant_clearPackage]
  exact ⟨rfl, rfl, rfl, rfl, rfl⟩

theorem PackageCleared.settled {s u : State} (h : PackageCleared s u) : PackageCleared s (settle u) := by
  simpa [PackageCleared] using h

/-- While nothing holds the device a package reset clears it; while it is held the cause alone takes its bit. -/
theorem State.packageReset_of_free {s : State} (h : s.held = false) (cause : Nat) : s.packageReset cause = s.clearPackage cause := by
  simp [State.packageReset, h]
theorem State.packageReset_of_held {s : State} (h : s.held = true) (cause : Nat) : s.packageReset cause = s.addCause cause := by
  simp [State.packageReset, h]

/-- Who reaches the control port's registers finds the device out of reset. -/
theorem State.held_of_isCtl {s : State} {w : Writer} (h : s.isCtl w = true) : s.held = false := by
  cases w <;> simp_all [State.isCtl, State.portUp]

/-! ### The start of the boot (17 R649, R650) -/

/-- What the end of a trial keeps of Owl's flash, and the power state it leaves. -/
theorem State.endTrial_keeps (s : State) : ∀ u, u = s.endTrial →
    u.power = { s.power with fallback := u.power.fallback } ∧ u.cascade = s.cascade ∧ u.owl.counters = s.owl.counters ∧
    u.owl.bankA = s.owl.bankA ∧ u.owl.bankB = s.owl.bankB ∧ u.owl.rollback = s.owl.rollback ∧ u.owl.fences = s.owl.fences ∧
    u.owl.pairing = s.owl.pairing ∧ u.owl.boardStored = s.owl.boardStored ∧ u.owl.flashLog = s.owl.flashLog ∧
    u.owl.journal = s.owl.journal := by
  rintro u rfl
  unfold State.endTrial
  split <;> simp [State.logEvent_owl]

theorem State.bumpCounter_owl (s : State) (i : Nat) : (s.bumpCounter i).owl =
    { s.owl with counters := bupd s.owl.counters i fun w => if w = 0xFFFFFFFF then w else w + 1 } := rfl

/-- Where nothing holds the device, the boot starts at STAGE ROM with the straps sampled, and PWR_ON counts after a rise. -/
theorem State.startBoot_of_free {s : State} (h : s.held = false) : ∀ u, u = s.startBoot →
    u.power = { s.power with bootStarted := true, stage := 0, bootSel := s.power.bootSelBalls, powerRose := false, fallback := u.power.fallback } ∧
    u.cascade.strap = s.power.cascBall ∧
    u.owl.counters = (if s.power.powerRose then bupd s.owl.counters 11 fun w => if w = 0xFFFFFFFF then w else w + 1 else s.owl.counters) ∧
    u.owl.bankA = s.owl.bankA ∧ u.owl.bankB = s.owl.bankB ∧ u.owl.rollback = s.owl.rollback ∧ u.owl.fences = s.owl.fences ∧
    u.owl.pairing = s.owl.pairing ∧ u.owl.boardStored = s.owl.boardStored ∧ u.owl.flashLog = s.owl.flashLog ∧
    u.owl.journal = s.owl.journal := by
  rintro u rfl
  unfold State.startBoot
  simp only [h, Bool.false_eq_true, if_false]
  obtain ⟨hpower, hcascade, hcounters, hA, hB, hroll, hfences, hpair, hboard, hlog, hjournal⟩ := State.endTrial_keeps _ _ rfl
  rw [hcascade, hcounters, hA, hB, hroll, hfences, hpair, hboard, hlog, hjournal]
  refine ⟨hpower.trans ?_, ?_, ?_⟩
  all_goals
    cases s.power.powerRose <;> simp [State.logEvent_owl, State.bumpCounter]

theorem State.startBoot_of_held {s : State} (h : s.held = true) : s.startBoot = s := by
  simp [State.startBoot, h]

/-- The start of the boot, or a device still held, keeps what Owl has in flash. -/
theorem State.startBoot_flash (s : State) :
    s.startBoot.owl.bankA = s.owl.bankA ∧ s.startBoot.owl.bankB = s.owl.bankB ∧ s.startBoot.owl.rollback = s.owl.rollback ∧
    s.startBoot.owl.fences = s.owl.fences ∧ s.startBoot.owl.pairing = s.owl.pairing ∧ s.startBoot.owl.boardStored = s.owl.boardStored ∧
    s.startBoot.owl.flashLog = s.owl.flashLog ∧ s.startBoot.owl.journal = s.owl.journal := by
  cases h : s.held
  · exact (State.startBoot_of_free h _ rfl).2.2.2
  · simp [State.startBoot_of_held h]

theorem State.startBoot_own (s : State) : Touches [.attn, .cascade, .power, .firmware, .log, .owl] s s.startBoot :=
  State.startBoot_touches s (within_refl _) (Touches.refl _ _)

theorem PackageCleared.startBoot {s u : State} (h : PackageCleared s u) : PackageCleared s u.startBoot := by
  have k := u.startBoot_own
  have hrun := k.running
  have htick := k.tick
  have hsafe := k.safe
  obtain ⟨hA, hB, hroll, hfences, hpair, hboard, hlog, -⟩ := u.startBoot_flash
  simpa only [PackageCleared, k.live, (k.tState _).1, k.tSched, k.tWorld, k.tCmds, k.shadow, k.dirty, k.dram, k.links, hrun.1, htick.1,
    htick.2.1, hsafe.1, k.cal, k.chip, hA, hB, hroll, hfences, hpair, hboard, hlog] using h

/-- The bit that a cause adds, or leaves alone, in RESET_CAUSE. -/
theorem State.addCause_moves (s : State) (cause : Nat) :
    s.addCause cause = s.updPower fun p => { p with cause := p.cause ||| BitVec.ofNat 32 (2 ^ cause) } := rfl

/-- Settles O43: each cause is one package reset, which the boot follows at once where no pin holds it. -/
theorem packageResetsClearTheDevice : Obligations.PackageResetsClearTheDevice := by
  unfold Obligations.PackageResetsClearTheDevice
  intro s
  refine ⟨fun w hctl => ⟨_, rfl, ?_⟩, fun hgood => ⟨_, rfl, ?_⟩, fun us hhigh => ⟨fun hlong => ⟨_, rfl, ?_⟩, fun hshort => ⟨_, rfl, ?_⟩⟩⟩
  · have hheld := State.held_of_isCtl hctl
    have hboot := (State.startBoot_of_free (s := s.clearPackage 3) (s.held_clearPackage 3 ▸ hheld) _ rfl).1
    simp only [State.pkgRst, hctl, if_true, State.packageReset_of_free hheld, settle_fields]
    refine ⟨(s.clearPackage_cleared 3).startBoot.settled, ?_⟩
    rw [hboot]
    exact ⟨rfl, rfl, rfl⟩
  · simp only [State.powerFalls, hgood, if_true, settle_fields, State.updPower_power, true_and, State.updPower_fields]
    refine ⟨fun hfree => ?_, fun hheld => ?_⟩
    · rw [State.packageReset_of_free hfree]
      exact ⟨PackageCleared.settled (s.clearPackage_cleared 2), rfl, rfl⟩
    · rw [State.packageReset_of_held hheld]
      exact ⟨rfl, rfl, rfl⟩
  · simp only [State.sysResetLow, Nat.not_lt.mpr hlong, hhigh, decide_false, Bool.or_self, Bool.false_eq_true, if_false, settle_fields,
      State.updPower_power, true_and, State.updPower_fields]
    refine ⟨fun hfree => ?_, fun hheld => ?_⟩
    · rw [State.packageReset_of_free hfree]
      exact ⟨PackageCleared.settled (s.clearPackage_cleared 1), rfl, rfl⟩
    · rw [State.packageReset_of_held hheld]
      exact ⟨rfl, rfl, rfl⟩
  · simp [State.sysResetLow, hshort]

/-! ### Pins that let the device go, and the cold reset (17 R641, R650, R670; 18 R687, R688) -/

theorem bupd_word_same (v : Vector Word 21) {i : Nat} (h : i < 21) (f : Word → Word) : (bupd v i f)[i] = f v[i] := by
  simp [bupd, h, Bank.upd, Bank.put, Bank.at']
theorem bupd_word_other (v : Vector Word 21) {i j : Nat} (hj : j < 21) (h : i ≠ j) (f : Word → Word) : (bupd v i f)[j] = v[j] := by
  unfold bupd
  split
  · simp [Bank.upd, Bank.put, h]
  · rfl

/-- The start of the boot moves no counter but PWR_ON, and that after a rise of PWR_GOOD alone. -/
theorem State.startBoot_counters (s : State) : s.startBoot.owl.counters = s.owl.counters ∨ s.power.powerRose = true ∧
    s.startBoot.owl.counters = bupd s.owl.counters 11 fun w => if w = 0xFFFFFFFF then w else w + 1 := by
  cases h : s.held
  · have hcount := (State.startBoot_of_free h _ rfl).2.2.1
    cases hrose : s.power.powerRose <;> simp [hrose] at hcount <;> simp [hcount]
  · simp [State.startBoot_of_held h]

/-- The pins and the cause stand as the boot starts. -/
theorem State.startBoot_pins (s : State) : s.startBoot.power.cause = s.power.cause ∧ s.startBoot.power.pwrGood = s.power.pwrGood ∧
    s.startBoot.power.sysRst = s.power.sysRst ∧ s.startBoot.power.jtagHold = s.power.jtagHold := by
  cases h : s.held
  · rw [(State.startBoot_of_free h _ rfl).1]
    exact ⟨rfl, rfl, rfl, rfl⟩
  · rw [State.startBoot_of_held h]
    exact ⟨rfl, rfl, rfl, rfl⟩

/-- A cold reset starts the boot of a state that keeps flash and fuses, with the counters of the last checkpoint and COLD_RESETS
counted. -/
theorem State.coldReset_eq (s : State) : ∃ w : State, s.coldReset = w.startBoot ∧ w.power = s.power.packageReset 0 ∧
    w.cal = Calendar.reset ∧ w.regs = [] ∧ w.dram = Dram.reset ∧ w.frame.safePin = false ∧
    w.owl.counters = bupd s.owl.checkpointed 20 (fun x => if x = 0xFFFFFFFF then x else x + 1) ∧ w.owl.bankA = s.owl.bankA ∧
    w.owl.bankB = s.owl.bankB ∧ w.owl.rollback = s.owl.rollback ∧ w.owl.fences = s.owl.fences ∧ w.owl.pairing = s.owl.pairing ∧
    w.owl.flashLog = s.owl.flashLog ∧ w.owl.journal = s.owl.journal :=
  ⟨_, rfl, rfl, rfl, rfl, rfl, rfl, rfl, rfl, rfl, rfl, rfl, rfl, rfl, rfl⟩

theorem Owl.checkpointed_getElem (o : Owl) {i : Nat} (h : i < 21) : o.checkpointed[i] = ((o.journal.getLast?).getD []).getD i 0 := by
  simp [Owl.checkpointed]

/-- A rise of a pin, once nothing else holds the device, is the start of the boot with the pin's new level. -/
theorem State.startBoot_samples {s : State} (h : s.held = false) :
    s.startBoot.power.bootStarted = true ∧ s.startBoot.power.stage = 0 ∧ s.startBoot.power.bootSel = s.power.bootSelBalls ∧
    s.startBoot.cascade.strap = s.power.cascBall := by
  obtain ⟨hpower, hstrap, -⟩ := State.startBoot_of_free h _ rfl
  rw [hpower]
  exact ⟨rfl, rfl, rfl, hstrap⟩

/-- Settles O44: a rise is the start of the boot unless another pin holds the device, and a cold reset starts it from flash. -/
theorem bootStartsWhenNothingHolds : Obligations.BootStartsWhenNothingHolds := by
  unfold Obligations.BootStartsWhenNothingHolds
  intro s hjtag hvaon
  refine ⟨fun hgood => ⟨_, rfl, ?_⟩, fun hreset => ⟨_, rfl, ?_⟩, ⟨_, rfl, ?_⟩⟩
  · simp only [settle_fields, State.powerRises, hgood, Bool.false_eq_true, if_false]
    refine ⟨(State.startBoot_pins _).2.1, fun hhigh => ?_, fun hlow => ?_⟩
    · have hfree : (s.updPower fun p => { p with pwrGood := true, powerRose := true }).held = false := by
        simp [State.held, hhigh, hjtag, hvaon]
      obtain ⟨hstart, hstage, hsel, hstrap⟩ := State.startBoot_samples hfree
      refine ⟨hstart, hstage, hsel, hstrap, ?_⟩
      simp only [(State.startBoot_of_free hfree _ rfl).2.2.1, State.updPower_power, State.updPower_fields, if_true]
      rw [bupd_word_same s.owl.counters (show 11 < 21 by decide)]
      split
      next hfull => exact hfull
      next => rfl
    · rw [State.startBoot_of_held (by simp [State.held, hlow])]
      exact ⟨rfl, rfl⟩
  · simp only [settle_fields, State.sysResetRises, hreset, if_true]
    refine ⟨(State.startBoot_pins _).2.2.1, fun hgood => ?_, fun hlow => ?_⟩
    · exact State.startBoot_samples (by simp [State.held, hgood, hjtag, hvaon])
    · rw [State.startBoot_of_held (by simp [State.held, hlow])]
      exact ⟨rfl, rfl⟩
  · obtain ⟨w, hw, hpower, hcal, hregs, hdram, hpin, hcounters, hA, hB, hroll, hfences, hpair, hlog, hjournal⟩ := s.coldReset_eq
    have k := w.startBoot_own
    have hsafe := k.safe.1
    obtain ⟨kA, kB, kroll, kfences, kpair, -, klog, kjournal⟩ := w.startBoot_flash
    simp only [settle_fields, hw, (State.startBoot_pins w).1, k.cal, k.regs, k.dram, hsafe, kA, kB, kroll, kfences, kpair, klog, kjournal,
      hpower, hcal, hregs, hdram, hpin, hA, hB, hroll, hfences, hpair, hlog, hjournal, true_and]
    refine ⟨rfl, fun hrose i _ => ?_, ?_⟩
    · obtain hcount | ⟨hrise, -⟩ := State.startBoot_counters w
      · simp only [hcount, hcounters]
        rw [bupd_word_other _ (show i.val < 21 by omega) (show 20 ≠ i.val by omega), Owl.checkpointed_getElem _ (show i.val < 21 by omega)]
      · rw [hpower] at hrise
        exact absurd hrise (by simp [Power.packageReset, hrose])
    · rintro x rfl
      have hcold : w.owl.counters[20] = if s.owl.checkpointed[20] = 0xFFFFFFFF then s.owl.checkpointed[20]
          else s.owl.checkpointed[20] + 1 := by
        simp only [hcounters]
        exact bupd_word_same _ (show 20 < 21 by decide) _
      rw [← Owl.checkpointed_getElem s.owl (show 20 < 21 by decide), ← hcold]
      obtain hcount | ⟨-, hcount⟩ := State.startBoot_counters w
      · simp only [hcount]
      · simp only [hcount]
        exact bupd_word_other _ (show 20 < 21 by decide) (show 11 ≠ 20 by decide) _

/-! ### JTAG (20 R764, R766) -/

theorem State.captureCells_length (s : State) : s.captureCells.length = if s.chip.nLinks = 8 then 188 else 140 := by
  simp [State.captureCells, Chip.cells]

/-- A known cell below 140 captures its pin. -/
theorem State.captureCells_known (s : State) {i : Nat} (hi : i < 140) {b : Bool}
    (hcell : (s.knownCells.find? fun x => x.1 = i) = some (i, b)) : s.captureCells[i]? = some b := by
  have hlen : i < s.chip.cells := by
    unfold Chip.cells
    split <;> omega
  simp [State.captureCells, hlen, hcell]

/-- A test instruction leaves its code and capture, and holds a device that was free in package reset with cause SYS_RST. -/
theorem State.loadTest_effect (s : State) (ir : Byte) (d : List Bool) :
    (s.loadTest ir d).jtag = { ir := ir, captured := d } ∧ (s.held = false → (s.loadTest ir d).power.jtagHold = true ∧
      (s.loadTest ir d).power.cause = 2 ∧ PackageCleared s (s.loadTest ir d)) := by
  unfold State.loadTest
  dsimp only
  split
  next hhold => exact ⟨rfl, fun hfree => absurd hhold (by simp_all [State.held])⟩
  next hhold =>
    refine ⟨?_, fun hfree => ?_⟩
    · cases hheld : s.held <;> simp only [State.packageReset, State.updPower_fields]
      · split <;> rfl
      · split <;> rfl
    · rw [State.packageReset_of_free (by exact hfree)]
      exact ⟨rfl, rfl, State.clearPackage_cleared _ 1⟩

/-- Another instruction leaves its code and capture, and lets go of a device that a test instruction held. -/
theorem State.loadJtag_effect (s : State) (ir : Byte) (d : List Bool) :
    (s.loadJtag ir d).jtag = { ir := ir, captured := d } ∧ (s.loadJtag ir d).power.jtagHold = false ∧
    (s.power.jtagHold = false →
      (s.loadJtag ir d).power = s.power ∧ (s.loadJtag ir d).owl = s.owl ∧ (s.loadJtag ir d).regs = s.regs) ∧
    (s.power.jtagHold = true → s.power.pwrGood = true → s.power.sysRst = false → s.power.vaon = true →
      (s.loadJtag ir d).power.bootStarted = true ∧ (s.loadJtag ir d).power.stage = 0) := by
  unfold State.loadJtag
  dsimp only
  split
  next hhold =>
    refine ⟨(State.startBoot_own _).jtag, (State.startBoot_pins _).2.2.2, fun h => absurd hhold (by simp [h]),
      fun _ hgood hreset hvaon => ?_⟩
    obtain ⟨hstart, hstage, -⟩ := State.startBoot_samples
      (s := { s with jtag := { ir := ir, captured := d } }.updPower fun p => { p with jtagHold := false })
      (by simp [State.held, hgood, hreset, hvaon])
    exact ⟨hstart, hstage⟩
  next hhold => exact ⟨rfl, by simpa using hhold, fun _ => ⟨rfl, rfl, rfl⟩, fun h => absurd h hhold⟩

/-- A test instruction's command, as O54 says it of each. -/
theorem State.loadTest_exec {s : State} {i : Instr} {ir : Byte} {d : List Bool} {n : Nat}
    (hexec : exec i s = .next (settle (s.loadTest ir d))) (hlen : d.length = n) :
    ∃ t, exec i s = .next t ∧ t.jtag.ir = ir ∧ t.jtag.captured.length = n ∧
      (s.held = false → t.power.jtagHold = true ∧ t.power.cause = 2 ∧ PackageCleared s t) := by
  obtain ⟨hjtag, hfree⟩ := s.loadTest_effect ir d
  refine ⟨_, hexec, ?_, ?_, fun h => ?_⟩
  · simp [hjtag]
  · simpa [hjtag] using hlen
  · obtain ⟨hhold, hcause, hclear⟩ := hfree h
    exact ⟨hhold, hcause, hclear.settled⟩

/-- Settles O54: test instructions by `loadTest_effect`, the others by `loadJtag_effect`, and the captured cells by their numbers. -/
theorem jtagInstructionsSelectAndHold : Obligations.JtagInstructionsSelectAndHold := by
  unfold Obligations.JtagInstructionsSelectAndHold
  intro s
  have hload := fun ir d => (s.loadJtag_effect ir d).1
  have hcells := s.captureCells_length
  refine ⟨?_, ⟨_, rfl, ?_, fun hletter hdigit => ?_⟩, ⟨_, rfl, ?_, ?_, ?_⟩, ⟨_, rfl, ?_⟩, ?_⟩
  · simp only [List.forall_mem_cons, List.not_mem_nil, false_imp_iff, implies_true, and_true]
    exact ⟨State.loadTest_exec rfl (by simpa using hcells), State.loadTest_exec rfl (by simp), State.loadTest_exec rfl (by simp),
      State.loadTest_exec rfl (by simpa using hcells), State.loadTest_exec rfl (by simpa using hcells)⟩
  · simp [hload]
  · simp [hload, State.idcode, hletter, hdigit]
  · simp [hload]
  · simpa [hload] using s.captureCells_known (i := 4) (by decide) rfl
  · simpa [hload] using s.captureCells_known (i := 9) (by decide) rfl
  · simp [hload]
  · simp only [List.forall_mem_cons, List.not_mem_nil, false_imp_iff, implies_true, and_true]
    exact ⟨⟨_, rfl, (s.loadJtag_effect _ _).2⟩, ⟨_, rfl, (s.loadJtag_effect _ _).2⟩, ⟨_, rfl, (s.loadJtag_effect _ _).2⟩⟩

end Sys2Proof.Machine
end

section
/-! SUPPORT. The boot's stages (17 R649 to R651; 18 R690). -/
namespace Sys2Proof.Machine
open Sys2Proof
set_option Elab.async false

/-! ### The stages, each by what it finds -/

theorem exec_bootStage {s : State} (hheld : s.held = false) (hstarted : s.power.bootStarted = true) (hstage : s.power.stage < 5) :
    exec (.bootStageComplete .ok) s = .next (settle s.bootNext) ∧
    (s.power.stage = 0 → exec (.bootStageComplete .authFailed) s = .next (settle (s.enterRecovery codeUpdate))) ∧
    exec (.bootStageComplete .failed) s = .next (settle s.bootFails) := by
  have hgo : (s.held || ! s.power.bootStarted || decide (5 ≤ s.power.stage)) = false := by
    simp [hheld, hstarted, hstage]
  refine ⟨?_, fun hzero => ?_, ?_⟩
  · simp [exec, execBootStageComplete, State.endBootStage, hgo, done]
  · simp [exec, execBootStageComplete, State.endBootStage, hheld, hstarted, done, hzero]
  · simp [exec, execBootStageComplete, State.endBootStage, hgo, done]

theorem State.logBoot_power (s : State) : s.logBoot.power = s.power := by
  simp [State.logBoot]

theorem State.enterRecovery_power (s : State) (code : Byte) : (s.enterRecovery code).power = { s.power with stage := 6, result := code } := by
  simp [State.enterRecovery, State.logBoot_power]

/-- A bank's firmware runs with the bank's version. -/
theorem State.runBank_effect (s : State) (b fallback : Bool) : (s.runBank b fallback).power.stage = 1 ∧
    (s.runBank b fallback).power.bank = b ∧ (s.runBank b fallback).power.fallback = fallback ∧
    (s.runBank b fallback).owl.runningVersion = (if b then s.owl.bankB else s.owl.bankA).version :=
  ⟨rfl, rfl, rfl, rfl⟩

/-- With the straps at 0 the ROM takes the active bank, else the other one, else RECOVERY. -/
theorem State.bootNext_rom {s : State} (hstage : s.power.stage = 0) (hsel : s.power.bootSel = 0)
    (hcool : ∀ j ∈ s.owl.junctions.toList, j.toInt ≤ 1600) :
    s.bootNext = if s.owl.bankOk s.owl.activeB then s.runBank s.owl.activeB s.power.fallback
      else if s.owl.bankOk (! s.owl.activeB) then s.runBank (! s.owl.activeB) true else s.enterRecovery codeUpdate := by
  have hall : (s.owl.junctions.toList.all fun j => decide (j.toInt ≤ bootLimit)) = true :=
    List.all_eq_true.mpr fun j hj => decide_eq_true (hcool j hj)
  simp [State.bootNext, hstage, hall, State.bootRom, hsel]

/-- The firmware's stage takes the board's record, and writes its clock mode. -/
theorem State.bootClocks_effect {s : State} (hregs : keysRise s.regs) : s.bootClocks.power.stage = 2 ∧
    s.bootClocks.owl.board = s.owl.boardStored.getD BoardCfg.default ∧ s.bootClocks.owl.boardDefault = s.owl.boardStored.isNone ∧
    bits (s.bootClocks.live 0x01 0x100) 1 0 = (s.owl.boardStored.getD BoardCfg.default).clockMode.toNat := by
  refine ⟨rfl, rfl, rfl, ?_⟩
  unfold State.bootClocks
  dsimp only
  simp only [State.updPower_reads]
  rw [State.live_setLive_ne _ (by exact State.setLive_keysRise (by exact hregs) _ _ _) (by decide)]
  simp only [State.setShadow_reads, State.live_setLive_self]
  have hmode := (s.owl.boardStored.getD BoardCfg.default).clockMode.isLt
  simp only [bits, Nat.shiftRight_zero]
  omega

/-- Settles O45: each stage's end is one case of `bootNext`, and each failure one entry of RECOVERY. -/
theorem bootStagesFollowTheirOrder : Obligations.BootStagesFollowTheirOrder := by
  unfold Obligations.BootStagesFollowTheirOrder
  intro s hheld hstarted
  have hexec := exec_bootStage hheld hstarted
  refine ⟨fun hstage hsel hcool => ⟨_, (hexec (by omega)).1, ?_⟩, fun hstage hregs => ⟨_, (hexec (by omega)).1, ?_⟩,
    fun hstage hup => ⟨_, (hexec (by omega)).1, ?_⟩, fun hstage => ⟨_, (hexec (by omega)).1, ?_⟩,
    fun hstage => ⟨_, (hexec (by omega)).1, ?_⟩, fun hstage => ⟨_, (hexec (by omega)).2.1 hstage, ?_⟩,
    fun hstage => ⟨_, (hexec hstage).2.2, ?_⟩⟩
  · simp only [settle_fields, State.bootNext_rom hstage hsel hcool]
    refine ⟨fun b hok hbank => ?_, fun hA hB => ?_⟩
    · by_cases hb : b = s.owl.activeB
      · subst hb
        simp only [hok, if_true]
        exact State.runBank_effect _ _ _
      · have hother : b = ! s.owl.activeB := by
          revert hb
          cases b <;> cases s.owl.activeB <;> simp
        have hbad : s.owl.bankOk s.owl.activeB = false := by
          simpa [hother] using hbank.resolve_left hb
        simp only [hbad, Bool.false_eq_true, if_false, ← hother, hok, if_true, hb]
        exact State.runBank_effect _ _ _
    · have hbad : ∀ b, s.owl.bankOk b = false := by
        rintro (_ | _)
        · exact hA
        · exact hB
      simp only [hbad, Bool.false_eq_true, if_false, State.enterRecovery_power, and_self]
  · simp only [settle_fields, settle_reads, State.bootNext, hstage]
    exact State.bootClocks_effect hregs
  · simp [State.bootNext, hstage, hup]
  · simp [State.bootNext, hstage]
  · have hunits := (State.raiseUnits_touches (s.updPower fun p => { p with stage := 5 }) (within_refl _) (Touches.refl _ _)).power
    simp [State.bootNext, hstage, State.logBoot_power, hunits]
  · simp [State.enterRecovery_power]
  · unfold State.bootFails
    split <;> simp [State.enterRecovery_power]

end Sys2Proof.Machine
end

section
/-! SUPPORT. The calendar, SMBus reads, the log, the journal and the samples (18 R672, R680 to R688, R701 to R704). -/
namespace Sys2Proof.Machine
open Sys2Proof
set_option Elab.async false

/-! ### A second of the real-time clock (18 R702) -/

theorem State.owlSecond_cal (s : State) : s.owlSecond.cal = s.cal :=
  (State.owlSecond_touches s (within_refl _) (Touches.refl _ _)).cal

theorem State.rtcSecond_cal {s : State} (hvaon : s.power.vaon = true) (hlost : s.cal.lost = false) : s.rtcSecond.cal = s.cal.tick := by
  simp [State.rtcSecond, hvaon, hlost, State.owlSecond_cal]

theorem State.rtcSecond_of_lost {s : State} (hlost : s.cal.lost = true) : s.rtcSecond = s := by
  simp [State.rtcSecond, hlost]

theorem Calendar.tick_atEnd {c : Calendar} (h : c.atEnd = true) : c.tick = { c with seconds := c.seconds + 1, ended := true } := by
  have hend : ({ c with seconds := c.seconds + 1 } : Calendar).atEnd = true := h
  simp only [Calendar.tick, h, if_true, hend, Bool.or_true]

theorem Calendar.atEnd_iff (c : Calendar) : c.atEnd = true ↔
    (c.year, c.month, c.day, c.hour, c.minute, c.second) = (2399, 12, 31, 23, 59, 59) := by
  simp [Calendar.atEnd, and_assoc]

theorem Calendar.advance_keeps (c : Calendar) : c.advance.valid = c.valid ∧ c.advance.seconds = c.seconds := by
  unfold Calendar.advance
  dsimp only
  split_ifs <;> exact ⟨rfl, rfl⟩

theorem Calendar.tick_seconds (c : Calendar) : c.tick.seconds = c.seconds + 1 := rfl

theorem Calendar.tick_valid (c : Calendar) : c.tick.valid = c.valid := by
  unfold Calendar.tick
  dsimp only
  split
  · rfl
  · exact (Calendar.advance_keeps c).1

/-- Within a minute a second moves the seconds alone. -/
theorem Calendar.advance_within {c : Calendar} (h : c.second < 59) : c.advance = { c with second := c.second + 1 } := by
  simp [Calendar.advance, h]

/-! ### CAL_SET (18 R703, R704) -/

theorem nsum_map_range_le {f : Nat → Nat} {b : Nat} (h : ∀ i, f i ≤ b) (n : Nat) : nsum ((List.range n).map f) ≤ n * b := by
  rw [nsum, ← List.sum_eq_foldl]
  simpa using List.sum_le_card_nsmul ((List.range n).map f) b (by simpa using fun i _ => h i)

theorem monthDays_le (y m : Nat) : monthDays y m ≤ 31 := by
  unfold monthDays
  split <;> first | omega | (split <;> omega)

/-- The days of the years before a date and of its months make a seconds counter of 64 bits. -/
theorem secondsOf_lt {y m d h mi se : Nat} (hy : y ≤ 2399) (hm : m ≤ 12) (hd : d ≤ 31) (hh : h ≤ 23) (hmi : mi ≤ 59) (hse : se ≤ 59) :
    secondsOf y m d h mi se < 2 ^ 64 := by
  have hyears := nsum_map_range_le (f := fun i => if leap (2000 + i) then 366 else 365) (b := 366) (fun i => by split <;> omega) (y - 2000)
  have hmonths := nsum_map_range_le (f := fun i => monthDays y (i + 1)) (fun i => monthDays_le _ _) (m - 1)
  unfold secondsOf
  dsimp only
  omega

theorem stagedOk_bounds {d t : Nat} (h : stagedOk d t = true) :
    bits d 15 0 ≤ 2399 ∧ bits d 23 16 ≤ 12 ∧ bits d 31 24 ≤ 31 ∧ bits t 23 16 ≤ 23 ∧ bits t 15 8 ≤ 59 ∧ bits t 7 0 ≤ 59 := by
  have hdays := monthDays_le (bits d 15 0) (bits d 23 16)
  simp only [stagedOk, Bool.and_eq_true, decide_eq_true_eq] at h
  omega

theorem State.calSet_refused {s : State} {p : Port} (hctl : s.isCtl (.port p) = true)
    (hstaged : stagedOk (s.live 0x10 0x100) (s.live 0x10 0x104) = false) :
    s.calSet (.port p) = (s.updCal fun c => { c with result := codeDate }).recordDirect (.port p) 0x10 0x108 codeDate := by
  simp [State.calSet, hctl, hstaged]

/-- A valid CAL_SET moves, beside the log, the calendar alone. -/
theorem State.calSet_cal {s : State} {p : Port} (hctl : s.isCtl (.port p) = true)
    (hstaged : stagedOk (s.live 0x10 0x100) (s.live 0x10 0x104) = true) :
    (s.calSet (.port p)).cal = s.cal.set (s.live 0x10 0x100) (s.live 0x10 0x104) := by
  simp [State.calSet, hctl, hstaged]

/-! ### The log, the journal and the samples (18 R682, R686, R688) -/

/-- Flushed, the buffer is in flash; what was dropped is then one record of the empty buffer. -/
theorem State.flushLog_owl {s : State} (hheld : s.held = false) (hpower : s.power.v3p3 = true) (hbuffer : s.owl.buffer ≠ []) :
    s.flushLog.owl.flashLog = s.owl.buffer.foldl logPut s.owl.flashLog ∧
    (s.owl.dropsPending = 0 → s.flushLog.owl.buffer = []) ∧ s.flushLog.owl.dropsPending = 0 := by
  simp only [State.flushLog, hheld, hpower, hbuffer, Bool.not_true, Bool.or_self, decide_false, Bool.false_eq_true, if_false]
  split
  next hnone => exact ⟨rfl, fun _ => rfl, rfl⟩
  next hsome =>
    refine ⟨?_, fun h => absurd h hsome, ?_⟩
    · simp [State.logEvent_owl]
    · simp [State.logEvent_owl, Owl.record]

/-- The newest checkpoint is the journal's last, also where the oldest of 8,193 goes. -/
theorem getLast?_journal (j : List (List Word)) (x : List Word) :
    ((j ++ [x]).drop ((j ++ [x]).length - 8192)).getLast? = some x := by
  rw [List.getLast?_drop]
  simp

theorem State.judgeAlert_keeps (s : State) : s.judgeAlert.owl.rails = s.owl.rails ∧ s.judgeAlert.owl.current = s.owl.current ∧
    s.judgeAlert.owl.stackTemps = s.owl.stackTemps ∧ s.judgeAlert.owl.powerNow = s.owl.powerNow ∧
    s.judgeAlert.owl.railBad = s.owl.railBad ∧ s.judgeAlert.owl.junctions = s.owl.junctions ∧
    ∃ b, s.judgeAlert.power = { s.power with tempAlert := b } := by
  unfold State.judgeAlert
  extract_lets v c low js hot cool on data logged
  have hlogged : logged = s ∨ logged = s.logEvent 0x0F 0x0F 0 0 0xFF data := by
    unfold logged
    split
    · exact .inr rfl
    · exact .inl rfl
  clear_value logged
  obtain rfl | rfl := hlogged
  · exact ⟨rfl, rfl, rfl, rfl, rfl, rfl, _, rfl⟩
  · simp only [State.updPower_power, State.updPower_fields, State.updOwl_owl, State.updOwl_fields, State.logEvent_fields,
      State.logEvent_owl, Owl.record_fields, true_and]
    exact ⟨_, rfl⟩

/-- Settles O50: the calendar by its second and its set, and each of Owl's operations by the one update it makes. -/
theorem theCalendarLogsAndSamplesGoOn : Obligations.TheCalendarLogsAndSamplesGoOn := by
  unfold Obligations.TheCalendarLogsAndSamplesGoOn
  refine ⟨fun s => ⟨fun hvaon hlost => ⟨_, rfl, ?_⟩, fun hlost => ⟨_, rfl, ?_⟩, ⟨_, rfl, rfl⟩, ⟨_, rfl, rfl⟩, fun p hctl => ⟨_, rfl, ?_⟩⟩,
    fun s hheld => ⟨fun c => ⟨_, rfl, ?_⟩, fun hvaon => ⟨_, rfl, ?_⟩, fun hpower hbuffer => ⟨_, rfl, ?_⟩, fun hdue => ⟨_, rfl, ?_⟩,
      fun rails current temps power => ⟨_, rfl, ?_⟩⟩⟩
  · simp only [settle_fields, State.rtcSecond_cal hvaon hlost]
    refine ⟨s.cal.tick_seconds, fun hend => ?_, fun hend hsec => ?_, fun hend hsec => ?_, s.cal.tick_valid⟩
    · rw [Calendar.tick_atEnd hend]
      exact ⟨rfl, s.cal.atEnd_iff.mp hend⟩
    · simp [Calendar.tick, hend, Calendar.advance_within hsec]
    · simpa [Calendar.tick, hend, hsec] using Calendar.advance_second hsec.le
  · simp only [settle_fields, State.rtcSecond_of_lost hlost]
  · rintro d c rfl rfl
    refine ⟨fun hstaged => ?_, fun hstaged => ?_⟩
    · simp only [settle_fields, settle_reads, State.calSet_refused hctl hstaged, State.recordDirect_result, and_true]
      exact (State.recordDirect_touches _ _ _ _ _ (within_refl _) (Touches.refl _ _)).cal
    · obtain ⟨hy, hm, hd, hh, hmi, hse⟩ := stagedOk_bounds hstaged
      simp only [settle_fields, State.calSet_cal hctl hstaged]
      refine ⟨rfl, rfl, rfl, rfl, rfl, rfl, rfl, ?_⟩
      exact Nat.mod_eq_of_lt (secondsOf_lt hy hm hd hh hmi hse)
  · refine ⟨?_, ?_, ?_, rfl⟩ <;> simp +contextual [State.smbRead, hheld]
  · simp [State.smbTime, hvaon]
  · exact State.flushLog_owl hheld hpower hbuffer
  · have hgo : (s.held || (s.owl.journal ≠ [] && s.owl.sinceCheckpoint < 10)) = false := by
      rcases hdue with h | h <;> simp [hheld, h]
    simp only [settle_fields, State.checkpoint, hgo, Bool.false_eq_true, if_false, State.updOwl_owl, and_true]
    exact getLast?_journal _ _
  · simp only [settle_fields, State.railSample, hheld, Bool.false_eq_true, if_false]
    cases hframe : s.frame.inFrame
    all_goals
      simp only [State.updOwl_fields, hframe, Bool.false_eq_true, if_false, if_true]
      obtain ⟨hrails, hcurrent, htemps, hnow, hbad, -, b, hpower⟩ := State.judgeAlert_keeps _
      rw [hrails, hcurrent, htemps, hnow, hbad, hpower]
      exact ⟨rfl, rfl, rfl, rfl, rfl, rfl⟩

end Sys2Proof.Machine
end

section
/-! SUPPORT. Mailbox requests: how one that arrives on an idle channel is served, and its response (18 R674 to R678). -/
namespace Sys2Proof.Machine
open Sys2Proof
set_option Elab.async false

/-! ### The response (18 R674, R675) -/

theorem padTo_length (n : Nat) (l : List Byte) : (padTo n l).length = n := by
  simp only [padTo, List.length_take, List.length_append, List.length_replicate]
  omega

/-- The response's header is 16 bytes, the first of which is the code. -/
theorem State.responseOf_header (s : State) (req : List Byte) (code : Byte) (data : List Byte) :
    byteAt (s.responseOf req code data) 0 = code.toNat ∧ (s.responseOf req code data).drop 16 = data := by
  refine ⟨?_, ?_⟩
  · have hlow : (s.stat none code).toNat % 256 = code.toNat := by
      have := code.isLt
      simp only [State.stat, BitVec.toNat_ofNat]
      omega
    simpa [State.responseOf, byteAt, leBytes] using hlow
  · have hlen : (leBytes 2 (s.stat none code).toNat ++ [s.attnSeq none, 0] ++ padTo 2 (req.drop 2) ++ leBytes 2 data.length ++
        List.replicate 8 0).length = 16 := by
      simp [leBytes_length, padTo_length]
    exact List.drop_left' hlen

theorem State.box_updBox_self (s : State) (ch : Channel) (f : Mailbox → Mailbox) : (s.updBox ch f).box ch = f (s.box ch) :=
  Bank.at'_upd_self _ _ _

theorem State.sendMsix_owl (s : State) (p : Port) (v : Nat) : (s.sendMsix p v).owl = s.owl := by
  unfold State.sendMsix
  split
  · rfl
  · cases p <;> rfl

/-- A response leaves the channel's mailbox with it, and no other. -/
theorem State.respond_boxes (s : State) (ch : Channel) (code : Byte) (data : List Byte) :
    (s.respond ch code data).owl.boxes = s.owl.boxes.upd (chanIx ch) fun b =>
      { b with busy := false, done := true, request := [], response := s.responseOf (s.box ch).request code data } := by
  cases ch <;> simp only [State.respond]
  · split <;> simp [State.sendMsix_owl, State.updBox]
  · split <;> simp [State.sendMsix_owl, State.updBox]
  · rfl
  · rfl

theorem State.respond_replied (s : State) (ch : Channel) (code : Byte) (data : List Byte) :
    Replied (s.respond ch code data) ch code data := by
  have hbox : (s.respond ch code data).box ch =
      { s.box ch with busy := false, done := true, request := [], response := s.responseOf (s.box ch).request code data } := by
    rw [State.box, State.respond_boxes]
    exact Bank.at'_upd_self _ _ _
  obtain ⟨hcode, hdata⟩ := s.responseOf_header (s.box ch).request code data
  rw [Replied, hbox]
  exact ⟨rfl, rfl, hcode, hdata⟩

theorem Replied.settled {t : State} {ch : Channel} {code : Byte} {data : List Byte} (h : Replied t ch code data) :
    Replied (settle t) ch code data := by
  simpa [Replied] using h

theorem State.respond_own (s : State) (ch : Channel) (code : Byte) (data : List Byte) :
    Touches [.regs, .cfgA, .cfgB, .boxes, .owl] s (s.respond ch code data) :=
  State.respond_touches s ch code data (within_refl _) (Touches.refl _ _)

/-! ### The arrival of a request (18 R675, R677) -/

/-- The state in which a request that came on an idle channel is served: its mailbox is BUSY with it, no request waits, and the page of a
port shows its bytes. -/
def State.arrived (s : State) (ch : Channel) (r : List Byte) (file : SMap Word) : State :=
  (({ s with regs := file } : State).arriveRequest ch r).updOwl fun o => { o with order := [] }

/-- A request that is allowed, served: its effect and its reply, or its wait for the flash. -/
def State.servedRequest (u : State) (ch : Channel) (r : List Byte) : State :=
  match u.serveOp ch (reqOp r) (reqData r) with
  | some x => x.1.respond ch x.2.1 x.2.2
  | none => u.holdChunk ch r

theorem State.setReqBytes_file (s : State) (p : Port) (r : List Byte) : ∃ m, s.setReqBytes p r = { s with regs := m } := by
  unfold State.setReqBytes State.forEach
  generalize List.range 64 = l
  induction l generalizing s with
  | nil => exact ⟨s.regs, rfl⟩
  | cons i l ih =>
    obtain ⟨m, hm⟩ := ih (s.setLive (ownPage p) (0x200 + 4 * i) (u32At (padTo 256 r) (4 * i)))
    exact ⟨m, hm⟩

/-- Alone in the order, a channel's request is served at once. -/
theorem State.serveUpTo_alone {s : State} {ch : Channel} (horder : s.owl.order = [ch]) :
    s.serveUpTo ch = match s.reqFlaw ch (s.box ch).request with
      | some c => (s.updOwl fun o => { o with order := [] }).respond ch c []
      | none => (s.updOwl fun o => { o with order := [] }).servedRequest ch (s.box ch).request := by
  have hempty : (s.updOwl fun o => { o with order := o.order.filter fun c => decide (c ≠ ch) }) =
      s.updOwl fun o => { o with order := [] } := by
    simp [State.updOwl, horder]
  have hturn : s.serveUpTo ch = s.serveRequest ch := by
    simp [State.serveUpTo, horder, State.forEach]
  rw [hturn, State.serveRequest]
  simp only [hempty]
  rfl

/-- A row's request that comes on an idle channel which Owl serves. -/
theorem State.mailRow_idle {s : State} {ch : Channel} {r : List Byte} {isOp : Nat → Bool} (hop : isOp (reqOp r) = true)
    (hheld : s.held = false) (hready : s.power.stage = 5) (horder : s.owl.order = []) (hidle : (s.box ch).busy = false)
    (hup : s.chanUp ch = true) : ∃ file, s.mailRow isOp ch r = match s.reqFlaw ch r with
      | some c => (s.arrived ch r file).respond ch c []
      | none => (s.arrived ch r file).servedRequest ch r := by
  have hserves : s.owlServes ch (reqOp r) = true := by simp [State.owlServes, hheld, hready]
  have harrive : ∃ file, s.mailRow isOp ch r = (({ s with regs := file } : State).arriveRequest ch r).serveUpTo ch := by
    simp only [State.mailRow, hidle, Bool.false_eq_true, if_false, hop, hserves, hup, Bool.not_true, Bool.or_self]
    cases chanPort ch with
    | none => exact ⟨s.regs, rfl⟩
    | some p =>
      obtain ⟨file, hfile⟩ := s.setReqBytes_file p r
      exact ⟨file, by simp only [hfile]⟩
  obtain ⟨file, hrow⟩ := harrive
  have hwait : (({ s with regs := file } : State).arriveRequest ch r).owl.order = [ch] := by
    show s.owl.order ++ [ch] = [ch]
    rw [horder]
    rfl
  have hbox : ((({ s with regs := file } : State).arriveRequest ch r).box ch).request = r := by
    show ((s.owl.boxes.upd (chanIx ch) _).at' (chanIx ch)).request = r
    rw [Bank.at'_upd_self]
  refine ⟨file, ?_⟩
  rw [hrow, State.serveUpTo_alone hwait, hbox]
  rfl

/-- A request that is allowed is replied to with its code and its payload, after its effect on the state in which it is served. -/
theorem State.mailOp_idle {s : State} {ch : Channel} {r : List Byte} {op : Nat} (hop : reqOp r = op)
    (hheld : s.held = false) (hready : s.power.stage = 5) (horder : s.owl.order = []) (hidle : (s.box ch).busy = false)
    (hup : s.chanUp ch = true) (hflaw : s.reqFlaw ch r = none) :
    ∃ file, s.mailOp op ch r = (s.arrived ch r file).servedRequest ch r := by
  obtain ⟨file, h⟩ := State.mailRow_idle (isOp := (· == op)) (by simpa using hop) hheld hready horder hidle hup
  rw [hflaw] at h
  exact ⟨file, h⟩

/-- The same with what `serveOp` answers. -/
theorem State.mailOp_served {s : State} {ch : Channel} {r : List Byte} {op : Nat} (hop : reqOp r = op)
    (hheld : s.held = false) (hready : s.power.stage = 5) (horder : s.owl.order = []) (hidle : (s.box ch).busy = false)
    (hup : s.chanUp ch = true) (hflaw : s.reqFlaw ch r = none) : ∃ file, ∀ v code data,
      (s.arrived ch r file).serveOp ch op (reqData r) = some (v, code, data) → s.mailOp op ch r = v.respond ch code data := by
  obtain ⟨file, hrow⟩ := State.mailOp_idle hop hheld hready horder hidle hup hflaw
  refine ⟨file, fun v code data h => ?_⟩
  rw [hrow, State.servedRequest, hop, h]

/-! ### Pairing and fences (18 R679, R695) -/

theorem State.pairWith_granted {u : State} {new cur : List Byte}
    (h : u.owl.pairing = none ∨ u.owl.pairing = some (sha256 cur)) :
    (u.pairWith new cur).2 = codeOk ∧ (u.pairWith new cur).1.owl.pairing = if allZero new then none else some (sha256 new) := by
  have hgo : u.pairWith new cur = State.pairWith.go new u u.owl.pairing := by
    rcases h with h | h <;> simp [State.pairWith, h]
  rw [hgo, State.pairWith.go]
  dsimp only
  generalize (if allZero new then none else some (sha256 new)) = record
  split
  next hsame => exact ⟨rfl, hsame.symm⟩
  next => simp [State.logEvent_owl]

theorem State.pairWith_refused {u : State} {new cur : List Byte} {h : Digest} (hpair : u.owl.pairing = some h) (hother : sha256 cur ≠ h) :
    u.pairWith new cur = (u, codeToken) := by
  simp [State.pairWith, hpair, hother]

theorem State.setView_fences (s : State) (k : UnitKind) (n : Nat) (f : View → View) : (s.setView k n f).owl.fences = s.owl.fences :=
  (State.setView_touches s k n f (within_refl _) (Touches.refl _ _)).identity.1

theorem State.fenceUnit_fences (s : State) (k : UnitKind) (n channel : Nat) : (k, n) ∈ (s.fenceUnit k n channel).owl.fences := by
  have hfences : (s.fenceUnit k n channel).owl.fences =
      if s.owl.fences.contains (k, n) then s.owl.fences else s.owl.fences ++ [(k, n)] := by
    have hraise : ∀ (u : State) page bit, (u.raise page bit).owl = u.owl := fun _ _ _ => rfl
    unfold State.fenceUnit
    dsimp only
    split
    · simp only [State.logEvent_owl, Owl.record_fields, State.setView_fences, State.updOwl_owl]
    · simp only [hraise, State.logEvent_owl, Owl.record_fields, State.setView_fences, State.updOwl_owl]
  rw [hfences]
  split
  next h => simpa using h
  next => simp

theorem State.unfenceUnit_fences (s : State) (k : UnitKind) (n channel : Nat) : (k, n) ∉ (s.unfenceUnit k n channel).owl.fences := by
  have hfences : (s.unfenceUnit k n channel).owl.fences = s.owl.fences.filter (· ≠ (k, n)) := by
    have hraise : ∀ (u : State) page bit, (u.raise page bit).owl = u.owl := fun _ _ _ => rfl
    unfold State.unfenceUnit
    dsimp only
    split <;> simp [State.logEvent_owl, State.setView_fences, hraise]
  simp [hfences]

theorem State.fenceReq_granted {u : State} {ch : Channel} {d : List Byte} {on : Bool} {k : UnitKind} (hkind : kindOf (byteAt d 0) = some k)
    (hunit : byteAt d 1 < u.unitCount k) : (u.fenceReq ch d on).2 = codeOk ∧
      ((k, byteAt d 1) ∈ (u.fenceReq ch d on).1.owl.fences ↔ on = true) := by
  simp only [State.fenceReq, hkind, Nat.not_le.mpr hunit, if_false, true_and]
  cases on
  · simpa using State.unfenceUnit_fences u k (byteAt d 1) (chanIx ch).val
  · simpa using State.fenceUnit_fences u k (byteAt d 1) (chanIx ch).val

theorem State.fenceReq_refused {u : State} {ch : Channel} {d : List Byte} {on : Bool}
    (h : ∀ k, kindOf (byteAt d 0) = some k → u.unitCount k ≤ byteAt d 1) : u.fenceReq ch d on = (u, codeBad) := by
  cases hkind : kindOf (byteAt d 0) with
  | none => simp [State.fenceReq, hkind]
  | some k => simp [State.fenceReq, hkind, h k hkind]

/-! ### Requests on an idle channel -/

section
variable {s : State} {ch : Channel} {r : List Byte} (hheld : s.held = false) (hready : s.power.stage = 5) (horder : s.owl.order = [])
  (hidle : (s.box ch).busy = false) (hup : s.chanUp ch = true)
include hheld hready horder hidle hup

/-- A request that changes nothing in its effect is replied to with what Owl held before it. -/
theorem State.mailOp_reply (hflaw : s.reqFlaw ch r = none) {op : Nat} {code : Byte} {data : List Byte} (hop : reqOp r = op)
    {i : Instr} (hexec : exec i s = .next (settle (s.mailOp op ch r)))
    (hserve : ∀ file, ∃ v, (s.arrived ch r file).serveOp ch op (reqData r) = some (v, code, data)) :
    ∃ t, exec i s = .next t ∧ Replied t ch code data := by
  obtain ⟨file, hrow⟩ := State.mailOp_served hop hheld hready horder hidle hup hflaw
  obtain ⟨v, hv⟩ := hserve file
  refine ⟨_, hexec, ?_⟩
  rw [hrow v code data hv]
  exact (v.respond_replied ch code data).settled

theorem State.mailRow_unassigned (hop : reqOp r = 0 ∨ 0x11 < reqOp r) (hlen : reqLen r ≤ 240) :
    ∃ t, exec (.unassignedMailboxOpcode ch r) s = .next t ∧ Replied t ch codeBad [] := by
  obtain ⟨file, hrow⟩ := State.mailRow_idle (isOp := fun op => op == 0 || decide (0x11 < op)) (by simpa using hop) hheld hready horder
    hidle hup
  have hflaw : s.reqFlaw ch r = some codeBad := by
    rcases hop with h | h <;> simp [State.reqFlaw, Nat.not_lt.mpr hlen, h]
  refine ⟨_, rfl, ?_⟩
  rw [hrow, hflaw]
  exact (State.respond_replied _ ch codeBad []).settled

/-- FENCE and UNFENCE, by whether they name a unit of the grade. -/
theorem State.fence_exec (hflaw : s.reqFlaw ch r = none) {i : Instr} (hi : i ∈ [Instr.fence ch r, .unfence ch r])
    (hfence : i = .fence ch r → reqOp r = 0x0A) (hunfence : i = .unfence ch r → reqOp r = 0x0B) : ∃ t, exec i s = .next t ∧
      (∀ k, kindOf (byteAt (reqData r) 0) = some k → byteAt (reqData r) 1 < s.unitCount k → Replied t ch codeOk [] ∧
        ((k, byteAt (reqData r) 1) ∈ t.owl.fences ↔ i = .fence ch r)) ∧
      ((∀ k, kindOf (byteAt (reqData r) 0) = some k → s.unitCount k ≤ byteAt (reqData r) 1) → Replied t ch codeBad [] ∧
        t.owl.fences = s.owl.fences) := by
  obtain ⟨on, file, hon, hexec⟩ : ∃ on file, (on = true ↔ i = .fence ch r) ∧ exec i s = .next (settle
      (((s.arrived ch r file).fenceReq ch (reqData r) on).1.respond ch ((s.arrived ch r file).fenceReq ch (reqData r) on).2 [])) := by
    simp only [List.mem_cons, List.not_mem_nil, or_false] at hi
    obtain rfl | rfl := hi
    · obtain ⟨file, hrow⟩ := State.mailOp_served (hfence rfl) hheld hready horder hidle hup hflaw
      exact ⟨true, file, by simp, congrArg (fun u => Host.Outcome.next (settle u)) (hrow _ _ _ rfl)⟩
    · obtain ⟨file, hrow⟩ := State.mailOp_served (hunfence rfl) hheld hready horder hidle hup hflaw
      exact ⟨false, file, by simp, congrArg (fun u => Host.Outcome.next (settle u)) (hrow _ _ _ rfl)⟩
  refine ⟨_, hexec, fun k hkind hunit => ?_, fun hnone => ?_⟩
  · obtain ⟨hcode, hmem⟩ := State.fenceReq_granted (u := s.arrived ch r file) (ch := ch) (on := on) hkind hunit
    rw [hcode]
    have hkeep := (State.respond_own ((s.arrived ch r file).fenceReq ch (reqData r) on).1 ch codeOk []).identity.1
    simp only [settle_fields, hkeep]
    exact ⟨(State.respond_replied _ _ _ _).settled, hmem.trans hon⟩
  · rw [State.fenceReq_refused (u := s.arrived ch r file) hnone]
    exact ⟨(State.respond_replied _ _ _ _).settled, (State.respond_own _ _ _ _).identity.1⟩

end

/-- Settles O51: each request by what `serveOp` says of it in the state in which it is served. -/
theorem mailboxRequestsTakeEffect : Obligations.MailboxRequestsTakeEffect := by
  unfold Obligations.MailboxRequestsTakeEffect
  refine ⟨fun s ch r hheld hready horder hidle hup => ⟨fun hflaw => ?_, fun hop hlen => ?_, rfl, fun p hport hbusy => ?_⟩,
    fun s ch r hheld hready horder hidle hup hflaw d hd => ?_⟩
  · have hreply := @State.mailOp_reply s ch r hheld hready horder hidle hup hflaw
    exact ⟨fun h => hreply h rfl fun _ => ⟨_, rfl⟩, fun h => hreply h rfl fun _ => ⟨_, rfl⟩, fun h => hreply h rfl fun _ => ⟨_, rfl⟩,
      fun h => hreply h rfl fun _ => ⟨_, rfl⟩, fun h => hreply h rfl fun _ => ⟨_, rfl⟩, fun h => hreply h rfl fun _ => ⟨_, rfl⟩,
      fun h => hreply h rfl fun _ => ⟨_, rfl⟩, fun h => hreply h rfl fun _ => ⟨_, rfl⟩⟩
  · exact State.mailRow_unassigned hheld hready horder hidle hup hop hlen
  · refine ⟨_, rfl, ?_⟩
    simp only [hbusy, if_true, State.mailGo, hport, Bool.not_true, Bool.false_eq_true, if_false, settle_reads, settle_fields]
    refine ⟨?_, rfl⟩
    rw [State.box_updBox_self, hbusy]
  · subst hd
    refine ⟨fun hop => ?_, fun hop => ?_, fun i hi hfence hunfence => ?_, fun hop => ?_⟩
    · obtain ⟨file, hrow⟩ := State.mailOp_served hop hheld hready horder hidle hup hflaw
      refine ⟨_, rfl, fun hgrant => ?_, fun h hpair hother => ?_⟩
      · obtain ⟨hcode, hrecord⟩ := State.pairWith_granted (u := s.arrived ch r file) (new := (reqData r).take 16) hgrant
        rw [hrow _ _ _ rfl, hcode]
        exact ⟨(State.respond_replied _ _ _ _).settled, (State.respond_own _ _ _ _).identity.2.1.trans hrecord⟩
      · have hrefused := State.pairWith_refused (u := s.arrived ch r file) (new := (reqData r).take 16) hpair hother
        rw [hrow _ _ _ rfl, hrefused]
        have hkeep := (State.respond_own (s.arrived ch r file) ch codeToken []).identity
        exact ⟨(State.respond_replied _ _ _ _).settled, hkeep.2.1, hkeep.2.2⟩
    · obtain ⟨file, hrow⟩ := State.mailOp_served hop hheld hready horder hidle hup hflaw
      refine ⟨_, rfl, ?_⟩
      rw [hrow _ _ _ rfl]
      exact ⟨(State.respond_replied _ _ _ _).settled, (State.respond_own _ _ _ _).identity.2.2⟩
    · exact State.fence_exec hheld hready horder hidle hup hflaw hi hfence hunfence
    · obtain ⟨file, hrow⟩ := State.mailOp_served hop hheld hready horder hidle hup hflaw
      refine ⟨_, rfl, ?_⟩
      rw [hrow _ _ _ rfl]
      obtain ⟨hstored, hboard, -⟩ := (State.respond_own ((s.arrived ch r file).setBoard (reqData r)).1 ch
        ((s.arrived ch r file).setBoard (reqData r)).2 []).board
      simp only [settle_fields, hstored, hboard]
      cases hrecord : boardOf (reqData r) with
      | none =>
        have hset : (s.arrived ch r file).setBoard (reqData r) = (s.arrived ch r file, codeBad) := by simp [State.setBoard, hrecord]
        rw [hset]
        exact ⟨fun b hb => (nomatch hb), fun _ => ⟨(State.respond_replied _ _ _ _).settled, rfl⟩, rfl⟩
      | some b =>
        have hset : (s.arrived ch r file).setBoard (reqData r) =
            ((s.arrived ch r file).updOwl fun o => { o with boardStored := some b }, codeOk) := by simp [State.setBoard, hrecord]
        rw [hset]
        exact ⟨fun b' hb => ⟨(State.respond_replied _ _ _ _).settled, hb⟩, fun hb => (nomatch hb), rfl⟩

end Sys2Proof.Machine
end

section
/-! SUPPORT. Firmware updates (18 R689 to R693). -/
namespace Sys2Proof.Machine
open Sys2Proof
set_option Elab.async false

/-! ### The requests of an update, by what they find -/

section
variable {u : State}

theorem State.fwOpen_tooLong {total : Nat} (h : 8388608 < total) : u.fwOpen total = (u, codeLength) := by
  simp [State.fwOpen, bankSize, h]
theorem State.fwOpen_busy {total : Nat} (h : total ≤ 8388608) (hopen : u.owl.session ≠ none) : u.fwOpen total = (u, codeBusy) := by
  simp [State.fwOpen, bankSize, Nat.not_lt.mpr h, Option.isSome_iff_ne_none.mpr hopen]

/-- A session opens on the bank that is not active. -/
theorem State.fwOpen_opens {total : Nat} (h : total ≤ 8388608) (hnone : u.owl.session = none) (hstage : u.power.stage = 5) :
    (u.fwOpen total).2 = codeOk ∧ (u.fwOpen total).1.owl.session = some ⟨total, [], true, false, []⟩ ∧
    (if u.owl.activeB then (u.fwOpen total).1.owl.bankA.valid = false ∧ (u.fwOpen total).1.owl.bankB = u.owl.bankB
     else (u.fwOpen total).1.owl.bankB.valid = false ∧ (u.fwOpen total).1.owl.bankA = u.owl.bankA) := by
  simp only [State.fwOpen, bankSize, Nat.not_lt.mpr h, hnone, hstage, Option.isSome_none, Bool.false_eq_true, if_false]
  cases hactive : u.owl.activeB <;> simp [Owl.updBank, hactive]

variable {x : Session} (hsession : u.owl.session = some x) {d : List Byte}
include hsession

theorem State.fwWrite_misplaced (h : u32At d 0 ≠ x.written.length) : u.fwWrite d = (u, codeBad) := by
  simp [State.fwWrite, hsession, h]
theorem State.fwWrite_placed (h : u32At d 0 = x.written.length) (hroom : x.written.length + (d.length - 4) ≤ x.total) :
    u.fwWrite d = (u.updOwl fun o => { o with session := some { x with written := x.written ++ d.drop 4 } }, codeOk) := by
  simp [State.fwWrite, hsession, h, hroom]

/-- A chunk that fits waits while the flash erases. -/
theorem State.serveOp_chunk (ch : Channel) : u.serveOp ch 0x0D d =
    if x.erasing && decide ((u.fwWrite d).2 = codeOk) then none else some ((u.fwWrite d).1, (u.fwWrite d).2, []) := by
  simp only [State.serveOp, hsession]

end

/-- The end of a session closes it, and leaves banks, fuses and the trial as they are. -/
@[simp] theorem State.fwEnd_owl (s : State) (code reason : Byte) (bank : Bool) (w : List Byte) :
    (s.fwEnd code reason bank w).owl.session = none ∧ (s.fwEnd code reason bank w).owl.bankA = s.owl.bankA ∧
    (s.fwEnd code reason bank w).owl.bankB = s.owl.bankB ∧ (s.fwEnd code reason bank w).owl.activeB = s.owl.activeB ∧
    (s.fwEnd code reason bank w).owl.trial = s.owl.trial := by
  have hraise : ∀ (u : State) page bit, (u.raise page bit).owl = u.owl := fun _ _ _ => rfl
  simp [State.fwEnd, hraise, State.logEvent_owl]

section
variable {u : State} {x : Session} (hsession : u.owl.session = some x)
include hsession

/-- An image with a flaw is refused, and the banks stand. -/
theorem State.fwFinish_refused {code : Byte} (hflaw : u.owl.imageFlaw x u.draws = some code) :
    u.fwFinish = (u.draw.fwEnd codeUpdate code (! u.owl.activeB) x.written, codeUpdate, [code]) := by
  simp [State.fwFinish, hsession, hflaw]

/-- A sound image is the trial of the bank that was not active. -/
theorem State.fwFinish_accepted (hflaw : u.owl.imageFlaw x u.draws = none) (hbank : x.sram = false) :
    ∃ v, u.fwFinish = (v, codeOk, []) ∧ v.owl.session = none ∧ v.owl.activeB = (! u.owl.activeB) ∧ v.owl.trial = true ∧
      (if u.owl.activeB then v.owl.bankA else v.owl.bankB).bytes = x.written ∧
      (if u.owl.activeB then v.owl.bankA else v.owl.bankB).valid = true := by
  refine ⟨_, by simp only [State.fwFinish, hsession, hflaw]; rfl, ?_⟩
  cases hb : u.owl.activeB <;> simp [State.bumpCounter, hbank, Owl.updBank]

end

theorem State.fwConfirm_confirms {u : State} (htrial : u.owl.trial = true) (hbank : u.power.bank = u.owl.activeB)
    (hbooted : u.owl.trialBooted = true) (hready : u.power.stage = 5) : u.fwConfirm = (u.updOwl fun o =>
      { o with trial := false, trialBooted := false, rollback := max o.rollback (min 64 o.runningRollback) }, codeOk) := by
  simp [State.fwConfirm, htrial, hbank, hbooted, State.isReady, hready]

theorem State.fwConfirm_refused {u : State} (h : u.owl.trial = false) : u.fwConfirm = (u, codeBad) := by
  simp [State.fwConfirm, h]

/-- Settles O52: each request by what it finds of the session, the image and the trial. -/
theorem firmwareUpdatesKeepTheirOrder : Obligations.FirmwareUpdatesKeepTheirOrder := by
  unfold Obligations.FirmwareUpdatesKeepTheirOrder
  rintro s ch r hheld hready horder hidle hup hflaw _ rfl
  have hkeep := fun (v : State) code data => (v.respond_own ch code data).firmware
  have hreplied := fun (v : State) code data => (v.respond_replied ch code data).settled
  refine ⟨fun hop => ?_, fun x hop hx => ?_, fun x hop hx hbank => ?_, fun hop => ?_, fun x hx herase hheldChunks => ?_⟩
  · obtain ⟨file, hrow⟩ := State.mailOp_served hop hheld hready horder hidle hup hflaw
    refine ⟨_, rfl, fun hlen hnone => ?_, fun hlen hopen => ?_, fun hlong => ?_⟩
    · obtain ⟨hcode, hsession, hbanks⟩ := State.fwOpen_opens (u := s.arrived ch r file) hlen hnone hready
      rw [hrow _ _ _ rfl, hcode]
      obtain ⟨hA, hB, -, -, -, hs, -⟩ := hkeep ((s.arrived ch r file).fwOpen (u32At (reqData r) 0)).1 codeOk []
      simp only [settle_fields, hA, hB, hs]
      exact ⟨hreplied _ _ _, hsession, hbanks⟩
    · rw [hrow _ _ _ rfl, State.fwOpen_busy (u := s.arrived ch r file) hlen hopen]
      exact ⟨hreplied _ _ _, (hkeep _ _ _).2.2.2.2.2.1⟩
    · rw [hrow _ _ _ rfl, State.fwOpen_tooLong (u := s.arrived ch r file) hlong]
      exact ⟨hreplied _ _ _, (hkeep _ _ _).2.2.2.2.2.1⟩
  · obtain ⟨file, hrow⟩ := State.mailOp_idle hop hheld hready horder hidle hup hflaw
    have hserve := State.serveOp_chunk (u := s.arrived ch r file) hx (d := reqData r) ch
    refine ⟨_, rfl, fun hmisplaced => ?_, fun hplaced hroom => ⟨fun herased => ?_, fun herasing => ?_⟩⟩
    · rw [State.fwWrite_misplaced (u := s.arrived ch r file) hx hmisplaced,
        if_neg (by simp [show codeBad ≠ codeOk by decide])] at hserve
      rw [hrow, State.servedRequest, hop, hserve]
      exact ⟨hreplied _ _ _, (hkeep _ _ _).2.2.2.2.2.1.trans hx⟩
    · rw [State.fwWrite_placed (u := s.arrived ch r file) hx hplaced hroom, if_neg (by simp [herased])] at hserve
      rw [hrow, State.servedRequest, hop, hserve]
      exact ⟨hreplied _ _ _, (hkeep _ _ _).2.2.2.2.2.1⟩
    · rw [State.fwWrite_placed (u := s.arrived ch r file) hx hplaced hroom, if_pos (by simp [herasing])] at hserve
      rw [hrow, State.servedRequest, hop, hserve]
      refine ⟨?_, ?_⟩
      · show ((s.owl.boxes.upd (chanIx ch) _).at' (chanIx ch)).busy = true
        rw [Bank.at'_upd_self]
      · show s.owl.session.map _ = _
        rw [hx]
        rfl
  · obtain ⟨file, hrow⟩ := State.mailOp_served hop hheld hready horder hidle hup hflaw
    refine ⟨_, rfl, ?_⟩
    cases hjudged : s.owl.imageFlaw x s.draws with
    | some reason =>
      have hfinish := State.fwFinish_refused (u := s.arrived ch r file) hx hjudged
      obtain ⟨hnone, hA, hB, hactive, -⟩ := State.fwEnd_owl (s.arrived ch r file).draw codeUpdate reason (! s.owl.activeB) x.written
      rw [hrow _ _ _ (congrArg some hfinish)]
      obtain ⟨kA, kB, kactive, -, -, ks, -⟩ := hkeep ((s.arrived ch r file).draw.fwEnd codeUpdate reason (! s.owl.activeB) x.written)
        codeUpdate [reason]
      refine ⟨ks.trans hnone, ?_, fun h => nomatch h⟩
      rintro _ ⟨⟩
      exact ⟨hreplied _ _ _, kA.trans hA, kB.trans hB, kactive.trans hactive⟩
    | none =>
      obtain ⟨v, hfinish, hnone, hactive, htrial, hbytes, hvalid⟩ :=
        State.fwFinish_accepted (u := s.arrived ch r file) hx hjudged hbank
      rw [hrow _ _ _ (congrArg some hfinish)]
      obtain ⟨kA, kB, kactive, ktrial, -, ks, -⟩ := hkeep v codeOk []
      simp only [settle_fields, kA, kB, kactive, ktrial, ks]
      exact ⟨hnone, fun _ h => (nomatch h), fun _ => ⟨hreplied _ _ _, hactive, htrial, hbytes, hvalid⟩⟩
  · obtain ⟨file, hrow⟩ := State.mailOp_served hop hheld hready horder hidle hup hflaw
    refine ⟨_, rfl, fun htrial hbank hbooted => ?_, fun htrial => ?_⟩
    · rw [hrow _ _ _ rfl, State.fwConfirm_confirms (u := s.arrived ch r file) htrial hbank hbooted hready]
      obtain ⟨-, -, -, ht, -, -, -, hr, -⟩ := hkeep ((s.arrived ch r file).updOwl fun o =>
        { o with trial := false, trialBooted := false, rollback := max o.rollback (min 64 o.runningRollback) }) codeOk []
      exact ⟨hreplied _ _ _, ht, hr⟩
    · rw [hrow _ _ _ rfl, State.fwConfirm_refused (u := s.arrived ch r file) htrial]
      exact ⟨hreplied _ _ _, (hkeep _ _ _).2.2.2.2.2.2.2.1⟩
  · refine ⟨_, rfl, ?_⟩
    simp only [settle_fields, State.eraseDone, hx, hheld, herase, Bool.not_true, Bool.or_self, Bool.false_eq_true, if_false, hheldChunks,
      State.forEach, List.foldl_nil, State.updOwl_owl]

end Sys2Proof.Machine
end

section
/-! SUPPORT. Temperature samples, the throttle's times and the refresh (17 R655 to R659, R665). -/
namespace Sys2Proof.Machine
open Sys2Proof
set_option Elab.async false

/-! ### The hottest sensor (17 R655) -/

/-- One sensor compared with the hottest of those before it. -/
def hotter (b : Option (Nat × Int)) (x : Int × Nat) : Option (Nat × Int) :=
  match b with
  | none => some (x.2, x.1)
  | some y => if y.2 < x.1 then some (x.2, x.1) else some y

theorem hottest_eq (js : List Int) : hottest js = ((js.zipIdx).foldl hotter none).getD (0, 0) := rfl

theorem foldl_hotter (l : List (Int × Nat)) (y : Nat × Int) : ∃ r, l.foldl hotter (some y) = some r ∧ y.2 ≤ r.2 ∧
    (∀ x ∈ l, x.1 ≤ r.2) ∧ (r = y ∨ (r.2, r.1) ∈ l) := by
  induction l generalizing y with
  | nil => exact ⟨y, rfl, le_refl _, by simp, .inl rfl⟩
  | cons x l ih =>
    have hstep : ∃ z, hotter (some y) x = some z ∧ y.2 ≤ z.2 ∧ x.1 ≤ z.2 ∧ (z = y ∨ z = (x.2, x.1)) := by
      unfold hotter
      dsimp only
      split
      next h => exact ⟨_, rfl, h.le, le_refl _, .inr rfl⟩
      next h => exact ⟨_, rfl, le_refl _, not_lt.mp h, .inl rfl⟩
    obtain ⟨z, hz, hy, hx, hwhich⟩ := hstep
    obtain ⟨r, hr, hzr, hall, hmem⟩ := ih z
    refine ⟨r, by rw [List.foldl_cons, hz, hr], hy.trans hzr, fun w hw => ?_, ?_⟩
    · obtain rfl | hw := List.mem_cons.mp hw
      · exact hx.trans hzr
      · exact hall w hw
    · obtain rfl | hmem := hmem
      · rcases hwhich with rfl | rfl
        · exact .inl rfl
        · exact .inr List.mem_cons_self
      · exact .inr (List.mem_cons_of_mem _ hmem)

/-- The hottest sensor reads what `hottest` says, and no sensor reads more. -/
theorem hottest_spec {js : List Int} (hjs : js ≠ []) :
    js[(hottest js).1]? = some (hottest js).2 ∧ ∀ j ∈ js, j ≤ (hottest js).2 := by
  obtain ⟨j, l, rfl⟩ := List.exists_cons_of_ne_nil hjs
  have hfirst : ((j :: l).zipIdx).foldl hotter none = (l.zipIdx 1).foldl hotter (some (0, j)) := rfl
  obtain ⟨r, hr, hle, hall, hmem⟩ := foldl_hotter (l.zipIdx 1) (0, j)
  rw [hottest_eq, hfirst, hr, Option.getD_some]
  have hin : ∀ x : Int × Nat, x ∈ (j :: l).zipIdx ↔ x = (j, 0) ∨ x ∈ l.zipIdx 1 := fun x => by
    rw [List.zipIdx_cons, List.mem_cons]
  refine ⟨?_, fun i hi => ?_⟩
  · have : (r.2, r.1) ∈ (j :: l).zipIdx := by
      rw [hin]
      exact hmem.imp (fun h => by rw [h]) id
    exact List.mem_zipIdx_iff_getElem?.mp this
  · obtain ⟨n, hn⟩ := List.mem_iff_getElem?.mp hi
    have hx : (i, n) ∈ (j :: l).zipIdx := List.mem_zipIdx_iff_getElem?.mpr hn
    obtain h | h := (hin _).mp hx
    · obtain ⟨rfl, -⟩ := Prod.mk.inj h
      exact hle
    · exact hall _ h

/-! ### The throttle (17 R655 to R657) -/

theorem State.requestLevel_own (s : State) (v : BitVec 2) : Touches [.frame, .clock] s (s.requestLevel v) :=
  State.requestLevel_touches s v (within_refl _) (Touches.refl _ _)

/-- A throttle's step leaves the level it asks for and its time. -/
theorem State.slowDown_power (s : State) : s.slowDown.power = { s.power with
    throttleLevel := if s.clock.current.toNat < 3 then s.clock.current + 1 else s.clock.current, stepAt := s.now } := by
  unfold State.slowDown
  dsimp only
  split <;> simp [(State.requestLevel_own _ _).power, *]

theorem State.slowDown_now (s : State) : s.slowDown.now = s.now :=
  (State.slowDown_touches s (within_refl _) (Touches.refl _ _)).now

theorem State.logHeat_power (s : State) (event severity : Nat) : (s.logHeat event severity).power = s.power := by
  simp [State.logHeat]

/-- A throttle that begins counts once. -/
theorem State.beginThrottle_power (s : State) : s.beginThrottle.power.throttle = true ∧
    s.beginThrottle.power.throttleCount = min 65535 (s.power.throttleCount + 1) ∧
    s.beginThrottle.power.junction = s.power.junction ∧ s.beginThrottle.power.sensor = s.power.sensor := by
  unfold State.beginThrottle
  simp [State.slowDown_power, State.logHeat_power, State.bumpCounter, sat16_eq_min]

theorem State.logHeat_junctions (s : State) (event severity : Nat) : (s.logHeat event severity).owl.junctions = s.owl.junctions := by
  simp [State.logHeat, State.logEvent_owl]

theorem State.watchThrottle_junctions (s : State) : s.watchThrottle.owl.junctions = s.owl.junctions := by
  have hslow : ∀ u : State, u.slowDown.owl.junctions = u.owl.junctions := fun u =>
    (State.slowDown_touches u (within_refl _) (Touches.refl _ _)).owl.2.2.2.2.1
  unfold State.watchThrottle
  dsimp only
  split_ifs
  · rfl
  · simp [State.beginThrottle, hslow, State.logHeat_junctions, State.bumpCounter]
  · rfl
  · rfl

/-- The throttle as a sample moves it: at THROTTLE_C or above it runs where it is enabled, and below it stands. -/
theorem State.watchThrottle_power (s : State) :
    s.watchThrottle.power.junction = s.power.junction ∧ s.watchThrottle.power.sensor = s.power.sensor ∧
    (s.throttleC ≤ s.power.junction → s.throttleEn = true → s.watchThrottle.power.throttle = true ∧
      s.watchThrottle.power.throttleCount = if s.power.throttle then s.power.throttleCount else min 65535 (s.power.throttleCount + 1)) ∧
    (s.power.junction < s.throttleC →
      s.watchThrottle.power.throttle = s.power.throttle ∧ s.watchThrottle.power.throttleCount = s.power.throttleCount) := by
  obtain ⟨hbegun, hcount, hjunction, hsensor⟩ := State.beginThrottle_power (s.updPower fun p => { p with overC := false })
  unfold State.watchThrottle
  dsimp only
  by_cases hhot : s.throttleC ≤ s.power.junction
  · cases hon : s.power.throttle with
    | true => simp [hhot, hon, not_lt.mpr hhot]
    | false =>
      cases hen : s.throttleEn with
      | true =>
        simp only [hhot, Bool.false_eq_true, if_true, if_false]
        exact ⟨hjunction, hsensor, fun _ _ => ⟨hbegun, hcount⟩, fun h => absurd h (not_lt.mpr hhot)⟩
      | false => simp [hhot, not_lt.mpr hhot]
  · simp [hhot]

/-! ### The trip (17 R658; 19 R722) -/

theorem State.packageFault_moves (s : State) (f : PkgFault → PkgFault) :
    Touches [.regs, .shadow, .dirty, .attn, .tWorld, .tQueues, .tCmds] (s.updFault f) (s.packageFault f) := by
  unfold State.packageFault
  refine Touches.forTenants (Touches.refl _ _) fun u t h => ?_
  refine State.updWorld_touches _ t _ (by decide) ?_
  exact State.completeAll_touches u t _ _ (by decide) h

theorem State.packageFault_fault (s : State) (f : PkgFault → PkgFault) : (s.packageFault f).fault = f s.fault :=
  (s.packageFault_moves f).fault

/-- The trip is a package fault with DRAM in self-refresh, once. -/
theorem State.watchTrip_effect (s : State) : s.watchTrip.power = s.power ∧ s.watchTrip.owl.junctions = s.owl.junctions ∧
    (1840 ≤ s.power.junction → s.watchTrip.fault.trip = true) ∧
    (s.power.junction < 1840 → s.watchTrip.fault = s.fault ∧ s.watchTrip.dram = s.dram) ∧
    (1840 ≤ s.power.junction → s.fault.trip = false → s.watchTrip.dram = { s.dram with selfRefresh := true }) := by
  unfold State.watchTrip
  by_cases hcool : s.power.junction < 1840
  · simp [hcool]
  · cases htripped : s.fault.trip with
    | true => simp [hcool, htripped]
    | false =>
      have k := ((((s.bumpCounter 13).logHeat 9 3).updDram fun d => { d with selfRefresh := true })).packageFault_moves
        fun f => { f with trip := true }
      simp only [hcool, decide_false, Bool.or_self, Bool.false_eq_true, if_false, k.power, k.fault, k.dram, State.updFault_fields,
        State.updFault_fault, State.updDram_fields, State.updDram_dram, State.logHeat_power]
      have hjunctions := k.owl.2.2.2.2.1
      simp only [State.updFault_fields, State.updDram_fields, State.logHeat_junctions] at hjunctions
      refine ⟨rfl, hjunctions, fun _ => trivial, fun h => h.elim, fun _ _ => ?_⟩
      simp [State.logHeat, State.bumpCounter]

/-- The readings kept and judged, before the throttle and the trip look at them: of what those read, the junction and the sensor moved. -/
theorem State.sampled (s : State) (js : Bank (BitVec 16) 12) (n : Nat) (j : Int) :
    ∀ u, u = ((s.updOwl fun o => { o with junctions := js }).updPower fun p => { p with junction := j, sensor := n }).judgeAlert →
      u.owl.junctions = js ∧ u.power.junction = j ∧ u.power.sensor = n ∧ u.power.throttle = s.power.throttle ∧
      u.power.throttleCount = s.power.throttleCount ∧ u.throttleC = s.throttleC ∧ u.throttleEn = s.throttleEn ∧ u.fault = s.fault ∧
      u.dram = s.dram := by
  rintro u rfl
  have k := State.judgeAlert_touches (((s.updOwl fun o => { o with junctions := js }).updPower fun p => { p with junction := j, sensor := n }))
    (within_refl _) (Touches.refl _ _)
  obtain ⟨-, -, -, -, -, hjunctions, b, hpower⟩ :=
    State.judgeAlert_keeps ((s.updOwl fun o => { o with junctions := js }).updPower fun p => { p with junction := j, sensor := n })
  rw [hpower, hjunctions]
  refine ⟨rfl, rfl, rfl, rfl, rfl, ?_, ?_, k.fault, k.dram⟩
  · simp only [State.throttleC, k.live]
    rfl
  · simp only [State.throttleEn, k.live]
    rfl

/-- Settles O47: the sample by `hottest_spec`, then the throttle and the trip as each moves the sampled state. -/
theorem samplesThrottleAndTrip : Obligations.SamplesThrottleAndTrip := by
  unfold Obligations.SamplesThrottleAndTrip
  intro s js hheld
  have hne : (js.toList.map fun j => j.toInt) ≠ [] := fun h => by
    have := congrArg List.length h
    simp at this
  obtain ⟨hhot, hmax⟩ := hottest_spec hne
  generalize hh : hottest (js.toList.map fun j => j.toInt) = h at hhot hmax
  have hrun : s.tempSample js = (((s.updOwl fun o => { o with junctions := js }).updPower fun p =>
      { p with junction := h.2, sensor := h.1 }).judgeAlert.watchThrottle).watchTrip := by
    simp [State.tempSample, hheld, hh]
  obtain ⟨hjs, hj, hn, hthrottle, hcount, hc, hen, hfault, hdram⟩ := s.sampled js h.1 h.2 _ rfl
  generalize ((s.updOwl fun o => { o with junctions := js }).updPower fun p => { p with junction := h.2, sensor := h.1 }).judgeAlert = u
    at hrun hjs hj hn hthrottle hcount hc hen hfault hdram
  obtain ⟨hjw, hnw, hhotw, hcoolw⟩ := u.watchThrottle_power
  obtain ⟨hpower, hjunctions, htrip, hcool, hrefresh⟩ := u.watchThrottle.watchTrip_effect
  have kw := State.watchThrottle_touches u (within_refl _) (Touches.refl _ _)
  rw [hjw, hj] at htrip hcool hrefresh
  rw [hj, hc, hen, hthrottle, hcount] at hhotw
  rw [hj, hc, hthrottle, hcount] at hcoolw
  refine ⟨_, rfl, ?_⟩
  simp only [settle_fields, hrun, hpower, hjunctions, hjw, hnw, hj, hn, u.watchThrottle_junctions, hjs]
  refine ⟨trivial, fun i => ?_, ?_, hhot, hhotw, hcoolw, htrip, fun h => ?_, fun h hnone => ?_⟩
  · exact hmax _ (List.mem_map_of_mem (by simp [Bank.at']))
  · have := (List.getElem?_eq_some_iff.mp hhot).1
    simpa using this
  · obtain ⟨hf, hd⟩ := hcool h
    exact ⟨hf.trans (kw.fault.trans hfault), hd.trans (kw.dram.trans hdram)⟩
  · rw [hrefresh h (by rw [kw.fault, hfault, hnone]), kw.dram, hdram]

/-! ### The throttle's times and the refresh (17 R655, R656, R659, R665) -/

theorem State.advanceTo_own (s : State) (T : Nat) : Touches [.now, .draws, .regs, .attn, .safe, .frame, .tSearch, .tSolver, .tSel, .tSched,
    .tOut, .bears, .jays, .cores, .dram, .cascade] s (s.advanceTo T) :=
  State.advanceTo_touches s T (within_refl _) (Touches.refl _ _)

/-- One step of restoring leaves its time, and ends restoring where the level stands at its end. -/
theorem State.restoreOne_effect (s : State) : s.restoreOne.now = s.now ∧ s.restoreOne.power =
    { s.power with stepAt := s.now, restoring := if s.clock.current = s.power.restoreLevel then false else s.power.restoring } := by
  refine ⟨(State.restoreOne_touches s (within_refl _) (Touches.refl _ _)).now, ?_⟩
  unfold State.restoreOne
  dsimp only
  by_cases hlevel : s.clock.current = s.power.restoreLevel
  · simp [hlevel]
  · simp [hlevel, (State.requestLevel_own _ _).power]

/-- Settles O48: each step after the time it waits for, and what that time leaves of the power state and the clock. -/
theorem throttleAndRefreshKeepTheirTimes : Obligations.ThrottleAndRefreshKeepTheirTimes := by
  unfold Obligations.ThrottleAndRefreshKeepTheirTimes
  intro s hheld
  refine ⟨fun hthrottle hhot hen hdeferred => ⟨_, rfl, ?_⟩, fun since hthrottle hcool => ⟨_, rfl, ?_⟩,
    fun hthrottle hrestoring => ⟨_, rfl, ?_⟩, fun hdet hframe at' hat => ⟨fun hbefore => ⟨_, rfl, ?_⟩, fun hafter => ?_⟩,
    ⟨_, rfl, rfl, rfl⟩, ⟨_, rfl, rfl, rfl⟩⟩
  · have k := s.advanceTo_own (s.power.stepAt + 10000)
    have hstep : s.throttleStep = (s.advanceTo (s.power.stepAt + 10000)).slowDown := by
      simp [State.throttleStep, hheld, hthrottle, not_lt.mpr hhot, hen, hdeferred]
    simp only [settle_fields, hstep, State.slowDown_power, State.slowDown_now, State.advanceTo_now, k.clock, k.power, hthrottle, and_self]
  · have k := s.advanceTo_own (since + 1000000)
    simp only [settle_fields, State.throttleEnd, hcool, hheld, hthrottle, Bool.not_true, Bool.or_self, Bool.false_eq_true, if_false,
      (State.restoreOne_effect _).1, (State.restoreOne_effect _).2, State.updFrame_fields, State.updPower_fields, State.updPower_power,
      State.advanceTo_now, k.clock, k.power, true_and]
    split <;> simp [*]
  · refine ⟨fun hlevel => ?_, fun hlevel => ?_⟩
    · simp [State.restoreStep, State.restoringNow, hheld, hthrottle, hrestoring, hlevel]
    · have k := s.advanceTo_own (s.power.stepAt + 1000000)
      have hstep : s.restoreStep = (s.advanceTo (s.power.stepAt + 1000000)).restoreOne := by
        simp [State.restoreStep, State.restoringNow, hheld, hthrottle, hrestoring, hlevel]
      simp only [settle_fields, hstep, (State.restoreOne_effect _).1, (State.restoreOne_effect _).2, State.advanceTo_now, and_self]
  · have hrefresh : s.dramRefresh = (s.advanceTo (s.frame.tickAt + at')).updFrame fun f => { f with refreshes := s.frame.refreshes + 1 } := by
      simp [State.dramRefresh, hheld, hdet, hframe, ← hat, Nat.not_le.mpr hbefore]
    simp only [settle_fields, hrefresh, State.updFrame_fields, State.updFrame_frame, State.advanceTo_now, true_and]
    intro hnothing
    rw [State.advanceTo_of_nothingDue hnothing, State.elapse_frame]
    exact ⟨rfl, (State.elapse_touches s _ (within_refl _) (Touches.refl _ _)).dram⟩
  · show Host.Outcome.next (settle s.dramRefresh) = _
    have hnone : s.dramRefresh = s := by
      simp [State.dramRefresh, hheld, hdet, hframe, ← hat, hafter]
    rw [hnone]

end Sys2Proof.Machine
end

section
/-! SUPPORT. Clock levels, switches, sources, the meter and the trim (16 R610 to R626). -/
namespace Sys2Proof.Machine
open Sys2Proof
set_option Elab.async false

/-! ### Levels and relocks (16 R616, R620, R621) -/

theorem Clock.switchAll_switches (c : Clock) (v : BitVec 2) : ∀ d v', (d, v') ∈ (c.switchAll v).switches → v' = v := by
  intro d v' h
  simp only [Clock.switchAll, List.mem_map, Prod.mk.injEq] at h
  obtain ⟨_, -, -, rfl⟩ := h
  rfl

/-- A level requested with the root in lock: deferred where D_6 is near, a relock otherwise. -/
theorem State.requestLevel_locked {s : State} {v : BitVec 2} (hrelock : s.clock.relock = none) (hlocked : s.clock.rootLocked = true)
    (hother : v ≠ s.clock.current) : s.requestLevel v =
      if s.frame.inFrame && s.deadlineAt 6 ≤ s.now + 400 then s.updClock fun c => { c with target := v, deferred := some v }
      else (s.updClock fun c => { c with target := v }).beginRelock v := by
  have hlock : s.clock.stable.getLsbD 4 = true := hlocked
  simp only [State.requestLevel, State.updClock_clock, hrelock, Option.isSome_none, Bool.false_eq_true, if_false, Clock.rootLocked, hlock, Bool.not_true,
    hother, State.updClock_fields, State.updClock_reads]
  rfl

/-- A request moves neither the level in force nor a source's state. -/
theorem State.requestLevel_keeps (s : State) (v : BitVec 2) :
    (s.requestLevel v).clock.current = s.clock.current ∧ (s.requestLevel v).clock.stable = s.clock.stable := by
  unfold State.requestLevel
  dsimp only
  split_ifs <;> exact ⟨rfl, rfl⟩

/-- The relock waits for its switches, or has ended on its target. -/
theorem State.stepRelock_returning {s : State} {r : Relock} (hrelock : s.clock.relock = some r) (hstep : r.step = .returning) :
    s.stepRelock.clock.stable = s.clock.stable ∧
    (s.stepRelock.clock.relock = some r ∨ s.stepRelock.clock.current = r.target) := by
  unfold State.stepRelock
  simp only [hrelock, hstep]
  split
  · exact ⟨rfl, .inl hrelock⟩
  · split
    · split
      · exact ⟨rfl, .inr rfl⟩
      · obtain ⟨hcurrent, hstable⟩ := State.requestLevel_keeps (s.endRelock r) ‹_›
        exact ⟨hstable, .inr hcurrent⟩
    · exact ⟨rfl, .inr rfl⟩

theorem State.stepRelock_none {s : State} (h : s.clock.relock = none) : s.stepRelock = s := by
  simp [State.stepRelock, h]

/-! ### Switches of a domain (16 R612 to R614) -/

theorem State.endSwitch_core (s : State) (on : BitVec 2) :
    (s.endSwitch .core on).clock = (s.clock.endSwitch .core on).noteHold s.now on ∧
    (s.endSwitch .core on).cores = s.cores.map s.accrueCore := ⟨rfl, rfl⟩
theorem State.endSwitch_other (s : State) {d : Domain} (h : d ≠ .core) (on : BitVec 2) :
    s.endSwitch d on = s.updClock fun c => c.endSwitch d on := by
  simp [State.endSwitch, h]

/-- A switch that ends leaves its clock selected and the relock as it was. -/
theorem State.endSwitch_clock (s : State) (d : Domain) (on : BitVec 2) : (s.endSwitch d on).clock.sel.at' (domainIx d) = on ∧
    (s.endSwitch d on).clock.relock = s.clock.relock ∧ (s.endSwitch d on).clock.stuck = s.clock.stuck ∧
    (s.endSwitch d on).clock.stuckCount = s.clock.stuckCount := by
  unfold State.endSwitch
  split
  · exact ⟨Bank.at'_put_self _ _ _, rfl, rfl, rfl⟩
  · exact ⟨Bank.at'_put_self _ _ _, rfl, rfl, rfl⟩

theorem State.muxSwitch_switching {s : State} {d : Domain} {v : BitVec 2} (hheld : s.held = false)
    (hfind : (s.clock.switches.find? fun x => x.1 = d) = some (d, v)) (hrelock : s.clock.relock = none) :
    s.muxSwitch d = s.endSwitch d v := by
  simp only [State.muxSwitch, hheld, hfind, Bool.false_eq_true, if_false]
  exact State.stepRelock_none ((s.endSwitch_clock d v).2.1.trans hrelock)

theorem State.muxWatchdog_switching {s : State} {d : Domain} {v : BitVec 2} (hheld : s.held = false)
    (hfind : (s.clock.switches.find? fun x => x.1 = d) = some (d, v)) (hrelock : s.clock.relock = none) {toggled : Bool}
    {on : BitVec 2} (hon : (if toggled then v else 2) = on) : (s.muxWatchdog d toggled).clock = { (s.endSwitch d on).clock with
      stuck := s.clock.stuck ||| BitVec.ofNat 5 (2 ^ (domainIx d).val), stuckCount := sat16 s.clock.stuckCount } := by
  obtain ⟨-, hkept, hstuck, hcount⟩ := s.endSwitch_clock d on
  have k := fun u : State => (State.domainReset_touches u d (within_refl _) (Touches.refl _ _)).clock
  have hraise : ∀ (u : State) page bit, (u.raise page bit).clock = u.clock := fun _ _ _ => rfl
  simp only [State.muxWatchdog, hheld, hfind, hon, Bool.false_eq_true, if_false]
  rw [State.stepRelock_none (by simp [k, hraise, hkept, hrelock])]
  simp [k, hraise, hstuck, hcount]

/-! ### Sources (16 R610, R611) -/

/-- The bits of the sources that a write disables, one by one. -/
theorem getLsbD_goneSources (p : Nat → Bool) : ∀ b ∈ (List.range 7).filter p,
    (BitVec.ofNat 7 (nsum (((List.range 7).filter p).map (2 ^ ·)))).getLsbD b = true := by
  have hall : ∀ l ∈ (List.range 7).sublists, ∀ b ∈ l, (BitVec.ofNat 7 (nsum (l.map (2 ^ ·)))).getLsbD b = true := by decide +kernel
  exact hall _ (List.mem_sublists.mpr List.filter_sublist)

/-- A source that is not on its way up again is stable, or fails, by its bit alone. -/
theorem State.rootStable_boot {s : State} (hlost : s.clock.refLost = false) (hrelock : s.clock.relock = none)
    (hstart : s.mayStart 4 = true) (hseen : s.clock.lockSeen = true) :
    s.rootStable = s.updClock fun c => ({ c with current := c.target }.offer 4).switchAll 3 := by
  simp [State.rootStable, hlost, hrelock, hstart, hseen]

/-! ### The meter and the trim (16 R623 to R626) -/

/-- A bit set above a field leaves the field. -/
theorem bits_or_two_pow (x : Nat) {k hi lo : Nat} (h : hi < k) (hlo : lo ≤ hi) : bits (x ||| 2 ^ k) hi lo = bits x hi lo := by
  have hzero : (2 ^ k >>> lo) % 2 ^ (hi + 1 - lo) = 0 := by
    rw [Nat.shiftRight_eq_div_pow, Nat.pow_div (by omega) (by decide)]
    exact Nat.mod_eq_zero_of_dvd (Nat.pow_dvd_pow 2 (by omega))
  simp only [bits, Nat.shiftRight_or_distrib, Nat.or_mod_two_pow, hzero, Nat.or_zero]

theorem bit_or_two_pow (x k : Nat) : bit (x ||| 2 ^ k) k = true := by
  simp [bit_eq_testBit, Nat.testBit_or]

/-- Settles O49: each operation by the lemma of its case. -/
theorem clocksSwitchMeterAndTrim : Obligations.ClocksSwitchMeterAndTrim := by
  unfold Obligations.ClocksSwitchMeterAndTrim
  refine ⟨fun s hheld => ⟨fun w v hctl hpin hadaptive hthrottle hrelock hlocked hother => ⟨_, rfl, ?_⟩,
      fun d v hfind hrelock => ⟨⟨_, rfl, ?_⟩, fun toggled => ⟨_, rfl, ?_⟩⟩,
      fun r hlost hstart hrelock => ⟨fun hstep => ⟨_, rfl, ?_⟩, fun hstep hseen => ⟨_, rfl, ?_⟩⟩,
      fun hlost hrelock hstart hseen => ⟨_, rfl, ?_⟩, fun x hstart => ⟨_, rfl, ?_⟩, fun b hstart => ⟨_, rfl, ?_, ?_⟩,
      fun w v hctl off hoff => ⟨_, rfl, ?_, ?_⟩, fun hlost hroot => ⟨_, rfl, ?_⟩⟩,
    fun s hheld => ⟨fun w v hctl hn hmax htarget href hmode => ⟨_, rfl, ?_⟩, fun n hbusy => ⟨_, rfl, ?_⟩,
      fun w v hctl href => ⟨_, rfl, ?_⟩, fun n hbusy hn => ⟨_, rfl, ?_⟩, fun hbusy => ⟨_, rfl, ?_⟩⟩⟩
  · have hrequest : s.writeTarget w v = s.requestLevel v := by
      simp [State.writeTarget, hctl, hpin, hadaptive, hthrottle]
    simp only [settle_fields, hrequest, State.requestLevel_locked hrelock hlocked hother]
    by_cases hnear : s.frame.inFrame = true ∧ s.deadlineAt 6 ≤ s.now + 400
    · rw [if_pos (by simpa using hnear)]
      exact ⟨rfl, rfl, fun _ _ => ⟨rfl, hrelock⟩, fun h => absurd hnear (by rcases h with h | h <;> simp [h, Nat.not_le.mpr])⟩
    · rw [if_neg (by simpa using hnear)]
      exact ⟨rfl, rfl, fun hin hd => absurd ⟨hin, hd⟩ hnear, fun _ => ⟨rfl, Clock.switchAll_switches _ 2⟩⟩
  · simp only [settle_fields, State.muxSwitch_switching hheld hfind hrelock]
    refine ⟨fun hd => ?_, fun hd => ?_⟩
    · rw [State.endSwitch_other s hd]
      exact ⟨rfl, rfl⟩
    · subst hd
      exact s.endSwitch_core v
  · simp only [settle_fields, State.muxWatchdog_switching hheld hfind hrelock rfl, sat16_eq_min, and_self, and_true]
    exact (s.endSwitch_clock d _).1
  · simp [State.lockDetect, hlost, hstart, hrelock, hstep]
  · have hstable : s.pllStable .root = (s.updClock fun c =>
        ({ c with relock := some { r with step := .returning } }.offer 4).switchAll 3).stepRelock := by
      simp [State.pllStable, State.rootStable, hlost, hstart, hrelock, hstep, hseen]
    obtain ⟨hsources, hend⟩ := State.stepRelock_returning (s := s.updClock fun c =>
      ({ c with relock := some { r with step := .returning } }.offer 4).switchAll 3) rfl rfl
    simp only [settle_fields, hstable]
    refine ⟨?_, hend⟩
    rw [Clock.rootLocked, hsources]
    simp [Clock.switchAll, Clock.offer]
  · simp only [settle_fields, State.pllStable, State.rootStable_boot hlost hrelock hstart hseen]
    refine ⟨rfl, ?_⟩
    simp [Clock.rootLocked, Clock.switchAll, Clock.offer]
  · simp [State.sourceStable, hstart, Clock.offer]
  · intro hfree
    have : (decide (b.val = 4) && s.clock.relock.isSome) = false := by rcases hfree with h | h <;> simp [h]
    simp [State.startTimeout, hstart, this]
  · intro h4 hrunning
    simp [State.startTimeout, h4, Option.isSome_iff_ne_none.mpr hrunning]
  · intro huse
    have hrefused : s.writeSrcEn w v.toNat = s.recordDirect w 0x01 0x108 codeInvalid := by
      simp [State.writeSrcEn, hctl, ← hoff, huse]
    have k := State.recordDirect_touches s w 0x01 0x108 codeInvalid (within_refl _) (Touches.refl _ _)
    simp only [settle_fields, settle_reads, hrefused, k.clock, k.live, and_self]
  · intro huse _
    have hwrite : s.writeSrcEn w v.toNat = (s.updClock fun c => { c with
        stable := c.stable &&& ~~~ BitVec.ofNat 7 (nsum (off.map (2 ^ ·))), fail := c.fail &&& ~~~ BitVec.ofNat 7 (nsum (off.map (2 ^ ·)))
        lockSeen := c.lockSeen && ! off.contains 4 }).setLive 0x01 0x108 (v.toNat % 128) := by
      simp only [State.writeSrcEn, hctl, ← hoff, huse, Bool.not_true, Bool.false_eq_true, if_false]
    simp only [settle_fields, settle_reads, hwrite, State.live_setLive_self, State.setLive_fields, State.updClock_clock]
    refine ⟨by omega, fun b hb => ?_⟩
    rw [hoff] at hb
    have hgone := getLsbD_goneSources _ b hb
    rw [← hoff] at hgone
    have hb7 : b < 7 := by simpa using (List.mem_filter.mp hb).1
    simp [hgone, hb7]
  · have hlose : s.loseReference = ((s.updClock fun c =>
        { c.switchAll 2 with refLost := true, lockSeen := false, stable := c.stable &&& 0x0F#7 }).logEvent 0x01 7 3 0 0xFF []).packageFault
          fun f => { f with refLost := true } := by
      simp [State.loseReference, hheld, hlost, hroot]
    have k := fun (u : State) => u.packageFault_moves fun f => { f with refLost := true }
    simp only [settle_fields, hlose, State.packageFault_fault, (k _).clock, State.updFault_fields, State.logEvent_fields,
      State.updClock_clock, true_and]
    exact ⟨rfl, Clock.switchAll_switches s.clock 2⟩
  · have hN : bits (v.toNat ||| 0x10000) 4 0 = bits v.toNat 4 0 := bits_or_two_pow (k := 16) _ (by decide) (by decide)
    have hT : bits (v.toNat ||| 0x10000) 11 8 = bits v.toNat 11 8 := bits_or_two_pow (k := 16) _ (by decide) (by decide)
    have hR : bits (v.toNat ||| 0x10000) 13 12 = bits v.toNat 13 12 := bits_or_two_pow (k := 16) _ (by decide) (by decide)
    have hgo : bit (v.toNat ||| 0x10000) 16 = true := bit_or_two_pow v.toNat 16
    simp [State.writeMeter, hctl, hN, hT, hR, hgo, hn, hmax, htarget, href, hmode]
  · simp [State.endMeter, hheld, hbusy]
  · have hR : bits (v.toNat ||| 0x10) 1 0 = bits v.toNat 1 0 := bits_or_two_pow (k := 4) _ (by decide) (by decide)
    have hgo : bit (v.toNat ||| 0x10) 4 = true := bit_or_two_pow v.toNat 4
    simp only [settle_fields, State.writeTrimCtrl, hctl, hR, href, hgo, Bool.not_true, Bool.false_eq_true, if_false, if_true,
      State.updClock_clock, Clock.startTrim, true_and, and_true]
    rw [← hR, BitVec.toNat_ofNat]
    rfl
  · simp only [settle_fields, State.trimStep, hheld, hbusy, hn, Bool.not_true, decide_false, Bool.or_self, Bool.false_eq_true, if_false,
      State.updClock_clock, true_and]
    refine ⟨?_, ?_, ?_⟩
    · split <;> omega
    · simp
    · simp
  · simp only [settle_fields, State.trimTimeout, hheld, hbusy, Bool.not_true, Bool.or_self, Bool.false_eq_true, if_false]
    exact ⟨rfl, rfl, settle_latch _ _ _ (State.raise_latch _ _ (by decide))⟩

end Sys2Proof.Machine
end

section
/-! SUPPORT. The views of a unit: what an update, a loss and a reset leave of them (13 R514, R515; 17 R647, R648). -/
namespace Sys2Proof.Machine
open Sys2Proof
set_option Elab.async false

/-! ### One unit's views updated -/

theorem Bank.at'_bupd_self {α : Type} {n : Nat} (b : Bank α n) {i : Nat} (h : i < n) (f : α → α) :
    (bupd b i f).at' ⟨i, h⟩ = f (b.at' ⟨i, h⟩) := by
  rw [bupd, dif_pos h, Bank.at'_upd_self]
theorem Bank.at'_bupd_ne {α : Type} {n : Nat} (b : Bank α n) {i : Nat} {j : Fin n} (h : i ≠ j.val) (f : α → α) :
    (bupd b i f).at' j = b.at' j := by
  unfold bupd
  split
  · exact Bank.at'_upd_ne _ (fun e => h (by rw [← e])) _
  · rfl

/-- The view of a bank's unit, where the bank has it, after an update of that unit or of another one. -/
theorem bankView_self {α : Type} {n : Nat} (b : Bank α n) {g : α → View} {u : α → α} {f : View → View} (hu : ∀ a, g (u a) = f (g a))
    {i : Nat} {v : View} (h : (if hi : i < n then some (g (b.at' ⟨i, hi⟩)) else none) = some v) :
    (if hi : i < n then some (g ((bupd b i u).at' ⟨i, hi⟩)) else none) = some (f v) := by
  split at h
  next hi => rw [dif_pos hi, Bank.at'_bupd_self b hi, hu, Option.some.inj h]
  next => cases h
theorem bankView_ne {α : Type} {n : Nat} (b : Bank α n) (g : α → View) (u : α → α) {i j : Nat} (h : i ≠ j) :
    (if hj : j < n then some (g ((bupd b i u).at' ⟨j, hj⟩)) else none) = if hj : j < n then some (g (b.at' ⟨j, hj⟩)) else none := by
  split
  next hj => rw [Bank.at'_bupd_ne b (j := ⟨j, hj⟩) h]
  next => rfl

theorem Chip.nCores_le (c : Chip) : c.nCores ≤ 48 := by
  unfold Chip.nCores
  split <;> decide

/-- A core of the grade shows its own view. -/
theorem State.view_core (s : State) {n : Nat} (h : n < s.chip.nCores) :
    s.view .core n = some (s.cores.at' ⟨n, lt_of_lt_of_le h s.chip.nCores_le⟩).view := by
  have h48 := lt_of_lt_of_le h s.chip.nCores_le
  simp [State.view, h, bget, h48, Bank.at']

/-- A unit has views exactly where the grade contains it. -/
theorem State.view_eq_none_iff (s : State) (k : UnitKind) (n : Nat) : s.view k n = none ↔ s.unitCount k ≤ n := by
  cases k with
  | bear =>
    simp [State.view, State.unitCount]
    omega
  | _ => simp [State.view, State.unitCount]

theorem State.view_lt {s : State} {k : UnitKind} {n : Nat} {v : View} (h : s.view k n = some v) : n < s.unitCount k := by
  by_contra hn
  rw [(s.view_eq_none_iff k n).mpr (not_lt.mp hn)] at h
  cases h

theorem State.view_updView_self {s : State} {k : UnitKind} {n : Nat} {v : View} (h : s.view k n = some v) (f : View → View) :
    (s.updView k n f).view k n = some (f v) := by
  have hlt := State.view_lt h
  cases k with
  | core =>
    rw [State.view_core s hlt] at h
    rw [State.view_core _ (by exact hlt), ← Option.some.inj h]
    exact congrArg some (congrArg Core.view (Bank.at'_bupd_self s.cores _ _))
  | badger => exact bankView_self s.engines (g := (·.view)) (fun _ => rfl) h
  | bear => exact bankView_self s.bears (g := (·.view)) (fun _ => rfl) h
  | jay => exact bankView_self s.jays (g := (·.view)) (fun _ => rfl) h
  | front => exact bankView_self s.fronts (g := (·.view)) (fun _ => rfl) h

theorem State.view_updView_ne (s : State) {j k : UnitKind} {m n : Nat} (h : (j, m) ≠ (k, n)) (f : View → View) :
    (s.updView k n f).view j m = s.view j m := by
  by_cases hkind : j = k
  · subst hkind
    have hne : n ≠ m := fun e => h (by rw [e])
    cases j with
    | core =>
      by_cases hm : m < s.chip.nCores
      · rw [State.view_core s hm, State.view_core _ (by exact hm)]
        exact congrArg some (congrArg Core.view (Bank.at'_bupd_ne s.cores hne _))
      · rw [(s.view_eq_none_iff .core m).mpr (not_lt.mp hm)]
        exact ((s.updView .core n f).view_eq_none_iff .core m).mpr (not_lt.mp hm)
    | badger => exact bankView_ne s.engines (·.view) _ hne
    | bear => exact bankView_ne s.bears (·.view) _ hne
    | jay => exact bankView_ne s.jays (·.view) _ hne
    | front => exact bankView_ne s.fronts (·.view) _ hne
  · cases k <;> cases j <;> first | rfl | exact absurd rfl hkind

/-! ### A view set, with what a loss leaves (13 R514, R518, R520) -/

/-- The views after one was set: the unit's new ones, with its joining ended where it stopped being usable, and no other's moved. -/
theorem State.setView_views {s : State} {k : UnitKind} {n : Nat} {v : View} (h : s.view k n = some v) (f : View → View) :
    (s.setView k n f).view k n = some { f v with joined := (f v).joined && ! (v.usable && ! (f v).usable) } ∧
    ∀ j m, (j, m) ≠ (k, n) → (s.setView k n f).view j m = s.view j m := by
  have hrest : SameViews (s.updView k n fun _ => { f v with joined := (f v).joined && ! (v.usable && ! (f v).usable) }) (s.setView k n f) := by
    unfold State.setView
    simp only [h]
    have hlog : ∀ u : State, SameViews u (if (f v).mismatch && ! v.mismatch then u.logMismatch k n (f v) else u) := fun u => by
      split
      · exact SameViews.of_touches (State.logMismatch_touches u k n (f v) (within_refl _) (Touches.refl _ _))
      · exact SameViews.refl u
    refine SameViews.trans ?_ (hlog _)
    split
    · refine SameViews.trans (SameViews.forEach (fun u t => ?_) _) (State.workLost_views _ _ _ _)
      split
      · exact SameViews.of_touches (l := [.attn, .tOut]) (State.noteTiming_touches _ t 4 (by decide) (State.raise_touches u _ 4 (by decide) (Touches.refl _ _)))
      · exact SameViews.refl u
    · exact SameViews.refl _
  refine ⟨?_, fun j m hother => ?_⟩
  · rw [hrest.same, State.view_updView_self h]
  · rw [hrest.same, State.view_updView_ne s hother]

/-! ### The reset of a unit (17 R647, R648) -/

theorem State.clearWork_views (s : State) (k : UnitKind) (n : Nat) : SameViews s (s.clearWork k n) := by
  cases k with
  | core => exact SameViews.updCore s n _ fun _ => rfl
  | badger => exact SameViews.updEngine s n _ fun _ => rfl
  | bear => exact SameViews.updBear s n _ fun _ => rfl
  | jay => exact SameViews.updJay s n _ fun _ => rfl
  | front => exact SameViews.refl s

theorem State.updPower_views (s : State) (f : Power → Power) : SameViews s (s.updPower f) :=
  ⟨fun k _ => by cases k <;> rfl⟩

theorem settle_views (s : State) : SameViews s (settle s) := ⟨fun k _ => by cases k <;> rfl⟩

theorem State.resetRegs_views (s : State) (page lo hi : Nat) : SameViews s (s.resetRegs page lo hi) :=
  SameViews.of_touches (State.resetRegs_touches s page lo hi (within_refl _) (Touches.refl _ _))

theorem State.clearStore_views (s : State) (k : UnitKind) (n : Nat) : SameViews s (s.clearStore k n) := by
  cases k with
  | core => exact (SameViews.updCore s n (fun c => { c with store := [] }) fun _ => rfl).trans (State.resetRegs_views _ _ _ _)
  | badger =>
    refine SameViews.trans (SameViews.forEach (fun u t => ?_) s) (State.resetRegs_views _ _ _ _)
    exact (State.updTenant_views u t _).trans
      (SameViews.of_touches (State.judgeImminent_touches _ t (within_refl _) (Touches.refl _ _)))
  | bear => exact SameViews.refl s
  | jay => exact SameViews.refl s
  | front => exact SameViews.refl s

/-- A unit whose reset begins is DOWN for Beaver, does not rejoin, and no other unit's views move. -/
theorem State.beginUnitReset_views {s : State} {k : UnitKind} {n : Nat} {v : View} (h : s.view k n = some v) :
    (s.beginUnitReset k n).view k n = some { v with beaverUp := false, rejoin := false, joined := v.joined && ! v.usable } ∧
    ∀ j m, (j, m) ≠ (k, n) → (s.beginUnitReset k n).view j m = s.view j m := by
  have hrest : SameViews (s.setView k n fun v => { v with beaverUp := false, rejoin := false }) (s.beginUnitReset k n) :=
    (State.clearWork_views _ k n).trans (State.updPower_views _ fun p => { p with unitBusy := some (k, n) })
  obtain ⟨hself, hother⟩ := State.setView_views h fun v => { v with beaverUp := false, rejoin := false }
  refine ⟨?_, fun j m hne => (hrest.same j m).trans (hother j m hne)⟩
  rw [hrest.same, hself]
  simp [View.usable]

/-- Its queues and its work in hand are cleared. -/
theorem State.beginUnitReset_cleared (s : State) (k : UnitKind) {n : Nat} (h : n < s.unitCount k) :
    (k = .core → ((s.beginUnitReset k n).core n).ready = [] ∧ ((s.beginUnitReset k n).core n).run = none) ∧
    (k = .badger → (bget Engine.reset (s.beginUnitReset k n).engines n).queue = [] ∧
      (bget Engine.reset (s.beginUnitReset k n).engines n).current = none) ∧
    (k = .bear → ((s.beginUnitReset k n).bear n).solve = none) ∧
    (k = .jay → ((s.beginUnitReset k n).jay n).queue = [] ∧ ((s.beginUnitReset k n).jay n).run = none) := by
  generalize hu : (s.setView k n fun v => { v with beaverUp := false, rejoin := false }) = u
  have hreset : s.beginUnitReset k n = (u.clearWork k n).updPower fun p => { p with unitBusy := some (k, n) } := by
    rw [← hu]
    rfl
  rw [hreset]
  refine ⟨?_, ?_, ?_, ?_⟩
  · rintro rfl
    have h48 : n < 48 := lt_of_lt_of_le h s.chip.nCores_le
    simp only [State.core, State.clearWork, State.updPower_fields, State.updCore, bget_bupd_self _ _ h48, and_self]
  · rintro rfl
    have h16 : n < 16 := h
    simp only [State.clearWork, State.updPower_fields, State.updEngine, bget_bupd_self _ _ h16, and_self]
  · rintro rfl
    have h2 : n < 2 := h
    simp only [State.bear, State.clearWork, State.updPower_fields, State.updBear, bget_bupd_self _ _ h2]
  · rintro rfl
    have h4 : n < 4 := h
    simp only [State.jay, State.clearWork, State.updPower_fields, State.updJay, bget_bupd_self _ _ h4, and_self]

/-- A reset asked for while one runs, of an unassigned kind or of no unit of the grade, is CONFIG_INVALID. -/
theorem State.unitReset_refused {s : State} {w : Writer} {kind index : Nat} (hctl : s.isCtl w = true)
    (h : s.power.unitBusy ≠ none ∨ ∀ k, kindOf kind = some k → s.view k index = none) :
    s.unitReset w kind index = s.recordDirect w 0x02 0x10C codeInvalid := by
  simp only [State.unitReset, hctl, Bool.not_true, Bool.false_eq_true, if_false]
  cases hbusy : s.power.unitBusy with
  | some b => rfl
  | none =>
    have hkind := h.resolve_left (by simp [hbusy])
    cases hk : kindOf kind with
    | none => rfl
    | some k =>
      have hcount := (s.view_eq_none_iff k index).mp (hkind k hk)
      simp only [Nat.not_lt.mpr hcount, if_false]

/-- Settles O42: a lost unit by `setView_views`, its reset by `beginUnitReset`, and the reset's end by what `clearStore` leaves. -/
theorem unitsLeaveAndReturn : Obligations.UnitsLeaveAndReturn := by
  unfold Obligations.UnitsLeaveAndReturn
  intro s hheld
  refine ⟨fun k n v hview => ⟨_, rfl, ?_⟩, fun w kind index hctl => ⟨fun k v hidle hkind hview => ⟨_, rfl, ?_⟩, fun hrefused => ⟨_, rfl, ?_⟩⟩,
    fun k n v hbusy hqueue hview => ⟨(((s.clearStore k n).updView k n fun v => { v with rejoin := true }).updPower fun p =>
      { p with unitBusy := none, unitResult := codeOk }).raise 0x02 2, ?_, ?_, ?_, ?_, State.raise_latch _ _ (by decide)⟩⟩
  · obtain ⟨hself, hother⟩ := State.setView_views hview fun v => { v with beaverUp := false }
    have hrun : s.ackTimeout k n = s.setView k n fun v => { v with beaverUp := false } := by
      simp [State.ackTimeout, hheld]
    simp only [(settle_views _).same, hrun]
    refine ⟨?_, hother⟩
    rw [hself]
    simp [View.usable]
  · have hlt := State.view_lt hview
    have hrun : s.unitReset w kind.toNat index.toNat = s.beginUnitReset k index.toNat := by
      simp [State.unitReset, hctl, hidle, hkind, hlt]
    obtain ⟨hself, hother⟩ := State.beginUnitReset_views hview
    simp only [(settle_views _).same, hrun, settle_fields, settle_reads]
    exact ⟨rfl, hself, hother, s.beginUnitReset_cleared k hlt⟩
  · have k := State.recordDirect_touches s w 0x02 0x10C codeInvalid (within_refl _) (Touches.refl _ _)
    simp only [(settle_views _).same, settle_fields, settle_attn_keeps, State.unitReset_refused hctl hrefused, k.power, true_and]
    exact ⟨(SameViews.of_touches k).same, State.recordDirect_lastResult s w _ _ (by decide)⟩
  · show Host.Outcome.next (settle s.unitResetDone) = _
    have kstore := State.clearStore_touches s k n (within_refl _) (Touches.refl _ _)
    have kview := State.updView_touches (s.clearStore k n) k n (fun v => { v with rejoin := true }) (within_refl _) (Touches.refl _ _)
    have hnone : ((((s.clearStore k n).updView k n fun v => { v with rejoin := true }).updPower fun p =>
        { p with unitBusy := none, unitResult := codeOk }).raise 0x02 2).power.unitQueue = [] :=
      (congrArg Power.unitQueue (kview.power.trans kstore.power)).trans hqueue
    simp only [State.unitResetDone, hbusy, hheld, Bool.false_eq_true, if_false, hnone]
  · have kstore := State.clearStore_touches s k n (within_refl _) (Touches.refl _ _)
    have kview := State.updView_touches (s.clearStore k n) k n (fun v => { v with rejoin := true }) (within_refl _) (Touches.refl _ _)
    show { ((s.clearStore k n).updView k n fun v => { v with rejoin := true }).power with unitBusy := none, unitResult := codeOk } = _
    rw [kview.power, kstore.power]
  · have hstore : (s.clearStore k n).view k n = some v := ((State.clearStore_views s k n).same k n).trans hview
    have hrest := (State.updPower_views ((s.clearStore k n).updView k n fun v => { v with rejoin := true }) fun p =>
      { p with unitBusy := none, unitResult := codeOk }).trans
        (SameViews.of_touches (State.raise_touches _ 0x02 2 (within_refl _) (Touches.refl _ _)))
    rw [hrest.same, State.view_updView_self hstore]
  · intro j m hne
    have hrest := (State.updPower_views ((s.clearStore k n).updView k n fun v => { v with rejoin := true }) fun p =>
      { p with unitBusy := none, unitResult := codeOk }).trans
        (SameViews.of_touches (State.raise_touches _ 0x02 2 (within_refl _) (Touches.refl _ _)))
    rw [hrest.same, State.view_updView_ne _ hne, (State.clearStore_views s k n).same]

end Sys2Proof.Machine
end

section
/-! SUPPORT. Uncorrectable errors of storage: what the fault of a unit leaves of its views, and where an error of each other storage
stays (19 R724, R725). -/
namespace Sys2Proof.Machine
open Sys2Proof
set_option Elab.async false

/-! ### A unit's internal fault (19 R724, R725) -/

theorem State.updOwl_views (s : State) (f : Owl → Owl) : SameViews s (s.updOwl f) := ⟨fun k _ => by cases k <;> rfl⟩

/-- A unit that Owl fences has its view FENCED, and nothing else of it but its joining moves. -/
theorem State.fenceUnit_view {s : State} {k : UnitKind} {n : Nat} {v : View} (h : s.view k n = some v) (channel : Nat) :
    ∃ j, (s.fenceUnit k n channel).view k n = some { v with owl := .fenced, joined := j } := by
  generalize hu : (s.updOwl fun o => if s.owl.fences.contains (k, n) then o else { o with fences := o.fences ++ [(k, n)] }) = u
  have hview : u.view k n = some v := by
    rw [← hu, (State.updOwl_views s _).same, h]
  refine ⟨_, Eq.trans (SameViews.same ?_ k n) (State.setView_views hview fun v => { v with owl := .fenced }).1⟩
  unfold State.fenceUnit
  simp only [hu]
  have hlog := SameViews.of_touches (State.logEvent_touches (u.setView k n fun v => { v with owl := .fenced }) (unitPage k n) 4 1 0 n
    (([UnitKind.code k, n, channel] : List Nat).map fun x => BitVec.ofNat 8 x) (within_refl _) (Touches.refl _ _))
  split
  · exact hlog
  · exact hlog.trans (SameViews.of_touches (State.raise_touches _ 0x0F 4 (within_refl _) (Touches.refl _ _)))

/-- What an uncorrectable error leaves of a unit whose views were `v`: DOWN for Beaver, counted, and at the fourth fenced. -/
def UeTaken (v : View) (k : UnitKind) (n : Nat) (t : State) : Prop :=
  ∃ v', t.view k n = some v' ∧ v'.beaverUp = false ∧ v'.ueCount = v.ueCount + 1 ∧
    (v.ueCount = 3 → v'.owl = .fenced ∧ (k, n) ∈ t.owl.fences)

/-- An error of a unit that is DOWN for Beaver counts, and at the fourth it is fenced. -/
theorem State.countUe_taken {s : State} {k : UnitKind} {n : Nat} {v : View} (h : s.view k n = some v) (hdown : v.beaverUp = false) :
    UeTaken v k n (s.countUe k n).1 ∧ (v.ueCount = 3 → (s.countUe k n).2 = true) := by
  have hcount := State.view_updView_self h fun v => { v with ueCount := v.ueCount + 1 }
  unfold State.countUe
  simp only [hcount]
  by_cases h4 : v.ueCount + 1 = 4
  · obtain ⟨j, hj⟩ := State.fenceUnit_view hcount 0xFF
    simp only [h4, if_true, implies_true, and_true]
    exact ⟨_, hj, hdown, rfl, fun _ => ⟨rfl, State.fenceUnit_fences _ k n 0xFF⟩⟩
  · simp only [h4, if_false]
    exact ⟨⟨_, hcount, hdown, rfl, fun h3 => absurd (congrArg (· + 1) h3) h4⟩, fun h3 => absurd (congrArg (· + 1) h3) h4⟩

/-- A unit reset asked for by Owl leaves the unit's views but for its joining. -/
theorem State.owlUnitReset_view {s : State} {k : UnitKind} {n : Nat} {v : View} (h : s.view k n = some v) :
    ∃ v', (s.owlUnitReset k n).view k n = some v' ∧ (v.beaverUp = false → v'.beaverUp = false) ∧ v'.ueCount = v.ueCount := by
  unfold State.owlUnitReset
  split
  · exact ⟨_, (State.beginUnitReset_views h).1, fun _ => rfl, rfl⟩
  · exact ⟨v, ((State.updPower_views s _).same k n).trans h, id, rfl⟩

theorem State.internalFault_taken {s : State} {k : UnitKind} {n : Nat} {v : View} (h : s.view k n = some v) :
    UeTaken v k n (s.internalFault k n) := by
  have hdown := (State.setView_views h fun v => { v with beaverUp := false }).1
  obtain ⟨htaken, hfenced⟩ := State.countUe_taken hdown rfl
  unfold State.internalFault
  dsimp only
  split
  · exact htaken
  next hnot =>
    obtain ⟨w, hw, hbeaver, hue, -⟩ := htaken
    obtain ⟨v', hv', hbeaver', hue'⟩ := State.owlUnitReset_view hw
    exact ⟨v', hv', hbeaver' hbeaver, hue'.trans hue, fun h3 => absurd (hfenced h3) hnot⟩

/-! ### What comes before it: the task of a core, the check of an engine -/

theorem State.faultPart_views (s : State) (c : Nat) (r : Run) (code : Byte) : SameViews s (s.faultPart c r code) :=
  (SameViews.of_touches (State.coreFault_touches s c _ _ code (within_refl _) (Touches.refl _ _))).trans (State.programFault_views _ _ _)

theorem State.writeVerdict_views (s : State) (e : Nat) (t : Fin 16) (id : Nat) (v : BitVec 2) (hit : Byte) (agent : Word) :
    SameViews s (s.writeVerdict e t id v hit agent) :=
  SameViews.of_touches (State.writeVerdict_touches s e t id v hit agent (within_refl _) (Touches.refl _ _))

theorem State.updTable_views (s : State) (t : Fin 16) (f : Table → Table) : SameViews s (s.updTable t f) :=
  State.updTenant_views s t _

theorem SameViews.mapEngines (s : State) (f : Engine → Engine) (h : ∀ e, (f e).view = e.view) :
    SameViews s { s with engines := s.engines.map f } := by
  have hat : ∀ i : Fin 16, Bank.at' (Vector.map f s.engines) i = f (s.engines.at' i) := fun i => Vector.getElem_map f i.isLt
  constructor
  intro k n
  cases k <;> first | rfl | simp only [State.view, hat, h]

theorem State.releaseStop_views (s : State) (t : Fin 16) : SameViews s (s.releaseStop t) := by
  unfold State.releaseStop
  split
  · exact SameViews.refl s
  · refine SameViews.trans (SameViews.trans ?_ (State.updTable_views _ t _)) (State.retryStalled_views _)
    exact SameViews.mapEngines s (fun e => { e with queue := e.queue.filter fun x => x ≠ ⟨t, 1⟩ }) fun _ => rfl

theorem State.judgeImminent_views (s : State) (t : Fin 16) : SameViews s (s.judgeImminent t) :=
  SameViews.of_touches (State.judgeImminent_touches s t (within_refl _) (Touches.refl _ _))

theorem State.endCheck_views (s : State) (e : Fin 16) : SameViews s (s.endCheck e) := by
  have hdrop := SameViews.updEngine s e.val (fun k => { k with current := none, spoiled := false }) fun _ => rfl
  unfold State.endCheck
  dsimp only
  split
  · exact SameViews.refl s
  next x _ =>
  split
  · exact SameViews.refl s
  split
  next v c _ _ =>
    have hended := SameViews.updEngine s e.val (fun k =>
      { k with current := none, spoiled := false, checked := k.checked + 1, busy := k.busy + (s.checkResult x.tenant v c).cost }) fun _ => rfl
    split
    · exact (hdrop.trans (State.programFault_views _ _ _)).trans (State.pollDrains_views _ _)
    · refine SameViews.trans (SameViews.trans (SameViews.trans ?_ (State.releaseStop_views _ _)) (State.judgeImminent_views _ _))
        (State.pollDrains_views _ _)
      split
      · exact (hended.trans (State.writeVerdict_views _ _ _ _ _ _ _)).trans
          (SameViews.of_touches (State.draw_touches _ (within_refl _) (Touches.refl _ _)))
      · exact hended.trans (State.writeVerdict_views _ _ _ _ _ _ _)
  · exact hdrop.trans (State.pollDrains_views _ _)

theorem State.coreStoreFault_taken {s : State} {c : Nat} {v : View} (h : s.view .core c = some v) :
    UeTaken v .core c (s.coreStoreFault c) := by
  unfold State.coreStoreFault
  dsimp only
  split
  · exact State.internalFault_taken (((State.faultPart_views s c _ _).same .core c).trans h)
  · exact State.internalFault_taken h

theorem State.badgerFault_taken {s : State} {e : Fin 16} {v : View} (h : s.view .badger e.val = some v) :
    UeTaken v .badger e.val (s.badgerFault e) := by
  unfold State.badgerFault
  dsimp only
  split
  · have hspoiled := SameViews.updEngine s e.val (fun k => { k with spoiled := true }) fun _ => rfl
    exact State.internalFault_taken (((hspoiled.trans (State.endCheck_views _ e)).same .badger e.val).trans h)
  · exact State.internalFault_taken h

/-! ### A Burrow tile (19 R724) -/

theorem Tile.occupied_ne_default (x : Tile) : ({ x with body := .uniform .occupied } : Tile) ≠ Tile.default := fun h =>
  nomatch congrArg Tile.body h

/-- A static tile that fails is uniform OCCUPIED, in the store and in the sealed view. -/
theorem World.tileFault_occupied (w : World) (i : Nat) :
    ((w.tileFault none i).tile i).body = .uniform .occupied ∧
    ∀ v, w.view = some v → ∃ v', (w.tileFault none i).view = some v' ∧ (mget Tile.default v'.stat i).body = .uniform .occupied := by
  refine ⟨?_, fun v hv => ⟨{ v with stat := mset Tile.default v.stat i { mget Tile.default v.stat i with body := .uniform .occupied } }, ?_, ?_⟩⟩
  · exact congrArg Tile.body (mget_mset_same Tile.default w.stat i (Tile.occupied_ne_default _))
  · show w.view.map _ = _
    rw [hv]
    rfl
  · rw [mget_mset_same Tile.default v.stat i (Tile.occupied_ne_default _)]

/-! ### A word of a CLEAR bitmap (19 R724, R726) -/

/-- The words of the bitmaps that read as clear still do. -/
structure KeepsLost (s u : State) : Prop where
  keeps : ∀ k, ∀ x ∈ (s.tenant k).table.lost, x ∈ (u.tenant k).table.lost

theorem KeepsLost.refl (s : State) : KeepsLost s s := ⟨fun _ _ hx => hx⟩
theorem KeepsLost.trans {s u v : State} (h : KeepsLost s u) (g : KeepsLost u v) : KeepsLost s v :=
  ⟨fun k x hx => g.keeps k x (h.keeps k x hx)⟩
theorem KeepsLost.of_touches {l : List Part} {s u : State} (h : Touches l s u) (ht : l.contains .tTable = false := by decide) :
    KeepsLost s u := ⟨fun k x hx => by rwa [h.tTable k ht]⟩
theorem KeepsLost.forEach {α : Type} {l : List α} {f : State → α → State} (h : ∀ u a, KeepsLost u (f u a)) (s : State) :
    KeepsLost s (s.forEach l f) :=
  State.forEach_induction (I := KeepsLost s) (fun u hu a _ => hu.trans (h u a)) (KeepsLost.refl s)

/-- Who waits for room in a queue is no part of the bitmaps. -/
theorem KeepsLost.updStalled (s : State) (t : Fin 16) (f : List Nat → List Nat) :
    KeepsLost s (s.updTable t fun b => { b with stalled := f b.stalled }) := by
  refine ⟨fun k x hx => ?_⟩
  by_cases hk : t = k
  · subst hk
    rwa [State.tenant_updTable_self]
  · rwa [State.tenant_updTable_ne s hk]

theorem State.queueCand_keepsLost (s : State) (t : Fin 16) (id : Nat) : KeepsLost s (s.queueCand t id) := by
  rcases s.queueCand_cases t id with h | ⟨-, h⟩ | ⟨e, h⟩ <;> rw [h]
  · exact KeepsLost.refl s
  · exact KeepsLost.updStalled s t (· ++ [id])
  · exact KeepsLost.of_touches (State.noteDepth_touches _ _ (by decide) (State.updEngine_touches (L := [.regs, .engines]) s e.val _
      (by decide) (Touches.refl _ _)))

theorem State.retryStalled_keepsLost (s : State) : KeepsLost s s.retryStalled :=
  KeepsLost.forEach (fun u t => (KeepsLost.updStalled u t fun _ => []).trans
    (KeepsLost.forEach (fun v id => State.queueCand_keepsLost v t id) _)) s

theorem State.engineLost_keepsLost (s : State) (e : Nat) : KeepsLost s (s.engineLost e) := by
  have hengine : ∀ (u : State) n f, KeepsLost u (u.updEngine n f) := fun u n f =>
    KeepsLost.of_touches (State.updEngine_touches u n f (within_refl _) (Touches.refl _ _))
  unfold State.engineLost
  dsimp only
  refine KeepsLost.trans ?_ (KeepsLost.forEach (fun u t => KeepsLost.of_touches
    (State.pollDrains_touches u t (within_refl _) (Touches.refl _ _))) _)
  refine KeepsLost.trans ?_ (State.retryStalled_keepsLost _)
  refine KeepsLost.trans (hengine s e _) (KeepsLost.forEach (fun u x => ?_) _)
  split
  · exact (hengine u _ _).trans (KeepsLost.of_touches (State.noteDepth_touches _ _ (within_refl _) (Touches.refl _ _)))
  · exact KeepsLost.refl u

theorem State.setBadger_keepsLost (s : State) (n : Nat) (f : View → View) : KeepsLost s (s.setView .badger n f) := by
  have hlog : ∀ (u : State) v, KeepsLost u (u.logMismatch .badger n v) := fun u v =>
    KeepsLost.of_touches (State.logMismatch_touches u .badger n v (within_refl _) (Touches.refl _ _))
  have hview : ∀ (u : State) g, KeepsLost u (u.updView .badger n g) := fun u g =>
    KeepsLost.of_touches (State.updView_touches u .badger n g (within_refl _) (Touches.refl _ _))
  unfold State.setView
  split
  · exact KeepsLost.refl s
  next v _ =>
    dsimp only
    generalize (if UnitKind.badger = .front then s.frontUsers n else []) = users
    have hlost : ∀ u : State, KeepsLost u ((u.forTenants fun s t =>
        if (s.tenant t).exists' && (s.unitsOf t .badger).contains n then (s.raise (tenantPage t) 4).noteTiming t 4 else s).workLost .badger n users) := by
      intro u
      refine KeepsLost.trans (KeepsLost.forEach (fun u t => ?_) u) (State.engineLost_keepsLost _ n)
      split
      · exact KeepsLost.of_touches (l := [.attn, .tOut]) (State.noteTiming_touches _ t 4 (by decide)
          (State.raise_touches u _ 4 (by decide) (Touches.refl _ _)))
      · exact KeepsLost.refl u
    refine KeepsLost.trans (hview s fun _ => { f v with joined := (f v).joined && ! (v.usable && ! (f v).usable) }) ?_
    generalize (s.updView .badger n fun _ => { f v with joined := (f v).joined && ! (v.usable && ! (f v).usable) }) = u
    split <;> split
    · exact (hlost u).trans (hlog _ _)
    · exact hlog u _
    · exact hlost u
    · exact KeepsLost.refl u

theorem State.fenceBadger_keepsLost (s : State) (n channel : Nat) : KeepsLost s (s.fenceUnit .badger n channel) := by
  have hlog : ∀ (u : State) l, KeepsLost u (u.logEvent (unitPage .badger n) 4 1 0 n l) := fun u l =>
    KeepsLost.of_touches (State.logEvent_touches u _ 4 1 0 n l (within_refl _) (Touches.refl _ _))
  have hraise : ∀ u : State, KeepsLost u (u.raise 0x0F 4) := fun u => ⟨fun _ _ hx => hx⟩
  have howl : ∀ f, KeepsLost s (s.updOwl f) := fun f => ⟨fun _ _ hx => hx⟩
  have hset := fun u : State => State.setBadger_keepsLost u n fun v => { v with owl := .fenced }
  unfold State.fenceUnit
  dsimp only
  split
  · exact ((howl _).trans (hset _)).trans (hlog _ _)
  · exact (((howl _).trans (hset _)).trans (hlog _ _)).trans (hraise _)

theorem State.countBadger_keepsLost (s : State) (n : Nat) : KeepsLost s (s.countUe .badger n).1 := by
  have hview : ∀ (u : State) g, KeepsLost u (u.updView .badger n g) := fun u g =>
    KeepsLost.of_touches (State.updView_touches u .badger n g (within_refl _) (Touches.refl _ _))
  unfold State.countUe
  dsimp only
  refine KeepsLost.trans (hview s fun v => { v with ueCount := v.ueCount + 1 }) ?_
  generalize (s.updView .badger n fun v => { v with ueCount := v.ueCount + 1 }) = u
  split <;> split
  · exact State.fenceBadger_keepsLost u n 0xFF
  · exact KeepsLost.refl u
  · exact State.fenceBadger_keepsLost u n 0xFF
  · exact KeepsLost.refl u

/-- A word of an engine's bitmap is among those that serve a tenant. -/
def State.servesWord (s : State) (w : Nat) (k : Fin 16) : Bool :=
  (s.tenant k).exists' && decide (0 < s.candQuota k) && decide (s.candBase k / 16 / 64 ≤ w)
    && decide (w ≤ (s.candBase k + s.candQuota k - 1) / 16 / 64)

/-- A word that reads as clear for the tenant it serves. -/
def State.markLost (e : Fin 16) (w : Nat) (s : State) (t : Fin 16) : State :=
  if s.servesWord w t && ! (s.tenant t).table.lost.contains (e.val, w) then
    s.updTable t fun b => { b with lost := b.lost ++ [(e.val, w)] }
  else s

theorem State.bitmapFault_eq (s : State) (e : Fin 16) (w : Nat) :
    s.bitmapFault e w = ((s.forTenants (State.markLost e w)).countUe .badger e.val).1.forTenants State.judgeImminent := rfl

theorem State.markLost_keepsLost (e : Fin 16) (w : Nat) (s : State) (t : Fin 16) : KeepsLost s (s.markLost e w t) := by
  unfold State.markLost
  split
  · refine ⟨fun k x hx => ?_⟩
    by_cases hk : t = k
    · subst hk
      rw [State.tenant_updTable_self]
      exact List.mem_append_left _ hx
    · rwa [State.tenant_updTable_ne s hk]
  · exact KeepsLost.refl s

theorem State.markLost_serves (e : Fin 16) (w : Nat) (s : State) (t k : Fin 16) : (s.markLost e w t).servesWord w k = s.servesWord w k := by
  unfold State.markLost
  split
  · by_cases hk : t = k
    · subst hk
      simp only [State.servesWord, State.tenant_updTable_self, Tenant.exists']
      rfl
    · simp only [State.servesWord, State.tenant_updTable_ne s hk]
      rfl
  · rfl

theorem State.markLost_marks {e : Fin 16} {w : Nat} {s : State} {k : Fin 16} (h : s.servesWord w k = true) :
    (e.val, w) ∈ ((s.markLost e w k).tenant k).table.lost := by
  unfold State.markLost
  split
  · rw [State.tenant_updTable_self]
    exact List.mem_append_right _ (List.mem_singleton_self _)
  next hno => simpa [h] using hno

theorem State.forEach_markLost {e : Fin 16} {w : Nat} {k : Fin 16} {l : List (Fin 16)} (hk : k ∈ l) {s : State} (h : s.servesWord w k = true) :
    (e.val, w) ∈ ((s.forEach l (State.markLost e w)).tenant k).table.lost := by
  induction l generalizing s with
  | nil => cases hk
  | cons t r ih =>
    show (e.val, w) ∈ (((s.markLost e w t).forEach r (State.markLost e w)).tenant k).table.lost
    rcases List.mem_cons.mp hk with rfl | hr
    · exact (KeepsLost.forEach (State.markLost_keepsLost e w) _).keeps k _ (State.markLost_marks h)
    · exact ih hr (by rw [State.markLost_serves, h])

theorem State.bitmapFault_lost {s : State} {w : Nat} {k : Fin 16} (h : s.servesWord w k = true) (e : Fin 16) :
    (e.val, w) ∈ ((s.bitmapFault e w).tenant k).table.lost := by
  have hmarked : (e.val, w) ∈ ((s.forTenants (State.markLost e w)).tenant k).table.lost := by
    have hmem : k ∈ allFin 16 := by simp [allFin]
    unfold State.forTenants
    exact State.forEach_markLost hmem h
  have hjudged : ∀ u : State, KeepsLost u (u.forTenants State.judgeImminent) := fun u =>
    KeepsLost.forEach (fun u t => KeepsLost.of_touches (State.judgeImminent_touches u t (within_refl _) (Touches.refl _ _))) u
  rw [State.bitmapFault_eq]
  exact (hjudged _).keeps k _ ((State.countBadger_keepsLost _ e.val).keeps k _ hmarked)

/-! ### An error of SRAM (19 R723, R724) -/

/-- An uncorrectable error of a storage the part has is counted, logged and then contained. -/
theorem State.sramUe_contained {s : State} {x : Storage} (hheld : s.held = false) (hstorage : s.hasStorage x = true) :
    ∃ u, Touches [.draws, .attn, .log] s u ∧ exec (.sramUe x) s = .next (settle (u.containUe x)) := by
  refine ⟨((s.bumpErr (storagePage x)).draw.logEvent (storagePage x) (Config.freeByte s.draws).toNat 2 codeMemoryUe (storageIndex x) []),
    ?_, ?_⟩
  · refine State.logEvent_touches _ _ _ _ _ _ _ (by decide) ?_
    exact State.draw_touches _ (by decide) (State.bumpErr_touches s _ (by decide) (Touches.refl _ _))
  · show Host.Outcome.next (settle (s.sramUe x)) = _
    simp only [State.sramUe, hheld, hstorage, Bool.not_true, Bool.or_false, Bool.false_eq_true, if_false]

theorem State.sramUe_unit {s : State} {x : Storage} {k : UnitKind} {n : Nat} {v : View} (hheld : s.held = false)
    (hbitmap : ∀ e w, x ≠ .badgerBitmap e w) (hunit : storageUnit x = some (k, n)) (hview : s.view k n = some v) :
    ∃ t, exec (.sramUe x) s = .next t ∧ UeTaken v k n t := by
  have hstorage : s.hasStorage x = true := by
    simp [State.hasStorage, hunit, State.view_lt hview]
  obtain ⟨u, htouch, hrun⟩ := State.sramUe_contained hheld hstorage
  have hu : u.view k n = some v := ((SameViews.of_touches htouch).same k n).trans hview
  have hsettle : ∀ t, UeTaken v k n t → UeTaken v k n (settle t) := by
    rintro t ⟨v', hv', hrest⟩
    exact ⟨v', ((settle_views t).same k n).trans hv', hrest⟩
  refine ⟨_, hrun, hsettle _ ?_⟩
  cases x with
  | coreStore c =>
    cases hunit
    exact State.coreStoreFault_taken hu
  | badgerCheck e =>
    cases hunit
    exact State.badgerFault_taken hu
  | badgerBitmap e w => exact absurd rfl (hbitmap e w)
  | bear b =>
    cases hunit
    exact State.internalFault_taken hu
  | jay j =>
    cases hunit
    exact State.internalFault_taken hu
  | front f =>
    cases hunit
    exact State.internalFault_taken hu
  | _ => cases hunit

theorem State.sramUe_tile {s : State} (hheld : s.held = false) (k : Fin 16) (i : Fin 1024) :
    ∃ t, exec (.sramUe (.burrowTile k none i)) s = .next t ∧ ((t.tenant k).world.tile i.val).body = .uniform .occupied ∧
      ∀ v, (s.tenant k).world.view = some v → ∃ v', (t.tenant k).world.view = some v' ∧
        (mget Tile.default v'.stat i.val).body = .uniform .occupied := by
  obtain ⟨u, htouch, hrun⟩ := State.sramUe_contained (x := .burrowTile k none i) hheld rfl
  obtain ⟨htile, hview⟩ := World.tileFault_occupied (u.tenant k).world i.val
  have hworld : ((settle (u.containUe (.burrowTile k none i))).tenant k).world = (u.tenant k).world.tileFault none i.val := by
    rw [(settle_touches (u.containUe (.burrowTile k none i)) (within_refl _) (Touches.refl _ _)).tWorld k, State.containUe,
      State.tenant_updWorld_self, Option.map_none]
  refine ⟨_, hrun, ?_, ?_⟩
  · rw [hworld, htile]
  · intro v hv
    rw [hworld]
    exact hview v (by rw [htouch.tWorld k, hv])

theorem State.sramUe_bitmap {s : State} (hheld : s.held = false) (e : Fin 16) (w : Nat) :
    ∃ t, exec (.sramUe (.badgerBitmap e w)) s = .next t ∧ ∀ k, (s.tenant k).exists' = true → 0 < s.candQuota k →
      s.candBase k / 16 / 64 ≤ w → w ≤ (s.candBase k + s.candQuota k - 1) / 16 / 64 → (e.val, w) ∈ (t.tenant k).table.lost := by
  obtain ⟨u, htouch, hrun⟩ := State.sramUe_contained (x := .badgerBitmap e w) hheld (decide_eq_true e.isLt)
  refine ⟨_, hrun, fun k hexists hquota hfirst hlast => ?_⟩
  have hserves : u.servesWord w k = true := by
    have hstate : (u.tenant k).exists' = true := by
      rw [Tenant.exists', (htouch.tState k).1]
      exact hexists
    have hlease : u.lease k = s.lease k := by
      funext o
      simp only [State.lease, State.live, htouch.regs, htouch.chip]
    simp only [State.servesWord, hstate, State.candQuota, State.candBase, hlease, Bool.true_and, Bool.and_eq_true, decide_eq_true_eq]
    exact ⟨⟨hquota, hfirst⟩, hlast⟩
  have hlost : (e.val, w) ∈ ((u.containUe (.badgerBitmap e w)).tenant k).table.lost := by
    rw [State.containUe]
    exact State.bitmapFault_lost hserves e
  rwa [(settle_touches _ (within_refl _) (Touches.refl _ _)).tTable k]

theorem State.sramUe_shared {s : State} (hheld : s.held = false) {x : Storage}
    (hx : x ∈ [Storage.burrowDirectory, .beaver, .lynx, .spoor, .fabric]) :
    ∃ t, exec (.sramUe x) s = .next t ∧ t.fault.sram = true ∧ (x = .fabric → t.fault.fabric = true) := by
  have hstorage : s.hasStorage x = true := by
    simp only [List.mem_cons, List.not_mem_nil, or_false] at hx
    rcases hx with rfl | rfl | rfl | rfl | rfl <;> rfl
  obtain ⟨u, -, hrun⟩ := State.sramUe_contained hheld hstorage
  refine ⟨_, hrun, ?_⟩
  simp only [List.mem_cons, List.not_mem_nil, or_false] at hx
  rcases hx with rfl | rfl | rfl | rfl | rfl <;> simp [State.containUe, State.packageFault_fault]

theorem State.sramUe_owl {s : State} (hheld : s.held = false) :
    ∃ t, exec (.sramUe .owlSram) s = .next t ∧ t.power.cause = s.power.cause ||| 16 ∧ ∀ ch, t.owl.boxes.at' ch = Mailbox.reset := by
  obtain ⟨u, htouch, hrun⟩ := State.sramUe_contained (x := .owlSram) hheld rfl
  refine ⟨_, hrun, ?_, fun ch => ?_⟩
  · simp only [settle_fields, State.containUe, State.owlDomainReset, State.logEvent_fields, State.addCause]
    show u.power.cause ||| _ = _
    rw [htouch.power]
    rfl
  · simp only [settle_fields, State.containUe, State.owlDomainReset, State.logEvent_owl, Owl.record_fields]
    exact Vector.getElem_replicate ch.isLt

/-! ### An error of DRAM (19 R727, R728) -/

theorem bits_low (n : Nat) : bits n 15 0 = n % 2 ^ 16 := by
  simp [bits]
theorem bits_high (n : Nat) : bits n 31 16 = n / 2 ^ 16 % 2 ^ 16 := by
  simp [bits, Nat.shiftRight_eq_div_pow]

/-- The two halves of D_ECC are read back. -/
theorem bits_halves {a b : Nat} (ha : a < 2 ^ 16) (hb : b < 2 ^ 16) :
    bits ((a + b * 2 ^ 16) % 2 ^ 32) 15 0 = a ∧ bits ((a + b * 2 ^ 16) % 2 ^ 32) 31 16 = b := by
  rw [bits_low, bits_high]
  omega

theorem sat16_lt (n : Nat) : sat16 n < 2 ^ 16 := by
  rw [sat16_eq_min]
  omega
theorem bits_half_lt (n : Nat) : bits n 15 0 < 2 ^ 16 ∧ bits n 31 16 < 2 ^ 16 := by
  rw [bits_low, bits_high]
  omega

theorem siteOf_lt (c : Chip) (a : Nat) : siteOf c a < 4 := by
  have hsites : c.nSites = 4 ∨ c.nSites = 2 := by
    unfold Chip.nSites
    split <;> simp
  unfold siteOf
  rcases hsites with h | h <;> rw [h] <;> omega

/-- A corrected error counts in the lower half of D_ECC, and its block is among those the guard writes back. -/
theorem State.dramCorrected_effect {s : State} {a : Nat} (hheld : s.held = false) (ha : a < s.chip.capacity) :
    let p := sitePage (siteOf s.chip a)
    ∃ t, exec (.dramCorrected a) s = .next t ∧ t.dram.bytes = s.dram.bytes ∧ t.dram.poison = s.dram.poison ∧
      bits (t.live p 0x104) 15 0 = min 65535 (bits (s.live p 0x104) 15 0 + 1) ∧
      bits (t.live p 0x104) 31 16 = bits (s.live p 0x104) 31 16 ∧
      bget [] t.dram.writeBack (siteOf s.chip a) = (if 64 ≤ (bget [] s.dram.writeBack (siteOf s.chip a)).length
        then bget [] s.dram.writeBack (siteOf s.chip a) else bget [] s.dram.writeBack (siteOf s.chip a) ++ [a / 32]) := by
  intro p
  generalize hv : s.live p 0x104 = v
  generalize hw : sat16 (bits v 15 0) + bits v 31 16 * 2 ^ 16 = w
  have hrun : s.dramCorrected a = (((s.setLive p 0x104 w).bumpErr p).bumpCounter (14 + siteOf s.chip a)).updDram fun m =>
      { m with writeBack := bupd m.writeBack (siteOf s.chip a) fun l => if 64 ≤ l.length then l else l ++ [a / 32] } := by
    simp only [State.dramCorrected, hheld, Nat.not_le.mpr ha, decide_false, Bool.or_false, Bool.false_eq_true, if_false, ← hw, ← hv]
    rfl
  have hlive : (settle (s.dramCorrected a)).live p 0x104 = w % 2 ^ 32 := by
    rw [hrun]
    simp only [settle_reads]
    exact State.live_setLive_self s p 0x104 w
  have hdram : (settle (s.dramCorrected a)).dram.bytes = s.dram.bytes ∧ (settle (s.dramCorrected a)).dram.poison = s.dram.poison ∧
      (settle (s.dramCorrected a)).dram.writeBack =
        bupd s.dram.writeBack (siteOf s.chip a) fun l => if 64 ≤ l.length then l else l ++ [a / 32] := by
    rw [hrun]
    simp only [settle_fields]
    exact ⟨rfl, rfl, rfl⟩
  obtain ⟨hbytes, hpoison, hback⟩ := hdram
  obtain ⟨hlow, hhigh⟩ := bits_halves (sat16_lt (bits v 15 0)) (bits_half_lt v).2
  rw [hw] at hlow hhigh
  refine ⟨_, rfl, hbytes, hpoison, ?_, ?_, ?_⟩
  · rw [hlive, hlow, sat16_eq_min]
  · rw [hlive, hhigh]
  · show bget [] (settle (s.dramCorrected a)).dram.writeBack _ = _
    rw [hback, bget_bupd_self [] _ (siteOf_lt _ _)]

/-- An uncorrectable error counts in the upper half of D_ECC, poisons its block and raises the site's event. -/
theorem State.dramUe_effect {s : State} {a : Nat} (hheld : s.held = false) (ha : a < s.chip.capacity) :
    let p := sitePage (siteOf s.chip a)
    ∃ t, exec (.dramUe a) s = .next t ∧ t.dram.bytes = s.dram.bytes ∧ (∀ b, b ∈ t.dram.poison ↔ b = a / 32 ∨ b ∈ s.dram.poison) ∧
      t.dram.writeBack = s.dram.writeBack ∧
      bits (t.live p 0x104) 31 16 = min 65535 (bits (s.live p 0x104) 31 16 + 1) ∧
      bits (t.live p 0x104) 15 0 = bits (s.live p 0x104) 15 0 ∧ (mget 0 t.attn.latch p).getLsbD 1 = true := by
  intro p
  generalize hv : s.live p 0x104 = v
  generalize hw : bits v 15 0 + sat16 (bits v 31 16) * 2 ^ 16 = w
  generalize hu : ((s.setLive p 0x104 w).bumpErr p).raise p 1 = u
  generalize hl : u.logEvent p 0x0B 2 codeMemoryUe (siteOf s.chip a) (BitVec.ofNat 8 (siteOf s.chip a) :: leBytes 8 a) = l
  have hrun : s.dramUe a = l.updDram fun m => { m with poison := sinsert m.poison (a / 32) } := by
    simp only [State.dramUe, hheld, Nat.not_le.mpr ha, decide_false, Bool.or_false, Bool.false_eq_true, if_false, ← hl, ← hu, ← hw, ← hv]
    rfl
  have hlog : Touches [.attn, .log] u l := by
    rw [← hl]
    exact State.logEvent_touches u _ _ _ _ _ _ (within_refl _) (Touches.refl _ _)
  have hlive : (settle (s.dramUe a)).live p 0x104 = w % 2 ^ 32 := by
    have hlogged : l.live p 0x104 = u.live p 0x104 := by
      simp only [State.live, hlog.regs, hlog.chip]
    rw [hrun]
    simp only [settle_reads, State.updDram_reads]
    rw [hlogged, ← hu]
    exact State.live_setLive_self s p 0x104 w
  have hdram : (settle (s.dramUe a)).dram.bytes = s.dram.bytes ∧ (settle (s.dramUe a)).dram.poison = sinsert s.dram.poison (a / 32) ∧
      (settle (s.dramUe a)).dram.writeBack = s.dram.writeBack := by
    have hbefore : l.dram = s.dram := by
      rw [hlog.dram, ← hu]
      rfl
    rw [hrun]
    simp only [settle_fields, State.updDram_dram, hbefore, and_self]
  obtain ⟨hbytes, hpoison, hback⟩ := hdram
  have hlatch : (mget 0 l.attn.latch p).getLsbD 1 = true := by
    have hraised : (mget 0 u.attn.latch p).getLsbD 1 = true := by
      rw [← hu]
      exact State.raise_latch _ p (by decide)
    rw [← hl]
    unfold State.logEvent
    dsimp only
    split
    · exact Attn.setLatch_latch _ _ _ _ _ (.inl hraised)
    · exact hraised
  obtain ⟨hlow, hhigh⟩ := bits_halves (bits_half_lt v).1 (sat16_lt (bits v 31 16))
  rw [hw] at hlow hhigh
  refine ⟨_, rfl, hbytes, fun b => ?_, hback, ?_, ?_, settle_latch _ _ _ ?_⟩
  · rw [← mem_sinsert]
    exact iff_of_eq (congrArg (b ∈ ·) hpoison)
  · rw [hlive, hhigh, sat16_eq_min]
  · rw [hlive, hlow]
  · rw [hrun]
    exact hlatch

/-- Settles O53: by what each storage's fault leaves. -/
theorem storageErrorsStayWhereTheyLie : Obligations.StorageErrorsStayWhereTheyLie := by
  unfold Obligations.StorageErrorsStayWhereTheyLie
  refine ⟨fun s hheld => ⟨fun x hstorage hcount => ⟨s.bumpErr (storagePage x), ?_, rfl, State.bumpErr_errCount hcount _⟩,
    fun x k n v hbitmap hunit hview => ?_, State.sramUe_tile hheld, State.sramUe_bitmap hheld,
    fun x hx => State.sramUe_shared hheld hx, State.sramUe_owl hheld⟩, fun s a hheld ha hregs d hd => ?_⟩
  · show Host.Outcome.next (settle (s.sramCorrected x)) = _
    simp only [State.sramCorrected, hheld, hstorage, Bool.not_true, Bool.or_false, Bool.false_eq_true, if_false]
  · obtain ⟨t, hrun, v', hv', hdown, hcount, hfenced⟩ := State.sramUe_unit hheld hbitmap hunit hview
    exact ⟨t, v', hrun, hv', hdown, hcount, hfenced⟩
  · subst hd
    exact ⟨State.dramCorrected_effect hheld ha, State.dramUe_effect hheld ha⟩

end Sys2Proof.Machine
end

section
/-! SUPPORT. RESET and HOLD of a tenant: what a reset clears at once, and what a frame cut short leaves (13 R496 to R505; 05 R226). -/
namespace Sys2Proof.Machine
open Sys2Proof
set_option Elab.async false

/-! ### Its commands complete (13 R504) -/

theorem State.reapQueue_cmds (s : State) (t k : Fin 16) (q : Fin 8) : ((s.reapQueue t q).tenant k).cmds = (s.tenant k).cmds :=
  (State.reapQueue_touches s t q (within_refl _) (Touches.refl _ _)).tCmds k

theorem State.completeCmd_cmds (s : State) (t : Fin 16) (c : Cmd) (code : Byte) (detail : BitVec 160) :
    ((s.completeCmd t c code detail).tenant t).cmds = (s.tenant t).cmds.filter fun d => d.tag ≠ c.tag := by
  have hqueue : ∀ (u : State) f, ((u.updQueue t c.q f).tenant t).cmds = (u.tenant t).cmds := fun u f => by
    rw [(State.updQueue_touches u t c.q f (within_refl _) (Touches.refl _ _)).tCmds t]
  have hfree : ((s.updTenant t fun n => { n with cmds := n.cmds.filter fun d => d.tag ≠ c.tag }).tenant t).cmds =
      (s.tenant t).cmds.filter fun d => d.tag ≠ c.tag := by
    rw [State.tenant_updTenant_self]
  unfold State.completeCmd
  dsimp only
  split
  · exact ((State.reapQueue_cmds _ t t c.q).trans (hqueue _ _)).trans hfree
  · exact (hqueue _ _).trans hfree

/-- A command that a list of completions leaves is of no tag among theirs. -/
theorem State.completeAll_leaves {s : State} {t : Fin 16} {l : List Cmd} {code : Byte} {d : Cmd}
    (h : d ∈ ((s.completeAll t l code).tenant t).cmds) : d ∈ (s.tenant t).cmds ∧ ∀ c ∈ l, d.tag ≠ c.tag := by
  induction l generalizing s with
  | nil => exact ⟨h, fun c hc => absurd hc List.not_mem_nil⟩
  | cons c r ih =>
    obtain ⟨hleft, hrest⟩ := ih (s := s.completeCmd t c code 0) h
    rw [State.completeCmd_cmds, List.mem_filter] at hleft
    obtain ⟨hmem, htag⟩ := hleft
    exact ⟨hmem, List.forall_mem_cons.mpr ⟨of_decide_eq_true htag, hrest⟩⟩

theorem State.completeAll_all (s : State) (t : Fin 16) (code : Byte) :
    ((s.completeAll t (s.tenant t).cmds code).tenant t).cmds = [] := by
  refine List.eq_nil_iff_forall_not_mem.mpr fun d hd => ?_
  obtain ⟨hmem, htags⟩ := State.completeAll_leaves hd
  exact htags d hmem rfl

/-! ### A reset at once (13 R504) -/

/-- A reset clears its tenant, whose commands are complete and whose state, cause, count of resets and programs were as they are. -/
theorem State.resetTenant_tenant (s : State) (t : Fin 16) : ∃ n : Tenant, (s.resetTenant t).tenant t = n.cleared ∧ n.cmds = [] ∧
    n.sched = (s.tenant t).sched ∧ n.state = (s.tenant t).state ∧ n.cause = (s.tenant t).cause ∧ n.resets = (s.tenant t).resets := by
  generalize hdone : s.completeAll t (s.tenant t).cmds codeTenantReset = c
  have hcmds : (c.tenant t).cmds = [] := by
    rw [← hdone, State.completeAll_all]
  have hcomplete : Touches [.regs, .shadow, .dirty, .attn, .tQueues, .tCmds] s c := by
    rw [← hdone]
    exact State.completeAll_touches s t _ _ (within_refl _) (Touches.refl _ _)
  generalize hwork : (((c.dropWork t).disown t).dropEntries t fun _ => false).updCascade (fun c =>
    { c with tags := c.tags.filter fun g => g.tenant ≠ t }) = u
  have hdrop : Touches [.tSearch, .tSolver, .tSel, .bears, .jays, .cores, .regs, .tTable, .engines, .cascade] c u := by
    rw [← hwork]
    refine State.updCascade_touches _ _ (by decide) (State.dropEntries_touches _ t _ (by decide) ?_)
    exact State.disown_touches _ t (by decide) (State.dropWork_touches c t (by decide) (Touches.refl _ _))
  have hreset : (s.resetTenant t).tenant t = (u.updTenant t Tenant.cleared).tenant t := by
    unfold State.resetTenant
    dsimp only
    rw [hdone, hwork]
    rfl
  obtain ⟨hstate, -, -, -, hcause, hresets, -, -⟩ := hdrop.tState t
  obtain ⟨hstate', -, -, -, hcause', hresets', -, -⟩ := hcomplete.tState t
  refine ⟨u.tenant t, by rw [hreset, State.tenant_updTenant_self], ?_, ?_, hstate.trans hstate', hcause.trans hcause',
    hresets.trans hresets'⟩
  · rw [hdrop.tCmds t, hcmds]
  · rw [hdrop.tSched t, hcomplete.tSched t]

/-- What a reset at once leaves of a tenant: cleared, its programs standing, its reset counted. -/
structure ResetAtOnce (n m : Tenant) : Prop where
  cause : m.cause = 1
  resets : m.resets = min 255 (n.resets + 1)
  world : m.world = World.reset
  search : m.search = Search.reset
  table : m.table = Table.reset
  solver : m.solver = Solver.reset
  sel : m.sel = Selection.reset
  cmds : m.cmds = []
  chain : m.spoor.prev = 0
  slotA : m.sched.slotA = n.sched.slotA
  slotB : m.sched.slotB = n.sched.slotB
  tasks : m.sched.tasks = []

/-- A reset of a tenant whose cause is 1 leaves it cleared, in the state it was put into. -/
theorem State.resetTenant_atOnce {s u : State} {t : Fin 16} (hcause : (u.tenant t).cause = 1)
    (hsched : (u.tenant t).sched = (s.tenant t).sched) (hresets : (u.tenant t).resets = (s.tenant t).resets) :
    ((u.resetTenant t).tenant t).state = (u.tenant t).state ∧ ResetAtOnce (s.tenant t) ((u.resetTenant t).tenant t) := by
  obtain ⟨n, hcleared, hcmds, hs, hstate, hc, hr⟩ := u.resetTenant_tenant t
  rw [hcleared]
  refine ⟨hstate, ⟨hc.trans hcause, ?_, rfl, rfl, rfl, rfl, rfl, hcmds, rfl, ?_, ?_, rfl⟩⟩
  · show min 255 (n.resets + 1) = _
    rw [hr, hresets]
  · show n.sched.slotA = _
    rw [hs, hsched]
  · show n.sched.slotB = _
    rw [hs, hsched]

theorem State.requestReset_stopped {s : State} {t : Fin 16} (hactive : (s.tenant t).state = .active) (hstopped : s.stopped = true) :
    s.requestReset t 1 = (s.updTenant t fun n => { n with cause := 1 }).resetTenant t := by
  have hstill : (s.updTenant t fun n => { n with cause := 1 }).stopped = true := hstopped
  simp only [State.requestReset, hactive, ne_eq, not_true_eq_false, if_false, hstill, if_true]

theorem State.requestHold_stopped {s : State} {t : Fin 16} (hactive : (s.tenant t).state = .active) (hstopped : s.stopped = true) :
    s.requestHold t 1 = ((s.updTenant t fun n => { n with cause := 1 }).updTenant t fun n => { n with state := .held }).resetTenant t := by
  have hstill : (s.updTenant t fun n => { n with cause := 1 }).stopped = true := hstopped
  simp only [State.requestHold, hactive, hstill, if_true]

theorem State.requestReset_atOnce {s : State} {t : Fin 16} (hactive : (s.tenant t).state = .active) (hstopped : s.stopped = true) :
    ((s.requestReset t 1).tenant t).state = .active ∧ ResetAtOnce (s.tenant t) ((s.requestReset t 1).tenant t) := by
  rw [State.requestReset_stopped hactive hstopped, ← hactive]
  have hreset := State.resetTenant_atOnce (s := s) (u := s.updTenant t fun n => { n with cause := 1 }) (t := t) (by simp) (by simp) (by simp)
  simpa only [State.tenant_updTenant_self] using hreset

theorem State.requestHold_atOnce {s : State} {t : Fin 16} (hactive : (s.tenant t).state = .active) (hstopped : s.stopped = true) :
    ((s.requestHold t 1).tenant t).state = .held ∧ ResetAtOnce (s.tenant t) ((s.requestHold t 1).tenant t) := by
  rw [State.requestHold_stopped hactive hstopped]
  have hreset := State.resetTenant_atOnce (s := s)
    (u := (s.updTenant t fun n => { n with cause := 1 }).updTenant t fun n => { n with state := .held }) (t := t) (by simp) (by simp) (by simp)
  simpa only [State.tenant_updTenant_self] using hreset

/-! ### A frame cut short (13 R505; 05 R226) -/

/-- A tenant in its reset has no entry queued but those of its stops. -/
structure OnlyStops (t : Fin 16) (s : State) : Prop where
  state : (s.tenant t).state = .resetting
  queued : ∀ e : Fin 16, ∀ x ∈ (s.engines.at' e).queue, x.tenant = t → x.id < 2

theorem OnlyStops.of_touches {l : List Part} {t : Fin 16} {s u : State} (hs : OnlyStops t s) (h : Touches l s u)
    (hstate : l.contains .tState = false := by decide) (hengines : l.contains .engines = false := by decide) : OnlyStops t u :=
  ⟨(h.tState t hstate).1.trans hs.state, fun e x hx => hs.queued e x (by rwa [h.engines hengines] at hx)⟩

/-- An entry of the tenant's own enters no queue unless it is a stop's. -/
theorem State.queueCand_refuses {s : State} {t : Fin 16} {id : Nat} (hstate : (s.tenant t).state = .resetting) (hid : 2 ≤ id) :
    s.queueCand t id = s := by
  unfold State.queueCand
  split
  · rfl
  · rw [if_pos]
    simp [hstate, hid]

theorem OnlyStops.queueCand {t : Fin 16} {s : State} (hs : OnlyStops t s) (k : Fin 16) (id : Nat) : OnlyStops t (s.queueCand k id) := by
  by_cases hown : k = t ∧ 2 ≤ id
  · obtain ⟨rfl, hid⟩ := hown
    rwa [State.queueCand_refuses hs.state hid]
  rcases s.queueCand_cases k id with h | ⟨-, h⟩ | ⟨e, h⟩ <;> rw [h]
  · exact hs
  · exact hs.of_touches (State.updTable_touches s k _ (within_refl _) (Touches.refl _ _))
  · refine OnlyStops.of_touches (s := s.updEngine e.val fun k' => { k' with queue := k'.queue ++ [⟨k, id⟩] })
      ⟨hs.state, fun f x hx htenant => ?_⟩ (State.noteDepth_touches _ _ (within_refl _) (Touches.refl _ _))
    by_cases he : f = e
    · subst he
      rw [State.updEngine_at'_self] at hx
      rcases List.mem_append.mp hx with hold | hnew
      · exact hs.queued f x hold htenant
      · cases List.mem_singleton.mp hnew
        exact Nat.lt_of_not_le fun hid => hown ⟨htenant, hid⟩
    · have hsame : ((s.updEngine e.val fun k' => { k' with queue := k'.queue ++ [⟨k, id⟩] }).engines.at' f) = s.engines.at' f :=
        Bank.at'_bupd_ne s.engines (fun heq => he (Fin.ext heq.symm)) _
      rw [hsame] at hx
      exact hs.queued f x hx htenant

theorem OnlyStops.retryStalled {t : Fin 16} {s : State} (hs : OnlyStops t s) : OnlyStops t s.retryStalled := by
  refine State.forEach_induction (fun u hu k _ => ?_) hs
  refine State.forEach_induction (fun v hv id _ => hv.queueCand k id) ?_
  exact hu.of_touches (State.updTable_touches u k _ (within_refl _) (Touches.refl _ _))

theorem OnlyStops.of_dropEntries {t : Fin 16} {s : State} (hstate : (s.tenant t).state = .resetting) :
    OnlyStops t (s.dropEntries t fun i => i < 2) := by
  unfold State.dropEntries
  extract_lets stays engines s'
  refine OnlyStops.retryStalled (OnlyStops.of_touches (s := s') ⟨hstate, fun e x hx htenant => ?_⟩
    (State.updTable_touches s' t _ (within_refl _) (Touches.refl _ _)))
  have hqueue : (s'.engines.at' e).queue = (s.engines.at' e).queue.filter stays := congrArg Engine.queue (Vector.getElem_map _ e.isLt)
  rw [hqueue, List.mem_filter] at hx
  simpa [stays, htenant] using hx.2

/-- Entries that leave their queues leave the CLEAR bits. -/
theorem State.dropEntries_clear (s : State) (t : Fin 16) (keep : Nat → Bool) (k : Fin 16) :
    ((s.dropEntries t keep).tenant k).table.clear = (s.tenant k).table.clear := by
  unfold State.dropEntries
  dsimp only
  rw [(State.retryStalled_sameChecks _).clear k]
  exact (SameChecks.updStalled _ t fun l => l.filter keep).clear k

/-- The tenant whose frame RESET cuts short: RESETTING, with no final result, no records to be applied and no CLEAR bit but the stops'. -/
def Tenant.cutShort (n : Tenant) : Tenant :=
  { n with
    state := .resetting, sel := { n.sel with finalResult := none }, world := { n.world with jobs := [] }
    table := { n.table with clear := n.table.clear.filter (· < 2) } }

theorem State.requestReset_inFrame {s : State} {t : Fin 16} (hactive : (s.tenant t).state = .active) (hstopped : s.stopped = false)
    (hearly : s.pastD7 = false) :
    s.requestReset t 1 = (((((s.updTenant t fun n => { n with cause := 1 }).updTenant t Tenant.cutShort).failFrame t codeTenantReset).disown
      t).dropEntries t fun i => i < 2).noteTiming t 7 := by
  have hruns : (s.updTenant t fun n => { n with cause := 1 }).stopped = false := hstopped
  have hbefore : (s.updTenant t fun n => { n with cause := 1 }).pastD7 = false := hearly
  simp only [State.requestReset, hactive, ne_eq, not_true_eq_false, if_false, hruns, hbefore, Bool.false_eq_true]
  rfl

theorem State.requestHold_inFrame {s : State} {t : Fin 16} (hactive : (s.tenant t).state = .active) (hstopped : s.stopped = false)
    (hearly : s.pastD7 = false) :
    s.requestHold t 1 = ((s.updTenant t fun n => { n with cause := 1 }).updTenant t fun n => { n with holdPending := true }).noteTiming t 7 := by
  have hruns : (s.updTenant t fun n => { n with cause := 1 }).stopped = false := hstopped
  have hbefore : ((s.updTenant t fun n => { n with cause := 1 }).updTenant t fun n => { n with holdPending := true }).pastD7 = false := hearly
  simp only [State.requestHold, hactive, if_false, hruns, hbefore, Bool.false_eq_true]

/-- What RESET in a frame leaves of the tenant, and of the queues of the checkers. -/
theorem State.requestReset_cuts {s : State} {t : Fin 16} (hactive : (s.tenant t).state = .active) (hstopped : s.stopped = false)
    (hearly : s.pastD7 = false) :
    let u := s.requestReset t 1
    OnlyStops t u ∧ (u.tenant t).cause = 1 ∧ (u.tenant t).sched.tasks = [] ∧ (u.tenant t).sched.running = false ∧
      (u.tenant t).sched.abortCode = codeTenantReset ∧ (u.tenant t).sel.finalResult = none ∧ (u.tenant t).world.jobs = [] ∧
      ∀ x ∈ (u.tenant t).table.clear, x < 2 := by
  intro u
  generalize hcut : ((s.updTenant t fun n => { n with cause := 1 }).updTenant t Tenant.cutShort) = c
  have hc : c.tenant t = { s.tenant t with cause := 1 }.cutShort := by
    rw [← hcut, State.tenant_updTenant_self, State.tenant_updTenant_self]
  generalize hfailed : c.failFrame t codeTenantReset = f
  have hu : u = (((f.disown t).dropEntries t fun i => i < 2).noteTiming t 7) := by
    rw [← hfailed, ← hcut]
    exact State.requestReset_inFrame hactive hstopped hearly
  have hfail := State.failFrame_touches c t codeTenantReset (within_refl _) (Touches.refl _ _)
  rw [hfailed] at hfail
  have hverdict : Touches [.safe, .tOut] (c.abortTasks t codeTenantReset) f := by
    rw [← hfailed]
    exact State.judgeImminent_touches _ t (by decide) (State.updOut_touches _ t _ (by decide) (Touches.refl _ _))
  obtain ⟨hsched, hfinal⟩ := State.abortTasks_tenant c t codeTenantReset
  have hrest : Touches [.cores, .engines, .regs, .tTable, .tOut] f u := by
    rw [hu]
    exact State.noteTiming_touches _ t 7 (by decide) (State.dropEntries_touches _ t _ (by decide)
      (State.disown_touches f t (by decide) (Touches.refl _ _)))
  have hstate : (f.tenant t).state = .resetting := by
    rw [(hfail.tState t).1, hc]
    rfl
  have hsched' : (u.tenant t).sched = { (c.tenant t).sched with
      tasks := [], running := false, abortCode := codeTenantReset, deadEdges := 0, rings := [] } := by
    rw [hrest.tSched t, hverdict.tSched t, hsched]
  obtain ⟨-, -, -, -, hcause, -⟩ := hrest.tState t
  obtain ⟨-, -, -, -, hcause', -⟩ := hfail.tState t
  refine ⟨?_, ?_, ?_, ?_, ?_, ?_, ?_, ?_⟩
  · rw [hu]
    exact (OnlyStops.of_dropEntries (s := f.disown t) hstate).of_touches (State.noteTiming_touches _ t 7 (within_refl _) (Touches.refl _ _))
  · rw [hcause, hcause', hc]
    rfl
  · rw [hsched']
  · rw [hsched']
  · rw [hsched']
  · rw [hrest.tSel t, hverdict.tSel t, hfinal, hc]
    rfl
  · rw [hrest.tWorld t, hfail.tWorld t, hc]
    rfl
  · have hclear : (u.tenant t).table.clear = (c.tenant t).table.clear := by
      rw [hu, (State.noteTiming_touches _ t 7 (within_refl _) (Touches.refl _ _)).tTable t, State.dropEntries_clear,
        (State.disown_touches f t (within_refl _) (Touches.refl _ _)).tTable t, hfail.tTable t]
    intro x hx
    rw [hclear, hc] at hx
    exact of_decide_eq_true (List.mem_filter.mp hx).2

/-- Settles O40: at once by what `resetTenant` clears, in a frame by what the cut leaves. -/
theorem resetAndHoldClearTheirTenant : Obligations.ResetAndHoldClearTheirTenant := by
  unfold Obligations.ResetAndHoldClearTheirTenant
  intro s p t hown hactive
  refine ⟨fun i hi hstopped => ?_, fun hstopped hearly => ⟨⟨_, exec_tCtrlReset_owned hown, ?_⟩, ⟨_, exec_tCtrlHold_owned hown, ?_⟩⟩⟩
  · simp only [List.mem_cons, List.not_mem_nil, or_false] at hi
    rcases hi with rfl | rfl
    · obtain ⟨hstate, h⟩ := State.requestReset_atOnce hactive hstopped
      refine ⟨_, exec_tCtrlReset_owned hown, ?_⟩
      rw [settle_tenant, if_pos rfl]
      exact ⟨hstate, h.cause, h.resets, h.world, h.search, h.table, h.solver, h.sel, h.cmds, h.chain, h.slotA, h.slotB, h.tasks⟩
    · obtain ⟨hstate, h⟩ := State.requestHold_atOnce hactive hstopped
      refine ⟨_, exec_tCtrlHold_owned hown, ?_⟩
      rw [settle_tenant, if_neg nofun]
      exact ⟨hstate, h.cause, h.resets, h.world, h.search, h.table, h.solver, h.sel, h.cmds, h.chain, h.slotA, h.slotB, h.tasks⟩
  · obtain ⟨⟨hstate, hqueued⟩, h⟩ := State.requestReset_cuts hactive hstopped hearly
    obtain ⟨hcause, htasks, hrunning, habort, hfinal, hjobs, hclear⟩ := h
    rw [settle_tenant, (settle_touches _ (within_refl _) (Touches.refl _ _)).engines]
    exact ⟨hstate, hcause, htasks, hrunning, habort, hfinal, hjobs, hclear, hqueued⟩
  · have hout := State.noteTiming_touches ((s.updTenant t fun n => { n with cause := 1 }).updTenant t fun n => { n with holdPending := true })
      t 7 (within_refl _) (Touches.refl _ _)
    obtain ⟨hstate, hpending, -, -, hcause, -⟩ := hout.tState t
    rw [settle_tenant, State.requestHold_inFrame hactive hstopped hearly, hstate, hpending, hcause, hout.tWorld t, hout.tCmds t]
    simp [hactive]

end Sys2Proof.Machine
end

section
/-! SUPPORT. What a member keeps of its master while time passes and tasks go on (15 R583, R589). -/
namespace Sys2Proof.Machine
open Sys2Proof
set_option Elab.async false

/-- Whether the master is lost, the collectives, and the note of a frame cut by the loss stand. -/
structure SameMaster (s u : State) : Prop where
  lost : u.cascade.masterLost = s.cascade.masterLost
  colls : u.cascade.colls = s.cascade.colls
  cut : u.frame.masterLost = s.frame.masterLost

theorem SameMaster.refl (s : State) : SameMaster s s := ⟨rfl, rfl, rfl⟩

theorem SameMaster.trans {s u v : State} (h : SameMaster s u) (k : SameMaster u v) : SameMaster s v :=
  ⟨k.lost.trans h.lost, k.colls.trans h.colls, k.cut.trans h.cut⟩

theorem SameMaster.of_touches {l : List Part} {s u : State} (h : Touches l s u) (hcascade : l.contains .cascade = false := by decide)
    (hframe : l.contains .frame = false := by decide) : SameMaster s u := by
  obtain ⟨-, -, hcut, -⟩ := h.frame hframe
  exact ⟨by rw [h.cascade hcascade], by rw [h.cascade hcascade], hcut⟩

theorem SameMaster.forEach {α : Type} {l : List α} {f : State → α → State} (h : ∀ u a, SameMaster u (f u a)) (s : State) :
    SameMaster s (s.forEach l f) :=
  State.forEach_induction (I := SameMaster s) (fun u hu a _ => hu.trans (h u a)) (SameMaster.refl s)

theorem SameMaster.updCascade (s : State) (f : Cascade → Cascade) (h : ∀ c, (f c).masterLost = c.masterLost ∧ (f c).colls = c.colls) :
    SameMaster s (s.updCascade f) := ⟨(h _).1, (h _).2, rfl⟩

theorem SameMaster.updTenant (s : State) (t : Fin 16) (f : Tenant → Tenant) : SameMaster s (s.updTenant t f) := ⟨rfl, rfl, rfl⟩
theorem SameMaster.updSched (s : State) (t : Fin 16) (f : Sched → Sched) : SameMaster s (s.updSched t f) := ⟨rfl, rfl, rfl⟩
theorem SameMaster.setLive (s : State) (p o v : Nat) : SameMaster s (s.setLive p o v) := ⟨rfl, rfl, rfl⟩
theorem SameMaster.raise (s : State) (p i : Nat) : SameMaster s (s.raise p i) := ⟨rfl, rfl, rfl⟩
theorem SameMaster.bumpErr (s : State) (p : Nat) : SameMaster s (s.bumpErr p) := ⟨rfl, rfl, rfl⟩

theorem State.traceTask_master (s : State) (kind : Nat) (t : Fin 16) (i v d a : Nat) : SameMaster s (s.traceTask kind t i v d a) :=
  .of_touches (State.traceTask_touches s kind t i v d a (within_refl _) (Touches.refl _ _))

/-! ### Tasks go on (10 R379 to R399) -/

theorem State.failFrame_master (s : State) (t : Fin 16) (code : Byte) : SameMaster s (s.failFrame t code) := by
  have habort : SameMaster s (s.abortTasks t code) := by
    unfold State.abortTasks
    refine SameMaster.trans (SameMaster.trans ?_ (SameMaster.updCascade _ _ fun _ => ?_)) (SameMaster.updSched _ _ _)
    case refine_2 => exact ⟨rfl, rfl⟩
    exact (SameMaster.forEach (fun u i => State.traceTask_master u _ _ _ _ _ _) s).trans
      (.of_touches (State.dropWork_touches _ t (within_refl _) (Touches.refl _ _)))
  exact habort.trans (.of_touches (l := [.safe, .tOut]) (State.judgeImminent_touches _ t (by decide)
    (State.updOut_touches _ t _ (by decide) (Touches.refl _ _))))

theorem State.programFault_master (s : State) (t : Fin 16) (code : Byte) : SameMaster s (s.programFault t code) :=
  (((State.failFrame_master s t code).trans (SameMaster.updTenant _ _ _)).trans (SameMaster.raise _ _ _)).trans (SameMaster.bumpErr _ _)

theorem State.makeReady_master (s : State) (t : Fin 16) (i : Nat) : SameMaster s (s.makeReady t i) := by
  unfold State.makeReady
  extract_lets d w
  split
  · exact SameMaster.refl s
  · rename_i u us v hn
    have hu : SameMaster s u := SameMaster.updSched _ _ _
    have ht (v : State) := State.traceTask_master v 2 t i 0x3F 0 0
    have he (v : State) (c : Byte) : SameMaster v (v.endTask t i c) := SameMaster.updSched _ _ _
    refine hu.trans (iteInduction (fun _ => ?_) fun _ => iteInduction (fun _ => ht u) fun _ => iteInduction (fun _ => ?_) fun _ =>
      iteInduction (fun _ => ?_) fun _ => ?_)
    · have hcut (v : State) : SameMaster v (v.noteCut t (trPhase w) i) := .of_touches
        (State.noteCut_touches v t _ i (within_refl _) (Touches.refl _ _))
      exact ((ht u).trans (hcut _)).trans (he _ _)
    · exact (ht u).trans (he _ _)
    · exact ((ht u).trans (he _ _)).trans (State.failFrame_master _ _ _)
    · refine (SameMaster.updSched _ _ _).trans (SameMaster.forEach (fun v a => ?_) _)
      exact SameMaster.trans (.of_touches (State.putPart_touches v _ (within_refl _) (Touches.refl _ _))) (State.traceTask_master _ _ _ _ _ _ _)

theorem State.retireTask_master (s : State) (t : Fin 16) (i : Nat) (c : Byte) (flag : Bool) : SameMaster s (s.retireTask t i c flag) := by
  unfold State.retireTask
  refine SameMaster.trans (SameMaster.trans (SameMaster.trans ?_ (SameMaster.updCascade _ _ fun _ => ?_))
    (SameMaster.updSched _ _ _)) (SameMaster.forEach (fun u i => State.makeReady_master u t i) _)
  case refine_2 => exact ⟨rfl, rfl⟩
  exact State.traceTask_master _ _ _ _ _ _ _

theorem State.wakeWaits_master (n : Nat) (s : State) (t : Fin 16) : SameMaster s (s.wakeWaits t n) := by
  induction n generalizing s with
  | zero => exact SameMaster.refl s
  | succ n ih =>
    unfold State.wakeWaits
    dsimp only
    split
    · exact SameMaster.refl s
    · refine SameMaster.trans ?_ (ih _)
      have htaken := fun (a b c d : Nat) f => (State.traceTask_master s 6 t a b c d).trans (SameMaster.updSched _ t f)
      split
      · exact (htaken _ _ _ _ _).trans (State.retireTask_master _ _ _ _ _)
      · exact htaken _ _ _ _ _

theorem State.evalWaits_master (s : State) (t : Fin 16) : SameMaster s (s.evalWaits t) := by
  unfold State.evalWaits
  split
  · exact SameMaster.refl s
  · exact State.wakeWaits_master _ s t

theorem State.finishTask_master (s : State) (t : Fin 16) (i : Nat) (c : Byte) : SameMaster s (s.finishTask t i c) := by
  have hfree (u : State) : SameMaster u (u.retireFree t i) := by
    unfold State.retireFree
    dsimp only
    split
    · split
      · exact State.retireTask_master _ _ _ _ _
      · exact SameMaster.refl u
    · exact SameMaster.refl u
  exact ((SameMaster.updSched s _ _).trans (hfree _)).trans (State.evalWaits_master _ _)

/-! ### Time passes (10 R387, R389, R391, R398) -/

theorem State.fireTimer_master (s : State) (t : Fin 16) (x : Timer) : SameMaster s (s.fireTimer t x) := by
  have htrace : SameMaster s (s.trace 0x0C t ⟨0, 0, 0, 0x3F, 0, x.id, 0⟩) :=
    .of_touches (State.trace_touches s _ t _ (within_refl _) (Touches.refl _ _))
  unfold State.fireTimer State.setFlag
  dsimp only
  refine SameMaster.trans (SameMaster.trans (SameMaster.trans ?_ (SameMaster.updSched _ t _)) (SameMaster.updSched _ t _))
    (State.evalWaits_master _ t)
  split
  · exact htrace.trans (.of_touches (State.noteTiming_touches _ t 2 (within_refl _) (Touches.refl _ _)))
  · exact htrace

theorem State.fireDue_master (n : Nat) (s : State) (t : Fin 16) (T : Nat) : SameMaster s (s.fireDue t T n) := by
  induction n generalizing s with
  | zero => exact SameMaster.refl s
  | succ n ih =>
    unfold State.fireDue
    dsimp only
    split
    · exact SameMaster.refl s
    · exact (State.fireTimer_master s t _).trans (ih _)

theorem State.expireWait_master (s : State) (t : Fin 16) (i : Nat) : SameMaster s (s.expireWait t i) := by
  have hcount (a b : Nat) f : SameMaster s ((s.traceTask 7 t i 0x3F a b).updSched t f) :=
    (State.traceTask_master s 7 t i 0x3F a b).trans (SameMaster.updSched _ t f)
  unfold State.expireWait
  dsimp only
  refine SameMaster.trans ?_ (State.finishTask_master _ t i _)
  split
  · exact (hcount _ _ _).trans (.of_touches (State.cancelTasks_touches _ t _ (within_refl _) (Touches.refl _ _)))
  · exact hcount _ _ _

theorem State.expireWaits_master (n : Nat) (s : State) (t : Fin 16) (T : Nat) : SameMaster s (s.expireWaits t T n) := by
  induction n generalizing s with
  | zero => exact SameMaster.refl s
  | succ n ih =>
    unfold State.expireWaits
    split
    · exact SameMaster.refl s
    · exact (State.expireWait_master s t _).trans (ih _)

theorem State.declareDeadlock_master (s : State) (t : Fin 16) : SameMaster s (s.declareDeadlock t) := by
  have htrace : SameMaster s (s.trace 0x0B t ⟨0, 0, 0, 0x3F, 0, 0, 0⟩) :=
    .of_touches (State.trace_touches s _ t _ (within_refl _) (Touches.refl _ _))
  unfold State.declareDeadlock
  split
  · exact SameMaster.refl s
  · exact ((htrace.trans (SameMaster.setLive _ _ _ _)).trans (State.failFrame_master _ t _)).trans (SameMaster.raise _ _ _)

theorem State.fallDue_master (s : State) (t : Fin 16) : SameMaster s (s.fallDue t) := by
  have hhold : SameMaster s s.hold := ⟨rfl, rfl, rfl⟩
  have hunhold (u : State) : SameMaster u u.unhold := by
    have hopen : SameMaster u (u.updFrame fun f => { f with together := false }) := ⟨rfl, rfl, rfl⟩
    exact hopen.trans (SameMaster.forEach (fun v a => State.evalWaits_master v a) _)
  unfold State.fallDue
  split
  · exact SameMaster.refl s
  · exact (((hhold.trans (State.fireDue_master _ _ t _)).trans (hunhold _)).trans (State.expireWaits_master _ _ t _)).trans
      (State.declareDeadlock_master _ t)

theorem State.elapse_master (s : State) (k : Nat) : SameMaster s (s.elapse k) := by
  unfold State.elapse
  dsimp only
  split
  · exact SameMaster.refl s
  · generalize hu : s.forTenants _ = u
    have hsched : SameMaster s u := by
      subst hu
      exact SameMaster.forEach (fun u t => SameMaster.updSched u t _) s
    exact hsched.trans ⟨rfl, rfl, rfl⟩

theorem State.passTime_master (s : State) (T n : Nat) : SameMaster s (s.passTime T n) := by
  induction n generalizing s with
  | zero => exact State.elapse_master s _
  | succ n ih =>
    unfold State.passTime
    split
    · exact State.elapse_master s _
    · exact ((State.elapse_master s _).trans (SameMaster.forEach State.fallDue_master _)).trans (ih _)

theorem State.advanceTo_master (s : State) (T : Nat) : SameMaster s (s.advanceTo T) := State.passTime_master s T _

/-! ### A selection fails (15 R589) -/

theorem State.writeSel_master (s : State) (u : Nat) (q : SelReq) (status : Byte) (a b : Nat) (first : Option Nat) (l : List Byte) :
    SameMaster s (s.writeSel u q status a b first l) := by
  have hsel (u : State) t f : SameMaster u (u.updSel t f) := ⟨rfl, rfl, rfl⟩
  unfold State.writeSel
  dsimp only
  split
  · exact State.programFault_master _ _ _
  · refine SameMaster.trans (SameMaster.trans (SameMaster.trans ?_ (SameMaster.setLive _ _ _ _)) (hsel _ _ _)) (State.finishTask_master _ _ _ _)
    exact .of_touches (l := [.tSched, .dram, .lynx]) (State.streamWrite_touches _ _ _ _ _ _ (by decide)
      (State.writeResult_touches s _ _ _ (by decide) (Touches.refl _ _)))

theorem State.failRun_master (s : State) (u : Nat) (status : Byte) : SameMaster s (s.failRun u status) := by
  unfold State.failRun
  split
  · have hfree : SameMaster s (s.updJay u fun j => { j with run := none }) := ⟨rfl, rfl, rfl⟩
    exact (hfree.trans (.of_touches (State.noteGroup_touches _ _ (within_refl _) (Touches.refl _ _)))).trans
      (State.writeSel_master _ _ _ _ _ _ _ _)
  · exact SameMaster.refl s

end Sys2Proof.Machine
end

section
/-! SUPPORT. Ticks, marks and calibration as they arrive and go on (15 R576 to R591). -/
namespace Sys2Proof.Machine
open Sys2Proof
set_option Elab.async false

theorem State.link_at (s : State) (l : Fin 8) : s.link l.val = s.links.at' l := by
  simp only [State.link, bget, dif_pos l.isLt]

/-- A frame taken on a link that is UP has its effect. -/
theorem State.receive_taken {s : State} {l : Fin 8} {f : LinkFrame} {kind : Nat} (hheld : s.held = false)
    (hup : (s.links.at' l).st = .up) (hvalid : f.valid = true) (hkind : f.kind.toNat = kind) (body : State → State) :
    s.receive l.val f kind body = body s := by
  simp [State.receive, hheld, State.link_at, hup, hvalid, hkind]

/-! ### A frame that waits leaves the rest of its link alone (15 R562) -/

theorem Link.flush_echoDue (k : Link) : k.flush.echoDue = k.echoDue := by
  unfold Link.flush
  split <;> rfl
theorem Link.queueFrame_echoDue (k : Link) (f : LinkFrame) : (k.queueFrame f).echoDue = k.echoDue := by
  unfold Link.queueFrame
  split <;> rfl

theorem State.links_updLink_self (s : State) (l : Fin 8) (f : Link → Link) : (s.updLink l.val f).links.at' l = f (s.links.at' l) :=
  Bank.at'_bupd_self s.links l.isLt f

/-! ### Ticks (15 R576, R579, R591) -/

/-- A foreign frame is counted and nothing else of the cascade or the frame moves. -/
theorem State.foreign_counted {s : State} {l : Fin 8} {f : LinkFrame} {i : Instr} (hheld : s.held = false)
    (hup : (s.links.at' l).st = .up) (hvalid : f.valid = true) (hforeign : s.fromMaster l.val f = false)
    (hi : f.kind = 0x21 ∧ i = .tick l f ∨ f.kind = 0x22 ∧ i = .mark l f) : exec i s = .next (settle s.countForeign) := by
  rcases hi with ⟨hkind, rfl⟩ | ⟨hkind, rfl⟩
  · show Host.Outcome.next (settle (s.takeTick l.val f)) = _
    rw [State.takeTick, State.receive_taken hheld hup hvalid (by rw [hkind]; rfl)]
    simp only [hforeign, Bool.not_false, if_true]
  · show Host.Outcome.next (settle (s.takeMark l.val f)) = _
    rw [State.takeMark, State.receive_taken hheld hup hvalid (by rw [hkind]; rfl)]
    simp only [hforeign, Bool.not_false, if_true]

theorem State.acceptTick_aligned (s : State) (f : LinkFrame) (a T : Nat) :
    (s.acceptTick f a T).frame.aligned = some (T, some (BitVec.ofNat 64 f.addr.toNat)) := rfl

/-- What an accepted TICK does to the cascade. -/
theorem State.acceptTick_cascade (s : State) (f : LinkFrame) (a T : Nat) : ∃ g, (s.acceptTick f a T).cascade = { s.cascade with
    masterLost := false, noMark := if s.cascade.masterLost then 0 else s.cascade.noMark, tickForward := s.cascade.tickForward ++ [g] } := by
  have hresync : (s.useResync T).cascade = s.cascade := (State.useResync_touches s T (within_refl _) (Touches.refl _ _)).cascade
  refine ⟨LinkFrame.signed { f with ttl := BitVec.ofNat 8 (f.ttl.toNat - 1), aux := BitVec.ofNat 32 (a + 64) }, ?_⟩
  have hframe : ∀ g, ((s.useResync T).updFrame g).cascade = s.cascade := fun _ => hresync
  simp only [State.acceptTick, State.updCascade_cascade, hframe]

/-- A TICK of the master that is accepted, its lateness raised where it came after TICK_ALIGN. -/
theorem State.takeTick_accepted {s : State} {l : Fin 8} {f : LinkFrame} {a T : Nat} (hheld : s.held = false)
    (hup : (s.links.at' l).st = .up) (hvalid : f.valid = true) (hkind : f.kind = 0x21) (hmaster : s.fromMaster l.val f = true)
    (hsrc : s.tickSrc = 2) (ha : a = f.aux.toNat + (s.links.at' l).delay.toNat)
    (hT : T = s.now + (bits (s.live 0x0D 0x110) 15 0 - a) / s.coreMhz) (haccepted : s.judgeArrival T = .accepted) :
    ∃ u : State, s.takeTick l.val f = u.acceptTick f a T ∧ u.cascade = (s.noteTick f a).cascade := by
  have hlink : f.aux.toNat + (s.link l.val).delay.toNat = a := by
    rw [State.link_at, ha]
  have htaken : ∀ u : State, u.tickSrc = s.tickSrc → u.judgeArrival T = s.judgeArrival T → (if u.tickSrc ≠ 2 then u
      else match u.judgeArrival T with | .accepted => u.acceptTick f a T | .early => u.countEarly | .ignored => u) = u.acceptTick f a T := by
    intro u h1 h2
    simp only [h1, hsrc, h2, haccepted, ne_eq, not_true_eq_false, if_false]
  rw [State.takeTick, State.receive_taken hheld hup hvalid (by rw [hkind]; rfl)]
  simp only [hmaster, Bool.not_true, Bool.false_eq_true, if_false, hlink]
  split
  · refine ⟨(s.noteTick f a).raise 0x0D 3, ?_, rfl⟩
    subst hT
    exact htaken ((s.noteTick f a).raise 0x0D 3) rfl rfl
  · refine ⟨s.noteTick f a, ?_, rfl⟩
    subst hT
    exact htaken (s.noteTick f a) rfl rfl

/-- What an accepted TICK leaves: the boundary's time and number, and the cascade's note of its master. -/
theorem State.tick_accepted {s : State} {l : Fin 8} {f : LinkFrame} {a T : Nat} (hheld : s.held = false)
    (hup : (s.links.at' l).st = .up) (hvalid : f.valid = true) (hkind : f.kind = 0x21) (hmaster : s.fromMaster l.val f = true)
    (hsrc : s.tickSrc = 2) (ha : a = f.aux.toNat + (s.links.at' l).delay.toNat)
    (hT : T = s.now + (bits (s.live 0x0D 0x110) 15 0 - a) / s.coreMhz) (haccepted : s.judgeArrival T = .accepted) :
    ∃ t, exec (.tick l f) s = .next t ∧ t.frame.aligned = some (T, some f.addr) ∧ t.cascade.masterLost = false ∧
      t.cascade.noMark = (if s.cascade.masterLost then 0 else s.cascade.noMark) ∧
      t.cascade.masterPeriod = some (u32At f.payload 0) ∧
      t.cascade.tickForward.length = s.cascade.tickForward.length + 1 ∧ t.cascade.lastA = min 65535 a := by
  obtain ⟨u, hrun, hnoted⟩ := State.takeTick_accepted hheld hup hvalid hkind hmaster hsrc ha hT haccepted
  obtain ⟨g, hcascade⟩ := u.acceptTick_cascade f a T
  refine ⟨settle (s.takeTick l.val f), rfl, ?_⟩
  simp only [settle_fields, hrun, hcascade, State.acceptTick_aligned, hnoted, BitVec.ofNat_toNat, BitVec.setWidth_eq, List.length_append,
    List.length_singleton]
  exact ⟨trivial, trivial, rfl, rfl, rfl, rfl⟩

/-! ### What waits is forwarded (15 R579, R584, R590) -/

theorem State.transmitAll_touches (s : State) (l : List Nat) (f : LinkFrame) :
    Touches [.links] s (s.forEach l fun s i => s.transmit i f) :=
  Touches.forEach (Touches.refl _ _) fun u i h => State.transmit_touches u i f (by decide) h

/-- What waited goes to the child links, unless the master is lost. -/
theorem State.relayed {u v : State} {f : LinkFrame}
    (h : v = if u.cascade.masterLost then u else u.forEach u.childLinks fun s l => s.transmit l f) :
    v.cascade = u.cascade ∧ (u.cascade.masterLost = true → v.links = u.links) := by
  split at h
  · subst h
    exact ⟨rfl, fun _ => rfl⟩
  next hno =>
    subst h
    exact ⟨(State.transmitAll_touches u _ f).cascade, fun hlost => absurd hlost hno⟩

theorem State.forwardTick_effect {s : State} {f : LinkFrame} {r : List LinkFrame} (hheld : s.held = false)
    (h : s.cascade.tickForward = f :: r) : s.forwardTick.cascade = { s.cascade with tickForward := r } ∧
      (s.cascade.masterLost = true → s.forwardTick.links = s.links) := by
  refine State.relayed (u := s.updCascade fun c => { c with tickForward := r }) (f := f) ?_
  simp only [State.forwardTick, h, hheld, Bool.false_eq_true, if_false]

theorem State.forwardMark_effect {s : State} {f : LinkFrame} {r : List LinkFrame} (hheld : s.held = false)
    (h : s.cascade.markForward = f :: r) : s.forwardMark.cascade = { s.cascade with markForward := r } ∧
      (s.cascade.masterLost = true → s.forwardMark.links = s.links) := by
  refine State.relayed (u := s.updCascade fun c => { c with markForward := r }) (f := f) ?_
  simp only [State.forwardMark, h, hheld, Bool.false_eq_true, if_false]

/-! ### Marks and the master's loss (15 R584, R589) -/

theorem State.takeMark_master {s : State} {l : Fin 8} {f : LinkFrame} (hheld : s.held = false) (hup : (s.links.at' l).st = .up)
    (hvalid : f.valid = true) (hkind : f.kind = 0x22) (hmaster : s.fromMaster l.val f = true) :
    s.takeMark l.val f = s.updCascade fun c =>
      { c with noMark := 0, markForward := c.markForward ++ [{ f with ttl := BitVec.ofNat 8 (f.ttl.toNat - 1) }] } := by
  rw [State.takeMark, State.receive_taken hheld hup hvalid (by rw [hkind]; rfl)]
  simp only [hmaster, Bool.not_true, Bool.false_eq_true, if_false]

theorem State.declareLost_master {s : State} (h : s.cascade.masterLost = false) : s.declareLost.cascade.masterLost = true ∧
    s.declareLost.cascade.colls = [] ∧ s.declareLost.frame.masterLost = (s.frame.masterLost || s.frame.inFrame) := by
  unfold State.declareLost
  simp only [h, Bool.false_eq_true, if_false]
  generalize hv : (s.updCascade fun c => { c with masterLost := true, colls := [] }).updFrame (fun f =>
    { f with masterLost := f.masterLost || f.inFrame }) = v
  have hfailed : SameMaster v (v.forEach (List.range 4) fun s u => match (s.jay u).run with
      | some r => if r.waiting then s.failRun u codeMasterLost else s
      | none => s) := by
    refine SameMaster.forEach (fun w u => ?_) v
    split
    · split
      · exact State.failRun_master _ _ _
      · exact SameMaster.refl w
    · exact SameMaster.refl w
  have hdeclared : v.cascade.masterLost = true ∧ v.cascade.colls = [] ∧ v.frame.masterLost = (s.frame.masterLost || s.frame.inFrame) := by
    subst hv
    exact ⟨rfl, rfl, rfl⟩
  exact ⟨hfailed.lost.trans hdeclared.1, hfailed.colls.trans hdeclared.2.1, hfailed.cut.trans hdeclared.2.2⟩

theorem State.loseMaster_effect {s : State} (hheld : s.held = false) (hrole : s.role = 2) (hrun : s.frame.run = true)
    (hlost : s.cascade.masterLost = false) : s.loseMaster.cascade.masterLost = true ∧ s.loseMaster.cascade.colls = [] ∧
      s.loseMaster.now = s.now + (16 - s.cascade.noMark) ∧ (s.frame.inFrame = true → s.loseMaster.frame.masterLost = true) := by
  have hlose : s.loseMaster = (s.advanceTo (s.now + (16 - s.cascade.noMark))).declareLost := by
    simp [State.loseMaster, hheld, hrole, hrun, hlost]
  generalize hu : s.advanceTo (s.now + (16 - s.cascade.noMark)) = u
  have hsame : SameMaster s u := hu ▸ State.advanceTo_master s _
  have hnow : u.now = s.now + (16 - s.cascade.noMark) := by
    rw [← hu, State.advanceTo_now]
    omega
  have hin : u.frame.inFrame = s.frame.inFrame := by
    rw [← hu]
    exact ((State.advanceTo_own s _).tick).1
  obtain ⟨hdeclared, hcolls, hcut⟩ := State.declareLost_master (hsame.lost.trans hlost)
  rw [hlose, hu]
  refine ⟨hdeclared, hcolls, ?_, fun hinFrame => ?_⟩
  · rw [(State.declareLost_touches u (within_refl _) (Touches.refl _ _)).now, hnow]
  · rw [hcut, hin, hinFrame, Bool.or_true]

/-! ### Calibration (15 R577) -/

theorem State.cal_taken {s : State} {l : Fin 8} {f : LinkFrame} (hheld : s.held = false) (hup : (s.links.at' l).st = .up)
    (hvalid : f.valid = true) (hkind : f.kind = 0x23) :
    exec (.cal l f) s = .next (settle (s.updLink l.val fun k => { k with echoDue := k.echoDue + 1 })) := by
  show Host.Outcome.next (settle (s.receive l.val f 0x23 _)) = _
  rw [State.receive_taken hheld hup hvalid (by rw [hkind]; rfl)]

theorem State.calEcho_taken {s : State} {l : Fin 8} {f : LinkFrame} (hheld : s.held = false) (hup : (s.links.at' l).st = .up)
    (hvalid : f.valid = true) (hkind : f.kind = 0x24) (r : Nat) :
    exec (.calEcho l f r) s = .next (settle (s.updLink l.val fun k => { k with
      delayNext := some (BitVec.ofNat 16 (min 0xFFFF ((r - 512) / 2))), roundTrip := BitVec.ofNat 16 (min 0xFFFF r), calibrated := true })) := by
  show Host.Outcome.next (settle (s.takeEcho l.val f r)) = _
  rw [State.takeEcho, State.receive_taken hheld hup hvalid (by rw [hkind]; rfl)]

theorem State.echoCal_echoDue {s : State} {l : Fin 8} (hheld : s.held = false) (hup : (s.links.at' l).st = .up)
    (hdue : 0 < (s.links.at' l).echoDue) : ((s.echoCal l.val).links.at' l).echoDue = (s.links.at' l).echoDue - 1 := by
  have hecho : s.echoCal l.val =
      (s.updLink l.val fun k => { k with echoDue := k.echoDue - 1 }).transmit l.val (s.localFrame 0x24 0 0 []) := by
    simp [State.echoCal, hheld, State.link_at, hup, Nat.pos_iff_ne_zero.mp hdue]
  rw [hecho, State.transmit, State.links_updLink_self, Link.flush_echoDue, Link.queueFrame_echoDue, State.links_updLink_self]

end Sys2Proof.Machine
end

section
/-! SUPPORT. Lynx (14 R541 to R545): what a divergence records, and that its event outlasts the freeze of the package. -/
namespace Sys2Proof.Machine
open Sys2Proof
set_option Elab.async false

/-! ### An event outlasts a freeze (14 R543, R544) -/

/-- What a key reads stands when another key is taken out, where it reads no default. -/
theorem mget_mdel_of_ne_default {β : Type} {d : β} {m : List (Nat × β)} {k j : Nat} (hj : j ≠ k) (h : mget d m j ≠ d) :
    mget d (mdel m k) j = mget d m j := by
  induction m with
  | nil => exact absurd rfl h
  | cons x r ih =>
    obtain ⟨a, v⟩ := x
    have hcons : mdel ((a, v) :: r) k = if a = k then mdel r k else (a, v) :: mdel r k := by
      by_cases hak : a = k <;> simp [mdel, hak]
    rw [hcons]
    by_cases hja : j = a
    · subst hja
      simp [hj, mget]
    · by_cases hlt : j < a
      · simp [mget, hja, hlt] at h
      · simp only [mget, hja, hlt, if_false] at h
        split
        · simp only [mget, hja, hlt, if_false]
          exact ih h
        · simp only [mget, hja, hlt, if_false]
          exact ih h

/-- A latch bit of a page that is 1 stays 1. -/
structure KeepsLatch (p i : Nat) (s u : State) : Prop where
  keeps : (mget 0 s.attn.latch p).getLsbD i = true → (mget 0 u.attn.latch p).getLsbD i = true

theorem KeepsLatch.refl (p i : Nat) (s : State) : KeepsLatch p i s s := ⟨id⟩

theorem KeepsLatch.trans {p i : Nat} {s u v : State} (h : KeepsLatch p i s u) (k : KeepsLatch p i u v) : KeepsLatch p i s v :=
  ⟨k.keeps ∘ h.keeps⟩

theorem KeepsLatch.of_touches {p i : Nat} {l : List Part} {s u : State} (h : Touches l s u)
    (hattn : l.contains .attn = false := by decide) : KeepsLatch p i s u :=
  ⟨fun hs => by rwa [h.attn hattn]⟩

theorem KeepsLatch.forEach {α : Type} {p i : Nat} {l : List α} {f : State → α → State} (h : ∀ u a, KeepsLatch p i u (f u a)) (s : State) :
    KeepsLatch p i s (s.forEach l f) :=
  State.forEach_induction (I := KeepsLatch p i s) (fun u hu a _ => hu.trans (h u a)) (KeepsLatch.refl p i s)

theorem State.resetPage_keepsLatch (s : State) {page p : Nat} (hp : p ≠ page) (i : Nat) : KeepsLatch p i s (s.resetPage page) := by
  refine ⟨fun h => ?_⟩
  have hset : mget 0 s.attn.latch p ≠ 0 := fun h0 => by
    rw [h0] at h
    simp at h
  show (mget 0 (mdel s.attn.latch page) p).getLsbD i = true
  rw [mget_mdel_of_ne_default hp hset, h]

theorem State.completeCmd_keepsLatch (s : State) (t : Fin 16) (c : Cmd) (code : Byte) (detail : BitVec 160) {p : Nat} (hp : p < 0x40)
    (i : Nat) : KeepsLatch p i s (s.completeCmd t c code detail) := by
  have hqueue (u : State) f : KeepsLatch p i u (u.updQueue t c.q f) :=
    .of_touches (State.updQueue_touches u t c.q f (within_refl _) (Touches.refl _ _))
  have hreap (u : State) : KeepsLatch p i u (u.reapQueue t c.q) := by
    have hpage : p ≠ queuePage t c.q := by
      unfold queuePage
      omega
    unfold State.reapQueue
    split
    · exact (State.resetPage_keepsLatch u hpage i).trans (.of_touches (State.updQueue_touches _ t c.q _ (within_refl _) (Touches.refl _ _)))
    · exact KeepsLatch.refl p i u
  have hfree : KeepsLatch p i s (s.updTenant t fun n => { n with cmds := n.cmds.filter fun d => d.tag ≠ c.tag }) := ⟨id⟩
  unfold State.completeCmd
  dsimp only
  split
  · exact (hfree.trans (hqueue _ _)).trans (hreap _)
  · exact hfree.trans (hqueue _ _)

/-- A package fault clears no event but those of queue pages. -/
theorem State.packageFault_keepsLatch (s : State) (f : PkgFault → PkgFault) {p : Nat} (hp : p < 0x40) (i : Nat) :
    KeepsLatch p i s (s.packageFault f) := by
  have hfault : KeepsLatch p i s (s.updFault f) := ⟨id⟩
  refine hfault.trans (KeepsLatch.forEach (fun u t => ?_) _)
  have hcomplete : KeepsLatch p i u (u.completeAll t (u.tenant t).cmds codeInternal) :=
    KeepsLatch.forEach (fun v c => State.completeCmd_keepsLatch v t c codeInternal 0 hp i) u
  exact hcomplete.trans (.of_touches (State.updWorld_touches _ t _ (within_refl _) (Touches.refl _ _)))

theorem State.logEvent_keepsLatch (s : State) (page event severity : Nat) (result : Byte) (unit : Nat) (data : List Byte) (p i : Nat) :
    KeepsLatch p i s (s.logEvent page event severity result unit data) := by
  refine ⟨fun h => ?_⟩
  unfold State.logEvent
  dsimp only
  split
  · exact Attn.setLatch_latch _ _ _ _ _ (.inl h)
  · exact h

theorem State.freeze_keepsLatch (s : State) {p : Nat} (hp : p < 0x40) (i : Nat) : KeepsLatch p i s s.freeze := by
  have hdraw : KeepsLatch p i s s.draw := ⟨id⟩
  have hlynx (u : State) f : KeepsLatch p i u (u.updLynx f) := ⟨id⟩
  unfold State.freeze
  split
  · exact KeepsLatch.refl p i s
  · exact ((hdraw.trans (State.logEvent_keepsLatch _ _ _ _ _ _ _ p i)).trans (hlynx _ _)).trans (State.packageFault_keepsLatch _ _ hp i)

/-! ### What a divergence records (14 R543, R544) -/

/-- The freeze of the package notes itself in the comparator and leaves the rest of it. -/
theorem State.freeze_lynx (s : State) : ∃ b, s.freeze.lynx = { s.lynx with frozen := b } := by
  unfold State.freeze
  split
  · exact ⟨s.lynx.frozen, rfl⟩
  · refine ⟨true, ?_⟩
    have hlog : ∀ e, (s.draw.logEvent 0x0B e 3 codeDiverged 0xFF []).lynx = s.lynx := fun e =>
      (State.logEvent_touches s.draw 0x0B e 3 codeDiverged 0xFF [] (within_refl _) (Touches.refl _ _)).lynx
    dsimp only
    rw [(State.packageFault_touches _ _ (within_refl _) (Touches.refl _ _)).lynx, State.updLynx_lynx, hlog]

/-- A divergence of a kind leaves one more counted, its record held, and what the windows keep as it was; the first one's record is its
own, and it is raised. -/
structure Diverged (kind : Nat) (s u : State) : Prop where
  count : u.lynx.divCount = min 65535 (s.lynx.divCount + 1)
  held : u.lynx.held = true
  kept : u.lynx.kept = s.lynx.kept
  record : s.lynx.held = false → u.lynx.divKind = kind ∧ u.lynx.divFrame = s.frame.number ∧ (mget 0 u.attn.latch 0x0B).getLsbD 0 = true

theorem State.diverge_diverged (s : State) (kind window stream offset : Nat) (own other : BitVec 64) :
    Diverged kind s (s.diverge kind window stream offset own other) := by
  by_cases hheld : s.lynx.held = true
  · rw [State.diverge, if_pos hheld]
    exact ⟨rfl, hheld, rfl, fun hfree => absurd hheld (by simp [hfree])⟩
  · rw [State.diverge, if_neg hheld]
    extract_lets n s1 s2
    generalize hsent : s2.transmit 0 (s2.localFrame 0x26 n.toNat window s2.lynx.notice) = v
    have htouch : Touches [.links] s2 v := by
      rw [← hsent]
      exact State.transmit_touches s2 _ _ (within_refl _) (Touches.refl _ _)
    obtain ⟨b, hfrozen⟩ := v.freeze_lynx
    have hlynx : v.freeze.lynx = { s2.lynx with frozen := b } := by
      rw [hfrozen, htouch.lynx]
    have hraised : (mget 0 v.attn.latch 0x0B).getLsbD 0 = true := by
      rw [htouch.attn]
      exact State.raise_latch s.countDiv 0x0B (by decide)
    refine ⟨?_, ?_, ?_, fun _ => ⟨?_, ?_, (State.freeze_keepsLatch v (by decide) 0).keeps hraised⟩⟩ <;> rw [hlynx] <;> rfl

theorem State.divergeFree_diverged (s : State) (kind window : Nat) : Diverged kind s (s.divergeFree kind window) := by
  obtain ⟨hcount, hheld, hkept, hrecord⟩ := State.diverge_diverged { s with draws := s.draws + 6 } kind window
    ((Config.freeByte s.draws).toNat % 76) (Config.freeWord (s.draws + 1)).toNat
    ((Config.freeWord (s.draws + 2)).append (Config.freeWord (s.draws + 2 + 1)))
    ((Config.freeWord (s.draws + 4)).append (Config.freeWord (s.draws + 4 + 1)))
  exact ⟨hcount, hheld, hkept, hrecord⟩

/-! ### Settling raises only what its conditions say (12 R460) -/

theorem Attn.setLatch_latch_of_raw {a : Attn} {raw : Word} {p i : Nat} (page : Nat) (h : page = p → raw.getLsbD i = false) :
    (mget 0 (a.setLatch page raw).latch p).getLsbD i = (mget 0 a.latch p).getLsbD i := by
  unfold Attn.setLatch
  dsimp only
  split
  · rfl
  next hrise =>
    have hv : mget 0 a.latch page ||| raw ≠ 0 := fun e => hrise (by
      rw [(BitVec.or_eq_zero_iff.mp e).2]
      simp)
    rw [(Attn.advance_keeps _ _ _).1]
    by_cases hp : p = page
    · subst hp
      rw [mget_mset_same _ _ _ hv, BitVec.getLsbD_or, h rfl, Bool.or_false]
    · rw [mget_mset_other _ _ hp hv]

theorem Attn.setLevel_latch (a : Attn) (page : Nat) (lvl : Word) : (a.setLevel page lvl).latch = a.latch := by
  unfold Attn.setLevel
  dsimp only
  split
  · rfl
  · rw [(Attn.advance_keeps _ _ _).1]

/-- A latch bit that is no condition of its page stands when the state settles. -/
theorem settle_latch_of_raw {s : State} {p i : Nat} (h : (s.attnRaw p).getLsbD i = false) :
    (mget 0 (settle s).attn.latch p).getLsbD i = (mget 0 s.attn.latch p).getLsbD i := by
  have hfold : ∀ (l : List Nat) (a : Attn),
      (mget 0 (l.foldl (fun a p => (a.setLatch p (s.attnRaw p)).setLevel p (s.wmarkLevel p)) a).latch p).getLsbD i =
        (mget 0 a.latch p).getLsbD i := by
    intro l
    induction l with
    | nil => exact fun _ => rfl
    | cons x r ih =>
      intro a
      rw [List.foldl_cons, ih, Attn.setLevel_latch, Attn.setLatch_latch_of_raw x (fun hx => by rw [hx, h])]
  show (mget 0 s.settledAttn.latch p).getLsbD i = _
  unfold State.settledAttn Attn.advanceAll
  exact hfold watchedPages s.attn

/-- A divergence is an event of LYNX, no condition (14 R543). -/
theorem State.lynx_raw (s : State) : (s.attnRaw 0x0B).getLsbD 0 = false := by
  have hconditions : ∀ a b c : Bool, (bitsOf [(1, a), (2, b), (3, c)]).getLsbD 0 = false := by decide
  exact hconditions _ _ _

/-! ### Frames of signatures and the end of a window (14 R541, R542) -/

theorem State.held_of_lynxOn {s : State} (h : s.lynxOn = true) : s.held = false := by
  simp only [State.lynxOn, Bool.and_eq_true, Bool.not_eq_true'] at h
  exact h.1.1.1

theorem State.endWindow_effect {s : State} (hon : s.lynxOn = true) (hin : s.frame.inFrame = true)
    (hstarted : s.windowAt s.lynx.window < s.deadlineAt 7) :
    s.endWindow.lynx = { s.lynx with
      kept := s.lynx.kept ++ [(s.lynx.window, s.lynx.sigs.toList, s.lynx.bytesBefore.toList, [])], sigs := Vector.replicate 76 0
      bytesBefore := s.lynx.bytesNow, window := s.lynx.window + 1 } ∧
    s.endWindow.now = max s.now (min (s.windowAt (s.lynx.window + 1)) (s.deadlineAt 7)) := by
  have hpassed := (State.advanceTo_own s (min (s.windowAt (s.lynx.window + 1)) (s.deadlineAt 7))).lynx
  have hnow := s.advanceTo_now (min (s.windowAt (s.lynx.window + 1)) (s.deadlineAt 7))
  unfold State.endWindow
  simp only [hon, hin, Nat.not_le.mpr hstarted, Bool.not_true, Bool.or_false, decide_false, Bool.false_eq_true, if_false]
  generalize s.advanceTo (min (s.windowAt (s.lynx.window + 1)) (s.deadlineAt 7)) = u at hpassed hnow ⊢
  generalize hv : u.updLynx _ = v
  have hsent : Touches [.links] v (v.forEach (v.sigFrames s.lynx.window s.lynx.sigs.toList) fun s f => s.transmit 0 f) :=
    Touches.forEach (Touches.refl _ _) fun w f h => State.transmit_touches w 0 f (by decide) h
  rw [hsent.lynx, hsent.now, ← hv, State.updLynx_lynx, hpassed]
  exact ⟨rfl, hnow⟩

theorem State.takeSig_taken {s : State} {f : LinkFrame} (hon : s.lynxOn = true) (hup : (s.links.at' 0).st = .up) (hvalid : f.valid = true)
    (hkind : f.kind = 0x25) : s.takeSig f = if f.addr ≠ s.frame.number then s.divergeFree 3 (bits f.aux.toNat 11 0)
      else (if bits f.aux.toNat 11 0 = s.lynx.window % 4096 then s.endWindow else s).compareSigs f := by
  have htaken : ∀ body, s.receive 0 f 0x25 body = body s :=
    State.receive_taken (l := 0) (State.held_of_lynxOn hon) hup hvalid (by rw [hkind]; rfl)
  rw [State.takeSig, htaken]
  simp only [hon, Bool.not_true, Bool.false_eq_true, if_false]

theorem State.takeNotice_taken {s : State} {f : LinkFrame} (hheld : s.held = false) (hup : (s.links.at' 0).st = .up)
    (hvalid : f.valid = true) (hkind : f.kind = 0x26) : s.takeNotice f =
      if s.lynx.held then s.countDiv else if s.lynxOn then s.divergeFree 4 f.aux.toNat else s := by
  have htaken : ∀ body, s.receive 0 f 0x26 body = body s := State.receive_taken (l := 0) hheld hup hvalid (by rw [hkind]; rfl)
  rw [State.takeNotice, htaken]

/-- Signatures of no window kept compare with nothing. -/
theorem State.compareSigs_unkept {s : State} {f : LinkFrame} (h : ∀ k ∈ s.lynx.kept, k.1 % 4096 ≠ bits f.aux.toNat 11 0) :
    s.compareSigs f = s := by
  have hnone : (s.lynx.kept.find? fun k => k.1 % 4096 = bits f.aux.toNat 11 0) = none :=
    List.find?_eq_none.mpr fun k hk => by simpa using h k hk
  unfold State.compareSigs
  simp only [hnone]

/-- Signatures that agree count no divergence; the first that differs counts one, and its window is done with. -/
theorem State.compareSigs_kept {s : State} {f : LinkFrame} {k : Nat × List (BitVec 64) × List Nat × List Nat} (hkept : s.lynx.kept = [k])
    (hw : k.1 % 4096 = bits f.aux.toNat 11 0) :
    ((∀ x ∈ sigsOf f, x.2 = lget 0 k.2.1 x.1) → (s.compareSigs f).lynx.divCount = s.lynx.divCount) ∧
    ((∃ x ∈ sigsOf f, x.2 ≠ lget 0 k.2.1 x.1) →
      (s.compareSigs f).lynx.divCount = min 65535 (s.lynx.divCount + 1) ∧ (s.compareSigs f).lynx.kept = []) := by
  have hfind : (s.lynx.kept.find? fun k => k.1 % 4096 = bits f.aux.toNat 11 0) = some k := by
    simp [hkept, hw]
  unfold State.compareSigs
  simp only [hfind]
  refine ⟨fun hagree => ?_, fun ⟨x, hx, hdiffers⟩ => ?_⟩
  · have hnone : ((sigsOf f).find? fun x => x.2 ≠ lget 0 k.2.1 x.1) = none :=
      List.find?_eq_none.mpr fun x hx => by simpa using hagree x hx
    simp only [hnone]
    rfl
  · have hsome : ((sigsOf f).find? fun x => x.2 ≠ lget 0 k.2.1 x.1).isSome = true :=
      List.find?_isSome.mpr ⟨x, hx, decide_eq_true hdiffers⟩
    obtain ⟨y, hy⟩ := Option.isSome_iff_exists.mp hsome
    simp only [hy]
    have hdone := State.diverge_diverged (s.updLynx fun y => { y with kept := s.lynx.kept.filter fun j => j.1 ≠ k.1 }) 1 k.1 y.1
      (lget 0 k.2.2.1 y.1) (lget 0 k.2.1 y.1) y.2
    refine ⟨hdone.count, hdone.kept.trans ?_⟩
    show s.lynx.kept.filter _ = []
    simp [hkept]

/-- The partner's signatures for a window stay away: a divergence, and the partner is lost. -/
theorem State.missSigs_effect {s : State} {w : Nat} (hon : s.lynxOn = true) (hended : w + 9 ≤ s.lynx.window)
    (hkept : (s.lynx.kept.any fun k => k.1 = w) = true) :
    (s.missSigs w).lynx.partnerLost = true ∧ (s.missSigs w).lynx.comparing = false ∧ (s.missSigs w).lynx.kept = [] ∧
      (s.missSigs w).lynx.divCount = min 65535 (s.lynx.divCount + 1) := by
  have hmiss : s.missSigs w = (s.divergeFree 2 w).updLynx fun x => { x with partnerLost := true, comparing := false, kept := [] } := by
    simp only [State.missSigs, hon, hkept, Nat.not_lt.mpr hended, Bool.not_true, decide_false, Bool.or_self, Bool.false_eq_true, if_false]
  rw [hmiss]
  exact ⟨rfl, rfl, rfl, (State.divergeFree_diverged s 2 w).count⟩

/-! ### The statement -/

/-- What the cascade's frames do, part by part. -/
theorem State.cascade_takes {s : State} (hheld : s.held = false) {l : Fin 8} {f : LinkFrame} (hup : (s.links.at' l).st = .up)
    (hvalid : f.valid = true) :
    (f.kind = 0x22 → s.fromMaster l.val f = true → ∃ t, exec (.mark l f) s = .next t ∧ t.cascade =
        { s.cascade with noMark := 0, markForward := s.cascade.markForward ++ [{ f with ttl := BitVec.ofNat 8 (f.ttl.toNat - 1) }] }) ∧
    (f.kind = 0x23 → ∃ t, exec (.cal l f) s = .next t ∧
        t.links.at' l = { s.links.at' l with echoDue := (s.links.at' l).echoDue + 1 }) ∧
    (f.kind = 0x24 → ∀ r, ∃ t, exec (.calEcho l f r) s = .next t ∧ t.links.at' l = { s.links.at' l with
        delayNext := some (BitVec.ofNat 16 (min 0xFFFF ((r - 512) / 2))), roundTrip := BitVec.ofNat 16 (min 0xFFFF r), calibrated := true }) := by
  refine ⟨fun hkind hmaster => ⟨settle (s.takeMark l.val f), rfl, ?_⟩, fun hkind => ⟨_, State.cal_taken hheld hup hvalid hkind, ?_⟩,
    fun hkind r => ⟨_, State.calEcho_taken hheld hup hvalid hkind r, ?_⟩⟩
  · simp only [settle_fields, State.takeMark_master hheld hup hvalid hkind hmaster, State.updCascade_cascade]
  · simp only [settle_fields, State.links_updLink_self]
  · simp only [settle_fields, State.links_updLink_self]

/-- Settles O56: the cascade's frames by what each does, Lynx by what a divergence records. -/
theorem ticksMarksAndLynxTakeEffect : Obligations.TicksMarksAndLynxTakeEffect := by
  unfold Obligations.TicksMarksAndLynxTakeEffect
  refine ⟨fun s hheld => ⟨fun l f hup hvalid => ?_, fun l hup hdue => ⟨settle (s.echoCal l.val), rfl, ?_⟩,
    fun f r hwaits => ⟨settle s.forwardTick, rfl, ?_⟩, fun f r hwaits => ⟨settle s.forwardMark, rfl, ?_⟩,
    fun hrole hrun => ?_, fun hrole hrun hlost => ⟨settle s.loseMaster, rfl, ?_⟩⟩,
    fun s f hheld hup hvalid hkind hrecord => ⟨settle (s.takeNotice f), rfl, ?_⟩, fun s hon => ⟨fun hin hstarted => ?_, fun f hup hvalid => ?_,
    fun w hended hkept => ⟨settle (s.missSigs w), rfl, ?_⟩, fun w hctl => ⟨settle (s.updLynx Lynx.clearRecord), ?_, ?_⟩⟩⟩
  · obtain ⟨hmark, hcal, hecho⟩ := State.cascade_takes hheld hup hvalid
    refine ⟨fun i _ hi hforeign => ⟨_, State.foreign_counted hheld hup hvalid hforeign hi, ?_⟩,
      fun hkind hmaster hsrc a T ha hT haccepted => State.tick_accepted hheld hup hvalid hkind hmaster hsrc ha hT haccepted, hmark, hcal, hecho⟩
    simp only [settle_fields]
    exact ⟨rfl, rfl⟩
  · simp only [settle_fields]
    exact State.echoCal_echoDue hheld hup hdue
  · simp only [settle_fields]
    exact State.forwardTick_effect hheld hwaits
  · simp only [settle_fields]
    exact State.forwardMark_effect hheld hwaits
  · show Host.Outcome.next (settle s.sendMark) = _
    simp only [State.sendMark, hheld, hrole, hrun, ne_eq, not_true_eq_false, decide_false, Bool.not_true, Bool.or_self, Bool.false_eq_true,
      if_false]
  · simp only [settle_fields]
    exact State.loseMaster_effect hheld hrole hrun hlost
  · rw [State.takeNotice_taken hheld hup hvalid hkind, if_pos hrecord]
    refine ⟨?_, ?_, ?_⟩
    · simp only [settle_fields]
      rfl
    · exact settle_latch_of_raw (State.lynx_raw s.countDiv)
    · simp only [settle_fields]
      rfl
  · obtain ⟨hlynx, hnow⟩ := State.endWindow_effect hon hin hstarted
    refine ⟨settle s.endWindow, rfl, ?_⟩
    simp only [settle_fields, hlynx, hnow, and_self]
  · have hheld := State.held_of_lynxOn hon
    refine ⟨fun hkind hframe => ⟨settle (s.takeSig f), rfl, ?_⟩, fun hkind hframe hunkept hwindow => ⟨settle (s.takeSig f), rfl, ?_⟩,
      fun k hkind hframe hkept hw hwindow => ⟨settle (s.takeSig f), rfl, ?_⟩, fun hkind => ⟨settle (s.takeNotice f), rfl, ?_⟩⟩
    · have hdone := State.divergeFree_diverged s 3 (bits f.aux.toNat 11 0)
      simp only [settle_fields, State.takeSig_taken hon hup hvalid hkind, hframe, ne_eq, not_false_eq_true, if_true]
      exact ⟨hdone.count, hdone.held, fun hfree => (hdone.record hfree).1⟩
    · simp only [settle_fields, State.takeSig_taken hon hup hvalid hkind, hframe, ne_eq, not_true_eq_false, if_false, hwindow,
        State.compareSigs_unkept hunkept]
    · simp only [settle_fields, State.takeSig_taken hon hup hvalid hkind, hframe, ne_eq, not_true_eq_false, if_false, hwindow]
      exact State.compareSigs_kept hkept hw
    · by_cases hrecord : s.lynx.held = true
      · rw [State.takeNotice_taken hheld hup hvalid hkind, if_pos hrecord]
        simp only [settle_fields]
        exact ⟨rfl, fun hfree => absurd hrecord (by simp [hfree])⟩
      · obtain ⟨hcount, -, -, hfirst⟩ := State.divergeFree_diverged s 4 f.aux.toNat
        rw [State.takeNotice_taken hheld hup hvalid hkind, if_neg hrecord, if_pos hon]
        simp only [settle_fields]
        refine ⟨hcount, fun hfree => ?_⟩
        obtain ⟨hkind4, hnumber, hlatch⟩ := hfirst hfree
        exact ⟨hkind4, hnumber, settle_latch _ _ _ hlatch⟩
  · simp only [settle_fields]
    exact State.missSigs_effect hon hended hkept
  · show Host.Outcome.next (settle (if s.ctlReaches w 0x0B then s.updLynx Lynx.clearRecord else s.refuseWrite w 0x0B true)) = _
    rw [if_pos hctl]
  · simp only [settle_fields]
    exact ⟨rfl, rfl, rfl, rfl⟩

end Sys2Proof.Machine
end


section
/-! SUPPORT. Canonical forms: every command's effect keeps attention's maps and the tenants' static tiles in canonical form. The primitives of
attention and of the worlds by what a write of a map keeps; an operation that touches neither by what it touches; every other by what it is
made of: where it has few branches they are written out, and where it has many each state it reaches is built from `s` by the rules named. -/
namespace Sys2Proof.Machine
open Sys2Proof
set_option Elab.async false

/-! ### Attention and worlds -/

/-- The maps of attention that commands read and write by key are in canonical form. -/
structure Attn.Rises (a : Attn) : Prop where
  latch : keysRise a.latch
  mask : keysRise a.mask
  errCount : keysRise a.errCount
  crossed : keysRise a.crossed

theorem State.canonical_iff (s : State) : s.Canonical ↔ s.attn.Rises ∧ ∀ t, keysRise (s.tenant t).world.stat :=
  ⟨fun h => ⟨⟨h.latch, h.mask, h.errCount, h.crossed⟩, h.tiles⟩,
    fun ⟨ha, ht⟩ => ⟨ha.latch, ha.mask, ha.errCount, ha.crossed, ht⟩⟩

namespace Attn.Rises

theorem advance {a : Attn} (h : a.Rises) (page n : Nat) : (a.advance page n).Rises := by
  unfold Attn.advance
  split
  · exact h
  · split <;> exact ⟨h.latch, h.mask, h.errCount, h.crossed⟩

theorem setLatch {a : Attn} (h : a.Rises) (page : Nat) (raw : Word) : (a.setLatch page raw).Rises := by
  unfold Attn.setLatch
  dsimp only
  split
  · exact h
  · refine advance ?_ _ _
    exact ⟨keysRise_mset h.latch _ _, h.mask, h.errCount, h.crossed⟩

theorem setLevel {a : Attn} (h : a.Rises) (page : Nat) (lvl : Word) : (a.setLevel page lvl).Rises := by
  unfold Attn.setLevel
  dsimp only
  split
  · exact h
  · refine advance ?_ _ _
    exact ⟨h.latch, h.mask, h.errCount, keysRise_mset h.crossed _ _⟩

theorem setMask {a : Attn} (h : a.Rises) (page : Nat) (new : Word) : (a.setMask page new).Rises := by
  refine advance ?_ _ _
  exact ⟨h.latch, keysRise_mset h.mask _ _, h.errCount, h.crossed⟩

theorem clearLatch {a : Attn} (h : a.Rises) (page : Nat) (raw bits : Word) : (a.clearLatch page raw bits).Rises :=
  ⟨keysRise_mset h.latch _ _, h.mask, h.errCount, h.crossed⟩

theorem clearCrossed {a : Attn} (h : a.Rises) (page : Nat) (bits : Word) : (a.clearCrossed page bits).Rises :=
  ⟨h.latch, h.mask, h.errCount, keysRise_mset h.crossed _ _⟩

theorem bumpErr {a : Attn} (h : a.Rises) (page : Nat) : (a.bumpErr page).Rises :=
  ⟨h.latch, h.mask, keysRise_mset h.errCount _ _, h.crossed⟩

theorem resetPage {a : Attn} (h : a.Rises) (page : Nat) : (a.resetPage page).Rises :=
  ⟨keysRise_mdel h.latch _, keysRise_mdel h.mask _, keysRise_mdel h.errCount _, keysRise_mdel h.crossed _⟩

theorem setResults {a : Attn} (h : a.Rises) (pages : List Nat) (code : Byte) : (pages.foldl (fun a g => a.setResult g code) a).Rises := by
  induction pages generalizing a with
  | nil => exact h
  | cons g r ih => exact ih ⟨h.latch, h.mask, h.errCount, h.crossed⟩

end Attn.Rises

namespace State.Canonical

/-- What attention and the worlds leave as it is. -/
theorem congr {s t : State} (h : s.Canonical) (ha : t.attn = s.attn) (hw : ∀ k, (t.tenant k).world = (s.tenant k).world) : t.Canonical := by
  rw [canonical_iff] at h ⊢
  simpa only [ha, hw] using h

/-- An operation that touches neither attention nor a world. -/
theorem of_touches {l : List Part} {s t : State} (h : s.Canonical) (k : Touches l s t)
    (hl : ([.attn, .tWorld].all fun p => ! l.contains p) = true := by decide) : t.Canonical := by
  have hp : ∀ p ∈ [Part.attn, .tWorld], l.contains p = false := fun p hp => by simpa using List.all_eq_true.mp hl p hp
  exact h.congr (k.attn (hp _ (by decide))) fun t => k.tWorld t (hp _ (by decide))

theorem updAttn {s : State} (h : s.Canonical) {f : Attn → Attn} (hf : s.attn.Rises → (f s.attn).Rises) : (s.updAttn f).Canonical := by
  rw [canonical_iff] at h ⊢
  exact ⟨hf h.1, h.2⟩

theorem updTenant {s : State} (h : s.Canonical) {t : Fin 16} {f : Tenant → Tenant}
    (hf : keysRise (s.tenant t).world.stat → keysRise (f (s.tenant t)).world.stat) : (s.updTenant t f).Canonical := by
  rw [canonical_iff] at h ⊢
  refine ⟨h.1, fun k => ?_⟩
  by_cases e : t = k
  · subst e
    rw [State.tenant_updTenant_self]
    exact hf (h.2 t)
  · rw [State.tenant_updTenant_ne _ e]
    exact h.2 k

theorem updWorld {s : State} (h : s.Canonical) {t : Fin 16} {f : World → World}
    (hf : keysRise (s.tenant t).world.stat → keysRise (f (s.tenant t).world).stat) : (s.updWorld t f).Canonical := h.updTenant hf

theorem forEach {α : Type} {f : State → α → State} {l : List α} {s : State} (h : s.Canonical)
    (k : ∀ (u : State) a, u.Canonical → (f u a).Canonical) : (s.forEach l f).Canonical := by
  unfold State.forEach
  induction l generalizing s with
  | nil => exact h
  | cons a r ih => exact ih (k s a h)

theorem forTenants {f : State → Fin 16 → State} {s : State} (h : s.Canonical)
    (k : ∀ (u : State) t, u.Canonical → (f u t).Canonical) : (s.forTenants f).Canonical := forEach h k

theorem raise {s : State} (h : s.Canonical) (page bit : Nat) : (s.raise page bit).Canonical := h.updAttn fun a => a.setLatch page _
theorem bumpErr {s : State} (h : s.Canonical) (page : Nat) : (s.bumpErr page).Canonical := h.updAttn fun a => a.bumpErr page

theorem settle {s : State} (h : s.Canonical) : (settle s).Canonical := by
  rw [canonical_iff] at h ⊢
  obtain ⟨ha, ht⟩ := h
  refine ⟨?_, fun t => by rw [settle_world]; exact ht t⟩
  have hwatch : ∀ (l : List Nat) (a : Attn), a.Rises →
      (l.foldl (fun a p => (a.setLatch p (s.attnRaw p)).setLevel p (s.wmarkLevel p)) a).Rises := fun l => by
    induction l with
    | nil => exact fun a h => h
    | cons p r ih => exact fun a h => ih _ ((h.setLatch _ _).setLevel _ _)
  have hsettled := hwatch watchedPages s.attn ha
  show s.settledAttn.Rises
  unfold State.settledAttn Attn.advanceAll
  generalize watchedPages.foldl _ s.attn = a at hsettled ⊢
  exact ⟨hsettled.latch, hsettled.mask, hsettled.errCount, hsettled.crossed⟩

end State.Canonical

end Sys2Proof.Machine
end

section
/-! SUPPORT. Canonical forms: the operations that touch neither attention nor a world keep them. -/
namespace Sys2Proof.Machine
open Sys2Proof
set_option Elab.async false
namespace State.Canonical
section
variable {s : State} (h : s.Canonical)
include h

theorem acceptTick (f : LinkFrame) (a T : Nat) : (s.acceptTick f a T).Canonical :=
  h.of_touches (State.acceptTick_touches s f a T (within_refl _) (Touches.refl _ _))
theorem addCause (k : Nat) : (s.addCause k).Canonical :=
  h.of_touches (State.addCause_touches s k (within_refl _) (Touches.refl _ _))
theorem armResync : (s.armResync).Canonical :=
  h.of_touches (State.armResync_touches s (within_refl _) (Touches.refl _ _))
theorem arriveRequest (ch : Channel) (req : List Byte) : (s.arriveRequest ch req).Canonical :=
  h.of_touches (State.arriveRequest_touches s ch req (within_refl _) (Touches.refl _ _))
theorem atBoundary (c : Nat) (r : Run) : (s.atBoundary c r).Canonical :=
  h.of_touches (State.atBoundary_touches s c r (within_refl _) (Touches.refl _ _))
theorem bearCycles (t : Fin 16) (n : Nat) : (s.bearCycles t n).Canonical :=
  h.of_touches (State.bearCycles_touches s t n (within_refl _) (Touches.refl _ _))
theorem bootClocks : (s.bootClocks).Canonical :=
  h.of_touches (State.bootClocks_touches s (within_refl _) (Touches.refl _ _))
theorem buildStops (t : Fin 16) : (s.buildStops t).Canonical :=
  h.of_touches (State.buildStops_touches s t (within_refl _) (Touches.refl _ _))
theorem bumpCounter (i : Nat) : (s.bumpCounter i).Canonical :=
  h.of_touches (State.bumpCounter_touches s i (within_refl _) (Touches.refl _ _))
theorem cannotFix (t : Fin 16) : (s.cannotFix t).Canonical :=
  h.of_touches (State.cannotFix_touches s t (within_refl _) (Touches.refl _ _))
theorem chainDigest (t : Fin 16) (d : Digest) : (s.chainDigest t d).Canonical :=
  h.of_touches (State.chainDigest_touches s t d (within_refl _) (Touches.refl _ _))
theorem clearDomain (d : Domain) : (s.clearDomain d).Canonical :=
  h.of_touches (State.clearDomain_touches s d (within_refl _) (Touches.refl _ _))
theorem clearStore (k : UnitKind) (n : Nat) : (s.clearStore k n).Canonical :=
  h.of_touches (State.clearStore_touches s k n (within_refl _) (Touches.refl _ _))
theorem clearWork (k : UnitKind) (n : Nat) : (s.clearWork k n).Canonical :=
  h.of_touches (State.clearWork_touches s k n (within_refl _) (Touches.refl _ _))
theorem closePower : (s.closePower).Canonical :=
  h.of_touches (State.closePower_touches s (within_refl _) (Touches.refl _ _))
theorem collResponse (g : OutTag) (f : LinkFrame) : (s.collResponse g f).Canonical :=
  h.of_touches (State.collResponse_touches s g f (within_refl _) (Touches.refl _ _))
theorem coreFault (c : Nat) (t : Fin 16) (slot : Nat) (code : Byte) : (s.coreFault c t slot code).Canonical :=
  h.of_touches (State.coreFault_touches s c t slot code (within_refl _) (Touches.refl _ _))
theorem coreLost (c : Nat) : (s.coreLost c).Canonical :=
  h.of_touches (State.coreLost_touches s c (within_refl _) (Touches.refl _ _))
theorem countDiv : (s.countDiv).Canonical :=
  h.of_touches (State.countDiv_touches s (within_refl _) (Touches.refl _ _))
theorem countEarly : (s.countEarly).Canonical :=
  h.of_touches (State.countEarly_touches s (within_refl _) (Touches.refl _ _))
theorem countStep (c cycles : Nat) : (s.countStep c cycles).Canonical :=
  h.of_touches (State.countStep_touches s c cycles (within_refl _) (Touches.refl _ _))
theorem cutChecks (k : Nat) : (s.cutChecks k).Canonical :=
  h.of_touches (State.cutChecks_touches s k (within_refl _) (Touches.refl _ _))
theorem cutTasks (k : Nat) : (s.cutTasks k).Canonical :=
  h.of_touches (State.cutTasks_touches s k (within_refl _) (Touches.refl _ _))
theorem deliverHost (t : Fin 16) (c : Cmd) (first n : Nat) : (s.deliverHost t c first n).Canonical :=
  h.of_touches (State.deliverHost_touches s t c first n (within_refl _) (Touches.refl _ _))
theorem discardPage (p : Port) (page : Nat) : (s.discardPage p page).Canonical :=
  h.of_touches (State.discardPage_touches s p page (within_refl _) (Touches.refl _ _))
theorem discardResults (t : Fin 16) : (s.discardResults t).Canonical :=
  h.of_touches (State.discardResults_touches s t (within_refl _) (Touches.refl _ _))
theorem disown (t : Fin 16) : (s.disown t).Canonical :=
  h.of_touches (State.disown_touches s t (within_refl _) (Touches.refl _ _))
theorem dramWrite (a : Nat) (bs : List Byte) : (s.dramWrite a bs).Canonical :=
  h.of_touches (State.dramWrite_touches s a bs (within_refl _) (Touches.refl _ _))
theorem draw : (s.draw).Canonical :=
  h.of_touches (State.draw_touches s (within_refl _) (Touches.refl _ _))
theorem dropEntries (t : Fin 16) (keep : Nat → Bool) : (s.dropEntries t keep).Canonical :=
  h.of_touches (State.dropEntries_touches s t keep (within_refl _) (Touches.refl _ _))
theorem dropFrame : (s.dropFrame).Canonical :=
  h.of_touches (State.dropFrame_touches s (within_refl _) (Touches.refl _ _))
theorem dropStale : (s.dropStale).Canonical :=
  h.of_touches (State.dropStale_touches s (within_refl _) (Touches.refl _ _))
theorem dropWork (t : Fin 16) : (s.dropWork t).Canonical :=
  h.of_touches (State.dropWork_touches s t (within_refl _) (Touches.refl _ _))
theorem elapse (k : Nat) : (s.elapse k).Canonical :=
  h.of_touches (State.elapse_touches s k (within_refl _) (Touches.refl _ _))
theorem endLinkWork (g : OutTag) : (s.endLinkWork g).Canonical :=
  h.of_touches (State.endLinkWork_touches s g (within_refl _) (Touches.refl _ _))
theorem endPart (c : Nat) : (s.endPart c).Canonical :=
  h.of_touches (State.endPart_touches s c (within_refl _) (Touches.refl _ _))
theorem endSearch (t : Fin 16) : (s.endSearch t).Canonical :=
  h.of_touches (State.endSearch_touches s t (within_refl _) (Touches.refl _ _))
theorem endSwitch (d : Domain) (v : BitVec 2) : (s.endSwitch d v).Canonical :=
  h.of_touches (State.endSwitch_touches s d v (within_refl _) (Touches.refl _ _))
theorem endTasks (t : Fin 16) : (s.endTasks t).Canonical :=
  h.of_touches (State.endTasks_touches s t (within_refl _) (Touches.refl _ _))
theorem engineLost (e : Nat) : (s.engineLost e).Canonical :=
  h.of_touches (State.engineLost_touches s e (within_refl _) (Touches.refl _ _))
theorem exchange (t : Fin 16) : (s.exchange t).Canonical :=
  h.of_touches (State.exchange_touches s t (within_refl _) (Touches.refl _ _))
theorem expireWaits (t : Fin 16) (T n : Nat) : (s.expireWaits t T n).Canonical :=
  h.of_touches (State.expireWaits_touches s t T n (within_refl _) (Touches.refl _ _))
theorem extendGuard : (s.extendGuard).Canonical :=
  h.of_touches (State.extendGuard_touches s (within_refl _) (Touches.refl _ _))
theorem failFrame (t : Fin 16) (code : Byte) : (s.failFrame t code).Canonical :=
  h.of_touches (State.failFrame_touches s t code (within_refl _) (Touches.refl _ _))
theorem finishTask (t : Fin 16) (i : Nat) (status : Byte) : (s.finishTask t i status).Canonical :=
  h.of_touches (State.finishTask_touches s t i status (within_refl _) (Touches.refl _ _))
theorem fireDue (t : Fin 16) (T n : Nat) : (s.fireDue t T n).Canonical :=
  h.of_touches (State.fireDue_touches s t T n (within_refl _) (Touches.refl _ _))
theorem fixDone (t : Fin 16) (d : FrameDone) : (s.fixDone t d).Canonical :=
  h.of_touches (State.fixDone_touches s t d (within_refl _) (Touches.refl _ _))
theorem freeSignal (t : Fin 16) (c : Cmd) : (s.freeSignal t c).Canonical :=
  h.of_touches (State.freeSignal_touches s t c (within_refl _) (Touches.refl _ _))
theorem frontLost (l : List (Fin 16)) : (s.frontLost l).Canonical :=
  h.of_touches (State.frontLost_touches s l (within_refl _) (Touches.refl _ _))
theorem fwConfirm : ((s.fwConfirm).1).Canonical :=
  h.of_touches (State.fwConfirm_touches s (within_refl _) (Touches.refl _ _))
theorem fwOpen (total : Nat) : ((s.fwOpen total).1).Canonical :=
  h.of_touches (State.fwOpen_touches s total (within_refl _) (Touches.refl _ _))
theorem fwWrite (d : List Byte) : ((s.fwWrite d).1).Canonical :=
  h.of_touches (State.fwWrite_touches s d (within_refl _) (Touches.refl _ _))
theorem hold : (s.hold).Canonical :=
  h.of_touches (State.hold_touches s (within_refl _) (Touches.refl _ _))
theorem holdChunk (ch : Channel) (r : List Byte) : (s.holdChunk ch r).Canonical :=
  h.of_touches (State.holdChunk_touches s ch r (within_refl _) (Touches.refl _ _))
theorem holdCmd (t : Fin 16) (c : Cmd) (data : List Byte) : (s.holdCmd t c data).Canonical :=
  h.of_touches (State.holdCmd_touches s t c data (within_refl _) (Touches.refl _ _))
theorem issueDrain (t : Fin 16) (i : Nat) (b : List Byte) : (s.issueDrain t i b).Canonical :=
  h.of_touches (State.issueDrain_touches s t i b (within_refl _) (Touches.refl _ _))
theorem judgeImminent (t : Fin 16) : (s.judgeImminent t).Canonical :=
  h.of_touches (State.judgeImminent_touches s t (within_refl _) (Touches.refl _ _))
theorem latchChecks (t : Fin 16) : (s.latchChecks t).Canonical :=
  h.of_touches (State.latchChecks_touches s t (within_refl _) (Touches.refl _ _))
theorem latchCores : (s.latchCores).Canonical :=
  h.of_touches (State.latchCores_touches s (within_refl _) (Touches.refl _ _))
theorem latchEngines : (s.latchEngines).Canonical :=
  h.of_touches (State.latchEngines_touches s (within_refl _) (Touches.refl _ _))
theorem latchExhausted (t : Fin 16) : (s.latchExhausted t).Canonical :=
  h.of_touches (State.latchExhausted_touches s t (within_refl _) (Touches.refl _ _))
theorem latchFox (t : Fin 16) : (s.latchFox t).Canonical :=
  h.of_touches (State.latchFox_touches s t (within_refl _) (Touches.refl _ _))
theorem latchSelect (t : Fin 16) : (s.latchSelect t).Canonical :=
  h.of_touches (State.latchSelect_touches s t (within_refl _) (Touches.refl _ _))
theorem latchSolver (t : Fin 16) : (s.latchSolver t).Canonical :=
  h.of_touches (State.latchSolver_touches s t (within_refl _) (Touches.refl _ _))
theorem latchWaits (t : Fin 16) : (s.latchWaits t).Canonical :=
  h.of_touches (State.latchWaits_touches s t (within_refl _) (Touches.refl _ _))
theorem mailGo (p : Port) : (s.mailGo p).Canonical :=
  h.of_touches (State.mailGo_touches s p (within_refl _) (Touches.refl _ _))
theorem markStarted (t : Fin 16) (i : Nat) : (s.markStarted t i).Canonical :=
  h.of_touches (State.markStarted_touches s t i (within_refl _) (Touches.refl _ _))
theorem nextSeq (p : Port) : ((s.nextSeq p).1).Canonical :=
  h.of_touches (State.nextSeq_touches s p (within_refl _) (Touches.refl _ _))
theorem noteCut (t : Fin 16) (k i : Nat) : (s.noteCut t k i).Canonical :=
  h.of_touches (State.noteCut_touches s t k i (within_refl _) (Touches.refl _ _))
theorem noteGroup (q : SelReq) : (s.noteGroup q).Canonical :=
  h.of_touches (State.noteGroup_touches s q (within_refl _) (Touches.refl _ _))
theorem noteInput (t : Fin 16) (frame order op : Nat) (data : List Byte) : (s.noteInput t frame order op data).Canonical :=
  h.of_touches (State.noteInput_touches s t frame order op data (within_refl _) (Touches.refl _ _))
theorem notePeer (l : Option Nat) (f : LinkFrame) : (s.notePeer l f).Canonical :=
  h.of_touches (State.notePeer_touches s l f (within_refl _) (Touches.refl _ _))
theorem noteSelect (t : Fin 16) (w : BitVec 512) : (s.noteSelect t w).Canonical :=
  h.of_touches (State.noteSelect_touches s t w (within_refl _) (Touches.refl _ _))
theorem noteSent (c : Nat) (r : Run) (gemm q : Nat) (held : List (Nat × List Word)) : (s.noteSent c r gemm q held).Canonical :=
  h.of_touches (State.noteSent_touches s c r gemm q held (within_refl _) (Touches.refl _ _))
theorem noteTick (f : LinkFrame) (a : Nat) : (s.noteTick f a).Canonical :=
  h.of_touches (State.noteTick_touches s f a (within_refl _) (Touches.refl _ _))
theorem noteTiming (t : Fin 16) (k : Nat) : (s.noteTiming t k).Canonical :=
  h.of_touches (State.noteTiming_touches s t k (within_refl _) (Touches.refl _ _))
theorem passTurn (t : Fin 16) (q : Fin 8) : (s.passTurn t q).Canonical :=
  h.of_touches (State.passTurn_touches s t q (within_refl _) (Touches.refl _ _))
theorem perform (l : Option Nat) (f : LinkFrame) : ((s.perform l f).1).Canonical :=
  h.of_touches (State.perform_touches s l f (within_refl _) (Touches.refl _ _))
theorem placeRequests (t : Fin 16) (p : ProgramImage) : (s.placeRequests t p).Canonical :=
  h.of_touches (State.placeRequests_touches s t p (within_refl _) (Touches.refl _ _))
theorem pollDrains (t : Fin 16) : (s.pollDrains t).Canonical :=
  h.of_touches (State.pollDrains_touches s t (within_refl _) (Touches.refl _ _))
theorem putCandBy (k : Nat) (t : Fin 16) (c : Cand) : (s.putCandBy k t c).Canonical :=
  h.of_touches (State.putCandBy_touches s k t c (within_refl _) (Touches.refl _ _))
theorem putHost (t : Fin 16) (lo hi : Nat) (l : List Cand) : ((s.putHost t lo hi l).1).Canonical :=
  h.of_touches (State.putHost_touches s t lo hi l (within_refl _) (Touches.refl _ _))
theorem raiseUnits : (s.raiseUnits).Canonical :=
  h.of_touches (State.raiseUnits_touches s (within_refl _) (Touches.refl _ _))
theorem refuseSelect (t : Fin 16) (task : Nat) (code : Byte) : (s.refuseSelect t task code).Canonical :=
  h.of_touches (State.refuseSelect_touches s t task code (within_refl _) (Touches.refl _ _))
theorem releaseStop (t : Fin 16) : (s.releaseStop t).Canonical :=
  h.of_touches (State.releaseStop_touches s t (within_refl _) (Touches.refl _ _))
theorem reloadShadows (w : Writer) (page : Nat) : (s.reloadShadows w page).Canonical :=
  h.of_touches (State.reloadShadows_touches s w page (within_refl _) (Touches.refl _ _))
theorem remeasureStops (t : Fin 16) : (s.remeasureStops t).Canonical :=
  h.of_touches (State.remeasureStops_touches s t (within_refl _) (Touches.refl _ _))
theorem requestLevel (v : BitVec 2) : (s.requestLevel v).Canonical :=
  h.of_touches (State.requestLevel_touches s v (within_refl _) (Touches.refl _ _))
theorem resetBlocks (t : Fin 16) : (s.resetBlocks t).Canonical :=
  h.of_touches (State.resetBlocks_touches s t (within_refl _) (Touches.refl _ _))
theorem resetRegs (page lo hi : Nat) : (s.resetRegs page lo hi).Canonical :=
  h.of_touches (State.resetRegs_touches s page lo hi (within_refl _) (Touches.refl _ _))
theorem resetUnits : (s.resetUnits).Canonical :=
  h.of_touches (State.resetUnits_touches s (within_refl _) (Touches.refl _ _))
theorem respond (ch : Channel) (code : Byte) (data : List Byte) : (s.respond ch code data).Canonical :=
  h.of_touches (State.respond_touches s ch code data (within_refl _) (Touches.refl _ _))
theorem restoreOne : (s.restoreOne).Canonical :=
  h.of_touches (State.restoreOne_touches s (within_refl _) (Touches.refl _ _))
theorem ringCq (p : Port) (t : Fin 16) (q : Fin 8) (v : Word) : (s.ringCq p t q v).Canonical :=
  h.of_touches (State.ringCq_touches s p t q v (within_refl _) (Touches.refl _ _))
theorem ringSq (p : Port) (t : Fin 16) (q : Fin 8) (v : Word) : (s.ringSq p t q v).Canonical :=
  h.of_touches (State.ringSq_touches s p t q v (within_refl _) (Touches.refl _ _))
theorem runBank (b fallback : Bool) : (s.runBank b fallback).Canonical :=
  h.of_touches (State.runBank_touches s b fallback (within_refl _) (Touches.refl _ _))
theorem sendCal (l : Nat) : (s.sendCal l).Canonical :=
  h.of_touches (State.sendCal_touches s l (within_refl _) (Touches.refl _ _))
theorem setBoard (d : List Byte) : ((s.setBoard d).1).Canonical :=
  h.of_touches (State.setBoard_touches s d (within_refl _) (Touches.refl _ _))
theorem setFlag (t : Fin 16) (f : Nat) : (s.setFlag t f).Canonical :=
  h.of_touches (State.setFlag_touches s t f (within_refl _) (Touches.refl _ _))
theorem setLive (page off v : Nat) : (s.setLive page off v).Canonical :=
  h.of_touches (State.setLive_touches s page off v (within_refl _) (Touches.refl _ _))
theorem setReqBytes (p : Port) (r : List Byte) : (s.setReqBytes p r).Canonical :=
  h.of_touches (State.setReqBytes_touches s p r (within_refl _) (Touches.refl _ _))
theorem setRun (c : Nat) (r : Run) : (s.setRun c r).Canonical :=
  h.of_touches (State.setRun_touches s c r (within_refl _) (Touches.refl _ _))
theorem setRunning (on : Bool) : (s.setRunning on).Canonical :=
  h.of_touches (State.setRunning_touches s on (within_refl _) (Touches.refl _ _))
theorem setShadow (page off v : Nat) : (s.setShadow page off v).Canonical :=
  h.of_touches (State.setShadow_touches s page off v (within_refl _) (Touches.refl _ _))
theorem setSignal (t : Fin 16) (w : Word) : (s.setSignal t w).Canonical :=
  h.of_touches (State.setSignal_touches s t w (within_refl _) (Touches.refl _ _))
theorem slowDown : (s.slowDown).Canonical :=
  h.of_touches (State.slowDown_touches s (within_refl _) (Touches.refl _ _))
theorem startDeferred : (s.startDeferred).Canonical :=
  h.of_touches (State.startDeferred_touches s (within_refl _) (Touches.refl _ _))
theorem startRun : (s.startRun).Canonical :=
  h.of_touches (State.startRun_touches s (within_refl _) (Touches.refl _ _))
theorem startTenant (t : Fin 16) : (s.startTenant t).Canonical :=
  h.of_touches (State.startTenant_touches s t (within_refl _) (Touches.refl _ _))
theorem storeTile (c : Nat) (r : PartRef) (g : GemmCtx) (col : Nat) (tile : List Word) : (s.storeTile c r g col tile).Canonical :=
  h.of_touches (State.storeTile_touches s c r g col tile (within_refl _) (Touches.refl _ _))
theorem streamRecord (slot : Nat) (d : List Byte) : (s.streamRecord slot d).Canonical :=
  h.of_touches (State.streamRecord_touches s slot d (within_refl _) (Touches.refl _ _))
theorem streamWrite (k target dest a : Nat) (d : List Byte) : (s.streamWrite k target dest a d).Canonical :=
  h.of_touches (State.streamWrite_touches s k target dest a d (within_refl _) (Touches.refl _ _))
theorem trace (kind : Nat) (t : Fin 16) (i : TraceInfo) : (s.trace kind t i).Canonical :=
  h.of_touches (State.trace_touches s kind t i (within_refl _) (Touches.refl _ _))
theorem traceTask (kind : Nat) (t : Fin 16) (i vcore ident arg : Nat) : (s.traceTask kind t i vcore ident arg).Canonical :=
  h.of_touches (State.traceTask_touches s kind t i vcore ident arg (within_refl _) (Touches.refl _ _))
theorem transmit (l : Nat) (f : LinkFrame) : (s.transmit l f).Canonical :=
  h.of_touches (State.transmit_touches s l f (within_refl _) (Touches.refl _ _))
theorem turnLinks : (s.turnLinks).Canonical :=
  h.of_touches (State.turnLinks_touches s (within_refl _) (Touches.refl _ _))
theorem turnTenants (was : List (Fin 16)) : (s.turnTenants was).Canonical :=
  h.of_touches (State.turnTenants_touches s was (within_refl _) (Touches.refl _ _))
theorem turnUnits : (s.turnUnits).Canonical :=
  h.of_touches (State.turnUnits_touches s (within_refl _) (Touches.refl _ _))
theorem unhold : (s.unhold).Canonical :=
  h.of_touches (State.unhold_touches s (within_refl _) (Touches.refl _ _))
theorem updBear (u : Nat) (f : BearUnit → BearUnit) : (s.updBear u f).Canonical :=
  h.of_touches (State.updBear_touches s u f (within_refl _) (Touches.refl _ _))
theorem updBox (ch : Channel) (f : Mailbox → Mailbox) : (s.updBox ch f).Canonical :=
  h.of_touches (State.updBox_touches s ch f (within_refl _) (Touches.refl _ _))
theorem updCal (f : Calendar → Calendar) : (s.updCal f).Canonical := h.congr rfl fun _ => rfl
theorem updCascade (f : Cascade → Cascade) : (s.updCascade f).Canonical :=
  h.of_touches (State.updCascade_touches s f (within_refl _) (Touches.refl _ _))
theorem updCfg (p : Port) (f : PortCfg → PortCfg) : (s.updCfg p f).Canonical :=
  h.of_touches (State.updCfg_touches s p f (within_refl _) (Touches.refl _ _))
theorem updClock (f : Clock → Clock) : (s.updClock f).Canonical := h.congr rfl fun _ => rfl
theorem updCore (c : Nat) (f : Core → Core) : (s.updCore c f).Canonical :=
  h.of_touches (State.updCore_touches s c f (within_refl _) (Touches.refl _ _))
theorem updDram (f : Dram → Dram) : (s.updDram f).Canonical := h.congr rfl fun _ => rfl
theorem updEngine (e : Nat) (f : Engine → Engine) : (s.updEngine e f).Canonical :=
  h.of_touches (State.updEngine_touches s e f (within_refl _) (Touches.refl _ _))
theorem updFault (f : PkgFault → PkgFault) : (s.updFault f).Canonical :=
  h.of_touches (State.updFault_touches s f (within_refl _) (Touches.refl _ _))
theorem updJay (u : Nat) (f : JayUnit → JayUnit) : (s.updJay u f).Canonical :=
  h.of_touches (State.updJay_touches s u f (within_refl _) (Touches.refl _ _))
theorem updLink (l : Nat) (f : Link → Link) : (s.updLink l f).Canonical :=
  h.of_touches (State.updLink_touches s l f (within_refl _) (Touches.refl _ _))
theorem updLynx (f : Lynx → Lynx) : (s.updLynx f).Canonical :=
  h.of_touches (State.updLynx_touches s f (within_refl _) (Touches.refl _ _))
theorem updOut (t : Fin 16) (f : Outcome → Outcome) : (s.updOut t f).Canonical :=
  h.of_touches (State.updOut_touches s t f (within_refl _) (Touches.refl _ _))
theorem updPower (f : Power → Power) : (s.updPower f).Canonical := h.congr rfl fun _ => rfl
theorem updQueue (t : Fin 16) (q : Fin 8) (f : Queue → Queue) : (s.updQueue t q f).Canonical :=
  h.of_touches (State.updQueue_touches s t q f (within_refl _) (Touches.refl _ _))
theorem updSched (t : Fin 16) (f : Sched → Sched) : (s.updSched t f).Canonical :=
  h.of_touches (State.updSched_touches s t f (within_refl _) (Touches.refl _ _))
theorem updSearch (t : Fin 16) (f : Search → Search) : (s.updSearch t f).Canonical :=
  h.of_touches (State.updSearch_touches s t f (within_refl _) (Touches.refl _ _))
theorem updSel (t : Fin 16) (f : Selection → Selection) : (s.updSel t f).Canonical :=
  h.of_touches (State.updSel_touches s t f (within_refl _) (Touches.refl _ _))
theorem updSolver (t : Fin 16) (f : Solver → Solver) : (s.updSolver t f).Canonical :=
  h.of_touches (State.updSolver_touches s t f (within_refl _) (Touches.refl _ _))
theorem updSpoor (t : Fin 16) (f : Spoor → Spoor) : (s.updSpoor t f).Canonical :=
  h.of_touches (State.updSpoor_touches s t f (within_refl _) (Touches.refl _ _))
theorem updTable (t : Fin 16) (f : Table → Table) : (s.updTable t f).Canonical :=
  h.of_touches (State.updTable_touches s t f (within_refl _) (Touches.refl _ _))
theorem updView (k : UnitKind) (n : Nat) (f : View → View) : (s.updView k n f).Canonical :=
  h.of_touches (State.updView_touches s k n f (within_refl _) (Touches.refl _ _))
theorem useResync (T : Nat) : (s.useResync T).Canonical :=
  h.of_touches (State.useResync_touches s T (within_refl _) (Touches.refl _ _))
theorem withChanges (l : List (Nat × Word)) : (s.withChanges l).Canonical :=
  h.of_touches (State.withChanges_touches s l (within_refl _) (Touches.refl _ _))
theorem writeMsix (p : Port) (off v : Nat) : (s.writeMsix p off v).Canonical :=
  h.of_touches (State.writeMsix_touches s p off v (within_refl _) (Touches.refl _ _))
theorem writeQCtrl (t : Fin 16) (q : Fin 8) (v : Nat) : (s.writeQCtrl t q v).Canonical :=
  h.of_touches (State.writeQCtrl_touches s t q v (within_refl _) (Touches.refl _ _))
theorem writeQStatus (t : Fin 16) (q : Fin 8) (v : Nat) : (s.writeQStatus t q v).Canonical :=
  h.of_touches (State.writeQStatus_touches s t q v (within_refl _) (Touches.refl _ _))
theorem writeResult (t : Fin 16) (a : Nat) (d : List Byte) : (s.writeResult t a d).Canonical :=
  h.of_touches (State.writeResult_touches s t a d (within_refl _) (Touches.refl _ _))
theorem writeShadow (page off : Nat) (r : Reg) (mask v : Nat) : (s.writeShadow page off r mask v).Canonical :=
  h.of_touches (State.writeShadow_touches s page off r mask v (within_refl _) (Touches.refl _ _))
theorem writeVerdict (e : Nat) (t : Fin 16) (id : Nat) (v : BitVec 2) (hit : Byte) (agent : Word) : (s.writeVerdict e t id v hit agent).Canonical :=
  h.of_touches (State.writeVerdict_touches s e t id v hit agent (within_refl _) (Touches.refl _ _))
theorem writeWitness (t : Fin 16) (d : FrameDone) : (s.writeWitness t d).Canonical :=
  h.of_touches (State.writeWitness_touches s t d (within_refl _) (Touches.refl _ _))

theorem receive (l : Nat) (f : LinkFrame) (kind : Nat) {body : State → State} (hbody : (body s).Canonical) :
    (s.receive l f kind body).Canonical := by
  unfold State.receive
  split
  · exact h
  split
  · exact h.dropFrame
  · exact hbody

end
end State.Canonical
end Sys2Proof.Machine
end

section
/-! SUPPORT. Canonical forms of the worlds: every change of a world keeps its static tiles ascending (03 R117 to R127; 19 R724). -/
namespace Sys2Proof.Machine
open Sys2Proof
set_option Elab.async false

section
variable {w : World} (hw : keysRise w.stat)
include hw

theorem World.keysRise_collapse (x : Option Nat × Nat) : keysRise (w.collapse x).stat := by
  unfold World.collapse
  split
  · exact World.keysRise_setTile hw _ _
  · exact hw

theorem World.keysRise_storeStatic (share i : Nat) (b : TileBody) : keysRise (w.storeStatic share i b).stat := by
  unfold World.storeStatic
  extract_lets x0 w1 x1 v
  have hset : keysRise w1.stat := World.keysRise_setTile hw i _
  split
  · exact hset
  split
  · exact World.keysRise_setTile hset _ _
  split
  · exact World.keysRise_collapse hset _
  · exact World.keysRise_setTile (World.keysRise_collapse hset _) _ _

theorem World.keysRise_storeDyn (share key : Nat) (b : TileBody) : keysRise (w.storeDyn share key b).stat := by
  unfold World.storeDyn
  extract_lets me v
  repeat' split
  all_goals first
    | exact hw
    | exact World.keysRise_collapse hw _

theorem World.keysRise_markSlice (share j : Nat) (pieces : List Piece) (r mask : Nat) : keysRise (w.markSlice share j pieces r mask).stat := by
  unfold World.markSlice
  extract_lets tiles
  generalize tiles = l
  induction l generalizing w with
  | nil => exact hw
  | cons i l ih =>
    rw [List.foldl_cons]
    extract_lets key old ws
    refine ih ?_
    split
    · exact hw
    · exact World.keysRise_storeDyn hw _ _ _

theorem World.keysRise_rasterise (share sliceMs sliceCount ix : Nat) (a : Agent) :
    keysRise (w.rasterise share sliceMs sliceCount ix a).stat := by
  unfold World.rasterise
  dsimp only
  generalize List.range sliceCount = l
  induction l generalizing w with
  | nil => exact hw
  | cons j l ih =>
    refine ih ?_
    dsimp only
    split
    · exact World.keysRise_markSlice hw _ _ _ _ _
    · exact World.keysRise_markSlice hw _ _ _ _ _

theorem World.keysRise_applyMixed (share tx ty : Nat) (d : List Byte) : keysRise (w.applyMixed share tx ty d).stat :=
  World.keysRise_storeStatic hw _ _ _

theorem World.keysRise_foldTiles (l : List Nat) (f : World → Nat → Tile) : keysRise (l.foldl (fun w i => w.setTile i (f w i)) w).stat := by
  induction l generalizing w with
  | nil => exact hw
  | cons i r ih => exact ih (World.keysRise_setTile hw i _)

theorem World.keysRise_applyUniform (l : List Nat) (v : Voxel) : keysRise (w.applyUniform l v).stat := World.keysRise_foldTiles hw l _

theorem World.keysRise_applyRegion (l : List Nat) (c : BitVec 3) : keysRise (w.applyRegion l c).stat := World.keysRise_foldTiles hw l _

theorem World.keysRise_tileFault (slice : Option Nat) (i : Nat) : keysRise (w.tileFault slice i).stat :=
  World.keysRise_collapse hw (slice, i)

end

/-- A scroll writes the tiles anew, one key at a time (03 R118). -/
theorem World.keysRise_applyScroll (w : World) (dx dy : Int) : keysRise (w.applyScroll dx dy).stat := by
  have hfold : ∀ (l m : List (Nat × Tile)), keysRise m →
      keysRise (l.foldl (fun m p => match scrollTile dx dy p.1 with | some i => mset Tile.default m i p.2 | none => m) m) := by
    intro l
    induction l with
    | nil => exact fun _ hm => hm
    | cons p r ih =>
      refine fun m hm => ih _ ?_
      dsimp only
      split
      · exact keysRise_mset hm _ _
      · exact hm
  exact hfold w.stat [] List.Pairwise.nil

end Sys2Proof.Machine
end

section
/-! SUPPORT. Canonical forms: commands, time, the worlds and the cores. -/
namespace Sys2Proof.Machine
open Sys2Proof
set_option Elab.async false
namespace State.Canonical

theorem updOwl {s : State} (h : s.Canonical) (f : Owl → Owl) : (s.updOwl f).Canonical := h.congr rfl fun _ => rfl
theorem updFrame {s : State} (h : s.Canonical) (f : Frame → Frame) : (s.updFrame f).Canonical := h.congr rfl fun _ => rfl

section
variable {s : State} (h : s.Canonical)
include h

theorem resetPage (page : Nat) : (s.resetPage page).Canonical := (h.resetRegs page 0 4096).updAttn fun a => a.resetPage page

theorem resetQueue (t : Fin 16) (q : Fin 8) : (s.resetQueue t q).Canonical := by
  unfold State.resetQueue
  exact (h.resetPage _).updQueue _ _ _

theorem logEvent (page event severity : Nat) (result : Byte) (unit : Nat) (data : List Byte) :
    (s.logEvent page event severity result unit data).Canonical := by
  unfold State.logEvent
  with_reducible repeat' first
    | assumption | apply raise | apply updOwl | split

theorem reapQueue (t : Fin 16) (q : Fin 8) : (s.reapQueue t q).Canonical := by
  unfold State.reapQueue
  split
  · exact h.resetQueue _ _
  · exact h

theorem completeCmd (t : Fin 16) (c : Cmd) (result : Byte) (detail : BitVec 160) : (s.completeCmd t c result detail).Canonical := by
  unfold State.completeCmd
  dsimp only
  with_reducible repeat' first
    | assumption | apply reapQueue | apply updQueue | apply updTenant | (intro hw; exact hw) | split

theorem refuseCmd (t : Fin 16) (c : Cmd) (code : Byte) (off : Nat) (inBuffer : Bool) : (s.refuseCmd t c code off inBuffer).Canonical := by
  unfold State.refuseCmd
  exact h.completeCmd _ _ _ _

theorem completeAll (t : Fin 16) (l : List Cmd) (result : Byte) : (s.completeAll t l result).Canonical := by
  unfold State.completeAll
  with_reducible repeat' first
    | assumption | apply completeCmd | apply forEach | intro _ _ _

theorem fetchCommand (t : Fin 16) (q : Fin 8) (w : BitVec 512) : (s.fetchCommand t q w).Canonical := by
  unfold State.fetchCommand
  dsimp only
  with_reducible repeat' first
    | assumption | apply passTurn | apply updQueue | apply noteTiming | apply refuseCmd | apply updTenant | (intro hw; exact hw)
    | split

theorem setDmaErr (t : Fin 16) (q : Fin 8) (_what : DmaFailure) : (s.setDmaErr t q _what).Canonical := by
  unfold State.setDmaErr
  with_reducible repeat' first
    | assumption | apply noteTiming | apply bumpErr | apply updQueue | split

theorem nopCmd (t : Fin 16) (tag : Nat) : (s.nopCmd t tag).Canonical := by
  unfold State.nopCmd
  split
  · split
    · exact h
    · exact h.completeCmd _ _ _ _
  · exact h

theorem programFault (t : Fin 16) (code : Byte) : (s.programFault t code).Canonical := by
  unfold State.programFault
  with_reducible repeat' first
    | assumption | apply failFrame | apply bumpErr | apply raise | apply updTenant | (intro hw; exact hw)

theorem declareDeadlock (t : Fin 16) : (s.declareDeadlock t).Canonical := by
  unfold State.declareDeadlock
  with_reducible repeat' first
    | assumption | apply trace | apply setLive | apply failFrame | apply raise | split

theorem fallDue (t : Fin 16) : (s.fallDue t).Canonical := by
  unfold State.fallDue
  with_reducible repeat' first
    | assumption | apply hold | apply fireDue | apply unhold | apply expireWaits | apply declareDeadlock | split

theorem passTime (T n : Nat) : (s.passTime T n).Canonical := by
  induction n generalizing s with
  | zero => exact h.elapse _
  | succ n ih =>
    unfold State.passTime
    split
    · exact h.elapse _
    · exact ih ((h.elapse _).forTenants fun u t hu => hu.fallDue t)

theorem advanceTo (T : Nat) : (s.advanceTo T).Canonical := by
  unfold State.advanceTo
  exact h.passTime _ _

theorem idle : s.idle.Canonical := by
  unfold State.idle
  exact h.advanceTo _

theorem timerFire (t : Fin 16) (id : Fin 64) : (s.timerFire t id).Canonical := by
  unfold State.timerFire
  dsimp only
  split
  · split
    · exact h
    · exact h.advanceTo _
  · exact h

theorem reachDeadlock (t : Fin 16) : (s.reachDeadlock t).Canonical := by
  unfold State.reachDeadlock
  dsimp only
  split
  · exact h.declareDeadlock _
  split
  · exact h.advanceTo _
  · exact h

theorem hostCand (t : Fin 16) (tag : Nat) (buf : List Byte) : (s.hostCand t tag buf).Canonical := by
  unfold State.hostCand
  split
  · exact h
  split
  · exact h
  split
  · exact h.completeCmd _ _ _ _
  split
  · exact h.completeCmd _ _ _ _
  · exact h.holdCmd _ _ _

theorem goOnHost (t : Fin 16) (c : Cmd) (first at' : Nat) : (s.goOnHost t c first at').Canonical := by
  unfold State.goOnHost
  dsimp only
  split
  · exact h.completeCmd _ _ _ _
  split
  · exact (h.putHost _ _ _ _).completeCmd _ _ _ _
  · exact (h.putHost _ _ _ _).deliverHost _ _ _ _

theorem judgeHost (t : Fin 16) (tag : Nat) : (s.judgeHost t tag).Canonical := by
  unfold State.judgeHost
  dsimp only
  with_reducible repeat' first
    | assumption | apply goOnHost | apply completeCmd | apply refuseCmd | apply updSearch | apply noteInput | split

theorem ingest (t : Fin 16) (tag : Nat) (buf : List Byte) : (s.ingest t tag buf).Canonical := by
  unfold State.ingest
  with_reducible repeat' first
    | assumption | apply refuseCmd | apply completeCmd | apply noteInput | apply updWorld | apply holdCmd | (intro hw; exact hw)
    | split

theorem popRecord (t : Fin 16) : (s.popRecord t).Canonical := by
  unfold State.popRecord
  dsimp only
  with_reducible repeat' first
    | assumption | apply updWorld | apply completeCmd | (intro hw; exact hw) | split

theorem applyMixedTile (t : Fin 16) : (s.applyMixedTile t).Canonical := by
  unfold State.applyMixedTile
  split
  · exact (h.updWorld fun hw => World.keysRise_applyMixed hw _ _ _ _).popRecord t
  · exact h

theorem applyUniformTiles (t : Fin 16) : (s.applyUniformTiles t).Canonical := by
  unfold State.applyUniformTiles
  split
  · exact (h.updWorld fun hw => World.keysRise_applyUniform hw _ _).popRecord t
  · exact h

theorem applyScroll (t : Fin 16) : (s.applyScroll t).Canonical := by
  unfold State.applyScroll
  split
  · exact (h.updWorld fun _ => World.keysRise_applyScroll _ _ _).popRecord t
  · exact h

theorem applyRegion (t : Fin 16) : (s.applyRegion t).Canonical := by
  unfold State.applyRegion
  split
  · exact (h.updWorld fun hw => World.keysRise_applyRegion hw _ _).popRecord t
  · exact h

theorem applyAgentList (t : Fin 16) : (s.applyAgentList t).Canonical := by
  unfold State.applyAgentList
  with_reducible repeat' first
    | assumption | apply popRecord | apply updWorld | (intro hw; exact hw) | split

theorem rasteriseAgent (t : Fin 16) : (s.rasteriseAgent t).Canonical := by
  unfold State.rasteriseAgent
  dsimp only
  split
  · exact h
  split
  · exact h
  split
  · exact h
  · exact h.updWorld fun hw => World.keysRise_rasterise hw _ _ _ _ _

theorem sealWorld (t : Fin 16) : (s.sealWorld t).Canonical := by
  unfold State.sealWorld
  dsimp only
  with_reducible repeat' first
    | assumption | apply setLive | apply updWorld | apply updTable | apply programFault | (intro hw; exact hw) | split

theorem faultPart (c : Nat) (r : Run) (code : Byte) : (s.faultPart c r code).Canonical := by
  unfold State.faultPart
  exact (h.coreFault _ _ _ _).programFault _ _

theorem beginPart (c : Nat) (p : PartRef) : (s.beginPart c p).Canonical := by
  unfold State.beginPart
  dsimp only
  with_reducible repeat' first
    | assumption | apply draw | apply setLive | apply updCore | apply updSched | apply traceTask | apply faultPart | split

theorem stealPart (c : Nat) : (s.stealPart c).Canonical := by
  unfold State.stealPart
  split
  · exact h
  split
  · exact h
  split
  · exact h
  split
  · exact h
  · exact (((h.updCore _ _).updCore _ _).traceTask _ _ _ _ _ _).beginPart _ _

theorem startPart (c : Nat) : (s.startPart c).Canonical := by
  unfold State.startPart
  dsimp only
  split
  · exact h
  split
  · exact (h.updCore _ _).beginPart _ _
  · exact h.stealPart _

theorem dropRoute : s.dropRoute.Canonical := by
  unfold State.dropRoute
  with_reducible repeat' first
    | assumption | apply raise | apply updCascade

theorem deliverResponse (l : Option Nat) (f : LinkFrame) : (s.deliverResponse l f).Canonical := by
  unfold State.deliverResponse
  dsimp only
  with_reducible repeat' first
    | assumption | apply notePeer | apply dropStale | apply collResponse | apply updCascade | apply writeResult
    | apply endLinkWork | apply coreFault | apply programFault | split

theorem sendResponse (f : LinkFrame) : (s.sendResponse f).Canonical := by
  unfold State.sendResponse
  split
  · exact h.deliverResponse _ _
  split
  · exact h.dropRoute
  · exact h.transmit _ _

theorem sendRequest (f : LinkFrame) : (s.sendRequest f).Canonical := by
  unfold State.sendRequest
  split
  · exact (h.perform _ _).deliverResponse _ _
  split
  · exact h.deliverResponse _ _
  · exact h.transmit _ _

theorem issueRequest (t : Fin 16) (task : Nat) (core : Option (Fin 48)) (unit : Nat) (kind : Byte) (dest : BitVec 16) (addr aux loc : Nat)
    (data : List Byte) :
    (s.issueRequest t task core unit kind dest addr aux loc data).Canonical := by
  unfold State.issueRequest
  exact (h.updCascade _).sendRequest _

theorem checked (c : Nat) (r : Run) (rd wr : List (Nat × Nat)) {k : State} (hk : k.Canonical) : (s.checked c r rd wr k).Canonical := by
  unfold State.checked
  split
  · exact h.faultPart _ _ _
  · exact hk

theorem closeTile (c : Nat) (r : Run) (g g2 : GemmCtx) : (s.closeTile c r g g2).Canonical := by
  unfold State.closeTile
  with_reducible repeat' first
    | assumption | apply checked | apply storeTile | apply countStep | apply atBoundary | split

theorem closeScores (c : Nat) (r : Run) (g g2 : GemmCtx) : (s.closeScores c r g g2).Canonical := by
  unfold State.closeScores
  with_reducible repeat' first
    | assumption | apply checked | apply countStep | apply atBoundary

theorem closeSoftmax (c : Nat) (r : Run) (g2 : GemmCtx) : (s.closeSoftmax c r g2).Canonical := by
  unfold State.closeSoftmax
  with_reducible repeat' first
    | assumption | apply countStep | apply atBoundary | apply checked | apply storeTile | split

theorem reduceStep (c : Nat) (r : Run) (g : GemmCtx) : (s.reduceStep c r g).Canonical := by
  unfold State.reduceStep
  dsimp only
  with_reducible repeat' first
    | assumption | apply faultPart | apply checked | apply countStep | apply updCore | apply atBoundary | split

theorem stepGemm (c : Nat) (r : Run) (g g2 : GemmCtx) : (s.stepGemm c r g g2).Canonical := by
  unfold State.stepGemm
  dsimp only
  with_reducible repeat' first
    | assumption | apply closeSoftmax | apply atBoundary | apply reduceStep | apply closeScores | apply closeTile | split

theorem stepTile (c : Nat) : (s.stepTile c).Canonical := by
  unfold State.stepTile
  dsimp only
  with_reducible repeat' first
    | assumption | apply atBoundary | apply endPart | apply countStep | apply stepGemm | split

theorem forceCut (c : Nat) : (s.forceCut c).Canonical := by
  unfold State.forceCut
  split
  · exact h
  split
  · exact h
  · exact ((h.advanceTo _).updOut _ _).endPart _

theorem sendPiece (c : Fin 48) (dest : BitVec 16) (x : Nat × Nat × List Byte) : (s.sendPiece c dest x).Canonical := by
  unfold State.sendPiece
  split
  · exact h
  split
  · exact h
  split
  · exact h
  · exact ((h.setRun _ _).streamWrite _ _ _ _ _).issueRequest _ _ _ _ _ _ _ _ _ _

theorem sendLink (c : Fin 48) (gemm : Nat) (dest : BitVec 16) (l : List (Nat × List Byte)) : (s.sendLink c gemm dest l).Canonical := by
  unfold State.sendLink
  dsimp only
  with_reducible repeat' first
    | assumption | apply sendPiece | apply noteSent | apply forEach | intro _ _ _ | split

theorem peerSend (c : Fin 48) : (s.peerSend c).Canonical := by
  unfold State.peerSend
  dsimp only
  with_reducible repeat' first
    | assumption | apply faultPart | apply streamWrite | apply updCore | apply noteSent | apply setFlag | apply updSearch
    | apply sendLink | apply forEach | intro _ _ _ | split

theorem applyMeasure (t : Fin 16) (c : Cmd) : (s.applyMeasure t c).Canonical := by
  unfold State.applyMeasure
  with_reducible repeat' first
    | assumption | apply updSolver | apply remeasureStops | apply completeCmd | apply noteInput

theorem measureCmd (t : Fin 16) (tag : Nat) : (s.measureCmd t tag).Canonical := by
  unfold State.measureCmd
  with_reducible repeat' first
    | assumption | apply refuseCmd | apply completeCmd | apply holdCmd | apply applyMeasure | split

theorem loadModel (t : Fin 16) (tag : Nat) (buf : List Byte) : (s.loadModel t tag buf).Canonical := by
  unfold State.loadModel
  split
  · exact h
  split
  · exact h
  split
  · exact h.completeCmd _ _ _ _
  split
  · exact h.refuseCmd _ _ _ _ _
  · exact (h.updSolver _ _).completeCmd _ _ _ _

theorem applyShape (t : Fin 16) (c : Cmd) : (s.applyShape t c).Canonical := by
  unfold State.applyShape
  dsimp only
  split
  · exact h.completeCmd _ _ _ _
  · exact ((h.updSched _ _).noteInput _ _ _ _ _).completeCmd _ _ _ _

theorem shapeCmd (t : Fin 16) (tag : Nat) : (s.shapeCmd t tag).Canonical := by
  unfold State.shapeCmd
  split
  · exact h
  split
  · exact h
  split
  · exact h.completeCmd _ _ _ _
  split
  · exact h.holdCmd _ _ _
  · exact h.applyShape _ _

theorem applySignal (t : Fin 16) (c : Cmd) : (s.applySignal t c).Canonical := by
  unfold State.applySignal
  exact ((h.setSignal _ _).noteInput _ _ _ _ _).completeCmd _ _ _ _

theorem signalCmd (t : Fin 16) (tag : Nat) : (s.signalCmd t tag).Canonical := by
  unfold State.signalCmd
  split
  · exact h
  split
  · exact h
  split
  · exact h.holdCmd _ _ _
  split
  · exact h.applySignal _ _
  · exact h

theorem applyWaiting (t : Fin 16) : (s.applyWaiting t).Canonical := by
  unfold State.applyWaiting
  with_reducible repeat' first
    | assumption | apply applyMeasure | apply applyShape | apply applySignal | apply freeSignal | apply forEach | intro _ _ _
    | split

theorem activateCmd (t : Fin 16) (tag : Nat) : (s.activateCmd t tag).Canonical := by
  unfold State.activateCmd
  split
  · exact h
  split
  · exact h
  · exact (h.updSched _ _).completeCmd _ _ _ _

theorem loadProgram (t : Fin 16) (tag : Nat) (p : ProgramImage) : (s.loadProgram t tag p).Canonical := by
  unfold State.loadProgram
  dsimp only
  with_reducible repeat' first
    | assumption | apply completeCmd | apply refuseCmd | apply draw | apply placeRequests | apply updSched | split

end
end State.Canonical
end Sys2Proof.Machine
end

section
/-! SUPPORT. Canonical forms: the engines, units and registers. -/
namespace Sys2Proof.Machine
open Sys2Proof
set_option Elab.async false
namespace State.Canonical
section
variable {s : State} (h : s.Canonical)
include h

theorem loadLattice (t : Fin 16) (tag : Nat) (buf : List Byte) : (s.loadLattice t tag buf).Canonical := by
  unfold State.loadLattice
  with_reducible repeat' first
    | assumption | apply completeCmd | apply refuseCmd | apply updSearch | split

theorem endCheck (e : Fin 16) : (s.endCheck e).Canonical := by
  unfold State.endCheck
  dsimp only
  with_reducible repeat' first
    | assumption | apply updEngine | apply pollDrains | apply programFault | apply draw | apply writeVerdict | apply judgeImminent
    | apply releaseStop | split

theorem issueDma (t : Fin 16) (i : Nat) (b : List Byte) : (s.issueDma t i b).Canonical := by
  unfold State.issueDma
  dsimp only
  with_reducible repeat' first
    | assumption | apply finishTask | apply issueRequest | apply programFault | apply updCascade | apply sendRequest
    | apply forEach | intro _ _ _ | split

theorem issueEngine (t : Fin 16) (i : Nat) : (s.issueEngine t i).Canonical := by
  unfold State.issueEngine
  dsimp only
  with_reducible repeat' first
    | assumption | apply markStarted | apply programFault | apply updSearch | apply finishTask | apply updSel | apply updSolver
    | apply issueDrain | apply issueDma | split

theorem writeSel (u : Nat) (q : SelReq) (status : Byte) (count bound : Nat) (first : Option Nat) (bs : List Byte) :
    (s.writeSel u q status count bound first bs).Canonical := by
  unfold State.writeSel
  dsimp only
  with_reducible repeat' first
    | assumption | apply programFault | apply writeResult | apply streamWrite | apply setLive | apply updSel | apply finishTask
    | split

theorem failSel (u : Nat) (q : SelReq) (status : Byte) : (s.failSel u q status).Canonical := by
  unfold State.failSel
  exact h.writeSel _ _ _ _ _ _ _

theorem failRun (u : Nat) (status : Byte) : (s.failRun u status).Canonical := by
  unfold State.failRun
  split
  · exact ((h.updJay _ _).noteGroup _).failSel _ _ _
  · exact h

theorem receiveSelect (t : Fin 16) : (s.receiveSelect t).Canonical := by
  unfold State.receiveSelect
  dsimp only
  with_reducible repeat' first
    | assumption | apply updSel | apply refuseSelect | apply noteSelect | apply failSel | apply updJay | split

theorem snap (u : Nat) : (s.snap u).Canonical := by
  unfold State.snap
  dsimp only
  split
  · exact h
  split
  · exact h.programFault _ _
  · exact h.updJay _ _

theorem startSelect (u : Nat) : (s.startSelect u).Canonical := by
  unfold State.startSelect
  dsimp only
  with_reducible repeat' first
    | assumption | apply snap | apply updJay | apply failRun | split

theorem returnColl (f : LinkFrame) (c : Coll) : (s.returnColl f c).Canonical := by
  unfold State.returnColl
  with_reducible repeat' first
    | assumption | apply sendResponse | apply forEach | intro _ _ _

theorem masterPart (f : LinkFrame) : (s.masterPart f).Canonical := by
  unfold State.masterPart
  dsimp only
  with_reducible repeat' first
    | assumption | apply sendResponse | apply updCascade | apply returnColl | split

theorem sendPartial (u pass : Nat) : (s.sendPartial u pass).Canonical := by
  unfold State.sendPartial
  with_reducible repeat' first
    | assumption | apply failRun | apply updJay | apply updCascade | apply masterPart | apply sendRequest | apply forEach
    | intro _ _ _ | split

theorem sendDue (u : Nat) : (s.sendDue u).Canonical := by
  unfold State.sendDue
  split
  · exact h
  split
  · exact h
  split
  · split
    · exact h.sendPartial _ _
    · exact h
  · exact h

theorem endFailed (u : Nat) : (s.endFailed u).Canonical := by
  unfold State.endFailed
  split
  · split
    · exact h.failRun _ _
    · exact h
  · exact h

theorem passSelect (u : Nat) : (s.passSelect u).Canonical := by
  unfold State.passSelect
  dsimp only
  with_reducible repeat' first
    | assumption | apply snap | apply updJay | apply failRun | apply endFailed | apply sendDue | split

theorem resultSelect (u : Nat) : (s.resultSelect u).Canonical := by
  unfold State.resultSelect
  with_reducible repeat' first
    | assumption | apply failRun | apply updJay | apply noteGroup | apply writeSel | split

theorem cutSelects (k : Nat) : (s.cutSelects k).Canonical := by
  unfold State.cutSelects
  dsimp only
  with_reducible repeat' first
    | assumption | apply updSel | apply noteCut | apply refuseSelect | apply noteSelect | apply failSel | apply updJay
    | apply failRun | apply forEach | apply forTenants | intro _ _ _ | split

theorem moveSelect (u : Nat) (q : SelReq) : (s.moveSelect u q).Canonical := by
  unfold State.moveSelect
  split
  · exact h.updJay _ _
  · exact h.failSel _ _ _

theorem jayLost (u : Nat) : (s.jayLost u).Canonical := by
  unfold State.jayLost
  with_reducible repeat' first
    | assumption | apply updJay | apply failSel | apply moveSelect | apply forEach | intro _ _ _ | split

theorem segmentsLost (c : Nat) : (s.segmentsLost c).Canonical := by
  unfold State.segmentsLost
  with_reducible repeat' first
    | assumption | apply failRun | apply updJay | apply forEach | intro _ _ _ | split

theorem writeReport (t : Fin 16) (k : BearSlot) (status : Byte) (iters : Nat) (missing : Bool) (bs : List Byte) :
    (s.writeReport t k status iters missing bs).Canonical := by
  unfold State.writeReport
  dsimp only
  with_reducible repeat' first
    | assumption | apply setLive | apply updSolver | apply programFault | apply writeResult | apply streamWrite | apply updSched
    | apply finishTask | split

theorem emptyReport (t : Fin 16) (k : BearSlot) (status : Byte) (iters refines : Nat) (missing : Bool) :
    (s.emptyReport t k status iters refines missing).Canonical := by
  unfold State.emptyReport
  exact h.writeReport _ _ _ _ _ _

theorem receiveSmooth (t : Fin 16) : (s.receiveSmooth t).Canonical := by
  unfold State.receiveSmooth
  dsimp only
  with_reducible repeat' first
    | assumption | apply updSolver | apply finishTask | apply emptyReport | apply forEach | intro _ _ _ | split

theorem startSolve (u : Nat) : (s.startSolve u).Canonical := by
  unfold State.startSolve
  dsimp only
  with_reducible repeat' first
    | assumption | apply emptyReport | apply programFault | apply updBear | apply updSolver | apply bearCycles | split

theorem cutSolve (u : Nat) (v : Solve) : (s.cutSolve u v).Canonical := by
  unfold State.cutSolve
  dsimp only
  split
  · exact ((h.updBear _ _).bearCycles _ _).emptyReport _ _ _ _ _ _
  · exact (h.updBear _ _).bearCycles _ _

theorem iterateSolve (u : Nat) : (s.iterateSolve u).Canonical := by
  unfold State.iterateSolve
  dsimp only
  split
  · exact h
  split
  · exact h
  split
  · exact ((h.updBear _ _).bearCycles _ _).cutSolve _ _
  · exact (h.updBear _ _).bearCycles _ _

theorem endSolve (u : Nat) : (s.endSolve u).Canonical := by
  unfold State.endSolve
  dsimp only
  with_reducible repeat' first
    | assumption | apply cutSolve | apply updBear | apply bearCycles | apply writeReport | apply putCandBy | split

theorem cutSlots (t : Fin 16) (p : BearSlot → Bool) : (s.cutSlots t p).Canonical := by
  unfold State.cutSlots
  with_reducible repeat' first
    | assumption | apply emptyReport | apply forEach | intro _ _ _

theorem cutSolves (k : Nat) : (s.cutSolves k).Canonical := by
  unfold State.cutSolves
  refine h.forTenants fun _ t hu => ?_
  dsimp only
  apply cutSlots
  refine State.Canonical.congr (forEach (forEach hu fun v q hv => ?_) fun v i hv => hv.noteCut _ _ _) rfl fun _ => rfl
  split
  · exact hv.receiveSmooth _
  · exact ((hv.noteCut _ _ _).updSolver _ _).finishTask _ _ _

theorem bearLost (u : Nat) : (s.bearLost u).Canonical := by
  unfold State.bearLost
  with_reducible repeat' first
    | assumption | apply updBear | apply emptyReport | apply updSolver | apply forEach | apply forTenants | intro _ _ _ | split

theorem refuseWrite (w : Writer) (page : Nat) (changes : Bool) : (s.refuseWrite w page changes).Canonical := by
  unfold State.refuseWrite
  with_reducible repeat' first
    | assumption | apply bumpErr | split

theorem clearRead (page off : Nat) : (s.clearRead page off).Canonical := by
  unfold State.clearRead
  split
  · exact h.updAttn fun a => ⟨a.latch, a.mask, keysRise_mset a.errCount _ _, a.crossed⟩
  split
  · exact h.updClock _
  · exact h.updPower _
  · exact h.congr rfl fun _ => rfl
  · exact h.updLynx _
  · exact h.updCascade _
  · exact h.updCascade _
  split
  · exact h
  split
  · exact h
  split
  · exact h.updLink _ _
  · exact h.setLive _ _ _

theorem bar0Read (p : Port) (page off : Nat) : (s.bar0Read p page off).Canonical := by
  unfold State.bar0Read
  split
  · exact h
  split
  · exact h.updCfg _ _
  · exact (h.updCfg _ _).clearRead _ _

theorem bar2Drop (p : Port) : (s.bar2Drop p).Canonical := by
  unfold State.bar2Drop
  with_reducible repeat' first
    | assumption | apply raise | apply setLive

theorem bar2Read (p : Port) (a n : Nat) : (s.bar2Read p a n).Canonical := by
  unfold State.bar2Read
  split
  · exact h
  split
  · exact h.updCfg _ _
  split
  · exact h.updCfg _ _
  · exact (h.updCfg _ _).bar2Drop _

theorem bar2Write (p : Port) (a : Nat) (d : List Byte) : (s.bar2Write p a d).Canonical := by
  unfold State.bar2Write
  split
  · exact h
  split
  · exact h.dramWrite _ _
  split
  · exact h.setLive _ _ _
  · exact h.bar2Drop _

theorem recordDirect (w : Writer) (page off : Nat) (code : Byte) : (s.recordDirect w page off code).Canonical := by
  have hresult : (s.updAttn fun a => a.setResult page code).Canonical := h.updAttn fun a => ⟨a.latch, a.mask, a.errCount, a.crossed⟩
  unfold State.recordDirect
  split
  · exact hresult
  · exact hresult.updCfg _ _

theorem resetTenant (t : Fin 16) : (s.resetTenant t).Canonical := by
  unfold State.resetTenant
  dsimp only
  refine ((((State.Canonical.updTenant ?_ fun _ => ?_).setLive _ _ _).setLive _ _ _).setLive _ _ _).raise _ _
  · exact ((((h.completeAll _ _ _).dropWork t).disown t).dropEntries t _).updCascade _
  · exact List.Pairwise.nil

theorem requestReset (t : Fin 16) (cause : BitVec 4) : (s.requestReset t cause).Canonical := by
  unfold State.requestReset
  dsimp only
  with_reducible repeat' first
    | assumption | apply resetTenant | apply extendGuard | apply failFrame | apply disown | apply dropEntries | apply noteTiming
    | apply updTenant | (intro hw; exact hw) | split

theorem requestHold (t : Fin 16) (cause : BitVec 4) : (s.requestHold t cause).Canonical := by
  unfold State.requestHold
  dsimp only
  with_reducible repeat' first
    | assumption | apply resetTenant | apply extendGuard | apply noteTiming | apply updTenant | (intro hw; exact hw) | split

theorem requestRelease (t : Fin 16) : (s.requestRelease t).Canonical := by
  unfold State.requestRelease
  dsimp only
  with_reducible repeat' first
    | assumption | apply raise | apply updTenant | (intro hw; exact hw) | split

theorem createTenant (t : Fin 16) : (s.createTenant t).Canonical := h.updTenant fun _ => List.Pairwise.nil

theorem deleteTenant (t : Fin 16) : (s.deleteTenant t).Canonical := by
  unfold State.deleteTenant
  refine ((forEach (State.Canonical.updTenant ?_ fun _ => List.Pairwise.nil) fun _ q hu => ?_).resetBlocks t).resetRegs _ _ _
  · exact ((h.dropWork t).disown t).dropEntries t _
  · exact hu.resetQueue t q

theorem logMismatch (k : UnitKind) (n : Nat) (v : View) : (s.logMismatch k n v).Canonical := by
  unfold State.logMismatch
  exact h.logEvent _ _ _ _ _ _

theorem workLost (k : UnitKind) (n : Nat) (users : List (Fin 16)) : (s.workLost k n users).Canonical := by
  unfold State.workLost
  split
  · exact (h.coreLost _).segmentsLost _
  · exact h.engineLost _
  · exact h.bearLost _
  · exact h.jayLost _
  · exact h.frontLost _

theorem setView (k : UnitKind) (n : Nat) (f : View → View) : (s.setView k n f).Canonical := by
  unfold State.setView
  dsimp only
  with_reducible repeat' first
    | assumption | apply updView | apply noteTiming | apply raise | apply workLost | apply logMismatch | apply forTenants
    | intro _ _ _ | split

theorem ackTimeout (k : UnitKind) (n : Nat) : (s.ackTimeout k n).Canonical := by
  unfold State.ackTimeout
  split
  · exact h
  · exact h.setView _ _ _

theorem beginUnitReset (k : UnitKind) (n : Nat) : (s.beginUnitReset k n).Canonical := by
  unfold State.beginUnitReset
  exact ((h.setView _ _ _).clearWork _ _).updPower _

theorem unitReset (w : Writer) (kind index : Nat) : (s.unitReset w kind index).Canonical := by
  unfold State.unitReset
  split
  · exact h.refuseWrite _ _ _
  split
  · split
    · exact h.beginUnitReset _ _
    · exact h.recordDirect _ _ _ _
  · exact h.recordDirect _ _ _ _

theorem owlUnitReset (k : UnitKind) (n : Nat) : (s.owlUnitReset k n).Canonical := by
  unfold State.owlUnitReset
  split
  · exact h.beginUnitReset _ _
  · exact h.updPower _

theorem unitResetDone : s.unitResetDone.Canonical := by
  unfold State.unitResetDone
  dsimp only
  with_reducible repeat' first
    | assumption | apply updView | apply clearStore | apply raise | apply updPower | apply beginUnitReset | split

theorem newCellSize : s.newCellSize.Canonical :=
  h.forTenants fun _ t hu => (hu.updWorld fun _ => List.Pairwise.nil).updSearch t _

theorem afterChanges (old : State) (keys : List Nat) : (State.afterChanges old s keys).Canonical := by
  unfold State.afterChanges
  with_reducible repeat' first
    | assumption | apply createTenant | apply deleteTenant | apply newCellSize | apply setLive | apply updSpoor | apply updLynx
    | apply forTenants | intro _ _ _ | split

theorem applyChanges (l : List (Nat × Word)) : (s.applyChanges l).Canonical := by
  unfold State.applyChanges
  exact (h.withChanges _).afterChanges _ _

theorem recordSet (p : Port) (id : Nat) (seq : Byte) (pages : List Nat) (code : Byte) (place : Nat) :
    (s.recordSet p id seq pages code place).Canonical := by
  have hresults : (s.updAttn fun a => pages.foldl (fun a g => a.setResult g code) a).Canonical := h.updAttn fun a => a.setResults pages code
  unfold State.recordSet
  dsimp only
  split
  · exact hresults.updCfg _ _
  · exact (hresults.updCfg _ _).raise _ _

theorem finishSet (p : Port) (c : CfgSet) : (s.finishSet p c).Canonical := by
  have htaken := h.updCfg p fun f => { f with submitted := f.submitted.filter fun d => d.order ≠ c.order }
  unfold State.finishSet
  extract_lets s1 j s2
  refine recordSet ?_ _ _ _ _ _ _
  unfold s2
  split
  · exact htaken.applyChanges _
  · exact htaken.congr rfl fun _ => rfl

theorem finishSets (ok : CfgSet → Bool) : (s.finishSets ok).Canonical := by
  unfold State.finishSets
  with_reducible repeat' first
    | assumption | apply finishSet | apply forEach | intro _ _ _

theorem applyOldest (p : Port) : (s.applyOldest p).Canonical := by
  unfold State.applyOldest
  split
  · exact h
  split
  · exact h
  · exact h.finishSet _ _

theorem refuseSet (p : Port) (id : Nat) (pages : List Nat) (page : Nat) : (s.refuseSet p id pages page).Canonical := by
  unfold State.refuseSet
  exact (h.nextSeq _).recordSet _ _ _ _ _ _

theorem submitSet (p : Port) (id : Nat) (pages : List Nat) : (s.submitSet p id pages).Canonical := by
  unfold State.submitSet
  split
  · exact h.refuseSet _ _ _ _
  extract_lets r s1 keys ch c s2
  have htaken : s2.Canonical := (h.nextSeq p).congr rfl fun _ => rfl
  split
  · exact htaken.updCfg _ _
  · exact htaken.finishSet _ _

theorem commitWrite (p : Port) (page id : Nat) (submit : Bool) : (s.commitWrite p page id submit).Canonical := by
  unfold State.commitWrite
  dsimp only
  with_reducible repeat' first
    | assumption | apply submitSet | apply refuseSet | apply updCfg | split

theorem packageFault (f : PkgFault → PkgFault) : (s.packageFault f).Canonical := by
  unfold State.packageFault
  with_reducible repeat' first
    | assumption | apply updFault | apply updWorld | apply completeAll | apply forTenants | (intro hw; exact hw) | intro _ _ _

theorem owlDomainReset : s.owlDomainReset.Canonical := by
  unfold State.owlDomainReset
  with_reducible repeat' first
    | assumption | apply addCause | apply updPower | apply logEvent | apply updOwl

theorem domainReset (d : Domain) : (s.domainReset d).Canonical := by
  unfold State.domainReset
  split
  · exact h.owlDomainReset
  · exact ((h.clearDomain _).addCause _).packageFault _

end
end State.Canonical
end Sys2Proof.Machine
end

section
/-! SUPPORT. Canonical forms: clocks, frames and resets. -/
namespace Sys2Proof.Machine
open Sys2Proof
set_option Elab.async false
namespace State.Canonical
section
variable {s : State} (h : s.Canonical)
include h

theorem fenceUnit (k : UnitKind) (n channel : Nat) : (s.fenceUnit k n channel).Canonical := by
  unfold State.fenceUnit
  dsimp only
  with_reducible repeat' first
    | assumption | apply setView | apply logEvent | apply raise | apply updOwl | split

theorem unfenceUnit (k : UnitKind) (n channel : Nat) : (s.unfenceUnit k n channel).Canonical := by
  unfold State.unfenceUnit
  dsimp only
  with_reducible repeat' first
    | assumption | apply setView | apply logEvent | apply raise | apply updOwl | split

theorem endRelock (r : Relock) : (s.endRelock r).Canonical := by
  unfold State.endRelock
  with_reducible repeat' first
    | assumption | apply updClock | apply raise | apply updFrame

theorem stepRelock : s.stepRelock.Canonical := by
  unfold State.stepRelock
  with_reducible repeat' first
    | assumption | apply updClock | apply endRelock | apply requestLevel | split

theorem writeTarget (w : Writer) (v : BitVec 2) : (s.writeTarget w v).Canonical := by
  unfold State.writeTarget
  split
  · exact h.refuseWrite _ _ _
  split
  · exact h.recordDirect _ _ _ _
  · exact h.requestLevel _

theorem muxSwitch (d : Domain) : (s.muxSwitch d).Canonical := by
  unfold State.muxSwitch
  split
  · exact h
  split
  · exact h
  · exact (h.endSwitch _ _).stepRelock

theorem muxWatchdog (d : Domain) (toggled : Bool) : (s.muxWatchdog d toggled).Canonical := by
  unfold State.muxWatchdog
  with_reducible repeat' first
    | assumption | apply endSwitch | apply updClock | apply raise | apply logEvent | apply domainReset | apply stepRelock | split

theorem rootStable : s.rootStable.Canonical := by
  unfold State.rootStable
  split
  · exact h
  split
  · split
    · exact (h.updClock _).stepRelock
    · exact h
  · exact h.updClock _

theorem pllStable (p : Pll) : (s.pllStable p).Canonical := by
  unfold State.pllStable
  split
  · exact h.rootStable
  · split
    · exact h.updClock _
    · exact h
  split
  · exact h.updClock _
  · exact h

theorem writeSrcEn (w : Writer) (v : Nat) : (s.writeSrcEn w v).Canonical := by
  unfold State.writeSrcEn
  dsimp only
  split
  · exact h.refuseWrite _ _ _
  split
  · exact h.recordDirect _ _ _ _
  · exact (h.updClock _).setLive _ _ _

theorem loseReference : s.loseReference.Canonical := by
  unfold State.loseReference
  split
  · exact h
  · exact ((h.updClock _).logEvent _ _ _ _ _ _).packageFault _

theorem writeMeter (w : Writer) (v : Nat) : (s.writeMeter w v).Canonical := by
  unfold State.writeMeter
  dsimp only
  split
  · exact h.refuseWrite _ _ _
  split
  · exact h.recordDirect _ _ _ _
  · exact h.updClock _

theorem writeTrimCtrl (w : Writer) (v : Nat) : (s.writeTrimCtrl w v).Canonical := by
  unfold State.writeTrimCtrl
  split
  · exact h.refuseWrite _ _ _
  split
  · exact h.recordDirect _ _ _ _
  · exact h.updClock _

theorem trimTimeout : s.trimTimeout.Canonical := by
  unfold State.trimTimeout
  with_reducible repeat' first
    | assumption | apply raise | apply updClock | split

theorem readPlan (t : Fin 16) : (s.readPlan t).Canonical := by
  unfold State.readPlan
  split
  · split
    · exact (h.updSel _ _).programFault _ _
    · exact h
  · exact h

theorem publish (t : Fin 16) : (s.publish t).Canonical := by
  unfold State.publish
  dsimp only
  split
  · exact h
  · exact (h.readPlan _).updOut _ _

theorem sendWitness (d : FrameDone) : (s.sendWitness d).Canonical := by
  unfold State.sendWitness
  dsimp only
  with_reducible repeat' first
    | assumption | apply draw | apply streamRecord | apply dropRoute | apply transmit | apply forTenants | intro _ _ _ | split

theorem fixFrame (t : Fin 16) : (s.fixFrame t).Canonical := by
  unfold State.fixFrame
  with_reducible repeat' first
    | assumption | apply chainDigest | apply updTable | apply updOut | apply fixDone | apply writeWitness | apply sendWitness
    | split

theorem overflow (t : Fin 16) : (s.overflow t).Canonical := by
  unfold State.overflow
  with_reducible repeat' first
    | assumption | apply resetTenant | apply updTenant | (intro hw; exact hw)

theorem beforeFix (t : Fin 16) : (s.beforeFix t).Canonical := by
  unfold State.beforeFix
  dsimp only
  split
  · exact h
  split
  · exact h.cannotFix _
  split
  · exact h
  · exact h.readPlan _

theorem endTenantFrame (t : Fin 16) : (s.endTenantFrame t).Canonical := by
  unfold State.endTenantFrame
  dsimp only
  split
  · exact h
  split
  · exact h.overflow _
  · exact h.fixFrame _

theorem guardReset (t : Fin 16) : (s.guardReset t).Canonical := by
  unfold State.guardReset
  dsimp only
  split
  · exact h.resetTenant _
  · exact h

theorem missWitness (t : Fin 16) : (s.missWitness t).Canonical := by
  unfold State.missWitness
  extract_lets n l on s1 due s2
  have hnoted : s1.Canonical := h.updTenant fun hw => hw
  split
  · exact hnoted
  split
  · exact (State.Canonical.setLive (State.Canonical.updTenant hnoted.draw fun hw => hw) _ _ _).raise _ _
  · exact hnoted.draw

theorem guardActions : s.guardActions.Canonical := by
  unfold State.guardActions
  extract_lets s1 s2 s3 engines bears jays s4 s5 s6 s7
  have hended : s1.Canonical := (h.forTenants (f := State.endTasks) fun u t hu => hu.endTasks t).forTenants
    fun u t hu => hu.discardResults t
  have hreset : s2.Canonical := hended.forTenants (f := State.guardReset) fun u t hu => hu.guardReset t
  have hdropped : s3.Canonical := hreset.forTenants fun u t hu => hu.updTenant fun hw => hw
  clear_value s3
  have hfreed : s4.Canonical := hdropped.congr rfl fun _ => rfl
  have hwritten : s6.Canonical := (hfreed.updCascade _).updDram _
  exact updFrame (hwritten.forEach fun u l hu => hu.sendCal l) _

theorem endFrame : s.endFrame.Canonical := by
  unfold State.endFrame
  extract_lets s1 s2 s3 s4 cores s5
  have hjudged : s1.Canonical := (h.forTenants (f := State.beforeFix) fun u t hu => hu.beforeFix t).forTenants
    fun u t hu => hu.endTenantFrame t
  have hfixed : s2.Canonical := updFrame hjudged _
  split
  · exact hfixed
  · have hnoted : s4.Canonical := (hfixed.forTenants (f := State.missWitness) fun u t hu => hu.missWitness t).forTenants
      fun u t hu => hu.latchWaits t
    clear_value s4
    have hhalted : s5.Canonical := hnoted.congr rfl fun _ => rfl
    exact hhalted.latchCores.settle.guardActions

theorem atDeadline (k : Nat) : (s.atDeadline k).Canonical := by
  unfold State.atDeadline
  with_reducible repeat' first
    | assumption | apply applyWaiting | apply sealWorld | apply latchFox | apply endSearch | apply cutChecks | apply latchSolver
    | apply latchSelect | apply latchChecks | apply latchExhausted | apply latchEngines | apply judgeImminent | apply endFrame
    | apply forTenants | intro _ _ _ | split

theorem cutPhase (k : Nat) : (s.cutPhase k).Canonical := by
  unfold State.cutPhase
  with_reducible repeat' first
    | assumption | apply hold | apply cutTasks | apply cutSelects | apply cutSolves | apply unhold | apply expireWaits
    | apply forTenants | intro _ _ _

theorem passDeadline (k : Nat) : (s.passDeadline k).Canonical := by
  unfold State.passDeadline
  extract_lets s1 s2
  have hpassed : s2.Canonical := updFrame (h.settle.advanceTo _) _
  split
  · split
    · exact hpassed.endFrame
    · exact hpassed
  · exact ((hpassed.cutPhase k).atDeadline k).settle

theorem adapt : s.adapt.Canonical := by
  unfold State.adapt
  dsimp only
  with_reducible repeat' first
    | assumption | apply requestLevel | apply raise | split

theorem openFrame : s.openFrame.Canonical := by
  unfold State.openFrame
  with_reducible repeat' first
    | assumption | apply finishSets | apply startDeferred | apply adapt | apply turnTenants | apply turnUnits | apply turnLinks
    | apply startTenant | apply exchange | apply applyWaiting | apply updSpoor | apply buildStops | apply settle | apply updFrame
    | apply forTenants | intro _ _ _ | split

theorem beginFrame (subst : Bool) (number : Option (BitVec 64)) : (s.beginFrame subst number).Canonical := by
  unfold State.beginFrame
  extract_lets f s1 irregular s2 s3 s4
  have hrun : s1.Canonical := by
    unfold s1
    split
    · exact h.startRun
    · exact h
  have hbegun : s4.Canonical :=
    (((updFrame hrun _).updLynx _).updClock _).closePower.forTenants fun u t hu => hu.updTenant fun hw => hw
  split
  · exact hbegun
  · exact hbegun.openFrame

theorem finishOpening : s.finishOpening.Canonical := by
  unfold State.finishOpening
  with_reducible repeat' first
    | assumption | apply openFrame | apply advanceTo | apply noteTiming | apply forTenants | intro _ _ _

theorem passUpTo (k : Nat) : (s.passUpTo k).Canonical := by
  have hopened : (if s.frame.opening then s.finishOpening else s).Canonical := by
    split
    · exact h.finishOpening
    · exact h
  refine hopened.forEach fun u j hu => ?_
  split
  · exact hu.passDeadline j
  · exact hu

theorem reachDeadline (k : Nat) : (s.reachDeadline k).Canonical := by
  unfold State.reachDeadline
  split
  · exact h
  · exact h.passUpTo k

theorem timeoutWait (t : Fin 16) (i : Nat) : (s.timeoutWait t i).Canonical := by
  unfold State.timeoutWait
  split
  · split
    · exact h
    split
    · exact h.advanceTo _
    · exact h.reachDeadline _
  · exact h

theorem completeGuard : s.completeGuard.Canonical := by
  unfold State.completeGuard
  split
  · exact h
  split
  · exact h.finishOpening
  · exact h.advanceTo _

theorem closeFrame : s.closeFrame.Canonical := by
  unfold State.closeFrame
  split
  · exact h.passUpTo 7
  · exact h

theorem tickEdge (subst : Bool) : (s.tickEdge subst).Canonical := by
  unfold State.tickEdge
  dsimp only
  with_reducible repeat' first
    | assumption | apply transmit | apply beginFrame | apply closeFrame | apply updFrame | apply forEach | intro _ _ _ | split

theorem timerTick : s.timerTick.Canonical := by
  unfold State.timerTick
  split
  · exact h
  split
  · split
    · exact (h.closeFrame.advanceTo _).tickEdge _
    · exact (h.advanceTo _).tickEdge _
  split
  · exact (h.advanceTo _).tickEdge _
  · exact h

theorem ftickIn : s.ftickIn.Canonical := by
  unfold State.ftickIn
  split
  · exact h
  split
  · exact (h.useResync _).tickEdge _
  · exact h.countEarly
  · exact h

theorem declareLost : s.declareLost.Canonical := by
  unfold State.declareLost
  with_reducible repeat' first
    | assumption | apply updCascade | apply failRun | apply updFrame | apply forEach | intro _ _ _ | split

theorem substituteTick : s.substituteTick.Canonical := by
  unfold State.substituteTick
  dsimp only
  with_reducible repeat' first
    | assumption | apply closeFrame | apply advanceTo | apply raise | apply setLive | apply declareLost | apply tickEdge | split

theorem alignedBoundary : s.alignedBoundary.Canonical := by
  unfold State.alignedBoundary
  split
  · exact h
  split
  · exact h
  · exact (h.closeFrame.advanceTo _).beginFrame _ _

theorem ftickOutFall : s.ftickOutFall.Canonical := by
  unfold State.ftickOutFall
  with_reducible repeat' first
    | assumption | apply advanceTo | apply updFrame | split

theorem endLastFrame : s.endLastFrame.Canonical := by
  unfold State.endLastFrame
  dsimp only
  with_reducible repeat' first
    | assumption | apply closeFrame | apply advanceTo | apply turnTenants | apply finishSets | apply updFrame | split

theorem releaseSafe : s.releaseSafe.Canonical := by
  unfold State.releaseSafe
  with_reducible repeat' first
    | assumption | apply raise | apply setLive | apply updFrame | split

omit h in
theorem clearPackage (cause : Nat) : (s.clearPackage cause).Canonical := by
  rw [State.canonical_iff]
  refine ⟨⟨List.Pairwise.nil, List.Pairwise.nil, List.Pairwise.nil, List.Pairwise.nil⟩, fun t => ?_⟩
  rw [State.tenant_clearPackage]
  exact List.Pairwise.nil

theorem endTrial : s.endTrial.Canonical := by
  unfold State.endTrial
  with_reducible repeat' first
    | assumption | apply updPower | apply logEvent | apply updOwl | split

theorem startBoot : s.startBoot.Canonical := by
  unfold State.startBoot
  with_reducible repeat' first
    | assumption | apply updPower | apply updCascade | apply bumpCounter | apply logEvent | apply endTrial | split

theorem packageReset (cause : Nat) : (s.packageReset cause).Canonical := by
  unfold State.packageReset
  split
  · exact h.addCause _
  · exact clearPackage _

theorem pkgRst (w : Writer) : (s.pkgRst w).Canonical := by
  unfold State.pkgRst
  split
  · exact (h.packageReset _).startBoot
  · exact h.refuseWrite _ _ _

theorem powerFalls : s.powerFalls.Canonical := by
  unfold State.powerFalls
  split
  · exact (h.packageReset _).updPower _
  · exact h

theorem powerRises : s.powerRises.Canonical := by
  unfold State.powerRises
  split
  · exact h
  · exact (h.updPower _).startBoot

theorem sysResetLow (us : Nat) : (s.sysResetLow us).Canonical := by
  unfold State.sysResetLow
  split
  · exact h
  · exact (h.packageReset _).updPower _

theorem sysResetRises : s.sysResetRises.Canonical := by
  unfold State.sysResetRises
  split
  · exact (h.updPower _).startBoot
  · exact h

omit h in
theorem coldReset : s.coldReset.Canonical := by
  unfold State.coldReset
  extract_lets o blank owl cleared s1 s2
  have hcleared : cleared.Canonical := clearPackage 0
  clear_value cleared
  have hkept : s1.Canonical := hcleared.congr rfl fun _ => rfl
  have hpins : s2.Canonical := updFrame hkept _
  have hcascade : ({ s2 with cascade := Cascade.reset } : State).Canonical := hpins.congr rfl fun _ => rfl
  exact (hcascade.resetUnits.bumpCounter 20).startBoot

theorem owlWatchdog : s.owlWatchdog.Canonical := by
  unfold State.owlWatchdog
  split
  · exact h
  · exact h.owlDomainReset

theorem logBoot : s.logBoot.Canonical := by
  unfold State.logBoot
  exact h.logEvent _ _ _ _ _ _

theorem enterRecovery (code : Byte) : (s.enterRecovery code).Canonical := by
  unfold State.enterRecovery
  exact (h.updPower _).logBoot

theorem bootRom : s.bootRom.Canonical := by
  unfold State.bootRom
  dsimp only
  with_reducible repeat' first
    | assumption | apply logBoot | apply updPower | apply runBank | apply enterRecovery | apply updOwl | split

theorem bootNext : s.bootNext.Canonical := by
  unfold State.bootNext
  with_reducible repeat' first
    | assumption | apply bootRom | apply bootClocks | apply updPower | apply updDram | apply raiseUnits | apply logBoot | split

theorem bootFails : s.bootFails.Canonical := by
  unfold State.bootFails
  split
  · exact (h.draw.updPower _).enterRecovery _
  · exact h.enterRecovery _

theorem endBootStage (o : StageOutcome) : (s.endBootStage o).Canonical := by
  unfold State.endBootStage
  split
  · exact h
  split
  · exact h.bootNext
  · split
    · exact h.enterRecovery _
    · exact h
  · exact h.bootFails

theorem dropQueue (t : Fin 16) (q : Fin 8) : (s.dropQueue t q).Canonical := by
  unfold State.dropQueue
  exact (h.updQueue _ _ _).reapQueue _ _

theorem portLost (t : Fin 16) : (s.portLost t).Canonical := by
  have hworld : (s.tenant t).undeliver.world = (s.tenant t).world := by
    unfold Tenant.undeliver
    split <;> rfl
  have hdropped : ((s.updTenant t Tenant.undeliver).forEach (allFin 8) fun s q => s.dropQueue t q).Canonical :=
    (h.updTenant fun hw => by rwa [hworld]).forEach fun u q hu => hu.dropQueue t q
  unfold State.portLost
  dsimp only
  split
  · exact hdropped.requestHold _ _
  · exact hdropped

theorem portReset (p : Port) (c : PortResetCause) : (s.portReset p c).Canonical := by
  unfold State.portReset
  with_reducible repeat' first
    | assumption | apply addCause | apply updCfg | apply resetRegs | apply setLive | apply portLost | apply forTenants
    | intro _ _ _ | split

theorem judgeAlert : s.judgeAlert.Canonical := by
  unfold State.judgeAlert
  with_reducible repeat' first
    | assumption | apply logEvent | apply updPower | apply updOwl | split

theorem logHeat (event severity : Nat) : (s.logHeat event severity).Canonical := by
  unfold State.logHeat
  exact h.logEvent _ _ _ _ _ _

theorem beginThrottle : s.beginThrottle.Canonical := by
  unfold State.beginThrottle
  with_reducible repeat' first
    | assumption | apply updPower | apply slowDown | apply logHeat | apply bumpCounter

theorem watchThrottle : s.watchThrottle.Canonical := by
  unfold State.watchThrottle
  dsimp only
  split
  · split
    · exact h.updPower _
    split
    · exact (h.updPower _).beginThrottle
    · exact h.updPower _
  · exact h.updPower _

end
end State.Canonical
end Sys2Proof.Machine
end

section
/-! SUPPORT. Canonical forms: links, Lynx, Owl and the registers. -/
namespace Sys2Proof.Machine
open Sys2Proof
set_option Elab.async false
namespace State.Canonical
section
variable {s : State} (h : s.Canonical)
include h

theorem watchTrip : s.watchTrip.Canonical := by
  unfold State.watchTrip
  with_reducible repeat' first
    | assumption | apply logHeat | apply bumpCounter | apply packageFault | apply updDram | split

theorem tempSample (js : Bank (BitVec 16) 12) : (s.tempSample js).Canonical := by
  unfold State.tempSample
  with_reducible repeat' first
    | assumption | apply updPower | apply watchTrip | apply watchThrottle | apply judgeAlert | apply updOwl | split

theorem throttleStep : s.throttleStep.Canonical := by
  unfold State.throttleStep
  split
  · exact h
  · exact (h.advanceTo _).slowDown

theorem throttleEnd : s.throttleEnd.Canonical := by
  unfold State.throttleEnd
  with_reducible repeat' first
    | assumption | apply advanceTo | apply updPower | apply restoreOne | apply updFrame | split

theorem restoreStep : s.restoreStep.Canonical := by
  unfold State.restoreStep
  split
  · exact h
  split
  · exact (h.advanceTo _).restoreOne
  · exact h.updPower _

theorem dramRefresh : s.dramRefresh.Canonical := by
  unfold State.dramRefresh
  dsimp only
  with_reducible repeat' first
    | assumption | apply advanceTo | apply updFrame | split

theorem enableLink (w : Writer) (l : Nat) (on : Bool) : (s.enableLink w l on).Canonical := by
  unfold State.enableLink
  split
  · exact h.updLink _ _
  · exact h.refuseWrite _ _ _

theorem retrainLink (l : Nat) : (s.retrainLink l).Canonical := by
  unfold State.retrainLink
  dsimp only
  with_reducible repeat' first
    | assumption | apply updLink | apply raise | apply logEvent | apply bumpCounter | split

theorem unroutable (f : LinkFrame) : (s.unroutable f).Canonical := by
  unfold State.unroutable
  split
  · exact h.sendResponse _
  · exact h.dropRoute
  · exact h

theorem killLink (l : Nat) : (s.killLink l).Canonical := by
  unfold State.killLink
  dsimp only
  with_reducible repeat' first
    | assumption | apply updLink | apply unroutable | apply forEach | intro _ _ _ | split

theorem writeRoute (w : Writer) (v : Nat) : (s.writeRoute w v).Canonical := by
  unfold State.writeRoute
  split
  · exact h.refuseWrite _ _ _
  split
  · exact h.recordDirect _ _ _ _
  · exact h.updCascade _

theorem forwardFrame (f : LinkFrame) : (s.forwardFrame f).Canonical := by
  unfold State.forwardFrame
  split
  · exact h.unroutable _
  · exact h.transmit _ _

theorem routeFrame (l : Nat) (f : LinkFrame) (kind : Nat) {deliver : State → State} (hdeliver : (deliver s).Canonical) :
    (s.routeFrame l f kind deliver).Canonical := by
  refine h.receive l f kind ?_
  split
  · exact h.dropFrame.raise _ _
  split
  · exact hdeliver
  · exact h.forwardFrame f

theorem serve (l : Nat) (f : LinkFrame) : (s.serve l f).Canonical := by
  unfold State.serve
  exact (h.perform _ _).sendResponse _

theorem collResult (l : Nat) (f : LinkFrame) : (s.collResult l f).Canonical := by
  unfold State.collResult
  dsimp only
  with_reducible repeat' first
    | assumption | apply deliverResponse | apply endFailed | apply forEach | intro _ _ _ | split

theorem countForeign : s.countForeign.Canonical := by
  unfold State.countForeign
  with_reducible repeat' first
    | assumption | apply raise | apply updCascade

theorem takeTick (l : Nat) (f : LinkFrame) : (s.takeTick l f).Canonical := by
  refine h.receive l f _ ?_
  split
  · exact h.countForeign
  extract_lets a align s1 s2 T
  have hnoted : s2.Canonical := by
    unfold s2
    split
    · exact (h.noteTick f a).raise _ _
    · exact h.noteTick f a
  split
  · exact hnoted
  split
  · exact hnoted.acceptTick _ _ _
  · exact hnoted.countEarly
  · exact hnoted

theorem takeMark (l : Nat) (f : LinkFrame) : (s.takeMark l f).Canonical := by
  refine h.receive l f _ ?_
  split
  · exact h.countForeign
  · exact h.updCascade _

theorem loseMaster : s.loseMaster.Canonical := by
  unfold State.loseMaster
  split
  · exact h
  · exact (h.advanceTo _).declareLost

theorem endWindow : s.endWindow.Canonical := by
  unfold State.endWindow
  dsimp only
  with_reducible repeat' first
    | assumption | apply advanceTo | apply updLynx | apply transmit | apply forEach | intro _ _ _ | split

theorem freeze : s.freeze.Canonical := by
  unfold State.freeze
  with_reducible repeat' first
    | assumption | apply logEvent | apply draw | apply packageFault | apply updLynx | split

theorem diverge (kind window stream offset : Nat) (own other : BitVec 64) : (s.diverge kind window stream offset own other).Canonical := by
  unfold State.diverge
  with_reducible repeat' first
    | assumption | apply countDiv | apply raise | apply updLynx | apply transmit | apply freeze | split

theorem divergeFree (kind window : Nat) : (s.divergeFree kind window).Canonical := by
  have hdrawn : ({ s with draws := s.draws + 6 } : State).Canonical := h.congr rfl fun _ => rfl
  exact hdrawn.diverge _ _ _ _ _ _

theorem compareSigs (f : LinkFrame) : (s.compareSigs f).Canonical := by
  unfold State.compareSigs
  dsimp only
  split
  · exact h
  split
  · exact (h.updLynx _).diverge _ _ _ _ _ _
  · exact h.updLynx _

theorem takeSig (f : LinkFrame) : (s.takeSig f).Canonical := by
  refine h.receive 0 f _ ?_
  split
  · exact h
  split
  · exact h.divergeFree _ _
  dsimp only
  split
  · exact h.endWindow.compareSigs f
  · exact h.compareSigs f

theorem takeNotice (f : LinkFrame) : (s.takeNotice f).Canonical := by
  refine h.receive 0 f _ ?_
  split
  · exact h.countDiv
  split
  · exact h.divergeFree _ _
  · exact h

theorem missSigs (w : Nat) : (s.missSigs w).Canonical := by
  unfold State.missSigs
  split
  · exact h
  · exact (h.divergeFree _ _).updLynx _

theorem pairWithGo (new : List Byte) (old : Option Digest) : (State.pairWith.go new s old).1.Canonical := by
  unfold State.pairWith.go
  extract_lets rec'
  split
  · exact h
  · exact (h.updOwl _).logEvent _ _ _ _ _ _

theorem pairWith (new cur : List Byte) : (s.pairWith new cur).1.Canonical := by
  unfold State.pairWith
  dsimp only
  split
  · split
    · exact h
    · exact h.pairWithGo _ _
  · exact h.pairWithGo _ _

theorem fenceReq (ch : Channel) (d : List Byte) (on : Bool) : ((s.fenceReq ch d on).1).Canonical := by
  unfold State.fenceReq
  dsimp only
  split
  · exact h
  split
  · exact h
  split
  · exact h.fenceUnit _ _ _
  · exact h.unfenceUnit _ _ _

theorem fwEnd (code reason : Byte) (bank : Bool) (w : List Byte) : (s.fwEnd code reason bank w).Canonical := by
  unfold State.fwEnd
  with_reducible repeat' first
    | assumption | apply raise | apply logEvent | apply updOwl

theorem fwFinish : ((s.fwFinish).1).Canonical := by
  unfold State.fwFinish
  with_reducible repeat' first
    | assumption | apply fwEnd | apply draw | apply bumpCounter | apply updOwl | split

theorem serveOp {ch : Channel} {op : Nat} {d : List Byte} {x : State × Byte × List Byte} (hx : s.serveOp ch op d = some x) :
    x.1.Canonical := by
  unfold State.serveOp at hx
  split at hx
  case h_6 => cases hx; exact h.draw
  case h_8 => cases hx; exact h.pairWith _ _
  case h_9 =>
    cases hx
    dsimp only
    exact h.updOwl _
  case h_10 => cases hx; exact h.fenceReq _ _ _
  case h_11 => cases hx; exact h.fenceReq _ _ _
  case h_12 => cases hx; exact h.fwOpen _
  case h_13 =>
    dsimp only at hx
    split at hx
    · split at hx
      · cases hx
      · cases hx; exact h.fwWrite _
    · cases hx; exact h.fwWrite _
  case h_14 => cases hx; exact h.fwFinish
  case h_15 => cases hx; exact h.fwConfirm
  case h_16 => cases hx; exact h.setBoard _
  all_goals cases hx; exact h

theorem serveRequest (ch : Channel) : (s.serveRequest ch).Canonical := by
  unfold State.serveRequest
  extract_lets r s1
  have htaken : s1.Canonical := h.updOwl _
  split
  · exact htaken.respond _ _ _
  split
  next x hx => exact (htaken.serveOp hx).respond _ _ _
  · exact htaken.holdChunk _ _

theorem serveUpTo (ch : Channel) : (s.serveUpTo ch).Canonical := by
  unfold State.serveUpTo
  with_reducible repeat' first
    | assumption | apply serveRequest | apply forEach | intro _ _ _ | split

theorem mailRow (isOp : Nat → Bool) (ch : Channel) (req : List Byte) : (s.mailRow isOp ch req).Canonical := by
  unfold State.mailRow
  dsimp only
  split
  · split
    · exact h
    · exact h.serveUpTo _
  split
  · exact h
  split
  · exact ((h.setReqBytes _ _).arriveRequest _ _).serveUpTo _
  · exact (h.arriveRequest _ _).serveUpTo _

theorem mailOp (op : Nat) (ch : Channel) (req : List Byte) : (s.mailOp op ch req).Canonical := by
  unfold State.mailOp
  exact h.mailRow _ _ _

theorem eraseDone : s.eraseDone.Canonical := by
  unfold State.eraseDone
  split
  · exact h
  split
  · exact h
  · refine (h.updOwl _).forEach fun u c hu => ?_
    split
    next y hy => exact (hu.serveOp hy).respond _ _ _
    · exact hu

theorem flushLog : s.flushLog.Canonical := by
  unfold State.flushLog
  dsimp only
  with_reducible repeat' first
    | assumption | apply logEvent | apply updOwl | split

theorem railSample (rails : Bank (BitVec 16) 15) (current : BitVec 16) (stackTemps : Bank (BitVec 16) 4) (power : BitVec 16) :
    (s.railSample rails current stackTemps power).Canonical := by
  unfold State.railSample
  with_reducible repeat' first
    | assumption | apply updPower | apply judgeAlert | apply updOwl | split

theorem calSet (w : Writer) : (s.calSet w).Canonical := by
  unfold State.calSet
  dsimp only
  split
  · exact h.refuseWrite _ _ _
  split
  · exact (h.updCal _).recordDirect _ _ _ _
  · exact (h.updCal _).logEvent _ _ _ _ _ _

theorem sramCorrected (x : Storage) : (s.sramCorrected x).Canonical := by
  unfold State.sramCorrected
  with_reducible repeat' first
    | assumption | apply bumpErr | split

theorem countUe (k : UnitKind) (n : Nat) : ((s.countUe k n).1).Canonical := by
  unfold State.countUe
  dsimp only
  with_reducible repeat' first
    | assumption | apply updView | apply fenceUnit | split

theorem internalFault (k : UnitKind) (n : Nat) : (s.internalFault k n).Canonical := by
  unfold State.internalFault
  dsimp only
  split
  · exact (h.setView _ _ _).countUe _ _
  · exact ((h.setView _ _ _).countUe _ _).owlUnitReset _ _

theorem coreStoreFault (c : Nat) : (s.coreStoreFault c).Canonical := by
  unfold State.coreStoreFault
  split
  · exact (h.faultPart _ _ _).internalFault _ _
  · exact h.internalFault _ _

theorem badgerFault (e : Fin 16) : (s.badgerFault e).Canonical := by
  unfold State.badgerFault
  split
  · exact ((h.updEngine _ _).endCheck _).internalFault _ _
  · exact h.internalFault _ _

theorem bitmapFault (e : Fin 16) (word : Nat) : (s.bitmapFault e word).Canonical := by
  unfold State.bitmapFault
  dsimp only
  with_reducible repeat' first
    | assumption | apply updTable | apply countUe | apply judgeImminent | apply forTenants | intro _ _ _ | split

theorem containUe (x : Storage) : (s.containUe x).Canonical := by
  cases x with
  | coreStore c => exact h.coreStoreFault _
  | badgerCheck e => exact h.badgerFault _
  | badgerBitmap e w => exact h.bitmapFault _ _
  | bear u => exact h.internalFault _ _
  | jay u => exact h.internalFault _ _
  | front f => exact h.internalFault _ _
  | burrowTile t j i => exact h.updWorld (f := fun w => w.tileFault (j.map (·.val)) i.val) fun hw => World.keysRise_tileFault hw _ _
  | owlSram => exact h.owlDomainReset
  | burrowDirectory => exact h.packageFault _
  | beaver => exact h.packageFault _
  | fabric => exact h.packageFault _
  | lynx => exact h.packageFault _
  | spoor => exact h.packageFault _

theorem sramUe (x : Storage) : (s.sramUe x).Canonical := by
  unfold State.sramUe
  with_reducible repeat' first
    | assumption | apply logEvent | apply draw | apply bumpErr | apply containUe | split

theorem dramCorrected (a : Nat) : (s.dramCorrected a).Canonical := by
  unfold State.dramCorrected
  with_reducible repeat' first
    | assumption | apply setLive | apply bumpCounter | apply bumpErr | apply updDram | split

theorem dramUe (a : Nat) : (s.dramUe a).Canonical := by
  unfold State.dramUe
  with_reducible repeat' first
    | assumption | apply setLive | apply logEvent | apply raise | apply bumpErr | apply updDram | split

theorem loadJtag (ir : Byte) (d : List Bool) : (s.loadJtag ir d).Canonical := by
  unfold State.loadJtag
  extract_lets s1
  have hset : s1.Canonical := h.congr rfl fun _ => rfl
  split
  · exact (hset.updPower _).startBoot
  · exact hset

theorem loadTest (ir : Byte) (d : List Bool) : (s.loadTest ir d).Canonical := by
  unfold State.loadTest
  extract_lets s1
  have hset : s1.Canonical := h.congr rfl fun _ => rfl
  split
  · exact hset
  · exact (hset.packageReset _).updPower _

theorem writePageCtrl (w : Writer) (page v : Nat) : (s.writePageCtrl w page v).Canonical := by
  unfold State.writePageCtrl
  extract_lets old own mask new s1 s2
  have hset : s1.Canonical := h.updAttn fun a => ⟨a.latch, a.mask, a.errCount, a.crossed⟩
  have hcounted : s2.Canonical := by
    unfold s2
    split
    · exact hset.bumpErr page
    · exact hset
  split
  · split
    · exact hcounted.discardPage _ _
    · exact hcounted.reloadShadows _ _
  · exact hcounted

theorem writeLatch (w : Writer) (page : Nat) (v : Word) : (s.writeLatch w page v).Canonical := by
  unfold State.writeLatch
  split
  · exact h.updAttn fun a => a.clearLatch _ _ _
  · exact h

theorem writeMask (w : Writer) (page : Nat) (v : Word) : (s.writeMask w page v).Canonical := by
  unfold State.writeMask
  split
  · exact h
  split
  · exact h.updAttn fun a => a.setMask _ _
  split
  · exact h.bumpErr page
  · exact h

theorem writeCrossed (w : Writer) (page : Nat) (v : Word) : (s.writeCrossed w page v).Canonical := by
  unfold State.writeCrossed
  split
  · exact h.updAttn fun a => a.clearCrossed _ _
  · exact h

theorem writeCount (w : Writer) (page v : Nat) : (s.writeCount w page v).Canonical := by
  unfold State.writeCount
  split
  · exact h.updAttn fun a => ⟨a.latch, a.mask, a.errCount, a.crossed⟩
  split
  · exact h.bumpErr page
  · exact h

theorem writeHeader (w : Writer) (page off v : Nat) : (s.writeHeader w page off v).Canonical := by
  unfold State.writeHeader
  with_reducible repeat' first
    | assumption | apply writePageCtrl | apply writeLatch | apply writeMask | apply commitWrite | apply writeCrossed
    | apply writeCount | split

theorem writeTCtrl (w : Writer) (t : Fin 16) (v : Nat) : (s.writeTCtrl w t v).Canonical := by
  unfold State.writeTCtrl
  with_reducible repeat' first
    | assumption | apply requestReset | apply requestHold | apply requestRelease | split

theorem writeTail (w : Writer) (v : Nat) : (s.writeTail w v).Canonical := by
  unfold State.writeTail
  split
  · exact h.recordDirect _ _ _ _
  · exact h.setLive _ _ _

theorem writeAction (w : Writer) (page off v : Nat) {y : State} (hy : s.writeAction w page off v = some y) : y.Canonical := by
  unfold State.writeAction at hy
  dsimp only at hy
  with_reducible repeat' first
    | (cases hy; done)
    | split at hy
  all_goals (obtain rfl : _ = y := Option.some.inj hy)
  with_reducible repeat' first
    | assumption | apply writeTarget | apply writeSrcEn | apply updClock | apply writeTrimCtrl | apply writeMeter | apply pkgRst
    | apply unitReset | apply setRunning | apply armResync | apply releaseSafe | apply updLynx | apply writeRoute | apply mailGo
    | apply updBox | apply calSet | apply writeTail | apply writeMsix | apply writeQCtrl | apply ringSq | apply ringCq
    | apply writeQStatus | apply writeTCtrl | apply enableLink | apply retrainLink

theorem writeA (w : Writer) (page off : Nat) (r : Reg) (mask v : Nat) : (s.writeA w page off r mask v).Canonical := by
  unfold State.writeA
  dsimp only
  split
  · exact h.recordDirect _ _ _ _
  split
  · exact h.writeAction _ _ _ _ ‹_›
  split
  · exact h
  · exact h.setLive _ _ _

theorem writeDirect (w : Writer) (page off : Nat) (r : Reg) (mask v : Nat) : (s.writeDirect w page off r mask v).Canonical := by
  unfold State.writeDirect
  extract_lets new ch s1 s2
  have hset : s2.Canonical := (h.setShadow page off new).congr rfl fun _ => rfl
  split
  · exact h.recordDirect _ _ _ _
  split
  · exact h.recordDirect _ _ _ _
  · exact (hset.applyChanges ch).recordDirect _ _ _ _

theorem writeBlock (w : Writer) (page off v : Nat) : (s.writeBlock w page off v).Canonical := by
  unfold State.writeBlock
  dsimp only
  with_reducible repeat' first
    | assumption | apply bumpErr | apply writeA | apply writeShadow | apply writeDirect | split

theorem writeReg (w : Writer) (page off v : Nat) : (s.writeReg w page off v).Canonical := by
  unfold State.writeReg
  split
  · exact h
  split
  · exact h.writeHeader _ _ _ _
  · exact h.writeBlock _ _ _ _

end
end State.Canonical
end Sys2Proof.Machine
end


section
/-! SUPPORT. Canonical forms: every step keeps them. The commands one by one (each arm names the operation that is its effect), the frames of the
links, and the idle microsecond. -/
namespace Sys2Proof.Machine
open Sys2Proof
set_option Elab.async false

namespace State.Canonical

/-- A register command of the control port, or its refusal. -/
theorem orRefuse {s : State} (h : s.Canonical) (c : Prop) [Decidable c] (w : Writer) (page : Nat) (changes : Bool) {y : State}
    (hy : y.Canonical) : (if c then y else s.refuseWrite w page changes).Canonical := by
  split
  · exact hy
  · exact h.refuseWrite w page changes

theorem takeWitness {s : State} (h : s.Canonical) (l : Nat) (f : LinkFrame) : (s.takeWitness l f).Canonical :=
  h.of_touches (State.takeWitness_touches s l f (within_refl _) (Touches.refl _ _))

theorem sealIfDue {s : State} (h : s.Canonical) (c : Prop) [Decidable c] (t : Fin 16) : (if c then s.sealWorld t else s).Canonical := by
  split
  · exact h.sealWorld t
  · exact h

theorem retrainIf {s : State} (h : s.Canonical) (c : Prop) [Decidable c] (l : Nat) : (if c then s.retrainLink l else s).Canonical := by
  split
  · exact h.retrainLink l
  · exact h

end State.Canonical

/-- A command that may change neither attention nor a world. -/
theorem exec_canonical_of_untouched {s : State} (h : s.Canonical) (i : Instr)
    (hl : ([.attn, .tWorld].all fun p => ! (mayChange i).contains p) = true) :
    ∃ after, exec i s = .next (settle after) ∧ after.Canonical := by
  obtain ⟨after, hexec, htouch⟩ := exec_effect i s
  exact ⟨after, hexec, h.of_touches htouch hl⟩

/-- Every command's own effect keeps the canonical forms. -/
theorem exec_canonical {s : State} (h : s.Canonical) (i : Instr) : ∃ after, exec i s = .next (settle after) ∧ after.Canonical :=
  match i with
  | .frameTimerTick => ⟨_, rfl, h.timerTick⟩
  | .ftickIn => ⟨_, rfl, h.ftickIn⟩
  | .substituteTick => ⟨_, rfl, h.substituteTick⟩
  | .ftickOutFall => ⟨_, rfl, h.ftickOutFall⟩
  | .run _ _ => ⟨_, rfl, h.orRefuse _ _ _ _ (h.setRunning _)⟩
  | .resync _ => ⟨_, rfl, h.orRefuse _ _ _ _ h.armResync⟩
  | .phaseDeadline _ => ⟨_, rfl, h.reachDeadline _⟩
  | .cutForced _ => ⟨_, rfl, h.forceCut _⟩
  | .worldSeal _ => ⟨_, rfl, h.sealIfDue _ _⟩
  | .publish _ => ⟨_, rfl, h.publish _⟩
  | .safeCtrlRelease _ => ⟨_, rfl, h.orRefuse _ _ _ _ h.releaseSafe⟩
  | .sqDoorbell _ _ _ _ => exec_canonical_of_untouched h _ rfl
  | .cqDoorbell _ _ _ _ => exec_canonical_of_untouched h _ rfl
  | .commandFetch _ _ _ => ⟨_, rfl, h.fetchCommand _ _ _⟩
  | .completionWrite _ _ => exec_canonical_of_untouched h _ rfl
  | .frameCompletionWrite _ => exec_canonical_of_untouched h _ rfl
  | .qStatusDmaErrClear _ _ _ => exec_canonical_of_untouched h _ rfl
  | .ingest _ _ _ => ⟨_, rfl, h.ingest _ _ _⟩
  | .mixedTile _ => ⟨_, rfl, h.applyMixedTile _⟩
  | .uniformTiles _ => ⟨_, rfl, h.applyUniformTiles _⟩
  | .scroll _ => ⟨_, rfl, h.applyScroll _⟩
  | .region _ => ⟨_, rfl, h.applyRegion _⟩
  | .agentList _ => ⟨_, rfl, h.applyAgentList _⟩
  | .agentRasterise _ => ⟨_, rfl, h.rasteriseAgent _⟩
  | .loadLattice _ _ _ => ⟨_, rfl, h.loadLattice _ _ _⟩
  | .loadModel _ _ _ => ⟨_, rfl, h.loadModel _ _ _⟩
  | .measure _ _ => ⟨_, rfl, h.measureCmd _ _⟩
  | .shape _ _ => ⟨_, rfl, h.shapeCmd _ _⟩
  | .hostCand _ _ _ => ⟨_, rfl, h.hostCand _ _ _⟩
  | .hostCandJudge _ _ => ⟨_, rfl, h.judgeHost _ _⟩
  | .loadProgram _ _ _ => ⟨_, rfl, h.loadProgram _ _ _⟩
  | .activate _ _ => ⟨_, rfl, h.activateCmd _ _⟩
  | .signal _ _ => ⟨_, rfl, h.signalCmd _ _⟩
  | .nop _ _ => ⟨_, rfl, h.nopCmd _ _⟩
  | .bar2Read _ _ _ => ⟨_, rfl, h.bar2Read _ _ _⟩
  | .bar2Write _ _ _ => ⟨_, rfl, h.bar2Write _ _ _⟩
  | .configurationRequest _ => exec_canonical_of_untouched h _ rfl
  | .frontField _ => exec_canonical_of_untouched h _ rfl
  | .expandNode _ => exec_canonical_of_untouched h _ rfl
  | .proposalConvert _ => exec_canonical_of_untouched h _ rfl
  | .checkStart _ => exec_canonical_of_untouched h _ rfl
  | .checkVerdict _ => ⟨_, rfl, h.endCheck _⟩
  | .smooth _ => ⟨_, rfl, h.receiveSmooth _⟩
  | .solveStart _ => ⟨_, rfl, h.startSolve _⟩
  | .solveIteration _ => ⟨_, rfl, h.iterateSolve _⟩
  | .solveEnd _ => ⟨_, rfl, h.endSolve _⟩
  | .select _ => ⟨_, rfl, h.receiveSelect _⟩
  | .selectStart _ => ⟨_, rfl, h.startSelect _⟩
  | .selectPass _ => ⟨_, rfl, h.passSelect _⟩
  | .selectResult _ => ⟨_, rfl, h.resultSelect _⟩
  | .gemmTileStep _ => ⟨_, rfl, h.stepTile _⟩
  | .peerSend _ => ⟨_, rfl, h.peerSend _⟩
  | .taskFetch _ => exec_canonical_of_untouched h _ rfl
  | .computePartStart _ => ⟨_, rfl, h.startPart _⟩
  | .engineTaskIssue _ _ => ⟨_, rfl, h.issueEngine _ _⟩
  | .waitStart _ _ => exec_canonical_of_untouched h _ rfl
  | .timerTask _ _ => exec_canonical_of_untouched h _ rfl
  | .signalTask _ _ => exec_canonical_of_untouched h _ rfl
  | .taskRetire _ _ => exec_canonical_of_untouched h _ rfl
  | .waitTimeout _ _ => ⟨_, rfl, h.timeoutWait _ _⟩
  | .timerFire _ _ => ⟨_, rfl, h.timerFire _ _⟩
  | .edgeDeliver _ _ => exec_canonical_of_untouched h _ rfl
  | .deadlock _ => ⟨_, rfl, h.reachDeadlock _⟩
  | .commitSingle _ _ => ⟨_, rfl, h.commitWrite _ _ _ _⟩
  | .commitJoin _ _ _ => ⟨_, rfl, h.commitWrite _ _ _ _⟩
  | .commitSubmit _ _ _ => ⟨_, rfl, h.commitWrite _ _ _ _⟩
  | .discard _ _ => exec_canonical_of_untouched h _ rfl
  | .setApply _ => ⟨_, rfl, h.applyOldest _⟩
  | .attnLatchClear _ _ _ => ⟨_, rfl, h.writeReg _ _ _ _⟩
  | .wmarkCrossedClear _ _ _ => ⟨_, rfl, h.writeReg _ _ _ _⟩
  | .attnMaskWrite _ _ _ => ⟨_, rfl, h.writeReg _ _ _ _⟩
  | .registerWrite _ _ _ _ => ⟨_, rfl, h.writeReg _ _ _ _⟩
  | .lowWordRead _ _ _ => ⟨_, rfl, h.bar0Read _ _ _⟩
  | .nowDateRead _ => ⟨_, rfl, h.bar0Read _ _ _⟩
  | .errCountRead _ _ => ⟨_, rfl, h.bar0Read _ _ _⟩
  | .cFaultRead _ _ => ⟨_, rfl, h.bar0Read _ _ _⟩
  | .cStorePeakRead _ _ => ⟨_, rfl, h.bar0Read _ _ _⟩
  | .eQueuePeakRead _ _ => ⟨_, rfl, h.bar0Read _ _ _⟩
  | .slotsPeakRead _ => ⟨_, rfl, h.bar0Read _ _ _⟩
  | .qPeakRead _ _ => ⟨_, rfl, h.bar0Read _ _ _⟩
  | .bar2DropsRead _ => ⟨_, rfl, h.bar0Read _ _ _⟩
  | .traceDropsRead _ => ⟨_, rfl, h.bar0Read _ _ _⟩
  | .tailWrite _ _ => ⟨_, rfl, h.writeReg _ _ _ _⟩
  | .divCountRead _ => ⟨_, rfl, h.bar0Read _ _ _⟩
  | .cascadeDropsRead _ => ⟨_, rfl, h.bar0Read _ _ _⟩
  | .foreignRead _ => ⟨_, rfl, h.bar0Read _ _ _⟩
  | .lErrRead _ _ => ⟨_, rfl, h.bar0Read _ _ _⟩
  | .resetCauseRead _ => ⟨_, rfl, h.bar0Read _ _ _⟩
  | .muxStuckRead _ => ⟨_, rfl, h.bar0Read _ _ _⟩
  | .dEccRead _ _ => ⟨_, rfl, h.bar0Read _ _ _⟩
  | .tCtrlReset _ _ => ⟨_, rfl, h.orRefuse _ _ _ _ (h.requestReset _ _)⟩
  | .tCtrlHold _ _ => ⟨_, rfl, h.orRefuse _ _ _ _ (h.requestHold _ _)⟩
  | .tCtrlRelease _ _ => ⟨_, rfl, h.orRefuse _ _ _ _ (h.requestRelease _)⟩
  | .dispatchAckTimeout _ _ => ⟨_, rfl, h.ackTimeout _ _⟩
  | .unitRst _ _ _ => ⟨_, rfl, h.unitReset _ _ _⟩
  | .unitRstDone => ⟨_, rfl, h.unitResetDone⟩
  | .pkgRst _ => ⟨_, rfl, h.pkgRst _⟩
  | .pwrGoodFall => ⟨_, rfl, h.powerFalls⟩
  | .sysRstNLow _ => ⟨_, rfl, h.sysResetLow _⟩
  | .sysRstNRise => ⟨_, rfl, h.sysResetRises⟩
  | .bootStageComplete _ => ⟨_, rfl, h.endBootStage _⟩
  | .coldReset => ⟨_, rfl, State.Canonical.coldReset⟩
  | .portReset _ _ => ⟨_, rfl, h.portReset _ _⟩
  | .portReady _ => exec_canonical_of_untouched h _ rfl
  | .tempSample _ => ⟨_, rfl, h.tempSample _⟩
  | .throttleStep => ⟨_, rfl, h.throttleStep⟩
  | .throttleEnd => ⟨_, rfl, h.throttleEnd⟩
  | .throttleRestoreStep => ⟨_, rfl, h.restoreStep⟩
  | .dramRefresh => ⟨_, rfl, h.dramRefresh⟩
  | .levelChangeRequest _ _ => ⟨_, rfl, h.writeTarget _ _⟩
  | .pllLockDetect => exec_canonical_of_untouched h _ rfl
  | .pllStable _ => ⟨_, rfl, h.pllStable _⟩
  | .sourceStable _ => exec_canonical_of_untouched h _ rfl
  | .sourceStartTimeout _ => exec_canonical_of_untouched h _ rfl
  | .srcEnWrite _ _ => ⟨_, rfl, h.writeSrcEn _ _⟩
  | .muxSwitch _ => ⟨_, rfl, h.muxSwitch _⟩
  | .muxWatchdog _ _ => ⟨_, rfl, h.muxWatchdog _ _⟩
  | .refLost => ⟨_, rfl, h.loseReference⟩
  | .meterStart _ _ => ⟨_, rfl, h.writeMeter _ _⟩
  | .meterDone _ => exec_canonical_of_untouched h _ rfl
  | .trimStart _ _ => ⟨_, rfl, h.writeTrimCtrl _ _⟩
  | .trimIteration _ => exec_canonical_of_untouched h _ rfl
  | .trimRefTimeout => ⟨_, rfl, h.trimTimeout⟩
  | .rtcSecond => exec_canonical_of_untouched h _ rfl
  | .rtcSourceLost => exec_canonical_of_untouched h _ rfl
  | .calSet _ => ⟨_, rfl, h.calSet _⟩
  | .linkEnable _ _ => ⟨_, rfl, h.enableLink _ _ _⟩
  | .linkTrained _ _ => exec_canonical_of_untouched h _ rfl
  | .retrain _ _ => ⟨_, rfl, h.orRefuse _ _ _ _ (h.retrainLink _)⟩
  | .linkReplay _ => exec_canonical_of_untouched h _ rfl
  | .replayRetrain _ => ⟨_, rfl, h.retrainIf _ _⟩
  | .linkDownTimeout _ => ⟨_, rfl, h.killLink _⟩
  | .routeDataWrite _ _ => ⟨_, rfl, h.writeRoute _ _⟩
  | .write _ _ => ⟨_, rfl, h.routeFrame _ _ _ (h.serve _ _)⟩
  | .read _ _ => ⟨_, rfl, h.routeFrame _ _ _ (h.serve _ _)⟩
  | .doorbell _ _ => ⟨_, rfl, h.routeFrame _ _ _ (h.serve _ _)⟩
  | .collPart _ _ => ⟨_, rfl, h.routeFrame _ _ _ (h.masterPart _)⟩
  | .ack _ _ => ⟨_, rfl, h.routeFrame _ _ _ (h.deliverResponse _ _)⟩
  | .readData _ _ => ⟨_, rfl, h.routeFrame _ _ _ (h.deliverResponse _ _)⟩
  | .collResult _ _ => ⟨_, rfl, h.routeFrame _ _ _ (h.collResult _ _)⟩
  | .witness _ _ => ⟨_, rfl, h.routeFrame _ _ _ ((h.notePeer _ _).takeWitness _ _)⟩
  | .tick _ _ => ⟨_, rfl, h.takeTick _ _⟩
  | .tickForward => exec_canonical_of_untouched h _ rfl
  | .mark _ _ => ⟨_, rfl, h.takeMark _ _⟩
  | .markSend => exec_canonical_of_untouched h _ rfl
  | .markForward => exec_canonical_of_untouched h _ rfl
  | .masterLost => ⟨_, rfl, h.loseMaster⟩
  | .cal _ _ => exec_canonical_of_untouched h _ rfl
  | .calEchoSend _ => exec_canonical_of_untouched h _ rfl
  | .calEcho _ _ _ => exec_canonical_of_untouched h _ rfl
  | .lynxWindowEnd => ⟨_, rfl, h.endWindow⟩
  | .lynxSig _ => ⟨_, rfl, h.takeSig _⟩
  | .lynxNotice _ => ⟨_, rfl, h.takeNotice _⟩
  | .lynxMissing _ => ⟨_, rfl, h.missSigs _⟩
  | .divClear _ => ⟨_, rfl, h.orRefuse _ _ _ _ (h.updLynx _)⟩
  | .getInfo _ _ => ⟨_, rfl, h.mailOp _ _ _⟩
  | .readSensors _ _ => ⟨_, rfl, h.mailOp _ _ _⟩
  | .readCounters _ _ => ⟨_, rfl, h.mailOp _ _ _⟩
  | .readLog _ _ => ⟨_, rfl, h.mailOp _ _ _⟩
  | .getIdentity _ _ => ⟨_, rfl, h.mailOp _ _ _⟩
  | .challenge _ _ => ⟨_, rfl, h.mailOp _ _ _⟩
  | .verify _ _ => ⟨_, rfl, h.mailOp _ _ _⟩
  | .pair _ _ => ⟨_, rfl, h.mailOp _ _ _⟩
  | .identAck _ _ => ⟨_, rfl, h.mailOp _ _ _⟩
  | .fence _ _ => ⟨_, rfl, h.mailOp _ _ _⟩
  | .unfence _ _ => ⟨_, rfl, h.mailOp _ _ _⟩
  | .fwBegin _ _ => ⟨_, rfl, h.mailOp _ _ _⟩
  | .fwChunk _ _ => ⟨_, rfl, h.mailOp _ _ _⟩
  | .fwFinish _ _ => ⟨_, rfl, h.mailOp _ _ _⟩
  | .fwConfirm _ _ => ⟨_, rfl, h.mailOp _ _ _⟩
  | .setBoardCfg _ _ => ⟨_, rfl, h.mailOp _ _ _⟩
  | .getBoardCfg _ _ => ⟨_, rfl, h.mailOp _ _ _⟩
  | .smbResponseRead _ => exec_canonical_of_untouched h _ rfl
  | .smbTimeRead => exec_canonical_of_untouched h _ rfl
  | .logFlush => ⟨_, rfl, h.flushLog⟩
  | .counterCheckpoint => exec_canonical_of_untouched h _ rfl
  | .railSample _ _ _ _ => ⟨_, rfl, h.railSample _ _ _ _⟩
  | .sramCorrected _ => ⟨_, rfl, h.sramCorrected _⟩
  | .sramUe _ => ⟨_, rfl, h.sramUe _⟩
  | .dramCorrected _ => ⟨_, rfl, h.dramCorrected _⟩
  | .dramUe _ => ⟨_, rfl, h.dramUe _⟩
  | .extest => ⟨_, rfl, h.loadTest _ _⟩
  | .idcode => ⟨_, rfl, (h.loadJtag _ _).draw⟩
  | .samplePreload => ⟨_, rfl, (h.loadJtag _ _).congr rfl fun _ => rfl⟩
  | .clamp => ⟨_, rfl, h.loadTest _ _⟩
  | .highz => ⟨_, rfl, h.loadTest _ _⟩
  | .extestPulse => ⟨_, rfl, h.loadTest _ _⟩
  | .extestTrain => ⟨_, rfl, h.loadTest _ _⟩
  | .bypass => ⟨_, rfl, h.loadJtag _ _⟩
  | .lastFrameEnd => ⟨_, rfl, h.endLastFrame⟩
  | .alignedFrameBoundary => ⟨_, rfl, h.alignedBoundary⟩
  | .guardActionsComplete => ⟨_, rfl, h.completeGuard⟩
  | .queueDmaError _ _ _ => ⟨_, rfl, h.setDmaErr _ _ _⟩
  | .rtcSourceReturn => exec_canonical_of_untouched h _ rfl
  | .pwrGoodRise => ⟨_, rfl, h.powerRises⟩
  | .v3p3Loss => exec_canonical_of_untouched h _ rfl
  | .v3p3Return => exec_canonical_of_untouched h _ rfl
  | .owlWatchdog => ⟨_, rfl, h.owlWatchdog⟩
  | .linkDown _ => exec_canonical_of_untouched h _ rfl
  | .invalidFrame _ _ => exec_canonical_of_untouched h _ rfl
  | .creditReturn _ _ => exec_canonical_of_untouched h _ rfl
  | .mbGoWhileBusy _ => exec_canonical_of_untouched h _ rfl
  | .unassignedMailboxOpcode _ _ => ⟨_, rfl, h.mailRow _ _ _⟩
  | .mailboxFrameDiscarded _ => exec_canonical_of_untouched h _ rfl
  | .flashEraseDone => ⟨_, rfl, h.eraseDone⟩

/-- Settles O7: the effect of every command keeps the canonical forms (`exec_canonical`), and so do the idle microsecond and the conditions that
watch the state (`settle`). -/
theorem everyStepKeepsMapsCanonical : Obligations.EveryStepKeepsMapsCanonical := by
  unfold Obligations.EveryStepKeepsMapsCanonical
  intro s t h hstep
  unfold step at hstep
  split at hstep
  · obtain rfl := Host.Outcome.next.inj hstep
    exact h.idle
  · next i rest _ =>
    have hrest : State.Canonical { s with pending := rest } := h.congr rfl fun _ => rfl
    obtain ⟨after, hexec, hafter⟩ := exec_canonical hrest i
    obtain rfl := Host.Outcome.next.inj (hexec.symm.trans hstep)
    exact hafter.settle

end Sys2Proof.Machine
end
